-- ==== Sys2Proof/Word.lean ====
section
/-! DEFINITION. The word types of the model and their plainest arithmetic (R10, R76: multi-byte fields are little-endian;
counters wrap at the width the manual gives them). -/

namespace Sys2Proof

/-- One byte of a frame, a payload or a record. -/
abbrev Byte := BitVec 8

/-- A 16-bit status word whose bits are OR-ed over time (R174, R194). -/
abbrev Word16 := BitVec 16

/-- Outlet ports P00 to P23. -/
abbrev Port := Fin 24

/-- Host ports HP0 to HP3. -/
abbrev HostPort := Fin 4

/-- Mailboxes: 0 to 3 are HP0 to HP3, 4 and 5 are lanes 0 and 1 of the service port (R43, R477). -/
abbrev Box := Fin 6

/-- Mains phases L1 to L3, outlet phases A to C. -/
abbrev Phase := Fin 3

/-- Register sets: 0 to 23 outlets, 24 SITE, 25 to 28 AUX0 to AUX3 (R181). -/
abbrev SetIx := Fin 29

/-- Sigma-delta modulators (R148). -/
abbrev Modulator := Fin 160

/-- Metering channels (R148). -/
abbrev Channel88 := Fin 88

/-- Counters of 8, 16, 32, 48 and 64 bits wrap. -/
def w8 (n : Nat) : Nat := n % 256
def w16 (n : Nat) : Nat := n % 65536
def w32 (n : Nat) : Nat := n % 4294967296
def w48 (n : Nat) : Nat := n % 281474976710656
def w64 (n : Nat) : Nat := n % 18446744073709551616

/-- A value that saturates at a bound instead of wrapping. -/
def sat (bound n : Nat) : Nat := min bound n

end Sys2Proof
end

