-- ==== Sys2Proof/Config.lean ====
section
/-! DEFINITION. The values the manual leaves open, as constants without a body: nothing in Lean can evaluate them (log entry 5).
Each is applied to the model's counter of draws, or to the operands it depends on. -/

namespace Sys2Proof.Config

/-- A number the manual leaves open (a backoff draw, an identifier), per draw. -/
opaque freeNat : Nat → Nat

/-- The i-th byte of a byte string the manual leaves open (nonces, signatures, generated keys), per draw. -/
opaque freeByte : Nat → Nat → Byte

/-- The record of its region and the copy that a line of MRAM holds (R41, R87): the manual gives the regions alone. -/
opaque mramPlace : Nat → Nat

/-- Major and minor version of the Keep image in a Keep part (R304): the manual does not say where the part holds them. -/
opaque keepVersion : List Byte → Nat

/-- The bytes of the update vendor key hash in OTP (R445 slot 10). -/
opaque vendorHash : Nat → Byte

/-- The active current in microamperes of a power at a voltage of 0, where the quotient of R212 has no value. -/
opaque activeCurrent : Int → Int

/-- The power factor, in units of 2^-30, of a power at an apparent power of 0, where the quotient of R123 has no value. -/
opaque powerFactor : Int → Int

/-- The n bytes of draw `k`. -/
def freeBytes (n k : Nat) : List Byte := (List.range n).map (freeByte k)

@[simp] theorem freeBytes_length (n k : Nat) : (freeBytes n k).length = n := by simp [freeBytes]

end Sys2Proof.Config
end

