-- ==== Sys2Proof/Machine/Bytes.lean ====
section
/-! DEFINITION. Byte strings: little-endian fields (R10), slices, padding, and the check sequences the manual names. -/

namespace Sys2Proof.Machine

/-- `n` bytes of value 0. -/
def zeros (n : Nat) : List Byte := List.replicate n 0

/-- The `n` low bytes of `v`, least significant first (R10). -/
def le : Nat → Nat → List Byte
  | 0, _ => []
  | n + 1, v => BitVec.ofNat 8 v :: le n (v / 256)

/-- `n` bytes in two's complement, least significant first. -/
def leInt (n : Nat) (v : Int) : List Byte := le n (v % (256 ^ n : Nat)).toNat

/-- The number a little-endian byte string holds. -/
def fromLe : List Byte → Nat
  | [] => 0
  | b :: bs => b.toNat + 256 * fromLe bs

/-- The two's complement number a little-endian byte string holds. -/
def fromLeInt (bs : List Byte) : Int :=
  let v := fromLe bs
  if 2 * v < 256 ^ bs.length then v else (v : Int) - (256 ^ bs.length : Nat)

/-- `len` bytes from `off`; shorter where the string ends. -/
def slice (bs : List Byte) (off len : Nat) : List Byte := (bs.drop off).take len

/-- A field of a payload. -/
def field (bs : List Byte) (off len : Nat) : Nat := fromLe (slice bs off len)
def fieldInt (bs : List Byte) (off len : Nat) : Int := fromLeInt (slice bs off len)

/-- Exactly `n` bytes: cut, or filled with zeros. -/
def fit (n : Nat) (bs : List Byte) : List Byte := bs.take n ++ zeros (n - bs.length)

def isZero (bs : List Byte) : Bool := bs.all (· == 0)

/-- `bs` with `data` written at `off`. -/
def splice (bs : List Byte) (off : Nat) (data : List Byte) : List Byte :=
  bs.take off ++ data ++ bs.drop (off + data.length)

def b1 (b : Bool) : Nat := if b then 1 else 0

/-- A number whose bit i is the i-th flag. -/
def bits : List Bool → Nat
  | [] => 0
  | b :: bs => b1 b + 2 * bits bs

def bit (v i : Nat) : Bool := v.testBit i

/-- The bits of some bytes in turn, each byte's least significant bit first. -/
def lsbFirst (bs : List Byte) : List Bool := bs.flatMap (fun b => (List.range 8).map (fun i => b.getLsbD i))

/-- An element put before the first that it may precede. -/
def insertBy {α : Type} (before : α → α → Bool) (a : α) : List α → List α
  | [] => [a]
  | b :: bs => if before a b then a :: b :: bs else b :: insertBy before a bs

/-- A list in an order; elements that may precede each other keep theirs. -/
def sortBy {α : Type} (before : α → α → Bool) (l : List α) : List α := l.foldr (insertBy before) []

/-- Bytes xor-ed one by one, as far as the shorter goes. -/
def xorBytes (a b : List Byte) : List Byte := List.zipWith (· ^^^ ·) a b

/-- One reflected CRC step over a byte: `k` shifts. -/
def crcShift (poly : Nat) : Nat → Nat → Nat
  | 0, r => r
  | k + 1, r => crcShift poly k (if r % 2 = 1 then (r / 2) ^^^ poly else r / 2)

/-- CRC-32C: Castagnoli, reflected, initial and final 0xFFFF_FFFF (R56). -/
def crc32c (bs : List Byte) : Nat :=
  (bs.foldl (fun r b => crcShift 0x82F63B78 8 (r ^^^ b.toNat)) 0xFFFFFFFF) ^^^ 0xFFFFFFFF

/-- One non-reflected CRC step of width `w`. -/
def crcShiftLeft (w poly : Nat) : Nat → Nat → Nat
  | 0, r => r
  | k + 1, r =>
    let r2 := (2 * r) % 2 ^ w
    crcShiftLeft w poly k (if r.testBit (w - 1) then r2 ^^^ poly else r2)

/-- CRC of 16 bits, most significant bit first. -/
def crc16 (poly init : Nat) (bs : List Byte) : Nat :=
  bs.foldl (fun r b => crcShiftLeft 16 poly 8 (r ^^^ (b.toNat * 256))) init

/-- CRC of 8 bits, most significant bit first. -/
def crc8 (poly init : Nat) (bs : List Byte) : Nat :=
  bs.foldl (fun r b => crcShiftLeft 8 poly 8 (r ^^^ b.toNat)) init

@[simp] theorem zeros_length (n : Nat) : (zeros n).length = n := by simp [zeros]

@[simp] theorem le_length (n v : Nat) : (le n v).length = n := by
  induction n generalizing v with
  | zero => rfl
  | succ n ih => simp [le, ih]

@[simp] theorem leInt_length (n : Nat) (v : Int) : (leInt n v).length = n := by simp [leInt]

@[simp] theorem fit_length (n : Nat) (bs : List Byte) : (fit n bs).length = n := by
  simp [fit]; omega

/-- Reading back the bytes of a number gives the number modulo the field's width. -/
theorem fromLe_le (n v : Nat) : fromLe (le n v) = v % 256 ^ n := by
  induction n generalizing v with
  | zero => simp [le, fromLe, Nat.mod_one]
  | succ n ih =>
    have h : (BitVec.ofNat 8 v).toNat = v % 256 := by simp [BitVec.toNat_ofNat]
    rw [le, fromLe, ih, h, Nat.pow_succ, Nat.mul_comm (256 ^ n) 256, Nat.mod_mul]

end Sys2Proof.Machine
end

