-- ==== Sys2Proof/Machine/Crypto.lean ====
section
/-! DEFINITION. The named algorithms of the manual computed on data the model holds: AES, AES-CMAC, AES key wrap, SHA-256 and HKDF,
as their public standards give them (log entry 8, PRESUMED). -/

namespace Sys2Proof.Machine

/-- Multiplication by x in GF(2^8) with the AES polynomial. -/
def gfDouble (a : Nat) : Nat := if a < 128 then 2 * a else (2 * a) ^^^ 0x11B

/-- `gfMul n a b`: the product with the `n` low bits of `b`. -/
def gfMul : Nat → Nat → Nat → Nat
  | 0, _, _ => 0
  | n + 1, a, b => (if b % 2 = 1 then a else 0) ^^^ gfMul n (gfDouble a) (b / 2)

/-- Rows of the AES substitution box: entry 16r+c is byte c of row r, the lowest first. -/
def sboxRows : List Nat :=
  [0x76ABD7FE2B670130C56F6BF27B777C63, 0xC072A49CAFA2D4ADF04759FA7DC982CA,
   0x1531D871F1E5A534CCF73F362693FDB7, 0x75B227EBE28012079A059618C323C704,
   0x842FE329B3D63B52A05A6E1B1A2C8309, 0xCF584C4A39BECB6A5BB1FC20ED00D153,
   0xA89F3C507F02F94585334D43FBAAEFD0, 0xD2F3FF1021DAB6BCF5389D928F40A351,
   0x73195D643D7EA7C41744975FEC130CCD, 0xDB0B5EDE14B8EE4688902A22DC4F8160,
   0x79E4959162ACD3C25C2406490A3A32E0, 0x08AE7A65EAF4566CA94ED58D6D37C8E7,
   0x8A8BBD4B1F74DDE8C6B4A61C2E2578BA, 0x9E1DC186B95735610EF6034866B53E70,
   0xDF2855CEE9871E9B948ED9691198F8E1, 0x16BB54B00F2D99416842E6BF0D89A18C]

/-- Rows of the inverse substitution box. -/
def sboxInvRows : List Nat :=
  [0xFBD7F3819EA340BF38A53630D56A0952, 0xCBE9DEC444438E3487FF2F9B8239E37C,
   0x4EC3FA420B954CEE3D23C2A632947B54, 0x25D18B6D49A25B76B224D92866A12E08,
   0x92B6655DCC5CA4D41698688664F6F872, 0x849D8DA75746155EDAB9EDFD5048706C,
   0x0645B3B80558E4F70AD3BC8C00ABD890, 0x6B8A130103BDAFC1020F3FCA8F1E2CD0,
   0x73E6B4F0CECFF297EADC674F4111913A, 0x6EDF751CE837F9E28535ADE72274AC96,
   0x1BBE18AA0E62B76F89C5291D711AF147, 0xF45ACD78FEC0DB9A2079D2C64B3E56FC,
   0x5FEC8027591012B131C7078833A8DD1F, 0xEF9CC9939F7AE52D0D4AB519A97F5160,
   0x619953833CBBEBC8B0F52AAE4D3BE0A0, 0x7D0C2155631469E126D677BA7E042B17]

/-- An entry of a box held in rows. -/
def boxEntry (rows : List Nat) (a : Nat) : Nat := (rows.getD (a / 16) 0 >>> (8 * (a % 16))) % 256

/-- AES substitution box. -/
def sbox (a : Byte) : Byte := BitVec.ofNat 8 (boxEntry sboxRows a.toNat)

/-- Inverse substitution box. -/
def sboxInv (a : Byte) : Byte := BitVec.ofNat 8 (boxEntry sboxInvRows a.toNat)

def byteAt (bs : List Byte) (i : Nat) : Byte := bs.getD i 0

/-- A byte times a coefficient of the mixing, at most 14. -/
def gf (k : Nat) (b : Byte) : Byte := BitVec.ofNat 8 (gfMul 4 b.toNat k)

/-- Rows shifted: output byte 4c+r comes from column c+r (or c-r for the inverse). -/
def shiftRows (s : List Byte) : List Byte :=
  (List.range 16).map (fun i => byteAt s (4 * ((i / 4 + i % 4) % 4) + i % 4))
def shiftRowsInv (s : List Byte) : List Byte :=
  (List.range 16).map (fun i => byteAt s (4 * ((i / 4 + 4 - i % 4) % 4) + i % 4))

/-- Columns mixed with the circulant row k0 k1 k2 k3. -/
def mixWith (k0 k1 k2 k3 : Nat) (s : List Byte) : List Byte :=
  (List.range 16).map (fun i =>
    let c := 4 * (i / 4)
    let r := i % 4
    gf k0 (byteAt s (c + r)) ^^^ gf k1 (byteAt s (c + (r + 1) % 4))
      ^^^ gf k2 (byteAt s (c + (r + 2) % 4)) ^^^ gf k3 (byteAt s (c + (r + 3) % 4)))

/-- Round keys: `n` further ones from the last, with its round constant. -/
def expandKey : Nat → Nat → List Byte → List (List Byte)
  | 0, _, _ => []
  | n + 1, rcon, k =>
    let t0 := sbox (byteAt k 13) ^^^ BitVec.ofNat 8 rcon
    let t := [t0, sbox (byteAt k 14), sbox (byteAt k 15), sbox (byteAt k 12)]
    let w0 := xorBytes (slice k 0 4) t
    let w1 := xorBytes (slice k 4 4) w0
    let w2 := xorBytes (slice k 8 4) w1
    let w3 := xorBytes (slice k 12 4) w2
    let k2 := w0 ++ w1 ++ w2 ++ w3
    k2 :: expandKey n (gfDouble rcon) k2

/-- Further key material of a 256-bit key: `n` times 32 bytes from the last 32, with the round constant. -/
def expandKey256 : Nat → Nat → List Byte → List Byte
  | 0, _, _ => []
  | n + 1, rcon, k =>
    let t := [sbox (byteAt k 29) ^^^ BitVec.ofNat 8 rcon, sbox (byteAt k 30), sbox (byteAt k 31), sbox (byteAt k 28)]
    let w0 := xorBytes (slice k 0 4) t
    let w1 := xorBytes (slice k 4 4) w0
    let w2 := xorBytes (slice k 8 4) w1
    let w3 := xorBytes (slice k 12 4) w2
    let w4 := xorBytes (slice k 16 4) (w3.map sbox)
    let w5 := xorBytes (slice k 20 4) w4
    let w6 := xorBytes (slice k 24 4) w5
    let w7 := xorBytes (slice k 28 4) w6
    let k2 := w0 ++ w1 ++ w2 ++ w3 ++ w4 ++ w5 ++ w6 ++ w7
    k2 ++ expandKey256 n (gfDouble rcon) k2

/-- The round keys after the first: 10 of a 128-bit key, 14 of a 256-bit one. -/
def roundKeys (key : List Byte) : List (List Byte) :=
  if key.length = 32 then
    let m := (key ++ expandKey256 7 1 key).drop 16
    (List.range 14).map (fun i => slice m (16 * i) 16)
  else expandKey 10 1 key

/-- AES encryption of one block under a key of 128 or 256 bits. -/
def aesEncrypt (key block : List Byte) : List Byte :=
  let ks := roundKeys key
  let n := ks.length - 1
  let s0 := xorBytes block (key.take 16)
  let sn := (ks.take n).foldl (fun s k => xorBytes (mixWith 2 3 1 1 (shiftRows (s.map sbox))) k) s0
  xorBytes (shiftRows (sn.map sbox)) (ks.getD n [])

/-- AES-128 decryption of one block. -/
def aesDecrypt (key block : List Byte) : List Byte :=
  let ks := expandKey 10 1 key
  let s0 := (shiftRowsInv (xorBytes block (ks.getD 9 []))).map sboxInv
  let s9 := (ks.take 9).reverse.foldl
    (fun s k => (shiftRowsInv (mixWith 14 11 13 9 (xorBytes s k))).map sboxInv) s0
  xorBytes s9 key

/-- Doubling of a 16-byte string read most significant byte first (CMAC subkeys). -/
def cmacDouble (l : List Byte) : List Byte :=
  let v := fromLe l.reverse
  let d := (2 * v) % 2 ^ 128
  (le 16 (if v.testBit 127 then d ^^^ 0x87 else d)).reverse

/-- The chain over whole blocks: `n` blocks from the state `x`. -/
def cmacChain (key : List Byte) : Nat → List Byte → List Byte → List Byte
  | 0, x, _ => x
  | n + 1, x, m => cmacChain key n (aesEncrypt key (xorBytes x (m.take 16))) (m.drop 16)

/-- AES-CMAC. -/
def cmac (key m : List Byte) : List Byte :=
  let k1 := cmacDouble (aesEncrypt key (zeros 16))
  let k2 := cmacDouble k1
  let full := m.length ≠ 0 ∧ m.length % 16 = 0
  let before := if full then m.length / 16 - 1 else m.length / 16
  let last := m.drop (16 * before)
  let fin := if full then xorBytes last k1 else xorBytes (fit 16 (last ++ [0x80])) k2
  aesEncrypt key (xorBytes (cmacChain key before (zeros 16) m) fin)

/-- A byte string filled with zeros to whole blocks. -/
def padBlocks (m : List Byte) : List Byte := fit (16 * ((m.length + 15) / 16)) m

/-- Two bytes, most significant first. -/
def be2 (v : Nat) : List Byte := (le 2 v).reverse

/-- Keystream block `i` of CCM with a 13-byte nonce. -/
def ccmStream (key nonce : List Byte) (i : Nat) : List Byte := aesEncrypt key ([0x01] ++ nonce ++ be2 i)

/-- AES-128 CCM with a 13-byte nonce and an 8-byte authentication value: the encrypted data and the value (R388). -/
def ccm (key nonce aad data : List Byte) : List Byte × List Byte :=
  let b0 : List Byte := [0x59] ++ nonce ++ be2 data.length
  let m := b0 ++ padBlocks (be2 aad.length ++ aad) ++ padBlocks data
  let mac := cmacChain key (m.length / 16) (zeros 16) m
  let n := (data.length + 15) / 16
  let stream := (List.range n).flatMap (fun i => ccmStream key nonce (i + 1))
  (xorBytes data stream, (xorBytes mac (ccmStream key nonce 0)).take 8)

/-- One step of AES key wrap over two data blocks. -/
def wrapStep (kek : List Byte) (x : List Byte × List (List Byte)) (t : Nat) : List Byte × List (List Byte) :=
  let n := x.2.length
  let i := (t - 1) % n
  let b := aesEncrypt kek (x.1 ++ x.2.getD i [])
  (xorBytes (b.take 8) (le 8 t).reverse, x.2.set i (b.drop 8))

def unwrapStep (kek : List Byte) (x : List Byte × List (List Byte)) (t : Nat) : List Byte × List (List Byte) :=
  let n := x.2.length
  let i := (t - 1) % n
  let b := aesDecrypt kek (xorBytes x.1 (le 8 t).reverse ++ x.2.getD i [])
  (b.take 8, x.2.set i (b.drop 8))

/-- A 128-bit key wrapped in 24 bytes. -/
def keyWrap (kek key : List Byte) : List Byte :=
  let r := ((List.range 12).map (· + 1)).foldl (wrapStep kek) (List.replicate 8 0xA6, [key.take 8, (key.drop 8).take 8])
  r.1 ++ r.2.flatten

/-- The 128-bit key a 24-byte wrapping holds, none where its integrity value fails. -/
def keyUnwrap (kek wrapped : List Byte) : Option (List Byte) :=
  let r := ((List.range 12).map (· + 1)).reverse.foldl (unwrapStep kek)
    (wrapped.take 8, [slice wrapped 8 8, slice wrapped 16 8])
  if wrapped.length = 24 ∧ r.1 = List.replicate 8 0xA6 then some r.2.flatten else none

/-- SHA-256's round constants, the first 32 bits of the fractions of the cube roots of the first 64 primes: word 4r+c is bits 32c up of
row r. -/
def shaRows : List Nat :=
  [0xE9B5DBA5B5C0FBCF71374491428A2F98, 0xAB1C5ED5923F82A459F111F13956C25B,
   0x550C7DC3243185BE12835B01D807AA98, 0xC19BF1749BDC06A780DEB1FE72BE5D74,
   0x240CA1CC0FC19DC6EFBE4786E49B69C1, 0x76F988DA5CB0A9DC4A7484AA2DE92C6F,
   0xBF597FC7B00327C8A831C66D983E5152, 0x1429296706CA6351D5A79147C6E00BF3,
   0x53380D134D2C6DFC2E1B213827B70A85, 0x92722C8581C2C92E766A0ABB650A7354,
   0xC76C51A3C24B8B70A81A664BA2BFE8A1, 0x106AA070F40E3585D6990624D192E819,
   0x34B0BCB52748774C1E376C0819A4C116, 0x682E6FF35B9CCA4F4ED8AA4A391C0CB3,
   0x8CC7020884C8781478A5636F748F82EE, 0xC67178F2BEF9A3F7A4506CEB90BEFFFA]

abbrev Word32 := BitVec 32

/-- Word `c` of a number that holds words, the lowest first. -/
def wordOf (x c : Nat) : Word32 := BitVec.ofNat 32 (x >>> (32 * c))

def shaConstant (i : Nat) : Word32 := wordOf (shaRows.getD (i / 4) 0) (i % 4)

/-- The eight working words. -/
structure ShaWords where
  (a b c d e f g h : Word32)
  deriving DecidableEq, Repr

/-- The chain's start, from the square roots of the first eight primes, packed as the round constants are. -/
def shaStart : ShaWords :=
  let x := 0x5BE0CD191F83D9AB9B05688C510E527FA54FF53A3C6EF372BB67AE856A09E667
  ⟨wordOf x 0, wordOf x 1, wordOf x 2, wordOf x 3, wordOf x 4, wordOf x 5, wordOf x 6, wordOf x 7⟩

def ShaWords.add (x y : ShaWords) : ShaWords :=
  ⟨x.a + y.a, x.b + y.b, x.c + y.c, x.d + y.d, x.e + y.e, x.f + y.f, x.g + y.g, x.h + y.h⟩

def ShaWords.bytes (x : ShaWords) : List Byte :=
  [x.a, x.b, x.c, x.d, x.e, x.f, x.g, x.h].flatMap (fun w => (le 4 w.toNat).reverse)

/-- The word turned right by each of some amounts, all added bit by bit. -/
def turned (turns : List Nat) (w : Word32) : Word32 := turns.foldl (fun acc n => acc ^^^ w.rotateRight n) 0

/-- Word `i` of a block's schedule window is its head: the window holds sixteen words, and a step drops the oldest. -/
def nextWindow (w : List Word32) : List Word32 :=
  let early := w.getD 1 0
  let late := w.getD 14 0
  w.drop 1 ++ [w.headD 0 + w.getD 9 0 + (turned [7, 18] early ^^^ early >>> 3) + (turned [17, 19] late ^^^ late >>> 10)]

/-- One round with its constant and schedule word summed. -/
def ShaWords.round (x : ShaWords) (kw : Word32) : ShaWords :=
  let choice := x.g ^^^ (x.e &&& (x.f ^^^ x.g))
  let most := (x.a &&& x.b) ||| (x.c &&& (x.a ||| x.b))
  let t := x.h + turned [6, 11, 25] x.e + choice + kw
  ⟨t + turned [2, 13, 22] x.a + most, x.a, x.b, x.c, x.d + t, x.e, x.f, x.g⟩

/-- `n` rounds ending with round 63, the window standing at the next one. -/
def shaRounds : Nat → List Word32 → ShaWords → ShaWords
  | 0, _, x => x
  | n + 1, w, x => shaRounds n (nextWindow w) (x.round (shaConstant (63 - n) + w.headD 0))

/-- A block's sixteen words, each most significant byte first. -/
def blockWords (block : List Byte) : List Word32 :=
  (List.range 16).map (fun i => BitVec.ofNat 32 (fromLe (slice block (4 * i) 4).reverse))

/-- The chain over `n` blocks. -/
def shaChain : Nat → ShaWords → List Byte → ShaWords
  | 0, x, _ => x
  | n + 1, x, m => shaChain n (x.add (shaRounds 64 (blockWords (m.take 64)) x)) (m.drop 64)

/-- SHA-256. -/
def sha256 (m : List Byte) : List Byte :=
  let filled := m ++ [0x80] ++ zeros ((119 - m.length % 64) % 64) ++ (le 8 (8 * m.length)).reverse
  (shaChain (filled.length / 64) shaStart filled).bytes

/-- HMAC with SHA-256 under a key of at most 64 bytes. -/
def hmac256 (key m : List Byte) : List Byte :=
  let mask (v : Byte) : List Byte := (fit 64 key).map (· ^^^ v)
  sha256 (mask 0x5C ++ sha256 (mask 0x36 ++ m))

/-- `n` blocks of HKDF-Expand after the block `t`, the next one numbered `i`. -/
def hkdfBlocks (prk info : List Byte) : Nat → Nat → List Byte → List Byte
  | 0, _, _ => []
  | n + 1, i, t =>
    let t2 := hmac256 prk (t ++ info ++ le 1 i)
    t2 ++ hkdfBlocks prk info n (i + 1) t2

/-- HKDF with SHA-256: Extract from `ikm` with a salt, Expand with `info` to `n` bytes. -/
def hkdf (salt ikm info : List Byte) (n : Nat) : List Byte :=
  (hkdfBlocks (hmac256 salt ikm) info ((n + 31) / 32) 1 []).take n

end Sys2Proof.Machine
end

