-- ==== Sys2Proof/Syntax.lean ====
section
/-! DEFINITION. The commands of the Drurus: one constructor of `Instr` per row of spec/opcode_table.json.
A row that is the execution of a request names only the mailbox whose oldest request is taken; a row that is an event at a pin, a
converter or another node carries what the manual lets that event bring (levels, readings, received bytes). -/

namespace Sys2Proof

/-- The two UARTs that carry mailbox units: HP3 (R52) and lane 1 of the service port (R479). -/
inductive Uart where
  | hp3 | svc
  deriving DecidableEq, Repr

/-- Clock domains CD0 to CD11 and the main crystal (R18, R19). -/
inductive Clock where
  | cd0 | cd1 | cd2 | cd3 | cd4 | cd5 | cd6 | cd7 | cd8 | cd9 | cd10 | cd11 | crystal
  deriving DecidableEq, Repr

/-- One published value of the measurement mirror (R31): half-cycle RMS in mA or mV, signed mean power in mW. -/
structure MirrorValue where
  channel : Channel88
  rms : Nat
  power : Int
  deriving DecidableEq, Repr

/-- Samples of one modulator, oldest first, in nV at the input: those of stage 3 of the metering branch, at 8 kS/s, or of stage 1, at 64 kS/s, by
the command that brings them (R153, R155). -/
structure ModSamples where
  modulator : Fin 160
  samples : List Int
  deriving DecidableEq, Repr

/-- A publication of the measurement mirror: the fast branch's samples over the half-cycle, of the modulators whose channels it holds, the index
of the first one since the release of the modulators, at 64 kS/s, how many the half-cycle has, and the comparators latched since the last
publication (R31, R155). -/
structure MirrorPub where
  fast : List ModSamples
  start : Nat
  count : Nat
  comparators : List (Port × Phase)
  deriving DecidableEq, Repr

/-- What one 1 ms evaluation period brings: the 1000 codes of the pilot converter, 0 to 4095, the first at the period boundary (R108, R109), Pnn_PPS and VDDA in microvolts (R113), the ten samples of Pnn_CTF (R120), the level of Pnn_PBF (R121) and the residual readings (R130). -/
structure LaneSample where
  cps : List Nat
  pps : Nat
  vdda : Nat
  ctf : List Bool
  pbf : Bool
  rcsDc : Int
  rcsAc : Nat
  rcsRms : Nat
  deriving DecidableEq, Repr

/-- Readings at a check of the residual test, in 0.1 mA, and the two detectors' flags within their times (R130). -/
structure ResidualReading where
  dc : Int
  ac : Nat
  rms : Nat
  dcFlag : Bool
  acFlag : Bool
  deriving DecidableEq, Repr

/-- The residual-current detectors of R244. -/
inductive Detector where
  | dc | ac | high
  deriving DecidableEq, Repr

/-- A positive-going zero crossing as the fast branch has it (R155): the index, at 64 kS/s since the release of the modulators, of the last
sample below 0, and the magnitudes of that sample and of the next. -/
structure ZeroCrossing where
  sample : Nat
  before : Nat
  after : Nat
  deriving DecidableEq, Repr

/-- What the DSP has at the end of a line cycle: the last positive zero crossing of each bus section 0 phase that has one (R159), and the
samples of stage 3; a modulator not listed has read 0. -/
structure CycleData where
  crossings : List (Phase × ZeroCrossing)
  modulators : List ModSamples
  deriving DecidableEq, Repr

/-- One strobe of a dual-path channel, in µV at the input: the magnitude of its ×1 sample, and the greatest magnitude at its ×16 modulator since
the strobe before (R156, R157). -/
structure PathStrobe where
  x1 : Nat
  peak : Nat
  deriving DecidableEq, Repr

/-- What detects the line frequency (R159): the source phase's crossings that bound four consecutive periods. -/
structure FrequencyFound where
  crossings : List ZeroCrossing
  deriving DecidableEq, Repr

/-- A command byte that is none of R47's, and how many bytes are clocked after it until CS_N rises. -/
structure StrayCommand where
  cmd : Byte
  clocked : Nat
  deriving DecidableEq, Repr

/-- The main supplies that Steeple's monitors and the brown-out detectors watch (R236, R504). -/
inductive Supply where
  | vddc | vdda | vddio | vddm
  deriving DecidableEq, Repr

/-- The seal fuse as sensed (R346). -/
inductive FuseSense where
  | intact | blown | undetermined
  deriving DecidableEq, Repr

/-- Tamper inputs (R349). -/
inductive TamperInput where
  | cover | terminal
  deriving DecidableEq, Repr

/-- The safety links (R286). -/
inductive SafetyPath where
  | snA | snB
  deriving DecidableEq, Repr

/-- How a copy arrives (R288, R289): framed as its link requires; framed otherwise, which on SN-B is a frame that is not FD or has another
length; or, on SN-B, as an error frame. -/
inductive CopyForm where
  | good | malformed | error
  deriving DecidableEq, Repr

/-- A copy's framing: its form, and on SN-B the identifier of its frame (R289). -/
structure CopyFraming where
  form : CopyForm
  canId : Nat
  deriving DecidableEq, Repr

/-- What became of the Drurus's own frame on SN-B (ISO 11898-1): sent, not acknowledged, or met by an error. -/
inductive CanSend where
  | sent | unacknowledged | error
  deriving DecidableEq, Repr

/-- Powerline bands (R365). -/
inductive Band where
  | low | upper
  deriving DecidableEq, Repr

/-- Directions of a powerline link. -/
inductive Direction where
  | send | receive
  deriving DecidableEq, Repr

/-- A powerline frame as received and decoded (R368, R372), with whether its MIC verified under the key in force, the retiring key, or neither
(R388, R449), and of each payload symbol the energy on the inactive and guard carriers over the noise floor, in 0.1 dB (R380). -/
structure PlcFrame where
  source : Nat
  destination : Nat
  originator : Nat
  final : Nat
  hopsLeft : Nat
  type : Nat
  priority : Nat
  sequence : Nat
  secured : Bool
  micOk : Bool
  counter : Nat
  ackRequested : Bool
  refreshRequested : Bool
  robust : Bool
  mapIndex : Fin 4
  zcOffset : Nat
  ownOffset : Nat
  data : List Byte
  symbols : List Int
  deriving DecidableEq, Repr

/-- The payload symbols of a frame whose check failed: the tone map its header names, none when robust, and of each symbol the energy on the
inactive and guard carriers over the noise floor, in 0.1 dB (R380). -/
structure FailedSymbols where
  mapIndex : Option (Fin 4)
  energies : List Int
  deriving DecidableEq, Repr

/-- A tone map (R371, R379): rate code and the 2-bit code of each carrier packed in bytes. -/
structure ToneMap where
  rate : Nat
  carriers : List Byte
  deriving DecidableEq, Repr

/-- Kinds of tag (R422, R439). -/
inductive TagKind where
  | keytagV1 | keytagV2 | typeA | iso15693
  deriving DecidableEq, Repr

/-- One block of a keytag as read: data and generation (R413). -/
structure TagBlock where
  index : Nat
  generation : Nat
  data : List Byte
  deriving DecidableEq, Repr

/-- What becomes of one exchange with a keytag (R415, R420): it goes well; the tag does not get the request; the tag acts on it, but its response
does not arrive, or arrives with a bad CRC_A or without its status byte; or the response arrives with other data. -/
inductive Fate where
  | ok | unheard | unanswered
  | altered (data : List Byte)
  deriving DecidableEq, Repr

/-- A tag found by a full poll (R408, R413 to R418): a keytag holds its password and key, the highest rate code it takes, the random number it
gives to the next challenge, and its blocks, those not listed being zeros of generation 0; `obliging` says that it answers every PASSCODE
with done, as any device may (R416); `fates` are those of the exchanges to come, the ones after them going well. -/
structure Tag where
  kind : TagKind
  uid : List Byte
  blank : Bool
  attemptsLeft : Nat
  password : List Byte
  key : List Byte
  obliging : Bool
  rates : Nat
  rt : List Byte
  blocks : List TagBlock
  fates : List Fate
  deriving DecidableEq, Repr

/-- Sources that act the destruction line (R451). -/
inductive DestroySource where
  | mesh | glitch | temperature | shield
  deriving DecidableEq, Repr

/-- How a line of a region read: good, or recovered at a step of R460, or uncorrectable. -/
inductive LineResult where
  | good | refetched | twinned | reloaded | uncorrectable
  deriving DecidableEq, Repr

/-- Who met the line (R473): an island by its clock domain, or the scrubber; `inRequest` says that a request of a host was being served (R462). -/
structure LineRequester where
  code : Nat
  write : Bool
  ownerWrote : Bool
  inRequest : Bool
  deriving DecidableEq, Repr

/-- What the checks of a start find (R442, R452, R494, R513): helper records, self-test, bundle verification, boards' levels. -/
inductive BundleCheck where
  | ok | manifestInvalid | digestMismatch | rollback
  deriving DecidableEq, Repr

structure StartFacts where
  array : List Nat
  fuse : FuseSense
  selfTestOk : Bool
  verifyA : BundleCheck
  verifyB : BundleCheck
  recordAOk : Bool
  recordBOk : Bool
  faultedIslands : List Clock
  deriving DecidableEq, Repr

/-- What a re-anchoring reads of a window it tries (R443): five fresh readings for the reference, and the sixth for the check, bit i cell i. -/
structure ReanchorTry where
  readings : List Nat
  check : Nat
  deriving DecidableEq, Repr

/-- What re-provisioning installs (R454): the AES keys of slots 2 to 7, the hash of slot 11, the certificates, and the reference response of window 0 that the enrolment reads. -/
structure Provisioning where
  keys : List (List Byte)
  oemHash : List Byte
  certificates : List (List Byte)
  reference : Nat
  deriving DecidableEq, Repr

/-- Islands that restart alone by a watchdog (R504 codes 6 to 9). -/
inductive Watchdog where
  | rotunda | keep | belfry | oculus
  deriving DecidableEq, Repr

/-- The commands, one per row of the opcode table: those with operands in the table's order, then those without, in its order. -/
inductive Instr where
  | status (p : HostPort)
  | writeFrame (p : HostPort) (bytes : List Byte)
  | readFrame (p : HostPort) (clocked : Nat)
  | readAgain (p : HostPort)
  | spiUnknownCommandByte (p : HostPort) (cmd : StrayCommand)
  | uartMailboxUnit (u : Uart) (bytes : List Byte)
  | uartUnitAbort (u : Uart)
  | linkControlResend (u : Uart)
  | linkStatusUnit (u : Uart)
  | uartFrameSent (u : Uart)
  | eventGap (b : Box)
  | hostAttach (b : Box)
  | hostAttachConfirm (b : Box)
  | attachTimeout (p : HostPort)
  | attachBarEnd (p : HostPort)
  | hostDetach (b : Box)
  | hostStatus (b : Box)
  | keepaliveExpiry (p : HostPort)
  | deviceInfo (b : Box)
  | timeGet (b : Box)
  | timeSet (b : Box)
  | softReset (b : Box)
  | dormant (b : Box)
  | blockReset (b : Box)
  | resetCause (b : Box)
  | optionRead (b : Box)
  | optionWrite (b : Box)
  | channelCreate (b : Box)
  | channelDestroy (b : Box)
  | channelRead (b : Box)
  | channelModify (b : Box)
  | channelList (b : Box)
  | cfgBegin (b : Box)
  | cfgWrite (b : Box)
  | cfgCommit (b : Box)
  | cfgAbort (b : Box)
  | cfgRead (b : Box)
  | cfgStatus (b : Box)
  | stageTimeout (p : HostPort)
  | commitApplyTimeout (p : HostPort)
  | allocSet (b : Box)
  | allocRead (b : Box)
  | mirrorPublish (f : Phase) (pub : MirrorPub)
  | mirrorPublishUnsync (pub : MirrorPub)
  | mirrorEntryStale (c : Channel88)
  | zoneTimerRestart (f : Phase)
  | softShedding (f : Phase)
  | hardShedding (f : Phase)
  | guardBlindFault (f : Phase)
  | clockLost (c : Clock)
  | clockGood (c : Clock)
  | islandReleaseTimeout (c : Clock)
  | evaluationPeriod (p : Port) (x : LaneSample)
  | pilotConfirmed (p : Port)
  | pilotFault (p : Port)
  | proximityCodeAccepted (p : Port)
  | cableRefused (p : Port)
  | reservationExpired (p : Port)
  | allowanceOpeningTimeout (p : Port)
  | residualTestStep (p : Port) (r : ResidualReading)
  | closingContactorSettled (p : Port) (ctf ctfUnchanged : Bool)
  | closingPreBreakStart (p : Port)
  | closingPbfCheck (p : Port) (pbf : Bool)
  | ovsEdge (p : Port)
  | ovsAbsent (p : Port)
  | ovsPresenceTimeout (p : Port)
  | openingCurrentZero (p : Port)
  | openingPbfCheck (p : Port) (pbf : Bool)
  | openingContactorRelease (p : Port)
  | openingCtfCheck (p : Port) (ctf : Bool)
  | weldProbe (p : Port)
  | weldProbeEnd (p : Port) (pbf : Bool)
  | contactorFeedbackDiscrepancy (p : Port) (ctf : Bool)
  | preBreakDiscrepancy (p : Port) (pbf : Bool)
  | faultOpeningChecks (p : Port) (ctf : Bool)
  | portEnable (b : Box)
  | portDisable (b : Box)
  | sessionOpen (b : Box)
  | sessionAuthorise (b : Box)
  | sessionStop (b : Box)
  | portStatus (b : Box)
  | sessionStatus (b : Box)
  | portDiag (b : Box)
  | sessionEnded (p : Port)
  | lineCycleEnd (d : CycleData)
  | pathChange (c : Fin 72) (first : PathStrobe) (rest : List PathStrobe)
  | frequencyDetected (found : FrequencyFound)
  | toneWindowEnd (m : Fin 144) (samples : List Int)
  | toneObscured (m : Fin 144)
  | regRead (b : Box)
  | regReadSet (b : Box)
  | snapshotRead (b : Box)
  | billingClose (b : Box)
  | tariffActivate (b : Box)
  | readSigned (b : Box)
  | legalLogRead (b : Box)
  | certRead (b : Box)
  | calRead (b : Box)
  | calWrite (b : Box)
  | calSeal (b : Box)
  | sealPulseEnd (sense : FuseSense)
  | toneStatus (b : Box)
  | calenChange (level : Bool)
  | tamperInputChange (t : TamperInput) (opened : Bool)
  | supplyExcursion (s : Supply) (mv : Nat)
  | residualCurrentDetected (p : Port) (d : Detector) (reading : Int)
  | residualSensorFault (p : Port) (mv : Nat)
  | fastTrip (p : Port) (a b c : Bool)
  | comparatorSelfTest (p : Port) (fired quiet : Bool)
  | peMonWindow (edges : Nat)
  | estopTestPulse (aFollowed bHeld : Bool)
  | estopInputChange (aClosed bClosed : Bool)
  | lockoutReset (b : Box)
  | clearProbeEnd (p : Port)
  | srstNPulse (lowMs : Nat)
  | degradedOvercurrent (p : Port)
  | safetyStatus (b : Box)
  | faultRecordRead (b : Box)
  | safetyParamRead (b : Box)
  | safetyParamStage (b : Box)
  | safetyCommit (b : Box)
  | telegramStatus (b : Box)
  | telegramCopyReceived (path : SafetyPath) (framing : CopyFraming) (arrivalUs : Nat) (bytes : List Byte)
  | plcStatus (b : Box)
  | plcNeighbours (b : Box)
  | plcSend (b : Box)
  | plcPairingOpen (b : Box)
  | plcRouteRead (b : Box)
  | plcTonemapRead (b : Box)
  | plcNodeRemove (b : Box)
  | contentionPeriod (d : Band)
  | plcTransmitStart (d : Band)
  | plcTransmitEnd (d : Band)
  | plcAckSend (d : Band)
  | plcAckTimeout (d : Band)
  | acknowledgement (d : Band)
  | plcFrameCheckFailed (d : Band) (source : Nat) (symbols : FailedSymbols) (snrs : List (List Int))
  | toneMapUpdate (d : Band) (f : PlcFrame)
  | toneMapRefresh (d : Band) (slot : Nat) (snrs : List (List Int))
  | toneMapLapse (d : Band) (slot : Nat) (dir : Direction) (index : Fin 4)
  | routeReq (d : Band) (f : PlcFrame)
  | routeRep (d : Band) (f : PlcFrame)
  | routeReplyDue (requestId : Nat)
  | routeRequestTimeout (target : Nat)
  | routeErr (d : Band) (f : PlcFrame)
  | routeEntryLapse (destination : Nat)
  | neighbourTimeout (slot : Nat)
  | gatewayReport (d : Band) (f : PlcFrame)
  | nodeStatus (d : Band) (f : PlcFrame)
  | hostData (d : Band) (f : PlcFrame)
  | portIndication (p : Port)
  | joinReq (d : Band) (f : PlcFrame)
  | joinConfirm (d : Band) (f : PlcFrame)
  | joinConfirmTimeout (address : Nat)
  | readerPing (a : Fin 2) (amplitude : Nat) (phase : Int) (field : List Tag)
  | presentationCheck (a : Fin 2) (answered : Bool)
  | heldTapExpiry (tap : Nat)
  | proofExpiry (id : Nat)
  | keytagReachAgain (a : Fin 2) (fates : Option (List Fate))
  | tagTxnTimeout (a : Fin 2)
  | readerStatus (b : Box)
  | tagRead (b : Box)
  | tagWrite (b : Box)
  | tagProvision (b : Box)
  | authlistRead (b : Box)
  | authlistWrite (b : Box)
  | bindPort (b : Box)
  | keyStatus (b : Box)
  | keyStage (b : Box)
  | keyVerify (b : Box)
  | keyCommit (b : Box)
  | keyAbort (b : Box)
  | reanchoring (tries : List ReanchorTry)
  | meshCheck (returned : Bool)
  | temperatureCheck (celsius : Int)
  | destruction (src : DestroySource)
  | scrubLine (region : Fin 8) (line : Nat) (r : LineResult) (by_ : LineRequester)
  | mramRefresh (page : Nat) (r : LineResult)
  | pageRetire (b : Box)
  | errorLogRead (b : Box)
  | memStatus (b : Box)
  | updateStatus (b : Box)
  | updateConfirm (b : Box)
  | ownerLock (b : Box)
  | ownerUnlock (b : Box)
  | updateClaim (b : Box)
  | updateBlock (b : Box)
  | updateActivate (b : Box)
  | updateRelease (b : Box)
  | svcVbusChange (mv : Nat)
  | counterRead (b : Box)
  | traceLost (source : Fin 12)
  | brownOut (s : Supply)
  | resetNLow (us : Nat)
  | watchdogReset (w : Watchdog)
  | deviceStart (facts : StartFacts)
  | vbakLow (low : Bool)
  | bulkOutTransfer (bytes : List Byte)
  | reProvisioning (r : Provisioning)
  | preambleDetected (d : Band)
  | plcHeaderCheckFailed (d : Band)
  | slewComplete
  | holdEnd
  | softResetExecute
  | dormantEntry
  | shutdownOpeningsTimeout
  | blockResetComplete
  | allocInputHeartbeat
  | allocInputStale
  | hostSurplusExpiry
  | allocationBoundary
  | sessionEventQueueHeartbeat
  | controlLost
  | gapEntry
  | sessionEventDeliver
  | clockDeviation
  | frequencyLost
  | toneStateSave
  | latch
  | saveComplete
  | signatureComplete
  | tamperBufferMove
  | lockstepMismatch
  | turretAliveTimeout
  | cd1Loss
  | reactionEnd
  | escalationWindowEnd
  | shuntTripPulseEnd
  | lockoutResetTimeout
  | confirmationWindowExpired
  | srstNStuck
  | degradedTimeEnd
  | degradedEarlyEnd
  | telegramTransmit
  | skewAllowanceEnd
  | telegramTimeout
  | energyReport
  | beacon
  | pairingWindowClose
  | vddtxLow
  | vddtxRestored
  | retiringKeyErase
  | rngHealthFailure
  | rngHealthRestored
  | bucketLeak
  | bankEraseComplete
  | activationSaveComplete
  | activationReset
  | claimTimeout
  | trialExpiry
  | fallbackReset
  | fallbackForcedStop
  | traceSync
  | powerOn
  | resetNStuck
  | steepleFatalReset
  | suppliesGood
  | holdUpEntry
  | holdUpEnd
  | permitsRestored
  | wakeN
  | clearConditionsMet
  | srstNRearm
  | resetNRearm
  | aonDomainStop
  | bulkInTransfer
  | calCaptureTimeout
  | busOffRecovery
  | commitWordWritten
  deriving DecidableEq, Repr

end Sys2Proof
end

