-- ==== Sys2Proof/Machine/State.lean ====
section
/-! DEFINITION. The state of the Drurus as plain data, every piece the manual names, island by island, and the state after
power-on. Each field's comment gives its width or range where it is not its type, the rule that names it and its value at reset. -/

namespace Sys2Proof.Machine

/-- No command of this block stops with a fault: every condition the manual describes is an effect on the state. -/
inductive Fault where
  deriving DecidableEq, Repr

/-- Reasons a command has no meaning. -/
inductive Refusal where
  /-- Raised by `exec` for a row of the table that has no meaning yet; safe, because nothing follows from it. -/
  | notModelled (mnemonic : String)
  deriving DecidableEq, Repr

/-! ## Link island and mailboxes (R43 to R74) -/

/-- A mailbox frame after checks 1 to 3 of R58, or one queued to leave (R56). -/
structure Frame where
  version : Nat
  flags : Byte
  seq : Nat
  opcode : Nat
  status : Nat
  handle : Nat
  payload : List Byte
  mac : List Byte
  crc : Nat
  stamp : Nat
  deriving DecidableEq, Repr

/-- Segments of one payload collected so far (R57). -/
structure Segments where
  seq : Nat
  opcode : Nat
  handle : Nat
  count : Nat
  payload : List Byte
  deriving DecidableEq, Repr

/-- Events not queued for want of a slot (R61). -/
structure LostEvents where
  count : Nat
  first : Nat
  last : Nat
  deriving DecidableEq, Repr

/-- The last request the port executed (R59): its tag and crc, and the last frame queued for it. -/
structure LastRequest where
  tag : Nat
  crc : Nat
  queued : Option Frame
  deriving DecidableEq, Repr

/-- A live host session (R62 to R66): the extended sequence of its last request, of its next event, of the last event queued, and of
the last request executed. -/
structure Session where
  role : Nat
  keyed : Bool
  key : List Byte
  attached : Nat
  seqIn : Nat
  seqOut : Nat
  lastEvent : Nat
  executed : Nat
  deriving DecidableEq, Repr

/-- A mode 1 attach that awaits its step 4 (R62): the expected host proof, the key it will yield and the time limit. -/
structure PendingAttach where
  role : Nat
  hostProof : List Byte
  sessionKey : List Byte
  seq : Nat
  deadline : Nat
  deriving DecidableEq, Repr

/-- One record of a configuration stage (R95). -/
structure CfgRecord where
  field : Nat
  index : Nat
  length : Nat
  value : Nat
  deriving DecidableEq, Repr

/-- A transaction between step 5 of R97 and the boundary that applies it (R96, R100): the request it completes, the records it holds,
the time of step 5, and whether it has completed `CONTROL_SILENT`. -/
structure Commit where
  box : Box
  opcode : Nat
  seq : Nat
  epoch : Nat
  records : Nat
  since : Nat
  silent : Bool
  deriving DecidableEq, Repr

/-- One mailbox. -/
structure Mailbox where
  /-- inbound ring, oldest first, at most 8 frames (R60). Reset empty. -/
  inRing : List Frame
  /-- outbound ring, oldest first, at most 16 frames (R60). Reset empty. -/
  outRing : List Frame
  /-- frame kept for READ_AGAIN (R50), or the most recently sent one on a UART (R55). Reset none. -/
  kept : Option Frame
  /-- events not queued since the last EVENT_GAP (R61). Reset none. -/
  lost : Option LostEvents
  /-- 32-bit frame-error counter (R58, R74). Reset 0. -/
  frameErrors : Nat
  /-- ERR bit: the counter has changed since the last STATUS (R48). Reset false. -/
  errFlag : Bool
  /-- LAST_ACCEPTED bit (R48). Reset false. -/
  lastAccepted : Bool
  /-- frames placed in the inbound ring, 32 bits (R74). Reset 0. -/
  framesIn : Nat
  /-- frames that left the outbound ring, 32 bits (R74). Reset 0. -/
  framesOut : Nat
  /-- events not queued, 32 bits (R74). Reset 0. -/
  eventsLost : Nat
  /-- segments of an incomplete payload (R57). Reset none. -/
  segments : Option Segments
  /-- last executed request (R59). Reset none. -/
  lastRequest : Option LastRequest
  /-- last_executed, 16 bits, 0xFFFF none (R73, R506). Reset 0xFFFF. -/
  lastExecuted : Nat
  /-- live session (R62). Reset none. -/
  session : Option Session
  /-- attach awaiting step 4 (R62). Reset none. -/
  attach : Option PendingAttach
  /-- times of failed attaches within 10 s (R63). Reset empty. -/
  failedAttaches : List Nat
  /-- HOST_ATTACH is refused until this time (R63). Reset none. -/
  barUntil : Option Nat
  /-- number of session ends so far: a completion belongs to the session of its number (R66). Reset 0. -/
  epoch : Nat
  /-- accepted requests whose completion is not queued: outbound slots held for them (R61). Reset 0. -/
  owed : Nat
  /-- open configuration stage (R95). Reset none. -/
  stage : Option (List CfgRecord)
  /-- time of the last transaction command (R96). Reset 0. -/
  stageTouched : Nat
  /-- period of the last successful commit, 32 bits (R95). Reset 0. -/
  lastPeriod : Nat
  /-- time of the last successful commit's boundary, 48 bits (R95). Reset 0. -/
  lastCommitTime : Nat
  /-- civil time of the last completed attach, 48 bits (R74). Reset 0. -/
  attachedTime : Nat
  /-- civil time of the last valid inbound frame, 48 bits (R74). Reset 0. -/
  lastRx : Nat
  /-- the model's clock at that frame, for the keepalive (R66). Reset 0. -/
  lastRxAt : Nat
  /-- the model's clock when the UART last sent anything (R54). Reset 0. -/
  lastTxAt : Nat
  /-- an inbound slot has become free since the last 0xE5 unit (R54). Reset false. -/
  slotFreed : Bool
  /-- bytes last carried out on MISO, TXD or endpoint 0x81. Reset empty. -/
  wire : List Byte
  /-- HOST channel header: time of the last body change, 48 bits (R75). Reset 0. -/
  modified : Nat
  /-- HOST channel header: body changes, 32 bits (R75). Reset 0. -/
  changes : Nat
  deriving DecidableEq, Repr

/-- The SUPERVISOR role: free, reserved by an attach in progress, or held (R67). -/
inductive Supervisor where
  | free | reserved (p : HostPort) | held (p : HostPort)
  deriving DecidableEq, Repr

/-! ## Configuration, channels and the request record (R29, R75 to R100) -/

/-- A configuration field of the committed, applied or staged configuration: field identifier, index, raw value (R93). -/
structure Setting where
  field : Nat
  index : Nat
  value : Nat
  deriving DecidableEq, Repr

/-- Rank recorded for an allocator field and index (R70): 1 ENERGY, 3 SUPERVISOR. -/
structure RankEntry where
  field : Nat
  index : Nat
  role : Nat
  deriving DecidableEq, Repr

/-- States of a SESSION channel (R136). -/
inductive SessionState where
  | reserved | opened | authorised | ended | interrupted
  deriving DecidableEq, Repr

/-- SESSION channel body (R137), with the latches of its start and end values and their status words, the billing time of its plugging,
authorisation and end, and whether RESTORED was set at the start that found it interrupted (R338, R344). -/
structure SessionBody where
  port : Port
  state : SessionState
  endReason : Nat
  authSource : Nat
  cable : Nat
  plugTime : Nat
  authTime : Nat
  firstEnergised : Nat
  endTime : Nat
  startEai : Option Nat
  endEai : Option Nat
  capMa : Nat
  peakMa : Nat
  prevHandle : Nat
  holdS : Nat
  energisedMs : Nat
  identity : List Byte
  preAuthorised : Bool
  openedAt : Nat
  startLatch : Nat
  endLatch : Nat
  startWord : Word16
  startSticky : Word16
  endWord : Word16
  endSticky : Word16
  wasAuthorised : Bool
  endPending : Bool
  plugBilled : Nat
  authBilled : Nat
  endBilled : Nat
  restored : Bool
  deriving DecidableEq, Repr

/-- METER_STREAM body (R205) with the latch and time of the last delivery (R206). -/
structure StreamBody where
  sets : Nat
  form : Nat
  every : Nat
  delivered : Nat
  lastLatch : Option Nat
  lastAt : Nat
  deriving DecidableEq, Repr

/-- EVENT_FILTER body (R92). -/
structure FilterBody where
  codeLow : Nat
  codeHigh : Nat
  scope : Nat
  deriving DecidableEq, Repr

/-- TARIFF_PROGRAM states (R310). -/
inductive ProgramState where
  | inactive | pending | active
  deriving DecidableEq, Repr

/-- TAG_TXN body (R432) with the request it serves. -/
structure TxnBody where
  antenna : Fin 2
  op : Nat
  state : Nat
  cancel : Bool
  uid : List Byte
  deadline : Nat
  deadlineAt : Nat
  tap : Nat
  box : Box
  seq : Nat
  opcode : Nat
  epoch : Nat
  request : List Byte
  deriving DecidableEq, Repr

/-- One tone map slot of a neighbour's direction (R377, R378). -/
structure MapSlot where
  map : Option ToneMap
  updated : Nat
  used : Nat
  deriving DecidableEq, Repr

/-- One direction of a link in one band (R376 to R382). -/
structure LinkDir where
  maps : List MapSlot
  current : Option Nat
  forcedRobust : Bool
  requestRefresh : Bool
  consecutiveFails : Nat
  lastAttempts : List Bool
  traffic : Bool
  lastMapAt : Nat
  nextMap : Nat
  deriving DecidableEq, Repr

/-- PLC_NEIGHBOUR body (R397) with Belfry's link state. -/
structure NeighbourBody where
  eui : List Byte
  address : Nat
  kind : Nat
  attr : Nat
  heardL : Bool
  heardU : Bool
  phase : Nat
  phaseDeg : Nat
  phaseRun : Nat × Nat
  joined : Nat
  lastHeard : Nat
  lastHeardAt : Nat
  lSend : LinkDir
  lReceive : LinkDir
  uSend : LinkDir
  uReceive : LinkDir
  rxCounter : Nat
  framesSent : Nat
  attemptsFailed : Nat
  framesReceived : Nat
  checksFailed : Nat
  linkFailures : List Nat
  unreachable : Bool
  deriving DecidableEq, Repr

/-- Bodies of dynamic channels (R79). -/
inductive Body where
  | session (b : SessionBody)
  | stream (b : StreamBody)
  | neighbour (b : NeighbourBody)
  | txn (b : TxnBody)
  | program (state : ProgramState) (bytes : List Byte)
  | filter (b : FilterBody)
  deriving DecidableEq, Repr

/-- A dynamic channel (R75): its slot, generation, owner (none: the Drurus) and header fields. -/
structure Channel where
  slot : Nat
  generation : Nat
  owner : Option Box
  ownerRole : Nat
  created : Nat
  modified : Nat
  changes : Nat
  body : Body
  deriving DecidableEq, Repr

/-- What a twinned record of MRAM holds beside its value: the older copy while it is valid, and the sequence number of the current one (R87). -/
structure Twin (α : Type) where
  older : Option α
  seq : Nat
  deriving DecidableEq, Repr

/-- The twin after a write of a new value over the older copy; `old` is the value until then. -/
def Twin.write {α : Type} (t : Twin α) (old : α) : Twin α := ⟨some old, t.seq + 1⟩

/-- The MRAM mirror of a persistent channel (R87): the copy current by its sequence number, and the older one while it is valid. -/
structure MirrorRecord where
  slot : Nat
  seq : Nat
  current : Channel
  older : Option Channel
  deriving DecidableEq, Repr

/-- The twinned table of slot generations with the slot allocated last (R82). -/
structure SlotTable where
  generations : Vector Nat 256
  lastSlot : Nat
  deriving DecidableEq, Repr

/-- A request-record entry (R29). -/
structure RequestEntry where
  number : Nat
  kind : Nat
  box : Option Box
  seq : Nat
  epoch : Nat
  time : Nat
  data : List Byte
  published : Nat
  done : Bool
  silent : Bool
  deriving DecidableEq, Repr

/-- A request whose completion waits for a later step: opcode, header sequence and handle, and the session it came in. -/
structure Waiting where
  box : Box
  opcode : Nat
  seq : Nat
  handle : Nat
  epoch : Nat
  argument : Nat
  extra : List Byte
  deriving DecidableEq, Repr

/-- One publication of the allocator input block (R23 to R29). -/
structure InputBlock where
  seq : Nat
  time : Nat
  heartbeat : Nat
  settings : List Setting
  surplusAt : Option Nat
  record : List RequestEntry
  deriving DecidableEq, Repr

/-! ## Session event queue (R35 to R39) -/

/-- A fault record entry (R272). -/
structure FaultEntry where
  index : Nat
  time : Nat
  code : Nat
  port : Option Port
  kind : Nat
  related : Nat
  detail : List Byte
  shtPulsed : Bool
  shtDisabled : Bool
  byKeytag : Bool
  bySrst : Bool
  posted : Bool
  deriving DecidableEq, Repr

/-- What a session event queue entry reports (R35, R36). -/
inductive QContent where
  | portState (old new_ : Nat) (transition : Nat) (session : Nat) (pilot cable : Nat)
  | switchOutcome (kind result : Nat) (timed blind : Bool) (duration : Nat)
  | residualTest (result dc ac : Nat)
  | cable (code ohm : Nat)
  | sessionBegun (handle state cable : Nat)
  | sessionAuthorised (handle source cap : Nat)
  | safety (e : FaultEntry)
  | allocChanged (period : Nat) (changes : List (Nat × Nat × Nat))
  | shed (cause phase siteMa portMa readmitTime : Nat)
  | readmitted (allowance : Nat)
  | siteZone (phase old new_ siteMa : Nat)
  | allocInput (condition : Nat)
  | guardBlind (phase : Nat) (blind : Bool)
  | mirrorStale (channel : Nat)
  | confirmRequired (scope port record deadline : Nat)
  | outcome (request status : Nat) (result : List Byte)
  | committed (payload : List Byte)
  | memory (region kind offset requester count : Nat)
  | gap (count first last : Nat)
  deriving DecidableEq, Repr

/-- A session event queue entry (R35): sequence 32, time 48, port or hub. -/
structure QEntry where
  seq : Nat
  time : Nat
  port : Option Port
  content : QContent
  deriving DecidableEq, Repr

/-! ## Turret (R105 to R147) -/

/-- Port states (R131), in the order of their codes. -/
inductive PortState where
  | disabled | idle | connected | suspended | offered | testing | closing | energised | shed | opening
  | ended | cableRefused | lockout
  deriving DecidableEq, Repr

/-- Pilot classifications (R111). -/
inductive PilotClass where
  | a | b | c | d | e | f | diode | out
  deriving DecidableEq, Repr

/-- Pilot drive (R131, R140). -/
inductive PilotDrive where
  | high | pwm | low
  deriving DecidableEq, Repr

/-- Residual test drive (R119, R130). -/
inductive RctDrive where
  | static
  | dc55
  | sine (millihertz : Nat)
  deriving DecidableEq, Repr

/-- Where an opening leads (T15 of R133). -/
inductive Target where
  | offered | suspended | ended | idle | disabled | lockout
  deriving DecidableEq, Repr

/-- The switching sequence a lane runs: step and start time, in ms of the model's clock (R124 to R128, T11). -/
inductive Sequence where
  | none
  | closing (step : Nat) (start stepAt : Nat)
  | opening (urgent : Bool) (step : Nat) (start stepAt : Nat) (target : Target)
  | readmit (start : Nat) (pbdAt : Option Nat)
  | faultOpening (start : Nat) (outcome : Bool) (ctfOk : Option Bool)
  | waitBandB (since : Nat) (target : Target)
  deriving DecidableEq, Repr

/-- One port lane with its pins (R105, R131, R140). -/
structure Lane where
  /-- port state (R131). Reset DISABLED (R135). -/
  state : PortState
  /-- persisted enable (R142). Reset false (DESIGN CHOICE: no rule gives a first value). -/
  enabled : Bool
  /-- the persisted enable waits for a PORT_ENABLE, as port_start 0 has it (R135, R516). Reset false. -/
  ignored : Bool
  /-- a SESSION_STOP acts in the opening in progress (R145). Reset false. -/
  stopped : Bool
  /-- pilot drive (R131). Reset steady high: the pin is pulled high in reset (R518). -/
  drive : PilotDrive
  /-- pilot drive that the lane takes at its next period boundary (R107, R133). Reset steady low: the drive of DISABLED. -/
  nextDrive : PilotDrive
  /-- duty in 0.1 %, 0 to 1000 (R107). Reset 0. -/
  duty : Nat
  /-- last high plateau in mV, signed 16 bits (R140). Reset 0. -/
  highMv : Int
  /-- last low plateau in mV, none when not evaluated (R140). Reset none. -/
  lowMv : Option Int
  /-- settling time last applied under PWM, microseconds (R146). Reset 0. -/
  settleUsed : Nat
  /-- samples in the last high window (R146). Reset 0. -/
  window : Nat
  /-- last classification and how many consecutive periods gave it (R112). Reset none, 0. -/
  lastClass : Option PilotClass
  classRun : Nat
  /-- last confirmed classification (R112, R140). Reset none. -/
  confirmed : Option PilotClass
  /-- a confirmation has not been acted on yet: an input of R132. Reset false. -/
  bandChanged : Bool
  /-- proximity resistance last measured, ohm, 16 bits (R113, R146). Reset 0. -/
  ppOhm : Nat
  /-- proximity band of the last sample and its run (R114). Reset 0, 0. -/
  ppBand : Nat
  ppRun : Nat
  /-- accepted proximity code, 0 none (R114, R140). Reset 0. -/
  cable : Nat
  /-- an acceptance that opens the port urgently has not been acted on (R114, R132). Reset false. -/
  cableChanged : Bool
  /-- time at which a vehicle was confirmed, for the 200 ms of R114. Reset none. -/
  vehicleAt : Option Nat
  /-- sequence fallbacks of R129. Reset false. -/
  blind : Bool
  timed : Bool
  /-- last transition number, 0 none (R140). Reset 0. -/
  transition : Nat
  /-- allowance in force in mA (R140, R217). Reset 0. -/
  allowance : Nat
  /-- effective limit in mA (R115, R140). Reset 0. -/
  limit : Nat
  /-- civil time of the last transition (R140). Reset 0. -/
  stateTime : Nat
  /-- handle of the port's session, 0 none (R140). Reset 0. -/
  session : Nat
  /-- closings, fault openings, weld probes, shedding stops: 32 bits (R140). Reset 0. -/
  closings : Nat
  faultOpenings : Nat
  weldProbes : Nat
  sheds : Nat
  /-- Pnn_CTD toggles (R116). Reset false: static (R518). -/
  ctd : Bool
  /-- Pnn_PBD toggles (R117). Reset false: static (R518). -/
  pbd : Bool
  /-- Pnn_RCT drive (R119). Reset static. -/
  rct : RctDrive
  /-- filtered Pnn_CTF (R120). Reset false (DESIGN CHOICE). -/
  ctf : Bool
  /-- samples in a row, 100 µs apart, that differ from the filtered CTF (R120). Reset 0. -/
  ctfRun : Nat
  /-- time since which the filtered CTF stands changed without a change of CTD in the 50 ms before (R120). Reset none. -/
  ctfOdd : Option Nat
  /-- Pnn_PBF as last sampled (R121). Reset false (DESIGN CHOICE). -/
  pbf : Bool
  /-- outlet voltage present (R122). Reset false. -/
  ovs : Bool
  /-- time of the last OVS edge (R122). Reset 0. -/
  ovsAt : Nat
  /-- time of the last CTD change (R120). Reset 0. -/
  ctdChangedAt : Nat
  /-- the residual test has passed since the contactor last opened (R237). Reset false. -/
  testPassed : Bool
  /-- residual test step and start, 0 none (R130). Reset 0, 0. -/
  testStep : Nat
  testStart : Nat
  /-- the test runs for a lock-out reset (R259). Reset false. -/
  testForReset : Bool
  /-- start of the comparator self-test that is due or running (R248). Reset none. -/
  comparator : Option Nat
  /-- that self-test is the one T01 started, with which a PORT_ENABLE completes (R142). Reset false. -/
  enabling : Bool
  /-- last residual test result (R146). Reset 0xFF. -/
  testResult : Nat
  /-- readings of steps 2 and 3, 0.1 mA (R146). Reset 0. -/
  testDc : Nat
  testAc : Nat
  /-- switching sequence in progress (R124 to R128). Reset none. -/
  seq : Sequence
  /-- opening that follows a closing under K6 of R134. Reset none. -/
  afterClosing : Option Target
  /-- PORT_DISABLE waiting, with its mode (R132, R142). Reset none. -/
  disableRequest : Option Nat
  /-- SESSION_STOP waiting (R132, R145). Reset false. -/
  stopRequest : Bool
  /-- reason with which a stopped session ends (R137). Reset 3. -/
  stopReason : Nat
  /-- a denial waits to take T17 (R144). Reset false. -/
  denied : Bool
  /-- shedding stop active (R117). Reset false. -/
  shedActive : Bool
  /-- time of the last shedding stop (K4, R225). Reset 0. -/
  shedAt : Nat
  /-- durations of the last closing and opening in 0.1 ms (R146). Reset 0. -/
  closeDuration : Nat
  openDuration : Nat
  /-- present residual readings: DC signed, AC rms and RMS, 0.1 mA (R130, R146). Reset 0. -/
  rcsDc : Int
  rcsAc : Nat
  rcsRms : Nat
  /-- port_mode and phase_map the lane works with (R139). Reset 0, 0. -/
  portMode : Nat
  phaseMap : Nat
  /-- the port's last session is interrupted and no new session is made at a vehicle's confirmation (R135). Reset false. -/
  interrupted : Bool
  /-- civil time at which such a port entered CONNECTED (R138). Reset 0. -/
  connectedTime : Nat
  connectedBilled : Nat
  /-- the vehicle has been confirmed without interruption since the start (R138). Reset true. -/
  unbroken : Bool
  /-- time since which CTF and PBF are low and OVS absent with both drives stopped (R259). Reset none. -/
  quietSince : Option Nat
  /-- time since which the residual reading is below 3 mA (R259). Reset none. -/
  lowResidualSince : Option Nat
  /-- pre-break health (R265): last closing passed step 5, last opening or probe passed step 3, no SF4-02 or SF4-04 since. Reset
false for the two checks, which have not been made; true for the third: none is recorded. -/
  closeStep5Ok : Bool
  openStep3Ok : Bool
  preBreakClean : Bool
  /-- time at which ENERGISED was entered, for energised_s (R137). Reset none. -/
  energisedAt : Option Nat
  /-- PORT channel header: time of the last body change, body changes, and the flags byte they have counted (R75). Reset 0, 0, 0. -/
  modified : Nat
  changes : Nat
  flagsSeen : Nat
  deriving DecidableEq, Repr

/-- Allocation state of one port (R211 to R217, R232): as shown at the last boundary, the boundary time of its last increase, since
when its current has been low, its computed value, and the reason of a change to list at the next boundary (0 none). -/
structure AllocPort where
  allowance : Nat
  draw : Nat
  candidate : Bool
  shed : Bool
  held : Bool
  reclaimed : Bool
  assumed : Bool
  lastIncrease : Option Nat
  lowSince : Option Nat
  value : Nat
  reason : Nat
  deriving DecidableEq, Repr

/-- Fuse guard state of one phase (R220 to R228): zone, the two timers in microseconds, runs of half-cycles in zones 0 and 3, blindness
and whether Steeple has decided it, the value last evaluated, the room last computed, whether SITE_ZONE was raised in this period, and the
ports that a decision of hard shedding names, in shedding order (R222). -/
structure GuardPhase where
  zone : Nat
  lsTimer : Nat
  zone2Timer : Nat
  zone0Run : Nat
  zone3Run : Nat
  blind : Bool
  blindSince : Nat
  raised : Bool
  siteMa : Nat
  room : Int
  zonePosted : Bool
  hard : Option (Nat × List Port)
  deriving DecidableEq, Repr

/-- A measurement mirror entry (R31 to R33): the half-cycle's values, its dual-path, out-of-tolerance and tone status (R166), the mark of a
disabled channel (R175), and the sums the allocator takes its means from, and the time of the last shedding stop or
re-admission that cut them (R212). -/
structure MirrorEntry where
  rms : Nat
  power : Int
  x16 : Bool
  outOfTol : Bool
  toneLost : Bool
  x1Lost : Bool
  toneObscured : Bool
  disabled : Bool
  strobe : Nat
  seq : Nat
  stale : Bool
  unsync : Bool
  updatedAt : Nat
  freshSince : Nat
  cutAt : Nat
  sumRms : Nat
  sumPower : Int
  sumIp : Int
  count : Nat
  deriving DecidableEq, Repr

/-- Site values last computed from fresh entries (S2 of R219): per phase the RMS, the active current and the power. -/
structure SiteValues where
  irms : Vector Nat 3
  ip : Vector Int 3
  power : Vector Int 3
  deriving DecidableEq, Repr

/-! ## Steeple (R234 to R302) -/

/-- A fault held by a lock-out (R256), with the start in which it was decided (R259). -/
structure HeldFault where
  index : Nat
  code : Nat
  port : Option Port
  at_ : Nat
  boot : Nat
  deriving DecidableEq, Repr

/-- A lock-out of a scope (R256, R257, R270). -/
structure Lockout where
  active : Bool
  pending : Bool
  faults : List HeldFault
  deriving DecidableEq, Repr

/-- A fault reaction in progress or its 10 s window (R255, R263). -/
structure Reaction where
  index : Nat
  code : Nat
  port : Option Port
  at_ : Nat
  endsAt : Option Nat
  degraded : Bool
  deriving DecidableEq, Repr

/-- Degraded mode of a scope (R265 to R270): class 1, 2 or 3, its fault and record entry, and its end. -/
structure Degraded where
  cls : Nat
  code : Nat
  index : Nat
  endsAt : Nat
  deriving DecidableEq, Repr

/-- The safety parameter block (R278). -/
structure SafetyBlock where
  version : Nat
  enables : Nat
  cablePolicy : Nat
  degradedMin : Nat
  tgPeriod : Nat
  tgTimeout : Nat
  tgStart : Nat
  estopTest : Nat
  pairId : Nat
  localId : Nat
  partnerId : Nat
  canTx : Nat
  canRx : Nat
  rated : Vector Nat 24
  trip : Vector Nat 24
  reserved : List Byte
  deriving DecidableEq, Repr

/-- The lock-out state with the degraded modes whose lock-outs are pending (R270), the committed block and the next index of the fault
record, as written in the Safety region of MRAM (R41, R271 Y9, R284). -/
structure SafetyCopy where
  hub : Lockout
  ports : Vector Lockout 24
  hubDegraded : Option Degraded
  portDegraded : Vector (Option Degraded) 24
  block : Option SafetyBlock
  commitTime : Nat
  nextIndex : Nat
  deriving DecidableEq, Repr

/-- A lock-out reset in progress (R258 to R262, R276): residual tests passed with their times, comparator self-tests passed, pilot
probes running with their starts, and ports whose probe confirmed band A. -/
structure ResetRun where
  port : Option Port
  request : Nat
  startedAt : Nat
  inWindow : Bool
  tests : List (Port × Nat)
  selfTests : List Port
  probing : List (Port × Nat)
  bandA : List Port
  deriving DecidableEq, Repr

/-- A confirmation window (R260). -/
structure ConfirmWindow where
  port : Option Port
  openedAt : Nat
  deadline : Nat
  openedTime : Nat
  deriving DecidableEq, Repr

/-- A shunt-trip reaction (R251): pulse running or waiting for the 1 s check. -/
structure Shunt where
  port : Port
  low : Bool
  until_ : Nat
  repeated : Bool
  deriving DecidableEq, Repr

/-- A telegram copy waiting for its mate (R292): bytes 0 to 11 and the arrival in microseconds. -/
structure WaitingCopy where
  path : SafetyPath
  seq : Nat
  head : List Byte
  arrivalUs : Nat
  deadline : Nat
  deriving DecidableEq, Repr

/-- SAFETY_LINK body of one path (R301), with the error counters of SN-B's controller (R289). -/
structure SafetyLink where
  lastRxSeq : Nat
  lastTxSeq : Nat
  txErrors : Nat
  rxErrors : Nat
  partnerMode : Nat
  lastValid : Nat
  lastValidAt : Option Nat
  skewUs : Int
  valid : Nat
  crcFail : Nat
  otherFail : Nat
  unmatched : Nat
  pairs : Nat
  busErrors : Nat
  modified : Nat
  changes : Nat
  deriving DecidableEq, Repr

/-- Telegram supervision (R287 to R297, R302): `started` since a pair (or, in D1, a copy) has restarted the timeout at `baseAt`;
`remaining` the path that still delivers in D1; `ended` waiting copies whose allowance has ended. -/
structure Telegram where
  running : Bool
  started : Bool
  startedAt : Nat
  baseAt : Nat
  txSeq : Nat
  nextTxAt : Nat
  reference : Option Nat
  waiting : List WaitingCopy
  ended : List (SafetyPath × Nat)
  remaining : Option SafetyPath
  pairSeen : Bool
  lastPairSeq : Nat
  lastPairTime : Nat
  lastPairAt : Nat
  lastPairStop : Bool
  goodSince : Option Nat
  stopClearSince : Option Nat
  sent : List Byte
  sentId : Nat
  a : SafetyLink
  b : SafetyLink
  timeoutDecided : Bool
  deriving DecidableEq, Repr

/-- Steeple. -/
structure Steeple where
  /-- drive permits (R238). Reset all absent. -/
  permits : Vector Bool 24
  /-- probe permits (R239). Reset all absent. -/
  probes : Vector Bool 24
  /-- trip latches per port and phase (R246). Reset clear. -/
  trips : Vector (Vector Bool 3) 24
  /-- comparators of each port and phase at present above their threshold (R246, R259). Reset none. -/
  above : Vector (Vector Bool 3) 24
  /-- hub lock-out (R255, R257). Reset none. -/
  hub : Lockout
  /-- port lock-outs (R255, R257). Reset none. -/
  ports : Vector Lockout 24
  /-- reactions in progress and escalation windows (R255, R263). Reset empty. -/
  reactions : List Reaction
  /-- hub degraded mode, D1 or D3 (R265). Reset none. -/
  hubDegraded : Option Degraded
  /-- port degraded mode, D2 (R265). Reset none. -/
  portDegraded : Vector (Option Degraded) 24
  /-- ports to which a degraded mode still applies: PORT flags [5] (R267, R268). Reset none. -/
  affected : Vector Bool 24
  /-- time since which a degraded port is above 8000 mA (R268). Reset none. -/
  overSince : Vector (Vector (Option Nat) 3) 24
  /-- fault record ring, oldest first, at most 256 entries (R272). Reset empty. -/
  record : List FaultEntry
  /-- index of the next entry, 32 bits (R272). Reset 1 (DEDUCED: 0 stands for no entry). -/
  nextIndex : Nat
  /-- supply stop in force (R236). Reset false. -/
  supplyStop : Bool
  /-- supplies outside their windows (R236). Reset none. -/
  suppliesOut : List Supply
  /-- time since which every supply is in its window (R510). Reset 0. -/
  suppliesGoodAt : Nat
  /-- VDDIO last known below 3.10 V (R236). Reset false. -/
  vddioLow : Bool
  /-- the older copy of the lock-out state and of the committed block, which applies while the newer one is being written (R271 Y9, R284).
  Reset none. -/
  stored : SafetyCopy
  /-- a commit is being written to MRAM (R283, R284). Reset false. -/
  committing : Bool
  /-- committed safety parameter block, none before the first commit (R285). Reset none. -/
  committed : Option SafetyBlock
  /-- the one of that block's two copies that has failed since the commit (R41, R242). Reset none. -/
  copyLost : Option Nat
  /-- time of the last commit, 48 bits (R298). Reset 0. -/
  commitTime : Nat
  /-- staged block (R281). Reset the defaults of R278. -/
  staged : SafetyBlock
  /-- lock-out resets in progress (R258). Reset none. -/
  resets : List ResetRun
  /-- confirmation window (R260). Reset none. -/
  window : Option ConfirmWindow
  /-- identifiers of proofs used in the last 120 s with the time of use (R29). Reset empty. -/
  usedProofs : List (Nat × Nat)
  /-- request number last acted on (R30). Reset 0. -/
  lastActed : Nat
  /-- SRST_N declared stuck (R261). Reset false. -/
  srstStuck : Bool
  /-- emergency stop inputs closed (R250). Reset true (DESIGN CHOICE). -/
  estopA : Bool
  estopB : Bool
  /-- time at which one input opened while the other stayed closed (R250). Reset none. -/
  estopSplitAt : Option Nat
  /-- both inputs opened within 100 ms of each other since the decision, and closed again; time of the first opening; both opened in
  that time (R259). Reset false, none, false. -/
  estopCycled : Bool
  estopOpenedAt : Option Nat
  estopBoth : Bool
  /-- consecutive test pulses followed (R250, R259). Reset 0. -/
  estopFollowed : Nat
  /-- time of the last test pulse (R250). Reset 0. -/
  estopTestAt : Nat
  /-- consecutive bad PE_MON windows, time since which it is good (R249, R259). Reset 0, none. -/
  peBad : Nat
  peGoodSince : Option Nat
  /-- shunt-trip reactions, one for each weld decided (R251). Reset empty. -/
  shunt : List Shunt
  /-- a CD1 loss whose lock-out has not been entered, with its civil time (R238). Reset none. -/
  cd1Lost : Option Nat
  /-- when every permit fell with CD1, by the model's clock, and which there were, until the loss is entered (R238, R571). Reset none. -/
  permitsFell : Option (Nat × Vector Bool 24)
  /-- time since which the supervised clocks are good (R259). Reset 0. -/
  clocksGoodAt : Nat
  /-- start self-test passed (R135, R513). Reset false. -/
  selfTest : Bool
  /-- time at which 100 ms after a fatal fault's permit removal end (R504 code 10). Reset none. -/
  fatalAt : Option Nat
  /-- Turret's alive word: time of its last advance, time since which no advance was 5 ms late, and its count (R237). Reset 0. -/
  aliveAt : Nat
  aliveSince : Nat
  aliveCount : Nat
  /-- telegram supervision. Reset off. -/
  telegram : Telegram
  deriving DecidableEq, Repr

/-- Turret: lanes, allocator, fuse guard and session event queue. -/
structure Turret where
  lanes : Vector Lane 24
  /-- session event queue, oldest first, at most 256 (R36). Reset empty. -/
  queue : List QEntry
  /-- next entry sequence, 32 bits (R35). Reset 0. -/
  queueSeq : Nat
  /-- entries not posted (R36). Reset none. -/
  queueLost : Option LostEvents
  /-- queue heartbeat, 32 bits (R39). Reset 0. -/
  heartbeat : Nat
  /-- mirror as published to Turret (R31). Reset all 0 and fresh. -/
  mirror : Vector MirrorEntry 88
  /-- strobe of the last zero crossing per bus section 0 phase (R31). Reset 0. -/
  crossing : Vector Nat 3
  /-- the header's marks of synthesised crossings and of an assumed rotation (R160). Reset false. -/
  synthesised : Bool
  assumedRotation : Bool
  /-- fast comparators latched since the previous publication (R31). Reset empty. -/
  comparators : List (Port × Phase)
  /-- allocation period sequence, 32 bits (R208). Reset 0. -/
  period : Nat
  /-- civil and model time of the last boundary (R232). Reset 0, 0. -/
  boundaryTime : Nat
  boundaryAt : Nat
  /-- L1 positive crossings since the last boundary (R208). Reset 0. -/
  crossings : Nat
  /-- SITE body as it stood at the last boundary, none before the first (R231). Reset none. -/
  siteShown : Option (List Byte)
  /-- allocator input block as latched (R24). Reset empty publication 0. -/
  latched : InputBlock
  /-- period in which the latched publication first took effect (R26). Reset 0. -/
  firstPeriod : Nat
  /-- input block heartbeat last seen and when it changed; stale flag (R27). Reset 0, 0, false. -/
  inputHeartbeat : Nat
  inputHeartbeatAt : Nat
  inputStale : Bool
  /-- host surplus figure discarded (R27, R28). Reset true: none published. -/
  hostDiscarded : Bool
  /-- battery term in force (R215). Reset false. -/
  batteryOn : Bool
  /-- source in use (R232). Reset 0. -/
  source : Nat
  /-- power budget with the battery term, none unbounded (R232). Reset none. -/
  budget : Option Int
  /-- site values stale, reductions only (S2). Reset false. -/
  siteStale : Bool
  siteValues : SiteValues
  ports : Vector AllocPort 24
  guard : Vector GuardPhase 3
  /-- SITE body counters, 32 bits (R232). Reset 0. -/
  shedsHard : Nat
  shedsSoft : Nat
  readmits : Nat
  overLh : Nat
  blindSpells : Nat
  /-- SITE channel header: time of the last body change, body changes, and the body they have counted (R75). Reset 0, 0, none. -/
  modified : Nat
  changes : Nat
  siteSeen : Option (List Byte)
  deriving DecidableEq, Repr

/-! ## Metrology DSP and Keep (R148 to R207) -/

/-- Calibration entry of a modulator (R177). -/
structure Cal where
  gain : Nat
  phase : Int
  cp : Nat
  toneAmp : Nat
  tonePhase : Int
  written : Bool
  deriving DecidableEq, Repr

/-- Tone states (R166, R168, R180). -/
inductive ToneState where
  | tracking | outOfTolerance | lost | obscured | notReferenced
  deriving DecidableEq, Repr

/-- Tone tracking of one path (R163 to R168, R180): `amplitude` and `phasor` are those of the last valid window, `windowAt` is when the
present window began, and `spoiled` says that a sample in it was contaminated or overranged. -/
structure Tone where
  state : ToneState
  gainClamped : Bool
  phaseClamped : Bool
  targetGain : Int
  targetPhase : Int
  gain : Int
  phase : Int
  lastValid : Nat
  lastValidAt : Nat
  invalidRun : Nat
  validRun : Nat
  amplitudeFails : Nat
  inBoundRun : Nat
  outOfTol : Bool
  amplitude : Nat
  phasor : Int
  obscured : Bool
  windowAt : Nat
  spoiled : Bool
  storedGain : Int
  storedPhase : Int
  storedAmplitude : Nat
  storedPhasor : Int
  deriving DecidableEq, Repr

/-- A tone-reference capture in progress (R178): per listed modulator the windows seen valid in a row and their sums. -/
structure Capture where
  mods : List (Nat × List (Nat × Int))
  box : Box
  seq : Nat
  epoch : Nat
  deadline : Nat
  deriving DecidableEq, Repr

/-- The seven quantities of R184, each a 64-bit count with a 32-bit fraction, in units of 2^-32 mWh, mvarh or mVAh (R186). -/
structure Quant where
  eai : Nat
  eae : Nat
  eq1 : Nat
  eq2 : Nat
  eq3 : Nat
  eq4 : Nat
  es : Nat
  deriving DecidableEq, Repr

/-- The accumulators of a register set (R184 to R186). -/
structure SetRegs where
  total : Quant
  phases : Vector Quant 3
  tariffEai : Vector Nat 8
  tariffEae : Vector Nat 8
  deriving DecidableEq, Repr

/-- What the legal feed brings for a set in one latch period (R193). -/
structure SetFeed where
  total : Quant
  phases : Vector Quant 3
  netP : Int
  netQ : Int
  status : Word16
  deriving DecidableEq, Repr

/-- A latched set (R190 to R194). -/
structure LatchedSet where
  regs : SetRegs
  status : Word16
  sticky : Word16
  pMw : Int
  qMvar : Int
  deriving DecidableEq, Repr

/-- A latch: sequence 32, time 48, cycles 16 (R190), with the period's channel status words (R174, R193). -/
structure Latched where
  seq : Nat
  time : Nat
  at_ : Nat
  cycles : Nat
  sets : Vector LatchedSet 29
  words : Vector Word16 88
  deriving DecidableEq, Repr

/-- A maximum demand: mW and the closing billing time (R315). -/
structure MaxDemand where
  mw : Nat
  time : Nat
  deriving DecidableEq, Repr

/-- A demand interval or sub-interval (R312 to R315): the rate at its start, the strobe of its first latch, whether it began by a
step or a start, whether energy is missing, and per set the energy credited, import and export, in units of 2^-32 mWh. -/
structure SubInterval where
  rate : Nat
  start : Nat
  short : Bool
  incomplete : Bool
  energy : Vector (Nat × Nat) 29
  deriving DecidableEq, Repr

/-- Demand state: the settings the open window runs under (length, mode, standard offset in minutes), the open sub-interval, up to four before it (newest first), and the
maxima of the period per set and rate. -/
structure Demand where
  interval : Nat
  mode : Nat
  offset : Int
  current : SubInterval
  previous : List SubInterval
  maxImport : Vector (Vector MaxDemand 8) 29
  maxExport : Vector (Vector MaxDemand 8) 29
  deriving DecidableEq, Repr

/-- A program pending (R335): 0 next billing close, 1 next demand close, 2 at an instant. -/
structure PendingProgram where
  handle : Nat
  when_ : Nat
  instant : Nat
  deriving DecidableEq, Repr

/-- Tariff state (R309 to R311, R316, R318): rate and program in force, program pending, settings in effect, billing period, the
period's flags (R333), the instant up to which boundaries are processed, and the model's clock at the last close. -/
structure Tariff where
  rate : Nat
  program : Option Nat
  pending : Option PendingProgram
  settings : List Setting
  period : Nat
  periodStart : Nat
  startProgram : Nat
  flags : Nat
  processedTo : Nat
  lastCloseAt : Option Nat
  deriving DecidableEq, Repr

/-- A boundary record (R326). -/
structure BoundaryRecord where
  seq : Nat
  kinds : Nat
  cause : Nat
  first : Nat
  last : Nat
  latchTime : Nat
  latchSeq : Nat
  windows : Nat
  closes : Nat
  rateBefore : Nat
  rateAfter : Nat
  flags : Nat
  period : Nat
  program : Nat
  saveSeq : Nat
  deriving DecidableEq, Repr

/-- A snapshot of every set at a billing close (R317, R333). -/
structure Snapshot where
  rate : Nat
  period : Nat
  start : Nat
  end_ : Nat
  cause : Nat
  flags : Nat
  program : Nat
  sets : Vector LatchedSet 29
  maxImport : Vector (Vector MaxDemand 8) 29
  maxExport : Vector (Vector MaxDemand 8) 29
  deriving DecidableEq, Repr

/-- The content of a save (R196). -/
structure Save where
  latched : Latched
  demand : Demand
  tariff : Tariff
  billing : Nat
  deriving DecidableEq, Repr

/-- Why a save outside the periodic rule is wanted (R197). -/
inductive SaveFor where
  | softReset | dormant | activation
  deriving DecidableEq, Repr

/-- A boundary write in progress (R326): what its commit word puts in force. -/
structure BoundaryWrite where
  save : Save
  record : BoundaryRecord
  snapshot : Option Snapshot
  closed : Option (Nat × Nat × Nat)
  changed : List (Nat × Nat × Nat)
  count : Nat
  /-- what waited for a save at the latch that the write belongs to (R197) -/
  fors : List SaveFor
  deriving DecidableEq, Repr

/-- The Keep's power-fail mark (R199): unsaved EAI and EAE per set in mWh, and the time of the last latch. -/
structure Mark where
  unsaved : Vector (Nat × Nat) 29
  lastLatch : Nat
  deriving DecidableEq, Repr

/-- Metrology DSP. -/
structure Dsp where
  /-- line frequency in mHz while detected (R159). Reset none. -/
  frequency : Option Nat
  /-- line frequency last detected in mHz (R33). Reset 50000 (DESIGN CHOICE). -/
  lastFrequency : Nat
  /-- source phase of the frequency detection (R159). Reset L1. -/
  source : Phase
  /-- measured rotation, none until measured: assumed positive (R160). Reset none. -/
  rotation : Option Bool
  /-- presence of VB0 L1, L2, L3, N and VB1 L1, L2, L3, N (R161). Reset absent. -/
  volts : Vector Bool 8
  /-- path in use of the dual-path channels: true is x16 (R157). Reset x1. -/
  x16 : Vector Bool 72
  /-- channel status words of the period in progress (R174). Reset 0. -/
  words : Vector Word16 88
  /-- current channels at or above their creep floor or start current in some cycle of the period (R174 FLOOR). Reset false. -/
  reached : Vector Bool 88
  /-- strobes for which the ×16 path of a dual-path channel is still contaminated, and strobes in a row that are clear on both counts
  (R156, R157). Reset 0, 0. -/
  holds : Vector Nat 72
  clears : Vector Nat 72
  /-- of each dual-path channel, the strobes after the start of the cycle in progress that have been through path selection, and the strobes,
  counted from there, at which the path changed (R157). Reset 0, none. -/
  pathAt : Vector Nat 72
  pathChanges : Vector (List Int) 72
  /-- the last samples of each modulator's stage 3 in nV, oldest first, for the delay of stage 4 (R153). Reset 0. -/
  taps : Vector (List Int) 160
  /-- the last sample into and out of each channel's high-pass, stage 7 (R153). Reset 0. -/
  filters : Vector (Int × Int) 88
  /-- the last samples of each voltage in mV, oldest first, for its delay by a quarter of a period (R183). Reset 0. -/
  delayed : Vector (List Int) 8
  /-- release of the modulators (R152). Reset 0. -/
  releasedAt : Nat
  /-- last L1 positive crossing, synthesised ones too, in ns since the release (R160). Reset 0. -/
  lastCrossing : Nat
  /-- the last 50 periods in ns, newest first (R159). Reset none. -/
  periods : List Nat
  /-- frequency in mHz with which the calibration delays were computed, and each modulator's delay change in ps (R154). Reset 50000, 0. -/
  delayFrequency : Nat
  delays : Vector Int 160
  /-- phase accumulator of the tone synthesiser, 32 bits (R162). Reset 0. -/
  toneAccumulator : Nat
  /-- time of the last storing of the tone corrections (R168). Reset 0. -/
  tonesStoredAt : Nat
  tones : Vector Tone 144
  /-- calibration entries in use, and the twins of their records (R177). Reset factory entries of the model's own (DESIGN CHOICE), no older
  copy. -/
  cal : Vector Cal 160
  calTwins : Vector (Twin Cal) 160
  /-- calibration writes that take effect at the next line cycle, with their request and whether that cycle has begun (R178). Reset none. -/
  calPending : List (List (Nat × Cal) × Waiting × Bool)
  capture : Option Capture
  /-- metering settings in use, taken at a line cycle (R176). Reset the defaults. -/
  settings : List Setting
  settingsPending : Option (List Setting)
  /-- energy formed since the last latch (R193). Reset 0. -/
  feed : Vector SetFeed 29
  /-- strobe index, 32 bits (R152). Reset 0. -/
  strobe : Nat
  deriving DecidableEq, Repr

/-- The Keep. -/
structure Keep where
  /-- last latch with the accumulators (R186, R190): they change only at latches. Reset sequence 0 with zero values. -/
  latched : Latched
  /-- strobe of the last latch, and of the latch of the last save (R195, R313). Reset 0. -/
  latchStrobe : Nat
  saveStrobe : Nat
  /-- sticky status words since the last billing close (R194). Reset 0. -/
  sticky : Vector Word16 29
  /-- last complete save (R196). Reset none. -/
  saved : Option Save
  /-- the save copy that is not current, while it is valid, and the current one's sequence number (R87, R196). Reset none, 0. -/
  savedOlder : Option Save
  savedSeq : Nat
  /-- save being written, with what waits for it (R196, R197). Reset none. -/
  saving : Option (Save × List SaveFor)
  /-- saves asked for at the next latch (R197). Reset none. -/
  saveWanted : List SaveFor
  /-- line cycles since the last latch, latch period N in force (R190, M4). Reset 0, 10. -/
  cycles : Nat
  latchN : Nat
  /-- a period in progress closes at the next crossing because frequency returned (M7). Reset false. -/
  closeNow : Bool
  /-- status words of the previous latch for METER_STATUS (R207). Reset 0. -/
  previous : Vector Word16 29
  /-- RESTORED is set in the next latch (R194). Reset false. -/
  restored : Bool
  /-- power-fail mark with its valid flag, and one whose writing is not complete (R199). Reset none. -/
  mark : Option Mark
  marking : Option Mark
  /-- the Keep's last stop was preceded by a save under R197 (R198). Reset false. -/
  stopSaved : Bool
  demand : Demand
  tariff : Tariff
  /-- largest billing time reached, 48 bits (R319). Reset 0. -/
  billing : Nat
  /-- time flagged uncertain (R324). Reset true: the RTC was lost at power-on. -/
  uncertain : Bool
  /-- remaining slew in microseconds, and the part of a millisecond absorbed (R320). Reset 0, 0. -/
  slewLeft : Nat
  slewPart : Nat
  /-- civil time of the last TIME_SET, 48 bits (R331). Reset 0. -/
  lastSet : Nat
  /-- forward step not yet executed at a latch: old and new billing time (R322). Reset none. -/
  forwardFrom : Option (Nat × Nat)
  /-- closed snapshots, newest first, at most 24 readable (R317). Reset empty. -/
  snapshots : List Snapshot
  /-- boundary records, newest first, at most 256 (R326). Reset empty. -/
  boundaries : List BoundaryRecord
  boundarySeq : Nat
  /-- boundary write not yet committed (R326). Reset none. -/
  writing : Option BoundaryWrite
  /-- BILLING_CLOSE waiting for a latch (R334). Reset none. -/
  closeRequest : Bool
  /-- requests that complete when the boundary write commits (R332, R334). Reset empty. -/
  waiting : List Waiting
  deriving DecidableEq, Repr

/-! ## Legal log, signing, seal and tamper (R337 to R362) -/

/-- A legal log entry (R353). -/
structure LogEntry where
  index : Nat
  time : Nat
  type : Nat
  origin : Nat
  uncertain : Bool
  rtc : Bool
  data : List Byte
  deriving DecidableEq, Repr

/-- An AON buffer entry (R350): time, type of the log entry it becomes, sequence and data. -/
structure AonEntry where
  time : Nat
  type : Nat
  seq : Nat
  source : Nat
  deriving DecidableEq, Repr

/-- A queued signature (R341): kind, set or port, session handle, snapshot index, nonce; the waiting request, or none for a session record. -/
structure SignJob where
  kind : Nat
  set : Nat
  session : Nat
  index : Nat
  nonce : List Byte
  request : Option Waiting
  body : Option SessionBody
  deriving DecidableEq, Repr

/-- The legal partition's records and inputs. -/
structure Legal where
  /-- legal log ring, oldest first, at most 1024 (R353). Reset empty. -/
  log : List LogEntry
  /-- next index, 32 bits (R353). Reset 1. -/
  nextIndex : Nat
  /-- next record counter, and the end of the reserved block with its twin, 64 bits (R340). Reset 1, 0 (DESIGN CHOICE), no older copy. -/
  counter : Nat
  reservedEnd : Nat
  reservedTwin : Twin Nat
  /-- signing queue in order, at most 16 places, and session records waiting for one (R341). Reset empty. -/
  signing : List SignJob
  waitingRecords : List SignJob
  /-- certificates: legal, device, issuing, DER bytes (R342). Reset empty (DESIGN CHOICE: the manual gives no bytes). -/
  certs : List (List Byte)
  /-- filtered CALEN (R345). Reset low. -/
  calen : Bool
  /-- seal fuse as last sensed (R346). Reset intact (DESIGN CHOICE: before its sealing). -/
  fuse : FuseSense
  /-- CAL_SEAL sequence: pulses made, check value, request (R347). Reset none. -/
  sealing : Option (Nat × Nat × Waiting)
  /-- a seal entry exists in the log (R347). Reset false. -/
  sealLogged : Bool
  /-- AON buffer, at most 64 entries (R350). Reset empty. -/
  aonBuffer : List AonEntry
  aonLost : Nat
  aonLostTime : Nat
  /-- AON sequence, 16 bits (R350). Reset 0. -/
  aonSeq : Nat
  /-- tamper inputs open (R349). Reset closed (DESIGN CHOICE). -/
  coverOpen : Bool
  terminalOpen : Bool
  /-- version and check value of the legal software last logged (R348, R354). Reset 0, 0. -/
  loggedSoftware : Nat × Nat
  deriving DecidableEq, Repr

/-! ## Belfry (R363 to R404) -/

/-- A node of the network table (R391), with the time of its joining (R397). -/
structure Node where
  eui : List Byte
  address : Nat
  kind : Nat
  attr : Nat
  joined : Nat
  deriving DecidableEq, Repr

/-- A route (R383). -/
structure Route where
  destination : Nat
  nextHop : Nat
  band : Band
  hops : Nat
  cost : Nat
  lastUsed : Nat
  lastUsedAt : Nat
  deriving DecidableEq, Repr

/-- What an outbound powerline message is for, to settle it. -/
inductive PlcPurpose where
  | host (w : Waiting) (hops : Nat)
  | leave (w : Waiting) (eui : List Byte)
  | own
  deriving DecidableEq, Repr

/-- Key and nonce a powerline frame is secured under (R388 to R390, R449). -/
inductive PlcSecurity where
  | plain
  | network
  | retiring
  | pairing (key nonce : List Byte)
  deriving DecidableEq, Repr

/-- A message waiting to be sent or being attempted in a band (R374 to R376): header frame type, message type, the band it must take
(0 either, 1 L, 2 U), failed attempts, contention periods to let pass and the slot drawn. -/
structure PlcMessage where
  type : Nat
  frameType : Nat
  priority : Nat
  nextHop : Nat
  originator : Nat
  final : Nat
  hopsLeft : Nat
  security : PlcSecurity
  robust : Bool
  acked : Bool
  prefer : Nat
  attempts : Nat
  waitPeriods : Nat
  slot : Option Nat
  data : List Byte
  purpose : PlcPurpose
  deriving DecidableEq, Repr

/-- Medium of a band (R373). -/
inductive Medium where
  | idle | receiving | sending | ackSlot | contention
  deriving DecidableEq, Repr

/-- One band (R365, R373 to R376): its medium, the messages waiting, the one being sent or awaiting its acknowledgement, the node an
acknowledgement is due to, the next header sequence, header and payload of the frame last sent with the tone map of its payload, none
where it is robust, whether an attempt has run out of time since the last frame or contention period, so that an acknowledgement would be late
(R375), and the neighbours dropped while a frame is in reception (W4). -/
structure BandState where
  running : Bool
  medium : Medium
  queue : List PlcMessage
  current : Option PlcMessage
  ackDue : Option Nat
  awaitingAck : Bool
  sequence : Nat
  sent : List Byte
  sentMap : Option ToneMap
  timedOut : Bool
  dropped : List Nat
  deriving DecidableEq, Repr

/-- A route discovery in progress (R384). -/
structure Discovery where
  target : Nat
  id : Nat
  startedAt : Nat
  floods : Nat
  messages : List PlcMessage
  deriving DecidableEq, Repr

/-- A route request for the Drurus that awaits its reply (R384). -/
structure ReplyDue where
  origin : Nat
  id : Nat
  cost : Nat
  via : Nat
  band : Band
  dueAt : Nat
  deriving DecidableEq, Repr

/-- A pairing window and its named nodes (R390, R391). -/
structure Pairing where
  endsAt : Nat
  nodes : List (List Byte × List Byte)
  joined : Nat
  lastBeaconAt : Nat
  deriving DecidableEq, Repr

/-- A join between steps 2 and 3 (R390). -/
structure Join where
  eui : List Byte
  address : Nat
  kind : Nat
  attr : Nat
  nd : List Byte
  deadline : Nat
  deriving DecidableEq, Repr

/-- Belfry. -/
structure Belfry where
  low : BandState
  upper : BandState
  /-- network table, at most 250 nodes (R391). Reset empty. -/
  nodes : List Node
  /-- routes, most recently made last, at most 128 (R383). Reset empty. -/
  routes : List Route
  discoveries : List Discovery
  replies : List ReplyDue
  /-- requests relayed: origin, id, lowest cost (R384). Reset empty. -/
  relayed : List (Nat × Nat × Nat)
  nextRequestId : Nat
  /-- frame counter and reserved end (R389). Reset 1, 0 (DESIGN CHOICE). -/
  counter : Nat
  reservedEnd : Nat
  pairing : Option Pairing
  joins : List Join
  /-- network identifier in effect (R395). Reset 1. -/
  networkId : Nat
  /-- counts of R398 and unknown types (R392), 32 bits. Reset 0. -/
  framesSent : Nat
  framesReceived : Nat
  headersFailed : Nat
  symbolsErased : Nat
  acksLate : Nat
  unknownTypes : Nat
  /-- PLC_PS1 to PLC_PS3 (R363). Reset all high (R518). -/
  coupling : Nat
  /-- receive gain in dB, 0 to 42 in steps of 6 (R363). Reset 0 (DESIGN CHOICE). -/
  gain : Nat
  /-- time of the last ENERGY_REPORT and of the last indication per port (R392). Reset 0. -/
  reportAt : Nat
  indicationAt : Vector Nat 24
  indicationDue : Vector Bool 24
  deriving DecidableEq, Repr

/-! ## Oculus (R405 to R439) -/

/-- A tag of a presentation with what its selection has brought about (R414, R415, R417): whether it is SECURED, whether it has passed the
challenge of R417 in this presentation, the challenge that a RESPOND may follow directly, the inactive copies written, and the bit rate. -/
structure PresentedTag where
  tag : Tag
  secured : Bool
  passed : Bool
  challenge : Option (List Byte)
  shadows : List (Nat × List Byte)
  rate : Nat
  deriving DecidableEq, Repr

/-- A presentation on an antenna (R408), with the time of its last check, and whether an authentication has been attempted in it (R418). -/
structure Presentation where
  tags : List PresentedTag
  tap : Nat
  failedChecks : Nat
  checkedAt : Nat
  attempted : Bool
  deriving DecidableEq, Repr

/-- Detection state of an antenna (R407, R408): the pings that did not trigger, the full polls in a row that found no tag, and its last ping. -/
structure Antenna where
  amplitudes : List Nat
  phases : List Int
  emptyPolls : Nat
  lastPing : Option Nat
  presentation : Option Presentation
  deriving DecidableEq, Repr

/-- A held tap (R428). -/
structure HeldTap where
  tap : Nat
  time : Nat
  at_ : Nat
  antenna : Fin 2
  uid : List Byte
  deriving DecidableEq, Repr

/-- A proof (R423). -/
structure Proof where
  id : Nat
  role : Nat
  antenna : Fin 2
  uid : List Byte
  time : Nat
  at_ : Nat
  used : Bool
  deriving DecidableEq, Repr

/-- A pending write record (R421). -/
structure PendingWrite where
  uid : List Byte
  block : Nat
  generation : Nat
  digest : List Byte
  time : Nat
  deriving DecidableEq, Repr

/-- A block write whose field was lost, to be settled within 300 ms (R420): the block, its generation before the write and the data, results so
far and entries left. -/
structure ReachRun where
  antenna : Fin 2
  uid : List Byte
  block : Nat
  generation : Nat
  data : List Byte
  lostAt : Nat
  atConfirm : Bool
  done : List (Nat × Nat × Nat)
  rest : List (Nat × Nat × List Byte)
  version : Nat
  txn : TxnBody
  slot : Nat
  deriving DecidableEq, Repr

/-- An authorisation list entry (R425). -/
structure AuthEntry where
  index : Nat
  uid : List Byte
  kind : Nat
  deny : Bool
  capMa : Nat
  validFrom : Nat
  validUntil : Nat
  label : Nat
  deriving DecidableEq, Repr

/-- A frame that Oculus sends to tags (R409 to R411): the known bits of a cascade level, the 40 bits of a SELECT, and the mask of an
inventory; `full` is 100 % modulation, else 10 % (rdr_mod15693); and the standard frame of a keytag command with its CRC_A, at the rate code of
R415. -/
inductive ReaderFrame where
  | reqa
  | wupa
  | anticollision (level : Nat) (known : List Bool)
  | select (level : Nat) (bytes : List Byte)
  | hlta
  | inventory (full : Bool) (mask : List Bool)
  | stayQuiet (full : Bool) (uid : List Byte)
  | command (rate : Nat) (bytes : List Byte)
  deriving DecidableEq, Repr

/-- Oculus. -/
structure Oculus where
  ant0 : Antenna
  ant1 : Antenna
  /-- last tap number, 32 bits (R408). Reset 0. -/
  lastTap : Nat
  /-- held taps, oldest first, at most 8 (R428). Reset empty. -/
  held : List HeldTap
  /-- proofs, oldest first, at most 4 (R423). Reset empty. -/
  proofs : List Proof
  /-- pending write records, oldest first, at most 16, and their twin (R421). Reset empty. -/
  pendingWrites : List PendingWrite
  pendingTwin : Twin (List PendingWrite)
  reach : Option ReachRun
  /-- authorisation list, by index, at most 512, and its twin (R425). Reset empty. -/
  list : List AuthEntry
  listTwin : Twin (List AuthEntry)
  pings : Nat
  polls : Nat
  authFailures : Nat
  /-- VDDTX good (R549). Reset true (DESIGN CHOICE). -/
  vddtxGood : Bool
  /-- UIDs authenticated and when, within the last 300 ms (R418, R420). Reset empty. -/
  lastAuth : List (List Byte × Nat)
  /-- frames of the last full poll or check, and of the keytag commands since (R408 to R411, R415). Reset none. -/
  sent : List ReaderFrame
  /-- the antenna port that drives the carrier; the other one holds TX1 and TX2 low (R405). Reset none. -/
  driven : Option (Fin 2)
  deriving DecidableEq, Repr

/-! ## Cupola (R440 to R457) -/

/-- A key slot among 2 to 7 (R445 to R449). -/
structure KeySlot where
  key : Option (List Byte)
  generation : Nat
  staged : Option (List Byte)
  stagedCheck : Nat
  verified : Bool
  retiring : Option (List Byte)
  deriving DecidableEq, Repr

/-- A helper record of the Key store that passes its CRC (R441). -/
structure HelperRecord where
  window : Nat
  sequence : Nat
  anchorTime : Nat
  offset : Nat
  kcv : List Byte
  deriving DecidableEq, Repr

/-- A copy of the selector (R446): its sequence, and for slots 2 to 7 and 11 whether it names record B. -/
structure KeySelector where
  seq : Nat
  names : Vector Bool 7
  deriving DecidableEq, Repr

/-- Cupola. -/
structure Cupola where
  /-- ZEROIZED (R453). Reset false. -/
  zeroized : Bool
  /-- root regenerated at this start (R442). Reset false. -/
  rootOk : Bool
  /-- the secret regenerated, 304 bits, while the root is available; the root is its SHA-256 (R440). Reset 0 (DESIGN CHOICE). -/
  secret : Nat
  /-- the two helper records of the Key store, none where one fails its CRC (R441). Reset as enrolled with a secret and a reference of 0
  (DESIGN CHOICE). -/
  helpers : Vector (Option HelperRecord) 2
  /-- the PUF array's 32 windows of 2048 cells as they read since its supply switch was closed, and the switch (R440). Reset empty: 0,
  open (DESIGN CHOICE). -/
  puf : List Nat
  pufOn : Bool
  /-- corrected bits of each block at the last attempt, none where a block did not decode (R442, R457). Reset empty. -/
  errors : List (Option Nat)
  /-- the selector's two copies, none where one fails its CRC (R446, R448). Reset sequences 1 and 0, naming record A (DESIGN CHOICE). -/
  selectors : Vector (Option KeySelector) 2
  /-- corrected bits of the last regeneration, window, anchor time and sequence (R441, R456). Reset 0, 0, 0, 1. -/
  errorsMax : Nat
  window : Nat
  anchorTime : Nat
  anchorSeq : Nat
  /-- re-anchoring due, and the time before which it is not tried (R443). Reset false, 0. -/
  reanchorDue : Bool
  reanchorByBits : Bool
  reanchorAfter : Nat
  /-- slots 2 to 7 (R445). Reset keys of the model's own (DESIGN CHOICE: as provisioned). -/
  slots : Vector KeySlot 6
  /-- OEM countersignature hash of slot 11 (R445). Reset empty: 0. -/
  oemHash : List Byte
  /-- network key index, 8 bits, and end of the retiring key (R449). Reset 0, none. -/
  keyIndex : Nat
  retiringUntil : Option Nat
  /-- random generator healthy (R450). Reset true. -/
  rngHealthy : Bool
  /-- destroy latch (R452). Reset false. -/
  destroyLatch : Bool
  /-- consecutive failed mesh checks and temperature samples out of range (R451). Reset 0, 0. -/
  meshFails : Nat
  tempFails : Nat
  /-- a KEYS_DESTROYED event to raise once the mailboxes serve: source, AON sequence, time (R453). Reset none. -/
  destroyed : Option (Nat × Nat × Nat)
  deriving DecidableEq, Repr

/-! ## Memory integrity (R458 to R476) -/

/-- A recent-error table entry (R464). -/
structure RecentError where
  region : Nat
  offset : Nat
  count : Nat
  first : Nat
  firstAt : Nat
  repeating : Bool
  deriving DecidableEq, Repr

/-- An error log entry (R473). -/
structure ErrorEntry where
  index : Nat
  time : Nat
  region : Nat
  kind : Nat
  offset : Nat
  page : Nat
  requester : Nat
  count : Nat
  spare : Nat
  deriving DecidableEq, Repr

/-- Counters of a region (R463, R475), its retired pages with their spare pages, and the spare pages whose remap entry fails its check
(R470). -/
structure Region where
  bucket : Nat
  overflowed : Bool
  lastLeak : Nat
  retired : List (Nat × Nat)
  duds : List Nat
  poisoned : List Nat
  recovered : Nat
  uncorrectable : Nat
  deriving DecidableEq, Repr

/-- A retirement that runs (R471, R472). -/
structure Retirement where
  region : Fin 8
  page : Nat
  startedAt : Nat
  request : Waiting
  deriving DecidableEq, Repr

/-- What the manual says is logged without a type of the legal log or of the error log: a lost clock (R19), a stuck RESET_N (R507), and a
write to a line of MRAM that the firewall refused an island (R41). -/
inductive LoggedEvent where
  | clockLost (c : Clock) | resetNStuck | writeRefused (line island : Nat)
  deriving DecidableEq, Repr

/-- What the archive of NOR holds (R42): entries of the error log and of the event log, the latter with their times, and powerline
statistics with theirs. -/
inductive ArchiveEntry where
  | error (e : ErrorEntry)
  | event (time : Nat) (e : LoggedEvent)
  | powerline (time : Nat) (counts : List Nat)
  deriving DecidableEq, Repr

/-- Memory integrity. -/
structure Memory where
  regions : Vector Region 8
  /-- the retirement that runs (R471). Reset none. -/
  retiring : Option Retirement
  recent : List RecentError
  log : List ErrorEntry
  /-- the archive of NOR, oldest first (R42). Reset empty. -/
  archive : List ArchiveEntry
  nextIndex : Nat
  sramPass : Nat
  mramPass : Nat
  refreshPage : Nat
  refreshDone : Nat
  /-- repeating marks per page of region 4 (R472). Reset empty. -/
  dspMarks : List (Nat × Nat)
  deriving DecidableEq, Repr

/-! ## Update (R477 to R503) -/

/-- The claim in force (R486, R488). -/
structure Claim where
  lane : Fin 2
  lastBlockAt : Nat
  deriving DecidableEq, Repr

/-- The claim record (R488). -/
structure ClaimRecord where
  digest : List Byte
  length : Nat
  securityVersion : Nat
  version : List Byte
  blocks : List Nat
  deriving DecidableEq, Repr

/-- A claim whose bank erase runs (R486). -/
structure Erasing where
  record : ClaimRecord
  lane : Fin 2
  request : Waiting
  deriving DecidableEq, Repr

/-- A bank of NOR (R42): what its verification record holds, whether there is one, its time and its CMAC (R495), the format of its settings (R497), the
legal software identification of its Keep part (R304), and the 2 KiB blocks written since its last erase, by rising index: a block
not listed reads erased, all 0xFF (R489). -/
structure Bank where
  digest : List Byte
  version : List Byte
  securityVersion : Nat
  settingsFormat : Nat
  keepVersion : Nat
  swCheck : Nat
  recordValid : Bool
  recordTime : Nat
  recordMac : List Byte
  content : List (Nat × List Byte)
  deriving DecidableEq, Repr

/-- The boot selector (R493). -/
structure Selector where
  seq : Nat
  state : Nat
  active : Nat
  previous : Nat
  trialBoots : Nat
  digest : List Byte
  fuseTarget : Nat
  lastResult : Nat
  time : Nat
  deriving DecidableEq, Repr

/-- Update. -/
structure Update where
  claim : Option Claim
  /-- the claim record and its twin (R488). Reset none. -/
  record : Option ClaimRecord
  recordTwin : Twin (Option ClaimRecord)
  erasing : Option Erasing
  banks : Vector Bank 2
  selector : Selector
  /-- the selector copy that is not current, while it is valid (R41, R493). Reset none. -/
  selectorOlder : Option Selector
  fuses : Nat
  /-- owner lock and the twin of its record (R490). Reset clear. -/
  ownerLock : Bool
  ownerTwin : Twin Bool
  offers : Nat
  trialUntil : Option Nat
  /-- fall-back decided in service, with its time (R498). Reset none. -/
  fallback : Option Nat
  /-- activation awaiting its save, or its reset (R492). Reset none. -/
  activating : Option Waiting
  activationResetAt : Option Nat
  forced : Bool
  /-- update log, newest first, at most 64 (R503). Reset empty. -/
  log : List (Nat × List Byte)
  trialDiscarded : Bool
  vbus : Bool
  deriving DecidableEq, Repr

/-! ## Reset, supply and observation (R504 to R528, R559 to R569) -/

/-- Phases of the device as a whole. -/
inductive DevicePhase where
  | heldReset      -- a device reset is asserted and supplies are not yet good
  | supplied       -- supplies good: the release order may begin
  | running        -- the mailboxes serve
  | recovery       -- only the AON domain and the service port run (R495)
  | dormant        -- only the AON domain runs, main supplies absent
  | commandedDormant
  | off            -- the AON domain has stopped
  deriving DecidableEq, Repr

/-- Bytes 8 to 21 of an option block copy with its sequence; region is byte 20 (R516). -/
structure OptionBlock where
  seq : Nat
  roles : Vector Nat 4
  hp3Mode : Nat
  hp3Baud : Nat
  keepalive : Nat
  uryan : Nat
  bucketDepth : Nat
  mesh : Nat
  lantern : Nat
  region : Nat
  portStart : Nat
  deriving DecidableEq, Repr

/-- SOFT_RESET or DORMANT in progress (R523, R526). -/
structure Shutdown where
  dormant : Bool
  waitingOpenings : Bool
  waitingSave : Bool
  startedAt : Nat
  request : Waiting
  deriving DecidableEq, Repr

/-- Pins with a weak reset pull-up, which ends at the release of the island that configures them (R518, R538): a port's drives and feedbacks
(CPD, CTD, PBD, RCT, CTF, PBF, OVS), the host ports', the service UART's, the safety links', PLC_PS1 to 3, and the trace port's. -/
inductive PulledPin where
  | port (p : Port) | hosts | service | links | estopA | estopB | estopT | peMon | srstN | calen | coupling | trace
  deriving DecidableEq, Repr

/-- The pins that Steeple's release frees of their pull-up. -/
def steeplePins : List PulledPin := [.links, .estopA, .estopB, .estopT, .peMon, .srstN]

/-- Those that Turret's release frees: each lane configures its own. -/
def turretPins : List PulledPin := (List.finRange 24).map .port

/-- All of them, as a device reset leaves them. -/
def resetPins : List PulledPin := steeplePins ++ turretPins ++ [.calen, .hosts, .service, .coupling, .trace]

/-- Power, reset and always-on domain. -/
structure Power where
  phase : DevicePhase
  /-- islands held in reset besides the device's phase (R19, R21). Reset empty. -/
  held : List Clock
  /-- clocks lost (R19). Reset none. -/
  lostClocks : List Clock
  /-- cause of the last device reset (R525). Reset 1: power-on. -/
  cause : Nat
  resetStuck : Bool
  holdUpBefore : Bool
  supplyFault : Option Supply
  rtcLost : Bool
  startupFaults : List Clock
  /-- power-off time, none when not recorded (R509, R511). Reset none. -/
  powerOff : Option Nat
  /-- power-off time of a power cut that the Keep has not yet reported (R200). Reset none. -/
  cutAt : Option Nat
  /-- civil time of the last device reset assertion (R89, R505). Reset 0. -/
  assertedTime : Nat
  bootTime : Nat
  bootAt : Nat
  lastRestart : Nat
  restartPort : Option Port
  restartTime : Nat
  /-- device resets since provisioning, 32 bits (R525). Reset 1. -/
  boots : Nat
  holdUp : Bool
  vbakLow : Bool
  option0 : Option OptionBlock
  option1 : Option OptionBlock
  inForce : OptionBlock
  safeDefaults : Bool
  shutdown : Option Shutdown
  /-- the AON domain holds a reset or a Dormant entry for this time (R523, R526). Reset none. -/
  pendingReset : Option Nat
  pendingDormant : Option Nat
  wakePending : Bool
  /-- block-level resets in progress, oldest first: island, lane and request (R520, R521). Reset empty. -/
  restarting : List (Clock × Option Port × Waiting)
  /-- pins that have their weak reset pull-up (R518, R538). Reset all of them: the islands are in reset. -/
  pullUps : List PulledPin
  /-- time since which the start-up sequencer may ask for releases, and the islands whose release a block-level reset has asked for,
  with the time (R21). Reset 0, empty. -/
  suppliedAt : Nat
  askedAt : List (Clock × Nat)
  /-- Rotunda restarts and its mailboxes serve again at this time (R73). Reset none. -/
  serveAt : Option Nat
  /-- the uncertain-time flag stands for the loss of CD0 alone (R19). Reset false. -/
  rcTime : Bool
  resetNStuckLow : Bool
  /-- event log of MRAM (R19, R41, R507), each entry with its time, at most 256 (DESIGN CHOICE, log 159). Reset empty. -/
  eventLog : List (Nat × LoggedEvent)
  /-- AON copies of last_executed (R506). Reset 0xFFFF each. -/
  aonExecuted : Vector Nat 4
  serial : Nat
  grade : Nat
  deriving DecidableEq, Repr

/-- A trace message in a source's buffer (R564). -/
structure TraceMsg where
  source : Nat
  type : Nat
  seq : Nat
  tick : Nat
  content : List Byte
  deriving DecidableEq, Repr

/-- Lantern. -/
structure Lantern where
  running : Bool
  /-- tick count, 64 bits (R565). Reset 0. -/
  tick : Nat
  counters : Vector Nat 64
  /-- per source: next sequence, messages lost since the last delivered one (R564, R566). Reset 0. -/
  seqs : Vector Nat 12
  lost : Vector Nat 12
  /-- messages waiting, per source at most 32, oldest first (R566). Reset empty. -/
  buffer : List TraceMsg
  /-- bytes last sent on the trace port (R562). Reset empty. -/
  wire : List Byte
  deriving DecidableEq, Repr

/-- Rotunda and the crossing window. -/
structure Rotunda where
  boxes : Vector Mailbox 6
  supervisor : Supervisor
  /-- inbound frames placed so far: the order of R68. Reset 0. -/
  arrivals : Nat
  /-- dynamic channels by slot (R79). Reset empty. -/
  channels : List Channel
  /-- generations of the 256 slots, 16 bits (R82). Reset 1. -/
  generations : Vector Nat 256
  /-- slot allocated last (R80). Reset 0xFF, so the search starts at 0x1F. -/
  lastSlot : Nat
  /-- the copy of that table which is not current, while it is valid, and the current one's sequence number (R82, R87). Reset none, 0. -/
  tableOlder : Option SlotTable
  tableSeq : Nat
  /-- MRAM mirrors of the persistent channels (R87). Reset empty. -/
  mirrors : List MirrorRecord
  /-- time at which the permanent channels were created (R78). Reset 0. -/
  createdTime : Nat
  /-- permanent slots whose lines are being rebuilt (R88). Reset empty. -/
  rebuilding : List Nat
  /-- committed configuration: the fields that differ from their defaults (R93, R97). Reset empty. -/
  committed : List Setting
  /-- the settings copy that is not current, while it is valid, and the current one's sequence number (R87, R97). Reset none, 0. -/
  settingsOlder : Option (List Setting)
  settingsSeq : Nat
  /-- configuration the running blocks act on (R99). Reset empty. -/
  applied : List Setting
  /-- settings of the previous format kept during a trial (R497). Reset none. -/
  oldSettings : Option (List Setting)
  ranks : List RankEntry
  /-- allocator input block as last published (R23 to R26). Reset publication 0. -/
  published : InputBlock
  /-- next request number, 32 bits (R29, R30). Reset 1. -/
  nextRequest : Nat
  /-- transactions of every host port not yet applied, oldest first (R96, R100). Reset empty. -/
  commits : List Commit
  /-- requests whose completion waits for a port or session event (R142, R145). Reset empty. -/
  waiting : List Waiting
  /-- sessions whose channels are gone before the latch of their end value, oldest first: SESSION_ENDED is still due (R137, R147).
  Reset empty. -/
  ending : List Channel
  /-- control plane silent, last heartbeat seen and when it changed (R39). Reset false, 0, 0. -/
  silent : Bool
  queueHeartbeat : Nat
  queueHeartbeatAt : Nat
  deriving DecidableEq, Repr

/-- The whole device: clocks, islands, and the queue of commands that wait. -/
structure State where
  /-- the model's clock in ms, never set back (DESIGN CHOICE). Reset 0. -/
  now : Nat
  /-- civil time, 48 bits, ms since the Strelti epoch (R7, R319). Reset 0 (DESIGN CHOICE). -/
  civil : Nat
  /-- free values drawn so far: the model's own counter (DESIGN CHOICE). Reset 0. -/
  free : Nat
  rotunda : Rotunda
  turret : Turret
  steeple : Steeple
  dsp : Dsp
  keep : Keep
  legal : Legal
  belfry : Belfry
  oculus : Oculus
  cupola : Cupola
  memory : Memory
  update : Update
  power : Power
  lantern : Lantern
  /-- commands waiting, first in first out. Reset empty. -/
  pending : List Instr
  deriving DecidableEq, Repr

/-! ## Reset -/

def Mailbox.reset : Mailbox where
  inRing := []
  outRing := []
  kept := none
  lost := none
  frameErrors := 0
  errFlag := false
  lastAccepted := false
  framesIn := 0
  framesOut := 0
  eventsLost := 0
  segments := none
  lastRequest := none
  lastExecuted := 0xFFFF
  session := none
  attach := none
  failedAttaches := []
  barUntil := none
  epoch := 0
  owed := 0
  stage := none
  stageTouched := 0
  lastPeriod := 0
  lastCommitTime := 0
  attachedTime := 0
  lastRx := 0
  lastRxAt := 0
  lastTxAt := 0
  slotFreed := false
  wire := []
  modified := 0
  changes := 0

def InputBlock.reset : InputBlock where
  seq := 0
  time := 0
  heartbeat := 0
  settings := []
  surplusAt := none
  record := []

def Lane.reset : Lane where
  state := .disabled
  enabled := false
  ignored := false
  stopped := false
  drive := .high
  nextDrive := .low
  duty := 0
  highMv := 0
  lowMv := none
  settleUsed := 0
  window := 0
  lastClass := none
  classRun := 0
  confirmed := none
  bandChanged := false
  ppOhm := 0
  ppBand := 0
  ppRun := 0
  cable := 0
  cableChanged := false
  vehicleAt := none
  blind := false
  timed := false
  transition := 0
  allowance := 0
  limit := 0
  stateTime := 0
  session := 0
  closings := 0
  faultOpenings := 0
  weldProbes := 0
  sheds := 0
  ctd := false
  pbd := false
  rct := .static
  ctf := false
  ctfRun := 0
  ctfOdd := none
  pbf := false
  ovs := false
  ovsAt := 0
  ctdChangedAt := 0
  testPassed := false
  testStep := 0
  testStart := 0
  testForReset := false
  comparator := none
  enabling := false
  testResult := 0xFF
  testDc := 0
  testAc := 0
  seq := .none
  afterClosing := none
  disableRequest := none
  stopRequest := false
  stopReason := 3
  denied := false
  shedActive := false
  shedAt := 0
  closeDuration := 0
  openDuration := 0
  rcsDc := 0
  rcsAc := 0
  rcsRms := 0
  portMode := 0
  phaseMap := 0
  interrupted := false
  connectedTime := 0
  connectedBilled := 0
  unbroken := true
  quietSince := none
  lowResidualSince := none
  closeStep5Ok := false
  openStep3Ok := false
  preBreakClean := true
  energisedAt := none
  modified := 0
  changes := 0
  flagsSeen := 0

def AllocPort.reset : AllocPort where
  allowance := 0
  draw := 0
  candidate := false
  shed := false
  held := false
  reclaimed := false
  assumed := false
  lastIncrease := none
  lowSince := none
  value := 0
  reason := 0

def GuardPhase.reset : GuardPhase where
  zone := 0
  lsTimer := 0
  zone2Timer := 0
  zone0Run := 0
  zone3Run := 0
  blind := false
  blindSince := 0
  raised := false
  siteMa := 0
  room := 0
  zonePosted := false
  hard := none

def MirrorEntry.reset : MirrorEntry where
  rms := 0
  power := 0
  x16 := false
  outOfTol := false
  toneLost := false
  x1Lost := false
  toneObscured := false
  disabled := false
  strobe := 0
  seq := 0
  stale := false
  unsync := false
  updatedAt := 0
  freshSince := 0
  cutAt := 0
  sumRms := 0
  sumPower := 0
  sumIp := 0
  count := 0

def Turret.reset : Turret where
  lanes := Vector.replicate 24 Lane.reset
  queue := []
  queueSeq := 0
  queueLost := none
  heartbeat := 0
  mirror := Vector.replicate 88 MirrorEntry.reset
  crossing := Vector.replicate 3 0
  synthesised := false
  assumedRotation := false
  comparators := []
  period := 0
  boundaryTime := 0
  boundaryAt := 0
  crossings := 0
  siteShown := none
  latched := InputBlock.reset
  firstPeriod := 0
  inputHeartbeat := 0
  inputHeartbeatAt := 0
  inputStale := false
  hostDiscarded := true
  batteryOn := false
  source := 0
  budget := none
  siteStale := false
  siteValues := ⟨Vector.replicate 3 0, Vector.replicate 3 0, Vector.replicate 3 0⟩
  ports := Vector.replicate 24 AllocPort.reset
  guard := Vector.replicate 3 GuardPhase.reset
  shedsHard := 0
  shedsSoft := 0
  readmits := 0
  overLh := 0
  blindSpells := 0
  modified := 0
  changes := 0
  siteSeen := none

def Lockout.reset : Lockout := ⟨false, false, []⟩

/-- The block of defaults (R278, R279). -/
def SafetyBlock.defaults : SafetyBlock where
  version := 1
  enables := 8
  cablePolicy := 0
  degradedMin := 30
  tgPeriod := 10
  tgTimeout := 30
  tgStart := 10
  estopTest := 10
  pairId := 0
  localId := 0
  partnerId := 0
  canTx := 0x010
  canRx := 0x011
  rated := Vector.replicate 24 320
  trip := Vector.replicate 24 200
  reserved := List.replicate 8 0

def SafetyLink.reset : SafetyLink where
  lastRxSeq := 0
  lastTxSeq := 0
  txErrors := 0
  rxErrors := 0
  partnerMode := 0
  lastValid := 0
  lastValidAt := none
  skewUs := 0
  valid := 0
  crcFail := 0
  otherFail := 0
  unmatched := 0
  pairs := 0
  busErrors := 0
  modified := 0
  changes := 0

def Telegram.reset : Telegram where
  running := false
  started := false
  startedAt := 0
  baseAt := 0
  txSeq := 0
  nextTxAt := 0
  reference := none
  waiting := []
  ended := []
  remaining := none
  pairSeen := false
  lastPairSeq := 0
  lastPairTime := 0
  lastPairAt := 0
  lastPairStop := false
  goodSince := none
  stopClearSince := none
  sent := []
  sentId := 0
  a := SafetyLink.reset
  b := SafetyLink.reset
  timeoutDecided := false

def Steeple.reset : Steeple where
  permits := Vector.replicate 24 false
  probes := Vector.replicate 24 false
  trips := Vector.replicate 24 (Vector.replicate 3 false)
  above := Vector.replicate 24 (Vector.replicate 3 false)
  hub := Lockout.reset
  ports := Vector.replicate 24 Lockout.reset
  reactions := []
  hubDegraded := none
  portDegraded := Vector.replicate 24 none
  affected := Vector.replicate 24 false
  overSince := Vector.replicate 24 (Vector.replicate 3 none)
  record := []
  nextIndex := 1
  supplyStop := false
  suppliesOut := []
  suppliesGoodAt := 0
  vddioLow := false
  stored := ⟨Lockout.reset, Vector.replicate 24 Lockout.reset, none, Vector.replicate 24 none, none, 0, 1⟩
  committing := false
  committed := none
  copyLost := none
  commitTime := 0
  staged := SafetyBlock.defaults
  resets := []
  window := none
  usedProofs := []
  lastActed := 0
  srstStuck := false
  estopA := true
  estopB := true
  estopSplitAt := none
  estopCycled := false
  estopOpenedAt := none
  estopBoth := false
  estopFollowed := 0
  estopTestAt := 0
  peBad := 0
  peGoodSince := none
  shunt := []
  cd1Lost := none
  permitsFell := none
  clocksGoodAt := 0
  selfTest := false
  fatalAt := none
  aliveAt := 0
  aliveSince := 0
  aliveCount := 0
  telegram := Telegram.reset

def Cal.factory (m : Nat) : Cal where
  gain := 0x40000000
  phase := 0
  cp := if m < 144 then 1000 else 0
  toneAmp := 0
  tonePhase := 0
  written := false

def Tone.reset : Tone where
  state := .notReferenced
  gainClamped := false
  phaseClamped := false
  targetGain := 0
  targetPhase := 0
  gain := 0
  phase := 0
  lastValid := 0
  lastValidAt := 0
  invalidRun := 0
  validRun := 0
  amplitudeFails := 0
  inBoundRun := 0
  outOfTol := false
  amplitude := 0
  phasor := 0
  obscured := false
  windowAt := 0
  spoiled := false
  storedGain := 0
  storedPhase := 0
  storedAmplitude := 0
  storedPhasor := 0

def Quant.zero : Quant := ⟨0, 0, 0, 0, 0, 0, 0⟩

def SetRegs.zero : SetRegs :=
  ⟨Quant.zero, Vector.replicate 3 Quant.zero, Vector.replicate 8 0, Vector.replicate 8 0⟩

def SetFeed.zero : SetFeed := ⟨Quant.zero, Vector.replicate 3 Quant.zero, 0, 0, 0⟩

def LatchedSet.zero : LatchedSet := ⟨SetRegs.zero, 0, 0, 0, 0⟩

def Latched.reset : Latched := ⟨0, 0, 0, 0, Vector.replicate 29 LatchedSet.zero, Vector.replicate 88 0⟩

def MaxDemand.zero : MaxDemand := ⟨0, 0⟩

def SubInterval.zero : SubInterval := ⟨1, 0, true, false, Vector.replicate 29 (0, 0)⟩

def Demand.reset : Demand where
  interval := 15
  mode := 0
  offset := 0
  current := SubInterval.zero
  previous := []
  maxImport := Vector.replicate 29 (Vector.replicate 8 MaxDemand.zero)
  maxExport := Vector.replicate 29 (Vector.replicate 8 MaxDemand.zero)

def Tariff.reset : Tariff where
  rate := 1
  program := none
  pending := none
  settings := []
  period := 0
  periodStart := 0
  startProgram := 0
  flags := 0
  processedTo := 0
  lastCloseAt := none

def Dsp.reset : Dsp where
  frequency := none
  lastFrequency := 50000
  source := 0
  rotation := none
  volts := Vector.replicate 8 false
  x16 := Vector.replicate 72 false
  words := Vector.replicate 88 0
  reached := Vector.replicate 88 false
  holds := Vector.replicate 72 0
  clears := Vector.replicate 72 0
  pathAt := Vector.replicate 72 0
  pathChanges := Vector.replicate 72 []
  taps := Vector.replicate 160 (List.replicate 8 0)
  filters := Vector.replicate 88 (0, 0)
  delayed := Vector.replicate 8 (List.replicate 48 0)
  releasedAt := 0
  lastCrossing := 0
  periods := []
  delayFrequency := 50000
  delays := Vector.replicate 160 0
  toneAccumulator := 0
  tonesStoredAt := 0
  tones := Vector.replicate 144 Tone.reset
  cal := Vector.ofFn (fun i => Cal.factory i.val)
  calTwins := Vector.replicate 160 ⟨none, 0⟩
  calPending := []
  capture := none
  settings := []
  settingsPending := none
  feed := Vector.replicate 29 SetFeed.zero
  strobe := 0

def Keep.reset : Keep where
  latched := Latched.reset
  latchStrobe := 0
  saveStrobe := 0
  sticky := Vector.replicate 29 0
  saved := none
  savedOlder := none
  savedSeq := 0
  saving := none
  saveWanted := []
  cycles := 0
  latchN := 10
  closeNow := false
  previous := Vector.replicate 29 0
  restored := false
  mark := none
  marking := none
  stopSaved := false
  demand := Demand.reset
  tariff := Tariff.reset
  billing := 0
  uncertain := true
  slewLeft := 0
  slewPart := 0
  lastSet := 0
  forwardFrom := none
  snapshots := []
  boundaries := []
  boundarySeq := 0
  writing := none
  closeRequest := false
  waiting := []

def Legal.reset : Legal where
  log := []
  nextIndex := 1
  counter := 1
  reservedEnd := 0
  reservedTwin := ⟨none, 0⟩
  signing := []
  waitingRecords := []
  certs := []
  calen := false
  fuse := .intact
  sealing := none
  sealLogged := false
  aonBuffer := []
  aonLost := 0
  aonLostTime := 0
  aonSeq := 0
  coverOpen := false
  terminalOpen := false
  loggedSoftware := (0, 0)

def BandState.reset : BandState where
  running := false
  medium := .idle
  queue := []
  current := none
  ackDue := none
  awaitingAck := false
  sequence := 0
  sent := []
  sentMap := none
  timedOut := false
  dropped := []

def Belfry.reset : Belfry where
  low := BandState.reset
  upper := BandState.reset
  nodes := []
  routes := []
  discoveries := []
  replies := []
  relayed := []
  nextRequestId := 0
  counter := 1
  reservedEnd := 0
  pairing := none
  joins := []
  networkId := 1
  framesSent := 0
  framesReceived := 0
  headersFailed := 0
  symbolsErased := 0
  acksLate := 0
  unknownTypes := 0
  coupling := 7
  gain := 0
  reportAt := 0
  indicationAt := Vector.replicate 24 0
  indicationDue := Vector.replicate 24 false

def Antenna.reset : Antenna := ⟨[], [], 0, none, none⟩

def Oculus.reset : Oculus where
  ant0 := Antenna.reset
  ant1 := Antenna.reset
  lastTap := 0
  held := []
  proofs := []
  pendingWrites := []
  pendingTwin := ⟨none, 0⟩
  reach := none
  list := []
  listTwin := ⟨none, 0⟩
  pings := 0
  polls := 0
  authFailures := 0
  vddtxGood := true
  lastAuth := []
  sent := []
  driven := none

/-- The AES key the model gives slot 2 + i at reset, 16 bytes of value i (DESIGN CHOICE). -/
def KeySlot.reset (i : Nat) : KeySlot where
  key := some (List.replicate 16 (BitVec.ofNat 8 i))
  generation := 1
  staged := none
  stagedCheck := 0
  verified := false
  retiring := none

/-- The check value of the root of a secret of 0 with a serial of 0 (R444). -/
def resetKcv : List Byte := [0xD1, 0x1D, 0x7A, 0xF6, 0x3D, 0x58, 0x8E, 0xA8]

def Cupola.reset : Cupola where
  zeroized := false
  rootOk := false
  secret := 0
  helpers := #v[some ⟨0, 0, 0, 0, resetKcv⟩, some ⟨0, 1, 0, 0, resetKcv⟩]
  puf := []
  pufOn := false
  errors := []
  selectors := #v[some ⟨1, Vector.replicate 7 false⟩, some ⟨0, Vector.replicate 7 false⟩]
  errorsMax := 0
  window := 0
  anchorTime := 0
  anchorSeq := 1
  reanchorDue := false
  reanchorByBits := false
  reanchorAfter := 0
  slots := Vector.ofFn (fun i => KeySlot.reset i.val)
  oemHash := []
  keyIndex := 0
  retiringUntil := none
  rngHealthy := true
  destroyLatch := false
  meshFails := 0
  tempFails := 0
  destroyed := none

def Region.reset : Region := ⟨0, false, 0, [], [], [], 0, 0⟩

def Memory.reset : Memory where
  regions := Vector.replicate 8 Region.reset
  retiring := none
  recent := []
  log := []
  archive := []
  nextIndex := 1
  sramPass := 0
  mramPass := 0
  refreshPage := 0
  refreshDone := 0
  dspMarks := []

/-- The CMAC of the first verification record, of bank A, under the key derived from a secret of 0 with a serial of 0 (R444, R495). -/
def resetVrec : List Byte :=
  [0x74, 0x1D, 0x09, 0xA0, 0xB3, 0x73, 0xA9, 0x74, 0x82, 0xA0, 0x4B, 0x4B, 0x30, 0x4B, 0x9D, 0x5F]

def Bank.reset (recorded : Bool) : Bank :=
  ⟨List.replicate 32 0, List.replicate 4 0, 1, 0, 0, 0, recorded, 0, if recorded then resetVrec else [], []⟩

def Update.reset : Update where
  claim := none
  record := none
  recordTwin := ⟨none, 0⟩
  erasing := none
  banks := #v[Bank.reset true, Bank.reset false]
  selector := ⟨1, 0, 0, 0xFF, 0, List.replicate 32 0, 0, 0, 0⟩
  selectorOlder := none
  fuses := 0
  ownerLock := false
  ownerTwin := ⟨none, 0⟩
  offers := 0
  trialUntil := none
  fallback := none
  activating := none
  activationResetAt := none
  forced := false
  log := []
  trialDiscarded := false
  vbus := false

/-- The option block as shipped (R516). -/
def OptionBlock.factory : OptionBlock where
  seq := 1
  roles := #v[3, 0, 0, 0]
  hp3Mode := 0
  hp3Baud := 0
  keepalive := 60
  uryan := 0
  bucketDepth := 16
  mesh := 0
  lantern := 0
  region := 0
  portStart := 1

def Power.reset : Power where
  phase := .heldReset
  held := []
  lostClocks := []
  cause := 1
  resetStuck := false
  holdUpBefore := false
  supplyFault := none
  rtcLost := true
  startupFaults := []
  powerOff := none
  cutAt := none
  assertedTime := 0
  bootTime := 0
  bootAt := 0
  lastRestart := 0
  restartPort := none
  restartTime := 0
  boots := 1
  holdUp := false
  vbakLow := false
  option0 := some OptionBlock.factory
  option1 := none
  inForce := OptionBlock.factory
  safeDefaults := false
  shutdown := none
  pendingReset := none
  pendingDormant := none
  wakePending := false
  restarting := []
  pullUps := resetPins
  suppliedAt := 0
  askedAt := []
  serveAt := none
  rcTime := false
  resetNStuckLow := false
  eventLog := []
  aonExecuted := Vector.replicate 4 0xFFFF
  serial := 0
  grade := 0

def Lantern.reset : Lantern where
  running := false
  tick := 0
  counters := Vector.replicate 64 0
  seqs := Vector.replicate 12 0
  lost := Vector.replicate 12 0
  buffer := []
  wire := []

def Rotunda.reset : Rotunda where
  boxes := Vector.replicate 6 Mailbox.reset
  supervisor := .free
  arrivals := 0
  channels := []
  generations := Vector.replicate 256 1
  lastSlot := 0xFF
  tableOlder := none
  tableSeq := 0
  mirrors := []
  createdTime := 0
  rebuilding := []
  committed := []
  settingsOlder := none
  settingsSeq := 0
  applied := []
  oldSettings := none
  ranks := []
  published := InputBlock.reset
  nextRequest := 1
  commits := []
  waiting := []
  ending := []
  silent := false
  queueHeartbeat := 0
  queueHeartbeatAt := 0

/-- The machine right after power-on (R504 code 1): the device reset is asserted, every island but the always-on domain is in
reset, no supply-good has been seen (R508) and nothing has ever been configured. -/
def State.reset : State where
  now := 0
  civil := 0
  free := 0
  rotunda := Rotunda.reset
  turret := Turret.reset
  steeple := Steeple.reset
  dsp := Dsp.reset
  keep := Keep.reset
  legal := Legal.reset
  belfry := Belfry.reset
  oculus := Oculus.reset
  cupola := Cupola.reset
  memory := Memory.reset
  update := Update.reset
  power := Power.reset
  lantern := Lantern.reset
  pending := []

end Sys2Proof.Machine
end

