-- ==== Sys2Proof/Machine/Ops.lean ====
section
/-! DEFINITION. The operations every island's meanings share: reading and writing parts of the state, drawing free values, Lantern's
messages and counters, mailbox frames, events, responses and completions, the channel table, and the end of a host session. -/

namespace Sys2Proof.Machine

/-- What `exec` answers. -/
abbrev Out := Host.Outcome State Fault Refusal

/-! ## Parts of the state -/

def State.box (s : State) (b : Box) : Mailbox := s.rotunda.boxes[b]
def State.withRotunda (s : State) (r : Rotunda) : State := { s with rotunda := r }
def State.withTurret (s : State) (t : Turret) : State := { s with turret := t }
def State.withSteeple (s : State) (t : Steeple) : State := { s with steeple := t }
def State.withDsp (s : State) (t : Dsp) : State := { s with dsp := t }
def State.withKeep (s : State) (t : Keep) : State := { s with keep := t }
def State.withLegal (s : State) (t : Legal) : State := { s with legal := t }
def State.withBelfry (s : State) (t : Belfry) : State := { s with belfry := t }
def State.withOculus (s : State) (t : Oculus) : State := { s with oculus := t }
def State.withCupola (s : State) (t : Cupola) : State := { s with cupola := t }
def State.withMemory (s : State) (t : Memory) : State := { s with memory := t }
def State.withUpdate (s : State) (t : Update) : State := { s with update := t }
def State.withPower (s : State) (t : Power) : State := { s with power := t }
def State.withLantern (s : State) (t : Lantern) : State := { s with lantern := t }

/-- One mailbox replaced. -/
def State.setBox (s : State) (b : Box) (m : Mailbox) : State :=
  s.withRotunda { s.rotunda with boxes := s.rotunda.boxes.set b m }

def State.modBox (s : State) (b : Box) (f : Mailbox → Mailbox) : State := s.setBox b (f (s.box b))

/-- The body of the port's HOST channel changed (R75). -/
def Mailbox.touch (m : Mailbox) (civil : Nat) : Mailbox :=
  { m with modified := w48 civil, changes := w32 (m.changes + 1) }

/-- One mailbox changed in a way its HOST channel's body shows. -/
def State.modHost (s : State) (b : Box) (f : Mailbox → Mailbox) : State :=
  s.setBox b ((f (s.box b)).touch s.civil)

def State.lane (s : State) (p : Port) : Lane := s.turret.lanes[p]

def allPorts : List Port := List.finRange 24
def allBoxes : List Box := List.finRange 6
/-- The four host ports' mailboxes. -/
def hostBoxes : List Box := [0, 1, 2, 3]
def allPhases : List Phase := [0, 1, 2]

/-- The mailbox of a host port. -/
def hostBox (p : HostPort) : Box := ⟨p.val, by omega⟩

/-! ## Who runs -/

/-- The always-on domain runs until VBAK fails (R511, R527). -/
def State.aon (s : State) : Bool := s.power.phase != .off

/-- The device serves, and an island's clock is not lost and it is not held in reset (R19, R21). -/
def State.clocked (s : State) (c : Clock) : Bool :=
  s.power.phase == .running && !s.power.held.contains c && !s.power.lostClocks.contains c

/-- An island runs: Rotunda and the link island restart together, until the mailboxes serve again (R73). -/
def State.up (s : State) (c : Clock) : Bool := s.clocked c && !(s.power.serveAt.isSome && (c == .cd5 || c == .cd10))

/-- The mailboxes of the host ports serve (R73, R513). -/
def State.serves (s : State) : Bool := s.up .cd5 && s.up .cd10

/-- The mailbox serves; the service lanes serve in recovery too (R477, R495). -/
def State.servesBox (s : State) (b : Box) : Bool :=
  if b.val < 4 then s.serves else s.serves || s.power.phase == .recovery

/-- Lantern runs and its clock is not lost (R559, R567). -/
def State.lanternUp (s : State) : Bool :=
  s.lantern.running && s.power.phase == .running && !s.power.lostClocks.contains .cd11 && !s.power.held.contains .cd11

/-! ## Free values -/

/-- The next draw of a free number. -/
def State.drawn (s : State) : Nat := Config.freeNat s.free
def State.drawnBytes (s : State) (n : Nat) : List Byte := Config.freeBytes n s.free
/-- The counter of draws moved on. -/
def State.draw (s : State) : State := { s with free := s.free + 1 }

/-! ## Lantern -/

/-- One of the 64 counters up by `n`, while Lantern runs (R567). -/
def count (i : Fin 64) (n : Nat) (s : State) : State :=
  if s.lanternUp then
    s.withLantern { s.lantern with counters := s.lantern.counters.set i (w32 (s.lantern.counters[i] + n)) }
  else s

/-- The counter of a numbered series. -/
def countAt (i n : Nat) (s : State) : State := if h : i < 64 then count ⟨i, h⟩ n s else s

/-- Messages of a source waiting in Lantern. -/
def Lantern.waiting (l : Lantern) (src : Nat) : Nat := l.buffer.countP (fun m => m.source == src)

/-- An island posts a message (R564 to R566): lost when its source's buffer of 32 is full, and a LOST message goes first once
there is space again. -/
def trace (src : Fin 12) (type : Nat) (content : List Byte) (s : State) : State :=
  if s.lanternUp then
    let l := s.lantern
    let q := l.seqs[src]
    if l.waiting src.val < 32 then
      let l1 : Lantern :=
        if l.lost[src] = 0 then l
        else { l with
          buffer := l.buffer ++ [⟨src.val, 0x7F, q, w32 l.tick, le 2 l.lost[src]⟩]
          seqs := l.seqs.set src (w8 (q + 1))
          lost := l.lost.set src 0 }
      let q1 := l1.seqs[src]
      if l1.waiting src.val < 32 then
        s.withLantern { l1 with
          buffer := l1.buffer ++ [⟨src.val, type, q1, w32 l.tick, content⟩]
          seqs := l1.seqs.set src (w8 (q1 + 1)) }
      else
        s.withLantern { l1 with
          seqs := l1.seqs.set src (w8 (q1 + 1))
          lost := l1.lost.set src 1
          counters := l1.counters.set 57 (w32 (l1.counters[57] + 1)) }
    else
      s.withLantern { l with
        seqs := l.seqs.set src (w8 (q + 1))
        lost := l.lost.set src (w16 (l.lost[src] + 1))
        counters := l.counters.set 57 (w32 (l.counters[57] + 1)) }
  else s

/-! ## Mailbox frames (R56, R64) -/

def frameMagic : Nat := 0x5D1C

/-- Header and payload of a frame as bytes. -/
def Frame.body (f : Frame) : List Byte :=
  le 2 frameMagic ++ le 1 f.version ++ [f.flags] ++ le 2 f.payload.length ++ le 2 f.seq ++ le 2 f.opcode
    ++ le 2 f.status ++ le 4 f.handle ++ f.payload

/-- The whole frame as bytes. -/
def Frame.bytes (f : Frame) : List Byte := f.body ++ f.mac ++ le 4 f.crc

def flagAuth : Byte := 0x80
def flagResp : Byte := 0x40
def flagEvent : Byte := 0x20
def flagMore : Byte := 0x10

/-- The MAC of R64: direction byte, flow byte, upper 16 bits of the extended sequence, then the frame to the end of its payload. -/
def macOf (key : List Byte) (direction : Byte) (flow upper : Nat) (f : Frame) : List Byte :=
  cmac key ([direction] ++ le 1 flow ++ le 2 upper ++ f.body)

def macInbound : Byte := 0x49
def macOutbound : Byte := 0x4F

/-- An outbound frame of the port's session: with AUTH and a MAC when the session is keyed, and the trailer's check. -/
def outFrame (session : Option Session) (flow upper : Nat) (flags : Byte) (seq opcode status handle : Nat)
    (payload : List Byte) : Frame :=
  let keyed := match session with
    | some ss => ss.keyed
    | none => false
  let key := match session with
    | some ss => ss.key
    | none => []
  let f : Frame := ⟨1, if keyed then flags ||| flagAuth else flags, seq, opcode, status, handle, payload, [], 0, 0⟩
  let g : Frame := if keyed then { f with mac := macOf key macOutbound flow upper f } else f
  { g with crc := crc32c (g.body ++ g.mac) }

/-- Payload bytes a frame of the port's session may carry (R56). -/
def segmentLimit (session : Option Session) : Nat :=
  match session with
  | some ss => if ss.keyed then 460 else 476
  | none => 476

/-- A payload as consecutive segments of at most `n` bytes (R57). -/
def segmentsOf (n : Nat) (payload : List Byte) : List (List Byte) :=
  (List.range (max 1 ((payload.length + n - 1) / n))).map (fun i => slice payload (i * n) n)

/-- The frames of one payload: every segment but the last carries MORE (R57). -/
def outFrames (session : Option Session) (flow upper : Nat) (flags : Byte) (seq opcode status handle : Nat)
    (payload : List Byte) : List Frame :=
  let segs := segmentsOf (segmentLimit session) payload
  (segs.dropLast.map (fun x => outFrame session flow upper (flags ||| flagMore) seq opcode status handle x)) ++
    [outFrame session flow upper flags seq opcode status handle (segs.getLast?.getD [])]

/-- Slots of the outbound ring neither used nor held for a completion (R61). -/
def Mailbox.outFree (m : Mailbox) : Nat := 16 - (m.outRing.length + m.owed)

/-- Lantern's record of an enclave operation: 1 a signature, 2 CMAC, 3 CCM, 4 a key command, 5 a re-anchoring (R566). -/
def traceEnclave (op slot result : Nat) (s : State) : State := trace 7 0x0C (le 1 op ++ le 1 slot ++ le 1 result ++ [0]) s

/-- A mailbox frame's header, for Lantern: direction 0 in, 1 out. -/
def traceFrame (b : Box) (direction : Nat) (f : Frame) (s : State) : State :=
  trace 10 0x08 (le 1 b.val ++ le 1 direction ++ f.body.take 16) s

/-- A frame put at the end of the outbound ring. -/
def pushOut (b : Box) (f : Frame) (s : State) : State :=
  traceFrame b 1 f (s.modHost b (fun m => { m with outRing := m.outRing ++ [f] }))

/-- The frames of one payload put at the end of the ring in order. -/
def pushAll (b : Box) (fs : List Frame) (s : State) : State := fs.foldl (fun s f => pushOut b f s) s

/-! ## Events (R61, R71, R92) -/

/-- An event: its code, the outlet port it concerns (none: the hub, R570) and its payload. -/
structure Event where
  code : Nat
  port : Option Port
  payload : List Byte
  deriving DecidableEq, Repr

/-- EVENT_FILTER match (R92). -/
def FilterBody.selects (f : FilterBody) (e : Event) : Bool :=
  decide (f.codeLow ≤ e.code ∧ e.code ≤ f.codeHigh) &&
    match e.port with
    | some p => bit f.scope p.val
    | none => bit f.scope 24

def Channel.filter? (c : Channel) : Option FilterBody :=
  match c.body with
  | .filter f => some f
  | _ => none

def Channel.program? (c : Channel) : Option (ProgramState × List Byte) :=
  match c.body with
  | .program st bytes => some (st, bytes)
  | _ => none

/-- The event is selected for a host: system events always, others by any of its filters (R92). -/
def State.selects (s : State) (b : Box) (e : Event) : Bool :=
  decide (0x8001 ≤ e.code ∧ e.code ≤ 0x801F) ||
    s.rotunda.channels.any (fun c => c.owner == some b &&
      match c.filter? with
      | some f => f.selects e
      | none => false)

/-- The events' extended sequence has reached 0xFFFF_FFFF: the session is at its end and takes no event more (R66). -/
def Session.spent (ss : Session) : Bool := decide (0xFFFFFFFF ≤ ss.seqOut)

/-- The EVENT_GAP event is queued when events were lost and a slot is free (R61). -/
def queueGap (b : Box) (s : State) : State :=
  let m := s.box b
  match m.lost, m.session with
  | some g, some ss =>
    if m.outFree = 0 ∨ ss.spent = true then s
    else
      let f := outFrame (some ss) 2 (ss.seqOut / 65536) flagEvent (w16 ss.seqOut) 0x8001 0 0
        (le 4 g.count ++ le 4 g.first ++ le 4 g.last)
      count 30 1 (pushOut b f (s.setBox b { m with
        lost := none
        session := some { ss with seqOut := w32 (ss.seqOut + 1), lastEvent := ss.seqOut } }))
  | _, _ => s

/-- One event queued on one attached port, or noted as not queued; either way it takes its extended event sequence (R61, R65). -/
def queueEvent (b : Box) (e : Event) (s0 : State) : State :=
  let s := queueGap b s0
  let m := s.box b
  match m.session with
  | none => s
  | some ss =>
    if ss.spent then s else
    let next : Session := { ss with seqOut := w32 (ss.seqOut + 1) }
    let fs := outFrames (some ss) 2 (ss.seqOut / 65536) flagEvent (w16 ss.seqOut) e.code 0 0 e.payload
    if m.lost = none ∧ fs.length ≤ m.outFree then
      pushAll b fs (s.setBox b { m with session := some { next with lastEvent := ss.seqOut } })
    else
      let g : LostEvents := match m.lost with
        | none => ⟨1, ss.seqOut, ss.seqOut⟩
        | some g => ⟨g.count + 1, g.first, ss.seqOut⟩
      s.modHost b (fun m => { m with session := some next, lost := some g, eventsLost := w32 (m.eventsLost + 1) })

/-- The host of a port is attached. -/
def State.attached (s : State) (b : Box) : Bool := (s.box b).session.isSome

/-- An event raised to every attached host whose filters select it, and to a named owner whatever its filters (R71, R86). -/
def raiseAlso (owner : Option Box) (e : Event) (s : State) : State :=
  hostBoxes.foldl (fun s b =>
    if s.attached b && (s.selects b e || owner == some b) then queueEvent b e s else s) s

/-- An event raised to every attached host whose filters select it (R71). -/
def raise (code : Nat) (port : Option Port) (payload : List Byte) (s : State) : State :=
  raiseAlso none ⟨code, port, payload⟩ s

/-- An event for one port's host only. -/
def raiseTo (b : Box) (e : Event) (s : State) : State := if s.attached b then queueEvent b e s else s

/-- An event for every attached host but one (R100). -/
def raiseOthers (b : Box) (e : Event) (s : State) : State :=
  hostBoxes.foldl (fun s c => if c ≠ b && s.attached c && s.selects c e then queueEvent c e s else s) s

/-! ## Status codes (R102) and replies (R72) -/

def stOk : Nat := 0x0000
def stAccepted : Nat := 0x0001
def stFrameVersion : Nat := 0x0101
def stFrameReserved : Nat := 0x0102
def stFrameAuthMode : Nat := 0x0103
def stFrameMac : Nat := 0x0104
def stFrameReplay : Nat := 0x0105
def stFrameSegment : Nat := 0x0106
def stUnknownOpcode : Nat := 0x0107
def stPayloadLength : Nat := 0x0108
def stNotAttached : Nat := 0x0201
def stRoleDenied : Nat := 0x0202
def stAttachFailed : Nat := 0x0203
def stSupervisorTaken : Nat := 0x0204
def stSessionExpired : Nat := 0x0205
def stNotOwner : Nat := 0x0206
def stRankDenied : Nat := 0x0207
def stStaleHandle : Nat := 0x0301
def stHandleType : Nat := 0x0302
def stHandleRequired : Nat := 0x0303
def stNoSlot : Nat := 0x0304
def stPermanentChannel : Nat := 0x0305
def stManagedType : Nat := 0x0306
def stBusy : Nat := 0x0401
def stRefusedState : Nat := 0x0402
def stChannelBusy : Nat := 0x0403
def stAborted : Nat := 0x0404
def stControlSilent : Nat := 0x0405
def stIslandRestarting : Nat := 0x0406
def stPortAmbiguous : Nat := 0x0407
def stTagAbsent : Nat := 0x0408
def stWriteUncertain : Nat := 0x0409
def stParamRange : Nat := 0x0501
def stCfgConflict : Nat := 0x0502
def stCfgNoStage : Nat := 0x0503
def stCfgStageOpen : Nat := 0x0504
def stCfgStageFull : Nat := 0x0505
def stCfgFieldUnknown : Nat := 0x0506
def stSealed : Nat := 0x0601
def stCalenLow : Nat := 0x0602
def stTimeStepDenied : Nat := 0x0603
def stLockedOut : Nat := 0x0701
def stFaultPresent : Nat := 0x0702
def stLocalConfirmMissing : Nat := 0x0703
def stSafetyUnconfirmed : Nat := 0x0704
def stCheckValueMismatch : Nat := 0x0705
def stZeroized : Nat := 0x0801
def stKeySlotEmpty : Nat := 0x0802
def stKeyNotStaged : Nat := 0x0803
def stKeyVerifyFailed : Nat := 0x0804
def stKeyUseDenied : Nat := 0x0805
def stTagAuthFailed : Nat := 0x0806
def stTagLocked : Nat := 0x0807
def stMemUncorrectable : Nat := 0x0901
def stNoSparePage : Nat := 0x0902
def stPageAlreadyRetired : Nat := 0x0903
def stServiceOnly : Nat := 0x0A01
def stOwnerLocked : Nat := 0x0A02
def stNoTrial : Nat := 0x0A03
def stSwitchClosed : Nat := 0x0A04
def stVbakLow : Nat := 0x0A05
def stHoldUp : Nat := 0x0A06
def stManifestInvalid : Nat := 0x0A07
def stDigestMismatch : Nat := 0x0A08
def stRollback : Nat := 0x0A09

/-- A request taken for execution: its mailbox, its tag, header fields, whole payload, the session and role it came in, and the
sequence last executed before it. -/
structure Req where
  box : Box
  opcode : Nat
  seq : Nat
  handle : Nat
  payload : List Byte
  epoch : Nat
  role : Nat
  before : Nat
  deriving DecidableEq, Repr

/-- The same request as it is kept while its completion waits. -/
def Req.wait (r : Req) (argument : Nat := 0) (extra : List Byte := []) : Waiting :=
  ⟨r.box, r.opcode, r.seq, r.handle, r.epoch, argument, extra⟩

/-- A request's tag: its extended sequence, whose low half is the header sequence (R65), below its place in the order of arrival, so
that no two requests share a tag. -/
def tagOf (ext stamp : Nat) : Nat := w32 ext + stamp * 4294967296

/-- The frames that answer the request with this tag, under its own extended sequence (R64). -/
def answerFrames (session : Option Session) (tag opcode status handle : Nat) (payload : List Byte) : List Frame :=
  outFrames session 1 (tag / 65536 % 65536) flagResp (w16 tag) opcode status handle payload

/-- A response or completion frame queued, kept as the last frame queued for its request (R59). -/
def reply (b : Box) (tag opcode status handle : Nat) (payload : List Byte) (s : State) : State :=
  let m := s.box b
  let fs := answerFrames m.session tag opcode status handle payload
  let last := m.lastRequest.map (fun l => if l.tag = tag then { l with queued := fs.getLast? } else l)
  pushAll b fs (s.setBox b { m with lastRequest := last })

/-- The answer to a frame that is not executed: no repeat gets it (R58, R59). -/
def turnAway (b : Box) (tag opcode status handle : Nat) (s : State) : State :=
  pushAll b (answerFrames (s.box b).session tag opcode status handle []) s

/-- Lantern's record of a command result (R566). -/
def traceResult (b : Box) (opcode status handle : Nat) (s : State) : State :=
  trace 5 0x09 (le 1 b.val ++ [0] ++ le 2 opcode ++ le 2 status ++ le 4 handle) s

/-- The response to a request. -/
def respond (r : Req) (status : Nat) (payload : List Byte) (s : State) : State :=
  traceResult r.box r.opcode status r.handle (reply r.box r.seq r.opcode status r.handle payload s)

/-- A refusal: the status alone (R101). -/
def refuse (r : Req) (status : Nat) (s : State) : State := respond r status [] s

/-- `ACCEPTED`: the completion follows, and a slot is held for it (R61, R72). -/
def accept (r : Req) (s : State) : State :=
  (respond r stAccepted [] s).modBox r.box (fun m => { m with owed := m.owed + 1 })

/-- The session a request came in is still the port's. -/
def State.alive (s : State) (b : Box) (epoch : Nat) : Bool := (s.box b).epoch == epoch

/-- The completion of an accepted request, in its own session only (R66, R72). -/
def finish (w : Waiting) (status : Nat) (payload : List Byte) (s : State) : State :=
  if s.alive w.box w.epoch then
    traceResult w.box w.opcode status w.handle
      (reply w.box w.seq (0x8000 + w.opcode) status w.handle payload
        (s.modBox w.box (fun m => { m with owed := m.owed - 1 })))
  else s

/-- `ACCEPTED`, then at once the completion. -/
def acceptDone (r : Req) (status : Nat) (payload : List Byte) (s : State) : State :=
  finish r.wait status payload (accept r s)

/-! ## Time -/

/-- Civil time now, 48 bits (R7). -/
def State.time (s : State) : Nat := w48 s.civil

/-- A deadline of the model's clock has come. -/
def State.due (s : State) (t : Nat) : Bool := decide (t ≤ s.now)

/-! ## The error log (R473) and the event log -/

def State.setRegion (s : State) (i : Fin 8) (f : Region → Region) : State :=
  s.withMemory { s.memory with regions := s.memory.regions.set i (f s.memory.regions[i]) }

/-- An error log entry as bytes. -/
def ErrorEntry.bytes (e : ErrorEntry) : List Byte :=
  le 4 e.index ++ le 6 e.time ++ le 1 e.region ++ le 1 e.kind ++ le 4 e.offset ++ le 2 e.page ++ le 1 e.requester
    ++ le 1 e.count ++ le 1 e.spare ++ zeros 11

/-- Spare index a retired page uses. -/
def Region.spareOf (r : Region) (page : Nat) : Nat :=
  match r.retired.find? (fun x => x.1 == page) with
  | some x => x.2
  | none => 0

/-- Event of an entry, if it has one (R476): an overflow, an uncorrectable line that filled its bucket, a repeating line, a retirement. -/
def memoryEvent (kind : Nat) (counted : Bool) : Option Nat :=
  if kind = 8 ∨ (kind = 4 ∧ counted = true) then some 0x80E8
  else if kind = 7 then some 0x80E9
  else if kind = 9 then some 0x80EA
  else none

/-- The entries of 32 bytes that the archive's 15 MiB hold (R42). -/
def archivePlaces : Nat := 491520

/-- The archive of NOR with more entries: it holds the newest (R42). DESIGN CHOICE (log 159): no rule says what
enters the archive, or when. unsafe. -/
def Memory.archived (m : Memory) (es : List ArchiveEntry) : Memory :=
  { m with archive := (m.archive ++ es).drop (m.archive.length + es.length - archivePlaces) }

/-- The ring of 256 entries with a new one; the entry that leaves it goes to the archive (R42, R473). -/
def Memory.logged (m : Memory) (e : ErrorEntry) : Memory :=
  let gone := m.log.length + 1 - 256
  { m.archived ((m.log.take gone).map .error) with log := (m.log ++ [e]).drop gone, nextIndex := w32 (m.nextIndex + 1) }

/-- Entries that the archive takes. -/
def toArchive (es : List ArchiveEntry) (s : State) : State := s.withMemory (s.memory.archived es)

/-- An entry of the event log, with its time; what leaves its 256 places goes to the archive (R41, R42). -/
def logEvent (e : LoggedEvent) (s : State) : State :=
  let l := s.power.eventLog ++ [(s.time, e)]
  let gone := l.length - 256
  toArchive ((l.take gone).map (fun x => .event x.1 x.2)) (s.withPower { s.power with eventLog := l.drop gone })

/-- An entry written to the error log, with its event (R473, R476). -/
def logError (i : Fin 8) (kind offset requester cnt time : Nat) (counted : Bool) (s : State) : State :=
  let page := if kind = 8 ∨ kind = 10 then 0 else offset / 4096
  let e : ErrorEntry := ⟨s.memory.nextIndex, time, i.val, kind, if kind = 8 ∨ kind = 10 then 0 else offset, page, requester,
    sat 255 cnt, if kind = 9 then s.memory.regions[i].spareOf page else 0⟩
  let s1 := s.withMemory (s.memory.logged e)
  match memoryEvent kind counted with
  | some code => raise code none e.bytes s1
  | none => s1

/-- Whole-line writes over the lines of a channel table slot clear their poison, each logged (R80, R469). -/
def clearPoison (slot : Nat) (s : State) : State :=
  let mine (l : Nat) : Bool := l / 16 == slot
  let ls := s.memory.regions[1].poisoned.filter mine
  ls.foldl (fun s l => logError 1 6 (l * 32) 5 0 (w48 s.civil) false s)
    (s.setRegion 1 (fun r => { r with poisoned := r.poisoned.filter (fun l => !mine l) }))

/-! ## Channel table (R75 to R86) -/

def typePort : Nat := 0x01
def typeSite : Nat := 0x02
def typeHost : Nat := 0x03
def typeSafetyLink : Nat := 0x04
def typeSession : Nat := 0x10
def typeStream : Nat := 0x11
def typeNeighbour : Nat := 0x12
def typeTxn : Nat := 0x13
def typeProgram : Nat := 0x14
def typeFilter : Nat := 0x15

/-- Type code of a dynamic channel (R77). -/
def Body.typeCode : Body → Nat
  | .session _ => 0x10
  | .stream _ => 0x11
  | .neighbour _ => 0x12
  | .txn _ => 0x13
  | .program _ _ => 0x14
  | .filter _ => 0x15

/-- Types kept through restarts (R79). -/
def Body.persistent : Body → Bool
  | .session _ => true
  | .neighbour _ => true
  | .program _ _ => true
  | .stream _ => false
  | .txn _ => false
  | .filter _ => false

/-- Handle fields (R76). -/
def handleOf (type generation slot : Nat) : Nat := type * 16777216 + generation * 256 + slot
def handleType (h : Nat) : Nat := h / 16777216
def handleGeneration (h : Nat) : Nat := h / 256 % 65536
def handleSlot (h : Nat) : Nat := h % 256

def Channel.handle (c : Channel) : Nat := handleOf c.body.typeCode c.generation c.slot

def State.channelAt (s : State) (slot : Nat) : Option Channel :=
  s.rotunda.channels.find? (fun c => c.slot == slot)

def State.channelOf (s : State) (handle : Nat) : Option Channel :=
  s.rotunda.channels.find? (fun c => c.handle == handle)

/-- A change of body that the channel's MRAM mirror takes: any of a persistent channel, but of a session only a change of its state or of
the energy value that belongs to one (R87, R89, R137). DEDUCED (log 150). unsafe. -/
def mirrored (old new_ : Body) : Bool :=
  match old, new_ with
  | .session x, .session y => x.state != y.state || x.startEai != y.startEai || x.endEai != y.endEai
  | _, _ => new_.persistent

/-- The older copy written, with the next sequence number, which makes it current (R87). -/
def MirrorRecord.write (m : MirrorRecord) (c : Channel) : MirrorRecord :=
  { m with seq := m.seq + 1, current := c, older := some m.current }

/-- A channel's mirror written; a new one where the slot has none. -/
def writeMirror (c : Channel) (l : List MirrorRecord) : List MirrorRecord :=
  if l.any (fun m => m.slot == c.slot) then l.map (fun m => if m.slot = c.slot then m.write c else m)
  else l ++ [⟨c.slot, 1, c, none⟩]

/-- The mirrors after a change; in hold-up Rotunda starts no write of MRAM (R509), and they follow when it ends. -/
def State.mirrorsAfter (s : State) (f : List MirrorRecord → List MirrorRecord) : List MirrorRecord :=
  if s.power.holdUp then s.rotunda.mirrors else f s.rotunda.mirrors

/-- The mirror follows a channel whose body changed from `old`. -/
def persist (old : Body) (c : Channel) (s : State) : State :=
  if mirrored old c.body then s.withRotunda { s.rotunda with mirrors := s.mirrorsAfter (writeMirror c) } else s

/-- The settings, written to their older copy, which the sequence number then makes current (R87, R97 step 4). -/
def Rotunda.writeSettings (r : Rotunda) (cfg : List Setting) : Rotunda :=
  { r with committed := cfg, settingsOlder := some r.committed, settingsSeq := r.settingsSeq + 1 }

/-- The twinned slot table, written to its older copy (R82, R87). -/
def Rotunda.writeTable (r : Rotunda) (x : SlotTable) : Rotunda :=
  { r with
    generations := x.generations, lastSlot := x.lastSlot, tableOlder := some ⟨r.generations, r.lastSlot⟩, tableSeq := r.tableSeq + 1 }

/-- The table with its channels replaced. -/
def State.setChannels (s : State) (cs : List Channel) : State := s.withRotunda { s.rotunda with channels := cs }

/-- A channel's body changed: its header's modified time and change count move (R75). -/
def Channel.touch (c : Channel) (civil : Nat) (body : Body) : Channel :=
  { c with body := body, modified := w48 civil, changes := w32 (c.changes + 1) }

/-- The body of the channel in a slot changed. -/
def setBody (slot : Nat) (body : Body) (s : State) : State :=
  let s1 := s.setChannels (s.rotunda.channels.map (fun c => if c.slot = slot then c.touch s.civil body else c))
  match s.channelAt slot with
  | some c => persist c.body (c.touch s.civil body) s1
  | none => s1

/-- Body changes of a channel counted beside those its body's writing counts (R75). -/
def addChanges (slot n : Nat) (s : State) : State :=
  s.setChannels (s.rotunda.channels.map (fun c => if c.slot = slot then { c with changes := w32 (c.changes + n) } else c))

/-- Type limits (R79); for event filters the limit is per host port. -/
def typeLimit (type : Nat) : Nat :=
  if type = typeSession then 24 else if type = typeStream then 32 else if type = typeNeighbour then 96
  else if type = typeTxn then 2 else if type = typeProgram then 4 else 16

/-- Channels of a type; event filters of one port only. -/
def State.typeCount (s : State) (type : Nat) (owner : Option Box) : Nat :=
  s.rotunda.channels.countP (fun c => c.body.typeCode == type && (type != typeFilter || c.owner == owner))

/-- The slot that follows in the cyclic search (R80). -/
def nextSlot (slot : Nat) : Nat := if slot < 0x1F ∨ 0xFF ≤ slot then 0x1F else slot + 1

/-- The first free slot after `slot`, looking at `n` slots. -/
def freeSlot (used : List Nat) : Nat → Nat → Option Nat
  | 0, _ => none
  | n + 1, slot => if used.contains (nextSlot slot) then freeSlot used n (nextSlot slot) else some (nextSlot slot)

def State.freeSlot? (s : State) : Option Nat :=
  freeSlot (s.rotunda.channels.map (·.slot)) 225 s.rotunda.lastSlot

/-- The port an event about a channel concerns (R570). -/
def Body.eventPort : Body → Option Port
  | .session b => some b.port
  | .stream _ => none
  | .neighbour _ => none
  | .txn _ => none
  | .program _ _ => none
  | .filter _ => none

def ownerCode (o : Option Box) : Nat :=
  match o with
  | some b => b.val
  | none => 0xFF

/-- The event of a channel's creation, destruction or loss (R86, R88). -/
def channelEvent (code reason : Nat) (c : Channel) : Event :=
  ⟨code, c.body.eventPort, le 4 c.handle ++ le 1 c.body.typeCode ++ le 1 (ownerCode c.owner) ++ le 1 reason ++ [0]⟩

def State.generation (s : State) (slot : Nat) : Nat := s.rotunda.generations.toList.getD slot 1

/-- The mirrors without a slot's, and with that of a persistent channel in it. -/
def newMirror (c : Channel) (l : List MirrorRecord) : List MirrorRecord :=
  l.filter (fun m => m.slot != c.slot) ++ (if c.body.persistent then [⟨c.slot, 1, c, none⟩] else [])

/-- A channel put in its slot, which is then the slot allocated last (R80, R82). -/
def State.addChannel (s : State) (c : Channel) : State :=
  s.withRotunda ({ s.rotunda with
    channels := s.rotunda.channels ++ [c], mirrors := s.mirrorsAfter (newMirror c) }.writeTable ⟨s.rotunda.generations, c.slot⟩)

/-- A channel created in the next free slot, with its event; none when the type is full or no slot is free (R79 to R81, R86). -/
def createChannel (body : Body) (owner : Option Box) (ownerRole : Nat) (s : State) : Option (Nat × State) :=
  if typeLimit body.typeCode ≤ s.typeCount body.typeCode owner then none
  else
    match s.freeSlot? with
    | none => none
    | some slot =>
      let c : Channel := ⟨slot, s.generation slot, owner, ownerRole, w48 s.civil, w48 s.civil, 0, body⟩
      some (c.handle, raiseAlso owner (channelEvent 0x8020 0 c) (clearPoison slot (s.addChannel c)))

/-- The channel is that of a session whose SESSION_ENDED waits for its end value (R147). -/
def Channel.endPending (c : Channel) : Bool :=
  match c.body with
  | .session b => b.endPending
  | .stream _ => false
  | .neighbour _ => false
  | .txn _ => false
  | .program _ _ => false
  | .filter _ => false

/-- A channel taken out of the table: its slot's generation moves (R82) and its event is raised (R86); a session's event still due waits
on. DEDUCED (log 155). unsafe. -/
def destroyChannel (c : Channel) (code reason : Nat) (s : State) : State :=
  let g := s.generation c.slot
  let gens := if h : c.slot < 256 then s.rotunda.generations.set c.slot (if g = 0xFFFF then 1 else g + 1)
    else s.rotunda.generations
  raiseAlso c.owner (channelEvent code reason c)
    (s.withRotunda ({ s.rotunda with
      channels := s.rotunda.channels.filter (fun d => d.slot ≠ c.slot)
      mirrors := s.mirrorsAfter (fun ms => ms.filter (fun m => m.slot ≠ c.slot))
      ending := s.rotunda.ending ++ (if c.endPending then [c] else []) }.writeTable ⟨gens, s.rotunda.lastSlot⟩))

/-- Several channels destroyed in the table's order. -/
def destroyAll (cs : List Channel) (reason : Nat) (s : State) : State :=
  cs.foldl (fun s c => destroyChannel c 0x8021 reason s) s

/-! ## The end of a host session (R66) -/

/-- Channels that end with their owner's session (R79). -/
def endsWithSession (b : Box) (c : Channel) : Bool :=
  c.owner == some b && (c.body.typeCode == typeStream || c.body.typeCode == typeFilter)

/-- The hold of SUPERVISOR ends: ranks fall to none (R70) and every attached host hears of it (R67). -/
def releaseSupervisor (b : Box) (s : State) : State :=
  match s.rotunda.supervisor with
  | .held p =>
    if p.val = b.val then
      raise 0x8002 none (le 1 p.val ++ le 1 0xFF ++ [0, 0] ++ le 6 s.civil)
        (s.withRotunda { s.rotunda with
          supervisor := .free, ranks := s.rotunda.ranks.filter (fun r => r.role ≠ 3) })
    else s
  | _ => s

/-- A session ends: its stage, its streams and filters and its waiting completions go with it (R66, R79, R96). -/
def endSession (b : Box) (s : State) : State :=
  match (s.box b).session with
  | none => s
  | some _ =>
    let m := s.box b
    let s1 := s.setBox b (({ m with
      session := none, epoch := m.epoch + 1, owed := 0, lost := none, stage := none, segments := none
      } : Mailbox).touch s.civil)
    releaseSupervisor b (destroyAll (s1.rotunda.channels.filter (endsWithSession b)) 1 s1)

/-- The sessions whose events have used up their extended sequences end (R66). DESIGN CHOICE (log 156). unsafe. -/
def endSpent (s : State) : State :=
  hostBoxes.foldl (fun s b => if (s.box b).session.any Session.spent then endSession b s else s) s

end Sys2Proof.Machine
end

