-- ==== Sys2Proof/Machine/Operands.lean ====
section
/-! DEFINITION. The operand forms that arrive as bytes: mailbox frames (R56, checks 1 to 3 of R58), UART units and their escapes
(R52, R53), and numbers within bounds. -/

namespace Sys2Proof.Machine

/-- Length of a frame as its header gives it: header, payload, MAC if flagged, trailer (R49). -/
def frameLength (bs : List Byte) : Nat :=
  16 + field bs 4 2 + (if byteAt bs 3 &&& flagAuth = 0 then 0 else 16) + 4

/-- Most payload bytes a frame may carry (R56). -/
def payloadLimit (auth : Bool) : Nat := if auth then 460 else 476

/-- A received frame after checks 1 to 3: magic, length, and the trailer's CRC (R58). -/
def parseFrame (stamp : Nat) (bs : List Byte) : Option Frame :=
  let auth := byteAt bs 3 &&& flagAuth != 0
  let len := field bs 4 2
  if bs.length < 20 ∨ field bs 0 2 ≠ frameMagic then none
  else if bs.length ≠ frameLength bs ∨ payloadLimit auth < len then none
  else if crc32c (bs.take (bs.length - 4)) ≠ field bs (bs.length - 4) 4 then none
  else some ⟨field bs 2 1, byteAt bs 3, field bs 6 2, field bs 8 2, field bs 10 2, field bs 12 4, slice bs 16 len,
    if auth then slice bs (16 + len) 16 else [], field bs (bs.length - 4) 4, stamp⟩

/-- A unit's content on the line: 0x7E and 0x7D escaped (R52). -/
def escapeUnit : List Byte → List Byte
  | [] => []
  | b :: bs => (if b = 0x7E ∨ b = 0x7D then [0x7D, b ^^^ 0x20] else [b]) ++ escapeUnit bs

/-- A unit between its flags. -/
def unitOnLine (bs : List Byte) : List Byte := [0x7E] ++ escapeUnit bs ++ [0x7E]

/-- The content of a received unit with its escapes undone (R52). -/
def unescapeUnit : List Byte → List Byte
  | [] => []
  | [b] => [b]
  | b :: c :: bs => if b = 0x7D then (c ^^^ 0x20) :: unescapeUnit bs else b :: unescapeUnit (c :: bs)

/-- A number lies within inclusive bounds. -/
def within (lo hi v : Nat) : Bool := decide (lo ≤ v ∧ v ≤ hi)
def withinInt (lo hi v : Int) : Bool := decide (lo ≤ v ∧ v ≤ hi)

/-- A port number of a payload. -/
def portOf (n : Nat) : Option Port := if h : n < 24 then some ⟨n, h⟩ else none

/-- The port a PORT handle names (R78). -/
def portOfHandle (h : Nat) : Option Port := if 0x01000100 ≤ h then portOf (h - 0x01000100) else none

def portHandle (p : Port) : Nat := 0x01000100 + p.val
def siteHandle : Nat := 0x02000118
def hostHandle (p : Fin 4) : Nat := 0x03000119 + p.val
def linkHandle (i : Fin 2) : Nat := 0x0400011D + i.val

/-- Slots 0x00 to 0x1E hold the permanent channels, each with one fixed handle (R78). -/
def permanentHandle (slot : Nat) : Option Nat :=
  if slot < 0x18 then some (0x01000100 + slot)
  else if slot = 0x18 then some siteHandle
  else if slot < 0x1D then some (0x03000100 + slot)
  else if slot < 0x1F then some (0x04000100 + slot)
  else none

def isPermanent (h : Nat) : Bool := permanentHandle (handleSlot h) == some h

/-- The handle names a current channel, permanent or dynamic (R83 check 2). -/
def State.current (s : State) (h : Nat) : Bool := isPermanent h || (s.channelOf h).isSome

end Sys2Proof.Machine
end

