-- ==== Sys2Proof/Machine/Service.lean ====
section
/-! DEFINITION. Taking requests from the inbound rings: the frame checks 4 to 10 of R58, repeats (R59), segments (R57), the order
between ports (R68), the slots that must be reservable (R61), and the one operation every opcode's row calls. -/

namespace Sys2Proof.Machine

/-! ## The opcode index (R103) -/

/-- Classes of the opcode index: attach opcodes and simple queries are answered directly, the others after `ACCEPTED`. -/
inductive OpClass where
  | attach | simple | query | command
  deriving DecidableEq, Repr

def simpleOps : List Nat :=
  [0x0104, 0x0110, 0x0111, 0x0116, 0x0117, 0x0203, 0x0205, 0x0305, 0x0306, 0x0410, 0x0411, 0x0412, 0x0430] ++
  [0x0501, 0x0502, 0x0504, 0x0507, 0x0508, 0x0509, 0x050C, 0x0601, 0x0602, 0x0605, 0x0606, 0x0701, 0x0704] ++
  [0x0801, 0x0802, 0x0804, 0x0807, 0x0901, 0x0A01, 0x0A06, 0x0A07, 0x0A14]

def commandOps : List Nat :=
  [0x0112, 0x0113, 0x0114, 0x0115, 0x0118, 0x0201, 0x0202, 0x0204, 0x0301, 0x0302, 0x0303, 0x0304, 0x0310] ++
  [0x0401, 0x0402, 0x0403, 0x0404, 0x0405, 0x0505, 0x0506, 0x050A, 0x050B, 0x0603, 0x0604, 0x0607, 0x0702] ++
  [0x0703, 0x0705, 0x0706, 0x0707, 0x0803, 0x0805, 0x0806, 0x0902, 0x0903, 0x0904, 0x0905] ++
  [0x0A02, 0x0A03, 0x0A04, 0x0A05, 0x0A10, 0x0A11, 0x0A12, 0x0A13]

/-- The class of an opcode; none where the index does not hold it. -/
def opClass (op : Nat) : Option OpClass :=
  if op = 0x0101 ∨ op = 0x0102 ∨ op = 0x0103 then some .attach
  else if simpleOps.contains op then some .simple
  else if op = 0x0503 then some .query
  else if commandOps.contains op then some .command
  else none

/-- Opcodes accepted only on the service port (R103). -/
def isServiceOp (op : Nat) : Bool := decide (0x0A10 ≤ op ∧ op ≤ 0x0A14)

/-- Outbound slots a request of the class needs: its response, and a completion where one follows (R61). -/
def OpClass.slots : OpClass → Nat
  | .attach => 1
  | .simple => 1
  | .query => 2
  | .command => 2

/-- Slots an opcode needs: a full CHANNEL_LIST takes two frames (R57, R91). -/
def slotsOf (op : Nat) : Nat :=
  match opClass op with
  | some c => if op = 0x0205 then 2 else c.slots
  | none => 1

def isQuery (op : Nat) : Bool :=
  match opClass op with
  | some .simple => true
  | some .query => true
  | _ => false

def roleObserver : Nat := 0
def roleEnergy : Nat := 1
def roleBilling : Nat := 2
def roleSupervisor : Nat := 3

/-- Table: role permissions (R69), with the restrictions that name opcodes: of the billing group SUPERVISOR alone has CAL_WRITE and
CAL_SEAL (R178, R357), and signed reads are for SUPERVISOR and BILLING (R357). -/
def rolePermits (role op : Nat) : Bool :=
  let group := op / 256
  let q := isQuery op
  if role = roleSupervisor then true
  else if group = 0x01 then q || decide (op ≤ 0x0104)
  else if group = 0x02 then q || op == 0x0201 || op == 0x0202 || op == 0x0204
  else if group = 0x03 then decide (role = roleEnergy ∨ role = roleBilling)
  else if group = 0x04 then q || (decide (role = roleBilling) && (op == 0x0404 || op == 0x0405))
  else if group = 0x05 then
    if role = roleBilling then op != 0x050A && op != 0x050B else q && op != 0x0503
  else if group = 0x06 then q || (decide (role = roleEnergy) && op == 0x0603)
  else if group = 0x07 then if role = roleBilling then op != 0x0707 else decide (role = roleObserver) && q
  else if group = 0x08 then q
  else if group = 0x0A then decide (role = roleObserver) && q
  else false

/-- Opcodes a service lane admits (R481), and in recovery (R495). -/
def servicePermits (recovery : Bool) (op : Nat) : Bool :=
  if recovery then op == 0x0A01 || decide (0x0A10 ≤ op ∧ op ≤ 0x0A13)
  else op == 0x0110 || op == 0x0116 || op == 0x0117 || op == 0x0A01 || op == 0x0A02 || isServiceOp op

/-- Reserved fields of request payloads, as offset and size (R11). -/
def reservedFields (op : Nat) : List (Nat × Nat) :=
  match op with
  | 0x0101 => [(2, 2)]
  | 0x0112 => [(7, 1)]
  | 0x0113 => [(1, 3)]
  | 0x0114 => [(1, 3)]
  | 0x0115 => [(2, 2)]
  | 0x0117 => [(1, 3)]
  | 0x0118 => [(2, 2)]
  | 0x0201 => [(1, 3)]
  | 0x0205 => [(2, 2)]
  | 0x0302 => [(1, 3)]
  | 0x0401 => [(0, 4)]
  | 0x0402 => [(1, 3)]
  | 0x0403 => [(3, 1)]
  | 0x0404 => [(1, 3)]
  | 0x0405 => [(2, 2)]
  | 0x0501 => [(2, 2)]
  | 0x0502 => [(2, 2)]
  | 0x0503 => [(3, 1), (10, 2)]
  | 0x0504 => [(2, 2)]
  | 0x0505 => [(2, 2)]
  | 0x0506 => [(1, 1)]
  | 0x0507 => [(5, 3)]
  | 0x0508 => [(1, 1)]
  | 0x0509 => [(2, 2)]
  | 0x050A => [(2, 2)]
  | 0x0602 => [(2, 2)]
  | 0x0603 => [(5, 3)]
  | 0x0604 => [(3, 1)]
  | 0x0605 => [(2, 2)]
  | 0x0606 => [(3, 1)]
  | 0x0607 => [(2, 2)]
  | 0x0702 => [(15, 1)]
  | 0x0703 => [(14, 2)]
  | 0x0704 => [(3, 1)]
  | 0x0705 => [(2, 2)]
  | 0x0706 => [(6, 2)]
  | 0x0802 => [(5, 3)]
  | 0x0803 => [(2, 2)]
  | 0x0804 => [(1, 3)]
  | 0x0805 => [(3, 1)]
  | 0x0902 => [(2, 2)]
  | 0x0903 => [(1, 3)]
  | 0x0904 => [(1, 3)]
  | 0x0905 => [(1, 3)]
  | 0x0A05 => [(1, 1)]
  | 0x0A06 => [(5, 3)]
  | 0x0A10 => [(41, 3)]
  | 0x0A11 => [(2, 2)]
  | 0x0A13 => [(1, 3)]
  | 0x0A14 => [(2, 2)]
  | _ => []

/-- Reserved bits of request payload bytes, as offset and mask. -/
def reservedBits (op : Nat) : List (Nat × Byte) :=
  match op with
  | 0x0112 => [(6, 0xFE)]
  | 0x0310 => [(3, 0xFE)]
  | 0x0A13 => [(0, 0xFE)]
  | _ => []

/-- Payloads that repeat entries: offset of the first, size, and the reserved fields of each (R11). -/
def reservedEntries (op : Nat) : Option (Nat × Nat × List (Nat × Nat) × List (Nat × Byte)) :=
  match op with
  | 0x050A => some (4, 12, [(1, 1), (10, 2)], [])
  | 0x0703 => some (16, 36, [(1, 1)], [])
  | 0x0705 => some (4, 32, [(13, 1)], [(12, 0x7F)])
  | _ => none

def entriesOk (start size : Nat) (fs : List (Nat × Nat)) (ms : List (Nat × Byte)) (payload : List Byte) : Bool :=
  (List.range ((payload.length - start) / size)).all (fun i =>
    fs.all (fun f => isZero (slice payload (start + i * size + f.1) f.2)) &&
      ms.all (fun f => byteAt payload (start + i * size + f.1) &&& f.2 == 0))

/-- Records packed without padding (R95); none where the bytes do not split into exactly `n`. -/
def parseRecords : Nat → List Byte → Option (List CfgRecord)
  | 0, bs => if bs.isEmpty then some [] else none
  | n + 1, bs =>
    let len := field bs 3 1
    if bs.length < 4 + len then none
    else (parseRecords n (bs.drop (4 + len))).map (⟨field bs 0 2, field bs 2 1, len, field bs 4 len⟩ :: ·)

/-- Reserved parts of a METER_STREAM's body, byte by byte from body offset 32 (R205). -/
def streamByteOk (i : Nat) (b : Byte) : Bool :=
  if i = 3 then b &&& 0xE0 == 0 else if i = 5 ∨ 12 ≤ i then b == 0 else true

/-- Reserved parts of an initial body (R205, R308). -/
def paramsOk (type : Nat) (params : List Byte) : Bool :=
  if type = typeStream then (List.range params.length).all (fun i => streamByteOk i (byteAt params i))
  else if type = typeProgram then isZero (params.drop 352)
  else true

/-- Reserved parts of the writable bytes of the body that CHANNEL_MODIFY names (R205). -/
def modifyOk (handle off : Nat) (data : List Byte) : Bool :=
  handleType handle != typeStream || decide (off < 32) ||
    (List.range data.length).all (fun i => decide (40 ≤ off + i) || streamByteOk (off + i - 32) (byteAt data i))

/-- The reserved byte of a dst_year entry is 0 (R318). -/
def recordReservedOk (c : CfgRecord) : Bool := c.field != 0x0408 || c.length != 6 || c.value / 256 ^ 5 == 0

/-- Reserved parts whose place the payload itself gives. -/
def reservedWithin (op handle : Nat) (payload : List Byte) : Bool :=
  if op = 0x0201 then paramsOk (field payload 0 1) (payload.drop 4)
  else if op = 0x0204 then modifyOk handle (field payload 0 2) (payload.drop 4)
  else if op = 0x0302 then ((parseRecords (field payload 0 1) (payload.drop 4)).getD []).all recordReservedOk
  else true

/-- Every reserved field and bit of a request's payload is 0 (R11). -/
def reservedOk (op handle : Nat) (payload : List Byte) : Bool :=
  (reservedFields op).all (fun f => isZero (slice payload f.1 f.2)) &&
    (reservedBits op).all (fun f => byteAt payload f.1 &&& f.2 == 0) &&
    (match reservedEntries op with
    | some (start, size, fs, ms) => entriesOk start size fs ms payload
    | none => true) && reservedWithin op handle payload

/-! ## Checks 4 to 10 (R58) -/

/-- What becomes of the oldest inbound frame. -/
inductive Verdict where
  | execute (r : Req)
  | answer (status : Nat)
  | again
  | collect
  | expired
  deriving DecidableEq, Repr

def Frame.isAuth (f : Frame) : Bool := f.flags &&& flagAuth != 0
def Frame.isMore (f : Frame) : Bool := f.flags &&& flagMore != 0

/-- Segments collected belong to the same request as the frame (R57). -/
def Segments.matches (g : Segments) (f : Frame) : Bool :=
  g.seq == f.seq && g.opcode == f.opcode && g.handle == f.handle

/-- The payload with the segments collected before it. -/
def wholePayload (m : Mailbox) (f : Frame) : List Byte :=
  match m.segments with
  | some g => if g.matches f then g.payload ++ f.payload else f.payload
  | none => f.payload

/-- Extended sequence a frame takes in a keyed session: the last one's for a repeat, else the header's with the upper half of the next one
(R65). -/
def extendedOf (ss : Session) (seq : Nat) : Nat :=
  if seq = w16 ss.seqIn then ss.seqIn else (ss.seqIn + 1) / 65536 * 65536 + w16 seq

/-- Extended sequence of an unkeyed session: its wraps counted (R65). -/
def extendedUnkeyed (ss : Session) (seq : Nat) : Nat :=
  ss.seqIn - w16 ss.seqIn + seq + (if seq < w16 ss.seqIn then 65536 else 0)

def isAttachOp (op : Nat) : Bool := op == 0x0101 || op == 0x0102

/-- Extended sequence of an inbound frame: an attach opens a new count (R65). -/
def extendedIn (session : Option Session) (f : Frame) : Nat :=
  match session with
  | some ss => if isAttachOp f.opcode then f.seq else if ss.keyed then extendedOf ss f.seq else extendedUnkeyed ss f.seq
  | none => f.seq

/-- Role the mailbox's frames are checked under: the role its option byte sets; 4 stands for a service lane. -/
def State.roleOf (s : State) (b : Box) : Nat :=
  if h : b.val < 4 then s.power.inForce.roles[b.val] else 4

/-- Status with which check 10 refuses an opcode, none where it is permitted (R69, R101, R481). -/
def refusedByRole (s : State) (b : Box) (op : Nat) : Option Nat :=
  if b.val < 4 then
    match opClass op with
    | none => some stUnknownOpcode
    | some _ =>
      if isServiceOp op then some stServiceOnly
      else if rolePermits (s.roleOf b) op then none else some stRoleDenied
  else if (opClass op).isNone then some stUnknownOpcode
  else if servicePermits (s.power.phase == .recovery) op then none else some stRoleDenied

/-- Checks 4 to 10 against the port as it stands now. R58 gives a repeat (R59) no place among them: it is answered after check 8's
place and before checks 9 and 10, so that a repeated HOST_DETACH on an unkeyed port gets its response again. DESIGN CHOICE (log 157).
unsafe. -/
def judge (s : State) (b : Box) (f : Frame) : Verdict :=
  let m := s.box b
  let keyed := match m.session with
    | some ss => ss.keyed && !isAttachOp f.opcode
    | none => false
  let ss : Session := m.session.getD ⟨0, false, [], 0, 0, 0, 0, 0⟩
  let ext := extendedIn m.session f
  if f.version ≠ 1 then .answer stFrameVersion
  else if f.flags &&& 0x6F ≠ 0 ∨ f.status ≠ 0 ∨ reservedOk f.opcode f.handle (wholePayload m f) = false then
    .answer stFrameReserved
  else if f.isAuth ≠ keyed then .answer stFrameAuthMode
  else if keyed && f.mac != macOf ss.key macInbound 0 (ext / 65536) f then .answer stFrameMac
  else if m.lastRequest.any (fun l => w16 l.tag == f.seq && l.crc == f.crc) then .again
  else if keyed && f.seq != w16 (ss.seqIn + 1) && !(f.seq == w16 ss.seqIn && m.segments.any (·.matches f)) then
    .answer stFrameReplay
  else if b.val < 4 && m.session.isNone && f.opcode != 0x0101 && !(f.opcode == 0x0102 && m.attach.isSome) then
    .answer stNotAttached
  else
    match refusedByRole s b f.opcode with
    | some st => .answer st
    | none =>
      if !isAttachOp f.opcode && (decide (0xFFFFFFFF ≤ ext) || ss.spent) then .expired
      else if f.isMore then .collect
      else .execute ⟨b, f.opcode, tagOf ext f.stamp, f.handle, wholePayload m f, m.epoch, s.roleOf b, m.lastExecuted⟩

/-- The frame-error counter moves and sets ERR (R48, R58). -/
def countError (b : Box) (s : State) : State :=
  s.modHost b (fun m => { m with frameErrors := w32 (m.frameErrors + 1), errFlag := true })

/-- The oldest frame leaves the inbound ring. -/
def popIn (b : Box) (s : State) : State :=
  s.modHost b (fun m => { m with inRing := m.inRing.tail, slotFreed := true })

/-- A valid inbound frame keeps the session alive (R66, R74). -/
def markValid (b : Box) (s : State) : State :=
  s.modHost b (fun m => { m with lastRx := s.time, lastRxAt := s.now })

/-- The session's inbound sequence moves to that of a frame that passed check 8 (R65). -/
def useSeq (b : Box) (f : Frame) (s : State) : State :=
  if isAttachOp f.opcode then s
  else s.modBox b (fun m => { m with session := m.session.map (fun ss =>
    { ss with seqIn := extendedIn (some ss) f }) })

/-- The same, for a frame executed: HOST_STATUS shows it (R74). -/
def noteExecuted (b : Box) (f : Frame) (s : State) : State :=
  if isAttachOp f.opcode then s
  else s.modBox b (fun m => { m with session := m.session.map (fun ss => { ss with executed := ss.seqIn }) })

/-- Failures after check 8 have used the request's sequence. -/
def lateFailure (status : Nat) : Bool :=
  status == stNotAttached || status == stRoleDenied || status == stUnknownOpcode || status == stServiceOnly

/-- The incomplete payload is dropped. -/
def dropSegments (b : Box) (s : State) : State := s.modBox b (fun m => { m with segments := none })

/-- A frame of another request between segments: the incomplete payload is dropped and its request answered (R57), under the sequence
used with its first segment. -/
def breakSegments (b : Box) (g : Segments) (s : State) : State :=
  let ext := match (s.box b).session with
    | some ss => if ss.keyed then ss.seqIn else g.seq
    | none => g.seq
  turnAway b ext g.opcode stFrameSegment g.handle (countError b (dropSegments b s))

/-- The frame's segment joins those collected, at most 8 (R57); a request's segments share its sequence, which is used with the
first of them (R65). -/
def collectSegment (b : Box) (f : Frame) (s0 : State) : State :=
  let s := useSeq b f s0
  let g := ((s.box b).segments).getD ⟨f.seq, f.opcode, f.handle, 0, []⟩
  if 8 ≤ g.count + 1 then breakSegments b g s
  else s.modBox b (fun m => { m with segments := some { g with count := g.count + 1, payload := g.payload ++ f.payload } })

/-- One frame that cannot be executed taken off the ring; none when the oldest frame can be, or no slot is free (R61). A frame of
another request ends a segmented one before it is itself checked, whatever its checks would say (DEDUCED, log 158; unsafe), and a frame
refused at check 9 or 10 has proved itself valid, so that it keeps the session alive as one executed does (DESIGN CHOICE, log 25;
unsafe). -/
def settleOne (b : Box) (s : State) : Option State :=
  let m := s.box b
  match m.inRing with
  | [] => none
  | f :: _ =>
    if m.outFree = 0 then none
    else
      match m.segments.filter (fun g => !g.matches f) with
      | some g => some (breakSegments b g s)
      | none =>
      let ext := extendedIn m.session f
      match judge s b f with
      | .answer st =>
        let s1 := countError b (dropSegments b (popIn b s))
        let s2 := if lateFailure st then markValid b (useSeq b f s1) else s1
        some (turnAway b ext f.opcode st f.handle s2)
      | .again =>
        let s1 := markValid b (dropSegments b (popIn b s))
        some (match m.lastRequest.bind (·.queued) with
          | some q => pushOut b q s1
          | none => s1)
      | .expired => some (endSession b (turnAway b ext f.opcode stSessionExpired f.handle (popIn b s)))
      | .collect => some (collectSegment b f (markValid b (popIn b s)))
      | .execute _ => none

/-! ## Order between ports (R68) -/

/-- Segments of another request are held before this frame (R57). -/
def State.otherSegments (s : State) (b : Box) (f : Frame) : Bool := (s.box b).segments.any (fun g => !g.matches f)

/-- The oldest frame of a mailbox can be executed now: it passes its checks and its slots can be reserved. -/
def executable (s : State) (b : Box) : Option (Frame × Req) :=
  match (s.box b).inRing with
  | [] => none
  | f :: _ =>
    if s.otherSegments b f then none else
    match judge s b f with
    | .execute r =>
      if (opClass r.opcode).isSome && decide (slotsOf r.opcode ≤ (s.box b).outFree) then some (f, r) else none
    | _ => none

/-- The oldest frame of a mailbox can be dealt with now: executed, or taken off its ring in another way. One that waits for a slot keeps no
other port waiting (R60). -/
def movable (s : State) (b : Box) : Bool := s.servesBox b && ((executable s b).isSome || (settleOne b s).isSome)

/-- No other mailbox holds a frame completed earlier that can be dealt with; equal instants go in ascending order. -/
def inTurn (s : State) (b : Box) (f : Frame) : Bool :=
  allBoxes.all (fun c => c == b || !movable s c ||
    match (s.box c).inRing with
    | g :: _ => decide (f.stamp < g.stamp ∨ (f.stamp = g.stamp ∧ b.val < c.val))
    | [] => true)

/-- The next frame of all the mailboxes is this one's oldest, and it cannot be executed. -/
def settles (s : State) (b : Box) : Bool :=
  s.servesBox b && (settleOne b s).isSome &&
    match (s.box b).inRing with
    | f :: _ => inTurn s b f
    | [] => false

/-- Frames that cannot be executed taken off their rings, in the order of their completion (R58, R68), at most `n`. -/
def settle : Nat → State → State
  | 0, s => s
  | n + 1, s =>
    match (allBoxes.find? (settles s)).bind (fun b => settleOne b s) with
    | some s1 => settle n s1
    | none => s

/-- All of them: six rings hold 48 frames, and each can end a segmented request before it is taken (R57, R60). -/
def settleAll (s : State) : State := settle 96 s

/-- The request a row with this opcode takes from the mailbox now, if any. -/
def ready (s : State) (b : Box) (op : Nat) : Option (Frame × Req) :=
  if s.servesBox b then
    match executable s b with
    | some (f, r) => if r.opcode = op && inTurn s b f then some (f, r) else none
    | none => none
  else none

/-- Taking a request: it leaves the ring and counts as executed from now (R59, R73). The crc kept for R59 is that of the frame taken, which
of a segmented request is its last segment. DESIGN CHOICE (log 194). unsafe. -/
def taken (b : Box) (f : Frame) (s : State) : State :=
  let tag := tagOf (extendedIn (s.box b).session f) f.stamp
  let s1 := noteExecuted b f (useSeq b f (markValid b (popIn b s)))
  let s2 := s1.modHost b (fun m => { m with
    segments := none, lastRequest := some ⟨tag, f.crc, none⟩, lastExecuted := f.seq })
  if h : b.val < 4 then
    s2.withPower { s2.power with aonExecuted := s2.power.aonExecuted.set b.val f.seq }
  else s2

/-- The row of an opcode: frames that come first and cannot be executed are settled, then the oldest request of the mailbox is taken when it
carries this opcode and it is its turn, and `h` gives its effect; otherwise nothing happens (log entry 4). -/
def request (b : Box) (op : Nat) (h : Req → State → State) (s : State) : Out :=
  let s1 := settleAll s
  match ready s1 b op with
  | some (f, r) => .next (h r (taken b f s1))
  | none => .next s1

/-! ## The checks of R101 that many commands share -/

/-- Check 1: the payload length suits the opcode. -/
def withLength (ok : Bool) (r : Req) (k : State → State) (s : State) : State :=
  if ok then k s else refuse r stPayloadLength s

/-- Check 2 for an opcode that takes no handle. -/
def noHandle (r : Req) (k : State → State) (s : State) : State :=
  if r.handle = 0 then k s else refuse r stHandleRequired s

/-- Check 2 for an opcode that takes the handle of a current channel (R83). -/
def withHandle (r : Req) (k : State → State) (s : State) : State :=
  if r.handle = 0 then refuse r stHandleRequired s
  else if s.current r.handle then k s
  else refuse r stStaleHandle s

/-- The channel's bytes can be read: its slot is not being rebuilt (R88). -/
def intact (slot : Nat) (r : Req) (k : State → State) (s : State) : State :=
  if s.rotunda.rebuilding.contains slot then refuse r stMemUncorrectable s else k s

/-- The first of several checks that fails is answered; otherwise `k` goes on. -/
def check (ok : Bool) (status : Nat) (r : Req) (k : State → State) (s : State) : State :=
  if ok then k s else refuse r status s

/-- In hold-up Rotunda starts no write of NOR or MRAM (R509): a command that would need one is refused. DEDUCED (log 208). unsafe. -/
def storing (r : Req) (k : State → State) (s : State) : State := check (!s.power.holdUp) stHoldUp r k s

end Sys2Proof.Machine
end

