-- ==== Sys2Proof/Machine/Flags.lean ====
section
/-! DEFINITION. The status words and lines computed from the state: the port status byte and status block (R48), the interrupt
lines (R45), and the HOST channel's body (R74). -/

namespace Sys2Proof.Machine

/-- The port holds the SUPERVISOR role at present. -/
def State.holdsSupervisor (s : State) (b : Box) : Bool :=
  match s.rotunda.supervisor with
  | .held p => p.val == b.val
  | _ => false

/-- Port status byte (R48), bit 7 down to bit 0. -/
def State.statusByte (s : State) (b : Box) : Nat :=
  let m := s.box b
  bits [m.lastAccepted, !s.servesBox b, s.holdsSupervisor b, m.errFlag, decide (m.inRing.length < 8), !m.outRing.isEmpty,
    m.session.any (·.keyed), m.session.isSome]

def Mailbox.inFree (m : Mailbox) : Nat := 8 - m.inRing.length

/-- SPI status block (R48). -/
def State.statusBlock (s : State) (b : Box) : List Byte :=
  let m := s.box b
  le 1 (s.statusByte b) ++ le 1 m.inFree ++ le 1 m.outRing.length ++ le 1 (s.roleOf b) ++ le 2 m.frameErrors ++ [0, 0]

/-- HPn_IRQ_N is driven low while an outbound frame is unread or unsent (R45). -/
def State.irqLow (s : State) (p : HostPort) : Bool := !(s.box (hostBox p)).outRing.isEmpty

/-- HP3 carries its frames by UART (R43, R516). -/
def State.hp3Uart (s : State) : Bool := s.power.inForce.hp3Mode == 0

/-- A host port is an SPI target (R43). -/
def State.isSpi (s : State) (p : HostPort) : Bool := p != 3 || !s.hp3Uart

/-- Mode byte of the HOST body: 0 without key, 1 with, 0xFF not attached. -/
def Mailbox.modeByte (m : Mailbox) : Nat :=
  match m.session with
  | some ss => if ss.keyed then 1 else 0
  | none => 0xFF

/-- HOST channel body, bytes 32 to 79 (R74). -/
def State.hostBody (s : State) (p : HostPort) : List Byte :=
  let m := s.box (hostBox p)
  le 1 p.val ++ le 1 (s.roleOf (hostBox p)) ++ le 1 (if s.isSpi p then 0 else 1) ++ le 1 (s.statusByte (hostBox p))
    ++ le 1 m.modeByte ++ le 1 (b1 m.stage.isSome) ++ le 2 m.lastExecuted ++ le 6 m.attachedTime ++ le 6 m.lastRx
    ++ le 4 (m.session.elim 0 (·.executed)) ++ le 4 (m.session.elim 0 (·.lastEvent)) ++ le 4 m.framesIn ++ le 4 m.framesOut
    ++ le 4 m.frameErrors ++ le 4 m.eventsLost ++ le 1 m.inFree ++ le 1 m.outRing.length ++ le 2 s.power.inForce.keepalive

theorem hostBody_length (s : State) (p : HostPort) : (s.hostBody p).length = 48 := by
  simp [State.hostBody]

end Sys2Proof.Machine
end

