-- ==== Sys2Proof/Machine/LegalOps.lean ====
section
/-! DEFINITION. The legal log (R353, R354) and the always-on domain's event buffer (R350) as operations every chapter shares. -/

namespace Sys2Proof.Machine

/-- A legal log entry's 32 bytes (R353). -/
def LogEntry.bytes (e : LogEntry) : List Byte :=
  le 4 e.index ++ le 6 e.time ++ le 2 e.type ++ le 1 e.origin ++ le 1 (b1 e.uncertain * 128 + b1 e.rtc * 64) ++ fit 18 e.data

/-- Appending to a ring keeps its newest `n` entries. -/
def ringPush {α : Type} (n : Nat) (l : List α) (a : α) : List α := (l ++ [a]).drop (l.length + 1 - n)

theorem ringPush_length {α : Type} (n : Nat) (l : List α) (a : α) (_ : l.length ≤ n) : (ringPush n l a).length ≤ n := by
  simp [ringPush]; omega

/-- An entry written to the legal log, with its event (R353, R362). -/
def logAppend (time type origin : Nat) (uncertain rtc : Bool) (data : List Byte) (s : State) : State :=
  let e : LogEntry := ⟨s.legal.nextIndex, time, type, origin, uncertain, rtc, data⟩
  raise 0x8095 none e.bytes
    (s.withLegal { s.legal with log := ringPush 1024 s.legal.log e, nextIndex := w32 (s.legal.nextIndex + 1) })

def originKeep : Nat := 4
def originAon : Nat := 5
def originService : Nat := 6

/-- An entry made by the Keep carries billing time. -/
def keepLog (type origin : Nat) (data : List Byte) (s : State) : State :=
  logAppend s.keep.billing type origin s.keep.uncertain false data s

/-- The always-on domain stores an entry, or counts it when its buffer of 64 is full (R350). -/
def aonStore (time type source : Nat) (s : State) : State :=
  if s.legal.aonBuffer.length < 64 then
    s.withLegal { s.legal with
      aonBuffer := s.legal.aonBuffer ++ [⟨time, type, s.legal.aonSeq, source⟩], aonSeq := w16 (s.legal.aonSeq + 1) }
  else
    s.withLegal { s.legal with aonLost := sat 255 (s.legal.aonLost + 1), aonLostTime := time }

/-- One stored entry as a legal log entry's data (R354). -/
def AonEntry.data (e : AonEntry) : List Byte := if e.type = 0x0071 then le 1 e.source ++ le 2 e.seq else le 2 e.seq

/-- The AON sequence number that a log entry of the always-on domain carries; the count of lost changes has none (R354). -/
def LogEntry.aonSeq (e : LogEntry) : Option Nat :=
  if e.origin ≠ originAon ∨ e.type = 0x0005 then none
  else some (if e.type = 0x0071 then field e.data 1 2 else field e.data 0 2)

/-- A buffer entry moved to the log, unless the log already holds its number (R351). -/
def moveAon (s : State) (e : AonEntry) : State :=
  if s.legal.log.any (fun x => x.aonSeq == some e.seq) then s
  else logAppend e.time e.type originAon s.keep.uncertain true e.data s

/-- The whole buffer moved, then the count of lost changes; both are cleared (R351). -/
def moveAonBuffer (s : State) : State :=
  let s1 := s.legal.aonBuffer.foldl moveAon s
  let s2 := if s.legal.aonLost = 0 then s1
    else logAppend s.time 0x0005 originAon s.keep.uncertain true (le 1 s.legal.aonLost ++ [0] ++ le 6 s.legal.aonLostTime) s1
  s2.withLegal { s2.legal with aonBuffer := [], aonLost := 0, aonLostTime := 0 }

/-! ## The seal fuse (R346, R347) -/

/-- The fuse as it stands after a sense: it cannot return to intact (R346). -/
def senseFuse (old new_ : FuseSense) : FuseSense :=
  match old, new_ with
  | .intact, x => x
  | .blown, .blown => .blown
  | .blown, _ => .blown
  | .undetermined, .blown => .blown
  | .undetermined, _ => .undetermined

/-- A seal entry in the log (R347, R354). -/
def sealLog (fuse : FuseSense) (uncertain : Bool) (c pulses : Nat) (s : State) : State :=
  logAppend s.keep.billing (if fuse = .blown then 0x0014 else 0x0015) originKeep uncertain false (le 4 c ++ le 1 pulses)
    (s.withLegal { s.legal with sealLogged := true })

/-! ## The signing queue -/

/-- The signing queue with these jobs left in it: its 16 places fill with the session records that wait (R341). -/
def requeue (jobs : List SignJob) (s : State) : State :=
  s.withLegal { s.legal with
    signing := (jobs ++ s.legal.waitingRecords).take 16, waitingRecords := (jobs ++ s.legal.waitingRecords).drop 16 }

end Sys2Proof.Machine
end

