-- ==== Sys2Proof/Machine/Settings.lean ====
section
/-! DEFINITION. The configuration fields (R93) with their sizes, indexes, ranges, defaults and writers, as the chapters' tables give
them, and the configuration as a list of the fields that differ from their defaults. -/

namespace Sys2Proof.Machine

/-- Index kinds of a field: 0; phases 1 to 3; ports 0 to 23; feeders 0 to 3; exception entries 0 to 7. -/
inductive IndexKind where
  | scalar | phase | port | feeder | year
  deriving DecidableEq, Repr

def IndexKind.admits : IndexKind → Nat → Bool
  | .scalar, i => i == 0
  | .phase, i => decide (1 ≤ i ∧ i ≤ 3)
  | .port, i => decide (i < 24)
  | .feeder, i => decide (i < 4)
  | .year, i => decide (i < 8)

/-- One field: size in bytes, index kind, inclusive range, default. -/
structure FieldDef where
  size : Nat
  index : IndexKind
  lo : Int
  hi : Int
  default : Nat
  deriving DecidableEq, Repr

/-- The fields of chapters 04, 05, 07, 10, 12 and 13. -/
def fieldDef : Nat → Option FieldDef
  | 0x0101 => some ⟨4, .phase, 6000, 600000, 32000⟩
  | 0x0102 => some ⟨4, .phase, 6000, 600000, 40000⟩
  | 0x0103 => some ⟨4, .port, 0, 63000, 6000⟩
  | 0x0104 => some ⟨1, .port, 0, 1, 1⟩
  | 0x0105 => some ⟨1, .port, 0, 7, 3⟩
  | 0x0106 => some ⟨1, .scalar, 0, 6, 0⟩
  | 0x0107 => some ⟨4, .scalar, -100000000, 100000000, 0⟩
  | 0x0108 => some ⟨1, .scalar, 0, 8, 8⟩
  | 0x0109 => some ⟨4, .scalar, -100000000, 100000000, 0⟩
  | 0x010A => some ⟨4, .scalar, 0, 100000000, 0⟩
  | 0x0201 => some ⟨1, .port, 0, 1, 0⟩
  | 0x0202 => some ⟨4, .port, 6000, 63000, 32000⟩
  | 0x0203 => some ⟨1, .port, 0, 3, 0⟩
  | 0x0204 => some ⟨1, .port, 0, 1, 0⟩
  | 0x0205 => some ⟨1, .port, 10, 60, 40⟩
  | 0x0206 => some ⟨1, .port, 0, 1, 0⟩
  | 0x0207 => some ⟨1, .port, 0, 1, 0⟩
  | 0x0208 => some ⟨2, .port, 0, 600, 0⟩
  | 0x0301 => some ⟨1, .scalar, 1, 64, 10⟩
  | 0x0302 => some ⟨1, .scalar, 0, 0x0F, 0x0F⟩
  | 0x0303 => some ⟨2, .scalar, 100, 10000, 2000⟩
  | 0x0304 => some ⟨1, .feeder, 0, 1, 0⟩
  | 0x0305 => some ⟨1, .feeder, 0, 3, 0⟩
  | 0x0306 => some ⟨2, .feeder, 100, 10000, 2000⟩
  | 0x0307 => some ⟨1, .feeder, 1, 3, 1⟩
  | 0x0308 => some ⟨1, .scalar, 1, 0xFF, 0xFF⟩
  | 0x0309 => some ⟨1, .scalar, 0, 2, 0⟩
  | 0x0401 => some ⟨1, .scalar, 1, 8, 1⟩
  | 0x0402 => some ⟨1, .scalar, 5, 60, 15⟩
  | 0x0403 => some ⟨1, .scalar, 0, 1, 0⟩
  | 0x0404 => some ⟨1, .scalar, 0, 28, 1⟩
  | 0x0405 => some ⟨2, .scalar, -720, 840, 0⟩
  | 0x0406 => some ⟨1, .scalar, 0, 120, 0⟩
  | 0x0407 => some ⟨10, .scalar, 0, 0, 0⟩
  | 0x0408 => some ⟨6, .year, 0, 0, 0xFF⟩
  | 0x0501 => some ⟨1, .scalar, 0, 3, 1⟩
  | 0x0502 => some ⟨1, .scalar, 1, 7, 7⟩
  | 0x0503 => some ⟨1, .scalar, 0, 30, 0⟩
  | 0x0504 => some ⟨1, .scalar, 0, 30, 6⟩
  | 0x0505 => some ⟨2, .scalar, 1, 0xFFFE, 1⟩
  | 0x0506 => some ⟨2, .scalar, 0, 3600, 60⟩
  | 0x0601 => some ⟨1, .scalar, 0, 1, 1⟩
  | 0x0602 => some ⟨1, .scalar, 0, 3, 3⟩
  | 0x0603 => some ⟨2, .scalar, 50, 1000, 250⟩
  | 0x0604 => some ⟨1, .scalar, 5, 100, 20⟩
  | 0x0605 => some ⟨1, .scalar, 5, 100, 15⟩
  | 0x0606 => some ⟨1, .scalar, 1, 3, 3⟩
  | 0x0607 => some ⟨1, .scalar, 0, 3, 2⟩
  | 0x0608 => some ⟨1, .scalar, 0, 3, 1⟩
  | 0x0609 => some ⟨1, .scalar, 0, 1, 0⟩
  | _ => none

def fieldDefault (field : Nat) : Nat :=
  match fieldDef field with
  | some d => d.default
  | none => 0

/-- Fields whose value is a signed number. -/
def fieldSigned (field : Nat) : Bool := field == 0x0107 || field == 0x0109 || field == 0x0405

/-- A raw value as the number it stands for. -/
def fieldValue (field raw : Nat) : Int :=
  match fieldDef field with
  | some d => if fieldSigned field && decide (256 ^ d.size ≤ 2 * raw) then (raw : Int) - (256 ^ d.size : Nat) else raw
  | none => raw

/-- One end of dst_rule: month, week, weekday, minute of the UTC day. -/
def dstRuleEndOk (bs : List Byte) : Bool :=
  within 1 12 (field bs 0 1) && within 1 5 (field bs 1 1) && within 0 6 (field bs 2 1) && within 0 1439 (field bs 3 2)

/-- dst_rule, or all 0 (R318). -/
def dstRuleOk (raw : Nat) : Bool :=
  let bs := le 10 raw
  raw == 0 || (dstRuleEndOk bs && dstRuleEndOk (bs.drop 5))

/-- A dst_year entry: unused, or months and days in range, reserved 0 (R318). -/
def dstYearOk (raw : Nat) : Bool :=
  let bs := le 6 raw
  field bs 5 1 == 0 && (field bs 0 1 == 0xFF ||
    (within 1 12 (field bs 1 1) && within 1 31 (field bs 2 1) && within 1 12 (field bs 3 1) && within 1 31 (field bs 4 1)))

/-- The value lies in the field's range (tables of the chapters). -/
def fieldOk (fld raw : Nat) : Bool :=
  match fieldDef fld with
  | none => false
  | some d =>
    if fld = 0x0407 then dstRuleOk raw
    else if fld = 0x0408 then dstYearOk raw
    else
      withinInt d.lo d.hi (fieldValue fld raw) &&
        (if fld = 0x0308 then bit raw 0
         else if fld = 0x0402 then [5, 10, 15, 30, 60].contains raw
         else if fld = 0x0405 then fieldValue fld raw % 15 == 0
         else if fld = 0x0406 then raw % 15 == 0
         else if fld = 0x0502 then [1, 2, 4, 7].contains raw
         else if fld = 0x0506 then raw == 0 || decide (10 ≤ raw)
         else true)

/-- Fields within the sealed legal partition (R176). -/
def fieldSealed (fld : Nat) : Bool := [0x0302, 0x0303, 0x0304, 0x0306, 0x0307, 0x0308].contains fld

/-- Allocator inputs that ENERGY may write (R70, R209). -/
def fieldEnergy (fld : Nat) : Bool := decide (0x0105 ≤ fld ∧ fld ≤ 0x010A)

/-- Allocator input fields (R209). -/
def fieldAlloc (fld : Nat) : Bool := decide (0x0101 ≤ fld ∧ fld ≤ 0x010A)

/-- The role may write the field (R69, R139, R175, R210, R318, R395, R430). -/
def fieldWritable (role fld : Nat) : Bool :=
  role == roleSupervisor || (role == roleEnergy && fieldEnergy fld) || (role == roleBilling && fld / 256 == 0x04)

/-! ## A configuration -/

/-- The raw value of a field: as listed, or its default. -/
def getRaw (cfg : List Setting) (fld index : Nat) : Nat :=
  match cfg.find? (fun c => c.field == fld && c.index == index) with
  | some c => c.value
  | none => fieldDefault fld

/-- One field written; a value equal to the default is not listed. -/
def setRaw (cfg : List Setting) (fld index value : Nat) : List Setting :=
  let rest := cfg.filter (fun c => !(c.field == fld && c.index == index))
  if value = fieldDefault fld then rest else rest ++ [⟨fld, index, value⟩]

/-- A field as the number it stands for. -/
def getCfg (cfg : List Setting) (fld index : Nat) : Int := fieldValue fld (getRaw cfg fld index)

/-- The configuration the running blocks act on (R99). -/
def State.cfg (s : State) (fld index : Nat) : Nat := getRaw s.rotunda.applied fld index
def State.cfgInt (s : State) (fld index : Nat) : Int := getCfg s.rotunda.applied fld index

/-- The allocator's inputs are those of the buffer it has latched (R24). -/
def State.allocIn (s : State) (fld index : Nat) : Nat := getRaw s.turret.latched.settings fld index
def State.allocInt (s : State) (fld index : Nat) : Int := getCfg s.turret.latched.settings fld index

/-- A field written reads back. -/
theorem getRaw_setRaw (cfg : List Setting) (f i v : Nat) : getRaw (setRaw cfg f i v) f i = v := by
  have hnone : (cfg.filter (fun c => !(c.field == f && c.index == i))).find?
      (fun c => c.field == f && c.index == i) = none := by
    rw [List.find?_eq_none]
    intro x hx
    have := (List.mem_filter.mp hx).2
    simp only [Bool.not_eq_true'] at this
    simp [this]
  by_cases h : v = fieldDefault f
  · rw [setRaw, if_pos h, getRaw, hnone, h]
  · rw [setRaw, if_neg h, getRaw, List.find?_append, hnone]
    simp

end Sys2Proof.Machine
end

