-- ==== Sys2Proof/Machine/Crossing.lean ====
section
/-! DEFINITION. Operations over the crossing points: posting to the session event queue (R35, R36), publishing the allocator input
block (R23 to R28), and the request record for Steeple (R29, R30). -/

namespace Sys2Proof.Machine

/-! ## Session event queue -/

/-- Entries that may use the last 32 places (R36): fault decisions, lock-out entries and exits, switch and request outcomes. -/
def QContent.urgent : QContent → Bool
  | .portState _ _ _ _ _ _ => false
  | .switchOutcome _ _ _ _ _ => true
  | .residualTest _ _ _ => false
  | .cable _ _ => false
  | .sessionBegun _ _ _ => false
  | .sessionAuthorised _ _ _ => false
  | .safety _ => true
  | .allocChanged _ _ => false
  | .shed _ _ _ _ _ => false
  | .readmitted _ => false
  | .siteZone _ _ _ _ => false
  | .allocInput _ => false
  | .guardBlind _ _ => false
  | .mirrorStale _ => false
  | .confirmRequired _ _ _ _ => false
  | .outcome _ _ _ => true
  | .committed _ => false
  | .memory _ _ _ _ _ => false
  | .gap _ _ _ => false

/-- Places an entry may use. -/
def QContent.limit (c : QContent) : Nat := if c.urgent then 256 else 224

/-- The gap entry, once entries were not posted and space has returned (R36). -/
def postGap (s : State) : State :=
  match s.turret.queueLost with
  | none => s
  | some g =>
    if s.turret.queue.length < 224 then
      count 31 1 (count 50 1 (s.withTurret { s.turret with
        queue := s.turret.queue ++ [⟨s.turret.queueSeq, s.time, none, .gap g.count g.first g.last⟩]
        queueSeq := w32 (s.turret.queueSeq + 1), queueLost := none }))
    else s

/-- An entry put in its place: after those before it in time, and before those of the same time for higher ports; the numbers stay in
order (R35). Times are whole milliseconds, so that entries of one millisecond have equal times. DEDUCED (log 191). unsafe. -/
def placeEntry (q : List QEntry) (e : QEntry) : List QEntry :=
  let run := (q.reverse.takeWhile (fun x => x.time == e.time)).reverse
  let higher (x : QEntry) : Bool := match e.port, x.port with
    | some p, some r => decide (p < r)
    | _, _ => false
  let low := run.takeWhile (fun x => !higher x)
  q.take (q.length - run.length) ++
    List.zipWith (fun x n => { x with seq := n }) (low ++ [e] ++ run.drop low.length) (run.map (·.seq) ++ [e.seq])

/-- One entry posted, or noted as not posted; either way it takes its sequence number (R35, R36). -/
def post (port : Option Port) (c : QContent) (s0 : State) : State :=
  let s := postGap s0
  let t := s.turret
  if t.queue.length < c.limit ∧ (t.queueLost = none ∨ c.urgent) then
    count 50 1 (s.withTurret { t with
      queue := placeEntry t.queue ⟨t.queueSeq, s.time, port, c⟩, queueSeq := w32 (t.queueSeq + 1) })
  else
    let g : LostEvents := match t.queueLost with
      | none => ⟨1, t.queueSeq, t.queueSeq⟩
      | some g => ⟨g.count + 1, g.first, t.queueSeq⟩
    s.withTurret { t with queueSeq := w32 (t.queueSeq + 1), queueLost := some g }

/-! ## Allocator input block -/

/-- One publication of the block (R23, R25), with its number and time; requests that have their outcome are left out of it (R30). -/
def publish (f : InputBlock → InputBlock) (s : State) : State :=
  let p := f s.rotunda.published
  count 48 1 (s.withRotunda { s.rotunda with
    published := { p with seq := w32 (p.seq + 1), time := s.time, record := p.record.filter (fun e => !e.done) } })

/-- Entries published without their outcomes (R30). -/
def State.recordFull (s : State) : Bool := decide (8 ≤ s.rotunda.published.record.countP (fun e => !e.done))

/-- An entry of the request record made and published (R29). -/
def makeRequest (kind : Nat) (box : Option Box) (seq epoch : Nat) (data : List Byte) (s : State) : State :=
  let e : RequestEntry := ⟨s.rotunda.nextRequest, kind, box, seq, epoch, s.time, data, s.now, false, false⟩
  publish (fun p => { p with record := p.record ++ [e] })
    (s.withRotunda { s.rotunda with nextRequest := w32 (s.rotunda.nextRequest + 1) })

/-- A request that Steeple alone can carry out (R29, R30): refused while the record is full or the control plane silent, otherwise
accepted and published; its completion waits for the outcome of its number. -/
def askSteeple (kind : Nat) (data : List Byte) (r : Req) (s : State) : State :=
  if s.rotunda.silent then refuse r stControlSilent s
  else if s.recordFull then refuse r stBusy s
  else
    let s1 := accept r s
    let s2 := s1.withRotunda { s1.rotunda with waiting := s1.rotunda.waiting ++ [r.wait s1.rotunda.nextRequest] }
    makeRequest kind (some r.box) r.seq r.epoch data s2

/-- Steeple's request outcome (R30). -/
def postOutcome (number status : Nat) (result : List Byte) (s : State) : State :=
  post none (.outcome number status (fit 14 result)) s

end Sys2Proof.Machine
end

