-- ==== Sys2Proof/Machine/MemOps.lean ====
section
/-! DEFINITION. Memory integrity: regions (R459), buckets and the recent-error table (R463, R464), the error log (R473) and page
retirement (R470, R471). -/

namespace Sys2Proof.Machine

/-! ## Regions (R459) -/

/-- Pages of 4 KiB per region. -/
def regionPages (r : Nat) : Nat := [1024, 32, 32, 64, 128, 64, 16, 1024].getD r 0

def regionLines (r : Nat) : Nat := regionPages r * 128

def regionSpares (r : Nat) : Nat := [16, 2, 2, 2, 2, 2, 2, 16].getD r 0

/-- The regions of MRAM (R41). -/
inductive MramRegion where
  | option | boot | keys | safety | legal | channels | list | powerline | settings | spare
  deriving DecidableEq, Repr

/-- Their first pages and owners in the order of the table: each is written by its owner alone. -/
def mramRegions : List (MramRegion × Nat × Clock) := [
  (.option, 0x000, .cd5), (.boot, 0x001, .cd5), (.keys, 0x002, .cd7), (.safety, 0x010, .cd1), (.legal, 0x020, .cd6),
  (.channels, 0x120, .cd5), (.list, 0x160, .cd9), (.powerline, 0x170, .cd8), (.settings, 0x180, .cd5), (.spare, 0x3F0, .cd5)]

/-- The region a page of MRAM lies in. -/
def mramRegionAt (page : Nat) : MramRegion :=
  ((mramRegions.filter (fun x => decide (x.2.1 ≤ page))).getLast?).elim .option (·.1)

/-- The island that owns a page of MRAM. -/
def mramOwnerAt (page : Nat) : Clock :=
  ((mramRegions.filter (fun x => decide (x.2.1 ≤ page))).getLast?).elim .cd5 (·.2.2)

/-- Clock domain numbers of the islands (R18). -/
def islandClocks : List Clock := [.cd0, .cd1, .cd2, .cd3, .cd4, .cd5, .cd6, .cd7, .cd8, .cd9, .cd10, .cd11]

/-- The Spare pages region of MRAM: its last 16 pages. -/
def isSparePage (r page : Nat) : Bool := r == 7 && decide (1008 ≤ page)

/-- Regions whose checkers report through the session event queue (R459). -/
def reportsByQueue (i : Fin 8) : Bool := i == 2 || i == 4

/-! ## Reports -/

/-- A happening reported: to the log directly, or through the session event queue (R459). -/
def memRecord (i : Fin 8) (kind offset requester cnt : Nat) (counted : Bool) (s : State) : State :=
  if reportsByQueue i then
    post none (.memory i.val kind offset requester (sat 255 cnt)) s
  else logError i kind offset requester cnt s.time counted s

/-! ## Buckets and recent errors (R463, R464) -/

def State.bucketDepth (s : State) : Nat := s.power.inForce.bucketDepth

/-- A recovery adds 1 to the bucket; beyond its depth is an overflow, reported once until the level has fallen to half (R463). -/
def bucketAdd (i : Fin 8) (requester : Nat) (s : State) : State :=
  let r := s.memory.regions[i]
  if r.bucket + 1 ≤ s.bucketDepth then s.setRegion i (fun r => { r with bucket := r.bucket + 1 })
  else if r.overflowed then s
  else memRecord i 8 0 requester r.bucket true (s.setRegion i (fun r => { r with overflowed := true }))

/-- Bucket of an uncorrectable line: filled, and an overflow whatever its level was (R463). -/
def bucketFill (i : Fin 8) (s : State) : State :=
  s.setRegion i (fun r => { r with bucket := s.bucketDepth, overflowed := true, uncorrectable := w32 (r.uncorrectable + 1) })

/-- A leak of 1; a bucket at half its depth may overflow again (R463). -/
def Region.leak (r : Region) (depth now : Nat) : Region :=
  let b := r.bucket - 1
  { r with bucket := b, overflowed := r.overflowed && decide (depth < 2 * b), lastLeak := now }

/-- Entry of a line in the recent-error table. -/
def Memory.recentOf (m : Memory) (i : Fin 8) (offset : Nat) : Option RecentError :=
  m.recent.find? (fun e => e.region == i.val && e.offset == offset)

/-- A new entry; a full table gives up its oldest unmarked entry, or its oldest one (R464). -/
def pushRecent (l : List RecentError) (e : RecentError) : List RecentError :=
  if l.length < 16 then l ++ [e]
  else
    match l.findIdx? (fun x => !x.repeating) with
    | some i => l.eraseIdx i ++ [e]
    | none => l.drop 1 ++ [e]

/-- The table after a recovery of a line (R464): by rising time of the first recovery, so that an entry that restarts goes to its end. -/
def Memory.recover (m : Memory) (i : Fin 8) (offset civil now : Nat) : List RecentError :=
  let mine (x : RecentError) : Bool := x.region == i.val && x.offset == offset
  match m.recentOf i offset with
  | none => pushRecent m.recent ⟨i.val, offset, 1, civil, now, false⟩
  | some e =>
    if e.firstAt + 600000 < now then m.recent.filter (fun x => !mine x) ++ [⟨i.val, offset, 1, civil, now, false⟩]
    else
      let e2 := { e with count := sat 255 (e.count + 1), repeating := e.repeating || decide (5 ≤ e.count + 1) }
      m.recent.map (fun x => if mine x then e2 else x)

/-! ## Retirement (R470, R471) -/

/-- The remap entry of a retired page, as OTP holds it (R470). -/
def remapEntry (region page spare : Nat) : List Byte :=
  let top := le 3 (8388608 + region * 524288 + page * 256 + spare * 16)
  le 1 (crc8 0x07 0 top.reverse) ++ top

/-- Spare pages of a region in use; one whose entry fails its check counts as used (R470). -/
def Region.sparesUsed (r : Region) : Nat := r.retired.length + r.duds.length

/-- The lowest unused spare page (R471). -/
def Region.nextSpare (r : Region) : Nat :=
  ((List.range 16).find? (fun k => !r.duds.contains k && !r.retired.any (fun x => x.2 == k))).getD 0

/-- Status that refuses a retirement (R472), none where it may run. -/
def State.retireRefusal (s : State) (i : Fin 8) (page : Nat) : Option Nat :=
  let r := s.memory.regions[i]
  if regionPages i.val ≤ page ∨ isSparePage i.val page = true then some stParamRange
  else if r.retired.any (fun x => x.1 == page) then some stPageAlreadyRetired
  else if regionSpares i.val ≤ r.sparesUsed then some stNoSparePage
  else if s.memory.retiring.isSome then some stBusy
  else none

/-- Poisoned lines of a page, copied as poisoned. -/
def Region.poisonedIn (r : Region) (page : Nat) : Nat := r.poisoned.countP (fun l => l / 128 == page)

/-- The reads that copy a page, under R460: each of its poisoned lines is met as uncorrectable once more, and logged (R471, R473). -/
def copyPage (i : Fin 8) (page : Nat) (s : State) : State :=
  (s.memory.regions[i].poisoned.filter (fun l => l / 128 == page)).foldl (fun s l =>
    memRecord i 4 (l * 32) 0xFF ((s.memory.recentOf i (l * 32)).elim 0 (·.count)) false s) s

/-- A page copied, the lowest unused spare page put in its place, and logged (R471). -/
def retirePage (i : Fin 8) (page : Nat) (s : State) : State :=
  memRecord i 9 (page * 4096) 0xFF 0 true
    ((copyPage i page s).setRegion i (fun r => { r with retired := r.retired ++ [(page, r.nextSpare)] }))

/-- PAGE_RETIRE's completion payload (R472). -/
def retirePayload (i : Fin 8) (page : Nat) (s : State) : List Byte :=
  let r := s.memory.regions[i]
  le 1 (r.spareOf page) ++ le 1 (regionSpares i.val - r.sparesUsed) ++ le 2 (r.poisonedIn page) ++ le 6 s.time ++ [0, 0]

/-- A retirement begun (R471): its page is copied by 40 ms, and the remap entry programmed and in force by 45 ms. -/
def startRetirement (i : Fin 8) (page : Nat) (w : Waiting) (s : State) : State :=
  s.withMemory { s.memory with retiring := some ⟨i, page, s.now, w⟩ }

/-- Step 4, at the end of its 45 ms (R471). The manual gives upper bounds alone. DESIGN CHOICE (log 210). unsafe. -/
def settleRetirement (s : State) : State :=
  match s.memory.retiring with
  | some x =>
    if s.due (x.startedAt + 45) then
      let s1 := retirePage x.region x.page (s.withMemory { s.memory with retiring := none })
      finish x.request stOk (retirePayload x.region x.page s1) s1
    else s
  | none => s

/-- A power cut or another reset: before the fuses are programmed it leaves the page in use and the spare page unused; during it, whether the
entry is still blank, whole, or fails its check is a free value (R470, R471). -/
def Memory.cutRetirement (m : Memory) (now drawn : Nat) : Memory :=
  match m.retiring with
  | some x =>
    let r := m.regions[x.region]
    let r1 : Region :=
      if now < x.startedAt + 40 ∨ drawn % 3 = 0 then r
      else if drawn % 3 = 1 then { r with duds := r.duds ++ [r.nextSpare] }
      else { r with retired := r.retired ++ [(x.page, r.nextSpare)] }
    { m with retiring := none, regions := m.regions.set x.region r1 }
  | none => m

/-- Remap entries that fail their check as they are applied at a boot are logged (R470, R473). -/
def logDuds (s : State) : State :=
  (List.finRange 8).foldl (fun s i =>
    s.memory.regions[i].duds.foldl (fun s _ => logError i 10 0 0xFF 0 s.time false s) s) s

/-- The metrology DSP retires a page at its third repeating mark (R472). -/
def dspMark (page : Nat) (s : State) : State :=
  let n := ((s.memory.dspMarks.find? (fun x => x.1 == page)).elim 0 (·.2)) + 1
  let s1 := s.withMemory { s.memory with dspMarks := s.memory.dspMarks.filter (fun x => x.1 ≠ page) ++ [(page, n)] }
  if 3 ≤ n && (s1.retireRefusal 4 page).isNone then retirePage 4 page s1 else s1

/-! ## A line found bad (R460) -/

/-- Error log kind of a recovery. -/
def LineResult.kind : LineResult → Nat
  | .good => 0
  | .refetched => 1
  | .twinned => 2
  | .reloaded => 3
  | .uncorrectable => 4

/-- A recovered line: bucket, table and log (R463, R464, R473). -/
def recoverLine (i : Fin 8) (kind offset requester : Nat) (s0 : State) : State :=
  let s := s0.setRegion i (fun r => { r with recovered := w32 (r.recovered + 1) })
  let s1 := s.withMemory { s.memory with recent := s.memory.recover i offset s.time s.now }
  let n := (s1.memory.recentOf i offset).elim 0 (·.count)
  let s2 := if n = 1 then memRecord i kind offset requester 1 false s1 else s1
  let s3 := if n = 5 then
      let s := memRecord i 7 offset requester 5 true s2
      if i = 4 then dspMark (offset / 4096) s else s
    else s2
  bucketAdd i requester s3

/-- An uncorrectable line: its bucket and its entry, unless it is poisoned already; a partial write poisons it (R463, R468, R469). -/
def loseLine (i : Fin 8) (line requester : Nat) (write : Bool) (s : State) : State :=
  let offset := line * 32
  let n := (s.memory.recentOf i offset).elim 0 (·.count)
  let old := s.memory.regions[i].poisoned.contains line
  let s1 := if old then (if write then s else memRecord i 4 offset requester n false s)
    else memRecord i 4 offset requester n true (bucketFill i s)
  if write then
    memRecord i 5 offset requester n false
      (if old then s1 else s1.setRegion i (fun r => { r with poisoned := r.poisoned ++ [line] }))
  else s1

end Sys2Proof.Machine
end

