-- ==== Sys2Proof/Machine/Trig.lean ====
section
/-! DEFINITION. Sine and cosine in fixed point: angles in 65536ths of a turn, values in units of 2^-30. The manual asks for real numbers;
the rounding of the last places is the model's (DESIGN CHOICE, log 166; unsafe). -/

namespace Sys2Proof.Machine

/-- One in units of 2^-30. -/
def one30 : Int := 1073741824

/-- A product of two values in units of 2^-30. -/
def mul30 (a b : Int) : Int := a * b / one30

/-- The cosine's series about 0 for a square of an angle in radians, to the twelfth power. -/
def cosSeries (x2 : Int) : Int :=
  [132, 90, 56, 30, 12, 2].foldl (fun (acc d : Int) => one30 - mul30 x2 acc / d) one30

/-- The cosine of an angle of the first quarter. -/
def cosQuarter (a : Nat) : Int :=
  let x : Int := a * 6746518852 / 65536
  cosSeries (mul30 x x)

/-- The cosine of any angle. -/
def cos30 (a : Nat) : Int :=
  let t := a % 65536
  let q := t % 16384
  match t / 16384 with
  | 0 => cosQuarter q
  | 1 => -cosQuarter (16384 - q)
  | 2 => -cosQuarter q
  | _ => cosQuarter (16384 - q)

/-- The sine of any angle: the cosine a quarter of a turn before. -/
def sin30 (a : Nat) : Int := cos30 (a + 49152)

/-- The cosine of an angle in 2^-32 of a turn. -/
def cos32 (a : Nat) : Int :=
  let t := a % 4294967296
  let q := t % 1073741824
  let first (b : Nat) : Int := let x : Int := b * 6746518852 / 4294967296; cosSeries (mul30 x x)
  match t / 1073741824 with
  | 0 => first q
  | 1 => -first (1073741824 - q)
  | 2 => -first q
  | _ => first (1073741824 - q)

/-- The sine of an angle in 2^-32 of a turn. -/
def sin32 (a : Nat) : Int := cos32 (a + 3221225472)

/-- The angle found by halving an interval `n` times: the cosine at its lower end is above the value, at its upper end not. -/
def acosBetween (v : Int) : Nat → Nat → Nat → Nat
  | 0, _, hi => hi
  | n + 1, lo, hi =>
    let mid := (lo + hi) / 2
    if v < cosQuarter mid then acosBetween v n mid hi else acosBetween v n lo mid

/-- The first angle of the first quarter whose cosine is at or below a value of 0 to 1. -/
def acos30 (v : Int) : Nat := if cosQuarter 0 ≤ v then 0 else acosBetween v 14 0 16384

end Sys2Proof.Machine
end

