-- ==== Sys2Proof/Machine/LaneOps.lean ====
section
/-! DEFINITION. Operations over a port lane: reading and writing it, classifying the pilot and the proximity, effective limit and
duty, transitions of R133 with their events, and the session of the port (chapter 04). -/

namespace Sys2Proof.Machine

/-! ## Writing a lane -/

/-- What the PORT channel's body shows of a lane, save its flags, which other units set too (R140). -/
def Lane.shown (l : Lane) : List Int × List (Option PilotClass) × PilotDrive :=
  ([l.duty, l.highMv, l.lowMv.getD (-32768), l.cable, l.transition, l.limit, l.allowance, l.session, l.stateTime, l.closings,
    l.faultOpenings, l.weldProbes, l.sheds], [l.confirmed], l.drive)

/-- The PORT channel's header follows a change of its body (R75). -/
def Lane.stamp (old new_ : Lane) (civil : Nat) : Lane :=
  if old.shown = new_.shown then new_ else { new_ with modified := w48 civil, changes := w32 (old.changes + 1) }

/-- One lane replaced. -/
def State.setLane (s : State) (p : Port) (l : Lane) : State :=
  s.withTurret { s.turret with lanes := s.turret.lanes.set p (Lane.stamp (s.lane p) l s.civil) }

def State.modLane (s : State) (p : Port) (f : Lane → Lane) : State := s.setLane p (f (s.lane p))

/-- Steeple's drive permit of a port (R238). -/
def State.permit (s : State) (p : Port) : Bool := s.steeple.permits[p]

/-- Turret runs: its lanes evaluate (R13). -/
def State.turretUp (s : State) : Bool := s.up .cd2

/-! ## Codes -/

/-- Port state codes (R131). -/
def PortState.code : PortState → Nat
  | .disabled => 0
  | .idle => 1
  | .connected => 2
  | .suspended => 3
  | .offered => 4
  | .testing => 5
  | .closing => 6
  | .energised => 7
  | .shed => 8
  | .opening => 9
  | .ended => 10
  | .cableRefused => 11
  | .lockout => 12

/-- Pilot classification codes (R140). -/
def PilotClass.code : PilotClass → Nat
  | .a => 0
  | .b => 1
  | .c => 2
  | .d => 3
  | .e => 4
  | .f => 5
  | .diode => 6
  | .out => 7

def pilotCode (c : Option PilotClass) : Nat :=
  match c with
  | some k => k.code
  | none => 0xFF

def PilotDrive.code : PilotDrive → Nat
  | .high => 0
  | .pwm => 1
  | .low => 2

/-- Session state codes (R136). -/
def SessionState.code : SessionState → Nat
  | .reserved => 1
  | .opened => 2
  | .authorised => 3
  | .ended => 4
  | .interrupted => 5

/-! ## Pilot and proximity -/

/-- The band a high plateau in mV lies in, if any (R111). -/
def highBand (mv : Int) : Option PilotClass :=
  if withinInt 11000 13000 mv then some .a
  else if withinInt 8000 10000 mv then some .b
  else if withinInt 5000 7000 mv then some .c
  else if withinInt 2000 4000 mv then some .d
  else if withinInt (-1000) 1000 mv then some .e
  else if withinInt (-13000) (-11000) mv then some .f
  else none

/-- The classification of one evaluation period (R111). -/
def classify (high : Int) (low : Option Int) : PilotClass :=
  match highBand high with
  | none => .out
  | some .e => .e
  | some .f => .f
  | some k =>
    match low with
    | none => k
    | some lo =>
      if withinInt (-13000) (-11000) lo then k
      else if decide (-11000 < lo) && k != .a then .diode
      else .out

/-- Rc = 2000 Ω × V / (VDDA − V) lies from `lo` to `hi` ohm, without rounding (R113). -/
def proximityIn (v vdda lo hi : Nat) : Bool := decide (v < vdda) && within (lo * (vdda - v)) (hi * (vdda - v)) (2000 * v)

/-- The proximity code of the voltages on Pnn_PPS and VDDA (R113). -/
def proximityCode (v vdda : Nat) : Nat :=
  if proximityIn v vdda 1100 2460 then 1
  else if proximityIn v vdda 400 936 then 2
  else if proximityIn v vdda 164 308 then 3
  else if proximityIn v vdda 75 140 then 4
  else if 4000 * (vdda - v) < 2000 * v then 5
  else 6

/-- The proximity resistance in whole ohms, at most 0xFFFF (R113, R146). -/
def proximityOhm (v vdda : Nat) : Nat := if vdda ≤ v then 65535 else sat 65535 (2000 * v / (vdda - v))

/-- Cable rating of a proximity code in mA (R113). -/
def cableRating (code : Nat) : Option Nat :=
  if code = 1 then some 13000 else if code = 2 then some 20000 else if code = 3 then some 32000
  else if code = 4 then some 63000 else none

/-! ## Effective limit and duty -/

/-- Rated current of the committed safety parameter block in mA (R278, R280). -/
def State.rated (s : State) (p : Port) : Option Nat :=
  s.steeple.committed.map (fun b => b.rated[p] * 100)

/-- The smaller of a bound and an optional one. -/
def minOpt (a : Nat) (b : Option Nat) : Nat :=
  match b with
  | some x => min a x
  | none => a

/-- A code counts as accepted: 1 to 4, and under cable_policy 1 not below the rated current (R114, R280). -/
def State.codeAccepted (s : State) (p : Port) (code : Nat) : Bool :=
  match cableRating code with
  | none => false
  | some ma =>
    match s.steeple.committed, s.rated p with
    | some b, some r => !(b.cablePolicy == 1 && decide (ma < r))
    | _, _ => true

def State.tethered (s : State) (p : Port) : Bool := (s.lane p).portMode == 1

/-- A cable the port may be offered on: tethered, or an accepted code 1 to 4 (R114, T04). -/
def State.cableOk (s : State) (p : Port) : Bool := s.tethered p || s.codeAccepted p (s.lane p).cable

/-- The port's session, if its channel exists. -/
def State.portSession (s : State) (p : Port) : Option (Channel × SessionBody) :=
  match s.channelOf (s.lane p).session with
  | some c =>
    match c.body with
    | .session b => some (c, b)
    | _ => none
  | none => none

/-- The port's session is RESERVED, OPEN or AUTHORISED. -/
def SessionState.live : SessionState → Bool
  | .reserved => true
  | .opened => true
  | .authorised => true
  | .ended => false
  | .interrupted => false

def State.sessionLive (s : State) (p : Port) : Bool := (s.portSession p).any (fun x => x.2.state.live)
def State.authorised (s : State) (p : Port) : Bool := (s.portSession p).any (fun x => x.2.state == .authorised)

/-- The session cap, none for 0 (R115). A cap that SESSION_OPEN gave counts from then on, before the session is authorised.
DESIGN CHOICE (log 167). unsafe. -/
def State.sessionCap (s : State) (p : Port) : Option Nat :=
  match s.portSession p with
  | some (_, b) => if b.capMa = 0 ∨ b.state = .ended ∨ b.state = .interrupted then none else some b.capMa
  | none => none

/-- The effective limit (R115). -/
def State.effectiveLimit (s : State) (p : Port) : Nat :=
  let cable := if s.tethered p then some (s.cfg 0x0202 p.val) else cableRating (s.lane p).cable
  minOpt (minOpt (minOpt (s.allocIn 0x0103 p.val) (s.rated p)) cable) (s.sessionCap p)

/-- Pilot duty in 0.1 % from an allowance in mA (R218). -/
def dutyOf (ma : Nat) : Nat :=
  if ma ≤ 51000 then (ma + 30) / 60 else if ma < 52500 then 850 else (ma + 125) / 250 + 640

/-- The allowance the lane applies: 6000 mA at most in degraded mode (R267), never above the effective limit (R115). -/
def State.appliedAllowance (s : State) (p : Port) : Nat :=
  let a := min (s.lane p).allowance (s.effectiveLimit p)
  if s.steeple.affected[p] then min a 6000 else a

/-- The duty of a port that drives PWM: 5.0 % under pilot_mode 1, the reduced duty of SHED, or that of its allowance; an allowance below
6000 mA maps to no duty, and the lane keeps the one it drives until PWM stops (R131, R218, T13). -/
def State.pwmDuty (s : State) (p : Port) (st : PortState) : Nat :=
  if s.cfg 0x0206 p.val = 1 then 50
  else if st = .shed then 100
  else if s.appliedAllowance p < 6000 then (s.lane p).duty
  else dutyOf (s.appliedAllowance p)

/-- Pilot drive of a state (R131); OPENING keeps PWM unless its cause stopped it. -/
def PortState.drive : PortState → PilotDrive
  | .disabled => .low
  | .idle => .high
  | .connected => .high
  | .suspended => .high
  | .offered => .pwm
  | .testing => .pwm
  | .closing => .pwm
  | .energised => .pwm
  | .shed => .pwm
  | .opening => .pwm
  | .ended => .high
  | .cableRefused => .high
  | .lockout => .low

/-- The pilot steady from the next period boundary (R133). -/
def Lane.steady (l : Lane) (drive : PilotDrive) : Lane := { l with nextDrive := drive }

/-- The pilot goes steady high at the next boundary: the cause stopped PWM (R131, T13). -/
def stopPwm (p : Port) (s : State) : State := s.modLane p (fun l => l.steady .high)

/-- A period boundary: the lane takes the drive, and under PWM the duty, that it received before it (R107). PWM does not start while the
allowance maps to no duty (R218). -/
def takeDuty (p : Port) (s : State) : State :=
  s.modLane p (fun l =>
    if l.nextDrive ≠ .pwm then { l with drive := l.nextDrive, duty := 0 }
    else if s.pwmDuty p l.state = 0 then l
    else { l with drive := .pwm, duty := s.pwmDuty p l.state })

/-! ## Sessions of a port (R136 to R138) -/

/-- EAI of a register set at the last latch, in mWh (R184, R186). -/
def State.latchedEai (s : State) (p : Port) : Nat :=
  (s.keep.latched.sets[p.val]'(by omega)).regs.total.eai / 4294967296

/-- The SESSION channel of a port changed. -/
def setSession (c : Channel) (b : SessionBody) (s : State) : State := setBody c.slot (.session b) s

/-- The part of `energised_s` a lane has not yet credited to its session, in ms (R137). -/
def Lane.running (l : Lane) (now : Nat) : Nat := (l.energisedAt).elim 0 (fun t => now - t)

/-- The session as it stands now: its energised time runs while the port is ENERGISED (R137). -/
def State.sessionNow (s : State) (c : Channel) (b : SessionBody) : SessionBody :=
  let l := s.lane b.port
  if l.session = c.handle then { b with energisedMs := b.energisedMs + l.running s.now } else b

/-- The energised time credited to the session as the port leaves ENERGISED. -/
def creditEnergised (p : Port) (s : State) : State :=
  match (s.lane p).energisedAt, s.portSession p with
  | some _, some (c, b) =>
    (setSession c (s.sessionNow c b)
      (addChanges c.slot ((s.sessionNow c b).energisedMs / 1000 - b.energisedMs / 1000) s)).modLane p (fun l => { l with energisedAt := none })
  | some _, none => s.modLane p (fun l => { l with energisedAt := none })
  | none, _ => s

/-! ## Transitions (R133) -/

/-- The lane in its new state: the pilot follows at the next period boundary (R107, R133), and in LOCKOUT at once, as a fault opening
does. DESIGN CHOICE (log 168). unsafe. -/
def Lane.enter (l : Lane) (st : PortState) (n time : Nat) : Lane :=
  let x : Lane := { l with state := st, transition := n, stateTime := time, nextDrive := st.drive }
  if st = .lockout then { x with drive := .low, duty := 0 } else x

/-- A transition: state, number and time, pilot drive, Lantern's message and the queue entry (R131, R133, R147). -/
def transit (p : Port) (n : Nat) (st : PortState) (s0 : State) : State :=
  let old := (s0.lane p).state
  let s := if old = .energised then creditEnergised p s0 else s0
  let s1 := s.modLane p (fun l => l.enter st n s.time)
  let l := s1.lane p
  post (some p) (.portState old.code st.code n l.session (pilotCode l.confirmed) l.cable)
    (trace 2 0x01 (le 1 p.val ++ le 1 old.code ++ le 1 st.code ++ le 1 n) s1)

/-- A signature wanted by the Keep itself for a session: kinds 2 and 3 (R344). -/
def wantSessionRecord (kind : Nat) (c : Channel) (b : SessionBody) (s : State) : State :=
  if s.cupola.zeroized then s
  else
    let j : SignJob := ⟨kind, b.port.val, c.handle, 0, zeros 6, none, some b⟩
    if s.legal.signing.length < 16 then s.withLegal { s.legal with signing := s.legal.signing ++ [j] }
    else s.withLegal { s.legal with waitingRecords := s.legal.waitingRecords ++ [j] }

/-- SESSION_ENDED or SESSION_INTERRUPTED content (R147). -/
def sessionEndPayload (handle : Nat) (b : SessionBody) : List Byte :=
  le 4 handle ++ le 1 b.port.val ++ le 1 b.endReason ++ [0, 0] ++ le 8 (b.startEai.getD 0) ++ le 8 (b.endEai.getD 0)
    ++ le 6 b.endTime

/-- The completion of requests that wait for a session's end (R145). -/
def settleStops (handle : Nat) (payload : List Byte) (s : State) : State :=
  let mine := s.rotunda.waiting.filter (fun w => w.opcode == 0x0405 && w.handle == handle)
  mine.foldl (fun s w => finish w stOk payload s)
    (s.withRotunda { s.rotunda with waiting := s.rotunda.waiting.filter (fun w => !(w.opcode == 0x0405 && w.handle == handle)) })

/-- A live session ends with a reason (R133, R137); its end value is that of the next latch, so its event waits, save for a
reservation, which never had energy: for every reason its event comes at once with zeros, as R145 has it for a stop (DESIGN CHOICE, log 196;
unsafe). A stop that has not taken effect has nothing left to stop. -/
def endPortSession (p : Port) (reason : Nat) (s0 : State) : State :=
  let s := s0.modLane p (fun l => { l with stopRequest := false, stopped := false })
  match s.portSession p with
  | none => s
  | some (c, b) =>
    if b.state.live then
      if b.state = .reserved then
        let b2 := { b with state := .ended, endReason := reason, endTime := s.time, endBilled := s.keep.billing, startEai := some 0, endEai := some 0 }
        let pay := sessionEndPayload c.handle b2
        settleStops c.handle pay (raise 0x8043 (some p) pay (setSession c b2 s))
      else
        setSession c { b with
          state := .ended, endReason := reason, endTime := s.time, endBilled := s.keep.billing, endLatch := s.keep.latched.seq, endPending := true } s
    else s

/-- SESSION_BEGUN's queue entry (R147). -/
def postBegun (p : Port) (s : State) : State :=
  match s.portSession p with
  | some (c, b) => post (some p) (.sessionBegun c.handle b.state.code b.cable) s
  | none => s

/-- A session becomes AUTHORISED (R136, R137, R144), with its queue entry and its signed start record (R344). -/
def authoriseSession (p : Port) (source cap : Nat) (identity : List Byte) (s : State) : State :=
  match s.portSession p with
  | none => s
  | some (c, b) =>
    let b2 : SessionBody := { b with
      state := .authorised, authSource := source, authTime := s.time, authBilled := s.keep.billing, capMa := cap, identity := fit 16 identity
      wasAuthorised := true }
    let s1 := setSession c b2 s
    wantSessionRecord 2 c b2 (post (some p) (.sessionAuthorised c.handle source cap) s1)

/-- A body of a session just made; its cable is the first code accepted since T02, so none yet (R137). -/
def newSession (p : Port) (s : State) : SessionBody where
  port := p
  state := .opened
  endReason := 0
  authSource := 0
  cable := 0
  plugTime := s.time
  authTime := 0
  firstEnergised := 0
  endTime := 0
  startEai := none
  endEai := none
  capMa := 0
  peakMa := 0
  prevHandle := 0
  holdS := 0
  energisedMs := 0
  identity := zeros 16
  preAuthorised := false
  openedAt := s.now
  startLatch := s.keep.latched.seq
  endLatch := 0
  startWord := 0
  startSticky := 0
  endWord := 0
  endSticky := 0
  wasAuthorised := false
  endPending := false
  plugBilled := s.keep.billing
  authBilled := 0
  endBilled := 0
  restored := false

/-- The port's session channel replaced by a new one (R79, R136). -/
def replaceSession (p : Port) (b : SessionBody) (s : State) : State :=
  let s1 := match s.portSession p with
    | some (c, _) => destroyChannel c 0x8021 2 s
    | none => s
  match createChannel (.session b) none 0xFF s1 with
  | some (h, s2) => s2.modLane p (fun l => { l with session := h, interrupted := false })
  | none => s1

/-- A continuation of an interrupted session (R138): its start value is the other's end value, of the same latch (R338). SESSION_BEGUN shows it OPEN, and SESSION_AUTHORISED follows. DESIGN CHOICE (log 169).
unsafe. -/
def continueSession (p : Port) (source cap : Nat) (identity : List Byte) (s : State) : State :=
  match s.portSession p with
  | none => s
  | some (c, old) =>
    let b : SessionBody := { newSession p s with
      plugTime := (s.lane p).connectedTime, plugBilled := (s.lane p).connectedBilled, prevHandle := c.handle
      startEai := some (old.endEai.getD 0), startLatch := old.endLatch, startWord := old.endWord, startSticky := old.endSticky }
    authoriseSession p source cap identity (postBegun p (replaceSession p b s))

/-- The conditions of an automatic continuation (R138). -/
def State.resumes (s : State) (p : Port) : Bool :=
  match s.portSession p with
  | some (_, b) =>
    b.state == .interrupted && b.wasAuthorised && (s.lane p).unbroken
      && decide (s.power.bootTime ≤ b.endTime + 1000 * s.cfg 0x0208 p.val) && decide (0 < s.cfg 0x0208 p.val)
  | none => false

/-- The session of T02: the port's reservation adopted, or a new session; SESSION_BEGUN carries its state (R136, R147): OPEN before the
authorisation that free mode gives at the same T02, AUTHORISED for a reservation opened pre-authorised. DESIGN CHOICE (log 169).
unsafe. -/
def beginSession (p : Port) (s : State) : State :=
  match s.portSession p with
  | some (c, b) =>
    if b.state = .reserved then
      postBegun p (setSession c { b with
        state := if b.preAuthorised then .authorised else .opened
        plugTime := s.time, plugBilled := s.keep.billing, startLatch := s.keep.latched.seq } s)
    else postBegun p (replaceSession p (newSession p s) s)
  | none => postBegun p (replaceSession p (newSession p s) s)

/-- The authorisation that T02 gives by itself: a pre-authorised reservation (source 1), or free mode (source 4) (R136). -/
def authoriseAtBegin (p : Port) (s : State) : State :=
  match s.portSession p with
  | some (_, b) =>
    if b.preAuthorised then authoriseSession p 1 b.capMa b.identity s
    else if s.cfg 0x0204 p.val == 1 then authoriseSession p 4 b.capMa b.identity s
    else s
  | none => s

/-- T02: the vehicle is connected; a reservation is adopted, a session is made, or an interrupted one is kept (R135, R136). -/
def connect (p : Port) (s : State) : State :=
  let s1 := s.modLane p (fun l => { l with connectedTime := s.time, connectedBilled := s.keep.billing, denied := false })
  if (s1.lane p).interrupted then
    let s2 := transit p 2 .connected s1
    if s2.resumes p then
      match s2.portSession p with
      | some (_, b) => continueSession p 5 b.capMa b.identity s2
      | none => s2
    else s2
  else transit p 2 .connected (authoriseAtBegin p (beginSession p s1))

/-- Requests that wait for a port: PORT_ENABLE and PORT_DISABLE name its handle (R142). -/
def settlePort (op : Nat) (p : Port) (status : Nat) (s : State) : State :=
  let mine := s.rotunda.waiting.filter (fun w => w.opcode == op && w.handle == portHandle p)
  mine.foldl (fun s w => finish w status [] s)
    (s.withRotunda { s.rotunda with
      waiting := s.rotunda.waiting.filter (fun w => !(w.opcode == op && w.handle == portHandle p)) })

/-! ## Drives and switch outcomes -/

/-- Contactor drive on or off (R116); opening the contactor voids the residual test (R237). -/
def setCtd (p : Port) (on : Bool) (s : State) : State :=
  s.modLane p (fun l =>
    if l.ctd = on then l
    else { l with ctd := on, ctdChangedAt := s.now, testPassed := l.testPassed && on })

def setPbd (p : Port) (on : Bool) (s : State) : State := s.modLane p (fun l => { l with pbd := on })

/-- Kinds of SWITCH_OUTCOME (R147). -/
def kindClosing : Nat := 0
def kindNormal : Nat := 1
def kindUrgent : Nat := 2
def kindFault : Nat := 3
def kindReadmit : Nat := 4

/-- The durations that PORT_DIAG shows follow every sequence that ends, however it ends; a fault opening is an opening (R146).
DEDUCED (log 186). unsafe. -/
def Lane.lasted (l : Lane) (kind ticks : Nat) : Lane :=
  if kind = kindClosing then { l with closeDuration := ticks }
  else if kind = kindReadmit then l
  else { l with openDuration := ticks }

/-- The outcome of a sequence that ended at `end_`, with its duration in 0.1 ms (R147, R571). -/
def postOutcomeAt (p : Port) (kind result start end_ : Nat) (s : State) : State :=
  let ticks := sat 65535 ((end_ - start) * 10)
  let l := s.lane p
  post (some p) (.switchOutcome kind result l.timed l.blind ticks) (s.modLane p (fun l => l.lasted kind ticks))

/-- The outcome of a sequence that ends now. -/
def postOutcomeOf (p : Port) (kind result start : Nat) (s : State) : State := postOutcomeAt p kind result start s.now s

/-- The reference phase of a port (R123). -/
def refPhase (map : Nat) : Phase := if map = 2 then 1 else if map = 3 then 2 else 0

end Sys2Proof.Machine
end

