-- ==== Sys2Proof/Machine/SteepleOps.lean ====
section
/-! DEFINITION. Steeple's operations: permits and fault openings, the fault record, the decision of a fault with its dependence,
escalation, degraded mode and lock-out (chapter 08). -/

namespace Sys2Proof.Machine

/-! ## Fault codes (R241, R242) -/

def fDc : Nat := 0x0101
def fAc : Nat := 0x0102
def fHigh : Nat := 0x0103
def fTest : Nat := 0x0104
def fSensor : Nat := 0x0105
def fTrip : Nat := 0x0201
def fTone : Nat := 0x0202
def fComparator : Nat := 0x0203
def fBandE : Nat := 0x0301
def fBandF : Nat := 0x0302
def fDiode : Nat := 0x0303
def fOutOfBand : Nat := 0x0304
def fFeedback : Nat := 0x0401
def fNotConduct : Nat := 0x0402
def fWeld : Nat := 0x0403
def fNotBlock : Nat := 0x0404
def fPe : Nat := 0x0501
def fStopBit : Nat := 0x0601
def fTgLoss : Nat := 0x0602
def fTgDiffer : Nat := 0x0603
def fTgPath : Nat := 0x0604
def fEstop : Nat := 0x0701
def fEstopSplit : Nat := 0x0702
def fEstopTest : Nat := 0x0703
def fLockstep : Nat := 0x0801
def fClock : Nat := 0x0802
def fDeviation : Nat := 0x0803
def fSupply : Nat := 0x0804
def fMemory : Nat := 0x0805
def fTurret : Nat := 0x0806
def fSelfTest : Nat := 0x0807
def fGuard : Nat := 0x0901

/-- Function of a code: 1 to 8 for SF1 to SF8, 9 for GRD (R241). -/
def faultFunction (code : Nat) : Nat := code / 256

/-- Faults of port scope (R242). -/
def portScope (code : Nat) : Bool := decide (faultFunction code ≤ 4)

/-- Record kinds (R272). -/
def kPortLock : Nat := 1
def kHubLock : Nat := 2
def kDegraded : Nat := 3
def kEscalation : Nat := 4
def kDependent : Nat := 5
def kRepeat : Nat := 6
def kLeft : Nat := 7
def kEarlyEnd : Nat := 8
def kDegradedEnd : Nat := 9
def kSrstStuck : Nat := 10
def kSupplyStop : Nat := 11
def kWindowExpired : Nat := 12

/-! ## State of Steeple -/

/-- Steeple runs: its clock CD1 is good and it is not held (R19, R234). -/
def State.steepleUp (s : State) : Bool := s.up .cd1

def State.portLock (s : State) (p : Port) : Lockout := s.steeple.ports[p]

/-- What Steeple has to keep in the Safety region (R41, R257, R270). -/
def Steeple.safety (t : Steeple) : SafetyCopy :=
  ⟨t.hub, t.ports, t.hubDegraded, t.portDegraded, t.committed, t.commitTime, t.nextIndex⟩

/-- What Steeple has decided has reached the Safety region of MRAM (R271 Y9). -/
def Steeple.storeSafety (t : Steeple) : Steeple := { t with stored := t.safety, committing := false }

/-- The lock-out state has reached the Safety region, a commit being written there or not (R257, R262). -/
def Steeple.storeLocks (t : Steeple) : Steeple :=
  { t with stored := { t.safety with block := t.stored.block, commitTime := t.stored.commitTime } }

/-- Safety parameters confirmed: a block has been committed (R285). -/
def State.confirmed (s : State) : Bool := s.steeple.committed.isSome

/-- One enable bit of the committed block (R278). -/
def State.enable (s : State) (i : Nat) : Bool :=
  match s.steeple.committed with
  | some b => bit b.enables i
  | none => false

def State.shtEnabled (s : State) : Bool := s.enable 3
def State.estopEnabled (s : State) : Bool := s.enable 2
def State.peEnabled (s : State) : Bool := s.enable 1
def State.telegramEnabled (s : State) : Bool := s.enable 4

/-- A lock-out or a degraded mode is in force (R252). -/
def State.faultLow (s : State) : Bool :=
  s.steeple.hub.active || s.steeple.ports.toList.any (·.active) || s.steeple.hubDegraded.isSome
    || s.steeple.portDegraded.toList.any (·.isSome) || s.steeple.cd1Lost.isSome

/-- Conditions under which a port's permit may be present (R238). -/
def State.permitAllowed (s : State) (p : Port) : Bool :=
  s.confirmed && !s.steeple.hub.active && !(s.portLock p).active && !s.steeple.supplyStop && s.steeple.selfTest
    && s.steeple.cd1Lost.isNone

/-- A permit set or removed, with Lantern's message (R566). -/
def setPermit (p : Port) (v : Bool) (s : State) : State :=
  if s.steeple.permits[p] = v then s
  else trace 1 0x05 (le 1 p.val ++ le 1 (b1 v)) (s.withSteeple { s.steeple with permits := s.steeple.permits.set p v })

def setProbe (p : Port) (v : Bool) (s : State) : State :=
  let s1 := s.withSteeple { s.steeple with probes := s.steeple.probes.set p v }
  if v then trace 1 0x05 (le 1 p.val ++ [2]) s1 else s1

/-- Every permit that may be present is (R238, R510). -/
def grantPermits (s : State) : State :=
  allPorts.foldl (fun s p => if s.permitAllowed p then setPermit p true s else s) s

/-! ## Fault record (R272) -/

/-- Entries of a lock-out or degraded mode still in force are not overwritten while others are there. -/
def State.recordHeld (s : State) (i : Nat) : Bool :=
  s.steeple.hub.faults.any (·.index == i) || s.steeple.ports.toList.any (fun l => l.faults.any (·.index == i))
    || s.steeple.hubDegraded.any (·.index == i) || s.steeple.portDegraded.toList.any (fun d => d.any (·.index == i))

/-- The record without the entry a new one overwrites. -/
def evict (held : Nat → Bool) (r : List FaultEntry) : List FaultEntry :=
  if r.length < 256 then r
  else
    match r.find? (fun e => !held e.index) with
    | some e => r.filter (fun x => x.index ≠ e.index)
    | none => r.tail

def portByte (p : Option Port) : Nat :=
  match p with
  | some q => q.val
  | none => 0xFF

/-- An entry's 32 bytes (R272). -/
def FaultEntry.bytes (e : FaultEntry) : List Byte :=
  le 4 e.index ++ le 6 e.time ++ le 2 e.code ++ le 1 (portByte e.port) ++ le 1 e.kind ++ le 4 e.related ++ fit 8 e.detail
    ++ le 1 (b1 e.shtPulsed * 128 + b1 e.shtDisabled * 64 + b1 e.byKeytag * 32 + b1 e.bySrst * 16 + b1 e.posted * 8) ++ zeros 5

/-- Index of the entry made last. -/
def State.lastIndex (s : State) : Nat := (s.steeple.record.getLast?).elim 0 (·.index)

/-- Marks an entry may carry: SHT_N pulsed or disabled, confirmed by keytag or by SRST_N. -/
structure Marks where
  pulsed : Bool := false
  disabled : Bool := false
  keytag : Bool := false
  srst : Bool := false
  deriving DecidableEq, Repr

/-- A record entry made, and handed to Turret for the session event queue (R255, R272, R277); while a CD1 loss is being entered it
carries the time of the loss (R238). -/
def addRecord (kind code : Nat) (port : Option Port) (related : Nat) (detail : List Byte) (m : Marks) (s : State) : State :=
  let e : FaultEntry := ⟨s.steeple.nextIndex, s.steeple.cd1Lost.getD s.time, code, port, kind, related, detail, m.pulsed, m.disabled, m.keytag, m.srst,
    decide (s.turret.queue.length < 256)⟩
  let s1 := s.withSteeple { s.steeple with
    record := evict s.recordHeld s.steeple.record ++ [e], nextIndex := w32 (s.steeple.nextIndex + 1) }
  post port (.safety e) (trace 1 0x04 (le 2 code ++ le 1 (portByte port) ++ le 1 kind ++ le 4 e.index) s1)

/-! ## Fault openings (R128) -/

/-- The kind of the sequence a lane runs, with its start, for the outcome a fault opening gives it (R571). -/
def Sequence.running : Sequence → Option (Nat × Nat)
  | .none => Option.none
  | .closing _ start _ => some (kindClosing, start)
  | .opening urgent _ start _ _ => some (if urgent then kindUrgent else kindNormal, start)
  | .readmit start _ => some (kindReadmit, start)
  | .faultOpening _ _ _ => Option.none
  | .waitBandB _ _ => Option.none

/-- A port whose drives were not both idle raises its own outcome (R571). -/
def PortState.switched : PortState → Bool
  | .closing => true
  | .energised => true
  | .shed => true
  | .opening => true
  | _ => false

/-- Steeple removes a port's permit: both drives stop, the sequence is abandoned, and the checks of R128 follow, all counted from the loss of
CD1 where that has taken the permit (R238, R571). -/
def removePermit (p : Port) (s : State) : State :=
  let l := s.lane p
  let fell := s.steeple.permitsFell.getD (s.now, s.steeple.permits)
  let had := fell.2[p]
  let s1 := match l.seq.running with
    | some (kind, start) => postOutcomeAt p kind 0x84 start fell.1 s
    | none => s
  let s2 := setProbe p false (setPermit p false (setPbd p false (setCtd p false s1)))
  if had || l.state.switched then
    s2.modLane p (fun x => { x with
      timed := false, blind := false, comparator := none, enabling := false
      seq := .faultOpening fell.1 l.state.switched none
      faultOpenings := w32 (x.faultOpenings + 1)
      testResult := if x.testStep = 0 then x.testResult else 0xFE
      testStep := 0, rct := .static, afterClosing := none, shedActive := false })
  else s2

/-- T19: the port enters LOCKOUT and its session ends (R133). -/
def enterLockout (p : Port) (s : State) : State :=
  let l := s.lane p
  if l.state = .disabled ∨ l.state = .lockout then s
  else
    let s1 := transit p 19 .lockout (endPortSession p 5 s)
    let s2 := s1.modLane p (fun x => { x with stopRequest := false, stopped := false, denied := false })
    settlePort 0x0402 p stOk (settlePort 0x0401 p stLockedOut s2)

/-- The fault opening of one port with its transition. -/
def openByFault (p : Port) (s : State) : State := enterLockout p (removePermit p s)

/-! ## Shunt trip (R251) -/

/-- SHT_N driven low for 200 ms when enabled. -/
def pulseSht (p : Port) (s : State) : State :=
  if s.shtEnabled then s.withSteeple { s.steeple with shunt := s.steeple.shunt ++ [⟨p, true, s.now + 200, false⟩] } else s

/-! ## Lock-outs (R255 to R257) -/

def Lockout.hold (l : Lockout) (f : HeldFault) (pending : Bool) : Lockout :=
  { active := l.active || !pending, pending := l.pending || pending, faults := l.faults ++ [f] }

def setPortLock (p : Port) (l : Lockout) (s : State) : State :=
  s.withSteeple { s.steeple with ports := s.steeple.ports.set p l }

def setHubLock (l : Lockout) (s : State) : State := s.withSteeple { s.steeple with hub := l }

/-- The fault just recorded is held by the lock-out of a port. -/
def holdPort (p : Port) (code : Nat) (pending : Bool) (s : State) : State :=
  setPortLock p ((s.portLock p).hold ⟨s.lastIndex, code, some p, s.now, s.power.boots⟩ pending) s

/-- The fault just recorded is held by the hub lock-out. -/
def holdHub (code : Nat) (port : Option Port) (pending : Bool) (s : State) : State :=
  setHubLock (s.steeple.hub.hold ⟨s.lastIndex, code, port, s.now, s.power.boots⟩ pending) s

/-- Index of the latest entry of a lock-out, 0 when it holds none (R256). -/
def Lockout.latest (l : Lockout) : Nat := l.faults.foldl (fun m f => max m f.index) 0

/-! ## Clear conditions (R259) -/

/-- Held for `ms` since a time. -/
def State.heldFor (s : State) (since : Option Nat) (ms : Nat) : Bool :=
  match since with
  | some t => s.due (t + ms)
  | none => false

/-- The outlet channels of a port: phases A, B and C (R148). -/
def portChannels (p : Port) : List Channel88 := [⟨3 * p.val, by omega⟩, ⟨3 * p.val + 1, by omega⟩, ⟨3 * p.val + 2, by omega⟩]

/-- Modulators of the six outlet paths of a port (R148). -/
def portModulators (p : Port) : List (Fin 144) := (List.finRange 6).map (fun i => ⟨6 * p.val + i.val, by omega⟩)

/-- No path of the port is in tone lost, as its mirror entries show (R166). -/
def State.noToneLost (s : State) (p : Port) : Bool := (portChannels p).all (fun c => !s.turret.mirror[c].toneLost)

/-- The SC entries of the mirror (R148). -/
def siteChannels : List Channel88 := [72, 73, 74, 75]

/-- A channel of SC is enabled in sc_enable (R175). -/
def State.scEnabled (s : State) (c : Channel88) : Bool := bit (s.cfg 0x0302 0) (c.val - 72)

/-- Every enabled SC entry fresh for 1 s. -/
def State.siteFresh (s : State) : Bool :=
  siteChannels.all (fun c => !s.scEnabled c ||
    (!s.turret.mirror[c].stale && s.due (s.turret.mirror[c].freshSince + 1000)))

/-- Valid pairs have arrived, none late, for 1 s. -/
def State.pairsGood (s : State) : Bool :=
  s.heldFor s.steeple.telegram.goodSince 1000 &&
    decide (s.now ≤ s.steeple.telegram.lastPairAt + (s.steeple.committed.elim 0 (·.tgTimeout)))

/-- Supervised clocks good, supplies within their windows and Turret alive, for 1 s. -/
def State.hubHealthy (s : State) : Bool :=
  s.due (s.steeple.clocksGoodAt + 1000) && [Clock.crystal, .cd1, .cd2, .cd3, .cd4].all (fun c => !s.power.lostClocks.contains c)
    && s.due (s.steeple.suppliesGoodAt + 1000) && s.steeple.suppliesOut.isEmpty
    && s.due (s.steeple.aliveSince + 1000) && decide (s.now ≤ s.steeple.aliveAt + 5)

/-- The residual test of the reset has passed, and the reading has stayed below 3 mA for 1 s after it. -/
def State.residualClear (s : State) (r : ResetRun) (p : Port) : Bool :=
  match r.tests.find? (fun t => t.1 == p), (s.lane p).lowResidualSince with
  | some t, some low => s.due (max t.2 low + 1000)
  | _, _ => false

/-- Drives stopped, feedback low and no outlet voltage for 1 s. -/
def State.quiet (s : State) (p : Port) : Bool := s.heldFor (s.lane p).quietSince 1000

/-- Table: clear conditions of the port faults. -/
def State.portClears (s : State) (r : ResetRun) (p : Port) (f : HeldFault) : Bool :=
  if faultFunction f.code = 1 then s.residualClear r p
  else if f.code = fTrip then s.steeple.above[p].all (!·) && r.selfTests.contains p
  else if f.code = fTone then s.noToneLost p
  else if f.code = fComparator then r.selfTests.contains p
  else if faultFunction f.code = 3 then r.bandA.contains p
  else if f.code = fWeld then s.quiet p && s.due (f.at_ + 60000)
  else s.quiet p

/-- Table: clear conditions of the hub faults. -/
def State.hubClears (s : State) (f : HeldFault) : Bool :=
  if f.code = fPe then s.heldFor s.steeple.peGoodSince 1000
  else if f.code = fStopBit then s.pairsGood && s.heldFor s.steeple.telegram.stopClearSince 1000
  else if faultFunction f.code = 6 then s.pairsGood
  else if f.code = fEstop then s.steeple.estopA && s.steeple.estopB && decide (1 ≤ s.steeple.estopFollowed)
  else if f.code = fEstopSplit then s.steeple.estopCycled && decide (1 ≤ s.steeple.estopFollowed)
  else if f.code = fEstopTest then decide (3 ≤ s.steeple.estopFollowed)
  else if f.code = fLockstep ∨ f.code = fMemory ∨ f.code = fSelfTest then decide (f.boot < s.power.boots) && s.steeple.selfTest
  else if f.code = fGuard then s.siteFresh
  else s.hubHealthy

/-- Table: clear conditions, for one fault a lock-out holds: by its code, which in a port's lock-out may be that of D1 or D3 (R268). -/
def State.clears (s : State) (r : ResetRun) (f : HeldFault) : Bool :=
  match f.port with
  | some p => if portScope f.code then s.portClears r p f else s.hubClears f
  | none => s.hubClears f

/-- The lock-out of a scope. -/
def State.lockOf (s : State) (port : Option Port) : Lockout :=
  match port with
  | some p => s.portLock p
  | none => s.steeple.hub

/-- Codes a lock-out under reset holds that are not cleared. -/
def State.uncleared (s : State) (r : ResetRun) : List Nat :=
  ((s.lockOf r.port).faults.filter (fun f => !s.clears r f)).map (·.code)

/-- First fault not cleared, in catalogue order (R276). -/
def State.firstUncleared (s : State) (r : ResetRun) : Nat :=
  match s.uncleared r with
  | [] => 0
  | c :: cs => cs.foldl min c

/-! ## The end of a lock-out reset (R262, R276) -/

/-- The completion payload of LOCKOUT_RESET (R276). -/
def resetResult (record code : Nat) (s : State) : List Byte := le 4 record ++ le 2 code ++ le 6 s.time

/-- The pilot is steady low again on a port that the reset probed and that stays under lock-out (R131, R259). -/
def endProbe (s : State) (p : Port) : State :=
  if (s.lane p).state = .lockout ∨ (s.lane p).state = .disabled then s.modLane p (fun l => l.steady .low) else s

/-- A residual test is abandoned: its result reads 0xFE (R248). -/
def Lane.abandonTest (l : Lane) : Lane :=
  { l with testForReset := false, testStep := 0, rct := .static, testResult := 0xFE, comparator := none }

/-- A residual test that runs for the reset is abandoned (R248). -/
def endResetTest (s : State) (p : Port) : State := s.modLane p (fun l => if l.testForReset then l.abandonTest else l)

/-- Ports whose faults a lock-out holds. -/
def Lockout.ports (l : Lockout) : List Port := l.faults.filterMap (·.port)

/-- One reset ends with a status. -/
def endReset (r : ResetRun) (status record code : Nat) (s : State) : State :=
  let s1 := s.withSteeple { s.steeple with
    resets := s.steeple.resets.filter (fun x => x.request ≠ r.request)
    window := match s.steeple.window with
      | some w => if w.port = r.port then none else some w
      | none => none }
  let s2 := ((s.lockOf r.port).ports ++ r.port.toList).foldl endResetTest s1
  let s3 := (r.probing.map (·.1) ++ r.bandA).foldl endProbe s2
  postOutcome r.request status (resetResult record code s) s3

/-- The first of a reset's uncleared faults in catalogue order, a fault just decided among them. -/
def State.firstPresent (s : State) (r : ResetRun) (code : Nat) : Nat := (s.uncleared r).foldl min code

/-- Resets whose lock-out a fault decision concerned end `FAULT_PRESENT` (R262, Y3). -/
def endResetsOf (code : Nat) (hit : ResetRun → Bool) (s : State) : State :=
  (s.steeple.resets.filter hit).foldl (fun s r => endReset r stFaultPresent 0 (s.firstPresent r code) s) s

/-! ## Dependence and escalation (R263, R264) -/

/-- A reaction still counts: in progress, or ended less than 10 s ago. -/
def Reaction.open_ (r : Reaction) (now : Nat) : Bool :=
  r.degraded || match r.endsAt with
    | some t => decide (now < t + 10000)
    | none => decide (now < r.at_ + 100 + 10000)

/-- Table: dependent faults, the second fault depending on the first. -/
def dependsOn (r : Reaction) (code : Nat) (port : Option Port) (ownOpening : Bool) (now : Nat) : Bool :=
  (faultFunction r.code == 1 && faultFunction code == 1 && r.port == port && r.code != code)
  || (portScope r.code && code == fWeld && ownOpening && r.port == port)
  || (r.code == fTgPath && code == fTgLoss)
  || ((r.code == fClock || r.code == fSupply) && (code == fDeviation || code == fTurret || code == fGuard)
      && decide (now ≤ r.at_ + 100))
  || (r.code == fEstop && code == fEstopSplit)

/-- The fault decided before, with the same code on the same port, that makes this a repeat (D-A). -/
def State.repeatOf (s : State) (code : Nat) (port : Option Port) : Option Nat :=
  match s.steeple.reactions.find? (fun r => r.open_ s.now && r.code == code && r.port == port) with
  | some r => some r.index
  | none =>
    let held := match port with
      | some p => (s.portLock p).faults ++ s.steeple.hub.faults
      | none => s.steeple.hub.faults
    (held.find? (fun f => f.code == code && f.port == port)).map (·.index)

/-- A reaction begins (R255). -/
def startReaction (code : Nat) (port : Option Port) (degraded : Bool) (s : State) : State :=
  s.withSteeple { s.steeple with
    reactions := s.steeple.reactions ++ [⟨s.lastIndex, code, port, s.now, none, degraded⟩] }

/-! ## Degraded mode (R265 to R270) -/

/-- The pre-break switch is verified healthy (R265); `follows` says that PBF follows PBD at the decision. -/
def State.preBreakHealthy (s : State) (p : Port) : Bool :=
  let l := s.lane p
  l.closeStep5Ok && l.openStep3Ok && l.preBreakClean && (l.pbf == l.pbd)

/-- The degraded class of a fault, 0 where it has none (R265, R266). -/
def State.degradedClass (s : State) (code : Nat) (port : Option Port) : Nat :=
  if s.power.inForce.uryan = 1 then
    if code = fTgPath then 1
    else if code = fGuard then 3
    else if code = fFeedback then
      match port with
      | some p => if s.preBreakHealthy p then 2 else 0
      | none => 0
    else 0
  else 0

/-- Degraded-mode time in ms (R269, R278). -/
def State.degradedMs (s : State) : Nat :=
  match s.steeple.committed with
  | some b => b.degradedMin * 60000
  | none => 0

/-- Degraded mode entered: permits stay, the lock-out is pending (R267, R270). -/
def enterDegraded (cls code : Nat) (port : Option Port) (s : State) : State :=
  let d : Degraded := ⟨cls, code, s.lastIndex, s.now + s.degradedMs⟩
  match port with
  | some p =>
    holdPort p code true (s.withSteeple { s.steeple with
      portDegraded := s.steeple.portDegraded.set p (some d), affected := s.steeple.affected.set p true })
  | none =>
    holdHub code none true (s.withSteeple { s.steeple with
      hubDegraded := some d, affected := Vector.replicate 24 true })

/-- Fault openings of every port (R255, R263). -/
def openAll (s : State) : State := allPorts.foldl (fun s p => openByFault p s) s

/-- A D2 port, or an affected one, ends its degraded mode in lock-out under the original code (R267 to R269). -/
def lockDegradedPort (p : Port) (code first : Nat) (s : State) : State :=
  let s1 := addRecord kDegradedEnd code (some p) first [] {} s
  let old := s1.portLock p
  let l := ({ old with faults := old.faults.filter (fun f => f.index ≠ first) } : Lockout).hold
    ⟨s1.lastIndex, code, some p, s1.now, s1.power.boots⟩ false
  let s2 := setPortLock p { l with pending := false } s1
  openByFault p (s2.withSteeple { s2.steeple with
    portDegraded := s2.steeple.portDegraded.set p none, affected := s2.steeple.affected.set p false
    overSince := s2.steeple.overSince.set p (Vector.replicate 3 none)
    reactions := s2.steeple.reactions.map (fun r =>
      if r.degraded && r.port == some p then { r with degraded := false, at_ := s2.now } else r) })

/-- D1 has ended: the reference is the last valid pair's again (R291). -/
def Telegram.endD1 (t : Telegram) : Telegram :=
  { t with remaining := none, reference := if t.pairSeen then some t.lastPairSeq else none }

/-- The hub's degraded mode is over, however it ends: the ports it affected are those of a D2 of their own, and its reaction ends with it
(R255, R268, R269). -/
def endHubMode (d : Degraded) (s : State) : State :=
  let t := s.steeple
  s.withSteeple { t with
    hubDegraded := none, affected := Vector.ofFn (fun i => t.portDegraded[i].isSome)
    overSince := Vector.ofFn (fun i => if t.portDegraded[i].isSome then t.overSince[i] else Vector.replicate 3 none)
    telegram := if d.cls = 1 then t.telegram.endD1 else t.telegram }

/-- Every degraded mode ends, as the hub safe state takes over: the lock-outs that were pending are in force, that of a port under an entry
of its own (R256, R263, R267). -/
def dropDegraded (s : State) : State :=
  let s1 := allPorts.foldl (fun s p => match s.steeple.portDegraded[p] with
    | some d => lockDegradedPort p d.code d.index s
    | none => s) s
  let s2 := s1.steeple.hubDegraded.elim s1 (fun d => endHubMode d s1)
  s2.withSteeple { s2.steeple with
    reactions := s2.steeple.reactions.map (fun r => if r.degraded then { r with degraded := false, at_ := s2.now } else r)
    hub := if s2.steeple.hub.pending then { s2.steeple.hub with active := true, pending := false } else s2.steeple.hub }

/-! ## Deciding a fault -/

/-- PBF faults end a port's clean record (R265). -/
def noteDirty (code : Nat) (port : Option Port) (s : State) : State :=
  match port with
  | some p => if code = fNotConduct ∨ code = fNotBlock then s.modLane p (fun l => { l with preBreakClean := false }) else s
  | none => s

/-- The trip latch of F-SF2-01 and the shunt of F-SF4-03 are set by their own rows; the marks of a weld's entry. -/
def weldMarks (code : Nat) (s : State) : Marks :=
  if code = fWeld then { pulsed := s.shtEnabled, disabled := !s.shtEnabled } else {}

/-- SHT_N's reaction to a weld. -/
def weldReaction (code : Nat) (port : Option Port) (s : State) : State :=
  match port with
  | some p => if code = fWeld then pulseSht p s else s
  | none => s

/-- Native reaction of a first fault (R255). -/
def nativeReaction (code : Nat) (port : Option Port) (detail : List Byte) (s : State) : State :=
  match port with
  | some p =>
    let s1 := addRecord kPortLock code port 0 detail (weldMarks code s) s
    let s2 := startReaction code port false (holdPort p code false s1)
    weldReaction code port (openByFault p s2)
  | none =>
    let s1 := addRecord kHubLock code none 0 detail {} s
    openAll (startReaction code none false (holdHub code none false s1))

/-- The hub safe state: an independent second fault (R263). -/
def escalate (code : Nat) (port : Option Port) (first : Reaction) (detail : List Byte) (s : State) : State :=
  let s1 := addRecord kEscalation code port first.index detail (weldMarks code s) s
  let held : HeldFault := ⟨first.index, first.code, first.port, first.at_, s.power.boots⟩
  let s2 := if s1.steeple.hub.faults.any (·.index == first.index) then s1
    else setHubLock (s1.steeple.hub.hold held false) s1
  let s3 := startReaction code port false (holdHub code port false s2)
  let s4 := match port with
    | some p => if (s3.portLock p).active then holdPort p code false s3 else s3
    | none => s3
  weldReaction code port (openAll (dropDegraded s4))

/-- A dependent fault joins the lock-out of its scope (R256, R264). -/
def dependent (code : Nat) (port : Option Port) (first : Reaction) (detail : List Byte) (s : State) : State :=
  let s1 := addRecord kDependent code port first.index detail (weldMarks code s) s
  let s2 := match port with
    | some p => holdPort p code false s1
    | none => holdHub code none false s1
  if first.degraded && code == fTgLoss then openAll (dropDegraded s2) else weldReaction code port s2

/-- A fault that Steeple answers with a fatal request 100 ms after the permit removal (R504 code 10). -/
def noteFatal (code : Nat) (s : State) : State :=
  if code = fLockstep ∨ code = fMemory then
    s.withSteeple { s.steeple with fatalAt := some (s.steeple.fatalAt.getD (s.now + 100)) }
  else s

/-- The treatment of a fault that is no repeat (R255, R263 to R266). -/
def decideNew (code : Nat) (port : Option Port) (detail : List Byte) (ownOpening : Bool) (s : State) : State :=
  let counted := s.steeple.reactions.filter (fun r => r.open_ s.now)
  match counted.find? (fun r => !dependsOn r code port ownOpening s.now) with
  | some r => escalate code port r detail s
  | none =>
    match counted with
    | r :: _ => dependent code port r detail s
    | [] =>
      let cls := s.degradedClass code port
      let locked := s.steeple.hub.active || port.any (fun p => (s.portLock p).active)
      if cls ≠ 0 ∧ !locked then
        enterDegraded cls code port (startReaction code port true (addRecord kDegraded code port 0 detail {} s))
      else nativeReaction code port detail s

/-- Steeple decides a fault (R242, R255, R263 to R266). `ownOpening` marks a weld found by the checks of a fault's own opening. -/
def decideFault (code : Nat) (port : Option Port) (detail : List Byte) (ownOpening : Bool) (s0 : State) : State :=
  if s0.steepleUp then
    let s := noteDirty code port s0
    match s.repeatOf code port with
    | some i =>
      endResetsOf code (fun r => (s.lockOf r.port).faults.any (fun f => f.code == code && f.port == port))
        (addRecord kRepeat code port i detail {} s)
    | none =>
      let s1 := noteFatal code (decideNew code port detail ownOpening s)
      endResetsOf code (fun r => (s.lockOf r.port).faults.length != (s1.lockOf r.port).faults.length) s1
  else s0

end Sys2Proof.Machine
end

