-- ==== Sys2Proof/Machine/SiteOps.lean ====
section
/-! DEFINITION. The SITE channel's body (R232), and the headers that follow bodies which several units set (R75). -/

namespace Sys2Proof.Machine

/-- Site current channels SC_L1 to SC_L3. -/
def siteChannel (f : Phase) : Channel88 := ⟨72 + f.val, by omega⟩

/-- SITE body flags (R232). -/
def State.siteFlags (s : State) : Nat :=
  let t := s.turret
  bits [false, false, t.siteStale, allPhases.any (fun f => t.guard[f].blind), s.dsp.frequency.isNone, t.batteryOn,
    !t.hostDiscarded, t.inputStale]

/-- One phase of the SITE body (R232). -/
def State.sitePhase (s : State) (f : Phase) : List Byte :=
  let g := s.turret.guard[f]
  let c := siteChannel f
  le 4 g.siteMa ++ leInt 4 g.room ++ le 1 g.zone
    ++ le 1 (b1 (!s.scEnabled c) * 128 + b1 (s.turret.mirror[c]).stale * 64) ++ [0, 0]
    ++ le 4 (sat 4294967295 (g.lsTimer / 1000))

/-- One port of the SITE body (R232). -/
def State.sitePort (s : State) (p : Port) : List Byte :=
  let a := s.turret.ports[p]
  le 4 a.allowance ++ le 4 a.draw ++ le 1 (s.allocIn 0x0105 p.val)
    ++ le 1 (bits [false, false, false, a.assumed, a.reclaimed, a.held, a.shed, a.candidate]) ++ [0, 0]

/-- The power budget as the body shows it: 0x7FFF_FFFF when unbounded (R232). -/
def budgetBytes (g : Option Int) : List Byte :=
  match g with
  | some mw => leInt 4 (max (-2147483648) (min 2147483646 mw))
  | none => le 4 0x7FFFFFFF

/-- SITE body, bytes 32 to 403 (R232). -/
def State.siteBody (s : State) : List Byte :=
  let t := s.turret
  le 4 t.period ++ le 6 t.boundaryTime ++ le 1 s.siteFlags ++ le 1 t.source ++ budgetBytes t.budget
    ++ (allPhases.map s.sitePhase).flatten ++ (allPorts.map s.sitePort).flatten
    ++ le 4 t.shedsHard ++ le 4 t.shedsSoft ++ le 4 t.readmits ++ le 4 t.overLh ++ le 4 t.blindSpells

/-- PORT body flags (R140). -/
def State.portFlags (s : State) (p : Port) : Nat :=
  let l := s.lane p
  bits [false, false, l.timed, l.blind, s.steeple.hub.active, s.steeple.affected[p], s.authorised p, l.enabled]

/-- A PORT channel's header follows a change of its flags byte (R75). -/
def Lane.seen (l : Lane) (flags civil : Nat) : Lane :=
  if l.flagsSeen = flags then l else { l with flagsSeen := flags, modified := w48 civil, changes := w32 (l.changes + 1) }

/-- SITE's header follows a change of its body (R75). -/
def Turret.seeSite (t : Turret) (body : List Byte) (civil : Nat) : Turret :=
  if t.siteSeen = some body then t
  else { t with siteSeen := some body, modified := w48 civil, changes := w32 (t.changes + b1 t.siteSeen.isSome) }

/-- The headers of the permanent channels whose bodies show what several units hold (R75): brought up at every boundary and publication,
at every millisecond and before a read. Changes within one of these spans count as one. DEDUCED (log 190). unsafe. -/
def stampBodies (s : State) : State :=
  let t := { s.turret with lanes := Vector.ofFn (fun p => (s.lane p).seen (s.portFlags p) s.civil) }
  s.withTurret (t.seeSite s.siteBody s.civil)

/-- A phase as ALLOC_READ shows it: as at the last boundary, save its zone and its timer (R231). -/
def State.shownPhase (s : State) (old : List Byte) (f : Phase) : List Byte :=
  let a := (old.drop (16 + 16 * f.val)).take 16
  let b := s.sitePhase f
  a.take 8 ++ (b.drop 8).take 1 ++ (a.drop 9).take 3 ++ b.drop 12

/-- ALLOC_READ's answer: the body as at the last boundary with zones and timers as of the last half-cycle (R231); before the first
boundary, the body as it is. DESIGN CHOICE (log 180). unsafe. -/
def State.allocBody (s : State) : List Byte :=
  match s.turret.siteShown with
  | some old => old.take 16 ++ allPhases.flatMap (s.shownPhase old) ++ old.drop 64
  | none => s.siteBody

end Sys2Proof.Machine
end

