-- ==== Sys2Proof/Machine/Ports.lean ====
section
/-! DEFINITION. The outlet ports (chapter 04): what a lane evaluates in each period, its switching sequences step by step, the
residual test, and the port and session commands. -/

namespace Sys2Proof.Machine

/-! ## Openings (R126, R127) -/

/-- Precedence of what an opening leads to: unplugging, PORT_DISABLE, SESSION_STOP, then a pause (R132). -/
def Target.rank : Target → Nat
  | .idle => 1
  | .disabled => 2
  | .ended => 3
  | .suspended => 4
  | .offered => 5
  | .lockout => 0

def Target.state : Target → PortState
  | .idle => .idle
  | .disabled => .disabled
  | .ended => .ended
  | .suspended => .suspended
  | .offered => .offered
  | .lockout => .lockout

def Target.first (a b : Target) : Target := if a.rank < b.rank then a else b

/-- The target of the opening in progress follows a cause of higher precedence. -/
def retarget (p : Port) (t : Target) (s : State) : State :=
  s.modLane p (fun l =>
    match l.seq with
    | .opening u k a b old => { l with seq := .opening u k a b (t.first old) }
    | .waitBandB a old => { l with seq := .waitBandB a (t.first old) }
    | _ => l)

/-- The bus section 0 voltage of the reference phase is stale or disabled: the next timed step does not wait for a crossing (R129). -/
def State.timedNow (s : State) (p : Port) : Bool :=
  let f := refPhase (s.lane p).phaseMap
  (s.turret.mirror[80 + f.val]'(by omega)).stale || !bit (s.cfg 0x0308 0) f.val

/-- A step that takes its instant from a crossing notes whether it fell back to timed switching (R129). -/
def noteTimed (p : Port) (s : State) : State := s.modLane p (fun l => { l with timed := l.timed || s.timedNow p })

/-- A sequence starts without fallbacks (R129). -/
def clearFallbacks (p : Port) (s : State) : State := s.modLane p (fun l => { l with timed := false, blind := false })

/-- An opening begins: `step` steps of R126 lie behind it. -/
def beginOpening (p : Port) (urgent : Bool) (step n : Nat) (t : Target) (s : State) : State :=
  let s1 := clearFallbacks p (if urgent then setPbd p false s else s)
  transit p n .opening (s1.modLane p (fun l => { l with
    seq := .opening urgent step s.now s.now t, afterClosing := none, openStep3Ok := l.openStep3Ok }))

/-- Power factor of a port's reference phase in units of 2^-30, from the mirror, clamped to 0 to 1 (R123); an apparent power of 0 gives
no quotient, so a free value. DESIGN CHOICE (log 185). safe. -/
def State.powerFactor (s : State) (p : Port) : Int :=
  let f := refPhase (s.lane p).phaseMap
  let c : Channel88 := if (s.lane p).phaseMap = 0 then ⟨3 * p.val + f.val, by omega⟩ else ⟨3 * p.val, by omega⟩
  let e := s.turret.mirror[c]
  let apparent : Int := e.rms * (s.turret.mirror[80 + f.val]'(by omega)).rms
  max 0 (min one30 (if apparent = 0 then Config.powerFactor e.power else e.power * 1000 * one30 / apparent))

/-- The last voltage zero crossing of a phase on bus section 0 in microseconds, from its strobe in the mirror header (R31, R152). -/
def State.crossingUs (s : State) (f : Phase) : Int :=
  let strobes := 8 * (s.now - s.dsp.releasedAt)
  s.now * 1000 - 125 * (w32 (strobes + 4294967296 - s.turret.crossing[f]) : Nat)

/-- Measured line period in microseconds; 50 Hz stands in while none has been measured (R123). -/
def State.periodUs (s : State) : Nat := if s.dsp.lastFrequency = 0 then 20000 else 1000000000 / s.dsp.lastFrequency

/-- The current-zero instant an opening uses, in microseconds: the first at least 200 µs after its request, one every half period (R123). -/
def State.currentZeroUs (s : State) (p : Port) (request : Nat) : Int :=
  let first := s.crossingUs (refPhase (s.lane p).phaseMap) + (acos30 (s.powerFactor p) * s.periodUs / 65536 : Nat)
  let half : Int := s.periodUs / 2
  first - (first - (request * 1000 + 200)) / half * half

/-- A normal opening from where the port stands (T12, K5, K6): from SHED at step 4, from CLOSING before step 4 with its outcome. -/
def normalOpening (p : Port) (n : Nat) (t : Target) (s : State) : State :=
  let l := s.lane p
  match l.seq with
  | .closing step start _ =>
    if step < 4 then beginOpening p false 3 n t (postOutcomeOf p kindClosing 0x82 start s)
    else s.modLane p (fun x => { x with afterClosing := some (match x.afterClosing with
      | some o => t.first o
      | none => t) })
  | _ => beginOpening p false (if l.pbd then 1 else 3) n t s

/-- An urgent opening (T14, R127): PBD stops at once; from CLOSING with its outcome (K7). A residual test that it cuts short leaves
test_result at that of the test before: R146 has no code for it. DESIGN CHOICE (log 170). unsafe. -/
def urgentOpening (p : Port) (t : Target) (s : State) : State :=
  match (s.lane p).seq with
  | .closing _ start _ => beginOpening p true 2 14 t (postOutcomeOf p kindClosing 0x83 start s)
  | _ => beginOpening p true 2 14 t (s.modLane p (fun l => { l with testStep := 0, rct := .static, comparator := none }))

/-- T13: PWM stops, and the opening starts at band B or 3000 ms later; from CLOSING as K5 and K6 state. -/
def allowanceOpening (p : Port) (s : State) : State :=
  match (s.lane p).seq with
  | .closing step _ _ => if step < 4 then stopPwm p (normalOpening p 13 .suspended s) else normalOpening p 13 .suspended s
  | _ =>
    stopPwm p (transit p 13 .opening (s.modLane p (fun l => { l with seq := .waitBandB s.now .suspended })))

/-- Unplugging ends the wait of T13: PBD stops and the opening runs from step 3 (R127). DEDUCED (log 154). unsafe. -/
def unplugWaiting (p : Port) (s : State) : State :=
  clearFallbacks p (setPbd p false (s.modLane p (fun l => { l with seq := .opening true 2 s.now s.now .idle })))

/-- The wait of T13 is over: the opening starts. -/
def startWaiting (p : Port) (t : Target) (s : State) : State :=
  clearFallbacks p (s.modLane p (fun l => { l with seq := .opening false (if l.pbd then 1 else 3) s.now s.now t }))

/-- PORT_DISABLE completes; the enable was cleared as the command was accepted, and a PORT_ENABLE since then stands (R142). -/
def finishDisable (p : Port) (s : State) : State :=
  settlePort 0x0402 p stOk (s.modLane p (fun l => { l with disableRequest := none }))

/-- T15: the opening has run to step 8; the port reaches its target, and a session that was stopped, unplugged or disabled ends. -/
def reachTarget (p : Port) (t : Target) (s : State) : State :=
  let stopped := (s.lane p).stopped
  let reason := (s.lane p).stopReason
  let s1 := transit p 15 t.state (s.modLane p (fun l => { l with seq := .none, shedActive := false }))
  let s2 := match t with
    | .idle => endPortSession p (if stopped then reason else 2) s1
    | .ended => endPortSession p reason s1
    | .disabled => finishDisable p (endPortSession p 4 s1)
    | .offered => s1
    | .suspended => s1
    | .lockout => s1
  let s3 := s2.modLane p (fun l => { l with stopped := false })
  match s3.steeple.portDegraded[p] with
  | some d => lockDegradedPort p d.code d.index s3
  | none => s3

/-! ## What a lane evaluates in order (R132) -/

def PilotClass.vehicle : PilotClass → Bool
  | .b => true
  | .c => true
  | .d => true
  | .a => false
  | .e => false
  | .f => false
  | .diode => false
  | .out => false

/-- Band C, or band D with ventilation: the vehicle asks for energy that may be given (R133, R139). -/
def State.asks (s : State) (p : Port) : Bool :=
  match (s.lane p).confirmed with
  | some .c => true
  | some .d => s.cfg 0x0207 p.val == 1
  | _ => false

/-- Band D without ventilation. -/
def State.unventilated (s : State) (p : Port) : Bool :=
  (s.lane p).confirmed == some .d && s.cfg 0x0207 p.val != 1

/-- PORT_DISABLE acts now: mode 1, or mode 0 once no session is live (R142). -/
def State.disableDue (s : State) (p : Port) : Bool :=
  match (s.lane p).disableRequest with
  | some 0 => !s.sessionLive p
  | some _ => true
  | none => false

/-- States in which the port's contactor may be closed (R139). -/
def PortState.busy : PortState → Bool
  | .testing => true
  | .closing => true
  | .energised => true
  | .shed => true
  | .opening => true
  | _ => false

/-- T16: the vehicle has gone (R133), and an INTERRUPTED session holds its port no longer: the next vehicle has a session of its own (R135,
R138). DEDUCED (log 177). unsafe. -/
def leave (p : Port) (s : State) : State :=
  transit p 16 .idle (endPortSession p 1 (s.modLane p (fun l => { l with denied := false, stopRequest := false, interrupted := false })))

/-- Unplugging, the first input of R132. -/
def evalUnplug (p : Port) (s : State) : Option State :=
  let l := s.lane p
  let gone := l.confirmed == some .a
  match l.state with
  | .connected => if gone then some (leave p s) else none
  | .offered => if gone then some (leave p s) else none
  | .suspended => if gone then some (leave p s) else none
  | .ended => if gone then some (leave p s) else none
  | .cableRefused => if gone then some (leave p s) else none
  | .testing => if gone || l.cableChanged then some (urgentOpening p .idle s) else none
  | .closing => if gone || l.cableChanged then some (urgentOpening p .idle s) else none
  | .energised => if gone || l.cableChanged then some (urgentOpening p .idle s) else none
  | .shed => if gone || l.cableChanged then some (urgentOpening p .idle s) else none
  | .opening =>
    if gone then
      match l.seq with
      | .waitBandB _ _ => some (unplugWaiting p s)
      | _ => none
    else none
  | .disabled => none
  | .idle => none
  | .lockout => none

/-- PORT_DISABLE, the second input. -/
def evalDisable (p : Port) (s : State) : Option State :=
  if s.disableDue p then
    match (s.lane p).state with
    | .testing => none
    | .disabled => some (finishDisable p s)
    | .lockout => some (finishDisable p s)
    | .closing => if (s.lane p).afterClosing == some .disabled then none else some (normalOpening p 12 .disabled s)
    | .energised => some (normalOpening p 12 .disabled s)
    | .shed => some (normalOpening p 12 .disabled s)
    | .opening => none
    | .idle => some (finishDisable p (transit p 18 .disabled (endPortSession p 4 s)))
    | .connected => some (finishDisable p (transit p 18 .disabled (endPortSession p 4 s)))
    | .offered => some (finishDisable p (transit p 18 .disabled (endPortSession p 4 s)))
    | .suspended => some (finishDisable p (transit p 18 .disabled (endPortSession p 4 s)))
    | .ended => some (finishDisable p (transit p 18 .disabled (endPortSession p 4 s)))
    | .cableRefused => some (finishDisable p (transit p 18 .disabled (endPortSession p 4 s)))
  else none

/-- T17. -/
def stopSession (p : Port) (s : State) : State :=
  let reason := (s.lane p).stopReason
  transit p 17 .ended (endPortSession p reason (s.modLane p (fun l => { l with denied := false })))

/-- A normal opening for SESSION_STOP; the stop is noted for its end (R145). -/
def stopByOpening (p : Port) (s : State) : State :=
  normalOpening p 12 .ended (s.modLane p (fun l => { l with stopRequest := false, stopped := true }))

/-- SESSION_STOP, and a denial waiting to take T17, the third input. -/
def evalStop (p : Port) (s : State) : Option State :=
  let l := s.lane p
  if l.stopRequest then
    match l.state with
    | .testing => none
    | .connected => some (stopSession p s)
    | .offered => some (stopSession p s)
    | .suspended => some (stopSession p s)
    | .closing => some (stopByOpening p s)
    | .energised => some (stopByOpening p s)
    | .shed => some (stopByOpening p s)
    | .opening => none
    | .disabled => none
    | .idle => none
    | .ended => none
    | .cableRefused => none
    | .lockout => none
  else if l.denied then
    if l.state = .connected ∨ l.state = .offered ∨ l.state = .suspended then
      some (transit p 17 .ended (s.modLane p (fun x => { x with denied := false })))
    else none
  else none

/-- T06: the residual test starts (R130); the contactor is open. -/
def startTest (p : Port) (s : State) : State :=
  transit p 6 .testing (s.modLane p (fun l => { l with
    testStep := 1, testStart := s.now, rct := .static, testPassed := false, comparator := some s.now }))

/-- A confirmed band, the fourth input. -/
def evalBand (p : Port) (s : State) : Option State :=
  let l := s.lane p
  match l.state with
  | .idle => if l.confirmed.any (·.vehicle) then some (connect p s) else none
  | .connected => if s.unventilated p then some (transit p 5 .suspended s) else none
  | .offered =>
    if s.unventilated p then some (transit p 5 .suspended s)
    else if s.asks p && !s.power.holdUp then some (startTest p s) else none
  | .closing =>
    if l.confirmed == some .b && l.afterClosing.isNone then some (normalOpening p 12 .offered s)
    else if s.unventilated p && l.afterClosing.isNone then some (normalOpening p 12 .suspended s) else none
  | .energised =>
    if l.confirmed == some .b then some (normalOpening p 12 .offered s)
    else if s.unventilated p then some (normalOpening p 12 .suspended s) else none
  | .shed =>
    if l.confirmed == some .b then some (normalOpening p 12 .offered s)
    else if s.unventilated p then some (normalOpening p 12 .suspended s) else none
  | .opening =>
    match l.seq with
    | .waitBandB _ t => if l.confirmed == some .b then some (startWaiting p t s) else none
    | _ => none
  | .disabled => none
  | .suspended => none
  | .testing => none
  | .ended => none
  | .cableRefused => none
  | .lockout => none

/-- The allowance and the authorisation, the last two inputs: T04, T05, T13 (R133). T04 from SUSPENDED does not act while band D without
ventilation stands confirmed: T05 would undo it at the next boundary. DEDUCED (log 171). unsafe. -/
def evalAllowance (p : Port) (s : State) : Option State :=
  let l := s.lane p
  let enough := decide (6000 ≤ s.appliedAllowance p)
  let offer := s.authorised p && enough && s.cableOk p
  match l.state with
  | .connected =>
    if offer then some (transit p 4 .offered s)
    else if s.authorised p && !enough then some (transit p 5 .suspended s) else none
  | .suspended => if offer && !s.unventilated p then some (transit p 4 .offered s) else none
  | .offered => if !enough then some (transit p 5 .suspended s) else none
  | .closing => if !enough && l.afterClosing.isNone then some (allowanceOpening p s) else none
  | .energised => if !enough then some (allowanceOpening p s) else none
  | .shed => if !enough then some (allowanceOpening p s) else none
  | .disabled => none
  | .idle => none
  | .testing => none
  | .opening => none
  | .ended => none
  | .cableRefused => none
  | .lockout => none

/-- T01: an enabled port leaves DISABLED once nothing forbids it; a closed contact then is a weld (R133, R135). Its comparators are
tested (R248), and PORT_ENABLE completes with that test, since a fault found in it is its `LOCKED_OUT` (R142). DEDUCED (log 165). unsafe. -/
def evalEnable (p : Port) (s : State) : Option State :=
  let l := s.lane p
  if l.state == .disabled && l.enabled && !l.ignored && s.confirmed && s.steeple.selfTest && !s.steeple.hub.active
      && !(s.portLock p).active && l.disableRequest.isNone then
    match l.seq with
    | .none =>
      if l.ctf || l.ovs then some (decideFault fWeld (some p) [] false (transit p 1 .idle s))
      else some ((transit p 1 .idle (setPermit p (s.permitAllowed p) s)).modLane p (fun l => { l with comparator := some s.now, enabling := true }))
    | _ => none
  else none

/-- The opening in progress leads to IDLE: the vehicle has gone. -/
def State.unplugging (s : State) (p : Port) : Bool :=
  match (s.lane p).seq with
  | .opening _ _ _ _ t => t == .idle
  | .waitBandB _ t => t == .idle
  | _ => false

/-- What stands at a boundary gives an opening in progress its target: no transition, so that the inputs after it are still evaluated
(R132). A stop that comes once the vehicle has gone no longer takes effect, and the session ends as unplugged (R145). -/
def retargetOpening (p : Port) (s0 : State) : State :=
  if (s0.lane p).state = .opening then
    let s1 := if (s0.lane p).confirmed = some .a then retarget p .idle s0 else s0
    let s2 := if s1.disableDue p then retarget p .disabled s1 else s1
    if (s2.lane p).stopRequest && !s2.unplugging p then
      retarget p .ended (s2.modLane p (fun x => { x with stopRequest := false, stopped := true }))
    else s2
  else s0

/-- The first input that causes a transition decides it (R132). -/
def evaluateInputs (p : Port) (s0 : State) : State :=
  let s := retargetOpening p s0
  match evalUnplug p s with
  | some t => t
  | none =>
    match evalDisable p s with
    | some t => t
    | none =>
      match evalStop p s with
      | some t => t
      | none =>
        match evalEnable p s with
        | some t => t
        | none =>
          match evalBand p s with
          | some t => t
          | none => (evalAllowance p s).getD s

/-! ## The evaluation period (R107 to R115, R131) -/

/-- Settling time applied: the configured one, or the high time less 8 µs (R109). -/
def settleUsed (settle duty : Nat) : Nat := min settle (duty - 8)

/-- The samples of the high plateau: under PWM from the settling time to 3 µs before the falling edge, else the last 900 µs (R109). -/
def highWindow (pwm : Bool) (settle duty : Nat) (cps : List Nat) : List Nat :=
  if pwm then (cps.drop (settleUsed settle duty)).take (duty - 3 - settleUsed settle duty) else (cps.drop 100).take 900

/-- The samples of the low plateau, under PWM alone: from the settling time after the falling edge to 3 µs before the next rising one. -/
def lowWindow (pwm : Bool) (settle duty : Nat) (cps : List Nat) : List Nat :=
  if pwm then (cps.drop (duty + settleUsed settle duty)).take (997 - (duty + settleUsed settle duty)) else []

/-- Vpilot in mV of `n` converter codes that sum to `sum`, with VDDA in µV: a code counts 1/4096 of VDDA, the converter's range (SE01), and
Pnn_CPS is 0.900 V + 0.0600 × Vpilot (R106, R108). The mean is rounded once, down to a whole mV. DESIGN CHOICE (log 172). unsafe. -/
def pilotMv (sum n vdda : Nat) : Int := ((sum * vdda : Nat) - (900000 * 4096 * n : Nat) : Int) / (60 * 4096 * n : Nat)

/-- The plateau of a window; an empty one has none. -/
def plateau (vdda : Nat) (w : List Nat) : Option Int := if w.isEmpty then none else some (pilotMv w.sum w.length vdda)

/-- One sample of Pnn_CTF: the filtered level follows 50 equal samples, which is 5 ms (R120; DESIGN CHOICE, log 173; unsafe). A change of
the filtered level that CTD has not caused in the 50 ms before begins to count, and a change back ends it. -/
def Lane.filterCtf (now : Nat) (l : Lane) (c : Bool) : Lane :=
  if c = l.ctf then { l with ctfRun := 0 }
  else if l.ctfRun + 1 < 50 then { l with ctfRun := l.ctfRun + 1 }
  else { l with ctf := c, ctfRun := 0, ctfOdd := if l.ctfOdd.isSome ∨ now < l.ctdChangedAt + 50 then none else some now }

/-- The filtered CTF as a check of a sequence found it. -/
def Lane.seeCtf (l : Lane) (c : Bool) : Lane := { l with ctf := c, ctfRun := 0, ctfOdd := none }

/-- What Steeple takes from one period, from the pins themselves (R112, R235): the pilot's classification, feedback and residual
readings. -/
def sampleSteeple (x : LaneSample) (settle now : Nat) (l0 : Lane) : Lane :=
  let l := x.ctf.foldl (Lane.filterCtf now) l0
  let pwm := l.drive == .pwm
  let high := (plateau x.vdda (highWindow pwm settle l.duty x.cps)).getD l.highMv
  let low := plateau x.vdda (lowWindow pwm settle l.duty x.cps)
  let cls := classify high low
  let quiet := !l.ctf && !x.pbf && !l.ovs && !l.ctd && !l.pbd
  { l with
    highMv := high
    lowMv := low
    lastClass := some cls
    classRun := if l.lastClass = some cls then sat 255 (l.classRun + 1) else 1
    pbf := x.pbf
    rcsDc := x.rcsDc
    rcsAc := x.rcsAc
    rcsRms := x.rcsRms
    quietSince := if quiet then some (l.quietSince.getD now) else none
    lowResidualSince := if x.rcsRms < 30 then some (l.lowResidualSince.getD now) else none }

/-- What Turret takes from one period besides: settings, the window used and the proximity. -/
def sampleTurret (x : LaneSample) (mode map settle : Nat) (l : Lane) : Lane :=
  let pwm := l.drive == .pwm
  let l1 : Lane := if l.state.busy then l
    else if l.portMode = mode then { l with phaseMap := map }
    else { l with portMode := mode, phaseMap := map, cable := 0, ppRun := 0, ppBand := 0 }
  let band := proximityCode x.pps x.vdda
  { l1 with
    window := sat 255 (highWindow pwm settle l1.duty x.cps).length
    settleUsed := if pwm then settleUsed settle l1.duty else l1.settleUsed
    ppOhm := proximityOhm x.pps x.vdda
    ppBand := if l1.portMode = 1 then 0 else band
    ppRun := if l1.portMode = 1 then 0 else if l1.ppBand = band then sat 255 (l1.ppRun + 1) else 1 }

/-- The limit a lane shows after its evaluation (R115). -/
def refreshLane (p : Port) (s : State) : State :=
  s.modLane p (fun l => { l with limit := s.effectiveLimit p, bandChanged := false, cableChanged := false })

/-- Turret's alive word carries its period count: it advances once in a period, whichever lane is evaluated first (R237). -/
def advanceAlive (s : State) : State :=
  if s.steeple.aliveAt = s.now then s
  else s.withSteeple { s.steeple with
    aliveAt := s.now
    aliveSince := if s.steeple.aliveAt + 5 < s.now then s.now else s.steeple.aliveSince
    aliveCount := w32 (s.steeple.aliveCount + 1) }

/-- A confirmation comes due with this very period: the third equal classification, or the 50th sample of a new code (R112, R114). -/
def Lane.confirms (l : Lane) : Bool :=
  (l.classRun == 3 && l.lastClass != l.confirmed) || (l.portMode != 1 && l.ppRun == 50 && l.ppBand != l.cable)

/-- EVALUATION_PERIOD: the period that ends is sampled with the drive it had, then the lane takes its new one. Without Turret, Steeple
still reads the pins (R235). Where a confirmation comes due with the period, its own row evaluates the inputs at this boundary, so that they are
taken together in the order of R132. DEDUCED (log 152). unsafe. -/
def execEvaluationPeriod (p : Port) (x : LaneSample) (s : State) : Out :=
  let settle := s.cfg 0x0205 p.val
  if s.turretUp then
    let s1 := s.modLane p (fun l => sampleTurret x (s.cfg 0x0201 p.val) (s.cfg 0x0203 p.val) settle (sampleSteeple x settle s.now l))
    let l := s1.lane p
    let s2 := if l.lastClass ≠ l.confirmed ∧ l.classRun < 3 then countAt p.val 1 s1 else s1
    let s3 := takeDuty p (advanceAlive s2)
    .next (refreshLane p (if (s3.lane p).confirms then s3 else evaluateInputs p s3))
  else if s.steepleUp then .next (s.modLane p (sampleSteeple x settle s.now))
  else .next s

/-- PILOT_CONFIRMED: three equal classifications in a row (R112). -/
def execPilotConfirmed (p : Port) (s : State) : Out :=
  let l := s.lane p
  if s.turretUp && decide (3 ≤ l.classRun) && l.lastClass != l.confirmed then
    let vehicle := l.lastClass.any (·.vehicle)
    let was := l.confirmed.any (·.vehicle)
    let s1 := s.modLane p (fun x => { x with
      confirmed := x.lastClass, bandChanged := true
      vehicleAt := if vehicle then (if was then x.vehicleAt else some s.now) else none
      unbroken := x.unbroken && vehicle })
    .next (refreshLane p (evaluateInputs p s1))
  else .next s

/-- The SF3 fault a classification stands for (R112, R242). -/
def pilotFaultCode : PilotClass → Option Nat
  | .e => some fBandE
  | .f => some fBandF
  | .diode => some fDiode
  | .out => some fOutOfBand
  | .a => none
  | .b => none
  | .c => none
  | .d => none

/-- PILOT_FAULT: Steeple's own confirmation, while the port is enabled (R112, R243). -/
def execPilotFault (p : Port) (s : State) : Out :=
  let l := s.lane p
  if s.steepleUp && decide (3 ≤ l.classRun) && l.state != .disabled && l.state != .lockout then
    match l.lastClass.bind pilotFaultCode with
    | some code => .next (decideFault code (some p) (leInt 2 l.highMv ++ leInt 2 (l.lowMv.getD (-32768))) false s)
    | none => .next s
  else .next s

/-- PROXIMITY_CODE_ACCEPTED: 50 samples in one band (R114). CABLE_DETECTED tells of a cable, so of codes 1 to 4 alone (R147).
DEDUCED (log 151). unsafe. -/
def execProximityCodeAccepted (p : Port) (s : State) : Out :=
  let l := s.lane p
  if s.turretUp && l.portMode != 1 && decide (50 ≤ l.ppRun) && l.ppBand != l.cable then
    let s1 := s.modLane p (fun x => { x with
      cable := x.ppBand
      cableChanged := x.state == .testing || x.state == .closing || x.state == .energised || x.state == .shed })
    let s2 := match s1.portSession p with
      | some (c, b) =>
        if b.state.live && b.state != .reserved && b.cable == 0 && s.codeAccepted p l.ppBand then
          setSession c { b with cable := l.ppBand } s1
        else s1
      | none => s1
    .next (refreshLane p (evaluateInputs p (if (cableRating l.ppBand).isSome then post (some p) (.cable l.ppBand l.ppOhm) s2 else s2)))
  else .next s

/-- A vehicle stands at a socket port whose session has no accepted code yet: in CONNECTED, or in SUSPENDED where T05 led it before a
code came (R114, R137). DEDUCED (log 189). unsafe. -/
def State.awaitsCable (s : State) (p : Port) : Bool :=
  let none_ := match s.portSession p with
    | some x => x.2.cable == 0
    | none => false
  !s.cableOk p && ((s.lane p).state == .connected || ((s.lane p).state == .suspended && none_))

/-- CABLE_REFUSED: a vehicle without an accepted cable for 200 ms (T03, R114). -/
def execCableRefused (p : Port) (s : State) : Out :=
  let late := match (s.lane p).vehicleAt with
    | some t => s.due (t + 200)
    | none => false
  if s.turretUp && s.awaitsCable p && late then .next (refreshLane p (transit p 3 .cableRefused (endPortSession p 7 s))) else .next s

/-- RESERVATION_EXPIRED: a RESERVED session past its hold time (R136). -/
def execReservationExpired (p : Port) (s : State) : Out :=
  match s.portSession p with
  | some (_, b) =>
    if s.serves && b.state == .reserved && s.due (b.openedAt + 1000 * b.holdS) then .next (endPortSession p 6 s) else .next s
  | none => .next s

/-- ALLOWANCE_OPENING_TIMEOUT: 3000 ms of T13 without band B. -/
def execAllowanceOpeningTimeout (p : Port) (s : State) : Out :=
  match (s.lane p).seq with
  | .waitBandB since t => if s.turretUp && s.due (since + 3000) then .next (startWaiting p t s) else .next s
  | _ => .next s

/-! ## Closing (R124, R125) -/

/-- A closing that is not started because the permit is absent: the port returns to OFFERED (R125). -/
def closingRefused (p : Port) (s : State) : State :=
  transit p 8 .offered (postOutcomeOf p kindClosing 1 s.now (s.modLane p (fun l => { l with shedActive := false })))

/-- Step 1 of R124 with its checks. With the permit absent and a weld's signs at once, the weld is decided (R125 gives both outcomes and no
order). DESIGN CHOICE (log 195). unsafe. -/
def startClosing (p : Port) (s0 : State) : State :=
  let s := clearFallbacks p (transit p 7 .closing s0)
  let l := s.lane p
  if !l.testPassed then decideFault fTurret none [] false (postOutcomeOf p kindClosing 1 s.now s)
  else if l.ctf || l.ovs then decideFault fWeld (some p) [1] false (postOutcomeOf p kindClosing 1 s.now s)
  else if !s.permit p then closingRefused p s
  else setCtd p true (s.modLane p (fun x => { x with
    seq := .closing 1 s.now s.now, closings := w32 (x.closings + 1), shedActive := x.shedActive }))

/-- Where the fault of a failed step has led to D2, or is a repeat of the one that did, the permit stays and no fault opening runs: the
port still has to open, since any opening of a D2 port ends its degraded mode (R267). A failed opening is over, a closing or a re-admission
turns into a normal opening, and the port enters its lock-out as that completes. DEDUCED (log 174). unsafe. -/
def openDegraded (p : Port) (before : Sequence) (s : State) : State :=
  if (s.lane p).state = .lockout then s
  else
    match before with
    | .opening _ _ _ _ t => reachTarget p t s
    | .closing _ _ _ => beginOpening p false (if (s.lane p).pbd then 1 else 5) 12 .offered s
    | .readmit _ _ => beginOpening p false (if (s.lane p).pbd then 1 else 3) 12 .offered s
    | _ => s

/-- A sequence ends in a fault: its outcome names the failed step, then Steeple decides (R125, R126, R571). -/
def failSequence (p : Port) (kind step start code : Nat) (s : State) : State :=
  let before := (s.lane p).seq
  openDegraded p before (decideFault code (some p) (le 1 step) false
    (postOutcomeOf p kind step start (s.modLane p (fun l => { l with seq := .none }))))

/-- The opening that a cause noted during the closing starts at once (K6): T13, with PWM stopped, for the allowance, else T12. -/
def openAfterClosing (p : Port) (after : Option Target) (s : State) : State :=
  let step := if (s.lane p).pbd then 1 else 3
  match after with
  | some t =>
    if t = .suspended ∧ s.unventilated p = false then stopPwm p (beginOpening p false step 13 t s) else beginOpening p false step 12 t s
  | none => s

/-- The port enters SHED from a closing (K2, K11): PBD off, outcome 0x81; the opening that K6 has noted follows from there. -/
def shedClosing (p : Port) (start : Nat) (s : State) : State :=
  let s1 := setPbd p false (postOutcomeOf p kindClosing 0x81 start s)
  openAfterClosing p (s.lane p).afterClosing
    (transit p 10 .shed (s1.modLane p (fun l => { l with seq := .none, shedActive := true, afterClosing := none })))

/-- CLOSING_CONTACTOR_SETTLED: step 3, 30 ms after the start. CTF not high and OVS present at once decide the feedback discrepancy alone
(R125 names a fault for each). DESIGN CHOICE (log 195). unsafe. -/
def execClosingContactorSettled (p : Port) (ctf unchanged : Bool) (s : State) : Out :=
  match (s.lane p).seq with
  | .closing 1 start _ =>
    if s.turretUp && s.due (start + 30) then
      let s1 := s.modLane p (fun l => l.seeCtf ctf)
      if !(ctf && unchanged) then .next (failSequence p kindClosing 3 start fFeedback (setCtd p false s1))
      else if (s1.lane p).ovs then .next (failSequence p kindClosing 3 start fNotBlock (setCtd p false s1))
      else if (s1.lane p).shedActive then .next (shedClosing p start s1)
      else .next (s1.modLane p (fun l => { l with seq := .closing 3 start s.now }))
    else .next s
  | _ => .next s

/-- CLOSING_PRE_BREAK_START: step 4 at a reference-phase voltage zero; a re-admission starts PBD in the same way (T11). -/
def execClosingPreBreakStart (p : Port) (s : State) : Out :=
  if s.turretUp && s.permit p then
    match (s.lane p).seq with
    | .closing 3 start _ => .next (setPbd p true ((noteTimed p s).modLane p (fun l => { l with seq := .closing 4 start s.now })))
    | .readmit start none =>
      .next (setPbd p true ((noteTimed p s).modLane p (fun l => { l with seq := .readmit start (some s.now), shedActive := false })))
    | _ => .next s
  else .next s

/-- CLOSING_PBF_CHECK: step 5, 3.5 µs after step 4. -/
def execClosingPbfCheck (p : Port) (pbf : Bool) (s : State) : Out :=
  match (s.lane p).seq with
  | .closing 4 start at_ =>
    if s.turretUp then
      let s1 := s.modLane p (fun l => { l with pbf := pbf, closeStep5Ok := pbf })
      if pbf then .next (s1.modLane p (fun l => { l with seq := .closing 5 start at_ }))
      else .next (failSequence p kindClosing 5 start fNotConduct s1)
    else .next s
  | _ => .next s

/-- T09: the port is energised (R124 step 6), and a cause noted by K6 then opens it. -/
def energise (p : Port) (start : Nat) (s : State) : State :=
  let after := (s.lane p).afterClosing
  let s1 := postOutcomeOf p kindClosing 0 start (s.modLane p (fun l => { l with
    seq := .none, energisedAt := some s.now, afterClosing := none }))
  let s2 := transit p 9 .energised s1
  let s3 := match s2.portSession p with
    | some (c, b) => if b.firstEnergised = 0 then setSession c { b with firstEnergised := s2.time } s2 else s2
    | none => s2
  openAfterClosing p after s3

/-- T11 completed: OVS present after re-admission. -/
def readmitDone (p : Port) (start : Nat) (s : State) : State :=
  transit p 11 .energised (postOutcomeOf p kindReadmit 0 start (s.modLane p (fun l => { l with
    seq := .none, energisedAt := some s.now })))

/-- OVS_EDGE: the outlet voltage is present (R122); it completes a closing or a re-admission. Turret and Steeple each read the pin
(R235). -/
def execOvsEdge (p : Port) (s : State) : Out :=
  let s1 := s.modLane p (fun l => { l with ovs := true, ovsAt := s.now, quietSince := none })
  if s.turretUp then
    match (s1.lane p).seq with
    | .closing 5 start _ => .next (energise p start s1)
    | .readmit start (some _) => .next (readmitDone p start s1)
    | _ => .next s1
  else if s.steepleUp then .next s1
  else .next s

/-- OVS_ABSENT: no edge for 25 ms (R122). -/
def execOvsAbsent (p : Port) (s : State) : Out :=
  if (s.turretUp || s.steepleUp) && (s.lane p).ovs && s.due ((s.lane p).ovsAt + 25) then
    .next (s.modLane p (fun l => { l with ovs := false }))
  else .next s

/-- OVS_PRESENCE_TIMEOUT: step 6 of R124, or T11, without OVS within 25 ms. -/
def execOvsPresenceTimeout (p : Port) (s : State) : Out :=
  match (s.lane p).seq with
  | .closing 5 start at_ =>
    if s.turretUp && s.due (at_ + 25) && !(s.lane p).ovs then .next (failSequence p kindClosing 6 start fFeedback s) else .next s
  | .readmit start (some at_) =>
    if s.turretUp && s.due (at_ + 25) && !(s.lane p).ovs then .next (failSequence p kindReadmit 6 start fFeedback s)
    else .next s
  | _ => .next s

/-! ## Residual test (R130) -/

/-- The test ends: result, queue entry, and what follows (T07, T08, or a lock-out reset's probe). A test that failed before step 2 or 3 shows
the readings of an earlier one. DESIGN CHOICE (log 197). unsafe. -/
def endTest (p : Port) (result : Nat) (detail : List Byte) (s : State) : State :=
  let l := s.lane p
  let s1 := post (some p) (.residualTest result l.testDc l.testAc) (s.modLane p (fun x => { x with
    testStep := 0, rct := .static, testResult := result, testPassed := result == 0 }))
  if l.testForReset then
    let s2 := s1.modLane p (fun x => { x with testForReset := false })
    let mine := s2.steeple.resets.filter (fun r => (s2.lockOf r.port).ports.contains p)
    if result = 0 then
      s2.withSteeple { s2.steeple with resets := s2.steeple.resets.map (fun r =>
        if (s2.lockOf r.port).ports.contains p then { r with tests := r.tests ++ [(p, s2.now)] } else r) }
    else
      mine.foldl (fun s r =>
        if s.steeple.resets.contains r then endReset r stFaultPresent 0 (s.firstUncleared r) s else s)
        (decideFault fTest (some p) detail false s2)
  else if result ≠ 0 then decideFault fTest (some p) detail false s1
  else if l.state = .testing then
    let pending := s1.disableDue p || l.stopRequest || decide (s1.appliedAllowance p < 6000) || s1.unventilated p
      || s1.power.holdUp
    if s1.asks p && !pending then startClosing p s1
    else transit p 8 .offered (s1.modLane p (fun x => { x with shedActive := false }))
  else s1

/-- The AC step of the residual test follows the measured line frequency in mHz, or 50 Hz while none is detected (R130). -/
def State.testFrequency (s : State) : Nat := if s.dsp.frequency.isSome then s.dsp.lastFrequency else 50000

/-- RESIDUAL_TEST_STEP: the checks at 20, 150, 180 and 200 ms. -/
def execResidualTestStep (p : Port) (r : ResidualReading) (s : State) : Out :=
  let l := s.lane p
  if s.steepleUp then
    match l.testStep with
    | 1 =>
      if s.due (l.testStart + 20) then
        if r.rms < 30 then .next (s.modLane p (fun x => { x with testStep := 2, rct := .dc55 }))
        else .next (endTest p 1 (leInt 4 r.rms ++ [4]) s)
      else .next s
    | 2 =>
      if s.due (l.testStart + 150) then
        let s1 := s.modLane p (fun x => { x with testDc := r.dc.natAbs })
        if r.dcFlag && withinInt 80 120 r.dc then .next (s1.modLane p (fun x => { x with testStep := 3, rct := .sine s.testFrequency }))
        else .next (endTest p 2 (leInt 4 r.dc ++ [4]) s1)
      else .next s
    | 3 =>
      if s.due (l.testStart + 180) then
        let s1 := s.modLane p (fun x => { x with testAc := r.ac })
        if r.acFlag && within 320 480 r.ac then .next (s1.modLane p (fun x => { x with testStep := 4, rct := .static }))
        else .next (endTest p 3 (leInt 4 r.ac ++ [4]) s1)
      else .next s
    | 4 =>
      if s.due (l.testStart + 200) then
        if r.rms < 30 then .next (endTest p 0 [] s) else .next (endTest p 4 (leInt 4 r.rms ++ [4]) s)
      else .next s
    | _ => .next s
  else .next s

/-! ## Opening (R126 to R129) -/

/-- OPENING_CURRENT_ZERO: step 2, PBD stops at the current-zero instant, which lies in this millisecond or before; under timed switching
without waiting for it (R126, R129). -/
def execOpeningCurrentZero (p : Port) (s : State) : Out :=
  match (s.lane p).seq with
  | .opening u 1 start _ t =>
    if s.turretUp && (s.timedNow p || decide (s.currentZeroUs p start < (s.now + 1) * 1000)) then
      .next (setPbd p false ((noteTimed p s).modLane p (fun l => { l with seq := .opening u 2 start s.now t })))
    else .next s
  | _ => .next s

/-- OPENING_PBF_CHECK: step 3, PBF low. -/
def execOpeningPbfCheck (p : Port) (pbf : Bool) (s : State) : Out :=
  match (s.lane p).seq with
  | .opening u 2 start at_ t =>
    if s.turretUp then
      let s1 := s.modLane p (fun l => { l with pbf := pbf, openStep3Ok := !pbf })
      if pbf then .next (failSequence p (if u then kindUrgent else kindNormal) 3 start fNotBlock s1)
      else .next (s1.modLane p (fun l => { l with seq := .opening u 3 start at_ t }))
    else .next s
  | _ => .next s

/-- Outlet channels of a port: three from 3·nn, or phase A only on a single-phase port (R139, R148). -/
def outletChannels (p : Port) (map : Nat) : List Channel88 :=
  if map = 0 then [⟨3 * p.val, by omega⟩, ⟨3 * p.val + 1, by omega⟩, ⟨3 * p.val + 2, by omega⟩] else [⟨3 * p.val, by omega⟩]

/-- A mirror entry of the port is stale (R33). -/
def State.outletStale (s : State) (p : Port) : Bool :=
  (outletChannels p (s.lane p).phaseMap).any (fun c => s.turret.mirror[c].stale)

/-- A nominal half-cycle in ms, rounded up (R126); the nominal frequency is split at 55 Hz. DESIGN CHOICE (log 193). unsafe. -/
def State.halfCycleMs (s : State) : Nat := if 55000 ≤ s.dsp.lastFrequency then 9 else 10

/-- Every outlet channel below 100 mA in a half-cycle that began after `since`. -/
def State.currentGone (s : State) (p : Port) (since : Nat) : Bool :=
  (outletChannels p (s.lane p).phaseMap).all (fun c =>
    let e := s.turret.mirror[c]
    decide (since + s.halfCycleMs ≤ e.updatedAt ∧ e.rms < 100))

/-- CTD stops, step 5. -/
def releaseContactor (p : Port) (u : Bool) (start : Nat) (t : Target) (blind : Bool) (s : State) : State :=
  setCtd p false (s.modLane p (fun l => { l with seq := .opening u 5 start s.now t, blind := blind }))

/-- OPENING_CONTACTOR_RELEASE: steps 4 and 5; with stale entries the full 40 ms, then OVS and PBF alone (R129). -/
def execOpeningContactorRelease (p : Port) (s : State) : Out :=
  let l := s.lane p
  match l.seq with
  | .opening u 3 start at_ t =>
    if s.turretUp then
      let late := s.due (at_ + 40)
      if s.outletStale p then
        if late then
          if l.ovs || l.pbf then
            .next (failSequence p (if u then kindUrgent else kindNormal) 4 start fNotBlock (s.modLane p (fun x => { x with blind := true })))
          else .next (releaseContactor p u start t true s)
        else .next s
      else if s.currentGone p at_ && !l.ovs then .next (releaseContactor p u start t false s)
      else if late then .next (failSequence p (if u then kindUrgent else kindNormal) 4 start fNotBlock s)
      else .next s
    else .next s
  | _ => .next s

/-- OPENING_CTF_CHECK: step 6, CTF low within 50 ms of step 5. -/
def execOpeningCtfCheck (p : Port) (ctf : Bool) (s : State) : Out :=
  match (s.lane p).seq with
  | .opening u 5 start at_ t =>
    if s.turretUp then
      let s1 := s.modLane p (fun l => l.seeCtf ctf)
      if !ctf then .next (s1.modLane p (fun l => { l with seq := .opening u 6 start s.now t }))
      else if s.due (at_ + 50) then .next (failSequence p (if u then kindUrgent else kindNormal) 6 start fFeedback s1)
      else .next s1
    else .next s
  | _ => .next s

/-- Step 8: outcome and target. -/
def finishOpening (p : Port) (u : Bool) (start : Nat) (t : Target) (s : State) : State :=
  reachTarget p t (postOutcomeOf p (if u then kindUrgent else kindNormal) 0 start s)

/-- WELD_PROBE: step 7 at a voltage zero, under a probe permit (R239); without the drive permit, for a supply stop, it is skipped. -/
def execWeldProbe (p : Port) (s : State) : Out :=
  let l := s.lane p
  match l.seq with
  | .opening u 6 start _ t =>
    if s.turretUp && s.steepleUp && !l.ctd && !l.ctf then
      if s.permit p then
        .next (setPbd p true (setProbe p true ((noteTimed p s).modLane p (fun x => { x with
          seq := .opening u 7 start s.now t, weldProbes := w32 (x.weldProbes + 1) }))))
      else .next (finishOpening p u start t s)
    else .next s
  | _ => .next s

/-- The probe permit ends after 20 ms, whatever Turret requests, and PBD with it (R239). -/
def endWeldProbe (p : Port) (s : State) : State := setProbe p false (setPbd p false s)

/-- WELD_PROBE_END: Steeple ends the probe after 20 ms, PBF high during it; 5 ms later, 25 ms after the probe began, OVS must have stayed
absent and the opening is complete (R126, R239). PBF as last sampled then tells whether the probe passed step 3 (R265). DEDUCED (log 192).
safe. -/
def execWeldProbeEnd (p : Port) (pbf : Bool) (s : State) : Out :=
  let l := s.lane p
  match l.seq with
  | .opening u 7 start at_ t =>
    if s.steepleUp && s.due (at_ + 20) then
      let s1 := endWeldProbe p s
      if pbf then .next (s1.modLane p (fun x => { x with seq := .opening u 8 start at_ t }))
      else .next (failSequence p (if u then kindUrgent else kindNormal) 7 start fNotConduct s1)
    else .next s
  | .opening u 8 start at_ t =>
    if s.turretUp && s.steepleUp && s.due (at_ + 25) then
      let s1 := s.modLane p (fun x => { x with openStep3Ok := !x.pbf })
      if l.ovs && decide (at_ ≤ l.ovsAt) then .next (failSequence p (if u then kindUrgent else kindNormal) 7 start fWeld s1)
      else .next (finishOpening p u start t s1)
    else .next s
  | _ => .next s

/-- CONTACTOR_FEEDBACK_DISCREPANCY: a change of the filtered CTF, now at `ctf`, that CTD did not cause has persisted 20 ms (R120). -/
def execContactorFeedbackDiscrepancy (p : Port) (ctf : Bool) (s : State) : Out :=
  let l := s.lane p
  if s.steepleUp && l.state != .disabled && l.ctf == ctf && s.heldFor l.ctfOdd 20 then
    .next (decideFault fFeedback (some p) [0] false (s.modLane p (fun x => { x with ctfOdd := none })))
  else .next s

/-- PRE_BREAK_DISCREPANCY: PBF does not follow PBD for 5 µs (R121). -/
def execPreBreakDiscrepancy (p : Port) (pbf : Bool) (s : State) : Out :=
  let l := s.lane p
  if s.steepleUp && l.state != .disabled && pbf != l.pbd then
    .next (decideFault (if l.pbd then fNotConduct else fNotBlock) (some p) [0] false (s.modLane p (fun x => { x with pbf := pbf })))
  else .next s

/-- The fault opening's outcome, when the port raises one (R571). -/
def faultOutcome (p : Port) (own : Bool) (result start : Nat) (s : State) : State :=
  let s1 := s.modLane p (fun l => { l with seq := .none })
  if own then postOutcomeOf p kindFault result start s1 else s1

/-- FAULT_OPENING_CHECKS: CTF low 50 ms and OVS absent 100 ms after the permit removal, each a weld where it fails (R128); the outcome comes
with the end of the checks and names the first that failed (R571; DEDUCED, log 153; unsafe). No weld is decided in DISABLED (R243). -/
def execFaultOpeningChecks (p : Port) (ctf : Bool) (s : State) : Out :=
  match (s.lane p).seq with
  | .faultOpening start own seen =>
    if s.steepleUp && s.due (start + 50) then
      let s1 := s.modLane p (fun l => { l.seeCtf ctf with seq := .faultOpening start own (some (seen.getD (!ctf))) })
      let watched := (s.lane p).state != .disabled
      let s2 := if seen.isNone && ctf && watched then decideFault fWeld (some p) [1] true s1 else s1
      if s.due (start + 100) then
        if !seen.getD (!ctf) then .next (faultOutcome p own 1 start s2)
        else if (s2.lane p).ovs && watched then .next (decideFault fWeld (some p) [2] true (faultOutcome p own 2 start s2))
        else .next (faultOutcome p own 0 start s2)
      else .next s2
    else .next s
  | _ => .next s

/-! ## Port and session commands (R141 to R146) -/

/-- A command that names a channel: the handle given, current, and of the right type (R83). -/
def withPort (r : Req) (k : Port → State → State) : State → State :=
  withHandle r fun s =>
    match portOfHandle r.handle with
    | some p => k p s
    | none => refuse r stHandleType s

/-- A command that names a SESSION channel. -/
def withSession (r : Req) (k : Channel → SessionBody → State → State) : State → State :=
  withHandle r fun s =>
    match s.channelOf r.handle with
    | some c =>
      match c.body with
      | .session b => k c b s
      | _ => refuse r stHandleType s
    | none => refuse r stHandleType s

/-- Check 5 while the control plane is silent (R39). -/
def notSilent (r : Req) (k : State → State) (s : State) : State :=
  if s.rotunda.silent then refuse r stControlSilent s else k s

/-- The request accepted and kept until its own end. -/
def acceptWaiting (r : Req) (argument : Nat) (extra : List Byte) (s : State) : State :=
  let s1 := accept r s
  s1.withRotunda { s1.rotunda with waiting := s1.rotunda.waiting ++ [r.wait argument extra] }

/-- PORT_ENABLE: the enable set and persisted; the completion comes at T01 (R142). -/
def portEnable (r : Req) : State → State :=
  withLength (r.payload.length == 4) r <| withPort r fun p => notSilent r fun s =>
  if !s.confirmed then refuse r stSafetyUnconfirmed s
  else if s.steeple.hub.active || (s.portLock p).active then refuse r stLockedOut s
  else if (s.lane p).enabled && !(s.lane p).ignored then acceptDone r stOk [] s
  else (acceptWaiting r 0 [] s).modLane p (fun l => { l with enabled := true, ignored := false })

def execPortEnable (b : Box) (s : State) : Out := request b 0x0401 portEnable s

/-- PORT_DISABLE: the persisted enable cleared; the completion comes at T18 or T15 to DISABLED (R142). -/
def portDisable (r : Req) : State → State :=
  withLength (r.payload.length == 4) r <| withPort r fun p s =>
  if 1 < field r.payload 0 1 then refuse r stParamRange s
  else notSilent r (fun s =>
    if (s.lane p).state = .disabled ∨ (s.lane p).state = .lockout then
      finishDisable p ((acceptDone r stOk [] s).modLane p (fun l => { l with enabled := false }))
    else
      (acceptWaiting r 0 [] s).modLane p (fun l => { l with
        enabled := false, disableRequest := some (max (field r.payload 0 1) (l.disableRequest.getD 0)) })) s

def execPortDisable (b : Box) (s : State) : Out := request b 0x0402 portDisable s

/-- A session cap is 0 or 6000 to 63 000 mA. -/
def capOk (ma : Nat) : Bool := ma == 0 || within 6000 63000 ma

/-- SESSION_OPEN: a RESERVED session on a port in IDLE (R143); it replaces the port's session, a RESERVED one too (R79). -/
def sessionOpen (r : Req) : State → State :=
  let hold := field r.payload 0 2
  let cap := field r.payload 4 4
  withLength (r.payload.length == 24) r <| withPort r fun p s =>
  if !(within 1 900 hold && decide (field r.payload 2 1 ≤ 1) && capOk cap) then refuse r stParamRange s
  else notSilent r (fun s =>
    if (s.lane p).state ≠ .idle then refuse r stRefusedState s
    else
      let b : SessionBody := { newSession p s with
        state := .reserved, cable := 0, plugTime := 0, capMa := cap, holdS := hold
        identity := slice r.payload 8 16, preAuthorised := field r.payload 2 1 == 1 }
      let s1 := replaceSession p b (accept r s)
      finish r.wait stOk (le 4 (s1.lane p).session) (postBegun p s1)) s

def execSessionOpen (b : Box) (s : State) : Out := request b 0x0403 sessionOpen s

/-- A denial (R144). -/
def denySession (r : Req) (c : Channel) (b : SessionBody) (s : State) : State :=
  let s1 := accept r s
  if b.state = .interrupted then
    finish r.wait stOk (le 4 0) (s1.modLane b.port (fun l => { l with denied := true, stopReason := 8 }))
  else
    finish r.wait stOk (le 4 c.handle) (endPortSession b.port 8 (s1.modLane b.port (fun l => { l with denied := true })))

/-- SESSION_AUTHORISE (R144). A RESERVED session stays RESERVED, now pre-authorised with the cap and identity given, and becomes
AUTHORISED at its adoption, as one opened pre-authorised does (R136). DESIGN CHOICE (log 175). unsafe. -/
def sessionAuthorise (r : Req) : State → State :=
  let cap := field r.payload 4 4
  let identity := slice r.payload 8 16
  withLength (r.payload.length == 24) r <| withSession r fun c b s =>
  if !(decide (field r.payload 0 1 ≤ 1) && capOk cap) then refuse r stParamRange s
  else notSilent r (fun s =>
    let interrupted := b.state == .interrupted && (s.lane b.port).state == .connected
      && (s.lane b.port).session == c.handle && (s.lane b.port).interrupted
    if !(b.state == .reserved || b.state == .opened || interrupted) then refuse r stRefusedState s
    else if field r.payload 0 1 = 1 then denySession r c b s
    else if interrupted then
      let s1 := continueSession b.port 1 cap identity (accept r s)
      finish r.wait stOk (le 4 (s1.lane b.port).session) s1
    else if b.state = .reserved then
      finish r.wait stOk (le 4 c.handle) (setSession c { b with preAuthorised := true, capMa := cap, identity := identity }
        (accept r s))
    else finish r.wait stOk (le 4 c.handle) (authoriseSession b.port 1 cap identity (accept r s))) s

def execSessionAuthorise (b : Box) (s : State) : Out := request b 0x0404 sessionAuthorise s

/-- The legal log's record of a stop (R354). -/
def stopData (p : Port) (handle reason : Nat) : List Byte := le 1 p.val ++ [0] ++ le 4 handle ++ le 2 reason

/-- SESSION_STOP (R145). -/
def sessionStop (r : Req) : State → State :=
  withLength (r.payload.length == 4) r <| withSession r fun c b => notSilent r fun s =>
  if !b.state.live then refuse r stRefusedState s
  else
    let s1 := keepLog 0x0060 r.box.val (stopData b.port c.handle (field r.payload 0 2)) (acceptWaiting r 0 [] s)
    if b.state = .reserved then endPortSession b.port 3 s1
    else s1.modLane b.port (fun l => { l with stopRequest := true, stopReason := 3 })

def execSessionStop (b : Box) (s : State) : Out := request b 0x0405 sessionStop s

/-- The session's end value has been latched. -/
def SessionBody.endReady (b : SessionBody) : Bool := b.endPending && b.endEai.isSome && b.startEai.isSome

/-- The event of a session's end, the stop that waits for it, and its signed end record (R145, R147, R344). -/
def raiseEnded (p : Port) (c : Channel) (b : SessionBody) (s : State) : State :=
  let pay := sessionEndPayload c.handle b
  let s1 := settleStops c.handle pay (raise 0x8043 (some p) pay s)
  if b.wasAuthorised then wantSessionRecord 3 c { b with endPending := false } s1 else s1

/-- A session of the port whose channel is gone and whose end value has been latched. -/
def State.endedGone (s : State) (p : Port) : Option (Channel × SessionBody) :=
  s.rotunda.ending.findSome? (fun c =>
    match c.body with
    | .session b => if b.port = p ∧ b.endReady = true then some (c, b) else none
    | _ => none)

def dropEnding (c : Channel) (s : State) : State :=
  s.withRotunda { s.rotunda with ending := s.rotunda.ending.filter (fun d => d.handle ≠ c.handle) }

/-- SESSION_ENDED: the end value has been latched, so the event is raised and a waiting stop completes (R147), of a session whose channel
is gone first. -/
def execSessionEnded (p : Port) (s : State) : Out :=
  if s.serves then
    match s.endedGone p with
    | some (c, b) =>
      .next (raiseEnded p c b (dropEnding c s))
    | none =>
      match s.portSession p with
      | some (c, b) =>
        if b.endReady then .next (raiseEnded p c b (setSession c { b with endPending := false } s)) else .next s
      | none => .next s
  else .next s

/-! ## Bodies (R137, R140) and the three queries (R146) -/

/-- PORT body, bytes 32 to 79 (R140). -/
def State.portBody (s : State) (p : Port) : List Byte :=
  let l := s.lane p
  le 1 (pilotCode l.confirmed) ++ le 1 l.drive.code ++ le 2 l.duty ++ leInt 2 l.highMv ++ leInt 2 (l.lowMv.getD (-32768))
    ++ le 1 (if l.portMode = 1 then 0 else l.cable) ++ le 1 (s.portFlags p) ++ le 1 l.transition ++ [0]
    ++ le 4 l.limit ++ le 4 l.allowance ++ le 4 l.session ++ le 6 l.stateTime ++ [0, 0]
    ++ le 4 l.closings ++ le 4 l.faultOpenings ++ le 4 l.weldProbes ++ le 4 l.sheds

/-- SESSION body, bytes 32 to 111 (R137). -/
def SessionBody.bytes (b : SessionBody) : List Byte :=
  le 1 b.port.val ++ le 1 b.endReason ++ le 1 b.authSource ++ le 1 b.cable ++ le 6 b.plugTime ++ le 6 b.authTime
    ++ le 6 b.firstEnergised ++ le 6 b.endTime ++ le 8 (b.startEai.getD 0) ++ le 8 (b.endEai.getD 0) ++ le 4 b.capMa
    ++ le 4 b.peakMa ++ le 4 b.prevHandle ++ le 2 b.holdS ++ le 2 (sat 65535 (b.energisedMs / 1000)) ++ fit 16 b.identity
    ++ zeros 4

/-- The state a query shows: unknown while the control plane is silent (R39), for which the byte is 0xFF. DESIGN CHOICE (log 176).
unsafe. -/
def State.shownState (s : State) (p : Port) : Nat := if s.rotunda.silent then 0xFF else (s.lane p).state.code

/-- PORT_STATUS (R146). -/
def portStatus (r : Req) : State → State :=
  withLength r.payload.isEmpty r <| withPort r fun p =>
    intact p.val r fun s => respond r stOk (le 1 (s.shownState p) ++ s.portBody p) s

def execPortStatus (b : Box) (s : State) : Out := request b 0x0410 portStatus s

/-- SESSION_STATUS (R146). -/
def sessionStatus (r : Req) : State → State :=
  withLength r.payload.isEmpty r <| withSession r fun c b =>
    intact c.slot r fun s => respond r stOk (le 1 b.state.code ++ (s.sessionNow c b).bytes) s

def execSessionStatus (b : Box) (s : State) : Out := request b 0x0411 sessionStatus s

/-- PORT_DIAG's payload (R146). -/
def Lane.diag (l : Lane) : List Byte :=
  leInt 2 l.highMv ++ leInt 2 (l.lowMv.getD (-32768)) ++ le 1 l.settleUsed ++ le 1 l.window ++ le 2 l.ppOhm
    ++ le 1 (b1 l.ctf * 128 + b1 l.pbf * 64 + b1 l.ovs * 32) ++ le 1 l.testResult ++ leInt 2 l.rcsDc ++ le 2 l.testDc
    ++ le 2 l.testAc ++ le 2 l.closeDuration ++ le 2 l.openDuration ++ le 2 l.rcsAc ++ le 2 l.rcsRms

def portDiag (r : Req) : State → State :=
  withLength r.payload.isEmpty r <| withPort r fun p s => respond r stOk (s.lane p).diag s

def execPortDiag (b : Box) (s : State) : Out := request b 0x0412 portDiag s

end Sys2Proof.Machine
end

