-- ==== Sys2Proof/Machine/GuardOps.lean ====
section
/-! DEFINITION. Operations over the measurement mirror (R31 to R33), the means the allocator takes from it (R212), and the fuse guard's
zones, shedding stops and blindness (R220 to R228). -/

namespace Sys2Proof.Machine

/-! ## Channels and phases -/

/-- Phases a port draws on (R211). -/
def phasesOf (map : Nat) : List Phase := if map = 0 then [0, 1, 2] else [refPhase map]

def State.portPhases (s : State) (p : Port) : List Phase := phasesOf (s.lane p).phaseMap

/-- Outlet channel that carries a port's current on a phase: CT phase A on a single-phase port (R139). -/
def State.outletOn (s : State) (p : Port) (f : Phase) : Channel88 :=
  if (s.lane p).phaseMap = 0 then ⟨3 * p.val + f.val, by omega⟩ else ⟨3 * p.val, by omega⟩

/-- Voltage channels of a phase on bus sections 0 and 1. -/
def bus0 (f : Phase) : Channel88 := ⟨80 + f.val, by omega⟩
def bus1 (f : Phase) : Channel88 := ⟨84 + f.val, by omega⟩

/-- Phase a feeder's current transformer sits on (R175). -/
def State.feederPhase (s : State) (k : Nat) : Phase := refPhase (s.cfg 0x0307 k)

/-- Phase with which a channel is published (R31). -/
def State.channelPhase (s : State) (c : Channel88) : Phase :=
  if h : c.val < 72 then
    let p : Port := ⟨c.val / 3, by omega⟩
    if (s.lane p).phaseMap = 0 ∨ c.val % 3 ≠ 0 then ⟨c.val % 3, by omega⟩ else refPhase (s.lane p).phaseMap
  else if c.val < 75 then refPhase (c.val - 71)
  else if c.val = 75 then 0
  else if c.val < 80 then s.feederPhase (c.val - 76)
  else if c.val % 4 = 3 then 0 else refPhase (c.val % 4 + 1)

/-- A channel that can be disabled is enabled (R175). -/
def State.channelEnabled (s : State) (c : Channel88) : Bool :=
  if c.val < 72 then true
  else if c.val < 76 then bit (s.cfg 0x0302 0) (c.val - 72)
  else if c.val < 80 then s.cfg 0x0304 (c.val - 76) == 1
  else bit (s.cfg 0x0308 0) (c.val - 80)

/-! ## Means over an allocation period (R212) -/

/-- Voltage that stands for a phase of a bus section: its entry, or 230 V while that is stale or disabled. -/
def State.voltage (s : State) (c : Channel88) : Nat :=
  if (s.turret.mirror[c]).stale || !s.channelEnabled c then 230000 else (s.turret.mirror[c]).rms

/-- Voltage channel a current channel's active current is taken with. -/
def voltageOf (c : Channel88) (f : Phase) : Channel88 := if within 72 75 c.val then bus0 f else bus1 f

/-- Active current of a power in mW at a voltage in mV, in microamperes. -/
def activeUa (power : Int) (mv : Nat) : Int := if mv = 0 then Config.activeCurrent power else power * 1000000 / mv

/-- Mean half-cycle RMS of an entry over the period, or its last value where none was published. -/
def MirrorEntry.meanRms (e : MirrorEntry) : Nat := if e.count = 0 then e.rms else e.sumRms / e.count

def MirrorEntry.meanPower (e : MirrorEntry) : Int := if e.count = 0 then e.power else e.sumPower / e.count

/-- Mean active current in mA. -/
def State.meanIp (s : State) (c : Channel88) (f : Phase) : Int :=
  let e := s.turret.mirror[c]
  (if e.count = 0 then activeUa e.power (s.voltage (voltageOf c f)) else e.sumIp / e.count) / 1000

/-- Mean voltage of a phase on bus section 1 in mV, or 230 V (R212). -/
def State.meanVolts (s : State) (f : Phase) : Nat :=
  let c := bus1 f
  if (s.turret.mirror[c]).stale || !s.channelEnabled c then 230000 else (s.turret.mirror[c]).meanRms

/-- An entry's sums begin again. -/
def MirrorEntry.restart (e : MirrorEntry) : MirrorEntry := { e with sumRms := 0, sumPower := 0, sumIp := 0, count := 0 }

/-- After a shedding stop or a re-admission of a port, only half-cycles that begin after it count for its phases and for its own
channels (R212). -/
def cutMeans (p : Port) (s : State) : State :=
  let fs := s.portPhases p
  let cut (c : Channel88) : Bool :=
    fs.any (fun f => c == siteChannel f || c == bus0 f || c == bus1 f || c == s.outletOn p f)
  s.withTurret { s.turret with
    mirror := Vector.ofFn (fun i =>
      let e := s.turret.mirror[i]
      if cut i then { e.restart with cutAt := s.now } else e) }

/-! ## Stale entries (R33) -/

/-- Three nominal half-cycles of the frequency last detected: 25 ms at 60 Hz, 30 ms at 50 Hz and without a frequency. A
frequency of 55 Hz and more counts as 60 Hz nominal (R33 gives no split). DESIGN CHOICE (log 193). unsafe. -/
def State.staleLimit (s : State) : Nat := if s.dsp.frequency.isSome ∧ 55000 ≤ s.dsp.lastFrequency then 25 else 30

/-! ## Fuse guard (R220 to R228) -/

def State.guard (s : State) (f : Phase) : GuardPhase := s.turret.guard[f]

def State.modGuard (s : State) (f : Phase) (g : GuardPhase → GuardPhase) : State :=
  s.withTurret { s.turret with guard := s.turret.guard.set f (g s.turret.guard[f]) }

/-- The zone of a value (R220). -/
def zoneOf (ls lh v : Nat) : Nat := if lh < v then 3 else if v ≤ ls then 0 else if v * 100 ≤ ls * 105 then 1 else 2

/-- Half-cycle RMS of a port on a phase; a stale channel counts at the allowance (R223, S1). -/
def State.portRms (s : State) (p : Port) (f : Phase) : Nat :=
  let e := s.turret.mirror[s.outletOn p f]
  if e.stale then s.turret.ports[p].allowance else e.rms

/-- A candidate of the allocator: enabled, authorised, and in a state that may draw (R211). -/
def State.isCandidate (s : State) (p : Port) : Bool :=
  s.allocIn 0x0104 p.val == 1 && s.authorised p &&
    match (s.lane p).state with
    | .connected => true
    | .suspended => true
    | .offered => true
    | .testing => true
    | .closing => true
    | .energised => true
    | .shed => true
    | .disabled => false
    | .idle => false
    | .opening => false
    | .ended => false
    | .cableRefused => false
    | .lockout => false

/-- The value the guard evaluates on a phase (R220). -/
def State.guardValue (s : State) (f : Phase) : Nat :=
  if s.scEnabled (siteChannel f) && !(s.guard f).blind then (s.turret.mirror[siteChannel f]).rms
  else ((allPorts.filter (fun p => s.isCandidate p && (s.portPhases p).contains f)).map (fun p => s.portRms p f)).sum

/-- Both timers restart (R220, R227, R228). -/
def GuardPhase.restart (g : GuardPhase) : GuardPhase := { g with lsTimer := 0, zone2Timer := 0, zone0Run := 0 }

/-- SITE_ZONE, at most once in an allocation period (R233). -/
def postZone (f : Phase) (old new_ : Nat) (s : State) : State :=
  if (s.guard f).zonePosted then s
  else (post none (.siteZone (f.val + 1) old new_ (s.guard f).siteMa) s).modGuard f (fun g => { g with zonePosted := true })

/-- One half-cycle of a phase evaluated: zone, timers and runs (R220). -/
def evaluateZone (f : Phase) (us : Nat) (s : State) : State :=
  let v := s.guardValue f
  let z := zoneOf (s.allocIn 0x0101 (f.val + 1)) (s.allocIn 0x0102 (f.val + 1)) v
  let old := (s.guard f).zone
  let s1 := s.modGuard f (fun g => { g with
    zone := z
    siteMa := v
    lsTimer := if 1 ≤ z then g.lsTimer + us else g.lsTimer
    zone2Timer := if 2 ≤ z then g.zone2Timer + us else g.zone2Timer
    zone0Run := if z = 0 then g.zone0Run + 1 else 0
    zone3Run := if z = 3 then g.zone3Run + 1 else 0 })
  let s2 := if z = 0 then s1 else count 51 1 s1
  if z = old then s2 else postZone f old z s2

/-- Blindness follows the phase's SC entry: enabled and stale (R227). The timers restart; half-cycles in zone 3 stay consecutive (R222). -/
def updateBlind (f : Phase) (s : State) : State :=
  let b := s.scEnabled (siteChannel f) && (s.turret.mirror[siteChannel f]).stale
  if b = (s.guard f).blind then s
  else
    let s1 := s.modGuard f (fun g => { g.restart with
      blind := b, blindSince := s.now, raised := false })
    let s2 := if b then s1.withTurret { s1.turret with blindSpells := w32 (s1.turret.blindSpells + 1) } else s1
    post none (.guardBlind (f.val + 1) b) s2

/-- Blindness of every phase. -/
def updateBlinds (s : State) : State := allPhases.foldl (fun s f => updateBlind f s) s

/-! ## Shedding (R223, R224) -/

/-- `a` is shed before `b` on a phase (R223). -/
def State.shedBefore (s : State) (f : Phase) (a b : Port) : Bool :=
  let pa := s.allocIn 0x0105 a.val
  let pb := s.allocIn 0x0105 b.val
  if pa ≠ pb then decide (pa < pb)
  else if s.portRms a f ≠ s.portRms b f then decide (s.portRms b f < s.portRms a f)
  else decide (b.val ≤ a.val)

/-- Ports ENERGISED on a phase, in shedding order. -/
def State.sheddingOrder (s : State) (f : Phase) : List Port :=
  sortBy (s.shedBefore f) (allPorts.filter (fun p => (s.lane p).state == .energised && (s.portPhases p).contains f))

/-- An allowance changed outside a boundary or at one, and delivered to the lane (R217); its reason is listed at the next one. -/
def setAllowance (p : Port) (ma reason : Nat) (s : State) : State :=
  let s1 := s.withTurret { s.turret with
    ports := s.turret.ports.set p { s.turret.ports[p] with allowance := ma, reason := reason } }
  trace 2 0x02 (le 4 s.turret.period ++ le 1 p.val ++ le 1 reason ++ [0, 0] ++ le 4 ma)
    (s1.modLane p (fun l => { l with allowance := ma }))

/-- What a shedding stop does to the port, by the state in which it finds it (T10, R134): TESTING and CLOSING run on to step 3 and
end in SHED as it passes, at once where it has passed (K2); CLOSING at step 5 or 6 ends in SHED at once (K11); SHED counts from this stop, and a re-admission in progress is
over (K4); an opening before step 2 goes on from there, since PBD has stopped, and one after it is not changed (K3). A
re-admission cut short by this, a normal opening or an urgent one has no result in R571's table and raises no SWITCH_OUTCOME. DESIGN CHOICE
(log 198). unsafe. -/
def stopPreBreak (p : Port) (s : State) : State :=
  let l := s.lane p
  let s1 := s.modLane p (fun l => { l with shedActive := true, shedAt := s.now, sheds := w32 (l.sheds + 1) })
  match l.state, l.seq with
  | .energised, _ => transit p 10 .shed (setPbd p false s1)
  | .testing, _ => s1
  | .closing, .closing step start _ => if step < 3 then s1 else shedClosing p start s1
  | .shed, _ => setPbd p false (s1.modLane p (fun x => { x with seq := .none }))
  | .opening, .opening u 1 start _ t => setPbd p false (s1.modLane p (fun x => { x with seq := .opening u 2 start s.now t }))
  | .opening, .waitBandB _ _ => setPbd p false s1
  | _, _ => s

/-- A shedding stop has something to stop at the port (K3 of R134, G2 of R229). -/
def State.stoppable (s : State) (p : Port) : Bool :=
  match (s.lane p).state, (s.lane p).seq with
  | .energised, _ => true
  | .testing, _ => true
  | .closing, .closing _ _ _ => true
  | .shed, _ => true
  | .opening, .opening _ 1 _ _ _ => true
  | .opening, .waitBandB _ _ => true
  | _, _ => false

/-- A shedding stop: PBD off, the allowance at 6000 mA, the timers of the port's phases at 0, and PORT_SHED (R220, R224). -/
def shedPort (p : Port) (f : Phase) (cause site : Nat) (s : State) : State :=
  if !s.stoppable p then s else
  let rms := s.portRms p f
  let fs := s.portPhases p
  let s1 := post (some p) (.shed cause (f.val + 1) site rms (w48 (s.civil + 10000)))
    (trace 2 0x03 (le 1 p.val ++ le 1 cause ++ le 1 (f.val + 1) ++ [0] ++ le 4 site) s)
  let s2 := if s.turret.ports[p].allowance = 6000 then s1.modLane p (fun l => { l with allowance := 6000 })
    else setAllowance p 6000 2 s1
  let s4 := cutMeans p (stopPreBreak p s2)
  let s5 := fs.foldl (fun s g => s.modGuard g GuardPhase.restart) s4
  if cause = 1 then s5.withTurret { s5.turret with shedsHard := w32 (s5.turret.shedsHard + 1) }
  else s5.withTurret { s5.turret with shedsSoft := w32 (s5.turret.shedsSoft + 1) }

/-- A phase in zone `z` calls for shedding with no port ENERGISED on it (R228). SITE_ZONE then carries the present zone as old and new zone.
DESIGN CHOICE (log 202). unsafe. -/
def shedNothing (f : Phase) (z : Nat) (s : State) : State :=
  let s1 := s.modGuard f GuardPhase.restart
  let s2 := if z = 3 then s1.withTurret { s1.turret with overLh := w32 (s1.turret.overLh + 1) } else s1
  postZone f z z s2

/-- The ports shed in order until what is left of the value is at or below Ls (R222). -/
def shedUntil (s : State) (f : Phase) (ls : Nat) : List Port → Nat → List Port
  | [], _ => []
  | p :: ps, rest => if rest ≤ ls then [] else p :: shedUntil s f ls ps (rest - s.portRms p f)

/-- The hard decision: with the second half-cycle in zone 3 the ports to shed are settled, and two further half-cycles count for the next
one (R222). -/
def decideHard (f : Phase) (s : State) : State :=
  let g := s.guard f
  if g.zone3Run < 2 ∨ g.hard.isSome = true then s
  else
    let ps := shedUntil s f (s.allocIn 0x0101 (f.val + 1)) (s.sheddingOrder f) g.siteMa
    s.modGuard f (fun g => { g with zone3Run := 0, hard := some (g.siteMa, ps) })

/-- One half-cycle of a phase evaluated (R220, R222). -/
def evaluateGuard (f : Phase) (us : Nat) (s : State) : State := decideHard f (evaluateZone f us s)

/-- Several ports stopped at one instant: their queue entries stand in ascending port order (R35). -/
def shedPorts (ps : List Port) (f : Phase) (cause site : Nat) (s : State) : State :=
  (allPorts.filter (fun p => ps.contains p)).foldl (fun s p => shedPort p f cause site s) s

/-- A hard decision of a phase carried out, if one is due (R222, R228). -/
def shedHard (f : Phase) (s : State) : State :=
  match (s.guard f).hard with
  | some (site, ps) =>
    let s1 := s.modGuard f (fun g => { g with hard := none })
    if ps.isEmpty then shedNothing f 3 s1 else shedPorts ps f 1 site s1
  | none => s

/-- Hard decisions that are due come before anything else the allocator does at the same instant (G1, G3 of R229). -/
def shedDue (s : State) : State := allPhases.foldl (fun s f => shedHard f s) s

/-- A disabled channel's mirror entry is marked disabled and is never stale (R175). -/
def markDisabled (s : State) : State :=
  s.withTurret { s.turret with
    mirror := Vector.ofFn (fun c =>
      let e := s.turret.mirror[c]
      { e with disabled := !s.channelEnabled c, stale := e.stale && s.channelEnabled c }) }

end Sys2Proof.Machine
end

