-- ==== Sys2Proof/Machine/Calendar.lean ====
section
/-! DEFINITION. Calendar and tariff programs as pure functions: dates, local time and daylight saving (R306, R307), the rate at an
instant (R308, R309), and the checks of a program (R311, C08, C09). Instants are ms since 2000-01-01 (R7). -/

namespace Sys2Proof.Machine

/-! ## Dates -/

/-- A calendar date. -/
structure Date where
  year : Int
  month : Nat
  day : Nat
  deriving DecidableEq, Repr

/-- Day number (0 is 2000-01-01) of a date, by the count of days from 1 March of year 0. -/
def dayNumber (d : Date) : Int :=
  let y := if d.month ≤ 2 then d.year - 1 else d.year
  let era := y / 400
  let yoe := y - era * 400
  let mp := (d.month + 9) % 12
  let doy : Int := ((153 * mp + 2) / 5 + d.day - 1 : Nat)
  era * 146097 + (yoe * 365 + yoe / 4 - yoe / 100 + doy) - 730425

/-- The date of a day number. -/
def dateOf (n : Int) : Date :=
  let z := n + 730425
  let era := z / 146097
  let doe := z - era * 146097
  let yoe := (doe - doe / 1460 + doe / 36524 - doe / 146096) / 365
  let doy := doe - (365 * yoe + yoe / 4 - yoe / 100)
  let mp := (5 * doy + 2) / 153
  let m := if mp < 10 then mp + 3 else mp - 9
  ⟨yoe + era * 400 + (if m ≤ 2 then 1 else 0), m.toNat, (doy - (153 * mp + 2) / 5 + 1).toNat⟩

/-- Weekday, 0 Sunday to 6 Saturday: 2000-01-01 was a Saturday. -/
def weekday (n : Int) : Nat := ((n + 6) % 7).toNat

def leapYear (y : Int) : Bool := (y % 4 == 0 && y % 100 != 0) || y % 400 == 0

def monthDays (y : Int) (m : Nat) : Nat :=
  if m = 2 then (if leapYear y then 29 else 28) else if m = 4 ∨ m = 6 ∨ m = 9 ∨ m = 11 then 30 else 31

def dayMs : Int := 86400000
def minuteMs : Int := 60000

/-! ## Local time (R306, R307) -/

/-- A date of dst_rule in a year: week 1 to 4 of a weekday in the month, or 5 for the last. -/
def ruleDay (y : Int) (month week wd : Nat) : Int :=
  let first := dayNumber ⟨y, month, 1⟩
  let k := first + (((wd + 7 - weekday first) % 7 + 7 * (week - 1) : Nat) : Int)
  if week = 5 ∧ first + monthDays y month ≤ k then k - 7 else k

/-- One end of daylight saving by the rule's five bytes. -/
def ruleInstant (y : Int) (bs : List Byte) : Int :=
  ruleDay y (field bs 0 1) (field bs 1 1) (field bs 2 1) * dayMs + field bs 3 2 * minuteMs

/-- The exception entry of a year, if one is set (R318). -/
def exceptionOf (cfg : List Setting) (y : Int) : Option (List Byte) :=
  ((List.range 8).map (fun i => le 6 (getRaw cfg 0x0408 i))).find?
    (fun bs => field bs 0 1 != 0xFF && decide ((field bs 0 1 : Int) + 2000 = y))

/-- Start and end of daylight saving in a year. -/
def dstBounds (cfg : List Setting) (y : Int) : Int × Int :=
  let rule := le 10 (getRaw cfg 0x0407 0)
  match exceptionOf cfg y with
  | some e =>
    (dayNumber ⟨y, field e 1 1, field e 2 1⟩ * dayMs + field rule 3 2 * minuteMs,
     dayNumber ⟨y, field e 3 1, field e 4 1⟩ * dayMs + field rule 8 2 * minuteMs)
  | none => (ruleInstant y rule, ruleInstant y (rule.drop 5))

def dstShift (cfg : List Setting) : Int := getCfg cfg 0x0406 0
def stdOffset (cfg : List Setting) : Int := getCfg cfg 0x0405 0

/-- Daylight saving is in force at an instant. -/
def dstIn (cfg : List Setting) (u : Int) : Bool :=
  let b := dstBounds cfg (dateOf (u / dayMs)).year
  dstShift cfg != 0 && field (le 10 (getRaw cfg 0x0407 0)) 0 1 != 0 &&
    (if b.1 < b.2 then decide (b.1 ≤ u ∧ u < b.2) else decide (b.1 ≤ u ∨ u < b.2))

/-- Local time less UTC at an instant, in minutes. -/
def localOffset (cfg : List Setting) (u : Int) : Int := stdOffset cfg + (if dstIn cfg u then dstShift cfg else 0)

/-- Where daylight saving comes into force after one instant and up to another: a year's start instant, or the beginning of a year of the
southern order (R306). -/
def transitionIn (cfg : List Setting) (early late : Int) : Int :=
  let y1 := (dateOf (early / dayMs)).year
  let y2 := (dateOf (late / dayMs)).year
  let starts := [(dstBounds cfg y1).1, dayNumber ⟨y2, 1, 1⟩ * dayMs, (dstBounds cfg y2).1]
  (starts.filter (fun t => decide (early < t ∧ t ≤ late) && dstIn cfg t)).foldl min late

/-- The one instant of a local day and minute: the first of two, and the transition where there is none (R307). -/
def instantOf (cfg : List Setting) (day minute : Int) : Int :=
  let w := day * 1440 + minute
  let early := (w - stdOffset cfg - dstShift cfg) * minuteMs
  let late := (w - stdOffset cfg) * minuteMs
  if dstIn cfg early then early
  else if !dstIn cfg late then late
  else transitionIn cfg early late

/-- The local day an instant belongs to: the last whose 00:00 has come. -/
def localDay (cfg : List Setting) (u : Int) : Int :=
  let d := (u / minuteMs + localOffset cfg u) / 1440
  if instantOf cfg (d + 1) 0 ≤ u then d + 1 else if instantOf cfg d 0 ≤ u then d else d - 1

/-! ## Tariff programs (R308, R309): `prog` is body bytes 32 to 383 -/

/-- A switch point: minute, valid, reserved bit, rate 1 to 8. -/
structure SwitchPoint where
  minute : Nat
  valid : Bool
  reserved : Bool
  rate : Nat
  deriving DecidableEq, Repr

def switchPoint (v : Nat) : SwitchPoint := ⟨v / 32, bit v 4, bit v 3, v % 8 + 1⟩

/-- The 12 switch points of a day profile. -/
def profilePoints (prog : List Byte) (i : Nat) : List SwitchPoint :=
  (List.range 12).map (fun k => switchPoint (field prog (28 + 24 * i + 2 * k) 2))

def validPoints (prog : List Byte) (i : Nat) : List SwitchPoint := (profilePoints prog i).filter (·.valid)

/-- Day profiles in use. -/
def profilesInUse (prog : List Byte) : List Nat := List.range (field prog 2 1)

def seasonStart (prog : List Byte) (i : Nat) : Nat × Nat := (field prog (4 + 2 * i) 1, field prog (5 + 2 * i) 1)

/-- Month and day in ascending order as one number. -/
def monthDay (x : Nat × Nat) : Nat := x.1 * 32 + x.2

/-- The season of a date. -/
def seasonOf (prog : List Byte) (d : Date) : Nat :=
  let n := field prog 1 1
  let started := (List.range n).filter (fun i => decide (monthDay (seasonStart prog i) ≤ monthDay (d.month, d.day)))
  started.getLast?.getD (n - 1)

/-- A special day entry: year less 2000 or 0xFF, month, day. -/
def specialDay (prog : List Byte) (i : Nat) : Nat × Nat × Nat :=
  (field prog (220 + 4 * i) 1, field prog (221 + 4 * i) 1, field prog (222 + 4 * i) 1)

/-- Day types: 0 weekday, 1 Saturday, 2 Sunday, 3 special. -/
def dayType (prog : List Byte) (n : Int) : Nat :=
  let d := dateOf n
  if (List.range (field prog 3 1)).any (fun i =>
      let e := specialDay prog i
      (e.1 == 0xFF || decide ((e.1 : Int) + 2000 = d.year)) && e.2.1 == d.month && e.2.2 == d.day) then 3
  else if weekday n = 6 then 1
  else if weekday n = 0 then 2
  else 0

/-- The valid switch points of a local day. -/
def dayPoints (prog : List Byte) (n : Int) : List SwitchPoint :=
  validPoints prog (field prog (12 + 4 * seasonOf prog (dateOf n) + dayType prog n) 1)

/-- The rate a program gives at an instant (R309). -/
def rateAt (cfg : List Setting) (prog : List Byte) (u : Int) : Nat :=
  let day := localDay cfg u
  (((dayPoints prog day).filter (fun p => decide (instantOf cfg day p.minute ≤ u))).getLast?).elim 1 (·.rate)

/-- The next instant after `u` at which a switch point lies. -/
def nextPoint (cfg : List Setting) (prog : List Byte) (u : Int) : Int :=
  let day := localDay cfg u
  match (dayPoints prog day).find? (fun p => decide (u < instantOf cfg day p.minute)) with
  | some p => instantOf cfg day p.minute
  | none => instantOf cfg (day + 1) 0

/-- The next instant after `u` at which 00:00 of a billing day lies (R316). -/
def nextBilling (cfg : List Setting) (day : Nat) (u : Int) : Int :=
  let d := dateOf (localDay cfg u)
  let this := instantOf cfg (dayNumber ⟨d.year, d.month, day⟩) 0
  if u < this then this
  else instantOf cfg (dayNumber (if d.month = 12 then ⟨d.year + 1, 1, day⟩ else ⟨d.year, d.month + 1, day⟩)) 0

/-- Length of a demand window's step in ms: the interval, or a fifth of it in sliding mode (R312). -/
def demandStep (interval mode : Nat) : Nat := if mode = 1 then interval * 12000 else interval * 60000

/-- The next demand close after `u`, aligned in local standard time (R312). -/
def nextDemand (offset : Int) (interval mode : Nat) (u : Int) : Int :=
  let off := offset * minuteMs
  let n : Int := max 1 (demandStep interval mode)
  ((u + off) / n + 1) * n - off

/-! ## Program checks (R311) -/

def dateOk (year : Option Nat) (m d : Nat) : Bool :=
  within 1 12 m && within 1 (match year with
    | some y => monthDays (2000 + y) m
    | none => monthDays 2000 m) d

/-- Strictly ascending. -/
def ascending : List Nat → Bool
  | a :: b :: rest => decide (a < b) && ascending (b :: rest)
  | _ => true

/-- Check 1: version, counts and reserved bits. -/
def programCheck1 (prog : List Byte) : Bool :=
  let n := field prog 1 1
  field prog 0 1 == 1 && within 1 4 n && within 1 8 (field prog 2 1) && decide (field prog 3 1 ≤ 32)
    && (List.range 4).all (fun i => decide (i < n) || seasonStart prog i == (0, 0))
    && (List.range 8).all (fun i => (profilePoints prog i).all (fun p => !p.reserved))
    && (List.range 32).all (fun i => field prog (223 + 4 * i) 1 == 0)

/-- Check 2: season starts, February to the 28th only. -/
def programCheck2 (prog : List Byte) : Bool :=
  let starts := (List.range (field prog 1 1)).map (seasonStart prog)
  starts.all (fun x => dateOk (some 1) x.1 x.2) && ascending (starts.map monthDay)

/-- Check 3: profile_map. -/
def programCheck3 (prog : List Byte) : Bool :=
  (List.range 16).all (fun i => decide (field prog (12 + i) 1 < field prog 2 1))

/-- Check 4: the switch points of every profile in use. -/
def programCheck4 (prog : List Byte) : Bool :=
  (profilesInUse prog).all (fun i =>
    let ms := (validPoints prog i).map (·.minute)
    ms.head? == some 0 && ascending ms && ms.all (fun m => decide (m ≤ 1439)))

/-- Check 5: special days in use. -/
def programCheck5 (prog : List Byte) : Bool :=
  (List.range (field prog 3 1)).all (fun i =>
    let e := specialDay prog i
    dateOk (if e.1 = 0xFF then none else some e.1) e.2.1 e.2.2)

/-- Rule C08: every rate the program uses is within the tariff count. -/
def ruleC08 (prog : List Byte) (count : Nat) : Bool :=
  (profilesInUse prog).all (fun i => (validPoints prog i).all (fun p => decide (p.rate ≤ count)))

/-- Rule C09: every switch point falls on a multiple of the demand interval. -/
def ruleC09 (prog : List Byte) (interval : Nat) : Bool :=
  (profilesInUse prog).all (fun i => (validPoints prog i).all (fun p => p.minute % interval == 0))

/-- Failing check 1 to 5, or 0 (R311). -/
def programFault (prog : List Byte) : Nat :=
  if !programCheck1 prog then 1 else if !programCheck2 prog then 2 else if !programCheck3 prog then 3
  else if !programCheck4 prog then 4 else if !programCheck5 prog then 5 else 0

end Sys2Proof.Machine
end

