-- ==== Sys2Proof/Machine/KeepOps.lean ====
section
/-! DEFINITION. Operations of the legal partition: energies and registers (R184 to R188), status words (R174, R194), latched sets
and saves (R190 to R197), and the walk over boundaries at a latch (R312 to R328). -/

namespace Sys2Proof.Machine

/-- The metrology DSP and the modulators run. -/
def State.dspUp (s : State) : Bool := s.up .cd4 && s.up .cd3

/-- The Keep runs (R13). -/
def State.keepUp (s : State) : Bool := s.up .cd6

/-- A request that the Keep serves, while it is in reset (R102). -/
def keepServes (r : Req) (k : State → State) (s : State) : State :=
  if s.keepUp then k s else refuse r stIslandRestarting s

/-! ## Accumulators -/

/-- An accumulator is a 64-bit count with a 32-bit fraction (R186). -/
def w96 (n : Nat) : Nat := n % 79228162514264337593543950336

/-- The integer part of an accumulator, in mWh. -/
def mwh (a : Nat) : Nat := w64 (a / 4294967296)

/-- Legal value in Wh and wrap count of an accumulator in mWh (R187). -/
def legalValue (a : Nat) : Nat := a / 1000 % 100000000000
def legalWraps (a : Nat) : Nat := a / 100000000000000 % 256

/-- Compact register in Wh (R188). -/
def compactOf (a : Nat) : Nat := w32 (a / 1000)

/-- What one cycle adds from active, reactive and apparent energy (R184). -/
def Quant.ofCycle (p q : Int) (v : Nat) : Quant where
  eai := if 0 ≤ p then p.toNat else 0
  eae := if 0 ≤ p then 0 else (-p).toNat
  eq1 := if 0 ≤ p ∧ 0 ≤ q then q.toNat else 0
  eq2 := if p < 0 ∧ 0 ≤ q then q.toNat else 0
  eq3 := if p < 0 ∧ q < 0 then (-q).toNat else 0
  eq4 := if 0 ≤ p ∧ q < 0 then (-q).toNat else 0
  es := v

def Quant.add (a b : Quant) : Quant :=
  ⟨w96 (a.eai + b.eai), w96 (a.eae + b.eae), w96 (a.eq1 + b.eq1), w96 (a.eq2 + b.eq2), w96 (a.eq3 + b.eq3),
    w96 (a.eq4 + b.eq4), w96 (a.es + b.es)⟩

/-- A quantity's seven values in mWh, mvarh and mVAh. -/
def Quant.bytes (a : Quant) : List Byte :=
  le 8 (mwh a.eai) ++ le 8 (mwh a.eae) ++ le 8 (mwh a.eq1) ++ le 8 (mwh a.eq2) ++ le 8 (mwh a.eq3) ++ le 8 (mwh a.eq4)
    ++ le 8 (mwh a.es)

/-- One tariff register increased (R193). -/
def addRate (v : Vector Nat 8) (rate n : Nat) : Vector Nat 8 :=
  if h : rate - 1 < 8 then v.set (rate - 1) (w96 (v[rate - 1] + n)) else v

/-- A set's accumulators with the increments of a period credited to a rate (R193). -/
def SetRegs.credit (r : SetRegs) (f : SetFeed) (rate : Nat) : SetRegs where
  total := r.total.add f.total
  phases := Vector.zipWith Quant.add r.phases f.phases
  tariffEai := addRate r.tariffEai rate f.total.eai
  tariffEae := addRate r.tariffEae rate f.total.eae

/-! ## Status words -/

/-- Bits of a channel word that enter the set's word: [10:8] and [6:2] (R194). -/
def setMask : Word16 := 0x077C

def bFactory : Word16 := 0x0400
def bUnsync : Word16 := 0x0200
def bVAbsent : Word16 := 0x0100
def bFloor : Word16 := 0x0080
def bOver : Word16 := 0x0040
def bObscured : Word16 := 0x0020
def bLost : Word16 := 0x0010
def bOotPhase : Word16 := 0x0008
def bOotGain : Word16 := 0x0004
def bSwitched : Word16 := 0x0002
def bX16 : Word16 := 0x0001
def bRestored : Word16 := 0x0800
def bDisabled : Word16 := 0x0001

def flag (b : Bool) (w : Word16) : Word16 := if b then w else 0

/-- The word puts its set out of tolerance (R194). -/
def outOfTolerance (w : Word16) : Bool := w &&& 0x005C != 0

/-- REG_READ's two words. -/
def wordBytes (w : Word16) : List Byte := le 2 w.toNat

/-! ## Latched sets -/

/-- A legal register: wrap count, then value. -/
def legalBytes (a : Nat) : List Byte := le 8 (legalValue (mwh a))

/-- A 32-bit signed power, saturating. -/
def powerBytes (p : Int) : List Byte := leInt 4 (max (-2147483648) (min 2147483647 p))

/-- T1 to T8 in mWh; rates beyond the tariff count read 0 (R203). -/
def rateBytes (v : Vector Nat 8) (count : Nat) : List Byte :=
  (List.range 8).flatMap (fun i => le 8 (if i < count then mwh (v.toList.getD i 0) else 0))

/-- REG_READ's response (R203). -/
def regBytes (l : Latched) (set source count : Nat) : List Byte :=
  let x := l.sets.toList.getD set LatchedSet.zero
  le 1 set ++ le 1 source ++ wordBytes x.status ++ wordBytes x.sticky ++ le 2 l.cycles ++ le 4 l.seq ++ le 6 l.time
    ++ le 1 (legalWraps (mwh x.regs.total.eai)) ++ le 1 (legalWraps (mwh x.regs.total.eae))
    ++ legalBytes x.regs.total.eai ++ legalBytes x.regs.total.eae ++ x.regs.total.bytes
    ++ (x.regs.phases.toList.flatMap Quant.bytes) ++ rateBytes x.regs.tariffEai count ++ rateBytes x.regs.tariffEae count
    ++ powerBytes x.pMw ++ powerBytes x.qMvar ++ zeros 4

/-- One entry of REG_READ_SET's response (R204). -/
def setEntry (l : Latched) (set : Nat) : List Byte :=
  let x := l.sets.toList.getD set LatchedSet.zero
  le 1 set ++ [0] ++ wordBytes x.status ++ le 4 (compactOf (mwh x.regs.total.eai)) ++ le 4 (compactOf (mwh x.regs.total.eae))
    ++ powerBytes x.pMw ++ powerBytes x.qMvar ++ wordBytes x.sticky ++ [0, 0]

/-- REG_READ_SET's response for a list of sets (R204, R207). -/
def setsBytes (l : Latched) (sets : List Nat) : List Byte :=
  le 4 l.seq ++ le 6 l.time ++ le 1 sets.length ++ [0] ++ sets.flatMap (setEntry l)

/-- The port an event of a register set concerns (R570). -/
def setPort (set : Nat) : Option Port := portOf set

/-- Tariff rates in use (R318): tariff_count takes effect at the allocation boundary. -/
def State.tariffCount (s : State) : Nat := s.cfg 0x0401 0

/-- Strobes from one index to a later one, modulo 2^32 (R152). -/
def strobesSince (start now : Nat) : Nat := w32 (now + 4294967296 - w32 start)

/-! ## Saves (R195 to R197) -/

/-- What a request held back for a save does once the save is complete: SOFT_RESET and DORMANT complete, and the always-on domain
holds the reset or the entry for 100 ms (R523, R526); an activation goes on by its own row (R492). -/
def afterSave (s : State) (w : SaveFor) : State :=
  match w, s.power.shutdown with
  | .softReset, some d =>
    if d.waitingSave && !d.dormant then
      finish d.request stOk [] (s.withPower { s.power with shutdown := none, pendingReset := some (s.now + 100) })
    else s
  | .dormant, some d =>
    if d.waitingSave && d.dormant then
      finish d.request stOk [] (s.withPower { s.power with shutdown := none, pendingDormant := some (s.now + 100) })
    else s
  | .activation, _ => s
  | _, none => s

/-- A save in the older copy, made current by its sequence number (R87, R196). -/
def Keep.writeSave (k : Keep) (v : Save) : Keep := { k with saved := some v, savedOlder := k.saved, savedSeq := k.savedSeq + 1 }

/-- The save's copy and then its sequence number are written: it is in force (R196). -/
def completeSave (s : State) : State :=
  match s.keep.saving with
  | some (v, fors) => fors.foldl afterSave (s.withKeep ({ s.keep with saving := none }.writeSave v))
  | none => s

/-! ## Boundaries (R312 to R328) -/

/-- What a walk over boundaries knows: the applied settings, the programs, the strobe and period of the latch, the forward step being
executed, and whether every window it closes is incomplete (R327). -/
structure WalkEnv where
  settings : List Setting
  count : Nat
  programs : List (Nat × List Byte)
  strobe : Nat
  latchMs : Nat
  step : Option (Nat × Nat)
  incomplete : Bool
  uncertain : Bool
  now : Nat
  deriving DecidableEq, Repr

/-- A billing close of the walk: period, start, end, flags, program at the period's start, rate at the close and the maxima. -/
structure WalkClose where
  period : Nat
  start : Nat
  end_ : Nat
  flags : Nat
  program : Nat
  rate : Nat
  maxImport : Vector (Vector MaxDemand 8) 29
  maxExport : Vector (Vector MaxDemand 8) 29
  deriving DecidableEq, Repr

/-- The walk's progress: the demand and tariff state it has reached and what its boundary record will say. -/
structure Walk where
  demand : Demand
  tariff : Tariff
  kinds : Nat
  first : Option Nat
  last : Nat
  windows : Nat
  closes : Nat
  switches : Nat
  flags : Nat
  close : Option WalkClose
  scheduled : Bool
  changed : List (Nat × Nat × Nat)
  deriving DecidableEq, Repr

def WalkEnv.program (e : WalkEnv) (handle : Nat) : List Byte :=
  ((e.programs.find? (fun p => p.1 == handle)).elim [] (·.2))

/-- Programs of the channel table. -/
def State.programs (s : State) : List (Nat × List Byte) :=
  s.rotunda.channels.filterMap (fun c =>
    match c.body with
    | .program _ bytes => some (c.handle, bytes)
    | _ => none)

/-- Settings of the 0x04xx range that the allocation boundary has taken (R318). -/
def State.billingSettings (s : State) : List Setting := s.rotunda.applied.filter (fun c => c.field / 256 == 4)

def setInterval (cfg : List Setting) : Nat := getRaw cfg 0x0402 0
def setMode (cfg : List Setting) : Nat := getRaw cfg 0x0403 0
def billingDay (cfg : List Setting) : Nat := getRaw cfg 0x0404 0

/-- The larger of a maximum and a window's demand (R315). -/
def MaxDemand.raise (m : MaxDemand) (mw time : Nat) : MaxDemand := if m.mw < mw then ⟨mw, time⟩ else m

/-- One rate's maxima raised by the demands of the 29 sets. -/
def raiseMax (v : Vector (Vector MaxDemand 8) 29) (rate time : Nat) (mw : Fin 29 → Nat) : Vector (Vector MaxDemand 8) 29 :=
  if h : rate - 1 < 8 then
    Vector.ofFn (fun i => (v[i]).set (rate - 1) (((v[i])[rate - 1]).raise (mw i) time))
  else v

/-- Demand in mW of an energy in 2^-32 mWh over a time in ms (R313). -/
def demandOf (energy ms : Nat) : Nat := sat 4294967295 (energy * 3600000 / (4294967296 * max 1 ms))

/-- Sub-intervals of the window that closes. -/
def Demand.window (d : Demand) : List SubInterval := d.current :: (if d.mode = 1 then d.previous.take 4 else [])

/-- Energy of a set in the window, import or export, of the sub-intervals that began under the credited rate (R315). -/
def Demand.energy (d : Demand) (export_ : Bool) (i : Fin 29) : Nat :=
  d.window.foldl (fun n x => if x.rate = d.current.rate then n + (if export_ then x.energy[i].2 else x.energy[i].1) else n) 0

/-- A window that opens at an instant: it begins short when a forward step lands after it (R322). -/
def newSub (e : WalkEnv) (t rate : Nat) : SubInterval :=
  ⟨rate, e.strobe, e.step.any (fun x => decide (t < x.2)), false, Vector.replicate 29 (0, 0)⟩

/-- The demand state after a close: the next window follows the settings in effect (H10). -/
def Demand.next (d : Demand) (e : WalkEnv) (cfg : List Setting) (t rate : Nat) : Demand :=
  let same := d.interval == setInterval cfg && d.mode == setMode cfg && d.offset == stdOffset cfg
  { d with
    interval := setInterval cfg, mode := setMode cfg, offset := stdOffset cfg, current := newSub e t rate
    previous := if same && d.mode == 1 then (d.current :: d.previous).take 4 else [] }

/-- A demand close (R313 to R315). -/
def Walk.demandClose (e : WalkEnv) (t : Nat) (w : Walk) : Walk :=
  let d := w.demand
  let nominal := d.interval * 60000
  let elapsed := strobesSince ((d.window.getLast?.getD d.current).start) e.strobe / 8
  let ms := max nominal elapsed
  let short := decide (elapsed < nominal) && d.window.any (·.short)
  let incomplete := e.incomplete || d.window.any (·.incomplete)
  let extended := decide (nominal + e.latchMs < elapsed)
  let d2 : Demand := { d with
    maxImport := raiseMax d.maxImport d.current.rate t (fun i => demandOf (d.energy false i) ms)
    maxExport := raiseMax d.maxExport d.current.rate t (fun i => demandOf (d.energy true i) ms) }
  { w with
    demand := d2.next e w.tariff.settings t w.tariff.rate
    windows := w.windows + 1
    kinds := w.kinds ||| 1
    flags := w.flags ||| (b1 incomplete * 64 + b1 short * 32 + b1 extended * 16)
    tariff := { w.tariff with flags := w.tariff.flags ||| (b1 incomplete * 128) } }

/-- The pending program comes at this instant (R335). -/
def PendingProgram.due (p : PendingProgram) (t : Nat) (dem bil : Bool) : Bool :=
  (p.when_ == 2 && decide (p.instant ≤ t)) || (p.when_ == 1 && dem) || (p.when_ == 0 && bil)

/-- The pending program put in force, or refused by its second check (R311). -/
def Walk.takeProgram (e : WalkEnv) (cfg : List Setting) (p : PendingProgram) (w : Walk) : Walk :=
  let prog := e.program p.handle
  let previous := w.tariff.program.getD 0
  let fault := if !ruleC08 prog e.count then 6 else if !ruleC09 prog (setInterval cfg) then 7 else 0
  if fault = 0 then
    { w with
      tariff := { w.tariff with program := some p.handle, pending := none, flags := w.tariff.flags ||| 16 }
      kinds := w.kinds ||| 2, flags := w.flags ||| 8, changed := w.changed ++ [(p.handle, previous, 0)] }
  else
    { w with
      tariff := { w.tariff with pending := none }, changed := w.changed ++ [(p.handle, previous, fault)] }

/-- The rate that the tariff state gives at an instant (R309): T1 with no program. -/
def Tariff.rateNow (e : WalkEnv) (cfg : List Setting) (t : Nat) (x : Tariff) : Nat :=
  x.program.elim 1 (fun h => rateAt cfg (e.program h) t)

/-- A tariff switch, or none where the rate stays (R309). -/
def Walk.switch (e : WalkEnv) (cfg : List Setting) (t : Nat) (w : Walk) : Walk :=
  let rate := w.tariff.rateNow e cfg t
  if rate = w.tariff.rate then w else { w with tariff := { w.tariff with rate := rate }, kinds := w.kinds ||| 2 }

/-- Two periods' maxima joined: several closes of one write make one snapshot (R322). -/
def mergeMax (a b : Vector (Vector MaxDemand 8) 29) : Vector (Vector MaxDemand 8) 29 :=
  Vector.zipWith (fun x y => Vector.zipWith (fun m n => m.raise n.mw n.time) x y) a b

/-- A billing close (R316, R317): the maxima start again and the committed settings take effect (R318). -/
def Walk.billingClose (e : WalkEnv) (t : Nat) (opened : Bool) (w : Walk) : Walk :=
  let x := w.tariff
  let d := w.demand
  let c : WalkClose := match w.close with
    | none => ⟨x.period, x.periodStart, t, x.flags, x.startProgram, x.rate, d.maxImport, d.maxExport⟩
    | some c => { c with
        end_ := t, flags := c.flags ||| x.flags, rate := x.rate
        maxImport := mergeMax c.maxImport d.maxImport, maxExport := mergeMax c.maxExport d.maxExport }
  let d2 : Demand := { d with maxImport := Demand.reset.maxImport, maxExport := Demand.reset.maxExport }
  { w with
    demand := if opened then
        { d2 with interval := setInterval e.settings, mode := setMode e.settings, offset := stdOffset e.settings
                  previous := if d.interval = setInterval e.settings ∧ d.mode = setMode e.settings then d.previous else [] }
      else d2
    tariff := { x with
      settings := e.settings, period := w32 (x.period + 1), periodStart := t, startProgram := x.program.getD 0, flags := 0
      lastCloseAt := some e.now }
    close := some c, closes := w.closes + 1, kinds := w.kinds ||| 4 }

/-- Every boundary of one instant: demand close, tariff switch, billing close (R325). -/
def Walk.instant (e : WalkEnv) (t : Nat) (dem bil : Bool) (w0 : Walk) : Walk :=
  let cfg := if bil then e.settings else w0.tariff.settings
  let w1 := if dem then w0.demandClose e t else w0
  let w2 := match w1.tariff.pending with
    | some p => if p.due t dem bil then w1.takeProgram e cfg p else w1
    | none => w1
  let w3a := w2.switch e cfg t
  let w3 := if w3a.tariff.rate = w1.tariff.rate ∧ w3a.tariff.program = w1.tariff.program then w3a
    else { w3a with switches := w3a.switches + 1 }
  let w4 := if dem then { w3 with demand := { w3.demand with current := { w3.demand.current with rate := w3.tariff.rate } } }
    else w3
  let w5 := if bil then w4.billingClose e t dem else w4
  if w5.kinds = w0.kinds ∧ w5.windows = w0.windows ∧ w5.closes = w0.closes ∧ w5.changed = w0.changed
      ∧ w5.tariff.rate = w0.tariff.rate then w5
  else { w5 with first := some (w0.first.getD t), last := t }

/-- The next demand close, switch point, activation instant and billing close after an instant. -/
def Walk.candidates (e : WalkEnv) (u : Nat) (w : Walk) : Nat × List Nat × Option Nat :=
  let d := w.demand
  let x := w.tariff
  ((nextDemand d.offset d.interval d.mode u).toNat,
   (x.program.elim [] (fun h => [(nextPoint x.settings (e.program h) u).toNat])) ++
     (match x.pending with
      | some p => if p.when_ = 2 then [max (u + 1) p.instant] else []
      | none => []),
   if billingDay x.settings = 0 then none else some (nextBilling x.settings (billingDay x.settings) u).toNat)

/-- Every boundary after `u` and at or before `limit`, in order of instant (R325). -/
def Walk.upTo (e : WalkEnv) (limit : Nat) : Nat → Nat → Walk → Walk
  | 0, _, w => w
  | n + 1, u, w =>
    let c := w.candidates e u
    let t := (c.2.1 ++ c.2.2.toList).foldl min c.1
    if limit < t ∨ t ≤ u then w
    else
      let bil := c.2.2 == some t
      let w1 := w.instant e t (c.1 == t) bil
      Walk.upTo e limit n t (if bil then { w1 with scheduled := true } else w1)

/-- A walk that has met nothing yet. -/
def Walk.start (d : Demand) (x : Tariff) : Walk := ⟨d, x, 0, none, 0, 0, 0, 0, 0, none, false, []⟩

/-- Something was processed, so a boundary write follows. -/
def Walk.any (w : Walk) : Bool := w.first.isSome

/-- Iterations that suffice between two instants: boundaries lie whole minutes apart. -/
def walkFuel (u limit : Nat) : Nat := (limit - u) / 60000 + 3

/-- The environment of a walk now. -/
def State.walkEnv (s : State) (step : Option (Nat × Nat)) (incomplete : Bool) : WalkEnv where
  settings := s.billingSettings
  count := s.tariffCount
  programs := s.programs
  strobe := s.dsp.strobe
  latchMs := strobesSince s.keep.latchStrobe s.dsp.strobe / 8
  step := step
  incomplete := incomplete
  uncertain := s.keep.uncertain
  now := s.now

/-- The walk to an instant from the last one processed. -/
def walkTo (e : WalkEnv) (limit : Nat) (w : Walk) : Walk :=
  w.upTo e limit (walkFuel w.tariff.processedTo limit) w.tariff.processedTo

/-! ## Boundary writes (R326) -/

/-- Bytes 0 to 47 of a boundary record. -/
def BoundaryRecord.bytes (r : BoundaryRecord) : List Byte :=
  le 4 r.seq ++ le 1 r.kinds ++ le 1 r.cause ++ le 6 r.first ++ le 6 r.last ++ le 6 r.latchTime ++ le 4 r.latchSeq
    ++ le 2 r.windows ++ le 2 r.closes ++ le 1 r.rateBefore ++ le 1 r.rateAfter ++ le 1 r.flags ++ [0] ++ le 4 r.period
    ++ le 4 r.program ++ le 4 r.saveSeq

/-- The boundary write of a walk: its save, its record and its snapshot. `fromSave` marks values of an older save (R327). -/
def boundaryWrite (w : Walk) (cause : Nat) (latched : Latched) (fromSave : Bool) (s : State) : BoundaryWrite :=
  let k := s.keep
  let x := { w.tariff with processedTo := max w.tariff.processedTo k.billing }
  let rec_ : BoundaryRecord :=
    ⟨w32 k.boundarySeq, w.kinds, cause, w.first.getD 0, w.last, k.billing, latched.seq, w16 w.windows, w16 w.closes,
      k.tariff.rate, x.rate, w.flags ||| (b1 fromSave * 128 + b1 k.uncertain * 4), x.period, x.program.getD 0, latched.seq⟩
  let mark (l : LatchedSet) : LatchedSet := if fromSave then { l with sticky := l.sticky ||| bRestored } else l
  { save := ⟨latched, w.demand, x, k.billing⟩
    record := rec_
    snapshot := w.close.map (fun c =>
      ⟨c.rate, c.period, c.start, c.end_, cause, c.flags ||| (b1 k.uncertain * 8), c.program, latched.sets.map mark,
        c.maxImport, c.maxExport⟩)
    closed := w.close.map (fun c => (c.period, c.end_, cause))
    changed := w.changed
    count := w.windows + w.closes + w.switches
    fors := [] }

/-- A program's channel given another state. -/
def setProgram (handle : Nat) (st : ProgramState) (s : State) : State :=
  match s.channelOf handle with
  | some c =>
    match c.body with
    | .program _ bytes => setBody c.slot (.program st bytes) s
    | _ => s
  | none => s

def ProgramState.code : ProgramState → Nat
  | .inactive => 1
  | .pending => 2
  | .active => 3

/-- The legal log's record of a program change (R305, R354). -/
def programLog (origin handle old new_ : Nat) (s : State) : State :=
  keepLog 0x0031 origin (le 2 0 ++ [0, 0] ++ le 4 old ++ le 4 new_ ++ le 4 handle) s

/-- TARIFF_CHANGED with the states of the two programs (R311, R335, R336). -/
def programChanged (s : State) (c : Nat × Nat × Nat) : State :=
  let s1 := if c.2.2 = 0 then
      setProgram c.1 .active (if c.2.1 = 0 ∨ c.2.1 = c.1 then s
        else programLog originKeep c.2.1 3 1 (setProgram c.2.1 .inactive s))
    else setProgram c.1 .inactive s
  raise 0x8093 none (le 4 c.1 ++ le 4 c.2.1 ++ le 1 c.2.2 ++ [0] ++ le 6 s1.keep.billing)
    (programLog originKeep c.1 2 (if c.2.2 = 0 then 3 else 1) s1)

/-- The end of a TIME_SET: its completion and TIME_CHANGED (R332, R336). -/
def finishTimeSet (count : Nat) (s : State) (w : Waiting) : State :=
  let pay := w.extra ++ le 2 (sat 65535 count) ++ [0, 0]
  raise 0x8092 none (le 1 w.box.val ++ [0] ++ pay) (finish w stOk pay s)

/-- Requests that a committed write completes (R332, R334). -/
def finishKeepWaiting (b : BoundaryWrite) (s : State) : State :=
  let ws := s.keep.waiting
  let done (w : Waiting) : Bool := w.opcode == 0x0112 || (w.opcode == 0x0505 && b.closed.isSome)
  let s1 := s.withKeep { s.keep with waiting := ws.filter (fun w => !done w) }
  (ws.filter done).foldl (fun s w =>
    if w.opcode = 0x0112 then finishTimeSet b.count s w
    else
      let c := b.closed.getD (0, 0, 0)
      finish w stOk (le 4 c.1 ++ le 6 c.2.1 ++ [0, 0]) s) s1

/-- The commit word is written: save, snapshot and record come into force together (R326), with their events (R336), and requests that
waited for a save at this write's latch go on (R197). -/
def commitWrite (s : State) : State :=
  match s.keep.writing with
  | none => s
  | some b =>
    let k := s.keep
    let s1 := s.withKeep ({ k with
      writing := none, demand := b.save.demand, tariff := b.save.tariff
      snapshots := (b.snapshot.toList ++ k.snapshots).take 24, boundaries := (b.record :: k.boundaries).take 256
      boundarySeq := w32 (k.boundarySeq + 1)
      sticky := if b.closed.isSome then Vector.replicate 29 0 else k.sticky }.writeSave b.save)
    let s2 := raise 0x8090 none b.record.bytes s1
    let s3 := match b.closed with
      | some c => raise 0x8091 none (le 4 c.1 ++ le 6 c.2.1 ++ le 1 c.2.2 ++ [0]) s2
      | none => s2
    let s4 := finishKeepWaiting b (b.changed.foldl programChanged s3)
    b.fors.foldl afterSave (trace 6 0x07 (le 4 b.record.latchSeq ++ le 1 b.record.kinds ++ [0]) s4)

end Sys2Proof.Machine
end

