-- ==== Sys2Proof/Machine/Sampling.lean ====
section
/-! DEFINITION. What the metrology DSP makes of the samples of its modulators: stages 4 to 7 of the metering branch (R153 to R157), the
fast branch (R155), and the tone that both subtract and that the windows measure (R162, R163, R167). -/

/-- The overload detector fires above 36.75 mV in magnitude (R156). -/
def Sys2Proof.PathStrobe.overload (x : Sys2Proof.PathStrobe) : Bool := decide (36750 < x.peak)

/-- A zero crossing in ns of input instant since the release of the modulators: between its two samples, 46.875 µs before the second branch
gives them (R155). -/
def Sys2Proof.ZeroCrossing.instant (x : Sys2Proof.ZeroCrossing) : Nat :=
  15625 * x.sample + 15625 * x.before / max 1 (x.before + x.after) - 46875

/-- What detects a frequency (R159): the periods between the crossings, and the last crossing. -/
def Sys2Proof.FrequencyFound.periods (x : Sys2Proof.FrequencyFound) : List Nat :=
  List.zipWith (fun a b => Sys2Proof.ZeroCrossing.instant b - Sys2Proof.ZeroCrossing.instant a) x.crossings (x.crossings.drop 1)

def Sys2Proof.FrequencyFound.crossing (x : Sys2Proof.FrequencyFound) : Nat := x.crossings.getLast?.elim 0 Sys2Proof.ZeroCrossing.instant

/-- The half-cycle of a publication in microseconds, and the strobe of its last sample's input instant (R31, R155). -/
def Sys2Proof.MirrorPub.halfUs (x : Sys2Proof.MirrorPub) : Nat := x.count * 125 / 8

def Sys2Proof.MirrorPub.strobe (x : Sys2Proof.MirrorPub) : Nat := (x.start + x.count - 4) / 8

namespace Sys2Proof.Machine

/-! ## Channels and sums -/

/-- Modulators of a channel (R148). -/
def modulatorsOf (c : Channel88) : List (Fin 160) :=
  if h : c.val < 72 then [⟨2 * c.val, by omega⟩, ⟨2 * c.val + 1, by omega⟩] else [⟨c.val + 72, by omega⟩]

/-- The greatest number whose square is at or below another, found bit by bit. -/
def isqrt (n : Nat) : Nat :=
  ((List.range 72).reverse).foldl (fun r k => if (r + 2 ^ k) * (r + 2 ^ k) ≤ n then r + 2 ^ k else r) 0

/-- Sum of the products of two channels' samples. -/
def sumProduct (v i : List Int) : Int := (List.zipWith (· * ·) v i).sum

def sumSquare (x : List Int) : Nat := (x.map (fun a => a.natAbs * a.natAbs)).sum

/-- True RMS over `n` samples. -/
def rmsOf (n : Nat) (x : List Int) : Nat := isqrt (sumSquare x / max 1 n)

/-- The present instant since the release of the modulators, in ns of input instant (R154). -/
def State.inputNow (s : State) : Nat := 1000000 * (s.now - s.dsp.releasedAt)

/-! ## The tone (R162, R163, R167) -/

/-- The increment of the tone synthesiser's 32-bit phase accumulator for 3210.000 Hz at 4.096 MHz, the nearest (R162). -/
def toneIncrement : Nat := (3210 * 4294967296 + 2048000) / 4096000

/-- The synthesiser's phase after a number of clocks, in 2^-32 of a turn. -/
def tonePhaseAt (clocks : Nat) : Nat := w32 (toneIncrement * clocks)

/-- An angle of 0.001 degrees in 2^-32 of a turn. -/
def turnOf (deg : Int) : Nat := ((deg % 360000) * 4294967296 / 360000).toNat

/-- A path's tone at the input in nV, rebuilt from the synthesiser's phase and the phasor in use (R167). -/
def Tone.wave (t : Tone) (clocks : Nat) : Int :=
  if t.amplitude = 0 then 0
  else (t.amplitude : Int) * 1414213562 * sin32 (tonePhaseAt clocks + turnOf t.phasor) / (1000000000 * one30)

/-- What a tone window of 10 s measures of a path (R163): the magnitudes at 3205 Hz and 3215 Hz and the phasor's amplitude in nV, and the
phasor's phase in 0.001 degrees. -/
structure ToneWindow where
  side3205 : Nat
  side3215 : Nat
  amplitude : Nat
  phase : Int
  deriving DecidableEq, Repr

/-- The Hann weight of a sample of a window of 80 000, in 2^-30. -/
def hann (k : Nat) : Int := (one30 - cos32 (k * 4294967296 / 80000)) / 2

/-- Samples demodulated by an oscillator's phase under Hann weighting: the parts in phase and in quadrature. -/
def demodulate (phase : Nat → Nat) (samples : List Int) : Int × Int :=
  (samples.zipIdx.take 80000).foldl (fun acc (x : Int × Nat) =>
    let w := hann x.2 * x.1
    (acc.1 + w * sin32 (phase x.2) / one30, acc.2 + w * cos32 (phase x.2) / one30)) (0, 0)

/-- The magnitude in nV rms of demodulated parts: the weights' sum is 40 000, and a sine of amplitude A gives half of A. -/
def magnitudeOf (x : Int × Int) : Nat := isqrt (2 * ((x.1 / one30) * (x.1 / one30) + (x.2 / one30) * (x.2 / one30)).toNat) / 40000

/-- The angle of the first quarter whose tangent is y / x, in 0.001 degrees, found by halving an interval `n` times. -/
def atanBetween (x y : Nat) : Nat → Nat → Nat → Nat
  | 0, lo, _ => lo
  | n + 1, lo, hi =>
    let mid := (lo + hi + 1) / 2
    if (x : Int) * sin32 (turnOf mid) ≤ y * cos32 (turnOf mid) then atanBetween x y n mid hi else atanBetween x y n lo (mid - 1)

/-- The angle of a phasor in 0.001 degrees, −180.000 to +180.000. -/
def angleOf (x y : Int) : Int :=
  let a : Int := if x = 0 ∧ y = 0 then 0 else atanBetween x.natAbs y.natAbs 17 0 90000
  if 0 ≤ x then (if 0 ≤ y then a else -a) else if 0 ≤ y then 180000 - a else a - 180000

/-- The window measured: 80 000 samples of stage 3 demodulated with the synthesiser's own phase, and in the same way at 3205 Hz and 3215 Hz
(R163); a sample not listed is 0. -/
def measureTone (strobe : Nat) (samples : List Int) : ToneWindow :=
  let side (hz : Nat) := magnitudeOf (demodulate (fun k => hz * (strobe + k) % 8000 * 4294967296 / 8000) samples)
  let own := demodulate (fun k => tonePhaseAt (512 * (strobe + k))) samples
  ⟨side 3205, side 3215, magnitudeOf own, angleOf own.1 own.2⟩

/-! ## Stages 4 and 5 (R153, R154, R164, R167) -/

/-- One strobe in picoseconds, and the samples that are kept before a cycle: of each modulator for stage 4, of each voltage for the quarter
of a period. -/
def strobePs : Nat := 125000000
def tapCount : Nat := 8
def delayCount : Nat := 48

/-- `n` samples of a list, 0 where it has none. -/
def padTo (n : Nat) (xs : List Int) : List Int := xs.take n ++ List.replicate (n - xs.length) 0

/-- Four samples, the newest first, interpolated between the middle two at a fraction of a strobe: the cubic through all four, exactly,
times 6 strobes cubed. DESIGN CHOICE (log 205). unsafe. -/
def cubic (a b c d r : Int) : Int :=
  let q : Int := strobePs
  3 * (r + q) * (r - q) * (r - 2 * q) * b - r * (r - q) * (r - 2 * q) * a - 3 * (r + q) * r * (r - 2 * q) * c + (r + q) * r * (r - q) * d

/-- The divisor that goes with `cubic`. -/
def cubicUnit : Int := 6 * (strobePs : Int) * strobePs * strobePs

/-- `n` samples delayed by a time in ps, from a list that begins `before` samples earlier; times `cubicUnit`. -/
def delayBy (before n : Nat) (ps : Int) (xs : List Int) : List Int :=
  let whole := (ps / strobePs).toNat
  let r := ps % strobePs
  let d := xs.drop (before - whole - 2)
  (List.range n).zipWith (fun _ x => cubic x.1 x.2.1 x.2.2.1 x.2.2.2 r)
    ((d.drop 3).zip ((d.drop 2).zip ((d.drop 1).zip d)))

/-- A modulator's samples of stage 3 over `n` strobes, those kept from before it in front. -/
def Dsp.stage3 (d : Dsp) (x : CycleData) (n : Nat) (m : Fin 160) : List Int :=
  d.taps[m] ++ padTo n ((x.modulators.find? (fun s => s.modulator == m)).elim [] (·.samples))

/-- The same with the path's tone subtracted. Stages 4 and 5 are linear, so the waveform rebuilt and passed through them, as R167 has it
subtracted, is the same as what they make of the rest. -/
def Dsp.withoutTone (d : Dsp) (m : Fin 160) (xs : List Int) : List Int :=
  if h : m.val < 144 then
    let t := d.tones[m.val]'h
    if t.amplitude = 0 then xs
    else xs.zipIdx.map (fun (x : Int × Nat) => x.1 - t.wave (512 * (d.strobe + 4294967296 - tapCount + x.2)))
  else xs

/-- What a path gives after stage 5, in 2^-16 nV at the input: the fixed delay of 0.500 ms with the path's own, its calibration gain and its
tone's gain correction. -/
def Dsp.stage5 (d : Dsp) (x : CycleData) (n : Nat) (m : Fin 160) : List Int :=
  let g : Int := if h : m.val < 144 then (d.tones[m.val]'h).gain else 0
  let k : Int := (d.cal[m]).gain * (1000000 + g) * 65536
  (delayBy tapCount n (500000000 + d.delays[m]) (d.withoutTone m (d.stage3 x n m))).map (fun y =>
    Int.tdiv (y * k) (cubicUnit * one30 * 1000000))

/-! ## Stages 6 and 7 (R153, R157) -/

/-- The path of a channel at a strobe, counted from the start of the cycle in progress: that in use now, but for the changes after it. -/
def Dsp.usesX16 (d : Dsp) (c : Fin 72) (k : Int) : Bool :=
  xor d.x16[c] (decide (((d.pathChanges[c]).filter (fun j => decide (k < j))).length % 2 = 1))

/-- A channel's samples after stage 6. -/
def Dsp.stage6 (d : Dsp) (x : CycleData) (n : Nat) (c : Channel88) : List Int :=
  if h : c.val < 72 then
    ((d.stage5 x n ⟨2 * c.val, by omega⟩).zip (d.stage5 x n ⟨2 * c.val + 1, by omega⟩)).zipIdx.map
      (fun y => if d.usesX16 ⟨c.val, h⟩ y.2 then y.1.2 else y.1.1)
  else d.stage5 x n ⟨c.val + 72, by omega⟩

/-- The coefficient of the high-pass of 0.5 Hz at 8 kS/s in 2^-30: 1 − π / 8000. DESIGN CHOICE (log 205). unsafe. -/
def highPassPole : Int := 1073320167

/-- Stage 7 from the last sample in and the last out: its samples, and what it keeps. -/
def highPass : Int × Int → List Int → List Int × (Int × Int)
  | st, [] => ([], st)
  | st, x :: xs =>
    let y := Int.tdiv ((st.2 + x - st.1) * highPassPole) one30
    let r := highPass (x, y) xs
    (y :: r.1, r.2)

/-- nV at the input as mV or µA of the channel (R150). -/
def State.scaled (s : State) (c : Channel88) (nv : Int) (unit : Nat) : Int :=
  if c.val < 72 then Int.tdiv nv (4 * unit : Nat)
  else if c.val < 76 then Int.tdiv (nv * getRaw s.dsp.settings 0x0303 0) (4000 * unit : Nat)
  else if c.val < 80 then Int.tdiv (nv * getRaw s.dsp.settings 0x0306 (c.val - 76)) (4000 * unit : Nat)
  else Int.tdiv (nv * 1001) (1000000 * unit : Nat)

/-- The channels over a line cycle after stage 7, in mV or µA, and the voltages delayed by a quarter of the measured period (R153, R183). -/
structure CycleSamples where
  channels : Vector (List Int) 88
  quarter : Vector (List Int) 8
  deriving DecidableEq, Repr

/-- A quarter of the measured line period in ps, of 50 Hz while none is detected (R154, R183). -/
def Dsp.quarterPs (d : Dsp) : Int := (250000000000000 / max 1 (d.frequency.getD 50000) : Nat)

/-- The line cycle of `n` strobes as the metering branch gives it. -/
def State.cycleSamples (s : State) (n : Nat) (x : CycleData) : CycleSamples :=
  let channels := Vector.ofFn (fun c : Channel88 =>
    ((highPass s.dsp.filters[c] (s.dsp.stage6 x n c)).1).map (fun y => s.scaled c y 65536))
  ⟨channels, Vector.ofFn (fun v : Fin 8 =>
    (delayBy delayCount n s.dsp.quarterPs (s.dsp.delayed[v] ++ channels[80 + v.val]'(by omega))).map (fun y => Int.tdiv y cubicUnit))⟩

/-- The last `n` of a list. -/
def lastOf (n : Nat) (xs : List Int) : List Int := xs.drop (xs.length - n)

/-- What the branch keeps for the next cycle, which begins `n` strobes later: a change of path is counted from there, and for 400 strobes
back, for the half-cycles of the fast branch. -/
def Dsp.afterCycle (d : Dsp) (n : Nat) (x : CycleData) (y : CycleSamples) : Dsp :=
  { d with
    taps := Vector.ofFn (fun m => lastOf tapCount (d.stage3 x n m))
    filters := Vector.ofFn (fun c : Channel88 => (highPass d.filters[c] (d.stage6 x n c)).2)
    delayed := Vector.ofFn (fun v : Fin 8 => lastOf delayCount (d.delayed[v] ++ y.channels[80 + v.val]'(by omega)))
    pathAt := d.pathAt.map (· - n)
    pathChanges := d.pathChanges.map (fun js => (js.map (· - (n : Int))).filter (fun j => decide (-400 ≤ j))) }

/-! ## The fast branch (R155) -/

/-- A modulator's fast samples of a publication with its gain and without its tone, in nV at the input. The tone of a fast sample is that of
stage 3's phasor 2.703 125 ms on, 11072 clocks: the two branches' delays lie so far apart. -/
def Dsp.fastOf (d : Dsp) (pub : MirrorPub) (m : Fin 160) : List Int :=
  let xs := padTo pub.count ((pub.fast.find? (fun s => s.modulator == m)).elim [] (·.samples))
  let ys := if h : m.val < 144 then
      let t := d.tones[m.val]'h
      if t.amplitude = 0 then xs else xs.zipIdx.map (fun (x : Int × Nat) => x.1 - t.wave (64 * (pub.start + x.2) + 11072))
    else xs
  ys.map (fun y => Int.tdiv (y * (d.cal[m]).gain) one30)

/-- A channel's fast samples by the path in use at their strobes. The cycle in progress begins at a strobe; a sample before it is in the cycle
before. -/
def Dsp.fastChannel (d : Dsp) (pub : MirrorPub) (c : Channel88) : List Int :=
  if h : c.val < 72 then
    ((d.fastOf pub ⟨2 * c.val, by omega⟩).zip (d.fastOf pub ⟨2 * c.val + 1, by omega⟩)).zipIdx.map (fun y =>
      if d.usesX16 ⟨c.val, h⟩ ((w32 ((pub.start + y.2) / 8) : Nat) - (d.strobe : Int)) then y.1.2 else y.1.1)
  else d.fastOf pub ⟨c.val + 72, by omega⟩

/-- A publication lists a channel: one of its modulators. -/
def listsChannel (pub : MirrorPub) (c : Channel88) : Bool := (modulatorsOf c).any (fun m => pub.fast.any (fun s => s.modulator == m))

/-- A channel's half-cycle value: RMS in mA or mV, and the mean power in mW with the voltage it pairs with (R31, R155). -/
def State.fastValue (s : State) (pub : MirrorPub) (pair : Option (Fin 8)) (c : Channel88) : MirrorValue :=
  let i := (s.dsp.fastChannel pub c).map (fun y => s.scaled c y 1)
  let rms := rmsOf pub.count i
  let power := pair.elim 0 (fun v =>
    let u := (s.dsp.fastChannel pub ⟨80 + v.val, by omega⟩).map (fun y => s.scaled ⟨80 + v.val, by omega⟩ y 1)
    Int.tdiv (sumProduct u i) (1000000 * max 1 pub.count : Nat))
  ⟨c, if c.val < 80 then (rms + 500) / 1000 else rms, power⟩

end Sys2Proof.Machine
end

