-- ==== Sys2Proof/Machine/Metering.lean ====
section
/-! DEFINITION. Metering (chapters 05 and 06): line cycles, dual paths, line frequency, tone tracking, calibration, latches and saves,
and the reads of registers. -/

namespace Sys2Proof.Machine

/-! ## Channels (R148, R149) -/

/-- The current channel of a phase of a register set (R181). -/
def currentChannel (set : SetIx) (f : Phase) : Channel88 :=
  if set.val < 24 then ⟨(3 * set.val + f.val) % 88, Nat.mod_lt _ (by decide)⟩
  else if set.val = 24 then ⟨72 + f.val, by omega⟩
  else ⟨(76 + (set.val - 25)) % 88, Nat.mod_lt _ (by decide)⟩

/-- Phase of the bus a slot of the set pairs with, none where it is unpaired (R149, R181). -/
def State.pairedPhase (s : State) (set : SetIx) (f : Phase) : Option Phase :=
  if h : set.val < 24 then
    let map := (s.lane ⟨set.val, h⟩).phaseMap
    if map = 0 then some f
    else if f = 0 ∧ 1 ≤ map ∧ map ≤ 3 then some ⟨(map - 1) % 3, Nat.mod_lt _ (by decide)⟩ else none
  else if set.val = 24 then some f
  else
    let ax := getRaw s.dsp.settings 0x0307 (set.val - 25)
    if f.val + 1 = ax then some f else none

/-- Index 0 to 7 of a voltage channel among 80 to 87: bus section 0 for SITE, 1 for the others. -/
def voltIx (set : SetIx) (f : Phase) : Fin 8 := if set.val = 24 then ⟨f.val, by omega⟩ else ⟨4 + f.val, by omega⟩

/-- Enable of a voltage channel (R175). -/
def State.vbEnabled (s : State) (v : Fin 8) : Bool := bit (getRaw s.dsp.settings 0x0308 0) v.val

/-- Enable of a set's current channel (R175): outlets cannot be disabled. -/
def State.currentEnabled (s : State) (set : SetIx) (f : Phase) : Bool :=
  if set.val < 24 then true
  else if set.val = 24 then bit (getRaw s.dsp.settings 0x0302 0) f.val
  else getRaw s.dsp.settings 0x0304 (set.val - 25) == 1

/-- The cycle's current in µA reaches the creep floor or the start current of its channel (R169, R170). -/
def State.aboveFloor (s : State) (c : Channel88) (ua : Nat) : Bool :=
  if c.val < 72 then decide (25000 ≤ ua)
  else if c.val < 76 then decide (20 * getRaw s.dsp.settings 0x0303 0 ≤ ua)
  else decide (20 * getRaw s.dsp.settings 0x0306 (c.val - 76) ≤ ua)

/-- Some sample of a fixed-gain or voltage channel over a cycle lies beyond 600 mV at the input (R150, R174). -/
def cycleRanged (d : CycleData) (c : Channel88) : Bool :=
  decide (72 ≤ c.val) && d.modulators.any (fun x => decide (x.modulator.val = c.val + 72) && x.samples.any (fun y => decide (600000000 < y.natAbs)))

/-- A path's tone states, for dual-path channels only. -/
def State.tonesOf (s : State) (c : Channel88) : List Tone :=
  if h : c.val < 72 then [s.dsp.tones[2 * c.val]'(by omega), s.dsp.tones[2 * c.val + 1]'(by omega)] else []

/-- The bits that hold of a channel at this line cycle (R174), save those of its energy. The two out-of-tolerance bits stand while a target is
clamped, as R174 words them, and not until the spell of R165 ends. DESIGN CHOICE (log 199). unsafe. -/
def State.channelBits (s : State) (c : Channel88) : Word16 :=
  let ts := s.tonesOf c
  flag ((modulatorsOf c).any (fun m => !s.dsp.cal[m].written)) bFactory ||| flag s.dsp.frequency.isNone bUnsync
    ||| flag (ts.any (·.obscured)) bObscured ||| flag (ts.any (·.state == .lost)) bLost
    ||| flag (ts.any (·.phaseClamped)) bOotPhase ||| flag (ts.any (·.gainClamped)) bOotGain

/-! ## One line cycle (R183 to R185) -/

/-- A sum of mV × µA over samples 125 µs apart as energy in units of 2^-32 mWh (R183), its fraction of a unit dropped. DESIGN CHOICE
(log 178). unsafe. -/
def energyOf (sum : Int) : Int := Int.tdiv (sum * 4294967296) 28800000000000

/-- Presence of the eight voltages after a cycle (R161). -/
def State.presence (s : State) (n : Nat) (y : CycleSamples) : Vector Bool 8 :=
  Vector.ofFn (fun v : Fin 8 =>
    let mv := rmsOf n (y.channels[80 + v.val]'(by omega))
    s.vbEnabled v && (decide (50000 ≤ mv) || (s.dsp.volts[v] && decide (40000 ≤ mv))))

/-- What one phase of one set brings to a cycle. -/
structure PhaseShare where
  set : SetIx
  phase : Phase
  slot : Phase
  p : Int
  q : Int
  v : Nat
  disabled : Bool
  deriving DecidableEq, Repr

/-- A phase's share: active, reactive and apparent energy over the cycle, only when paired, enabled, with its voltage present and its
current above the floor (R169, R170, R183). -/
def State.share (s : State) (n : Nat) (y : CycleSamples) (volts : Vector Bool 8) (set : SetIx) (phase : Phase) : Option PhaseShare :=
  (s.pairedPhase set phase).map fun bus =>
    let c := currentChannel set phase
    let v := voltIx set bus
    let i := y.channels[c]
    let u := y.channels[80 + v.val]'(by omega)
    let on := s.currentEnabled set phase && s.vbEnabled v
    let counts := on && volts[v] && s.aboveFloor c (rmsOf n i)
    let slot := if set.val < 25 then phase else bus
    if counts then
      ⟨set, phase, slot, energyOf (sumProduct u i), energyOf (sumProduct y.quarter[v] i),
        (energyOf (isqrt (sumSquare u * sumSquare i))).toNat, !on⟩
    else ⟨set, phase, slot, 0, 0, 0, !on⟩

/-- The shares of a set. -/
def State.sharesOf (s : State) (n : Nat) (y : CycleSamples) (volts : Vector Bool 8) (set : SetIx) : List PhaseShare :=
  allPhases.filterMap (s.share n y volts set)

/-- One set's feed increased by its shares of a cycle: phases are netted before the direction is decided (R184, R185). -/
def SetFeed.cycle (f : SetFeed) (xs : List PhaseShare) : SetFeed where
  total := f.total.add (Quant.ofCycle ((xs.map (·.p)).sum) ((xs.map (·.q)).sum) ((xs.map (·.v)).sum))
  phases := Vector.ofFn (fun i =>
    xs.foldl (fun a x => if x.slot = i then a.add (Quant.ofCycle x.p x.q x.v) else a) f.phases[i])
  netP := f.netP + (xs.map (·.p)).sum
  netQ := f.netQ + (xs.map (·.q)).sum
  status := xs.foldl (fun w x => w ||| flag x.disabled bDisabled) f.status

/-- The voltage channel a current channel is paired with, none for SC_N, an unpaired phase or a voltage (R148, R149). -/
def State.pairOf (s : State) (c : Channel88) : Option (Fin 8) :=
  if h : c.val < 72 then
    let set : SetIx := ⟨c.val / 3, by omega⟩
    (s.pairedPhase set ⟨c.val % 3, by omega⟩).map (voltIx set)
  else if c.val < 75 then some (voltIx ⟨24, by omega⟩ (refPhase (c.val - 71)))
  else if c.val < 76 then none
  else if h : c.val < 80 then some (voltIx ⟨25 + (c.val - 76), by omega⟩ (refPhase (getRaw s.dsp.settings 0x0307 (c.val - 76))))
  else none

/-- A channel's status word of the period after a cycle (R174): FLOOR holds while no cycle reached the floor, X16 is that of the last
strobe of the cycle. -/
def State.channelWord (s : State) (n : Nat) (c : Channel88) (ranged absent reached : Bool) : Word16 :=
  let w := (s.dsp.words[c] &&& ~~~ (bX16 ||| bFloor)) ||| s.channelBits c ||| flag ranged bOver ||| flag absent bVAbsent
  w ||| flag (if h : c.val < 72 then s.dsp.usesX16 ⟨c.val, h⟩ ((n : Int) - 1) else false) bX16 ||| flag (c.val < 80 && !reached) bFloor

/-- The channels' words and floor marks after a cycle. -/
def cycleWords (n : Nat) (d : CycleData) (y : CycleSamples) (volts : Vector Bool 8) (s : State) : State :=
  let reached := Vector.ofFn (fun c : Fin 88 => s.dsp.reached[c] || (decide (c.val < 80) && s.aboveFloor c (rmsOf n y.channels[c])))
  let words := Vector.ofFn (fun c : Fin 88 =>
    s.channelWord n c (cycleRanged d c) ((s.pairOf c).any (fun v => !volts[v])) reached[c])
  s.withDsp { s.dsp with words := words, reached := reached }

/-! ## Line frequency (R159, R160) -/

/-- Period in ns of a frequency in mHz. -/
def periodNs (mhz : Nat) : Nat := 1000000000000 / max 1 mhz

/-- Frequency in mHz of periods in ns, their mean, rounded to the nearest. -/
def frequencyOf (ps : List Nat) : Nat :=
  (1000000000000 * ps.length * 2 + ps.sum) / (2 * max 1 ps.sum)

/-- A frequency lies in the range of freq_nominal. -/
def frequencyOk (nominal mhz : Nat) : Bool :=
  if nominal = 1 then within 47500 52500 mhz else if nominal = 2 then within 57000 63000 mhz else within 45000 65000 mhz

/-- Four consecutive periods in range, each within 1 % of their mean. -/
def periodsOk (nominal : Nat) (ps : List Nat) : Bool :=
  let mean := ps.sum / 4
  ps.length == 4 && ps.all (fun p => frequencyOk nominal (frequencyOf [p]) && decide (100 * p ≤ 101 * mean ∧ 99 * mean ≤ 100 * p))

/-- The source phase: L1 while present, otherwise L2, otherwise L3; none when no phase is present. -/
def sourceOf (volts : Vector Bool 8) : Option Phase :=
  if volts[0] then some 0 else if volts[1] then some 1 else if volts[2] then some 2 else none

def State.sourcePhase (s : State) : Option Phase := sourceOf s.dsp.volts

/-- The L1 positive crossing of a crossing of the source phase: its own on L1, else shifted by a third of a period by the rotation, for
which positive sequence stands until it has been measured (R160). -/
def State.l1Crossing (s : State) (source : Phase) (t : Nat) : Nat :=
  let third := periodNs s.dsp.lastFrequency / 3
  let positive := s.dsp.rotation.getD true
  if source = 0 then t
  else if (source == 1) == positive then t - third
  else t + third

/-- The phase rotation that the crossings of three present phases show: L2 follows L1 by less than half a period in positive sequence. -/
def rotationOf (volts : Vector Bool 8) (period : Nat) (xs : List (Phase × Nat)) : Option Bool :=
  match xs.find? (fun x => x.1 == 0), xs.find? (fun x => x.1 == 1) with
  | some a, some b =>
    if volts[0] && volts[1] && volts[2] then some (decide (2 * (((b.2 : Int) - a.2) % (max 1 period : Nat)) < period)) else none
  | _, _ => none

/-- The change of delay by which a modulator's phase in 0.001 degrees is applied at a frequency in mHz, in picoseconds (R154). -/
def delayOf (phase : Int) (mhz : Nat) : Int := Int.tdiv (-phase * 1000000000000) (360 * max 1 mhz : Nat)

/-- The phase that stages 4 and 5 apply to a path: that of its calibration entry and that of its tone tracking (R154, R164). -/
def Dsp.pathPhase (d : Dsp) (m : Fin 160) : Int :=
  (d.cal[m]).phase + (if h : m.val < 144 then (d.tones[m.val]'h).phase else 0)

/-- The delays with the frequency last used. -/
def Dsp.refreshDelays (d : Dsp) : Dsp := { d with delays := Vector.ofFn (fun m => delayOf (d.pathPhase m) d.delayFrequency) }

/-- The delays are computed anew when the frequency, 50 Hz while none is detected, has moved by more than 0.1 % from that last used
(R154). -/
def Dsp.followFrequency (d : Dsp) : Dsp :=
  let f := d.frequency.getD 50000
  if d.delayFrequency < 1000 * (max f d.delayFrequency - min f d.delayFrequency) then ({ d with delayFrequency := f }).refreshDelays else d

/-- The first strobe whose input instant, 3.250 ms before it, lies at or after an instant in ns (R154). -/
def strobeAt (t : Nat) : Nat := (t + 3250000 + 124999) / 125000

/-- The crossing that a cycle ends at: the source phase's, or, where it has vanished within the cycle, that of the first phase that is present
and has one (R160, M5). -/
def State.endCrossing (s : State) (d : CycleData) : Option (Phase × ZeroCrossing) :=
  (d.crossings.find? (fun x => x.1 == s.dsp.source)).orElse (fun _ =>
    allPhases.findSome? (fun f => if s.dsp.volts[f.val]'(by omega) then d.crossings.find? (fun x => x.1 == f) else none))

/-- Where a line cycle ends: its L1 crossing and the first strobe that belongs to the next; 160 strobes after the last while no frequency
is detected (R161, R191), and none while the cycle in progress begins at the source phase's last crossing. The crossing that detects the
frequency ends a cycle too. -/
def State.cycleEnd (s : State) (d : CycleData) : Option (Nat × Nat) :=
  match s.dsp.frequency with
  | none => some (s.dsp.lastCrossing, w32 (s.dsp.strobe + 160))
  | some _ =>
    match s.endCrossing d with
    | some x =>
      let t := s.l1Crossing x.1 x.2.instant
      if decide (s.dsp.lastCrossing ≤ t) && within 1 65535 (strobesSince s.dsp.strobe (strobeAt t)) then some (t, w32 (strobeAt t)) else none
    | none => none

/-- The frequency is lost (R159): a period of a cycle in progress no longer closes at a crossing. -/
def loseFrequency (s : State) : State :=
  (s.withDsp ({ s.dsp with frequency := none, periods := [] }).followFrequency).withKeep { s.keep with closeNow := false }

/-- The frequency after a crossing at `t`: the mean of the last 50 periods; lost when the period leaves the range or no phase is present
(R159). The crossing that detects the frequency ends no period after it. -/
def nextFrequency (t : Nat) (d : CycleData) (s : State) : State :=
  match s.dsp.frequency with
  | none => s
  | some _ =>
    if t = s.dsp.lastCrossing then s else
    let period := t - s.dsp.lastCrossing
    let ps := (period :: s.dsp.periods).take 50
    let rot := rotationOf s.dsp.volts period (d.crossings.map (fun x => (x.1, x.2.instant)))
    let s1 := s.withDsp { s.dsp with lastCrossing := t, rotation := rot.orElse (fun _ => s.dsp.rotation) }
    match s.sourcePhase with
    | some f =>
      if frequencyOk (getRaw s.dsp.settings 0x0309 0) (frequencyOf [period]) then
        s1.withDsp ({ s1.dsp with
          frequency := some (frequencyOf ps), lastFrequency := frequencyOf ps, periods := ps, source := f }).followFrequency
      else loseFrequency s1
    | none => loseFrequency s1

/-- Calibration writes at the start of a line cycle: those waiting take effect, those in effect for a whole cycle complete (R178). -/
def calCycle (s : State) : State :=
  let ps := s.dsp.calPending
  let begun := ps.filter (fun p => p.2.2)
  let fresh := ps.filter (fun p => !p.2.2)
  let cal := fresh.foldl (fun v p =>
    p.1.foldl (fun (v : Vector Cal 160) e => if h : e.1 < 160 then v.set e.1 e.2 else v) v) s.dsp.cal
  let next : Dsp := { s.dsp with cal := cal, calPending := fresh.map (fun p => (p.1, p.2.1, true)) }
  let s1 := s.withDsp next.refreshDelays
  begun.foldl (fun s p => finish p.2.1 stOk [] s) s1

/-- Settings taken by the first line cycle that begins at or after their allocation boundary (R176); `start` is when it begins. -/
def takeSettings (start : Nat) (s : State) : State :=
  match s.dsp.settingsPending with
  | some cfg =>
    if s.turret.boundaryAt ≤ start then s.withDsp { s.dsp with settings := cfg, settingsPending := none } else s
  | none => s

/-- The period counts one more cycle; a new latch_cycles counts from the period's first one (M4). -/
def countCycle (s : State) : State :=
  s.withKeep { s.keep with
    cycles := sat 65535 (s.keep.cycles + 1)
    latchN := if s.keep.cycles = 0 then getRaw s.dsp.settings 0x0301 0 else s.keep.latchN }

/-- One more L1 crossing towards the allocation boundary (R208); a window of 160 strobes without frequency is none.
The first after Turret's release is number one of five. DEDUCED (log 73). unsafe. -/
def countCrossing (s : State) : State :=
  if s.turretUp && s.dsp.frequency.isSome then s.withTurret { s.turret with crossings := s.turret.crossings + 1 } else s

/-- Energies of the cycle that ends at a crossing and before a strobe, then what the next one begins with. -/
def lineCycle (t strobe : Nat) (d : CycleData) (s0 : State) : State :=
  let n := strobesSince s0.dsp.strobe strobe
  let s := takeSettings (s0.now - n / 8) s0
  let y := s.cycleSamples n d
  let volts := s.presence n y
  let feed := Vector.ofFn (fun (i : Fin 29) => (s.dsp.feed[i]).cycle (s.sharesOf n y volts i))
  let s1 := cycleWords n d y volts s
  let s2 := s1.withDsp { s1.dsp.afterCycle n d y with volts := volts, feed := feed, strobe := strobe }
  takeSettings s.now (calCycle (countCycle (nextFrequency t d (countCrossing s2))))

def execLineCycleEnd (d : CycleData) (s : State) : Out :=
  if s.dspUp then
    match s.cycleEnd d with
    | some x => .next (lineCycle x.1 x.2 d s)
    | none => .next s
  else .next s

/-! ## Dual paths (R156, R157) -/

/-- Strobes of one period of the detected frequency, rounded up; 160 while none is detected (R157). -/
def Dsp.window (d : Dsp) : Nat :=
  match d.frequency with
  | some f => (8000000 + max 1 f - 1) / max 1 f
  | none => 160

/-- The two paths of a channel marked for the tone window in progress (R163). -/
def spoil (c : Fin 72) (x1 x16 : Bool) (v : Vector Tone 144) : Vector Tone 144 :=
  let v1 := v.set (2 * c.val) { v[2 * c.val] with spoiled := v[2 * c.val].spoiled || x1 }
  v1.set (2 * c.val + 1) { v1[2 * c.val + 1] with spoiled := v1[2 * c.val + 1].spoiled || x16 }

/-- One strobe of a dual-path channel. The overload detector holds the ×16 path contaminated for 6.000 ms, which is 48 strobes (R156).
The sample comes from ×1 whenever that path is contaminated, else from ×16 when it did at the strobe before or the W strobes before this
one were clear on both counts, below 36.0 mV on ×1 and not contaminated (R157). -/
def pathStrobe (c : Fin 72) (d : Dsp) (x : PathStrobe) : Dsp :=
  let hold := if x.overload then 48 else d.holds[c]
  let dirty := decide (0 < hold)
  let was := d.x16[c]
  let now_ := !dirty && (was || decide (d.window ≤ d.clears[c]))
  let ranged := decide (600000 < x.x1)
  { d with
    holds := d.holds.set c (hold - 1)
    clears := d.clears.set c (if dirty ∨ 36000 ≤ x.x1 then 0 else sat 65535 (d.clears[c] + 1))
    x16 := d.x16.set c now_
    pathAt := d.pathAt.set c (d.pathAt[c] + 1)
    pathChanges := if now_ = was then d.pathChanges else d.pathChanges.set c (d.pathChanges[c] ++ [(d.pathAt[c] : Int)])
    words := d.words.set c (d.words[c.val] ||| flag ranged bOver ||| flag (now_ != was) bSwitched)
    tones := spoil c ranged dirty d.tones }

/-- PATH_CHANGE: strobes of a dual-path channel up to one at which the path may change; Lantern tells of a change (R157, R566). -/
def execPathChange (c : Fin 72) (first : PathStrobe) (rest : List PathStrobe) (s : State) : Out :=
  if s.dspUp then
    let d := (first :: rest).foldl (pathStrobe c) s.dsp
    let s1 := s.withDsp d
    .next (if d.x16[c] = s.dsp.x16[c] then s1 else trace 4 0x06 (le 1 (2 * c.val + b1 d.x16[c]) ++ le 1 (b1 d.x16[c])) s1)
  else .next s

/-! ## Detection and loss of the line frequency (R159) -/

/-- The period in progress has been without a frequency, whatever its cycles show at their ends (R174, R191). -/
def markUnsync (s : State) : State := s.withDsp { s.dsp with words := s.dsp.words.map (fun w => w ||| bUnsync) }

/-- FREQUENCY_DETECTED: four consecutive periods in ns, the last ending at a crossing of the source phase. -/
def execFrequencyDetected (x : FrequencyFound) (s : State) : Out :=
  match s.sourcePhase, s.dsp.frequency with
  | some f, none =>
    if s.dspUp && periodsOk (getRaw s.dsp.settings 0x0309 0) x.periods then
      let mhz := frequencyOf x.periods
      let s1 := markUnsync (s.withDsp { s.dsp with frequency := some mhz, lastFrequency := mhz, source := f, periods := x.periods })
      .next ((s1.withDsp ({ s1.dsp with lastCrossing := s1.l1Crossing f x.crossing }).followFrequency).withKeep { s1.keep with closeNow := true })
    else .next s
  | _, _ => .next s

/-- FREQUENCY_LOST: no crossing within 1.5 periods of the last one, or no phase present; a period that leaves the range loses it with the
crossing that ends it, at LINE_CYCLE_END (R159). -/
def execFrequencyLost (s : State) : Out :=
  match s.dsp.frequency with
  | some f =>
    let overdue := decide (2 * s.dsp.lastCrossing + 3 * periodNs f ≤ 2 * s.inputNow)
    if s.dspUp && (overdue || s.sourcePhase.isNone) then .next (loseFrequency s) else .next s
  | none => .next s

/-! ## The reference tone (R163 to R168) -/

/-- Reference amplitude of a path in nV; an unreferenced path is judged by the nominal 2.000 mV of R162. -/
def Cal.reference (c : Cal) : Nat := if c.toneAmp = 0 then 2000000 else c.toneAmp

def amplitudeOk (w : ToneWindow) (c : Cal) : Bool :=
  decide (c.reference ≤ 2 * w.amplitude ∧ 2 * w.amplitude ≤ 3 * c.reference)

/-- Both side magnitudes lie below 5 % of the reference amplitude (R163). -/
def sideBandsOk (w : ToneWindow) (c : Cal) : Bool := decide (20 * w.side3205 < c.reference ∧ 20 * w.side3215 < c.reference)

/-- A window is valid (R163): no sample of the path in it was contaminated or overranged. -/
def windowValid (t : Tone) (w : ToneWindow) (c : Cal) : Bool := !t.spoiled && sideBandsOk w c && amplitudeOk w c

/-- An angle brought to −180.000 to +180.000 degrees, in 0.001 degrees. -/
def wrapDeg (a : Int) : Int := (a + 180000) % 360000 - 180000

/-- Target gain correction in ppm: 1 / |D| − 1 (R164). -/
def gainTarget (w : ToneWindow) (c : Cal) : Int := (c.toneAmp : Int) * 1000000 / (max 1 w.amplitude : Nat) - 1000000

/-- Target phase correction in 0.001 degrees: −c_p × arg(D). -/
def phaseTarget (w : ToneWindow) (c : Cal) : Int := -((c.cp : Int) * wrapDeg (w.phase - c.tonePhase) / 1000)

def clampTo (bound v : Int) : Int := max (-bound) (min bound v)

/-- One step of at most `n` towards a target. -/
def stepTo (n v target : Int) : Int := if v < target then min (v + n) target else max (v - n) target

/-- Both targets within the bounds that end an out-of-tolerance spell (R165). -/
def inEndBound (g p : Int) : Bool := withinInt (-4500) 4500 g && withinInt (-270) 270 p

/-- The spell of R165, tone lost included. -/
def Tone.spell (t : Tone) : Bool := t.outOfTol || t.state == .lost

/-- The state a path shows (R180): of a path both lost and obscured, lost. DESIGN CHOICE (log 179). unsafe. -/
def Tone.shown (t : Tone) : ToneState :=
  if t.state = .tracking ∨ t.state = .outOfTolerance then (if t.obscured then .obscured else t.state) else t.state

/-- The state a path shows once lost is settled. -/
def Tone.settled (t : Tone) : ToneState := if t.outOfTol then .outOfTolerance else .tracking

/-- A valid window: targets, clamps, the end of lost and obscured, and the corrections' step (R164 to R166). -/
def Tone.onValid (t : Tone) (w : ToneWindow) (c : Cal) (time now : Nat) : Tone :=
  let g := gainTarget w c
  let p := phaseTarget w c
  let run := sat 65535 (t.validRun + 1)
  let gc := !withinInt (-5000) 5000 g
  let pc := !withinInt (-300) 300 p
  let inRun := if inEndBound g p then sat 65535 (t.inBoundRun + 1) else 0
  let oot := gc || pc || (t.outOfTol && decide (inRun < 6))
  let lost := t.state == .lost && decide (run < 3)
  let t1 : Tone := { t with
    gainClamped := gc, phaseClamped := pc, targetGain := g, targetPhase := p, lastValid := time, lastValidAt := now
    invalidRun := 0, validRun := run, amplitudeFails := 0, inBoundRun := inRun, outOfTol := oot
    amplitude := w.amplitude, phasor := w.phase, obscured := false }
  if lost then { t1 with state := .lost }
  else
    { t1 with
      state := t1.settled, gain := stepTo 20 t.gain (clampTo 5000 g), phase := stepTo 1 t.phase (clampTo 300 p) }

/-- A window that is not valid; the third in a row in which the amplitude alone failed loses the tone (R166). -/
def Tone.onInvalid (t : Tone) (w : ToneWindow) (c : Cal) : Tone :=
  let fails := if !t.spoiled && sideBandsOk w c then sat 65535 (t.amplitudeFails + 1) else 0
  { t with
    state := if 3 ≤ fails then .lost else t.state, invalidRun := sat 65535 (t.invalidRun + 1), validRun := 0, inBoundRun := 0
    amplitudeFails := fails }

/-- A path with no reference only counts its windows (R168). -/
def Tone.unreferenced (t : Tone) (valid : Bool) (w : ToneWindow) (time now : Nat) : Tone :=
  if valid then
    { t with lastValid := time, lastValidAt := now, invalidRun := 0, validRun := sat 65535 (t.validRun + 1)
             amplitude := w.amplitude, phasor := w.phase, obscured := false }
  else { t with invalidRun := sat 65535 (t.invalidRun + 1), validRun := 0 }

/-- TONE_STATUS state codes (R180). -/
def ToneState.code : ToneState → Nat
  | .tracking => 0
  | .outOfTolerance => 1
  | .lost => 2
  | .obscured => 3
  | .notReferenced => 4

/-- The values the Keep stores: the corrections and the last valid phasor (R168). -/
def Tone.store (t : Tone) : Tone :=
  { t with storedGain := t.gain, storedPhase := t.phase, storedAmplitude := t.amplitude, storedPhasor := t.phasor }

/-- What held of a path's channel until now stands in the word of the period (R174). -/
def noteBits (m : Fin 144) (s : State) : State :=
  let c : Channel88 := ⟨m.val / 2, by omega⟩
  s.withDsp { s.dsp with words := s.dsp.words.set c (s.dsp.words[c] ||| s.channelBits c) }

/-- A path's tone replaced: what held until now is in its status word (R174), a change of state is stored, and logged where a spell begins or
ends (R165, R168). -/
def setTone (m : Fin 144) (new_ : Tone) (s0 : State) : State :=
  let s := noteBits m s0
  let old := s.dsp.tones[m]
  let stored := if new_.shown = old.shown then new_ else new_.store
  let s1 := s.withDsp ({ s.dsp with tones := s.dsp.tones.set m stored }).refreshDelays
  let data := le 1 m.val ++ [0] ++ leInt 4 stored.targetGain ++ leInt 2 stored.targetPhase
  let s2 := if old.spell = stored.spell then s1
    else keepLog (if stored.spell then 0x0020 else 0x0021) originKeep data s1
  if old.shown = stored.shown then s2 else trace 4 0x06 (le 1 m.val ++ le 1 (2 + stored.shown.code)) s2

/-! ## Calibration (R177 to R179) -/

/-- A calibration entry's 16 bytes (R177). -/
def Cal.bytes (c : Cal) : List Byte :=
  le 4 c.gain ++ leInt 2 c.phase ++ le 2 c.cp ++ le 4 c.toneAmp ++ leInt 2 c.tonePhase ++ [0, 0]

/-- The entries as written, those not yet in effect included. -/
def State.calStored (s : State) : Vector Cal 160 :=
  s.dsp.calPending.foldl (fun v p =>
    p.1.foldl (fun (v : Vector Cal 160) e => if h : e.1 < 160 then v.set e.1 e.2 else v) v) s.dsp.cal

/-- Calibration records written, each to its older copy; `old` are the entries until then (R87, R177). -/
def Dsp.writeCal (d : Dsp) (ms : List Nat) (old : Vector Cal 160) : Dsp :=
  { d with calTwins := ms.foldl (fun v m => if h : m < 160 then v.set m (v[m].write old[m]) else v) d.calTwins }

/-- Calibration check value: CRC-32C of the 160 entries in modulator order (R347). -/
def State.calCheck (s : State) : Nat := crc32c (s.calStored.toList.flatMap Cal.bytes)

/-- The legal log's record of a calibration write (R354). -/
def calLog (box op : Nat) (mods : List Nat) (s : State) : State :=
  keepLog 0x0012 box (le 1 op ++ le 1 mods.length ++ le 1 (mods.headD 0) ++ [0] ++ le 4 s.calCheck) s

/-- Windows of a capture: a valid one joins, any other starts again; two in a row are kept (R178). The window in progress as the capture is
accepted is the first that counts. DESIGN CHOICE (log 200). unsafe. -/
def captureWindow (m : Nat) (valid : Bool) (w : ToneWindow) (x : Nat × List (Nat × Int)) : Nat × List (Nat × Int) :=
  if x.1 = m ∧ x.2.length < 2 then (x.1, if valid then x.2 ++ [(w.amplitude, w.phase)] else []) else x

/-- The capture's request. -/
def Capture.waiting (c : Capture) : Waiting := ⟨c.box, 0x050A, c.seq, 0, c.epoch, 0, []⟩

/-- One modulator's reference set to the mean of its two windows, its corrections to 0; the stored values wait for the next storing (R168). -/
def setReference (s : State) (x : Nat × List (Nat × Int)) : State :=
  if h : x.1 < 144 then
    let c := s.dsp.cal[x.1]'(by omega)
    let amp := (x.2.map (·.1)).sum / 2
    let ph := (x.2.map (·.2)).sum / 2
    let t := s.dsp.tones[x.1]'h
    let s0 := noteBits ⟨x.1, h⟩ s
    let s1 := s0.withDsp { s0.dsp.writeCal [x.1] s.dsp.cal with
      cal := s.dsp.cal.set x.1 { c with toneAmp := amp, tonePhase := ph, written := true } }
    setTone ⟨x.1, h⟩ { Tone.reset with
      state := .tracking, lastValid := t.lastValid, lastValidAt := t.lastValidAt, validRun := t.validRun
      amplitude := t.amplitude, phasor := t.phasor, windowAt := t.windowAt, spoiled := t.spoiled, storedGain := t.storedGain
      storedPhase := t.storedPhase, storedAmplitude := t.storedAmplitude, storedPhasor := t.storedPhasor } s1
  else s

/-- A capture that has its windows is committed (R178). -/
def settleCapture (s : State) : State :=
  match s.dsp.capture with
  | some c =>
    if c.mods.all (fun x => decide (2 ≤ x.2.length)) then
      let s1 := c.mods.foldl setReference (s.withDsp { s.dsp with capture := none })
      finish c.waiting stOk [] (calLog c.box.val 1 (c.mods.map (·.1)) s1)
    else s
  | none => s

/-- The next window of a path begins. -/
def Tone.nextWindow (t : Tone) (now : Nat) : Tone := { t with windowAt := now, spoiled := false }

/-- The strobe at which the present tone window of a path began. -/
def State.windowStrobe (s : State) (m : Fin 144) : Nat := 8 * ((s.dsp.tones[m]).windowAt - s.dsp.releasedAt)

/-- A tone window of one path closes 10.000 s after it began (R163 to R166). -/
def execToneWindowEnd (m : Fin 144) (samples : List Int) (s : State) : Out :=
  let t := s.dsp.tones[m]
  let w := measureTone (s.windowStrobe m) samples
  if s.dspUp && s.due (t.windowAt + 10000) then
    let c := s.dsp.cal[m.val]'(by omega)
    let valid := windowValid t w c
    let t1 := if c.toneAmp = 0 then t.unreferenced valid w s.time s.now
      else if valid then t.onValid w c s.time s.now else t.onInvalid w c
    let s1 := setTone m (t1.nextWindow s.now) s
    .next (settleCapture (s1.withDsp { s1.dsp with
      capture := s1.dsp.capture.map (fun x => { x with mods := x.mods.map (captureWindow m.val valid w) }) }))
  else .next s

/-- No valid window for 24 h, of a lost path too (R166). -/
def execToneObscured (m : Fin 144) (s : State) : Out :=
  let t := s.dsp.tones[m]
  if s.dspUp && s.due (t.lastValidAt + 86400000) && t.state != .notReferenced && !t.obscured then
    .next (setTone m { t with obscured := true } s)
  else .next s

/-- Every 600 s the Keep stores every path's corrections (R168). -/
def execToneStateSave (s : State) : Out :=
  if s.dspUp && s.keepUp && s.due (s.dsp.tonesStoredAt + 600000) then
    .next (s.withDsp { s.dsp with tones := s.dsp.tones.map Tone.store, tonesStoredAt := s.now })
  else .next s

/-- One entry of an operation 0 request (R178). -/
def calEntry (bs : List Byte) (i : Nat) : Nat × Int × Nat × Nat :=
  let o := 4 + 12 * i
  (field bs o 1, fieldInt bs (o + 2) 2, field bs (o + 4) 4, field bs (o + 8) 2)

def calEntryOk (op : Nat) (e : Nat × Int × Nat × Nat) : Bool :=
  if op = 1 then decide (e.1 < 144) && e.2.1 == 0 && e.2.2.1 == 0 && e.2.2.2 == 0
  else
    decide (e.1 < 160) && withinInt (-5000) 5000 e.2.1 && within 0x20000000 0x60000000 e.2.2.1 && decide (e.2.2.2 ≤ 1000)
      && (decide (e.1 < 144) || e.2.2.2 == 0)

/-- An entry with new coefficients; its tone reference stays. -/
def Cal.coefficients (c : Cal) (e : Nat × Int × Nat × Nat) : Cal :=
  { c with gain := e.2.2.1, phase := e.2.1, cp := e.2.2.2, written := true }

/-- Status with which the seal or CALEN stops a write of calibration, if any. -/
def State.calRefusal (s : State) : Option Nat :=
  if s.legal.fuse ≠ .intact then some stSealed else if !s.legal.calen then some stCalenLow else none

/-- CAL_WRITE, checked in the order of R178: the seal, CALEN, the fields, a capture or a CAL_SEAL in progress (R347, R356 V3). -/
def calWrite (r : Req) : State → State :=
  let op := field r.payload 0 1
  let n := field r.payload 1 1
  let es := (List.range n).map (calEntry r.payload)
  withLength (r.payload.length == 4 + 12 * n) r <| noHandle r fun s =>
  match s.calRefusal with
  | some st => refuse r st s
  | none =>
    if !(decide (op ≤ 1) && within 1 32 n && es.all (calEntryOk op)) then refuse r stParamRange s
    else keepServes r (fun s =>
      if s.dsp.capture.isSome || s.legal.sealing.isSome then refuse r stBusy s
      else
        let s1 := accept r s
        let mods := es.map (·.1)
        if op = 0 then
          let stored := s1.calStored
          let entries := es.map (fun e => (e.1, ((stored.toList.getD e.1 (Cal.factory e.1)).coefficients e)))
          calLog r.box.val 0 mods (s1.withDsp { s1.dsp.writeCal mods stored with
            calPending := s1.dsp.calPending ++ [(entries, r.wait, false)] })
        else
          s1.withDsp { s1.dsp with
            capture := some ⟨mods.map (fun m => (m, [])), r.box, r.seq, r.epoch, s1.now + 60000⟩ }) s

def execCalWrite (b : Box) (s : State) : Out := request b 0x050A calWrite s

/-- A capture without its windows within 60 s ends with nothing changed (R178). -/
def execCalCaptureTimeout (s : State) : Out :=
  match s.dsp.capture with
  | some c =>
    if s.keepUp && s.due c.deadline then
      .next (finish c.waiting stRefusedState [] (s.withDsp { s.dsp with capture := none }))
    else .next s
  | none => .next s

/-- CAL_READ (R179). -/
def calRead (r : Req) : State → State :=
  let first := field r.payload 0 1
  let n := field r.payload 1 1
  withLength (r.payload.length == 4) r <| noHandle r <|
  check (within 1 22 n && decide (first + n ≤ 160)) stParamRange r <| keepServes r fun s =>
  respond r stOk (le 1 (b1 (s.legal.fuse != .intact)) ++ le 1 (b1 s.legal.calen) ++ [0, 0] ++
    ((List.range n).flatMap (fun i =>
      let c := s.calStored.toList.getD (first + i) (Cal.factory (first + i))
      le 1 (first + i) ++ le 1 (b1 c.written) ++ [0, 0] ++ c.bytes))) s

def execCalRead (b : Box) (s : State) : Out := request b 0x0509 calRead s

/-- A TONE_STATUS record (R180). -/
def Tone.bytes (t : Tone) : List Byte :=
  le 1 t.shown.code ++ le 1 (b1 t.gainClamped * 128 + b1 t.phaseClamped * 64) ++ [0, 0] ++ leInt 4 t.targetGain
    ++ leInt 2 t.targetPhase ++ leInt 2 t.phase ++ leInt 4 t.gain ++ le 6 t.lastValid ++ le 2 t.invalidRun

/-- TONE_STATUS (R180). -/
def toneStatus (r : Req) : State → State :=
  withLength r.payload.isEmpty r <| withHandle r fun s =>
    match portOfHandle r.handle with
    | none => refuse r stHandleType s
    | some p => keepServes r (fun s => respond r stOk ((portModulators p).flatMap (fun m => (s.dsp.tones[m]).bytes)) s) s

def execToneStatus (b : Box) (s : State) : Out := request b 0x050C toneStatus s

/-! ## Latches (R190 to R194, R207) -/

/-- Mean power in mW from a period's net energy in 2^-32 mWh and its strobes, rounded to the nearest. -/
def meanPower (net : Int) (strobes : Nat) : Int :=
  let d : Int := (4294967296 * max 1 strobes : Nat)
  (net * 28800000 * 2 + d) / (2 * d)

/-- The latched set of one register set. -/
def latchSet (old : LatchedSet) (f : SetFeed) (word : Word16) (rate strobes : Nat) (restored : Bool) (sticky : Word16) : LatchedSet :=
  let w := word ||| flag restored bRestored
  ⟨old.regs.credit f rate, w, sticky ||| w, meanPower f.netP strobes, meanPower f.netQ strobes⟩

/-- A set's word of the period: the bits [10:8] and [6:2] of its contributing channels and their voltages, with what its cycles showed
(R194). -/
def State.setWord (s : State) (i : SetIx) : Word16 :=
  allPhases.foldl (fun w f =>
    match s.pairedPhase i f with
    | some bus => w ||| ((s.dsp.words[currentChannel i f] ||| s.dsp.words[80 + (voltIx i bus).val]'(by omega)) &&& setMask)
    | none => w) (s.dsp.feed[i]).status

/-- The next latch (R190): the increments are credited to the rate in force before it (R193). -/
def State.nextLatch (s : State) : Latched :=
  let strobes := strobesSince s.keep.latchStrobe s.dsp.strobe
  ⟨w32 (s.keep.latched.seq + 1), s.keep.billing, s.now, s.keep.cycles,
    Vector.ofFn (fun (i : Fin 29) =>
      latchSet s.keep.latched.sets[i] s.dsp.feed[i] (s.setWord i) s.keep.tariff.rate strobes s.keep.restored s.keep.sticky[i]),
    s.dsp.words⟩

/-- METER_STATUS and REGISTER_WRAP of one set (R207). -/
def latchEvents (old new_ : Latched) (s : State) (i : Fin 29) : State :=
  let a := old.sets[i]
  let b := new_.sets[i]
  let s1 := if s.keep.previous[i] = b.status then s
    else raise 0x8081 (setPort i.val) (le 1 i.val ++ [0] ++ wordBytes s.keep.previous[i] ++ wordBytes b.status ++ le 4 new_.seq
      ++ le 6 new_.time) s
  let wrap (reg x y : Nat) (s : State) : State :=
    if legalWraps (mwh x) = legalWraps (mwh y) then s
    else raise 0x8083 (setPort i.val) (le 1 i.val ++ le 1 reg ++ le 1 (legalWraps (mwh y)) ++ [0] ++ le 6 new_.time) s
  wrap 1 a.regs.total.eae b.regs.total.eae (wrap 0 a.regs.total.eai b.regs.total.eai s1)

/-- A session's start and end values taken from the first latch after each (R137). -/
def SessionBody.latch (b : SessionBody) (l : Latched) : SessionBody :=
  let x := l.sets[b.port.val]'(by omega)
  let v := mwh x.regs.total.eai
  let b1 : SessionBody := if b.startEai.isNone && b.state != .reserved && b.startLatch != l.seq then
      { b with startEai := some v, startLatch := l.seq, startWord := x.status, startSticky := x.sticky } else b
  if b1.endPending && b1.endEai.isNone then
    { b1 with endEai := some v, endLatch := l.seq, endWord := x.status, endSticky := x.sticky } else b1

/-- The session a queued signature is of follows its channel. -/
def SignJob.latch (j : SignJob) (l : Latched) : SignJob := { j with body := j.body.map (fun b => b.latch l) }

/-- A session whose channel is gone takes its end value all the same. -/
def Channel.latch (c : Channel) (l : Latched) : Channel :=
  match c.body with
  | .session b => { c with body := .session (b.latch l) }
  | _ => c

def latchEnding (l : Latched) (s : State) : State :=
  s.withRotunda { s.rotunda with ending := s.rotunda.ending.map (fun c => c.latch l) }

def latchSessions (l : Latched) (s0 : State) : State :=
  let s := latchEnding l s0
  s.rotunda.channels.foldl (fun s c =>
    match c.body with
    | .session b => if b.latch l = b then s else setBody c.slot (.session (b.latch l)) s
    | _ => s) (s.withLegal { s.legal with
      signing := s.legal.signing.map (fun j => j.latch l), waitingRecords := s.legal.waitingRecords.map (fun j => j.latch l) })

/-! ## Meter streams (R205, R206) -/

/-- Sets a stream selects, ascending. -/
def StreamBody.selected (b : StreamBody) : List Nat := (List.range 29).filter (fun i => bit b.sets i)

/-- METER_VALUES (R207). -/
def StreamBody.payload (b : StreamBody) (handle : Nat) (l : Latched) (count : Nat) : List Byte :=
  le 4 handle ++ le 1 b.form ++ zeros 3 ++
    (if b.form = 0 then setsBytes l b.selected else regBytes l (b.selected.headD 0) 0 count)

/-- A delivery is due at this latch. -/
def StreamBody.due (b : StreamBody) (seq now : Nat) : Bool :=
  match b.lastLatch with
  | none => true
  | some x => decide (b.every ≤ w32 (seq + 4294967296 - w32 x) ∧ b.lastAt + 100 ≤ now)

/-- Streams deliver to their owners, whose filters select the event (R92, R206). -/
def deliverStreams (l : Latched) (s : State) : State :=
  s.rotunda.channels.foldl (fun s c =>
    match c.body, c.owner with
    | .stream b, some o =>
      if b.due l.seq s.now then
        let e : Event := ⟨0x8080, none, b.payload c.handle l s.tariffCount⟩
        let s1 := setBody c.slot (.stream { b with
          delivered := w32 (b.delivered + 1), lastLatch := some l.seq, lastAt := s.now }) s
        if s1.selects o e then raiseTo o e s1 else s1
      else s
    | _, _ => s) s

/-! ## The latch itself -/

/-- The open window credited with a period (R325 step 1). -/
def Demand.credit (d : Demand) (feed : Vector SetFeed 29) (step : Bool) : Demand :=
  { d with current := { d.current with
      energy := Vector.ofFn (fun (i : Fin 29) =>
        ((d.current.energy[i]).1 + (feed[i]).total.eai, (d.current.energy[i]).2 + (feed[i]).total.eae))
      short := d.current.short || step } }

/-- The boundaries of this latch walked, and BILLING_CLOSE at it (R325, H3). -/
def State.latchWalk (s : State) : Walk :=
  let k := s.keep
  let e := s.walkEnv k.forwardFrom false
  let w := walkTo e k.billing (Walk.start k.demand k.tariff)
  if k.closeRequest && !w.scheduled then w.instant e k.billing false true else w

/-- Cause of a record (R326, H3). -/
def State.walkCause (s : State) (w : Walk) : Nat :=
  if s.keep.closeRequest && !w.scheduled then 2 else if s.keep.forwardFrom.isSome then 1 else 0

/-- TIME_SETs whose boundaries turned out to be none complete (R332). -/
def finishIdleTimeSets (s : State) : State :=
  let ws := s.keep.waiting.filter (fun w => w.opcode == 0x0112)
  ws.foldl (finishTimeSet 0) (s.withKeep { s.keep with waiting := s.keep.waiting.filter (fun w => w.opcode != 0x0112) })

/-- Boundaries processed at the latch just made (R325, R326); none while the supply is held up (R509). -/
def latchBoundaries (s : State) : State :=
  if s.power.holdUp then s
  else
    let w := s.latchWalk
    if w.any then
      let b := boundaryWrite w (s.walkCause w) s.keep.latched false s
      s.withKeep { s.keep with
        writing := some { b with fors := s.keep.saveWanted }, saveWanted := []
        forwardFrom := none, closeRequest := false, saveStrobe := s.dsp.strobe }
    else
      finishIdleTimeSets (w.changed.foldl programChanged (s.withKeep { s.keep with
        demand := w.demand, tariff := { w.tariff with processedTo := max w.tariff.processedTo s.keep.billing }
        forwardFrom := none }))

/-- The save that this latch owes: periodic, or wanted by a request (R195, R197, M9). -/
def latchSave (s : State) : State :=
  let k := s.keep
  let due := decide (7920 ≤ strobesSince k.saveStrobe s.dsp.strobe) || !k.saveWanted.isEmpty
  if due && k.writing.isNone && !s.power.holdUp then
    s.withKeep { k with
      saving := some (⟨k.latched, k.demand, k.tariff, k.billing⟩, k.saveWanted), saveWanted := []
      saveStrobe := s.dsp.strobe }
  else s

/-- The feed taken into a latch: sets and demand get their values, and the running feed starts anew (R190). -/
def takeFeed (l : Latched) (s : State) : State :=
  (s.withKeep { s.keep with
    latched := l, sticky := l.sets.map (·.sticky), demand := s.keep.demand.credit s.dsp.feed s.keep.forwardFrom.isSome
    cycles := 0, closeNow := false, restored := false }).withDsp { s.dsp with
      feed := Vector.replicate 29 SetFeed.zero, words := Vector.replicate 88 0, reached := Vector.replicate 88 false }

/-- The sets' status bits after a latch, against which the next one reports changes (R207). -/
def notePrevious (l : Latched) (s : State) : State := s.withKeep { s.keep with previous := l.sets.map (·.status) }

/-- The strobe at which the latch was made. -/
def noteStrobe (n : Nat) (s : State) : State := s.withKeep { s.keep with latchStrobe := n }

/-- The latch's trace message, unless a boundary write carries it. -/
def traceLatch (l : Latched) (s : State) : State :=
  if s.keep.writing.isSome then s else trace 6 0x07 (le 4 l.seq ++ [0, 0]) s

/-- A latch (R190 to R194): the Keep's writes of the latch before are complete first. -/
def makeLatch (s0 : State) : State :=
  let s := commitWrite (completeSave s0)
  let l := s.nextLatch
  let s1 := (List.finRange 29).foldl (latchEvents s.keep.latched l) (takeFeed l s)
  let s2 := latchSave (latchBoundaries (latchSessions l (notePrevious l s1)))
  deliverStreams l (traceLatch l (noteStrobe s.dsp.strobe s2))

/-- The period is complete: N cycles, or frequency has returned (R190, R191, M7). -/
def State.latchDue (s : State) : Bool := decide (s.keep.latchN ≤ s.keep.cycles) || s.keep.closeNow

def execLatch (s : State) : Out := if s.keepUp && s.dspUp && s.latchDue then .next (makeLatch s) else .next s

/-- The save in progress is complete (R196). -/
def execSaveComplete (s : State) : Out := if s.keepUp then .next (completeSave s) else .next s

/-! ## Reads (R203, R204) -/

/-- REG_READ. -/
def regRead (r : Req) : State → State :=
  let set := field r.payload 0 1
  let source := field r.payload 1 1
  withLength (r.payload.length == 4) r <| noHandle r <|
  check (decide (set ≤ 28 ∧ source ≤ 1)) stParamRange r <| keepServes r fun s =>
  let l := if source = 0 then s.keep.latched else s.keep.saved.elim Latched.reset (·.latched)
  respond r stOk (regBytes l set source s.tariffCount) s

def execRegRead (b : Box) (s : State) : Out := request b 0x0501 regRead s

/-- REG_READ_SET. -/
def regReadSet (r : Req) : State → State :=
  let first := field r.payload 0 1
  let n := field r.payload 1 1
  withLength (r.payload.length == 4) r <| noHandle r <|
  check (within 1 18 n && decide (first + n ≤ 29)) stParamRange r <| keepServes r fun s =>
  respond r stOk (setsBytes s.keep.latched ((List.range n).map (· + first))) s

def execRegReadSet (b : Box) (s : State) : Out := request b 0x0502 regReadSet s

end Sys2Proof.Machine
end

