-- ==== Sys2Proof/Machine/Mirror.lean ====
section
/-! DEFINITION. The measurement mirror's publications (R31 to R33) and the fuse guard's decisions (R220 to R228, R242). -/

namespace Sys2Proof.Machine

/-- The dual-path, out-of-tolerance and tone status that an entry shows of its channel (R31, R166). -/
def MirrorEntry.status (e : MirrorEntry) (s : State) (c : Channel88) : MirrorEntry :=
  let ts := s.tonesOf c
  { e with
    x16 := if h : c.val < 72 then s.dsp.x16[c.val]'h else false
    outOfTol := ts.any (·.spell), toneLost := ts.any (·.state == .lost), x1Lost := (ts.head?).any (·.state == .lost)
    toneObscured := ts.any (·.obscured), disabled := false }

/-- F-SF2-02: the mirror entry shows the ×1 path of a port's channel in tone lost (R166, R242). -/
def noteTone (old : MirrorEntry) (c : Channel88) (s : State) : State :=
  if h : c.val < 72 then
    if (s.turret.mirror[c]).x1Lost && !old.x1Lost then decideFault fTone (some ⟨c.val / 3, by omega⟩) [] false s else s
  else s

/-- One published value taken into its entry, and into the sums of the period where its half-cycle began after the last cut (R31, R212). -/
def takeValue (f : Phase) (unsync : Bool) (strobe us : Nat) (s : State) (v : MirrorValue) : State :=
  let e := (s.turret.mirror[v.channel]).status s v.channel
  let ip := activeUa v.power (s.voltage (voltageOf v.channel f))
  let e1 : MirrorEntry := { e with
    rms := w32 v.rms, power := v.power, strobe := w32 strobe, seq := w32 (e.seq + 1), stale := false, unsync := unsync
    updatedAt := s.now, freshSince := if e.stale then s.now else e.freshSince }
  let e2 : MirrorEntry :=
    if e.cutAt ≤ s.now - us / 1000 ∨ e.cutAt = 0 then { e1 with
      sumRms := e1.sumRms + w32 v.rms, sumPower := e1.sumPower + v.power, sumIp := e1.sumIp + ip, count := e1.count + 1 }
    else e1
  s.withTurret { s.turret with mirror := s.turret.mirror.set v.channel e2 }

/-- The highest half-cycle RMS of the session, while the port is ENERGISED (R137). -/
def notePeak (s : State) (v : MirrorValue) : State :=
  if h : v.channel.val < 72 then
    let p : Port := ⟨v.channel.val / 3, by omega⟩
    if (s.lane p).state = .energised ∧ (outletChannels p (s.lane p).phaseMap).contains v.channel = true then
      match s.portSession p with
      | some (c, b) => if b.peakMa < v.rms then setSession c { b with peakMa := w32 v.rms } s else s
      | none => s
    else s
  else s

/-- Time since which each phase of a port to which a degraded mode applies is above 8000 mA; a stale entry counts as above (R268). -/
def noteOver (s : State) : State :=
  s.withSteeple { s.steeple with
    overSince := Vector.ofFn (fun p => Vector.ofFn (fun i : Fin 3 =>
      let above := ((outletChannels p (s.lane p).phaseMap)[i.val]?).any (fun c =>
        (s.turret.mirror[c]).stale || decide (8000 < (s.turret.mirror[c]).rms))
      if s.steeple.affected[p] && above then some (((s.steeple.overSince[p])[i]).getD s.now) else none)) }

/-- Values that belong to a publication of some phases, the voltages first. -/
def State.published (s : State) (fs : List Phase) (pub : MirrorPub) : List MirrorValue :=
  let mine := (List.finRange 88).filter (fun c => listsChannel pub c && fs.contains (s.channelPhase c) && s.channelEnabled c)
  (mine.filter (fun c => decide (80 ≤ c.val)) ++ mine.filter (fun c => decide (c.val < 80))).map (fun c => s.fastValue pub (s.pairOf c) c)

/-- A publication taken by Turret: entries, comparators, blindness, then the guard's evaluation of each phase (R31, R220, R227). -/
def takePublication (fs : List Phase) (unsync : Bool) (us : Nat) (pub : MirrorPub) (s : State) : State :=
  let vs := s.published fs pub
  let s0 := vs.foldl (fun s v => notePeak (takeValue (s.channelPhase v.channel) unsync pub.strobe us s v) v) s
  let s1 := vs.foldl (fun x v => noteTone s.turret.mirror[v.channel] v.channel x) s0
  let s2 := s1.withTurret { s1.turret with
    comparators := pub.comparators, synthesised := s.dsp.source != 0, assumedRotation := s.dsp.rotation.isNone
    crossing := Vector.ofFn (fun i => if fs.contains i then w32 pub.strobe else s1.turret.crossing[i]) }
  let s3 := updateBlinds (noteOver s2)
  stampBodies (fs.foldl (fun s f =>
    if s.scEnabled (siteChannel f) && !(s.guard f).blind && !vs.any (fun v => v.channel == siteChannel f) then s
    else evaluateGuard f us s) s3)

/-- MIRROR_PUBLISH: the entries of one voltage phase at its zero crossing (R31). -/
def execMirrorPublish (f : Phase) (pub : MirrorPub) (s : State) : Out :=
  if s.dspUp && s.turretUp && s.dsp.frequency.isSome then .next (takePublication [f] false pub.halfUs pub s) else .next s

/-- MIRROR_PUBLISH_UNSYNC: with no line frequency every entry over 80 samples, each window counted as one half-cycle (R32). -/
def execMirrorPublishUnsync (pub : MirrorPub) (s : State) : Out :=
  if s.dspUp && s.turretUp && s.dsp.frequency.isNone then .next (takePublication allPhases true 10000 pub s) else .next s

/-- MIRROR_ENTRY_STALE (R33). -/
def execMirrorEntryStale (c : Channel88) (s : State) : Out :=
  let e := s.turret.mirror[c]
  if s.turretUp && s.channelEnabled c && !e.stale && s.due (e.updatedAt + s.staleLimit) then
    let s1 := count 49 1 (s.withTurret { s.turret with mirror := s.turret.mirror.set c { e with stale := true } })
    .next (updateBlinds (post none (.mirrorStale c.val) (noteOver s1)))
  else .next s

/-- ZONE_TIMER_RESTART: 10 consecutive half-cycles in zone 0 (R220). -/
def execZoneTimerRestart (f : Phase) (s : State) : Out :=
  if s.turretUp && decide (10 ≤ (s.guard f).zone0Run) then .next (s.modGuard f GuardPhase.restart) else .next s

/-- The Ls timer at 5000 ms or the zone 2 timer at 1000 ms sheds one port (R221). -/
def softShed (f : Phase) (s : State) : State :=
  let g := s.guard f
  let cause := if 1000000 ≤ g.zone2Timer then 3 else if 5000000 ≤ g.lsTimer then 2 else 0
  if cause = 0 then s
  else
    match s.sheddingOrder f with
    | p :: _ => shedPort p f cause g.siteMa s
    | [] => shedNothing f g.zone s

/-- SOFT_SHEDDING, after any hard decision that is due: the timers it restarts no longer shed (G3 of R229). -/
def execSoftShedding (f : Phase) (s : State) : Out := if s.turretUp then .next (softShed f (shedDue s)) else .next s

/-- HARD_SHEDDING: two consecutive half-cycles in zone 3 (R222). -/
def execHardShedding (f : Phase) (s : State) : Out := if s.turretUp then .next (shedHard f s) else .next s

/-- GUARD_BLIND_FAULT: 500 ms of blindness (R242). -/
def execGuardBlindFault (f : Phase) (s : State) : Out :=
  let g := s.guard f
  if s.steepleUp && g.blind && !g.raised && s.due (g.blindSince + 500) then
    .next (decideFault fGuard none [] false (s.modGuard f (fun g => { g with raised := true })))
  else .next s

end Sys2Proof.Machine
end

