-- ==== Sys2Proof/Machine/BelfryOps.lean ====
section
/-! DEFINITION. The powerline link's shared operations: bands, tone maps and link costs, neighbours, routes and discoveries, the
frames sent, and what taking a received frame does (chapter 12). -/

namespace Sys2Proof.Machine

/-! ## Bands, tone maps and costs (R365, R371, R382) -/

def bandNo : Band → Nat
  | .low => 0
  | .upper => 1

def otherBand : Band → Band
  | .low => .upper
  | .upper => .low

def allBands : List Band := [.low, .upper]

/-- Carriers of a band and symbols of its header (R365). -/
def bandCarriers : Band → Nat
  | .low => 36
  | .upper => 216

def headerSymbols : Band → Nat
  | .low => 24
  | .upper => 8

def State.band (s : State) : Band → BandState
  | .low => s.belfry.low
  | .upper => s.belfry.upper

def State.modBand (s : State) (d : Band) (f : BandState → BandState) : State :=
  match d with
  | .low => s.withBelfry { s.belfry with low := f s.belfry.low }
  | .upper => s.withBelfry { s.belfry with upper := f s.belfry.upper }

/-- Band U is permitted by the region option (R364, rule C10). -/
def State.bandUPermitted (s : State) : Bool := s.power.inForce.region == 1

/-- A band is enabled (R395). -/
def State.bandEnabled (s : State) (d : Band) : Bool :=
  bit (s.cfg 0x0501 0) (bandNo d) && (d == .low || s.bandUPermitted)

/-- The 2-bit code of a carrier (R379). -/
def mapCode (m : ToneMap) (i : Nat) : Nat := (byteAt m.carriers (i / 4)).toNat / 4 ^ (i % 4) % 4

def mapActive (d : Band) (m : ToneMap) : Nat := ((List.range (bandCarriers d)).filter (fun i => mapCode m i != 0)).length

/-- Data bits of a symbol. -/
def mapSymbolBits (d : Band) (m : ToneMap) : Nat := ((List.range (bandCarriers d)).map (mapCode m)).sum

/-- A map that can be sent: a rate of R379, its band's size, at least 8 active carriers (R377). -/
def mapUsable (d : Band) (m : ToneMap) : Bool :=
  decide (m.rate ≤ 2 ∧ m.carriers.length = bandCarriers d / 4 ∧ 8 ≤ mapActive d m)

/-- Information bits of a block at a rate (R370). -/
def blockBits (rate : Nat) : Nat := if rate = 0 then 324 else if rate = 1 then 432 else 540

/-- Payload symbols of `bytes` bytes under a map, or robust (R370). -/
def payloadSymbols (d : Band) (m : Option ToneMap) (bytes : Nat) : Nat :=
  let k := blockBits (m.elim 0 (·.rate))
  let n := 8 * bytes
  let coded := n + ((n + k - 1) / k) * (648 - k)
  match m with
  | some x => (coded + mapSymbolBits d x - 1) / mapSymbolBits d x
  | none => (4 * coded + bandCarriers d - 1) / bandCarriers d

/-- The map a direction uses, none when it is robust. -/
def LinkDir.inUse (x : LinkDir) : Option ToneMap :=
  if x.forcedRobust then none else x.current.bind (fun i => (x.maps[i]?).bind (·.map))

/-- Link cost of a direction (R382): 100 data bytes make a secured payload of 122. -/
def LinkDir.cost (d : Band) (x : LinkDir) : Nat :=
  headerSymbols d + payloadSymbols d x.inUse 122 + 4 * x.lastAttempts.countP (fun b => b)

def MapSlot.empty : MapSlot := ⟨none, 0, 0⟩

def LinkDir.fresh : LinkDir := ⟨List.replicate 4 MapSlot.empty, none, false, false, 0, [], false, 0, 0⟩

/-- One attempt noted among the last 16 (R382). -/
def LinkDir.attempt (failed : Bool) (x : LinkDir) : LinkDir := { x with lastAttempts := (failed :: x.lastAttempts).take 16 }

/-- A new map takes the named index and ends the robust mode of R376 (R377, W2). -/
def LinkDir.install (i now : Nat) (m : ToneMap) (x : LinkDir) : LinkDir :=
  { x with
    maps := x.maps.set i ⟨some m, now, now⟩, current := some i, forcedRobust := false, requestRefresh := false
    consecutiveFails := 0, lastMapAt := now, nextMap := (i + 1) % 4 }

/-- The index a receiver's next map takes: the one after the last, although that may have lapsed (R377). -/
def LinkDir.nextIndex (x : LinkDir) : Nat := x.nextMap % 4

/-- The maps of a direction lapse, and it is robust (R378, R395). -/
def LinkDir.lapse (x : LinkDir) : LinkDir := { x with maps := List.replicate 4 MapSlot.empty, current := none }

/-- The setting of a carrier by the sum of `n` frames' SNR in 0.1 dB, and the threshold it takes (R377). -/
def carrierSetting (n : Nat) (sum : Int) : Nat × Int :=
  if sum < 20 * n then (0, 0) else if sum < 80 * n then (1, 20) else if sum < 140 * n then (2, 80) else (3, 140)

/-- Codes of 2 bits packed, the lowest carrier first (R379). -/
def packCodes (cs : List Nat) : List Byte :=
  (List.range (cs.length / 4)).flatMap (fun i =>
    le 1 (cs.getD (4 * i) 0 + 4 * cs.getD (4 * i + 1) 0 + 16 * cs.getD (4 * i + 2) 0 + 64 * cs.getD (4 * i + 3) 0))

/-- The map that a receiver forms from the SNR of each carrier, in 0.1 dB, averaged over the last 8 frames, the newest first (R377): rate 5/6 where
every active carrier lies 4 dB or more above its threshold, otherwise 2/3 where 2 dB or more, otherwise 1/2. Exactly 4 dB or 2 dB counts as
exceeding. DEDUCED (log 206). unsafe. -/
def mapOf (d : Band) (snrs : List (List Int)) : Option ToneMap :=
  let frames := snrs.take 8
  let n := frames.length
  let sums := (List.range (bandCarriers d)).map (fun i => (frames.map (fun f => f.getD i 0)).sum)
  let set := sums.map (fun x => (carrierSetting n x, x))
  let above (db : Int) : Bool := set.all (fun x => x.1.1 == 0 || decide ((x.1.2 + db) * n ≤ x.2))
  let m : ToneMap := ⟨if above 40 then 2 else if above 20 then 1 else 0, packCodes (set.map (fun x => x.1.1))⟩
  if n = 0 ∨ !mapUsable d m then none else some m

/-- A payload symbol is erased: 12 dB over the noise floor (R380). -/
def erasedIn (energies : List Int) : Nat := energies.countP (fun e => decide (120 < e))

/-- A frame's SNR meets the thresholds of the map it came under (R380). -/
def mapMet (d : Band) (m : ToneMap) (snr : List Int) : Bool :=
  (List.range (bandCarriers d)).all (fun i =>
    let x := snr.getD i 0
    match mapCode m i with
    | 0 => true
    | 1 => decide (20 ≤ x)
    | 2 => decide (80 ≤ x)
    | _ => decide (140 ≤ x))

/-- The robust mode as a map: DBPSK on every carrier at rate 1/2 (R371). -/
def robustMap (d : Band) : ToneMap := ⟨0, List.replicate (bandCarriers d / 4) 0x55⟩

/-- A map was used now (R378). -/
def LinkDir.touchMap (i now : Nat) (x : LinkDir) : LinkDir :=
  { x with maps := x.maps.mapIdx (fun j m => if j = i then { m with used := now } else m) }

/-! ## Neighbours (R385, R397) -/

def Channel.neighbour? (c : Channel) : Option NeighbourBody :=
  match c.body with
  | .neighbour b => some b
  | _ => none

def NeighbourBody.dir (b : NeighbourBody) : Band → Direction → LinkDir
  | .low, .send => b.lSend
  | .low, .receive => b.lReceive
  | .upper, .send => b.uSend
  | .upper, .receive => b.uReceive

def NeighbourBody.setDir (b : NeighbourBody) (d : Band) (x : Direction) (v : LinkDir) : NeighbourBody :=
  match d, x with
  | .low, .send => { b with lSend := v }
  | .low, .receive => { b with lReceive := v }
  | .upper, .send => { b with uSend := v }
  | .upper, .receive => { b with uReceive := v }

def NeighbourBody.heard (b : NeighbourBody) : Band → Bool
  | .low => b.heardL
  | .upper => b.heardU

def State.neighbours (s : State) : List (Channel × NeighbourBody) :=
  s.rotunda.channels.filterMap (fun c => c.neighbour?.map (fun b => (c, b)))

def State.neighbourOf (s : State) (address : Nat) : Option (Channel × NeighbourBody) :=
  s.neighbours.find? (fun x => x.2.address == address)

def State.neighbourAt (s : State) (slot : Nat) : Option (Channel × NeighbourBody) :=
  s.neighbours.find? (fun x => x.1.slot == slot)

def setNeighbour (c : Channel) (b : NeighbourBody) (s : State) : State := setBody c.slot (.neighbour b) s

/-- One direction of the neighbour of an address changed. -/
def modLinkDir (address : Nat) (d : Band) (x : Direction) (f : LinkDir → LinkDir) (s : State) : State :=
  match s.neighbourOf address with
  | some (c, b) => setNeighbour c (b.setDir d x (f (b.dir d x))) s
  | none => s

def directionNo : Direction → Nat
  | .send => 0
  | .receive => 1

/-- PLC_LINK (R404): 1 new map, 2 robust under R376, 3 map lapsed. -/
def raiseLink (address : Nat) (d : Band) (x : Direction) (change index : Nat) (s : State) : State :=
  match s.neighbourOf address with
  | some (c, b) =>
    raise 0x80A4 none (le 4 c.handle ++ le 1 (bandNo d) ++ le 1 (directionNo x) ++ le 1 change ++ le 1 index
      ++ le 2 ((b.dir d x).cost d) ++ le 6 s.time) s
  | none => s

/-- PLC_NODE_LEFT (R404): 1 removed, 2 dropped as neighbour, 3 unreachable. -/
def raiseLeft (eui : List Byte) (address reason : Nat) (s : State) : State :=
  raise 0x80A2 none (fit 8 eui ++ le 2 address ++ le 1 reason ++ [0] ++ le 6 s.time) s

/-- The lower cost among the bands a neighbour was heard in (R385). -/
def NeighbourBody.lowerCost (b : NeighbourBody) : Nat :=
  if b.heardL && b.heardU then min (b.lSend.cost .low) (b.uSend.cost .upper)
  else if b.heardU then b.uSend.cost .upper else b.lSend.cost .low

/-- A frame of a node that is in reception will be dropped (W4). -/
def missFrame (d : Band) (address : Nat) (s : State) : State :=
  if (s.band d).medium = .receiving then s.modBand d (fun b => { b with dropped := b.dropped ++ [address] }) else s

/-- A neighbour dropped (R385): its channel goes with reason 4, the node stays joined. -/
def dropNeighbour (c : Channel) (b : NeighbourBody) (s : State) : State :=
  raiseLeft b.eui b.address 2 (destroyChannel c 0x8021 4 (missFrame .upper b.address (missFrame .low b.address s)))

/-- The neighbour whose lower cost is the highest. -/
def State.costliest (s : State) : Option (Channel × NeighbourBody) :=
  s.neighbours.foldl (fun best x =>
    match best with
    | some y => if y.2.lowerCost < x.2.lowerCost then some x else best
    | none => some x) none

def State.nodeOf (s : State) (address : Nat) : Option Node := s.belfry.nodes.find? (fun n => n.address == address)

/-- A new neighbour's body. -/
def newNeighbour (n : Node) (d : Band) (s : State) : NeighbourBody where
  eui := n.eui
  address := n.address
  kind := n.kind
  attr := n.attr
  heardL := d == .low
  heardU := d == .upper
  phase := 0
  phaseDeg := 0
  phaseRun := (0, 0)
  joined := n.joined
  lastHeard := s.time
  lastHeardAt := s.now
  lSend := LinkDir.fresh
  lReceive := { LinkDir.fresh with lastMapAt := s.now }
  uSend := LinkDir.fresh
  uReceive := { LinkDir.fresh with lastMapAt := s.now }
  rxCounter := 0
  framesSent := 0
  attemptsFailed := 0
  framesReceived := 0
  checksFailed := 0
  linkFailures := []
  unreachable := false

/-- A joined node admitted as a direct neighbour (R385); with 96 in use only at the cost of a dearer one. -/
def admitNeighbour (n : Node) (d : Band) (s : State) : State :=
  let b := newNeighbour n d s
  let s1 :=
    if s.typeCount typeNeighbour none < 96 then s
    else
      match s.costliest with
      | some (c, x) => if b.lowerCost < x.lowerCost then dropNeighbour c x s else s
      | none => s
  match createChannel (.neighbour b) none 0xFF s1 with
  | some x => x.2
  | none => s1

/-! ## Frame counter and frames sent (R368, R372, R388, R389) -/

/-- The next counter value, its block of 4096 reserved before the first value is used, for a frame that Cupola secures. A value never comes again (R389): `canSecure` ends
secured frames with the last one of 32 bits. -/
def takePlcCounter (s : State) : Nat × State :=
  let b := s.belfry
  let end_ := if b.counter < b.reservedEnd then b.reservedEnd else b.counter + 4096
  (b.counter, traceEnclave 3 7 0 (s.withBelfry { b with counter := b.counter + 1, reservedEnd := end_ }))

/-- The network key, while Cupola runs and holds it (R388, R452). -/
def State.networkKey (s : State) : Option (List Byte) :=
  if s.up .cd7 && s.cupola.rootOk && !s.cupola.zeroized then s.cupola.slots[5].key else none

/-- Key and nonce a message is secured under; none where it is sent plain. -/
def State.plcKey (s : State) (x : PlcSecurity) (counter : Nat) (d : Band) : Option (List Byte × List Byte) :=
  let nonce := le 2 0 ++ le 2 s.belfry.networkId ++ le 4 counter ++ le 1 (bandNo d) ++ zeros 4
  match x with
  | .plain => none
  | .network => s.networkKey.map (fun k => (k, nonce))
  | .retiring => s.networkKey.bind (fun _ => s.cupola.slots[5].retiring.map (fun k => (k, nonce)))
  | .pairing k n => some (k, fit 13 n)

/-- The message's key is at hand, and a frame counter (R389). -/
def State.canSecure (s : State) (x : PlcSecurity) (d : Band) : Bool :=
  let left := decide (s.belfry.counter < 4294967296)
  match x with
  | .plain => true
  | .pairing _ _ => s.up .cd7 && left
  | .network => (s.plcKey x 0 d).isSome && left
  | .retiring => (s.plcKey x 0 d).isSome && left

/-- Header bytes 0 to 9 (R368). -/
def plcHeader (frameType priority : Nat) (ack refresh robust : Bool) (index sequence source destination length zc : Nat) :
    List Byte :=
  le 1 (frameType * 32 + priority * 8 + b1 ack * 4 + b1 refresh * 2 + b1 robust) ++ le 1 (index % 4 * 64 + sequence % 64)
    ++ le 2 source ++ le 2 destination ++ le 2 (length % 1024) ++ le 2 (zc % 4096)

def withHcrc (h : List Byte) : List Byte := h ++ le 2 (crc16 0x1021 0xFFFF h)

/-- The Drurus's offset at a frame that it starts now: from L1's last positive crossing, the synthesised one too, to the end of the preamble
5760 µs on, in 10 µs and below one period; 0xFFF without a line frequency (R160, R367, R368, R386). The part of the present millisecond that has
passed is open. -/
def State.ownZc (s : State) : Nat :=
  match s.dsp.frequency with
  | some f =>
    let period := max 1 (1000000000000 / max 1 f)
    let ns : Int := (s.inputNow : Int) + 5760000 + (10000 * (s.drawn % 100) : Nat) - s.dsp.lastCrossing
    (ns % period).toNat / 10000
  | none => 0xFFF

/-- Lantern's record of a powerline header (R566): direction 0 received, 1 sent. -/
def tracePlc (d : Band) (direction : Nat) (header : List Byte) (s : State) : State :=
  trace 8 0x0A (le 1 (bandNo d) ++ le 1 direction ++ fit 12 header) s

/-- The frame of a message: header and payload with their checks. -/
def State.plcFrame (s : State) (d : Band) (m : PlcMessage) (counter : Nat) (index : Option Nat) (refresh : Bool) : List Byte :=
  let secured := m.security != .plain
  let robust := m.robust || index.isNone
  let len := 10 + m.data.length + (if secured then 8 else 0) + 4
  let h := plcHeader m.frameType m.priority m.acked refresh robust (index.getD 0) (s.band d).sequence 0 m.nextHop len s.ownZc
  let head := le 2 m.originator ++ le 2 m.final ++ le 1 m.hopsLeft ++ le 1 (b1 secured * 128 + m.type)
    ++ le 4 (if secured then counter else 0)
  let body := match s.plcKey m.security counter d with
    | some (key, nonce) => let x := ccm key nonce (h ++ head) m.data; x.1 ++ x.2
    | none => m.data
  withHcrc h ++ head ++ body ++ le 4 (crc32c (head ++ body))

/-! ## Queues, routes and discoveries (R374, R383, R384) -/

/-- A message of the Drurus's own, to be completed with a next hop. -/
def plcMessage (type priority final : Nat) (security : PlcSecurity) (data : List Byte) (purpose : PlcPurpose) : PlcMessage where
  type := type
  frameType := 0
  priority := priority
  nextHop := 0xFFFF
  originator := 0
  final := final
  hopsLeft := 8
  security := security
  robust := false
  acked := true
  prefer := 0
  attempts := 0
  waitPeriods := 0
  slot := none
  data := data
  purpose := purpose

def enqueue (d : Band) (m : PlcMessage) (s : State) : State := s.modBand d (fun b => { b with queue := b.queue ++ [m] })

/-- A broadcast goes robust and unacknowledged in every running band. -/
def flood (m : PlcMessage) (s : State) : State :=
  allBands.foldl (fun s d =>
    if (s.band d).running then enqueue d { m with nextHop := 0xFFFF, robust := true, acked := false } s else s) s

/-- A message may take a band. -/
def State.mayUse (s : State) (prefer : Nat) (d : Band) : Bool := (s.band d).running && (prefer == 0 || prefer == bandNo d + 1)

/-- The band in which a neighbour is reached (R383): of those it was heard in, the one whose link cost is lower. -/
def State.directBand (s : State) (b : NeighbourBody) (prefer : Nat) : Option Band :=
  let l := s.mayUse prefer .low && b.heardL
  let u := s.mayUse prefer .upper && b.heardU
  if b.unreachable then none
  else if l && u then some (if b.uSend.cost .upper < b.lSend.cost .low then .upper else .low)
  else if l then some .low
  else if u then some .upper
  else none

/-- Next hop, band and hops towards a destination. -/
def State.routeTo (s : State) (dest prefer : Nat) : Option (Nat × Band × Nat) :=
  match (s.neighbourOf dest).bind (fun x => s.directBand x.2 prefer) with
  | some d => some (dest, d, 1)
  | none =>
    (s.belfry.routes.find? (fun r => r.destination == dest && s.mayUse prefer r.band && decide (r.hops ≤ 8)
      && !(s.neighbourOf r.nextHop).any (fun x => x.2.unreachable))).map (fun r => (r.nextHop, r.band, r.hops))

/-- A route used now (R383). -/
def touchRoute (dest : Nat) (s : State) : State :=
  s.withBelfry { s.belfry with routes := s.belfry.routes.map (fun r =>
    if r.destination = dest then { r with lastUsed := s.time, lastUsedAt := s.now } else r) }

/-- The routes without the one unused for longest. -/
def dropOldest (rs : List Route) : List Route :=
  match rs.foldl (fun (o : Option Route) r => match o with
      | some x => if r.lastUsedAt < x.lastUsedAt then some r else o
      | none => some r) none with
  | some x => rs.filter (fun r => r.destination != x.destination)
  | none => rs

/-- A route made (R383): it replaces the destination's own, or, in a full table, the one unused for longest. -/
def addRoute (r : Route) (s : State) : State :=
  let rest := s.belfry.routes.filter (fun x => x.destination != r.destination)
  let rest1 := if 128 ≤ rest.length then dropOldest rest else rest
  s.withBelfry { s.belfry with routes := rest1 ++ [r] }

def dropRoute (dest : Nat) (s : State) : State :=
  s.withBelfry { s.belfry with routes := s.belfry.routes.filter (fun r => r.destination != dest) }

/-- ROUTE_REQ for a discovery of the Drurus's own. -/
def routeRequest (target id : Nat) : PlcMessage :=
  plcMessage 0x70 1 0xFFFF .network (le 2 target ++ le 2 id ++ le 2 0 ++ [0, 0]) .own

/-- A message that has no route waits for one (R384). -/
def discover (m : PlcMessage) (s : State) : State :=
  let b := s.belfry
  if b.discoveries.any (fun x => x.target == m.final) then
    s.withBelfry { b with discoveries := b.discoveries.map (fun x =>
      if x.target = m.final then { x with messages := x.messages ++ [m] } else x) }
  else
    flood (routeRequest m.final b.nextRequestId) (s.withBelfry { b with
      discoveries := b.discoveries ++ [⟨m.final, b.nextRequestId, s.now, 1, [m]⟩], nextRequestId := w16 (b.nextRequestId + 1) })

/-- The network table and routes without a node; its channel goes with reason 0 (R403). -/
def removeNode (eui : List Byte) (s : State) : State :=
  match s.belfry.nodes.find? (fun n => n.eui == eui) with
  | none => s
  | some n =>
    let b := s.belfry
    let s1 := s.withBelfry { b with
      nodes := b.nodes.filter (fun x => x.eui != eui), joins := b.joins.filter (fun j => j.eui != eui),
      routes := b.routes.filter (fun r => r.destination != n.address && r.nextHop != n.address) }
    let s2 := match s1.neighbourOf n.address with
      | some (c, _) => destroyChannel c 0x8021 0 s1
      | none => s1
    let s3 := s2.withBelfry { s2.belfry with
      networkId := if s2.belfry.nodes.isEmpty then s2.cfg 0x0505 0 else s2.belfry.networkId }
    raiseLeft eui n.address 1 s3

/-- The request or removal a message serves ends with it: results of R400. -/
def settleMessage (m : PlcMessage) (d : Band) (result attempts : Nat) (s : State) : State :=
  match m.purpose with
  | .own => s
  | .host w hops => finish w stOk (le 1 result ++ le 1 attempts ++ le 1 hops ++ le 1 (bandNo d) ++ le 6 s.time) s
  | .leave w eui => finish w stOk (le 1 (if result = 0 then 0 else 1) ++ [0, 0, 0]) (removeNode eui s)

/-- A message sent on its way: along its route, or after one is found. A broadcast goes by one band too (R393): the one named, else band L, else
band U; with no band to take it ends without a route. DESIGN CHOICE (log 206). unsafe. -/
def dispatch (m : PlcMessage) (s : State) : State :=
  if m.final = 0xFFFF then
    match allBands.find? (s.mayUse m.prefer) with
    | some d => enqueue d { m with nextHop := 0xFFFF, robust := true, acked := false } s
    | none => settleMessage m .low 1 m.attempts s
  else
    match s.routeTo m.final m.prefer with
    | some (hop, d, hops) =>
      let purpose := match m.purpose with
        | .host w _ => .host w hops
        | .leave w e => .leave w e
        | .own => .own
      enqueue d { m with nextHop := hop, purpose := purpose } (touchRoute m.final s)
    | none => discover m s

/-! ## How a message ends (R376, R400, R403) -/

/-- A message was dropped: ROUTE_ERR to its originator; the Drurus as originator discards the route itself (R384). -/
def reportDrop (m : PlcMessage) (s : State) : State :=
  if m.originator = 0 then dropRoute m.final s
  else dispatch (plcMessage 0x72 1 m.originator .network (le 2 m.final ++ le 2 0) .own) s

/-! ## Bands started and stopped (R395) -/

/-- The maps of one direction of a neighbour lapse, each with its event (R395, R404). -/
def lapseDir (address : Nat) (d : Band) (s : State) (x : Direction) : State :=
  let held := (s.neighbourOf address).elim [] (fun n =>
    (List.range 4).filter (fun i => (((n.2.dir d x).maps[i]?).bind (·.map)).isSome))
  held.foldl (fun s i => raiseLink address d x 3 i s) (modLinkDir address d x LinkDir.lapse s)

/-- The maps of a band lapse in every neighbour. -/
def lapseBand (d : Band) (s : State) : State :=
  s.neighbours.foldl (fun s x => [Direction.send, Direction.receive].foldl (lapseDir x.2.address d) s) s

/-- A band disabled stops after its frame in progress: its waiting messages end without a route; an enabled one starts. -/
def settleBand (s : State) (d : Band) : State :=
  let b := s.band d
  if b.running = s.bandEnabled d ∨ b.medium = .sending ∨ b.medium = .receiving then s
  else if b.running then
    let ms := b.queue ++ b.current.toList
    let s1 := s.modBand d (fun b => { b with
      running := false, medium := .idle, queue := [], current := none, ackDue := none, awaitingAck := false })
    ms.foldl (fun s m => settleMessage m d 1 m.attempts s) (lapseBand d s1)
  else s.modBand d (fun b => { b with running := true, medium := .idle })

/-- The powerline settings taken (R395): bands, coupling, and the network identifier once no node is joined. -/
def settleBelfry (s : State) : State :=
  if s.up .cd8 then
    let s1 := s.withBelfry { s.belfry with
      coupling := s.cfg 0x0502 0, networkId := if s.belfry.nodes.isEmpty then s.cfg 0x0505 0 else s.belfry.networkId }
    allBands.foldl settleBand s1
  else s

/-! ## Phase detection (R386, R387) -/

/-- d in 0.1 degrees from the two offsets in 10 µs and the line frequency in mHz. -/
def phaseAngle (own sent mhz : Nat) : Nat :=
  ((((own : Int) - sent) * mhz) % 100000000).toNat * 3600 / 100000000

/-- The reported code of the sector an angle lies in, within 20 degrees of its centre. -/
def phaseSector (deg : Nat) : Option Nat :=
  let k := (deg + 200) / 600
  if (deg + 200) % 600 ≤ 400 then
    some (if k % 6 = 0 then 1 else if k = 1 then 0x83 else if k = 2 then 2 else if k = 3 then 0x81 else if k = 4 then 3 else 0x82)
  else none

/-- L2 and L3 exchanged under a measured negative rotation. -/
def exchangePhase (code : Nat) : Nat :=
  if code % 128 = 2 then code + 1 else if code % 128 = 3 then code - 1 else code

/-- The neighbour after one frame with offsets: the sector's run, and the report after 4 frames in one sector. -/
def NeighbourBody.seePhase (b : NeighbourBody) (deg : Nat) (negative : Bool) : NeighbourBody :=
  match phaseSector deg with
  | none => { b with phaseDeg := deg, phaseRun := (0, 0) }
  | some c =>
    let code := if negative then exchangePhase c else c
    let run := if b.phaseRun.1 = code then min 4 (b.phaseRun.2 + 1) else 1
    { b with phaseDeg := deg, phaseRun := (code, run), phase := if 4 ≤ run then code else b.phase }

/-- The phase formed from a frame with a valid offset while a line frequency is detected. -/
def State.phased (s : State) (b : NeighbourBody) (f : PlcFrame) : NeighbourBody :=
  match s.dsp.frequency with
  | some mhz =>
    if f.zcOffset < 0xFFF ∧ f.ownOffset < 0xFFF then
      b.seePhase (phaseAngle f.ownOffset f.zcOffset mhz) (s.dsp.rotation == some false)
    else b
  | none => b

/-! ## Received frames (R373, R375, R385, R388) -/

/-- The end of a reception: the acknowledgement slot opens, the frame is counted and traced, and an acknowledgement falls due where
a unicast frame asked for one. -/
def endReception (d : Band) (frameType : Nat) (f : PlcFrame) (s : State) : State :=
  let len := 10 + f.data.length + (if f.secured then 8 else 0) + 4
  let h := plcHeader frameType f.priority f.ackRequested f.refreshRequested f.robust f.mapIndex.val f.sequence f.source f.destination
    len f.zcOffset
  let s1 := s.modBand d (fun b => { b with
    medium := .ackSlot, ackDue := if f.destination = 0 ∧ f.ackRequested then some f.source else none })
  let s2 := tracePlc d 0 (withHcrc h) (countAt (36 + bandNo d) (erasedIn f.symbols) (s1.withBelfry { s1.belfry with
    framesReceived := w32 (s1.belfry.framesReceived + 1), symbolsErased := w32 (s1.belfry.symbolsErased + erasedIn f.symbols) }))
  if f.secured && s.networkKey.isSome then traceEnclave 3 7 (b1 !f.micOk) s2 else s2

/-- Belfry listens in a band: it runs and is not sending there itself. -/
def State.listens (s : State) (d : Band) : Bool := s.up .cd8 && (s.band d).running && (s.band d).medium != .sending

/-- The neighbour after an accepted frame. -/
def State.heardFrom (s : State) (d : Band) (b : NeighbourBody) (f : PlcFrame) : NeighbourBody :=
  let r := (b.dir d .receive).attempt false
  let r1 : LinkDir := { r with traffic := true, requestRefresh := r.requestRefresh || f.refreshRequested }
  let r2 := if f.robust then r1 else r1.touchMap f.mapIndex.val s.now
  let b1 := s.phased b f
  ({ b1 with
    heardL := b.heardL || d == Band.low, heardU := b.heardU || d == Band.upper, lastHeard := s.time, lastHeardAt := s.now,
    rxCounter := f.counter, framesReceived := w32 (b.framesReceived + 1), unreachable := false }).setDir d .receive r2

/-- PLC_PHASE when the report changed (R404). -/
def raisePhase (c : Channel) (old new_ : NeighbourBody) (s : State) : State :=
  if old.phase = new_.phase then s
  else raise 0x80A3 none (le 4 c.handle ++ le 2 new_.address ++ le 1 old.phase ++ le 1 new_.phase ++ le 2 new_.phaseDeg
    ++ le 6 s.time) s

/-- A frame from a direct neighbour, or from a joined node that becomes one, accepted when its MIC verifies and its counter is new
(R385, R388); none where it is dropped, as the frame of a neighbour that was dropped during it (W4). -/
def acceptSecured (d : Band) (f : PlcFrame) (s0 : State) : Option State :=
  if !f.secured || !f.micOk || s0.networkKey.isNone || !(f.destination == 0 || f.destination == 0xFFFF)
      || (s0.band d).dropped.contains f.source then none
  else
    let s := match s0.neighbourOf f.source, s0.nodeOf f.source with
      | none, some n => admitNeighbour n d s0
      | _, _ => s0
    match s.neighbourOf f.source with
    | none => none
    | some (c, b) =>
      if f.counter ≤ b.rxCounter then none
      else
        let b1 := s.heardFrom d b f
        some (raisePhase c b b1 (setNeighbour c b1 s))

/-- A message on its way to another node (R372): one hop fewer, dropped at 0. -/
def relay (f : PlcFrame) (s : State) : State :=
  if f.hopsLeft ≤ 1 then s
  else dispatch { plcMessage f.type f.priority f.final .network f.data .own with
    originator := f.originator, hopsLeft := f.hopsLeft - 1 } s

/-- The row of a received frame: the reception ends, the frame is handled, and a band disabled meanwhile stops (R395). -/
def hearFrame (d : Band) (frameType : Nat) (f : PlcFrame) (k : State → State) (s : State) : State :=
  if s.listens d then settleBand (k (endReception d frameType f s)) d else s

/-- The row of a received secured frame, handled where it is accepted. -/
def receiveSecured (d : Band) (frameType : Nat) (f : PlcFrame) (k : State → State) (s : State) : State :=
  hearFrame d frameType f (fun s1 =>
    match acceptSecured d f s1 with
    | some s2 => k s2
    | none => s1) s

/-- The row of a received data frame: accepted, it is handled here or relayed. -/
def receivePlc (d : Band) (frameType : Nat) (f : PlcFrame) (k : State → State) (s : State) : State :=
  receiveSecured d frameType f (fun s2 => if f.final = 0 ∨ f.final = 0xFFFF then k s2 else relay f s2) s

end Sys2Proof.Machine
end

