-- ==== Sys2Proof/Machine/Faults.lean ====
section
/-! DEFINITION. Steeple's commands and events (chapter 08): what its detectors decide, the ends of reactions and of degraded mode, the
hub inputs, and leaving a lock-out. -/

namespace Sys2Proof.Machine

/-! ## Steeple's own hardware (R234 to R238) -/

/-- LOCKSTEP_MISMATCH (R234). -/
def execLockstepMismatch (s : State) : Out :=
  if s.steepleUp then .next (decideFault fLockstep none [] false s) else .next s

/-- Lower and upper end of a supply's window, in mV (R236). -/
def supplyWindow : Supply → Nat × Nat
  | .vddc => (760, 840)
  | .vdda => (1710, 1890)
  | .vddio => (3000, 3600)
  | .vddm => (1710, 1890)

def supplyCode : Supply → Nat
  | .vddc => 0
  | .vdda => 1
  | .vddio => 2
  | .vddm => 3

/-- Every permit removed for a supply stop: both drives stop and no fault opening begins (R236, R240). -/
def dropPermits (s : State) : State :=
  allPorts.foldl (fun s p => setProbe p false (setPermit p false (setPbd p false (setCtd p false s)))) s

/-- The supply stop: permits removed and a record made, no lock-out; an excursion that begins while a stop is in force has a record of
its own, `again` tells of a reading within the same excursion. -/
def supplyStop (again : Bool) (s : State) : State :=
  if again && s.steeple.supplyStop then s
  else dropPermits (addRecord kSupplyStop 0 none 0 [] {} (s.withSteeple { s.steeple with supplyStop := true }))

/-- The supplies outside their windows after a reading. -/
def noteSupply (x : Supply) (out low : Bool) (s : State) : State :=
  let rest := s.steeple.suppliesOut.filter (fun y => y != x)
  s.withSteeple { s.steeple with
    suppliesOut := if out then rest ++ [x] else rest
    suppliesGoodAt := if out ∨ rest ≠ s.steeple.suppliesOut then s.now else s.steeple.suppliesGoodAt
    vddioLow := if x = .vddio then low else s.steeple.vddioLow }

/-- SUPPLY_EXCURSION (R236): above a window always a fault, below one only with VDDIO and hold-up good, never for VDDIO; a reading
within the window ends the excursion. -/
def execSupplyExcursion (x : Supply) (mv : Nat) (s : State) : Out :=
  let w := supplyWindow x
  let s1 := noteSupply x (!within w.1 w.2 mv) (decide (mv < 3100)) s
  if s.steepleUp then
    if w.2 < mv then .next (decideFault fSupply none (le 1 (supplyCode x) ++ le 2 mv) false s1)
    else if mv < w.1 then
      if x = .vddio ∨ s.power.holdUp ∨ s1.steeple.vddioLow then .next (supplyStop (s.steeple.suppliesOut.contains x) s1)
      else .next (decideFault fSupply none (le 1 (supplyCode x) ++ le 2 mv) false s1)
    else .next s1
  else .next s1

/-- TURRET_ALIVE_TIMEOUT (R237). -/
def execTurretAliveTimeout (s : State) : Out :=
  if s.steepleUp && s.due (s.steeple.aliveAt + 5) then .next (decideFault fTurret none [] false s) else .next s

/-- CD1 stops: every permit falls at once, with both drives, and FAULT_N is held low; the lock-out follows when CD1 is good (R238). -/
def loseCd1 (s : State) : State :=
  let s1 := s.withPower { s.power with lostClocks := .cd1 :: s.power.lostClocks.filter (fun c => c != .cd1) }
  dropPermits (s1.withSteeple { s1.steeple with
    cd1Lost := some (s1.steeple.cd1Lost.getD s1.time), permitsFell := some (s1.steeple.permitsFell.getD (s1.now, s1.steeple.permits))
    clocksGoodAt := s1.now })

/-- The loss of CD1 is entered, with the time of the loss, once Steeple runs again (R238). -/
def enterCd1Loss (s : State) : State :=
  match s.steeple.cd1Lost with
  | some _ =>
    let s1 := decideFault fClock none [] false s
    s1.withSteeple { s1.steeple with cd1Lost := none, permitsFell := none }
  | none => s

/-- CD1_LOSS. -/
def execCd1Loss (s : State) : Out := if s.steepleUp then .next (loseCd1 s) else .next s

/-! ## Residual current and fast trip (R244 to R248) -/

/-- Steeple evaluates the port's residual current (R243). -/
def State.watchesResidual (s : State) (p : Port) : Bool := s.steepleUp && (s.lane p).state != .disabled

/-- Steps 2 and 3 of the residual test run: the DC and AC flags are test results (R244). -/
def Lane.injecting (l : Lane) : Bool := l.testStep == 2 || l.testStep == 3

def detectorCode : Detector → Nat
  | .dc => fDc
  | .ac => fAc
  | .high => fHigh

def detectorNumber : Detector → Nat
  | .dc => 1
  | .ac => 2
  | .high => 3

/-- Readings in 0.1 mA at which a detector never decides (R244). -/
def detectorQuiet : Detector → Nat
  | .dc => 30
  | .ac => 150
  | .high => 1500

/-- A residual reading as a record entry's detail (R272). -/
def residualDetail (reading : Int) (detector : Nat) : List Byte := leInt 4 reading ++ le 1 detector

/-- RESIDUAL_CURRENT_DETECTED (R244). -/
def execResidualCurrentDetected (p : Port) (d : Detector) (reading : Int) (s : State) : Out :=
  if s.watchesResidual p && decide (detectorQuiet d < reading.natAbs) && (d == .high || !(s.lane p).injecting) then
    .next (decideFault (detectorCode d) (some p) (residualDetail reading (detectorNumber d)) false s)
  else .next s

/-- RESIDUAL_SENSOR_FAULT: outside 0.150 to 1.650 V for 10 ms, with 2 mV per mA about 0.900 V (R106, R245). -/
def execResidualSensorFault (p : Port) (mv : Nat) (s : State) : Out :=
  if s.watchesResidual p && !within 150 1650 mv then
    .next (decideFault fSensor (some p) (residualDetail (5 * ((mv : Int) - 900)) 5) false s)
  else .next s

/-- The fast-trip threshold of a port in 0.5 A (R278). -/
def State.tripOf (s : State) (p : Port) : Nat := s.steeple.committed.elim 0 (fun b => b.trip[p])

/-- The port's comparators are under their self-test: the 2 ms in which the output is kept from the trip latch (R248). -/
def State.comparing (s : State) (p : Port) : Bool := (s.lane p).comparator.any (fun t => decide (s.now < t + 2))

/-- FAST_TRIP: the comparators that are above their threshold now; one that fires sets the trip latch and the fault is decided (R246), but
not while the self-test runs (R248); before the first commit there is no threshold (R285). -/
def execFastTrip (p : Port) (a b c : Bool) (s : State) : Out :=
  if s.steepleUp && s.confirmed && !s.comparing p then
    let t := s.steeple.trips[p]
    let s1 := s.withSteeple { s.steeple with
      above := s.steeple.above.set p #v[a, b, c], trips := s.steeple.trips.set p #v[t[0] || a, t[1] || b, t[2] || c] }
    if a || b || c then .next (decideFault fTrip (some p) (le 1 (b1 a + 2 * b1 b + 4 * b1 c) ++ le 2 (s.tripOf p)) false s1)
    else .next s1
  else .next s

/-- A comparator self-test is asked for: at the start, at T01, in step 1 of a residual test (R248), or by a reset that the port's faults
concern (R259); the switches are open. -/
def State.selfTestDue (s : State) (p : Port) : Bool :=
  ((s.lane p).comparator.isSome || s.steeple.resets.any (fun r => (s.lockOf r.port).ports.contains p))
    && !(s.lane p).ctd && !(s.lane p).pbd

/-- A passed self-test counts for the resets that ask for it and completes the PORT_ENABLE whose T01 began it (R142, R248, R259). -/
def passSelfTest (p : Port) (s : State) : State :=
  let s1 := s.withSteeple { s.steeple with
    above := s.steeple.above.set p (Vector.replicate 3 false)
    resets := s.steeple.resets.map (fun r =>
      if (s.lockOf r.port).ports.contains p then { r with selfTests := p :: r.selfTests.filter (fun q => q != p) } else r) }
  if (s.lane p).enabling then settlePort 0x0401 p stOk (s1.modLane p (fun l => { l with enabling := false })) else s1

/-- A failed self-test is decided as F-SF2-03; a residual test that it is part of is abandoned, and with it the resets of either scope that
the test was run for (R248, R262). -/
def failSelfTest (p : Port) (s : State) : State :=
  let s1 := decideFault fComparator (some p) [] false (s.modLane p (fun l => if l.testStep = 0 then l else l.abandonTest))
  if (s.lane p).testForReset then endResetsOf fComparator (fun r => (s.lockOf r.port).ports.contains p) s1 else s1

/-- COMPARATOR_SELF_TEST (R248): every comparator fired at 1.0 mV and stayed quiet at 10.0 mV. -/
def execComparatorSelfTest (p : Port) (fired quiet : Bool) (s : State) : Out :=
  if s.steepleUp && s.selfTestDue p then
    let s1 := s.modLane p (fun l => { l with comparator := none })
    if fired && quiet then .next (passSelfTest p s1) else .next (failSelfTest p s1)
  else .next s

/-! ## Ends of reactions (R255, R263) -/

/-- REACTION_END: the checks of R128 are over 100 ms after the permit removal; a degraded reaction lasts with its mode. -/
def execReactionEnd (s : State) : Out :=
  .next (s.withSteeple { s.steeple with reactions := s.steeple.reactions.map (fun r =>
    if !r.degraded && r.endsAt.isNone && s.due (r.at_ + 100) then { r with endsAt := some (r.at_ + 100) } else r) })

/-- ESCALATION_WINDOW_END: 10 s after a reaction ended. -/
def execEscalationWindowEnd (s : State) : Out :=
  .next (s.withSteeple { s.steeple with reactions := s.steeple.reactions.filter (fun r => r.open_ s.now) })

/-! ## Hub inputs and outputs (R249 to R251) -/

/-- PE_MON_WINDOW: 17 to 23 edges in 20 ms are good, four bad windows in a row a fault (R249). -/
def execPeMonWindow (edges : Nat) (s : State) : Out :=
  if s.steepleUp && s.peEnabled then
    if within 17 23 edges then
      .next (s.withSteeple { s.steeple with peBad := 0, peGoodSince := some (s.steeple.peGoodSince.getD s.now) })
    else
      let s1 := s.withSteeple { s.steeple with peBad := sat 4 (s.steeple.peBad + 1), peGoodSince := none }
      if s.steeple.peBad = 3 then .next (decideFault fPe none [] false s1) else .next s1
  else .next s

/-- The emergency stop's test period in ms (R278). -/
def State.estopPeriod (s : State) : Nat := s.steeple.committed.elim 100 (fun b => b.estopTest * 10)

/-- ESTOP_TEST_PULSE: ESTOP_A followed the pulse and ESTOP_B stayed closed (R250). -/
def execEstopTestPulse (aFollowed bHeld : Bool) (s : State) : Out :=
  if s.steepleUp && s.estopEnabled && s.due (s.steeple.estopTestAt + s.estopPeriod) then
    let good := aFollowed && bHeld
    let s1 := s.withSteeple { s.steeple with
      estopTestAt := s.now, estopFollowed := if good then sat 3 (s.steeple.estopFollowed + 1) else 0 }
    if good then .next s1 else .next (decideFault fEstopTest none [] false s1)
  else .next s

/-- The inputs' levels after a change, and what R259 asks of a full operation: both opened within 100 ms, and closed again. -/
def noteEstop (a b : Bool) (s : State) : State :=
  let t := s.steeple
  let opened := if a && b then none else some (t.estopOpenedAt.getD s.now)
  let both := if a && b then false
    else t.estopBoth || (!a && !b && (t.estopOpenedAt.isNone || t.estopOpenedAt.any (fun o => decide (s.now ≤ o + 100))))
  s.withSteeple { t with
    estopA := a
    estopB := b
    estopOpenedAt := opened
    estopBoth := both
    estopCycled := t.estopCycled || (a && b && t.estopBoth)
    estopSplitAt := if a == b then none else some (t.estopSplitAt.getD s.now)
    estopFollowed := if a && b then t.estopFollowed else 0 }

/-- ESTOP_INPUT_CHANGE: levels held for 2 ms, or a difference that has lasted 100 ms (R250). -/
def execEstopInputChange (a b : Bool) (s : State) : Out :=
  if s.steepleUp && s.estopEnabled then
    let was := s.steeple.estopA && s.steeple.estopB
    let held := s.steeple.hub.faults.any (fun f => f.code == fEstop)
    let s1 := noteEstop a b s
    if !(a && b) && (was || !held) then .next (decideFault fEstop none [] false s1)
    else if a != b && s1.heldFor s1.steeple.estopSplitAt 100 then
      let s2 := decideFault fEstopSplit none [] false s1
      .next (s2.withSteeple { s2.steeple with estopCycled := false, estopBoth := false })
    else .next s1
  else .next s

/-- A weld's pulse or its check of OVS comes to its end: after 200 ms the pulse, 1 s later the check, which repeats the pulse once (R251). -/
def shuntNext (s : State) (h : Shunt) : Option Shunt :=
  if !s.due h.until_ then some h
  else if h.low then some { h with low := false, until_ := s.now + 1000 }
  else if (s.lane h.port).ovs && !h.repeated then some ⟨h.port, true, s.now + 200, true⟩
  else none

/-- SHUNT_TRIP_PULSE_END: each weld has its own pulse, check and repeat (R251). -/
def execShuntTripPulseEnd (s : State) : Out :=
  if s.steepleUp then .next (s.withSteeple { s.steeple with shunt := s.steeple.shunt.filterMap (shuntNext s) }) else .next s

/-- SHT_N is driven low (R251). -/
def State.shtLow (s : State) : Bool := s.steeple.shunt.any (·.low)

/-! ## Leaving lock-out (R258 to R262) -/

/-- T20: a port that no lock-out holds any more (R262); its permit returns (R240) and its pre-break record starts afresh (R265). -/
def releasePort (s : State) (p : Port) : State :=
  if s.steeple.hub.active ∨ (s.portLock p).active then s
  else
    let s1 := (setPermit p (s.permitAllowed p) s).modLane p (fun l => { l with preBreakClean := true })
    if (s1.lane p).state = .lockout then transit p 20 (if (s1.lane p).enabled then .idle else .disabled) s1 else s1

/-- Ports of a scope. -/
def scopePorts (port : Option Port) : List Port :=
  match port with
  | some p => [p]
  | none => allPorts

/-- The trip latches of a port of the scope cleared (R246, R262). -/
def clearTrips (s : State) (p : Port) : State :=
  s.withSteeple { s.steeple with trips := s.steeple.trips.set p (Vector.replicate 3 false) }

/-- A lock-out is left: cleared in MRAM, trip latches cleared, exit recorded, and only then T20 (R262, R271 Y8). -/
def leaveLock (port : Option Port) (m : Marks) (s : State) : State :=
  let first := (s.lockOf port).faults.head?.elim 0 (·.index)
  let s1 := match port with
    | some p => setPortLock p Lockout.reset s
    | none => setHubLock Lockout.reset s
  let s2 := addRecord kLeft 0 port first [] m ((scopePorts port).foldl clearTrips s1)
  (scopePorts port).foldl releasePort (s2.withSteeple s2.steeple.storeLocks)

/-- A reset completes `OK`. -/
def completeReset (r : ResetRun) (m : Marks) (s : State) : State :=
  let s1 := leaveLock r.port m s
  let index := s.steeple.nextIndex
  endReset r stOk index 0 s1

/-- The lock-out holds an SF1 or SF5 fault: local confirmation is required (R258). -/
def Lockout.needsConfirmation (l : Lockout) : Bool :=
  l.faults.any (fun f => faultFunction f.code == 1 || faultFunction f.code == 5)

/-- Turret runs a residual test for the reset, the drive permit still absent (R259). -/
def startResetTest (s : State) (f : HeldFault) : State :=
  match f.port with
  | some p =>
    if faultFunction f.code = 1 then
      s.modLane p (fun l => if l.testForReset then l
        else { l with testForReset := true, testStep := 1, testStart := s.now, rct := .static, testPassed := false, comparator := some s.now })
    else s
  | none => s

/-- The pilot of a port driven steady high as a probe (R259). -/
def startResetProbe (s : State) (p : Port) : State := s.modLane p (fun l => { l.steady .high with classRun := 0, confirmed := none })

/-- Ports whose SF3 faults a lock-out holds. -/
def Lockout.pilotPorts (l : Lockout) : List Port :=
  ((l.faults.filter (fun f => faultFunction f.code == 3)).filterMap (·.port)).eraseDups

/-- LOCKOUT_RESET reaches Steeple (R259, R276). -/
def arriveReset (e : RequestEntry) (s : State) : State :=
  let port : Option Port := if field e.data 0 1 = 0 then portOf (field e.data 1 1) else none
  let l := s.lockOf port
  let record := field e.data 4 4
  if !l.active ∨ record ≠ l.latest ∨ s.steeple.resets.any (fun r => r.port == port) then
    postOutcome e.number stRefusedState (resetResult 0 0 s) s
  else if l.needsConfirmation && s.steeple.window.isSome then postOutcome e.number stBusy (resetResult 0 0 s) s
  else
    let probes := l.pilotPorts
    let s1 := s.withSteeple { s.steeple with
      resets := s.steeple.resets ++ [⟨port, e.number, s.now, false, [], [], probes.map (fun p => (p, s.now)), []⟩] }
    probes.foldl startResetProbe (l.faults.foldl startResetTest s1)

/-- LOCKOUT_RESET: checked by Rotunda, then handed over in the request record (R259, R273, R276). -/
def lockoutReset (r : Req) : State → State :=
  let scope := field r.payload 0 1
  let port := field r.payload 1 1
  withLength (r.payload.length == 8) r <| noHandle r <|
  check ((scope == 0 && decide (port < 24)) || (scope == 1 && port == 0xFF)) stParamRange r <| askSteeple 1 r.payload r

def execLockoutReset (b : Box) (s : State) : Out := request b 0x0803 lockoutReset s

/-- Every clear condition of a reset holds. -/
def State.allClear (s : State) (r : ResetRun) : Bool := (s.uncleared r).isEmpty

/-- The confirmation window opens, with CONFIRM_REQUIRED (R260, R277). -/
def openWindow (r : ResetRun) (s : State) : State :=
  let deadline := s.now + 120000
  let s1 := s.withSteeple { s.steeple with
    window := some ⟨r.port, s.now, deadline, s.time⟩
    resets := s.steeple.resets.map (fun x => if x.request = r.request then { x with inWindow := true } else x) }
  post r.port (.confirmRequired (if r.port.isSome then 0 else 1) (portByte r.port) (s.lockOf r.port).latest (w48 (s.civil + 120000))) s1

/-- One reset whose clear conditions all hold goes on: the lock-out is left, or its window opens; a second window is `BUSY`. -/
def clearReset (s : State) (r : ResetRun) : State :=
  if s.steeple.resets.contains r && !r.inWindow && s.allClear r then
    if !(s.lockOf r.port).needsConfirmation then completeReset r {} s
    else if s.steeple.window.isSome then endReset r stBusy 0 0 s
    else openWindow r s
  else s

/-- CLEAR_CONDITIONS_MET (R260, R262). -/
def execClearConditionsMet (s : State) : Out :=
  if s.steepleUp then .next (s.steeple.resets.foldl clearReset s) else .next s

/-- LOCKOUT_RESET_TIMEOUT: a clear condition still fails 10 s after the reset reached Steeple (R276). -/
def execLockoutResetTimeout (s : State) : Out :=
  if s.steepleUp then
    .next (s.steeple.resets.foldl (fun s r =>
      if !r.inWindow && s.due (r.startedAt + 10000) && !s.allClear r then endReset r stFaultPresent 0 (s.firstUncleared r) s
      else s) s)
  else .next s

/-- One reset after the pilot probe of a port. -/
def endPilotProbe (p : Port) (s : State) (r : ResetRun) : State :=
  if r.probing.any (fun x => x.1 == p && s.due (x.2 + 20)) then
    let r2 : ResetRun := { r with probing := r.probing.filter (fun x => x.1 != p), bandA := r.bandA ++ [p] }
    if (s.lane p).confirmed = some .a then
      s.withSteeple { s.steeple with resets := s.steeple.resets.map (fun x => if x.request = r.request then r2 else x) }
    else endReset r stFaultPresent 0 (s.firstUncleared r) (endProbe s p)
  else s

/-- CLEAR_PROBE_END: 20 ms after the probe began, band A must be confirmed (R259). -/
def execClearProbeEnd (p : Port) (s : State) : Out :=
  if s.steepleUp then .next (s.steeple.resets.foldl (endPilotProbe p) s) else .next s

/-- The reset whose confirmation window is open. -/
def State.windowRun (s : State) : Option ResetRun := s.steeple.resets.find? (·.inWindow)

/-- CONFIRMATION_WINDOW_EXPIRED (R260). -/
def execConfirmationWindowExpired (s : State) : Out :=
  match s.steeple.window, s.windowRun with
  | some w, some r =>
    if s.steepleUp && s.due w.deadline then
      .next (endReset r stLocalConfirmMissing 0 0 (addRecord kWindowExpired 0 w.port (s.lockOf w.port).latest [] {} s))
    else .next s
  | _, _ => .next s

/-- The reset in the window is confirmed: the lock-out is left if every clear condition holds still (R258, R262). -/
def confirmReset (m : Marks) (s : State) : State :=
  match s.windowRun with
  | some r => if s.allClear r then completeReset r m s else endReset r stFaultPresent 0 (s.firstUncleared r) s
  | none => s

/-- SRST_N_PULSE: a low of 0.5 s to 5 s that has just ended (R260, R261). -/
def execSrstNPulse (lowMs : Nat) (s : State) : Out :=
  match s.steeple.window with
  | some w =>
    if s.steepleUp && !s.steeple.srstStuck && decide (500 ≤ lowMs ∧ lowMs < 5000 ∧ w.openedAt + lowMs ≤ s.now ∧ s.now ≤ w.deadline)
    then .next (confirmReset { srst := true } s)
    else .next s
  | none => .next s

/-- SRST_N_STUCK (R261). -/
def execSrstNStuck (s : State) : Out :=
  if s.steepleUp && !s.steeple.srstStuck then
    .next (addRecord kSrstStuck 0 none 0 [] {} (s.withSteeple { s.steeple with srstStuck := true }))
  else .next s

/-- SRST_N_REARM: high for 1 s (R261). -/
def execSrstNRearm (s : State) : Out :=
  if s.steepleUp then .next (s.withSteeple { s.steeple with srstStuck := false }) else .next s

/-! ## Proofs (R29, R260, R283) -/

/-- Steeple takes a proof once: not used in the last 120 s, INSTALLER, issued within the last 120 s. -/
def State.proofGood (s : State) (data : List Byte) : Bool :=
  field data 0 4 != 0 && field data 4 1 == 2 && decide (s.time ≤ field data 8 6 + 120000 ∧ field data 8 6 ≤ s.time)
    && !s.steeple.usedProofs.any (fun u => u.1 == field data 0 4 && decide (s.now < u.2 + 120000))

/-- The identifier of a proof is kept for 120 s. -/
def useProof (id : Nat) (s : State) : State :=
  s.withSteeple { s.steeple with
    usedProofs := s.steeple.usedProofs.filter (fun u => decide (s.now < u.2 + 120000)) ++ [(id, s.now)] }

/-- A local confirmation reaches Steeple: a proof issued after the window opened, and the window has not expired (R260, R424). -/
def arriveProof (e : RequestEntry) (s : State) : State :=
  match s.steeple.window with
  | some w =>
    if s.proofGood e.data && decide (w.openedTime ≤ field e.data 8 6 ∧ s.now ≤ w.deadline) then
      confirmReset { keytag := true } (postOutcome e.number stOk [] (useProof (field e.data 0 4) s))
    else postOutcome e.number stLocalConfirmMissing [] s
  | none => postOutcome e.number stLocalConfirmMissing [] s

/-! ## Ends of degraded mode (R267 to R269) -/

/-- The degraded mode that a port is under: its own, or the hub's while it is affected. -/
def State.degradedOf (s : State) (p : Port) : Option Degraded :=
  match s.steeple.portDegraded[p] with
  | some d => some d
  | none => if s.steeple.affected[p] then s.steeple.hubDegraded else none

/-- DEGRADED_OVERCURRENT: above 8000 mA for 5000 ms (R268). -/
def execDegradedOvercurrent (p : Port) (s : State) : Out :=
  match s.degradedOf p with
  | some d =>
    if s.steepleUp && s.steeple.overSince[p].toList.any (fun t => s.heldFor t 5000) then .next (lockDegradedPort p d.code d.index s) else .next s
  | none => .next s

/-- D1 or D3 ends in hub lock-out under the original fault code (R269). -/
def endHubDegraded (d : Degraded) (s : State) : State :=
  let s1 := addRecord kDegradedEnd d.code none d.index [] {} s
  let l := s1.steeple.hub
  let held := ({ l with pending := false, faults := l.faults.filter (fun f => f.index ≠ d.index) } : Lockout).hold
    ⟨s1.lastIndex, d.code, none, s1.now, s1.power.boots⟩ false
  openAll (endHubMode d (s1.withSteeple { s1.steeple with
    hub := held
    reactions := s1.steeple.reactions.map (fun r =>
      if r.degraded && r.port.isNone then { r with degraded := false, at_ := s1.now } else r) }))

/-- The degraded-mode time of one port has come. -/
def endPortDegraded (s : State) (p : Port) : State :=
  match s.steeple.portDegraded[p] with
  | some d => if s.due d.endsAt then lockDegradedPort p d.code d.index s else s
  | none => s

/-- DEGRADED_TIME_END (R269). -/
def execDegradedTimeEnd (s : State) : Out :=
  if s.steepleUp then
    let s1 := allPorts.foldl endPortDegraded s
    match s1.steeple.hubDegraded with
    | some d => if s1.due d.endsAt then .next (endHubDegraded d s1) else .next s1
    | none => .next s1
  else .next s

/-- The clear condition of D1 or D3 has held for 60 s (R259, R269). -/
def State.degradedCleared (s : State) (d : Degraded) : Bool :=
  if d.cls = 1 then s.pairsGood && s.heldFor s.steeple.telegram.goodSince 61000
  else siteChannels.all (fun c => !s.scEnabled c ||
    (!s.turret.mirror[c].stale && s.due (s.turret.mirror[c].freshSince + 61000)))

/-- DEGRADED_EARLY_END: D1 and D3 only (R269). -/
def execDegradedEarlyEnd (s : State) : Out :=
  match s.steeple.hubDegraded with
  | some d =>
    if s.steepleUp && s.degradedCleared d then
      let s1 := addRecord kEarlyEnd 0 none d.index [] {} s
      let l := s1.steeple.hub
      .next (endHubMode d (s1.withSteeple { s1.steeple with
        hub := { l with pending := false, faults := l.faults.filter (fun f => f.index ≠ d.index) }
        reactions := s1.steeple.reactions.map (fun r =>
          if r.degraded && r.port.isNone then { r with degraded := false, endsAt := some s1.now } else r) }))
    else .next s
  | none => .next s

/-! ## Queries (R274, R275) -/

/-- A path delivers: its last valid copy came less than the telegram timeout ago. -/
def SafetyLink.delivering (l : SafetyLink) (now timeout : Nat) : Bool := l.lastValidAt.any (fun t => decide (now < t + timeout))

/-- Telegram timeout in ms. -/
def State.tgTimeout (s : State) : Nat := s.steeple.committed.elim 30 (·.tgTimeout)

/-- Remaining seconds of a degraded mode. -/
def State.remaining (s : State) (d : Option Degraded) : Nat := d.elim 0 (fun x => (x.endsAt - s.now) / 1000)

/-- First fault and latest entry of a lock-out or degraded mode. -/
def Lockout.code (l : Lockout) : Nat := l.faults.head?.elim 0 (·.code)
def Lockout.record (l : Lockout) : Nat := if l.active then l.latest else 0

/-- One port's 10 bytes (R274). -/
def State.portSafety (s : State) (p : Port) : List Byte :=
  let l := s.portLock p
  let d := s.steeple.portDegraded[p]
  let state := if l.active then 1
    else if d.isSome then (if (s.lane p).state = .opening then 3 else 2)
    else if l.pending then 3 else 0
  le 1 state ++ [0] ++ le 2 l.code ++ le 4 l.record ++ le 2 (s.remaining d)

/-- SAFETY_STATUS response payload (R274); `check` is the committed block's check value. -/
def State.safetyStatus (s : State) (check : Nat) : List Byte :=
  let t := s.steeple
  let cls := t.hubDegraded.elim 0 (·.cls)
  le 1 (bits [false, t.srstStuck, t.window.isSome, t.reactions.any (fun r => r.open_ s.now), s.power.inForce.uryan == 1,
      s.confirmed, t.hubDegraded.isSome, t.hub.active])
    ++ le 1 cls ++ le 2 t.hub.code ++ le 4 t.hub.record ++ le 2 (s.remaining t.hubDegraded)
    ++ le 1 (bits [false, s.faultLow, s.shtLow, s.telegramEnabled && t.telegram.b.delivering s.now s.tgTimeout,
      s.telegramEnabled && t.telegram.a.delivering s.now s.tgTimeout, t.peGoodSince.isSome, t.estopB, t.estopA])
    ++ [0] ++ le 4 check ++ allPorts.flatMap s.portSafety

/-- FAULT_RECORD_READ response payload: at most `n` entries from index `first` onward (R275). -/
def State.faultRecords (s : State) (first n : Nat) : List Byte :=
  let es := (s.steeple.record.filter (fun e => decide (w32 (e.index + 4294967296 - first) < 2147483648))).take n
  le 1 es.length ++ [0, 0, 0] ++ le 4 s.lastIndex ++ es.flatMap FaultEntry.bytes

def faultRecordRead (r : Req) : State → State :=
  withLength (r.payload.length == 8) r <| noHandle r <|
  check (within 1 14 (field r.payload 4 1)) stParamRange r fun s =>
  respond r stOk (s.faultRecords (field r.payload 0 4) (field r.payload 4 1)) s

def execFaultRecordRead (b : Box) (s : State) : Out := request b 0x0802 faultRecordRead s

end Sys2Proof.Machine
end

