-- ==== Sys2Proof/Machine/Params.lean ====
section
/-! DEFINITION. The safety parameter block, its staging and commit, and the paired safety telegrams (chapter 09). -/

namespace Sys2Proof.Machine

/-! ## The block (R278, R279, R282) -/

/-- Bytes 0 to 123 of a block (R278). -/
def SafetyBlock.bytes (b : SafetyBlock) : List Byte :=
  le 1 b.version ++ le 1 b.enables ++ le 1 b.cablePolicy ++ le 1 b.degradedMin ++ le 1 b.tgPeriod ++ le 1 b.tgTimeout
    ++ le 1 b.tgStart ++ le 1 b.estopTest ++ le 4 b.pairId ++ le 2 b.localId ++ le 2 b.partnerId ++ le 2 b.canTx ++ le 2 b.canRx
    ++ b.rated.toList.flatMap (le 2) ++ b.trip.toList.flatMap (le 2) ++ fit 8 b.reserved

/-- The block that 124 bytes stand for. -/
def blockOf (bs : List Byte) : SafetyBlock where
  version := field bs 0 1
  enables := field bs 1 1
  cablePolicy := field bs 2 1
  degradedMin := field bs 3 1
  tgPeriod := field bs 4 1
  tgTimeout := field bs 5 1
  tgStart := field bs 6 1
  estopTest := field bs 7 1
  pairId := field bs 8 4
  localId := field bs 12 2
  partnerId := field bs 14 2
  canTx := field bs 16 2
  canRx := field bs 18 2
  rated := Vector.ofFn (fun p => field bs (20 + 2 * p.val) 2)
  trip := Vector.ofFn (fun p => field bs (68 + 2 * p.val) 2)
  reserved := slice bs 116 8

/-- The check value (R282). -/
def SafetyBlock.check (b : SafetyBlock) : Nat := crc32c b.bytes

/-- All 128 bytes. -/
def SafetyBlock.whole (b : SafetyBlock) : List Byte := b.bytes ++ le 4 b.check

def SafetyBlock.telegrams (b : SafetyBlock) : Bool := bit b.enables 4

/-- A pair field lies in its range, or is 0 while supervision is off (R279). -/
def pairFieldOk (on : Bool) (hi v : Nat) : Bool := within 1 hi v || (!on && v == 0)

/-- An admissible block (R279). -/
def SafetyBlock.admissible (b : SafetyBlock) : Bool :=
  let on := b.telegrams
  b.version == 1 && decide (b.enables < 32) && !bit b.enables 0 && decide (b.cablePolicy ≤ 1) && within 1 30 b.degradedMin
    && within 5 50 b.tgPeriod && within 15 200 b.tgTimeout && within 1 60 b.tgStart && within 5 100 b.estopTest
    && pairFieldOk on 0xFFFFFFFE b.pairId && pairFieldOk on 0xFFFE b.localId && pairFieldOk on 0xFFFE b.partnerId
    && decide (b.canTx ≤ 0x7FF) && decide (b.canRx ≤ 0x7FF) && isZero b.reserved
    && allPorts.all (fun p => within 60 630 b.rated[p] && within 40 300 b.trip[p] && decide (18 * b.rated[p] ≤ 50 * b.trip[p]))
    && decide (3 * b.tgPeriod ≤ b.tgTimeout)
    && (!on || (b.localId != b.partnerId && b.canTx != b.canRx))

/-- Check value of the committed block, 0 before the first commit (R274). -/
def State.committedCheck (s : State) : Nat := s.steeple.committed.elim 0 (·.check)

/-- SAFETY_STATUS (R274). -/
def safetyStatus (r : Req) : State → State :=
  withLength r.payload.isEmpty r <| noHandle r fun s => respond r stOk (s.safetyStatus s.committedCheck) s

def execSafetyStatus (b : Box) (s : State) : Out := request b 0x0801 safetyStatus s

/-! ## Staging and commit (R281 to R285, R298 to R300) -/

/-- SAFETY_PARAM_READ's response (R298). -/
def State.paramRead (s : State) (source : Nat) : List Byte :=
  let t := s.steeple
  let shown := if source = 1 then t.staged.whole else match t.committed with
    | some b => b.whole
    | none => zeros 128
  le 1 source
    ++ le 1 (b1 s.confirmed * 128 + b1 (t.committed != some t.staged) * 64 + b1 t.staged.admissible * 32)
    ++ [0, 0] ++ le 6 t.commitTime ++ [0, 0] ++ shown

def safetyParamRead (r : Req) : State → State :=
  withLength (r.payload.length == 4) r <| noHandle r <| check (decide (field r.payload 0 1 ≤ 1)) stParamRange r fun s =>
  respond r stOk (s.paramRead (field r.payload 0 1)) s

def execSafetyParamRead (b : Box) (s : State) : Out := request b 0x0804 safetyParamRead s

/-- A SAFETY_COMMIT has been published and Steeple has not yet acted on it (R297 Q1). -/
def State.commitPublished (s : State) : Bool := s.rotunda.published.record.any (fun e => e.kind == 3 && !e.done)

/-- SAFETY_PARAM_STAGE (R299). -/
def safetyParamStage (r : Req) : State → State :=
  let op := field r.payload 0 1
  let off := field r.payload 1 1
  let len := field r.payload 2 1
  withLength (r.payload.length == 4 + len) r <| noHandle r <|
  check ((op == 0 && within 1 124 len && decide (off + len ≤ 124) && !(off == 0 && field r.payload 4 1 != 1))
    || (op == 1 && len == 0 && decide (off ≤ 123))) stParamRange r fun s =>
  if !s.rotunda.silent && s.commitPublished then refuse r stBusy s else askSteeple 2 r.payload r s

def execSafetyParamStage (b : Box) (s : State) : Out := request b 0x0805 safetyParamStage s

/-- SAFETY_PARAM_STAGE reaches Steeple. -/
def arriveStage (e : RequestEntry) (s : State) : State :=
  let staged := if field e.data 0 1 = 0 then
      blockOf (splice s.steeple.staged.bytes (field e.data 1 1) (slice e.data 4 (field e.data 2 1)))
    else s.steeple.committed.getD SafetyBlock.defaults
  postOutcome e.number stOk (le 4 staged.check) (s.withSteeple { s.steeple with staged := staged })

/-- A proof in the form of kind 4 (R29). -/
def Proof.bytes (p : Proof) : List Byte :=
  le 4 p.id ++ le 1 p.role ++ le 1 p.antenna.val ++ [0, 0] ++ le 6 p.time ++ le 1 p.uid.length ++ [0] ++ fit 10 p.uid

/-- The proof of an identifier as Oculus holds it, or zeros where it holds none or that one is used (R29, R424). -/
def State.proofBytes (s : State) (id : Nat) : List Byte :=
  match s.oculus.proofs.find? (fun p => p.id == id && !p.used && decide (s.now < p.at_ + 120000)) with
  | some p => p.bytes
  | none => zeros 26

/-- Oculus holds an INSTALLER proof of this identifier, unused and not older than 120 s (R283 step 2, R424). -/
def State.installerProof (s : State) (id : Nat) : Bool :=
  s.oculus.proofs.any (fun p => p.id == id && p.role == 2 && !p.used && decide (s.now < p.at_ + 120000))

/-- A proof is used once (R424). -/
def markProofUsed (id : Nat) (s : State) : State :=
  s.withOculus { s.oculus with proofs := s.oculus.proofs.map (fun p => if p.id = id then { p with used := true } else p) }

/-- SAFETY_COMMIT (R283, R300). -/
def safetyCommit (r : Req) : State → State :=
  withLength (r.payload.length == 8) r <| noHandle r fun s =>
  askSteeple 3 (r.payload ++ s.proofBytes (field r.payload 4 4)) r s

def execSafetyCommit (b : Box) (s : State) : Out := request b 0x0806 safetyCommit s

/-! ## Telegram supervision (R286 to R295) -/

/-- CRC-32C that starts at the pair identifier (R286). -/
def crc32cFrom (init : Nat) (bs : List Byte) : Nat :=
  (bs.foldl (fun r b => crcShift 0x82F63B78 8 (r ^^^ b.toNat)) init) ^^^ 0xFFFFFFFF

/-- The PDU the Drurus sends (R286, R287). -/
def State.pdu (s : State) (b : SafetyBlock) : List Byte :=
  let t := s.steeple.telegram
  let mode := if s.steeple.hub.active then 3 else if s.steeple.hubDegraded.isSome then 2 else 1
  let head := le 2 t.txSeq ++ le 2 b.localId ++ le 2 b.partnerId ++ le 1 (4 * mode + b1 s.steeple.hub.active) ++ [0]
    ++ le 2 (if t.pairSeen then t.lastPairSeq else 0xFFFF) ++ [0, 0]
  head ++ le 4 (crc32cFrom b.pairId head)

def State.withTelegram (s : State) (t : Telegram) : State := s.withSteeple { s.steeple with telegram := t }

def Telegram.link (t : Telegram) : SafetyPath → SafetyLink
  | .snA => t.a
  | .snB => t.b

/-- A link's body changed (R75, R301). -/
def Telegram.setLink (t : Telegram) (path : SafetyPath) (l : SafetyLink) (civil : Nat) : Telegram :=
  let l2 : SafetyLink := { l with modified := w48 civil, changes := w32 (l.changes + 1) }
  match path with
  | .snA => { t with a := l2 }
  | .snB => { t with b := l2 }

def otherPath : SafetyPath → SafetyPath
  | .snA => .snB
  | .snB => .snA

def State.modLink (s : State) (path : SafetyPath) (f : SafetyLink → SafetyLink) : State :=
  s.withTelegram (s.steeple.telegram.setLink path (f (s.steeple.telegram.link path)) s.civil)

/-- A start of supervision (R295), or its end while the enable is clear. -/
def startTelegrams (s : State) : State :=
  let t := s.steeple.telegram
  s.withTelegram { Telegram.reset with
    running := s.telegramEnabled, startedAt := s.now, baseAt := s.now, nextTxAt := s.now, a := t.a, b := t.b }

/-- Fault confinement of the SN-B controller (R289): an error at a frame of its own weighs eight, at a received one one, and each success
takes one off; a frame that no node acknowledges counts only up to error-passive. PRESUMED (log 181: ISO 11898-1). unsafe. -/
def SafetyLink.canSent (l : SafetyLink) : CanSend → SafetyLink
  | .sent => { l with txErrors := l.txErrors - 1 }
  | .unacknowledged =>
    { l with busErrors := w32 (l.busErrors + 1), txErrors := if 127 < l.txErrors then l.txErrors else l.txErrors + 8 }
  | .error => { l with busErrors := w32 (l.busErrors + 1), txErrors := sat 256 (l.txErrors + 8) }

/-- A frame received without an error takes one off the receive count, from error-passive back to its bound. -/
def SafetyLink.canReceived (l : SafetyLink) : SafetyLink := { l with rxErrors := min 127 (l.rxErrors - 1) }

/-- An error frame (R301). -/
def SafetyLink.canError (l : SafetyLink) : SafetyLink :=
  { l with busErrors := w32 (l.busErrors + 1), rxErrors := sat 128 (l.rxErrors + 1) }

/-- bus_state (R301): error-active, error-passive above 127 of either count, bus-off above 255 of its own. -/
def SafetyLink.busState (l : SafetyLink) : Nat :=
  if 255 < l.txErrors then 2 else if 127 < l.txErrors ∨ 127 < l.rxErrors then 1 else 0

/-- What becomes of the next frame on SN-B, a free value: sent, not acknowledged, or met by an error. -/
def State.frameFate (s : State) : CanSend := if s.drawn % 3 = 0 then .sent else if s.drawn % 3 = 1 then .unacknowledged else .error

/-- TELEGRAM_TRANSMIT: one PDU per period on both links (R287), on SN-B with can_tx_id and once only (R289); a controller that is bus-off
sends nothing. What becomes of the frame on the bus is a free value. DESIGN CHOICE (log 188). safe. -/
def execTelegramTransmit (s : State) : Out :=
  match s.steeple.committed with
  | some b =>
    let t := s.steeple.telegram
    if s.steepleUp && t.running && s.due t.nextTxAt then
      let s1 := s.withTelegram { t with
        sent := s.pdu b, sentId := b.canTx, txSeq := w16 (t.txSeq + 1), nextTxAt := s.now + b.tgPeriod }
      let note (l : SafetyLink) : SafetyLink := { l with lastTxSeq := t.txSeq }
      let s2 := s1.modLink .snA note
      .next (if t.b.busState = 2 then s2 else (s2.modLink .snB (fun l => (note l).canSent s.frameFate)).draw)
    else .next s
  | none => .next s

/-- `a` lies 1 to `n` ahead of `b`, modulo 2^16. -/
def ahead (n a b : Nat) : Bool := within 1 n (w16 (a + 65536 - b))

/-- Class D1 is in force (R265). -/
def State.inD1 (s : State) : Bool := s.steeple.hubDegraded.any (fun d => d.cls == 1)

/-- Check 5 of R291. In D1 the reference follows the remaining path, so a mate of a copy already taken is judged with that copy. -/
def State.sequenceOk (s : State) (path : SafetyPath) (seq : Nat) : Bool :=
  let t := s.steeple.telegram
  match t.reference with
  | none => true
  | some r => ahead 16 seq r || (s.inD1 && (t.waiting.any (fun w => w.path != path && w.seq == seq)
      || t.ended.contains (otherPath path, seq)))

/-- Checks of R291: 0 valid, else the order of the failing one. -/
def State.copyCheck (s : State) (b : SafetyBlock) (path : SafetyPath) (framingOk : Bool) (bs : List Byte) : Nat :=
  let flags := field bs 6 1
  if !framingOk ∨ bs.length ≠ 16 then 1
  else if field bs 12 4 ≠ crc32cFrom b.pairId (bs.take 12) then 2
  else if field bs 2 2 ≠ b.partnerId ∨ field bs 4 2 ≠ b.localId then 3
  else if flags / 4 = 0 ∨ 16 ≤ flags ∨ bit flags 1 ∨ field bs 7 1 ≠ 0 ∨ field bs 10 2 ≠ 0 then 4
  else if !s.sequenceOk path (field bs 0 2) then 5
  else 0

/-- A waiting copy's allowance ends without a mate (R292). -/
def discardWaiting (w : WaitingCopy) (s : State) : State :=
  let s1 := s.modLink w.path (fun l => { l with unmatched := w32 (l.unmatched + 1) })
  let t := s1.steeple.telegram
  s1.withTelegram { t with
    waiting := t.waiting.erase w, ended := (t.ended ++ [(w.path, w.seq)]).drop (t.ended.length - 31) }

/-- Copies that disagree, or a mate beyond the allowance (R292). -/
def mismatch (s : State) : State :=
  decideFault fTgDiffer none [] false (s.withTelegram { s.steeple.telegram with goodSince := none, stopClearSince := none })

/-- The timeout in force: the start allowance until the first pair (R293, R295). -/
def State.tgLimit (s : State) : Nat :=
  if s.steeple.telegram.started then s.tgTimeout else s.steeple.committed.elim 10 (·.tgStart) * 1000

/-- The timeout has passed and is not yet decided (R293). -/
def State.tgExpired (s : State) : Bool :=
  let t := s.steeple.telegram
  t.running && !t.timeoutDecided && s.due (t.baseAt + s.tgLimit)

/-- A path has delivered a valid copy within the time that the timeout runs (R293). -/
def State.tgDelivered (s : State) (path : SafetyPath) : Bool :=
  (s.steeple.telegram.link path).delivering (s.steeple.telegram.baseAt + s.tgLimit) s.tgLimit

/-- The fault that the timeout is decided as: one path silent and the other delivering, or every other case (R293, R294). -/
def State.tgFault (s : State) : Nat := if s.tgDelivered .snA != s.tgDelivered .snB && !s.inD1 then fTgPath else fTgLoss

/-- A stop bit is decided; a timeout that expires in the same cycle is decided after it, as its dependent (R297 Q4). -/
def decideStop (expired : Bool) (code : Nat) (s0 : State) : State :=
  let s := decideFault fStopBit none [] false s0
  if !expired then s
  else
    match s.repeatOf code none, s.repeatOf fStopBit none with
    | none, some i =>
      let s1 := dependent code none ⟨i, fStopBit, none, s.now, none, false⟩ [] s
      endResetsOf code (fun r => r.port.isNone) s1
    | _, _ => decideFault code none [] false s

/-- A valid pair (R292, R293); a gap longer than the timeout before it breaks the row of good pairs, in D1 too (R259, R269). -/
def completePair (w : WaitingCopy) (arrivalUs : Nat) (s : State) : State :=
  let stop := bit (field w.head 6 1) 0
  let first := w.path
  let d : Int := (arrivalUs : Int) - w.arrivalUs
  let s1 := s.modLink first (fun l => { l with pairs := w32 (l.pairs + 1), skewUs := -d })
  let s2 := s1.modLink (otherPath first) (fun l => { l with pairs := w32 (l.pairs + 1), skewUs := d })
  let t := s2.steeple.telegram
  let late := t.pairSeen && decide (t.lastPairAt + s.tgTimeout < s.now)
  let s3 := s2.withTelegram { t with
    waiting := t.waiting.erase w, reference := some w.seq, started := true, baseAt := s.now, timeoutDecided := false
    ended := t.ended.filter (fun e => ahead 16 e.2 w.seq)
    pairSeen := true, lastPairSeq := w.seq, lastPairTime := s.time, lastPairAt := s.now, lastPairStop := stop
    goodSince := some (if late then s.now else t.goodSince.getD s.now)
    stopClearSince := if stop then none else some (if late then s.now else t.stopClearSince.getD s.now) }
  if stop then decideStop s.tgExpired s.tgFault s3 else s3

/-- The copy opens its own allowance, unless its mate's has already ended (R292). -/
def openAllowance (c : WaitingCopy) (s : State) : State :=
  let t := s.steeple.telegram
  if t.ended.contains (otherPath c.path, c.seq) then
    mismatch (s.withTelegram { t with ended := t.ended.filter (fun e => e != (otherPath c.path, c.seq)) })
  else s.withTelegram { t with waiting := t.waiting ++ [c] }

/-- What a valid copy does beside those that wait (R292): it ends the allowance of every one it is ahead of and meets its mate, or opens an
allowance of its own, which it also does where it lies behind a copy of the other path. -/
def matchCopy (c : WaitingCopy) (s : State) : State :=
  let s1 := (s.steeple.telegram.waiting.filter (fun w => ahead 32767 c.seq w.seq)).foldl (fun s w => discardWaiting w s) s
  match s1.steeple.telegram.waiting.find? (fun w => w.path != c.path && w.seq == c.seq) with
  | some w =>
    if c.arrivalUs ≤ w.arrivalUs + 5000 then
      if c.head = w.head then completePair w c.arrivalUs s1
      else mismatch (s1.withTelegram { s1.steeple.telegram with waiting := s1.steeple.telegram.waiting.erase w })
    else openAllowance c (discardWaiting w s1)
  | none => openAllowance c s1

/-- In D1 a valid copy on the remaining path counts as a pair for the timeout, and its stop bit is decided (R294), unless the pair it has
just completed has decided it. -/
def countRemaining (path : SafetyPath) (bs : List Byte) (paired : Bool) (s : State) : State :=
  let t := s.steeple.telegram
  if s.inD1 && t.remaining == some path then
    let s1 := s.withTelegram { t with
      reference := some (field bs 0 2), started := true, baseAt := s.now, timeoutDecided := false }
    if bit (field bs 6 1) 0 && !paired then decideStop s.tgExpired s.tgFault s1 else s1
  else s

/-- A valid copy (R291 to R294). -/
def takeCopy (path : SafetyPath) (arrivalUs : Nat) (bs : List Byte) (s : State) : State :=
  let seq := field bs 0 2
  let s1 := s.modLink path (fun l => { l with
    valid := w32 (l.valid + 1), lastRxSeq := seq, partnerMode := field bs 6 1 / 4 % 4, lastValid := s.time
    lastValidAt := some s.now })
  let s2 := matchCopy ⟨path, seq, bs.take 12, arrivalUs, s.now + 5⟩ s1
  countRemaining path bs ((s2.steeple.telegram.link path).pairs != (s1.steeple.telegram.link path).pairs) s2

/-- A copy checked and counted on its link (R291, R301). -/
def checkCopy (b : SafetyBlock) (path : SafetyPath) (form : CopyForm) (arrivalUs : Nat) (bs : List Byte) (s : State) : State :=
  match s.copyCheck b path (form == .good) bs with
  | 0 => takeCopy path arrivalUs bs s
  | 2 => s.modLink path (fun l => { l with crcFail := w32 (l.crcFail + 1) })
  | _ => s.modLink path (fun l => { l with
      otherFail := w32 (l.otherFail + 1)
      busErrors := if form ≠ .good ∧ path = .snA then w32 (l.busErrors + 1) else l.busErrors })

/-- TELEGRAM_COPY_RECEIVED (R289, R291 to R294): on SN-B an error frame is no copy, and a frame with another identifier than can_rx_id is
ignored; a controller that is bus-off takes none. -/
def execTelegramCopyReceived (path : SafetyPath) (x : CopyFraming) (arrivalUs : Nat) (bs : List Byte) (s : State) : Out :=
  match s.steeple.committed with
  | some b =>
    if s.steepleUp && s.steeple.telegram.running then
      match path with
      | .snA => .next (checkCopy b .snA x.form arrivalUs bs s)
      | .snB =>
        if s.steeple.telegram.b.busState = 2 then .next s
        else if x.form = .error then .next (s.modLink .snB SafetyLink.canError)
        else
          let s1 := if s.steeple.telegram.b.rxErrors = 0 then s else s.modLink .snB SafetyLink.canReceived
          .next (if x.canId = b.canRx then checkCopy b .snB x.form arrivalUs bs s1 else s1)
    else .next s
  | none => .next s

/-- SKEW_ALLOWANCE_END (R292). -/
def execSkewAllowanceEnd (s : State) : Out :=
  if s.steepleUp then
    .next ((s.steeple.telegram.waiting.filter (fun w => s.due w.deadline)).foldl (fun s w => discardWaiting w s) s)
  else .next s

/-- Where the timeout has led to D1, the other path remains: its last copy is the reference and restarts the timeout (R291, R294). -/
def enterRemaining (path : SafetyPath) (s : State) : State :=
  let t := s.steeple.telegram
  if s.inD1 then
    s.withTelegram { t with
      remaining := some path, reference := some (t.link path).lastRxSeq, started := true
      baseAt := (t.link path).lastValidAt.getD s.now, timeoutDecided := false }
  else s.withTelegram { t with remaining := none }

/-- TELEGRAM_TIMEOUT (R293, R294). -/
def execTelegramTimeout (s : State) : Out :=
  if s.steepleUp && s.tgExpired then
    let s1 := s.withTelegram { s.steeple.telegram with timeoutDecided := true, goodSince := none, stopClearSince := none }
    let s2 := decideFault s.tgFault none [] false s1
    .next (if s.tgFault = fTgPath then enterRemaining (if s.tgDelivered .snA then .snA else .snB) s2 else s2)
  else .next s

/-- BUS_OFF_RECOVERY (R289): both counts at 0, error-active. -/
def execBusOffRecovery (s : State) : Out :=
  if s.steepleUp && s.steeple.telegram.b.busState == 2 then
    .next (s.modLink .snB (fun l => { l with txErrors := 0, rxErrors := 0 }))
  else .next s

/-! ## A commit reaches Steeple (R283, R284) -/

/-- Fields whose change restarts telegram supervision (R284). -/
def SafetyBlock.telegramPart (b : SafetyBlock) : Bool × List Byte := (b.telegrams, slice b.bytes 4 16)

def commitResult (check step : Nat) (s : State) : List Byte := le 4 check ++ le 6 s.time ++ le 1 step ++ [0]

/-- Oculus has seen the proof used by another request since the commit named it (R424). -/
def State.proofSpent (s : State) (id : Nat) : Bool := s.oculus.proofs.any (fun p => p.id == id && p.used)

/-- The step of R283 at which a commit fails, 0 when it passes; a commit is pending while the one before is being written (R284). -/
def State.commitStep (s : State) (data : List Byte) : Nat :=
  if s.steeple.committing || allPorts.any (fun p => (s.lane p).state.busy) || s.steeple.hubDegraded.isSome || s.steeple.portDegraded.toList.any (·.isSome)
  then 1
  else if field data 8 4 ≠ field data 4 4 ∨ !s.proofGood (data.drop 8) ∨ s.proofSpent (field data 4 4) then 2
  else if field data 0 4 ≠ s.steeple.staged.check then 3
  else if !s.steeple.staged.admissible then 4
  else 0

def commitStatus (step : Nat) : Nat :=
  if step = 1 then stRefusedState else if step = 2 then stLocalConfirmMissing else if step = 3 then stCheckValueMismatch
  else if step = 4 then stParamRange else stOk

/-- The staged block comes into force (R281, R284). -/
def putInForce (s : State) : State :=
  let new_ := s.steeple.staged
  let same := s.steeple.committed.any (fun b => b.telegramPart == new_.telegramPart)
  let s1 := s.withSteeple { s.steeple with
    committed := some new_, copyLost := none, commitTime := s.time, committing := true }
  grantPermits (if same then s1 else startTelegrams s1)

/-- SAFETY_COMMIT reaches Steeple. -/
def arriveCommit (e : RequestEntry) (s : State) : State :=
  let step := s.commitStep e.data
  let s1 := if step = 0 ∨ 3 ≤ step then markProofUsed (field e.data 4 4) (useProof (field e.data 4 4) s) else s
  if step = 0 then
    let s2 := putInForce s1
    let pay := commitResult s.steeple.staged.check 0 s
    post none (.committed pay) (postOutcome e.number stOk pay s2)
  else postOutcome e.number (commitStatus step) (commitResult 0 step s) s1

/-! ## Status (R301, R302) -/

/-- Link state code (R301). -/
def State.linkState (s : State) (l : SafetyLink) : Nat :=
  if !s.steeple.telegram.running then 0
  else if l.delivering s.now s.tgTimeout then 2
  else if !s.steeple.telegram.started then 1 else 3

/-- SAFETY_LINK body, bytes 32 to 71 (R301). -/
def State.linkBody (s : State) (path : SafetyPath) : List Byte :=
  let l := s.steeple.telegram.link path
  le 1 (if path = .snA then 0 else 1) ++ le 1 (s.linkState l) ++ le 2 l.lastRxSeq ++ le 2 l.lastTxSeq ++ le 1 l.busState
    ++ le 1 l.partnerMode ++ le 6 l.lastValid ++ leInt 2 l.skewUs ++ le 4 l.valid ++ le 4 l.crcFail ++ le 4 l.otherFail
    ++ le 4 l.unmatched ++ le 4 l.pairs ++ le 4 l.busErrors

/-- TELEGRAM_STATUS response payload (R302). -/
def State.telegramStatus (s : State) : List Byte :=
  let t := s.steeple.telegram
  le 1 (if !t.running then 0 else if s.inD1 then 3 else if t.started then 2 else 1)
    ++ le 1 (b1 t.lastPairStop * 128 + b1 t.reference.isNone * 64) ++ le 2 t.lastPairSeq ++ le 6 t.lastPairTime
    ++ le 2 (if t.running then sat 65535 (t.baseAt + s.tgLimit - s.now) else 0) ++ s.linkBody .snA ++ s.linkBody .snB

def telegramStatus (r : Req) : State → State :=
  withLength r.payload.isEmpty r <| noHandle r <| intact 0x1D r <| intact 0x1E r fun s => respond r stOk s.telegramStatus s

def execTelegramStatus (b : Box) (s : State) : Out := request b 0x0807 telegramStatus s

end Sys2Proof.Machine
end

