-- ==== Sys2Proof/Machine/Channels.lean ====
section
/-! DEFINITION. The channel table's commands (R75 to R92): slot images, creation, destruction, reading, modifying and listing. -/

namespace Sys2Proof.Machine

/-! ## Slot images (R75) -/

def StreamBody.bytes (b : StreamBody) : List Byte := le 4 b.sets ++ le 1 b.form ++ [0] ++ le 2 b.every ++ le 4 b.delivered

def FilterBody.bytes (b : FilterBody) : List Byte := le 2 b.codeLow ++ le 2 b.codeHigh ++ le 4 b.scope

/-- TAG_TXN body (R432). -/
def TxnBody.bytes (b : TxnBody) : List Byte :=
  le 1 b.antenna.val ++ le 1 b.op ++ le 1 b.state ++ le 1 (b1 b.cancel) ++ le 1 b.uid.length ++ [0] ++ fit 10 b.uid
    ++ le 6 b.deadline ++ le 4 b.tap

/-- One direction's map in use (R397). -/
def LinkDir.mapByte (d : LinkDir) : Nat :=
  match d.current with
  | some i => if d.forcedRobust then 128 + i else i
  | none => 128

/-- PLC_NEIGHBOUR body (R397); the mean SNRs are measurements the manual gives no number for. -/
def NeighbourBody.bytes (b : NeighbourBody) (snr : List Byte) : List Byte :=
  fit 8 b.eui ++ le 2 b.address ++ le 1 b.kind ++ le 1 b.attr ++ le 1 (b1 b.heardU * 2 + b1 b.heardL) ++ le 1 b.phase
    ++ le 2 b.phaseDeg ++ le 6 b.joined ++ le 6 b.lastHeard
    ++ le 2 (b.lSend.cost .low) ++ le 2 (b.lReceive.cost .low) ++ le 2 (b.uSend.cost .upper) ++ le 2 (b.uReceive.cost .upper)
    ++ le 1 b.lSend.mapByte ++ le 1 b.lReceive.mapByte ++ le 1 b.uSend.mapByte ++ le 1 b.uReceive.mapByte
    ++ fit 2 snr ++ [0, 0] ++ le 4 b.rxCounter
    ++ le 4 b.framesSent ++ le 4 b.attemptsFailed ++ le 4 b.framesReceived ++ le 4 b.checksFailed

/-- A dynamic channel's body as its type's chapter lays it out. -/
def Body.bytes (b : Body) (snr : List Byte) : List Byte :=
  match b with
  | .session x => x.bytes
  | .stream x => x.bytes
  | .neighbour x => x.bytes snr
  | .txn x => x.bytes
  | .program _ bs => fit 352 bs
  | .filter x => x.bytes

/-- The state code of header byte 7: sessions and programs have one, the other types none (R136, R310). -/
def Body.stateCode : Body → Nat
  | .session x => x.state.code
  | .stream _ => 0
  | .neighbour _ => 0
  | .txn _ => 0
  | .program st _ => st.code
  | .filter _ => 0

/-- Common header (R75). -/
def headerBytes (handle owner role persistence state created modified changes op : Nat) : List Byte :=
  le 4 handle ++ le 1 owner ++ le 1 role ++ le 1 persistence ++ le 1 state ++ le 6 created ++ le 6 modified ++ le 4 changes
    ++ le 2 op ++ zeros 6

@[simp] theorem headerBytes_length (a b c d e f g h i : Nat) : (headerBytes a b c d e f g h i).length = 32 := by
  simp [headerBytes]

def Channel.txn? (c : Channel) : Option TxnBody :=
  match c.body with
  | .txn b => some b
  | _ => none

/-- The request a transaction serves. -/
def TxnBody.wait (b : TxnBody) : Waiting := ⟨b.box, b.opcode, b.seq, 0, b.epoch, 0, []⟩

/-- Requests and removals that a message serves. -/
def PlcMessage.request (m : PlcMessage) : Option Waiting :=
  match m.purpose with
  | .host w _ => some w
  | .leave w _ => some w
  | .own => none

/-- Every message Belfry holds. -/
def Belfry.messages (b : Belfry) : List PlcMessage :=
  b.low.current.toList ++ b.low.queue ++ b.upper.current.toList ++ b.upper.queue ++ b.discoveries.flatMap (·.messages)

/-- The requests still to complete that name a channel's handle: those that wait for an island, for a signature, for a powerline
message or for a block-level reset, and the one a transaction serves. -/
def State.operations (s : State) (handle : Nat) : List Waiting :=
  (s.rotunda.waiting ++ s.legal.signing.filterMap (·.request) ++ s.belfry.messages.filterMap PlcMessage.request
    ++ s.power.restarting.map (·.2.2)).filter (fun w => w.handle == handle)
    ++ ((s.channelOf handle).bind Channel.txn?).toList.map TxnBody.wait

/-- op_pending: the opcode of the oldest of them (R75). -/
def State.opPending (s : State) (handle : Nat) : Nat := (s.operations handle).head?.elim 0 (·.opcode)

/-- Whole seconds that energised_s shows beyond those its body's last writing counts: each is a change of the body (R75, R137). -/
def Body.secondsOver (old shown : Body) : Nat :=
  match old, shown with
  | .session x, .session y => y.energisedMs / 1000 - x.energisedMs / 1000
  | _, _ => 0

/-- Milliseconds since the last of those seconds was full. -/
def Body.sinceSecond : Body → Nat
  | .session x => x.energisedMs % 1000
  | .stream _ => 0
  | .neighbour _ => 0
  | .txn _ => 0
  | .program _ _ => 0
  | .filter _ => 0

/-- A dynamic channel's header, with its body as shown (R75). -/
def Channel.header (c : Channel) (shown : Body) (op civil : Nat) : List Byte :=
  let n := c.body.secondsOver shown
  headerBytes c.handle (ownerCode c.owner) c.ownerRole (b1 c.body.persistent) c.body.stateCode c.created
    (if n = 0 then c.modified else w48 (civil - shown.sinceSecond)) (c.changes + n) op

/-- A channel's body as it stands now. -/
def State.bodyNow (s : State) (c : Channel) : Body :=
  match c.body with
  | .session b => .session (s.sessionNow c b)
  | _ => c.body

def State.channelImage (s : State) (c : Channel) : List Byte :=
  c.header (s.bodyNow c) (s.opPending c.handle) s.civil ++ fit 480 ((s.bodyNow c).bytes (s.drawnBytes 2))

/-- A permanent channel's state code, header times and body (R78). -/
def State.permanentView (s0 : State) (slot : Nat) : Nat × Nat × Nat × List Byte :=
  let s := stampBodies s0
  if h : slot < 24 then
    let p : Port := ⟨slot, h⟩
    (s.shownState p, (s.lane p).modified, (s.lane p).changes, s.portBody p)
  else if slot = 0x18 then (0, s.turret.modified, s.turret.changes, s.siteBody)
  else if h : slot - 0x19 < 4 then
    let p : HostPort := ⟨slot - 0x19, h⟩
    (0, (s.box (hostBox p)).modified, (s.box (hostBox p)).changes, s.hostBody p)
  else
    let path : SafetyPath := if slot = 0x1D then .snA else .snB
    (0, (s.steeple.telegram.link path).modified, (s.steeple.telegram.link path).changes, s.linkBody path)

/-- The 512 bytes of a slot, as one consistent image (R75, R91). -/
def State.slotImage (s : State) (handle : Nat) : List Byte :=
  match s.channelOf handle with
  | some c => s.channelImage c
  | none =>
    let v := s.permanentView (handleSlot handle)
    headerBytes handle 0xFF 0xFF 0 v.1 s.rotunda.createdTime v.2.1 v.2.2.1 (s.opPending handle) ++ fit 480 v.2.2.2

/-! ## Checks shared by the channel commands (R83, R84) -/

def isSupervisor (r : Req) : Bool := r.role == roleSupervisor

/-- The session channel may be destroyed by a SUPERVISOR once it has ended (R79). -/
def Body.endedSession : Body → Bool
  | .session b => !b.state.live
  | .stream _ => false
  | .neighbour _ => false
  | .txn _ => false
  | .program _ _ => false
  | .filter _ => false

/-- Types a role other than SUPERVISOR may own and change (R69). -/
def roleOwns (role type : Nat) : Bool :=
  type == typeStream || type == typeFilter || (role == roleBilling && (type == typeProgram || type == typeTxn))

/-- The ownership rules of R84 for CHANNEL_MODIFY and CHANNEL_DESTROY, then `k` with the channel. -/
def withOwned (destroy : Bool) (r : Req) (k : Channel → State → State) (s : State) : State :=
  withHandle r (fun s =>
    match s.channelOf r.handle with
    | none => refuse r stPermanentChannel s
    | some c =>
      match c.owner with
      | none => if destroy && c.body.endedSession && isSupervisor r then k c s else refuse r stManagedType s
      | some o =>
        if o ≠ r.box && !isSupervisor r then refuse r stNotOwner s
        else if !isSupervisor r && !roleOwns r.role c.body.typeCode then refuse r stRoleDenied s
        else k c s) s

/-! ## CHANNEL_CREATE -/

/-- An initial or modified METER_STREAM body, none outside its range (R205). -/
def streamOf (bs : List Byte) : Option StreamBody :=
  let b : StreamBody := ⟨field bs 0 4, field bs 4 1, field bs 6 2, 0, none, 0⟩
  let n := ((List.range 29).filter (fun i => bit b.sets i)).length
  if b.sets < 536870912 ∧ byteAt bs 5 = 0 ∧ b.form ≤ 1 ∧ 1 ≤ b.every ∧ (if b.form = 1 then n = 1 else 1 ≤ n) ∧
      isZero (bs.drop 8) = true then some b
  else none

/-- An initial or modified EVENT_FILTER body, none outside its range (R92). -/
def filterOf (bs : List Byte) : Option FilterBody :=
  let b : FilterBody := ⟨field bs 0 2, field bs 2 2, field bs 4 4⟩
  if b.codeLow ≤ b.codeHigh ∧ b.scope < 33554432 ∧ isZero (bs.drop 8) = true then some b else none

/-- The body a CHANNEL_CREATE asks for; none outside its range (R91, R92, R205, R308). -/
def bodyOf (type : Nat) (params : List Byte) : Option Body :=
  let bs := fit 480 params
  if type = typeStream then (streamOf bs).map .stream
  else if type = typeFilter then (filterOf bs).map .filter
  else if isZero (bs.drop 352) then some (.program .inactive (bs.take 352))
  else none

def creatable (type : Nat) : Bool := type == typeStream || type == typeProgram || type == typeFilter

/-- A program's island serves, or the type is not a program. -/
def programServes (type : Nat) (r : Req) (k : State → State) (s : State) : State :=
  if type = typeProgram then keepServes r k s else k s

/-- NO_SLOT's payload (R81). -/
def noSlotPayload (type : Nat) (owner : Option Box) (s : State) : List Byte :=
  let n := s.typeCount type owner
  le 1 (if typeLimit type ≤ n then 1 else 2) ++ le 1 type ++ le 1 n ++ le 1 (typeLimit type)

/-- CHANNEL_CREATE (R79 to R81, R91); a program's creation is entered in the legal log (R305). -/
def channelCreate (r : Req) : State → State :=
  let type := field r.payload 0 1
  withLength (within 5 452 r.payload.length) r <| noHandle r <|
    check (creatable type) stManagedType r <|
    check (isSupervisor r || roleOwns r.role type) stRoleDenied r fun s =>
      match bodyOf type (r.payload.drop 4) with
      | none => refuse r stParamRange s
      | some body =>
        programServes type r (fun s =>
          let s1 := accept r s
          match createChannel body (some r.box) r.role s1 with
          | none => respond r stNoSlot (noSlotPayload type (some r.box) s) s
          | some (h, s2) =>
            finish r.wait stOk (le 4 h) (if type = typeProgram then programLog r.box.val h 0 1 s2 else s2)) s

def execChannelCreate (b : Box) (s : State) : Out := request b 0x0201 channelCreate s

/-! ## TAG_TXN channels (R432) -/

/-- Completion payload of a transaction that took no tag, the same for the three operations (R431, R434 to R436). -/
def noTagPayload : List Byte := zeros 16

/-- A transaction ends: its completion, then its channel is destroyed by its island (R432). -/
def endTxn (c : Channel) (b : TxnBody) (status : Nat) (payload : List Byte) (s : State) : State :=
  destroyChannel c 0x8021 4 (finish b.wait status payload s)

/-- A reach-again that serves the transaction ends with it. -/
def dropReach (slot : Nat) (s : State) : State :=
  if s.oculus.reach.any (fun x => x.slot == slot) then s.withOculus { s.oculus with reach := none } else s

/-! ## CHANNEL_DESTROY -/

/-- The requests that wait on a channel complete with a status, and wait no more. -/
def settleHandle (handle status : Nat) (s : State) : State :=
  let mine := s.rotunda.waiting.filter (fun w => w.handle == handle)
  mine.foldl (fun s w => finish w status [] s)
    (s.withRotunda { s.rotunda with waiting := s.rotunda.waiting.filter (fun w => w.handle != handle) })

/-- The signatures that a request naming the handle waits for are given up, and their places filled again (R85, R341). -/
def abortSignatures (handle : Nat) (s : State) : State :=
  let mine (j : SignJob) : Bool := j.request.any (fun w => w.handle == handle)
  ((s.legal.signing.filter mine).filterMap (·.request)).foldl (fun s w => finish w stAborted [] s)
    (requeue (s.legal.signing.filter (fun j => !mine j)) s)

/-- Destruction by command, with its completion and, for a program, the legal log's entry (R85, R86, R305). -/
def destroyBy (r : Req) (c : Channel) (s : State) : State :=
  let s1 := accept r s
  let s2 := match c.txn? with
    | some b => finish b.wait stAborted noTagPayload (dropReach c.slot s1)
    | none => abortSignatures c.handle (settleHandle c.handle stAborted s1)
  let s3 := destroyChannel c 0x8021 0 s2
  finish r.wait stOk [] (if c.program?.isSome then programLog r.box.val c.handle 1 0 s3 else s3)

/-- CHANNEL_DESTROY (R84, R85, R310). -/
def channelDestroy (r : Req) : State → State :=
  withLength r.payload.isEmpty r <| withOwned true r fun c =>
    match c.program? with
    | some (st, _) => keepServes r (check (st == .inactive) stRefusedState r (destroyBy r c))
    | none => check (c.txn?.isNone || isSupervisor r) stChannelBusy r (destroyBy r c)

def execChannelDestroy (b : Box) (s : State) : Out := request b 0x0202 channelDestroy s

/-! ## CHANNEL_READ -/

/-- CHANNEL_READ: bytes of one consistent image, unless the slot is being rebuilt (R88, R91). -/
def channelRead (r : Req) : State → State :=
  let off := field r.payload 0 2
  let len := field r.payload 2 2
  withLength (r.payload.length == 4) r <| withHandle r <|
    check (within 1 448 len && decide (off + len ≤ 512)) stParamRange r fun s =>
      intact (handleSlot r.handle) r (fun s => respond r stOk (slice (s.slotImage r.handle) off len) s.draw) s

def execChannelRead (b : Box) (s : State) : Out := request b 0x0203 channelRead s

/-! ## CHANNEL_MODIFY -/

/-- Bytes of the body that CHANNEL_MODIFY may write: from 32 to below this bound, or the cancel byte alone (R92, R205, R308, R432). -/
def writableBytes (b : Body) (off len : Nat) : Bool :=
  match b with
  | .session _ => false
  | .stream _ => decide (32 ≤ off ∧ off + len ≤ 40)
  | .neighbour _ => false
  | .txn _ => off == 35 && len == 1
  | .program _ _ => decide (32 ≤ off ∧ off + len ≤ 384)
  | .filter _ => decide (32 ≤ off ∧ off + len ≤ 40)

/-- The body with data written at a slot offset; none outside its range. -/
def modifiedBody (b : Body) (off : Nat) (data : List Byte) : Option Body :=
  let now := splice (fit 480 (b.bytes [])) (off - 32) data
  match b with
  | .session _ => none
  | .stream x => (streamOf (now.take 8)).map (fun y => .stream { x with sets := y.sets, form := y.form, every := y.every })
  | .neighbour _ => none
  | .txn x => if data = [0] then some b else if data = [1] then some (.txn { x with cancel := true }) else none
  | .program st _ => some (.program st (now.take 352))
  | .filter _ => (filterOf (now.take 8)).map .filter

/-- The change made and completed, with what follows from it: a cancelled wait ends (R432), a program's change is logged (R305). -/
def applyModify (r : Req) (c : Channel) (body : Body) (s : State) : State :=
  let s1 := setBody c.slot body (accept r s)
  match body with
  | .program _ _ => finish r.wait stOk [] (programLog r.box.val c.handle s.drawn (s.draw).drawn s1).draw.draw
  | .txn b =>
    let s2 := finish r.wait stOk [] s1
    if b.cancel && b.state == 0 then endTxn c b stTagAbsent noTagPayload s2 else s2
  | _ => finish r.wait stOk [] s1

/-- CHANNEL_MODIFY (R91). -/
def channelModify (r : Req) : State → State :=
  let off := field r.payload 0 2
  let len := field r.payload 2 2
  withLength (within 5 452 r.payload.length && r.payload.length == 4 + len) r <| withOwned false r fun c =>
    match writableBytes c.body off len, modifiedBody c.body off (r.payload.drop 4) with
    | true, some body =>
      match c.program? with
      | some (st, _) => keepServes r (check (st == .inactive) stRefusedState r (applyModify r c body))
      | none => applyModify r c body
    | _, _ => refuse r stParamRange

def execChannelModify (b : Box) (s : State) : Out := request b 0x0204 channelModify s

/-! ## CHANNEL_LIST -/

/-- The entry of a slot, if it holds a channel of the type (R91). -/
def State.listEntry (s : State) (type slot : Nat) : Option (List Byte) :=
  match s.channelAt slot with
  | some c =>
    if type = 0 ∨ type = c.body.typeCode then
      some (le 4 c.handle ++ le 1 (ownerCode c.owner) ++ le 1 c.body.stateCode ++ le 1 (b1 c.body.persistent) ++ [0])
    else none
  | none =>
    match permanentHandle slot with
    | some h => if type = 0 ∨ type = handleType h then some (le 4 h ++ [0xFF] ++ le 1 (s.permanentView slot).1 ++ [0, 0]) else none
    | none => none

/-- Up to `room` entries from the slots listed, and the slot after the last one examined, or 0 at the table's end. -/
def State.listFrom (s : State) (type : Nat) : Nat → List Nat → List (List Byte) × Nat
  | _, [] => ([], 0)
  | 0, slot :: _ => ([], slot)
  | room + 1, slot :: rest =>
    match s.listEntry type slot with
    | some e =>
      let x := s.listFrom type room rest
      (e :: x.1, x.2)
    | none => s.listFrom type (room + 1) rest

/-- A listed type code of R77. -/
def isTypeCode (type : Nat) : Bool := within 0x01 0x04 type || within 0x10 0x15 type

/-- CHANNEL_LIST (R91). -/
def channelList (r : Req) : State → State :=
  let type := field r.payload 0 1
  let start := field r.payload 1 1
  withLength (r.payload.length == 4) r <| noHandle r <|
    check (type == 0 || isTypeCode type) stParamRange r fun s =>
      let x := s.listFrom type 64 ((List.range 256).drop start)
      respond r stOk (le 1 x.1.length ++ le 1 x.2 ++ [0, 0] ++ x.1.flatten) s

def execChannelList (b : Box) (s : State) : Out := request b 0x0205 channelList s

end Sys2Proof.Machine
end

