-- ==== Sys2Proof/Machine/Transactions.lean ====
section
/-! DEFINITION. Configuration transactions (R93 to R100): stages, checks, commits, and the single allocator writes of R230. -/

namespace Sys2Proof.Machine

/-! ## Fields of a request -/

/-- The field exists and admits the index (R93). -/
def fieldKnown (fld index : Nat) : Bool :=
  match fieldDef fld with
  | some d => d.index.admits index
  | none => false

def fieldSize (fld : Nat) : Nat :=
  match fieldDef fld with
  | some d => d.size
  | none => 0

/-- Status that refuses a record by its field, its writer or its range (R95, R101 check 4). -/
def recordRefusal (role : Nat) (c : CfgRecord) : Option Nat :=
  if !fieldKnown c.field c.index then some stCfgFieldUnknown
  else if !fieldWritable role c.field then some stRoleDenied
  else if c.length ≠ fieldSize c.field ∨ fieldOk c.field c.value = false then some stParamRange
  else none

/-- Sealed fields are writable while the fuse is intact and CALEN is high (R94, R346). -/
def sealRefusal (s : State) (c : CfgRecord) : Option Nat :=
  if !fieldSealed c.field then none
  else if s.legal.fuse ≠ .intact then some stSealed
  else if !s.legal.calen then some stCalenLow
  else none

/-- A record added to a stage: a later one for the same field and index replaces the earlier one (R95). -/
def stageRecord (stage : List CfgRecord) (c : CfgRecord) : List CfgRecord :=
  if stage.any (fun d => d.field == c.field && d.index == c.index) then
    stage.map (fun d => if d.field = c.field ∧ d.index = c.index then c else d)
  else stage ++ [c]

def stageBytes (stage : List CfgRecord) : Nat := (stage.map (·.length)).sum

/-! ## Stages (R95, R96) -/

/-- The port's commit is in progress (R96). -/
def State.committing (s : State) (b : Box) : Bool :=
  s.rotunda.commits.any (fun c => c.box == b && c.opcode == 0x0303 && !c.silent)

/-- A transaction command restarts the 300 s of R96. -/
def touchStage (b : Box) (s : State) : State := s.modBox b (fun m => { m with stageTouched := s.now })

/-- The stage replaced; the HOST body shows whether one is open (R74). -/
def setStage (b : Box) (st : Option (List CfgRecord)) (s : State) : State :=
  if (s.box b).stage.isSome = st.isSome then s.modBox b (fun m => { m with stage := st })
  else s.modHost b (fun m => { m with stage := st })

/-- CFG_BEGIN. -/
def cfgBegin (r : Req) (s : State) : State :=
  (withLength r.payload.isEmpty r <| noHandle r fun s =>
    if (s.box r.box).stage.isSome then refuse r stCfgStageOpen s
    else if s.committing r.box then refuse r stBusy s
    else finish r.wait stOk [] (setStage r.box (some []) (accept r s))) (touchStage r.box s)

def execCfgBegin (b : Box) (s : State) : Out := request b 0x0301 cfgBegin s

/-- The records of a CFG_WRITE put in the stage, or the first refusal; a refused frame leaves the stage as it was (R95). -/
def writeStage (r : Req) (recs : List CfgRecord) (s : State) : State :=
  match (recs.filterMap (recordRefusal r.role)).head?, (s.box r.box).stage, (recs.filterMap (sealRefusal s)).head? with
  | some st, _, _ => refuse r st s
  | none, none, _ => refuse r stCfgNoStage s
  | none, some _, some st => refuse r st s
  | none, some stage, none =>
    let next := recs.foldl stageRecord stage
    if next.length ≤ 256 ∧ stageBytes next ≤ 4096 then finish r.wait stOk [] (setStage r.box (some next) (accept r s))
    else refuse r stCfgStageFull s

/-- CFG_WRITE. -/
def cfgWrite (r : Req) (s : State) : State :=
  (withLength (decide (4 ≤ r.payload.length)) r <|
    match parseRecords (field r.payload 0 1) (r.payload.drop 4) with
    | none => refuse r stPayloadLength
    | some recs => noHandle r <| check (within 1 64 recs.length) stParamRange r (writeStage r recs)) (touchStage r.box s)

def execCfgWrite (b : Box) (s : State) : Out := request b 0x0302 cfgWrite s

/-- CFG_ABORT. -/
def cfgAbort (r : Req) (s : State) : State :=
  (withLength r.payload.isEmpty r <| noHandle r fun s =>
    if (s.box r.box).stage.isNone then refuse r stCfgNoStage s
    else finish r.wait stOk [] (setStage r.box none (accept r s))) (touchStage r.box s)

def execCfgAbort (b : Box) (s : State) : Out := request b 0x0304 cfgAbort s

/-- CFG_READ. -/
def cfgRead (r : Req) (s : State) : State :=
  let source := field r.payload 0 1
  let index := field r.payload 1 1
  let fld := field r.payload 2 2
  (withLength (r.payload.length == 4) r <| noHandle r <| check (decide (source ≤ 1)) stParamRange r <|
    check (fieldKnown fld index) stCfgFieldUnknown r fun s =>
      let staged := ((s.box r.box).stage.getD []).find? (fun c => c.field == fld && c.index == index)
      let v := match staged with
        | some c => if source = 1 then c.value else getRaw s.rotunda.committed fld index
        | none => getRaw s.rotunda.committed fld index
      respond r stOk (le 1 (fieldSize fld) ++ zeros 3 ++ le (fieldSize fld) v) s) (touchStage r.box s)

def execCfgRead (b : Box) (s : State) : Out := request b 0x0305 cfgRead s

/-- CFG_STATUS. -/
def cfgStatus (r : Req) (s : State) : State :=
  (withLength r.payload.isEmpty r <| noHandle r fun s =>
    let m := s.box r.box
    let stage := m.stage.getD []
    respond r stOk (le 1 (if s.committing r.box then 2 else b1 m.stage.isSome) ++ [0] ++ le 2 stage.length
      ++ le 2 (stageBytes stage) ++ le 4 m.lastPeriod ++ le 6 m.lastCommitTime) s) (touchStage r.box s)

def execCfgStatus (b : Box) (s : State) : Out := request b 0x0306 cfgStatus s

/-- A stage ends 300 s after the port's last transaction command (R96). -/
def execStageTimeout (p : HostPort) (s : State) : Out :=
  let b := hostBox p
  if (s.box b).stage.isSome && s.due ((s.box b).stageTouched + 300000) then .next (setStage b none s) else .next s

/-! ## Checks of a commit (R97 step 2 and 3) -/

/-- Rank recorded for an allocator field, 0 none (R70). -/
def State.rank (s : State) (fld index : Nat) : Nat :=
  match s.rotunda.ranks.find? (fun e => e.field == fld && e.index == index) with
  | some e => e.role
  | none => 0

/-- Ascending order of field, then of index. -/
def recordBefore (a b : CfgRecord) : Bool := a.field < b.field || (a.field == b.field && decide (a.index ≤ b.index))

def sortRecords (recs : List CfgRecord) : List CfgRecord := sortBy recordBefore recs

/-- The first allocator field held at a higher rank (R70), in ascending order of field and then of index, the order R97 gives step 3.
DESIGN CHOICE (log 162). unsafe. -/
def rankDenied (s : State) (role : Nat) (recs : List CfgRecord) : Option (Nat × Nat) :=
  ((sortRecords recs).find? (fun c => fieldAlloc c.field && decide (role < s.rank c.field c.index))).map
    (fun c => (c.field, c.index))

/-- A cross-field rule: number, its fields, the index kind it is checked at, and its condition on a candidate (R98). -/
structure CrossRule where
  number : Nat
  fields : List Nat
  kind : IndexKind
  holds : State → List Setting → Nat → Bool

/-- The active tariff program's bytes (R310). -/
def State.activeProgram (s : State) : Option (List Byte) :=
  (s.keep.tariff.program.bind s.channelOf).bind (fun c => c.program?.map (·.2))

/-- A condition on the active program, met when there is none. -/
def State.programMeets (s : State) (f : List Byte → Bool) : Bool := s.activeProgram.all f

/-- Feeders enabled with a role in a candidate. -/
def feederIs (cfg : List Setting) (k role : Nat) : Bool := getRaw cfg 0x0304 k == 1 && getRaw cfg 0x0305 k == role

/-- Rules C01 to C12 (R98). -/
def crossRules : List CrossRule := [
  ⟨1, [0x0101, 0x0102], .phase, fun _ c i => decide (6000 ≤ getRaw c 0x0101 i ∧ getRaw c 0x0101 i ≤ getRaw c 0x0102 i)⟩,
  ⟨2, [0x0102, 0x0303], .phase, fun _ c i => decide (getRaw c 0x0102 i ≤ getRaw c 0x0303 0 * 60)⟩,
  ⟨3, [0x0103], .port, fun s c i =>
    match portOf i with
    | some p => (s.rated p).all (fun ma => decide (getRaw c 0x0103 i ≤ ma))
    | none => true⟩,
  ⟨4, [0x0104, 0x0103], .port, fun _ c i => getRaw c 0x0104 i == 0 || decide (6000 ≤ getRaw c 0x0103 i)⟩,
  ⟨5, [0x0106, 0x0302], .scalar, fun _ c _ => getRaw c 0x0106 0 != 1 || getRaw c 0x0302 0 % 8 == 7⟩,
  ⟨6, [0x0106, 0x0305], .scalar, fun _ c _ =>
    !within 3 6 (getRaw c 0x0106 0) || feederIs c (getRaw c 0x0106 0 - 3) 1⟩,
  ⟨7, [0x010A, 0x0305], .scalar, fun _ c _ =>
    getRaw c 0x010A 0 == 0 || (List.range 4).any (fun k => feederIs c k 2)⟩,
  ⟨8, [0x0401], .scalar, fun s c _ => s.programMeets (fun p => ruleC08 p (getRaw c 0x0401 0))⟩,
  ⟨9, [0x0402], .scalar, fun s c _ => s.programMeets (fun p => ruleC09 p (getRaw c 0x0402 0))⟩,
  ⟨10, [0x0501], .scalar, fun s c _ => !bit (getRaw c 0x0501 0) 1 || s.bandUPermitted⟩,
  ⟨11, [0x0501, 0x0502], .scalar, fun _ c _ => getRaw c 0x0501 0 % 4 == 0 || getRaw c 0x0502 0 % 8 != 0⟩,
  ⟨12, [0x0601, 0x0602], .scalar, fun _ c _ => getRaw c 0x0601 0 == 0 || getRaw c 0x0602 0 % 4 != 0⟩]

/-- Indexes of a kind, ascending. -/
def IndexKind.all : IndexKind → List Nat
  | .scalar => [0]
  | .phase => [1, 2, 3]
  | .port => List.range 24
  | .feeder => List.range 4
  | .year => List.range 8

def fieldIsScalar (fld : Nat) : Bool :=
  match fieldDef fld with
  | some d => decide (d.index = .scalar)
  | none => false

/-- Indexes at which a rule is checked: every one where the stage holds a scalar field of it, else those it holds (R98). -/
def CrossRule.indexes (x : CrossRule) (recs : List CfgRecord) : List Nat :=
  let held := recs.filter (fun c => x.fields.contains c.field)
  if x.kind = .scalar then [0]
  else if held.any (fun c => fieldIsScalar c.field) then x.kind.all
  else x.kind.all.filter (fun i => held.any (fun c => c.index == i))

/-- How a rule fails on a candidate: its number, the first field of its column that the stage holds, the index (R98). -/
def CrossRule.failure (x : CrossRule) (s : State) (recs : List CfgRecord) (cand : List Setting) : Option (Nat × Nat × Nat) :=
  match x.fields.find? (fun f => recs.any (fun c => c.field == f)) with
  | none => none
  | some f => ((x.indexes recs).find? (fun i => !x.holds s cand i)).map (fun i => (x.number, f, i))

/-- The first rule that fails. -/
def conflict (s : State) (recs : List CfgRecord) (cand : List Setting) : Option (Nat × Nat × Nat) :=
  (crossRules.filterMap (fun x => x.failure s recs cand)).head?

/-- States in which a change of port_mode or phase_map is refused (R139). -/
def PortState.holdsSettings : PortState → Bool
  | .testing => true
  | .closing => true
  | .energised => true
  | .shed => true
  | .opening => true
  | .disabled => false
  | .idle => false
  | .connected => false
  | .suspended => false
  | .offered => false
  | .ended => false
  | .cableRefused => false
  | .lockout => false

/-- The first state condition that fails (R97 step 3, R139). -/
def stateRefused (s : State) (recs : List CfgRecord) : Option (Nat × Nat) :=
  ((sortRecords recs).find? (fun c => (c.field == 0x0201 || c.field == 0x0203) &&
    c.value != getRaw s.rotunda.committed c.field c.index &&
    match portOf c.index with
    | some p => (s.lane p).state.holdsSettings
    | none => false)).map (fun c => (c.field, c.index))

/-- CFG_COMMIT completion payload (R100). -/
def commitPayload (period time records rule fld index : Nat) : List Byte :=
  le 4 period ++ le 6 time ++ le 2 records ++ le 2 rule ++ le 2 fld ++ le 1 index ++ zeros 3

/-! ## Commits (R97 to R100) -/

/-- The candidate: the committed configuration with every record applied. -/
def candidate (cfg : List Setting) (recs : List CfgRecord) : List Setting :=
  recs.foldl (fun c x => setRaw c x.field x.index x.value) cfg

/-- The rank of the host that last wrote an allocator field (R70). -/
def setRank (ranks : List RankEntry) (fld index role : Nat) : List RankEntry :=
  let rest := ranks.filter (fun e => !(e.field == fld && e.index == index))
  if role = 0 then rest else rest ++ [⟨fld, index, role⟩]

def recordRanks (role : Nat) (ranks : List RankEntry) (recs : List CfgRecord) : List RankEntry :=
  recs.foldl (fun rs c => if fieldAlloc c.field then setRank rs c.field c.index role else rs) ranks

/-- A value as the legal log's four bytes hold it; the manual does not say how a longer value is entered. -/
def logValue (s : State) (fld v : Nat) : Nat := if fieldSize fld ≤ 4 then v else w32 s.drawn

/-- A changed sealed or billing setting entered in the legal log (R176, R305, R354). -/
def logSetting (b : Box) (old : List Setting) (s : State) (c : CfgRecord) : State :=
  let before := getRaw old c.field c.index
  if before = c.value then s
  else
    let s1 := s.draw
    let head := le 2 c.field ++ le 1 c.index ++ [0] ++ le 4 (logValue s c.field before) ++ le 4 (logValue s1 c.field c.value)
    if fieldSealed c.field then keepLog 0x0030 b.val head s1.draw
    else if c.field / 256 = 4 then keepLog 0x0031 b.val (head ++ le 4 0) s1.draw
    else s

/-- Steps 4 and 5 of R97: the candidate committed and published as one publication, and its completion awaited. -/
def commitRecords (r : Req) (recs : List CfgRecord) (ranks : List RankEntry) (records : Nat) (s : State) : State :=
  let old := s.rotunda.committed
  let cand := candidate old recs
  let s1 := recs.foldl (logSetting r.box old) s
  let s2 := s1.withRotunda { s1.rotunda.writeSettings cand with
    ranks := ranks
    commits := s1.rotunda.commits ++ [⟨r.box, r.opcode, r.seq, r.epoch, records, s.now, false⟩] }
  publish (fun p => { p with
    settings := cand
    surplusAt := if recs.any (fun c => c.field == 0x0109) then some s.now else p.surplusAt }) s2

/-- A staged field of the sealed legal partition that may no longer be written, with the status CFG_WRITE would give it now (R94, R346).
DESIGN CHOICE (log 161): R97 has no step for it; it comes before step 2, in the order of R97's other steps. unsafe. -/
def sealedNow (s : State) (recs : List CfgRecord) : Option (Nat × Nat × Nat) :=
  (sortRecords recs).findSome? (fun c => (sealRefusal s c).map (fun st => (st, c.field, c.index)))

/-- A transaction of R97 for an accepted request: the first failure completes it, else its records are committed by `ok`. In hold-up, when
Rotunda starts no write of MRAM (R509), it completes `HOLD_UP`. DEDUCED (log 208). unsafe. -/
def transact (r : Req) (recs : List CfgRecord) (ok : State → State) (s : State) : State :=
  let cand := candidate s.rotunda.committed recs
  match sealedNow s recs, rankDenied s r.role recs, conflict s recs cand, stateRefused s recs with
  | some (st, f, i), _, _, _ => finish r.wait st (commitPayload 0 0 0 0 f i) s
  | none, some (f, i), _, _ => finish r.wait stRankDenied (commitPayload 0 0 0 0 f i) s
  | none, none, some (n, f, i), _ => finish r.wait stCfgConflict (commitPayload 0 0 0 n f i) s
  | none, none, none, some (f, i) => finish r.wait stRefusedState (commitPayload 0 0 0 0 f i) s
  | none, none, none, none =>
    if s.power.holdUp then finish r.wait stHoldUp (commitPayload 0 0 0 0 0 0) s else ok s

/-- CFG_COMMIT. -/
def cfgCommit (r : Req) (s : State) : State :=
  (withLength r.payload.isEmpty r <| noHandle r fun s =>
    match (s.box r.box).stage with
    | none => refuse r stCfgNoStage s
    | some recs =>
      transact r recs (fun s => setStage r.box none
        (commitRecords r recs (recordRanks r.role s.rotunda.ranks recs) recs.length s)) (accept r s)) (touchStage r.box s)

def execCfgCommit (b : Box) (s : State) : Out := request b 0x0303 cfgCommit s

/-- A single allocator write (R230); `release` gives up the SUPERVISOR's rank and keeps the value. -/
def allocWrite (r : Req) (fld index value : Nat) (release : Bool) (s : State) : State :=
  if release then
    transact r [] (fun s => commitRecords r [] (setRank s.rotunda.ranks fld index 0) 1 s) (accept r s)
  else
    let recs : List CfgRecord := [⟨fld, index, fieldSize fld, value⟩]
    transact r recs (fun s => commitRecords r recs (recordRanks r.role s.rotunda.ranks recs) 1 s) (accept r s)

/-- The value a 4-byte operand gives a field of a smaller size, none where it does not fit. -/
def allocValue (fld v : Nat) : Option Nat := if v < 256 ^ fieldSize fld ∧ fieldOk fld v = true then some v else none

/-- ALLOC_SET (R230): an unknown field or unsuited index is PARAM_RANGE, then the writer (ROLE_DENIED), then the release and the value.
DESIGN CHOICE (log 203). unsafe. -/
def allocSet (r : Req) : State → State :=
  let fld := field r.payload 0 2
  let index := field r.payload 2 1
  let flags := field r.payload 3 1
  let value := field r.payload 4 4
  withLength (r.payload.length == 8) r <| noHandle r <|
    check (fieldAlloc fld && fieldKnown fld index) stParamRange r <|
    check (fieldWritable r.role fld) stRoleDenied r <|
      if bit flags 0 then check (isSupervisor r && value == 0) stParamRange r (allocWrite r fld index 0 true)
      else match allocValue fld value with
        | some v => allocWrite r fld index v false
        | none => refuse r stParamRange

def execAllocSet (b : Box) (s : State) : Out := request b 0x0310 allocSet s

/-- ALLOC_READ (R231). -/
def allocRead (r : Req) : State → State :=
  withLength r.payload.isEmpty r <| noHandle r <| intact 0x18 r fun s => respond r stOk s.allocBody s

def execAllocRead (b : Box) (s : State) : Out := request b 0x0430 allocRead s

/-! ## Completion (R99, R100) -/

def Commit.wait (c : Commit) : Waiting := ⟨c.box, c.opcode, c.seq, 0, c.epoch, 0, []⟩

/-- No boundary within 1000 ms of step 5: the port's transactions complete `CONTROL_SILENT`, in force and not yet applied (R100). -/
def execCommitApplyTimeout (p : HostPort) (s : State) : Out :=
  let late (c : Commit) : Bool := c.box == hostBox p && !c.silent && s.due (c.since + 1000)
  let mine := s.rotunda.commits.filter late
  .next (mine.foldl (fun s c => finish c.wait stControlSilent (commitPayload 0xFFFFFFFF 0 c.records 0 0 0) s)
    (s.withRotunda { s.rotunda with
      commits := s.rotunda.commits.map (fun c => if late c then { c with silent := true } else c) }))

/-- One transaction applied at a boundary: its completion, the port's record of it, and CFG_APPLIED for the others (R100). -/
def applyCommit (period time : Nat) (s : State) (c : Commit) : State :=
  let pay := commitPayload period time c.records 0 0 0
  let s1 := if c.silent then s else finish c.wait stOk pay s
  let s2 := if c.opcode = 0x0303 then s1.modBox c.box (fun m => { m with lastPeriod := period, lastCommitTime := time }) else s1
  raiseOthers c.box ⟨0x8023, none, le 1 c.box.val ++ [0] ++ pay⟩ s2

/-- Every transaction published before the latch takes effect (R99, R100). -/
def applyCommits (period time : Nat) (s : State) : State :=
  s.rotunda.commits.foldl (applyCommit period time) (s.withRotunda { s.rotunda with commits := [] })

end Sys2Proof.Machine
end

