-- ==== Sys2Proof/Machine/Allocator.lean ====
section
/-! DEFINITION. The allocation boundary (R24 to R30, R99, R208 to R217, R225, R233): latch, measured values, power budget, the passes,
allowances, re-admission, and what the boundary passes on. -/

namespace Sys2Proof.Machine

/-! ## Site values (R212, R219) -/

/-- Values of one phase: those of the period where its SC entry is fresh, else the last fresh ones (S2). -/
def refreshSite (s : State) : SiteValues :=
  let fresh (f : Phase) : Bool := s.scEnabled (siteChannel f) && !(s.turret.mirror[siteChannel f]).stale
  let old := s.turret.siteValues
  { irms := Vector.ofFn (fun f => if fresh f then (s.turret.mirror[siteChannel f]).meanRms else old.irms[f])
    ip := Vector.ofFn (fun f => if fresh f then s.meanIp (siteChannel f) f else old.ip[f])
    power := Vector.ofFn (fun f => if fresh f then (s.turret.mirror[siteChannel f]).meanPower else old.power[f]) }

/-- An enabled SC L1 to L3 entry is stale: reductions only (S2). -/
def State.anySiteStale (s : State) : Bool :=
  allPhases.any (fun f => s.scEnabled (siteChannel f) && (s.turret.mirror[siteChannel f]).stale)

/-! ## Values of a candidate -/

/-- Active current of a port on a phase in mA; a stale channel counts at the allowance (S1). -/
def State.portIp (s : State) (p : Port) (f : Phase) : Int :=
  let c := s.outletOn p f
  if (s.turret.mirror[c]).stale then s.turret.ports[p].allowance else s.meanIp c f

/-- Power of a port on a phase in mW (S1: the allowance at unity power factor). -/
def State.portPower (s : State) (p : Port) (f : Phase) : Int :=
  let c := s.outletOn p f
  if (s.turret.mirror[c]).stale then (s.turret.ports[p].allowance * s.meanVolts f / 1000 : Nat) else (s.turret.mirror[c]).meanPower

/-- Highest mean phase current of a port, and whether a stale channel was assumed at the allowance. -/
def State.portDraw (s : State) (p : Port) : Nat × Bool :=
  let cs := (s.portPhases p).map (s.outletOn p)
  if cs.any (fun c => (s.turret.mirror[c]).stale) then (s.turret.ports[p].allowance, true)
  else (cs.foldl (fun m c => max m (s.turret.mirror[c]).meanRms) 0, false)

/-- W of R213: bus section 1 voltages over the port's phases, in mV. -/
def State.portVolts (s : State) (p : Port) : Int := (((s.portPhases p).map s.meanVolts).sum : Nat)

/-! ## Power budget (R214, R215), in microwatts -/

/-- A feeder's term: enabled and fresh, else 0 (S4), and not followed while the input block is stale (R27). -/
def State.feederTerm (s : State) (k : Nat) : Int :=
  if h : k < 4 then
    let c : Channel88 := ⟨76 + k, by omega⟩
    if s.channelEnabled c && !(s.turret.mirror[c]).stale && !s.turret.inputStale then -(s.turret.mirror[c]).meanPower else 0
  else 0

/-- Source in use: with the host figure discarded, or a feeder while the input block is stale, surplus is followed only from the site
channels, where they are enabled and fresh (R27, R214, S5). -/
def State.sourceInUse (s : State) : Nat :=
  let src := s.allocIn 0x0106 0
  let site := allPhases.all (fun f => s.scEnabled (siteChannel f)) && !s.anySiteStale
  let falls := src == 2 && s.turret.hostDiscarded || decide (3 ≤ src) && s.turret.inputStale
  if falls && site then 1 else src

/-- Power budget before the battery term in mW, none unbounded (R214). -/
def State.budgetMw (s : State) (v : SiteValues) (cands : List Port) : Option Int :=
  let target := s.allocInt 0x0107 0
  let used := s.sourceInUse
  let out := ((cands.map (fun p => ((s.portPhases p).map (s.portPower p)).sum)).sum : Int)
  let site := ((allPhases.filter (fun f => s.scEnabled (siteChannel f))).map (fun f => v.power[f])).sum
  if used = 0 then none
  else if used = 1 then some (target - site + out)
  else if used = 2 then some (if s.turret.hostDiscarded then target else s.allocInt 0x0109 0 + target)
  else some (s.feederTerm (used - 3) + target)

/-- Every feeder with role battery is enabled and fresh (R215). -/
def State.batteryFresh (s : State) : Bool :=
  (List.range 4).all (fun k => s.cfg 0x0305 k != 2 ||
    (if h : k < 4 then
      let c : Channel88 := ⟨76 + k, by omega⟩
      s.channelEnabled c && !(s.turret.mirror[c]).stale
    else true))

/-- The battery allowance counts: it is set, its feeders are fresh, and the input block is not stale (R27, R215). -/
def State.batteryCounts (s : State) : Bool := decide (0 < s.allocIn 0x010A 0) && s.batteryFresh && !s.turret.inputStale

/-! ## The passes (R213) -/

/-- Room per phase in mA, power budget left in microwatts (none unbounded), and what each port is given in mA. -/
structure Pass where
  room : Vector Int 3
  budget : Option Int
  give : Vector Nat 24
  deriving DecidableEq, Repr

def Pass.roomFor (x : Pass) (fs : List Phase) (ma : Nat) : Bool := fs.all (fun f => decide ((ma : Int) ≤ x.room[f]))

def Pass.powerFor (x : Pass) (ma : Nat) (mv : Int) : Bool := x.budget.all (fun g => decide ((ma : Int) * mv ≤ g))

/-- A port is given some current: it is taken from the room of each of its phases and from the budget. -/
def Pass.take (x : Pass) (p : Port) (fs : List Phase) (ma : Nat) (mv : Int) : Pass where
  room := Vector.ofFn (fun f => if fs.contains f then x.room[f] - ma else x.room[f])
  budget := x.budget.map (fun g => g - ma * mv)
  give := x.give.set p (x.give[p] + ma)

/-- The minimum pass for one port. -/
def minimumStep (s : State) (cap : Vector Nat 24) (x : Pass) (p : Port) : Pass :=
  let fs := s.portPhases p
  let w := s.portVolts p
  if 6000 ≤ cap[p] ∧ x.roomFor fs 6000 = true ∧
      (decide (s.allocIn 0x0108 0 ≤ s.allocIn 0x0105 p.val) || x.powerFor 6000 w) = true then x.take p fs 6000 w
  else x

/-- One round of the fill pass at a level; the flag says whether it gave anything. -/
def fillRound (s : State) (cap : Vector Nat 24) (ports : List Port) (x : Pass) : Pass × Bool :=
  ports.foldl (fun (y : Pass × Bool) p =>
    let fs := s.portPhases p
    let w := s.portVolts p
    if 0 < y.1.give[p] ∧ y.1.give[p] < cap[p] ∧ y.1.roomFor fs 100 = true ∧ y.1.powerFor 100 w = true then
      (y.1.take p fs 100 w, true)
    else y) (x, false)

/-- Rounds until one gives nothing; a port can be given at most 63 000 mA. -/
def fillLevel (s : State) (cap : Vector Nat 24) (ports : List Port) : Nat → Pass → Pass
  | 0, x => x
  | n + 1, x =>
    let y := fillRound s cap ports x
    if y.2 then fillLevel s cap ports n y.1 else y.1

/-- Candidates by priority descending, then port number. -/
def State.passOrder (s : State) (cands : List Port) : List Port :=
  sortBy (fun a b => decide (s.allocIn 0x0105 b.val < s.allocIn 0x0105 a.val ∨
    (s.allocIn 0x0105 a.val = s.allocIn 0x0105 b.val ∧ a.val ≤ b.val))) cands

/-- Both passes. -/
def runPasses (s : State) (cap : Vector Nat 24) (cands : List Port) (room : Vector Int 3) (budget : Option Int) : Pass :=
  let x := (s.passOrder cands).foldl (minimumStep s cap) ⟨room, budget, Vector.replicate 24 0⟩
  [7, 6, 5, 4, 3, 2, 1, 0].foldl (fun x level =>
    fillLevel s cap (cands.filter (fun p => s.allocIn 0x0105 p.val == level)) 640 x) x

/-! ## Reclaim and caps (R211, R216) -/

/-- Time since which an ENERGISED port has drawn below its allowance less 2000 mA, and whether it is reclaimed (R216). -/
def State.reclaim (s : State) (p : Port) (start : Nat) : Option Nat × Bool :=
  let a := s.turret.ports[p]
  let d := s.portDraw p
  if (s.lane p).state = .energised ∧ d.1 + 2000 < a.allowance then
    let since := a.lowSince.getD start
    (some since, a.reclaimed || decide (since + 60000 ≤ s.now))
  else (none, false)

/-- Cap of a candidate (R211, R216). -/
def State.capOf (s : State) (p : Port) (reclaimed : Bool) : Nat :=
  if (s.lane p).state = .shed then 6000
  else if reclaimed then max 6000 ((s.portDraw p).1 + 2000)
  else s.effectiveLimit p

/-! ## Re-admission (R225) -/

/-- A shed port may return at this boundary. -/
def State.mayReadmit (s : State) (give : Vector Nat 24) (p : Port) : Bool :=
  let l := s.lane p
  l.state == .shed && decide (l.seq = .none) && decide (6000 ≤ give[p]) && !s.turret.siteStale && s.due (l.shedAt + 10000)
    && (s.portPhases p).all (fun f => (s.guard f).zone == 0)

/-- The ports re-admitted: in pass order, none sharing a phase with an earlier one. -/
def readmitSet (s : State) (give : Vector Nat 24) (order : List Port) : List Port :=
  (order.foldl (fun (x : List Port × List Phase) p =>
    if s.mayReadmit give p && !(s.portPhases p).any x.2.contains then (x.1 ++ [p], x.2 ++ s.portPhases p) else x) ([], [])).1

/-- T11 at 6000 mA, or a normal opening from step 4 with band B confirmed (K8). -/
def readmitPort (s : State) (p : Port) : State :=
  let s1 := setAllowance p 6000 3 s
  let s2 := s1.withTurret { s1.turret with
    readmits := w32 (s1.turret.readmits + 1)
    ports := s1.turret.ports.set p { s1.turret.ports[p] with lastIncrease := some s.now } }
  let s3 := post (some p) (.readmitted 6000) (cutMeans p s2)
  if (s3.lane p).confirmed = some .b then beginOpening p false 3 12 .offered s3
  else clearFallbacks p (s3.modLane p (fun l => { l with seq := .readmit s.now none }))

/-! ## Allowances (R217) -/

/-- The new allowance of a port with its reason, before the increase rule: computed value, or what SHED and leaving leave (R211, R225). -/
def newAllowance (shed cand reclaimed : Bool) (cur give : Nat) : Nat × Nat :=
  if !cand then (0, 4)
  else if shed then (if 6000 ≤ give then (cur, 2) else (0, 1))
  else (give, if reclaimed && decide (give < cur) then 5 else 1)

/-- One port's values and allowance at a boundary. -/
def settleAllowance (give : Vector Nat 24) (start : Nat) (s : State) (p : Port) : State :=
  let a := s.turret.ports[p]
  let cand := s.isCandidate p
  let shed := (s.lane p).state == .shed
  let d := s.portDraw p
  let rc := s.reclaim p start
  let x := newAllowance shed cand rc.2 a.allowance give[p]
  let held := decide (a.allowance < x.1) && (s.turret.siteStale || a.lastIncrease.any (fun t => decide (s.now < t + 5000)))
  let ma := if held then a.allowance else x.1
  let a1 : AllocPort := { a with
    draw := d.1, assumed := d.2 && cand, candidate := cand, shed := shed, held := held, reclaimed := rc.2, lowSince := rc.1
    value := give[p], lastIncrease := if a.allowance < ma then some s.now else a.lastIncrease }
  let s1 := s.withTurret { s.turret with ports := s.turret.ports.set p a1 }
  if ma = a.allowance then s1 else setAllowance p ma x.2 s1

/-- The whole of R213 to R217 and R225, at a boundary whose last one was at `start`. -/
def allocate (start : Nat) (s : State) : State :=
  let v := refreshSite s
  let stale := s.anySiteStale
  let cands := allPorts.filter s.isCandidate
  let counts := s.batteryCounts
  let budget : Option Int := (s.budgetMw v cands).map (fun g : Int => g + (if counts then (s.allocIn 0x010A 0 : Int) else 0))
  let room : Vector Int 3 := Vector.ofFn (fun f =>
    let ls : Int := s.allocIn 0x0101 (f.val + 1)
    if s.scEnabled (siteChannel f) then
      let drawn := ((cands.filter (fun p => (s.portPhases p).contains f)).map (fun p => s.portIp p f)).sum
      ls - max 0 ((v.irms[f] : Int) - (v.ip[f]).natAbs) - (v.ip[f] - drawn)
    else ls)
  let cap : Vector Nat 24 := Vector.ofFn (fun p => s.capOf p (s.reclaim p start).2)
  let x := runPasses s cap cands room (budget.map (fun g => g * 1000))
  let s1 := s.withTurret { s.turret with
    siteValues := v, siteStale := stale, budget := budget, source := s.sourceInUse, batteryOn := counts && budget.isSome
    guard := Vector.ofFn (fun f => { s.turret.guard[f] with room := room[f], zonePosted := false }) }
  let back := readmitSet s1 x.give (s1.passOrder cands)
  (allPorts.filter (fun p => back.contains p)).foldl readmitPort (allPorts.foldl (settleAllowance x.give start) s1)

/-! ## The boundary -/

/-- Changes of the battery term while an allowance is set (R233). -/
def postBattery (old : State) (s : State) : State :=
  if decide (0 < old.allocIn 0x010A 0) && decide (0 < s.allocIn 0x010A 0) && old.turret.budget.isSome && s.turret.budget.isSome
      && old.turret.batteryOn != s.turret.batteryOn then
    post none (.allocInput (if s.turret.batteryOn then 5 else 4)) s
  else s

/-- ALLOC_CHANGED, with every port changed since the last boundary (R233). -/
def postChanges (s : State) : State :=
  let ps := allPorts.filter (fun p => s.turret.ports[p].reason != 0)
  if ps.isEmpty then s
  else
    let list := ps.map (fun p => (p.val, s.turret.ports[p].reason, s.turret.ports[p].allowance))
    post none (.allocChanged s.turret.period list) (s.withTurret { s.turret with
      ports := Vector.ofFn (fun i => { s.turret.ports[i] with reason := 0 }) })

/-- Steeple acts on one entry of the request record (R30). -/
def actOn (s : State) (e : RequestEntry) : State :=
  let s1 := s.withSteeple { s.steeple with lastActed := e.number }
  if e.kind = 1 then arriveReset e s1
  else if e.kind = 2 then arriveStage e s1
  else if e.kind = 3 then arriveCommit e s1
  else if e.kind = 4 then arriveProof e s1
  else
    let page := field e.data 2 2
    match s1.retireRefusal 2 page with
    | some st => postOutcome e.number st [] s1
    | none =>
      let s2 := retirePage 2 page s1
      postOutcome e.number stOk (retirePayload 2 page s2) s2

/-- Entries to act on at one boundary: of a commit and a lock-out reset the later one waits, and all after it (R297 Q2). -/
def takeEntries : List Nat → List RequestEntry → List RequestEntry
  | _, [] => []
  | seen, e :: es =>
    if (e.kind = 1 ∧ seen.contains 3 = true) ∨ (e.kind = 3 ∧ seen.contains 1 = true) then []
    else e :: takeEntries (e.kind :: seen) es

/-- A request number follows the last one acted on (R30). -/
def follows (number last : Nat) : Bool := number != last && decide (w32 (number + 4294967296 - last) < 2147483648)

/-- The latched record passed to Steeple (R30). -/
def passRecord (s : State) : State :=
  if s.steepleUp then
    let es := (s.turret.latched.record.filter (fun e => follows e.number s.steeple.lastActed)).take 8
    (takeEntries [] es).foldl actOn s
  else s

/-- The latch of R24 with what it puts in force (R26, R28, R99); a figure found 15 s old is discarded with its event (R233). -/
def latchInputs (s : State) : State :=
  let pub := s.rotunda.published
  let t := s.turret
  let period := w32 (t.period + 1)
  let valid := !t.inputStale && pub.surplusAt.any (fun a => decide (s.now < a + 15000))
  let cfg := pub.settings
  let metering := cfg.filter (fun c => c.field / 256 == 0x03)
  let s1 := s.withTurret { t with
    period := period, boundaryTime := s.time, boundaryAt := s.now, latched := pub
    firstPeriod := if pub.seq = t.latched.seq then t.firstPeriod else period
    hostDiscarded := !valid }
  let expired := !valid && !t.hostDiscarded && !t.inputStale
  let s2 := updateBlinds <| markDisabled ((if expired then post none (.allocInput 3) s1 else s1).withRotunda { s1.rotunda with applied := cfg })
  s2.withDsp { s2.dsp with
    settingsPending := if metering = s.rotunda.applied.filter (fun c => c.field / 256 == 0x03) then s2.dsp.settingsPending
      else some metering }

/-- The sums of every entry begin again for the period that starts (R212). -/
def restartMeans (s : State) : State :=
  s.withTurret { s.turret with mirror := Vector.ofFn (fun i => (s.turret.mirror[i]).restart) }

/-- A boundary is due (R208): at the fifth L1 crossing since the last one, or 100 ms after it while no line frequency is detected. -/
def State.boundaryDue (s : State) : Bool :=
  if s.dsp.frequency.isSome then decide (5 ≤ s.turret.crossings) else s.due (s.turret.boundaryAt + 100)

/-- What ALLOC_READ shows until the next boundary (R231). -/
def showSite (s : State) : State := s.withTurret { s.turret with crossings := s.turret.crossings - 5, siteShown := some s.siteBody }

/-- The boundary's whole procedure, after the decisions of the fuse guard that are due, the hard ones first (G1, G3 of R229). -/
def boundary (s0 : State) : State :=
  let s := allPhases.foldl (fun s f => softShed f s) (shedDue s0)
  let s1 := postBattery s (allocate s.turret.boundaryAt (latchInputs s))
  let s2 := passRecord (showSite (restartMeans (postChanges s1)))
  settleBelfry (applyCommits s2.turret.period s2.turret.boundaryTime (stampBodies s2))

/-- ALLOCATION_BOUNDARY. -/
def execAllocationBoundary (s : State) : Out := if s.turretUp && s.boundaryDue then .next (boundary s) else .next s

end Sys2Proof.Machine
end

