-- ==== Sys2Proof/Machine/Curve.lean ====
section
/-! DEFINITION. ECDSA over the curve P-256 with SHA-256 (FIPS 186-5, R339, R484), computed with natural numbers (log entry 8, PRESUMED). -/

namespace Sys2Proof.Machine

/-- The field of P-256, its group order and the coefficient b. -/
def fieldP : Nat := 0xFFFFFFFF00000001000000000000000000000000FFFFFFFFFFFFFFFFFFFFFFFF
def orderN : Nat := 0xFFFFFFFF00000000FFFFFFFFFFFFFFFFBCE6FAADA7179E84F3B9CAC2FC632551
def curveB : Nat := 0x5AC635D8AA3A93E7B3EBBD55769886BC651D06B0CC53B0F63BCE3C3E27D2604B

/-- Subtraction in the field. -/
def subP (a b : Nat) : Nat := (a + fieldP - b % fieldP) % fieldP

/-- `powMod m n a e`: a to the power of the `n` low bits of e, modulo m. -/
def powMod (m : Nat) : Nat → Nat → Nat → Nat
  | 0, _, _ => 1
  | n + 1, a, e =>
    let r := powMod m n (a * a % m) (e / 2)
    if e % 2 = 1 then a * r % m else r

/-- The inverse modulo a prime of 256 bits. -/
def invMod (m a : Nat) : Nat := powMod m 256 (a % m) (m - 2)

/-- A point in Jacobian coordinates; z = 0 is the point at infinity. -/
structure Jacobian where
  x : Nat
  y : Nat
  z : Nat
  deriving DecidableEq, Repr

def Jacobian.infinity : Jacobian := ⟨1, 1, 0⟩

/-- The base point. -/
def basePoint : Jacobian :=
  ⟨0x6B17D1F2E12C4247F8BCE6E563A440F277037D812DEB33A0F4A13945D898C296,
   0x4FE342E2FE1A7F9B8EE7EB4A7C0F9E162BCE33576B315ECECBB6406837BF51F5, 1⟩

/-- A point doubled, with the coefficient a = -3. -/
def Jacobian.double (p : Jacobian) : Jacobian :=
  let yy := p.y * p.y % fieldP
  let s := 4 * p.x * yy % fieldP
  let zz := p.z * p.z % fieldP
  let m := 3 * (subP p.x zz * (p.x + zz)) % fieldP
  let x := subP (m * m) (2 * s)
  ⟨x, subP (m * subP s x) (8 * (yy * yy % fieldP)), 2 * p.y * p.z % fieldP⟩

/-- The sum of two points. -/
def Jacobian.add (p q : Jacobian) : Jacobian :=
  if p.z = 0 then q
  else if q.z = 0 then p
  else
    let zp := p.z * p.z % fieldP
    let zq := q.z * q.z % fieldP
    let u := p.x * zq % fieldP
    let s := p.y * (q.z * zq % fieldP) % fieldP
    let h := subP (q.x * zp) u
    let r := subP (q.y * (p.z * zp % fieldP)) s
    if h = 0 then (if r = 0 then p.double else .infinity)
    else
      let hh := h * h % fieldP
      let hhh := h * hh % fieldP
      let v := u * hh % fieldP
      let x := subP (subP (r * r) hhh) (2 * v)
      ⟨x, subP (r * subP v x) (s * hhh), h * (p.z * q.z % fieldP) % fieldP⟩

/-- `scale n k p`: p times the `n` low bits of k. -/
def scale : Nat → Nat → Jacobian → Jacobian
  | 0, _, _ => .infinity
  | n + 1, k, p =>
    let q := scale n (k / 2) p.double
    if k % 2 = 1 then p.add q else q

/-- The affine x coordinate of a point that is not at infinity. -/
def Jacobian.affineX (p : Jacobian) : Nat :=
  let i := invMod fieldP p.z
  p.x * (i * i % fieldP) % fieldP

/-- The affine y coordinate. -/
def Jacobian.affineY (p : Jacobian) : Nat :=
  let i := invMod fieldP p.z
  p.y * (i * (i * i % fieldP) % fieldP) % fieldP

/-- A number in `n` bytes, the most significant first, and back. -/
def be (n v : Nat) : List Byte := (le n v).reverse
def fromBe (l : List Byte) : Nat := fromLe l.reverse

/-- The signature r, s of a message under the private key `d` with the secret `k`, from 1 below the order. -/
def ecdsaSign (d k : Nat) (m : List Byte) : List Byte :=
  let r := (scale 256 k basePoint).affineX % orderN
  let s := invMod orderN k * (fromBe (sha256 m) + r * d) % orderN
  be 32 r ++ be 32 s

/-- The public key x, y of a private key. -/
def publicKey (d : Nat) : List Byte :=
  let p := scale 256 d basePoint
  be 32 p.affineX ++ be 32 p.affineY

/-- Whether a signature of 64 bytes verifies under a public key of 64. -/
def ecdsaVerify (key m sig : List Byte) : Bool :=
  let x := fromBe (key.take 32)
  let y := fromBe (slice key 32 32)
  let r := fromBe (sig.take 32)
  let s := fromBe (slice sig 32 32)
  let w := invMod orderN s
  let p := (scale 256 (fromBe (sha256 m) * w % orderN) basePoint).add (scale 256 (r * w % orderN) ⟨x, y, 1⟩)
  decide (x < fieldP ∧ y < fieldP ∧ 0 < r ∧ r < orderN ∧ 0 < s ∧ s < orderN)
    && (y * y % fieldP == (subP (x * x % fieldP * x) (3 * x) + curveB) % fieldP)
    && p.z != 0 && p.affineX % orderN == r

/-- A private key from 40 bytes of key material (FIPS 186-5, A.2.1; R444). -/
def privateKey (c : List Byte) : Nat := fromBe c % (orderN - 1) + 1

/-- A per-signature secret from 40 random bytes, in the same way. -/
def signatureSecret (c : List Byte) : Nat := privateKey c

end Sys2Proof.Machine
end

