-- ==== Sys2Proof/Machine/Puf.lean ====
section
/-! DEFINITION. The fuzzy extractor over a window of the PUF array (R440 to R443): four blocks of 511 cells under the binary BCH code of
length 511, dimension 76 and correction capability 85. The manual names the code by these numbers; the primitive polynomial x^9 + x^4 + 1,
the systematic form with the message in the highest coefficients, and the order of cells and blocks are PRESUMED (log 204). unsafe. -/

namespace Sys2Proof.Machine

/-- Multiplication by the primitive element α of GF(2^9). -/
def gf9Double (a : Nat) : Nat := if a < 256 then 2 * a else (2 * a) ^^^ 0x211

/-- `gf9Mul n a b`: the product with the `n` low bits of `b`. -/
def gf9Times : Nat → Nat → Nat → Nat
  | 0, _, _ => 0
  | n + 1, a, b => (if b % 2 = 1 then a else 0) ^^^ gf9Times n (gf9Double a) (b / 2)

def gf9Mul (a b : Nat) : Nat := gf9Times 9 a b

/-- `gf9PowBits n a e`: a to the power of the `n` low bits of e. -/
def gf9PowBits : Nat → Nat → Nat → Nat
  | 0, _, _ => 1
  | n + 1, a, e =>
    let r := gf9PowBits n (gf9Mul a a) (e / 2)
    if e % 2 = 1 then gf9Mul a r else r

def gf9Pow (a e : Nat) : Nat := gf9PowBits 9 a e

/-- The inverse of a nonzero element: the group has 511 elements. -/
def gf9Inv (a : Nat) : Nat := gf9Pow a 510

/-- The generator polynomial: the least one with the roots α to α^170, of degree 435. -/
def bchGenerator : Nat :=
  0xAD98BF9547F24B8A971BBA5F0C3B524C0F6F91DBE79D89B207848FFAD3B37791732AC9184A83A6E7CF2E2C8AAAAE28D8C59A7E1153E45

/-- The remainder by the generator of a polynomial whose degree is below 435 + `n`. -/
def bchRemainder : Nat → Nat → Nat
  | 0, r => r
  | n + 1, r => bchRemainder n (if r.testBit (435 + n) then r ^^^ (bchGenerator <<< n) else r)

/-- A block's 511 bits for 76 bits of message. -/
def bchEncode (m : Nat) : Nat := (m <<< 435) ^^^ bchRemainder 76 (m <<< 435)

/-- A polynomial's value at a point; coefficient `i` is its element `i`. -/
def gf9Eval (cs : List Nat) (x : Nat) : Nat := cs.foldr (fun c acc => gf9Mul acc x ^^^ c) 0

/-- The 170 syndromes of a remainder. -/
def bchSyndromes (rem : Nat) : List Nat :=
  let cs := (List.range 435).map (fun i => (rem.testBit i).toNat)
  (List.range 170).map (fun j => gf9Eval cs (gf9Pow 2 (j + 1)))

/-- Sum of two polynomials. -/
def gf9Add : List Nat → List Nat → List Nat
  | [], b => b
  | a, [] => a
  | x :: xs, y :: ys => (x ^^^ y) :: gf9Add xs ys

/-- State of Berlekamp and Massey's algorithm: the locator, its length, the locator before the last change of length, that change's
discrepancy, and the steps since. -/
structure Locator where
  c : List Nat
  len : Nat
  old : List Nat
  d : Nat
  since : Nat
  deriving DecidableEq, Repr

/-- One step, with the syndromes up to now, the newest first. -/
def Locator.step (l : Locator) (n : Nat) (newest : List Nat) : Locator :=
  let d := (List.zipWith gf9Mul l.c newest).foldl (· ^^^ ·) 0
  if d = 0 then { l with since := l.since + 1 }
  else
    let c := gf9Add l.c (List.replicate l.since 0 ++ l.old.map (gf9Mul (gf9Mul d (gf9Inv l.d))))
    if 2 * l.len ≤ n then ⟨c, n + 1 - l.len, l.c, d, 1⟩ else { l with c := c, since := l.since + 1 }

/-- The steps over the syndromes that follow, with those before them, the newest first. -/
def Locator.run : List Nat → Nat → List Nat → Locator → Locator
  | [], _, _, l => l
  | s :: ss, n, seen, l => Locator.run ss (n + 1) (s :: seen) (l.step n (s :: seen))

/-- The error pattern that a locator's roots show, over 511 positions. -/
def Locator.errors (l : Locator) : List Nat := (List.range 511).filter (fun i => gf9Eval l.c (gf9Pow 2 ((511 - i) % 511)) = 0)

/-- A block decoded: its message and the bits corrected; none where more than 85 would have to be. -/
def bchDecode (r : Nat) : Option (Nat × Nat) :=
  let rem := bchRemainder 76 r
  if rem = 0 then some (r >>> 435, 0)
  else
    let l := Locator.run (bchSyndromes rem) 0 [] ⟨[1], 0, [1], 1, 1⟩
    let es := l.errors
    let fixed := es.foldl (fun r i => r ^^^ (1 <<< i)) r
    if l.len ≤ 85 ∧ es.length = l.len ∧ bchRemainder 76 fixed = 0 then some (fixed >>> 435, l.len) else none

/-- A list of numbers made `n` long. -/
def fitNats (n : Nat) (l : List Nat) : List Nat := (l ++ List.replicate n 0).take n

/-- Bits `i` to `i + n - 1` of a number. -/
def bitField (x i n : Nat) : Nat := (x >>> i) % 2 ^ n

/-- The 2044 bits that encode a secret of 304: block b carries its bits 76 b to 76 b + 75. -/
def encodeSecret (secret : Nat) : Nat :=
  (List.range 4).foldl (fun acc b => acc ^^^ (bchEncode (bitField secret (76 * b) 76) <<< (511 * b))) 0

/-- What each block of a window's reading decodes to with an offset (R442 step 2). -/
def decodeBlocks (reading offset : Nat) : List (Option (Nat × Nat)) :=
  (List.range 4).map (fun b => bchDecode (bitField (reading ^^^ offset) (511 * b) 511))

/-- The secret of four decoded blocks with the highest number of corrected bits; none where a block failed. -/
def secretOf (blocks : List (Option (Nat × Nat))) : Option (Nat × Nat) :=
  if blocks.all (·.isSome) then
    some ((blocks.filterMap id).foldr (fun x acc => x.1 ^^^ (acc <<< 76)) 0, (blocks.filterMap id).foldl (fun m x => max m x.2) 0)
  else none

/-- The majority of five readings in every cell (R443 step 2). -/
def majority (a b c d e : Nat) : Nat :=
  let pair (x y : Nat) : Nat × Nat := (x ^^^ y, x &&& y)
  -- a carry-save sum of the five bits: `t` counts twos (0 to 2), `s` ones
  let p := pair a b
  let q := pair p.1 c
  let r := pair q.1 d
  let w := pair r.1 e
  -- carries p.2, q.2, r.2, w.2 each count two; three or more of five: two carries, or one carry and the last one
  let ones := w.1
  let two := (p.2 &&& q.2) ||| (p.2 &&& r.2) ||| (p.2 &&& w.2) ||| (q.2 &&& r.2) ||| (q.2 &&& w.2) ||| (r.2 &&& w.2)
  two ||| ((p.2 ||| q.2 ||| r.2 ||| w.2) &&& ones)

end Sys2Proof.Machine
end

