-- ==== Sys2Proof/Machine/Cupola.lean ====
section
/-! DEFINITION. The Cupola key enclave (chapter 14): key status, replacement of keys, re-anchoring, the random generator's health,
destruction of keys and re-provisioning. -/

namespace Sys2Proof.Machine

/-- Index of key slots 2 to 7 in the state. -/
def slotIx (slot : Nat) : Option (Fin 6) := if h : 2 ≤ slot ∧ slot ≤ 7 then some ⟨slot - 2, by omega⟩ else none

def State.keySlot (s : State) (i : Fin 6) : KeySlot := s.cupola.slots[i]
def State.setKeySlot (s : State) (i : Fin 6) (k : KeySlot) : State :=
  s.withCupola { s.cupola with slots := s.cupola.slots.set i k }

/-- Key check value of an AES key: the first 4 bytes of AES-CMAC over 16 zero bytes (R446). -/
def keyCheck (key : List Byte) : List Byte := (cmac key (zeros 16)).take 4

/-! ## The root and the keys derived from it (R440 to R444) -/

/-- Labels of the derived keys: ild/check, ild/identity, ild/legal, ild/wrap, ild/vrec (R444). -/
def labelCheck : List Byte := [0x69, 0x6C, 0x64, 0x2F, 0x63, 0x68, 0x65, 0x63, 0x6B]
def labelIdentity : List Byte := [0x69, 0x6C, 0x64, 0x2F, 0x69, 0x64, 0x65, 0x6E, 0x74, 0x69, 0x74, 0x79]
def labelLegal : List Byte := [0x69, 0x6C, 0x64, 0x2F, 0x6C, 0x65, 0x67, 0x61, 0x6C]
def labelWrap : List Byte := [0x69, 0x6C, 0x64, 0x2F, 0x77, 0x72, 0x61, 0x70]
def labelVrec : List Byte := [0x69, 0x6C, 0x64, 0x2F, 0x76, 0x72, 0x65, 0x63]

/-- A key derived from the root of a secret, with generation 1 (R440, R444). -/
def deriveKey (serial secret : Nat) (label : List Byte) (n : Nat) : List Byte :=
  hkdf (le 8 serial) (sha256 (le 38 secret)) (label ++ le 2 1) n

/-- The root key check value (R444). -/
def rootCheck (serial secret : Nat) : List Byte := deriveKey serial secret labelCheck 8

/-- A key derived from the root in force. -/
def State.derived (s : State) (label : List Byte) (n : Nat) : List Byte := deriveKey s.power.serial s.cupola.secret label n

/-- The private keys of slots 0 and 1 (R444, R445). -/
def State.identityKey (s : State) : Nat := privateKey (s.derived labelIdentity 40)
def State.legalKey (s : State) : Nat := privateKey (s.derived labelLegal 40)

/-- Of two sequence numbers of 32 bits the later one, over their wrap. -/
def laterSeq (a b : Nat) : Bool := decide (w32 (a + 4294967296 - b) < 2147483648)

/-- Which of two copies governs: the valid one with the later sequence. -/
def newestCopy (a b : Option Nat) : Fin 2 :=
  match a, b with
  | some x, some y => if laterSeq x y then 0 else 1
  | none, some _ => 1
  | _, none => 0

/-- The helper record in use. -/
def Cupola.inUse (c : Cupola) : Fin 2 := newestCopy (c.helpers[0].map (·.sequence)) (c.helpers[1].map (·.sequence))

/-- The helper records, the one with the higher sequence first. -/
def Cupola.helperOrder (c : Cupola) : List HelperRecord := [c.helpers[c.inUse], c.helpers[1 - c.inUse]].filterMap id

/-- The corrected bits of each block of a record's window, and the secret with the highest of them where the root's check value is the
record's (R442 steps 1 to 3). -/
def State.tryHelper (s : State) (array : List Nat) (h : HelperRecord) : List (Option Nat) × Option (Nat × Nat) :=
  let blocks := decodeBlocks (array.getD h.window 0) h.offset
  (blocks.map (Option.map (·.2)), (secretOf blocks).filter (fun x => rootCheck s.power.serial x.1 == h.kcv))

/-- The records tried in turn; the corrected bits are those of the last attempt. -/
def State.findRoot (s : State) (array : List Nat) : List HelperRecord → List (Option Nat) →
    List (Option Nat) × Option (HelperRecord × Nat × Nat)
  | [], last => (last, none)
  | h :: hs, _ =>
    let x := s.tryHelper array h
    match x.2 with
    | some y => (x.1, some (h, y))
    | none => s.findRoot array hs x.1

/-- Both records written, the older one first, with the two sequences that follow (R443 steps 5 and 6, R454). -/
def Cupola.writeHelpers (c : Cupola) (h : HelperRecord) : Cupola :=
  let i := c.inUse
  let n := w32 (c.anchorSeq + 2)
  { c with
    helpers := (c.helpers.set (1 - i) (some { h with sequence := w32 (c.anchorSeq + 1) })).set i (some { h with sequence := n })
    window := h.window, anchorTime := h.anchorTime, anchorSeq := n, reanchorDue := false, reanchorByBits := false }

/-- The selector written to both its copies, the older one first, naming a slot's other record (R446, R448). -/
def Cupola.select (c : Cupola) (slot : Fin 7) : Cupola :=
  let i := newestCopy (c.selectors[0].map (·.seq)) (c.selectors[1].map (·.seq))
  let old := c.selectors[i].getD ⟨0, Vector.replicate 7 false⟩
  let names := old.names.set slot (!old.names[slot])
  { c with selectors := (c.selectors.set (1 - i) (some ⟨w32 (old.seq + 1), names⟩)).set i (some ⟨w32 (old.seq + 2), names⟩) }

/-- A helper record as the Key store region holds it (R441). -/
def HelperRecord.bytes (h : HelperRecord) : List Byte :=
  let body := [1] ++ le 1 h.window ++ [0, 0] ++ le 4 h.sequence ++ le 6 h.anchorTime ++ [0, 0] ++ le 256 h.offset ++ fit 8 h.kcv
  body ++ le 4 (crc32c body)

/-- The record that the selector names for a slot: 0 for A, 1 for B (R446). -/
def Cupola.named (c : Cupola) (slot : Fin 7) : Fin 2 :=
  let i := newestCopy (c.selectors[0].map (·.seq)) (c.selectors[1].map (·.seq))
  if c.selectors[i].any (fun x => x.names[slot]) then 1 else 0

/-- A key wrapped under slot 8 with its generation and a CRC-32C (R446). The manual does not lay the record out. DESIGN CHOICE (log 204).
unsafe. -/
def wrappedRecord (wrap key : List Byte) (generation : Nat) : List Byte :=
  let body := keyWrap wrap key ++ le 2 generation
  body ++ le 4 (crc32c body)

/-- Record A or B of one of slots 2 to 7 as the Key store region holds it: the key in force, the staged or the retiring one, or erased (R446 to
R449). -/
def State.keyRecord (s : State) (i : Fin 6) (r : Fin 2) : Option (List Byte) :=
  let k := s.keySlot i
  let wrap := s.derived labelWrap 32
  if s.cupola.named ⟨i.val, by omega⟩ = r then k.key.map (fun x => wrappedRecord wrap x k.generation)
  else (k.staged.map (fun x => wrappedRecord wrap x (w16 (k.generation + 1)))).orElse
    (fun _ => k.retiring.map (fun x => wrappedRecord wrap x (w16 (k.generation + 65535))))

/-- 365 days in milliseconds (R443). -/
def yearMs : Nat := 365 * 86400000

/-- A re-anchoring is due (R443). -/
def State.reanchorDue (s : State) : Bool :=
  s.cupola.reanchorDue || (decide (s.cupola.anchorTime + yearMs ≤ s.civil) && !s.keep.uncertain)

/-- State byte of KEY_STATUS. -/
def Cupola.stateCode (c : Cupola) : Nat := if c.zeroized then 2 else if c.rootOk then 0 else 1

/-- A slot record of KEY_STATUS: state, kind, generation, check (R456). -/
def slotRecord (state kind generation : Nat) (check : List Byte) : List Byte :=
  le 1 state ++ le 1 kind ++ le 2 generation ++ fit 4 check

/-- Slots 2 to 7. -/
def KeySlot.record (k : KeySlot) : List Byte :=
  let state := b1 k.key.isSome * 128 + b1 k.staged.isSome * 64 + b1 k.verified * 32 + b1 k.retiring.isSome * 16
  match k.key with
  | some key => slotRecord state 2 k.generation (keyCheck key)
  | none => slotRecord state (if k.staged.isSome then 2 else 0) k.generation []

/-- A derived key exists while the root is available (R442, R444). -/
def Cupola.derivedRecord (c : Cupola) (kind : Nat) (check : List Byte) : List Byte :=
  if c.rootOk && !c.zeroized then slotRecord 128 kind 1 check else slotRecord 0 0 0 []

/-- The 32 slot records of KEY_STATUS (R445, R456). -/
def State.slotRecords (s : State) : List Byte :=
  let c := s.cupola
  c.derivedRecord 1 [] ++ c.derivedRecord 1 [] ++ (c.slots.toList.flatMap KeySlot.record)
    ++ c.derivedRecord 3 (keyCheck (s.derived labelWrap 32)) ++ c.derivedRecord 2 (keyCheck (s.derived labelVrec 16))
    ++ slotRecord 128 4 1 ((List.range 4).map Config.vendorHash)
    ++ (if c.oemHash.isEmpty then slotRecord 0 0 0 [] else slotRecord 128 4 1 (c.oemHash.take 4))
    ++ zeros 160

/-- KEY_STATUS's response (R456). -/
def State.keyStatusBody (s : State) : List Byte :=
  let c := s.cupola
  le 1 c.stateCode ++ le 1 c.errorsMax ++ le 1 c.window
    ++ le 1 (b1 s.reanchorDue * 128 + b1 c.destroyLatch * 64 + b1 c.rngHealthy * 32 + b1 (s.power.inForce.mesh == 1) * 16)
    ++ le 6 c.anchorTime ++ [0, 0] ++ le 4 c.anchorSeq ++ s.slotRecords

def keyStatus (r : Req) : State → State :=
  withLength r.payload.isEmpty r <| noHandle r fun s => respond r stOk s.keyStatusBody s

def execKeyStatus (b : Box) (s : State) : Out := request b 0x0901 keyStatus s

/-- Status with which Cupola refuses every key command, none when it serves (R456, R19). -/
def State.cupolaRefusal (s : State) : Option Nat :=
  if s.cupola.zeroized || !s.cupola.rootOk then some stZeroized
  else if !s.up .cd7 then some stIslandRestarting
  else none

/-- A key command on a slot 2 to 7: length, handle, range and Cupola's state checked, then `k`. -/
def keyCommand (len : Nat) (ok : Bool) (r : Req) (k : Fin 6 → State → State) : State → State :=
  withLength (r.payload.length == len) r <| noHandle r fun s =>
  match slotIx (field r.payload 0 1) with
  | none => refuse r stParamRange s
  | some i =>
    if !ok then refuse r stParamRange s
    else
      match s.cupolaRefusal with
      | some st => refuse r st s
      | none => k i s

/-- The session key of a mailbox's keyed session. -/
def State.sessionKey (s : State) (b : Box) : List Byte := ((s.box b).session.elim [] (·.key))

/-- A key staged, with the completion of KEY_STAGE (R447). -/
def stageKey (r : Req) (i : Fin 6) (key wrapped : List Byte) (s : State) : State :=
  let k := s.keySlot i
  let check := keyCheck key
  let s1 := (accept r s).setKeySlot i { k with staged := some key, stagedCheck := fromLe check, verified := false }
  finish r.wait stOk (le 2 (w16 (k.generation + 1)) ++ [0, 0] ++ check ++ fit 24 wrapped) (traceEnclave 4 (i.val + 2) 0 s1)

/-- KEY_STAGE: a supplied key unwrapped under the session key, or a generated one (R447). -/
def keyStage (r : Req) : State → State :=
  let source := field r.payload 1 1
  keyCommand 28 (decide (source ≤ 1) && (source == 0 || isZero (slice r.payload 4 24))) r fun i s =>
  if i.val = 5 ∧ (s.keySlot i).retiring.isSome then refuse r stBusy s
  else if source = 1 then
    if s.cupola.rngHealthy then
      let key := s.drawnBytes 16
      stageKey r i key (if 1 ≤ i.val ∧ i.val ≤ 4 then keyWrap (s.sessionKey r.box) key else []) (countAt 53 1 s.draw)
    else refuse r stBusy s
  else
    match keyUnwrap (s.sessionKey r.box) (slice r.payload 4 24) with
    | some key => stageKey r i key [] s
    | none => acceptDone r stKeyVerifyFailed [] s

def execKeyStage (b : Box) (s : State) : Out := request b 0x0902 keyStage s

/-- KEY_VERIFY: the challenge computed under the staged key and compared when a value is expected; a failure discards it (R447). -/
def keyVerify (r : Req) : State → State :=
  keyCommand 36 true r fun i s =>
  let k := s.keySlot i
  match k.staged with
  | none => refuse r stKeyNotStaged s
  | some key =>
    let expected := slice r.payload 20 16
    let mac := cmac key (slice r.payload 4 16)
    if fromLe (keyCheck key) = k.stagedCheck ∧ (isZero expected ∨ mac = expected) then
      acceptDone r stOk mac (s.setKeySlot i { k with verified := true })
    else acceptDone r stKeyVerifyFailed [] (s.setKeySlot i { k with staged := none, verified := false })

def execKeyVerify (b : Box) (s : State) : Out := request b 0x0903 keyVerify s

/-- Generations of keys are 16 bits. -/
def KeySlot.commit (k : KeySlot) (key : List Byte) (retire : Bool) : KeySlot :=
  { k with
    key := some key, generation := w16 (k.generation + 1), staged := none, verified := false
    retiring := if retire then k.key else none }

/-- The staged key comes into force (R448, R449). -/
def commitKey (r : Req) (i : Fin 6) (key : List Byte) (s : State) : State :=
  let network := i.val == 5
  let k2 := (s.keySlot i).commit key network
  let s0 := accept r s
  let s1 := (s0.withCupola (s0.cupola.select ⟨i.val, by omega⟩)).setKeySlot i k2
  let s2 := if network then
      s1.withCupola { s1.cupola with keyIndex := w8 (s1.cupola.keyIndex + 1), retiringUntil := some (s1.now + 600000) }
    else s1
  let s3 := raise 0x80E0 none (le 1 (i.val + 2) ++ [0] ++ le 2 k2.generation ++ keyCheck key ++ le 6 s.time)
    (traceEnclave 4 (i.val + 2) 0 s2)
  finish r.wait stOk (le 2 k2.generation ++ le 1 (if network then s2.cupola.keyIndex else 0) ++ [0] ++ le 6 s.time) s3

/-- KEY_COMMIT (R447). -/
def keyCommit (after : State → State) (r : Req) : State → State :=
  keyCommand 8 true r fun i s =>
  let k := s.keySlot i
  match k.staged with
  | none => refuse r stKeyNotStaged s
  | some key =>
    if !k.verified then refuse r stRefusedState s
    else if field r.payload 4 4 ≠ k.stagedCheck then refuse r stCheckValueMismatch s
    else if i.val = 5 then after (commitKey r i key s) else commitKey r i key s

/-- KEY_ABORT (R456). -/
def keyAbort (r : Req) : State → State :=
  keyCommand 4 true r fun i s =>
  match (s.keySlot i).staged with
  | none => refuse r stKeyNotStaged s
  | some _ => acceptDone r stOk [] (s.setKeySlot i { s.keySlot i with staged := none, verified := false })

def execKeyAbort (b : Box) (s : State) : Out := request b 0x0905 keyAbort s

/-- The retiring network key is erased at the end of its 600 s (R449). -/
def execRetiringKeyErase (s : State) : Out :=
  match s.cupola.retiringUntil with
  | some t =>
    if s.up .cd7 && s.due t then
      let s1 := s.setKeySlot 5 { s.keySlot 5 with retiring := none }
      .next (raise 0x80E4 none (le 1 7 ++ le 1 (w8 (s.cupola.keyIndex + 255)) ++ [0, 0] ++ le 6 s.time)
        (s1.withCupola { s1.cupola with retiringUntil := none }))
    else .next s
  | none => .next s

/-! ## Re-anchoring (R443) -/

/-- Steps 2 to 4 for one window: the offset from the majority of five readings, and the corrected bits of the sixth, which must give the
secret back with no block above 42. -/
def reanchorTry (secret : Nat) (t : ReanchorTry) : Option (Nat × Nat) :=
  let x := t.readings
  let reference := bitField (majority (x.getD 0 0) (x.getD 1 0) (x.getD 2 0) (x.getD 3 0) (x.getD 4 0)) 0 2044
  let offset := reference ^^^ encodeSecret secret
  match secretOf (decodeBlocks t.check offset) with
  | some (found, e) => if found = secret ∧ e ≤ 42 then some (offset, e) else none
  | none => none

/-- The first window of at most four whose check at step 4 passes: window, offset, corrected bits. -/
def reanchorSearch (secret : Nat) : Nat → Nat → List ReanchorTry → Option (Nat × Nat × Nat)
  | 0, _, _ => none
  | _, _, [] => none
  | n + 1, w, t :: ts =>
    match reanchorTry secret t with
    | some (offset, e) => some (w % 32, offset, e)
    | none => reanchorSearch secret n (w + 1) ts

/-- The readings that a re-anchoring has left in the array: the last of each window it tried. -/
def readWindows (array : List Nat) : Nat → List ReanchorTry → List Nat
  | _, [] => array
  | w, t :: ts => readWindows ((fitNats 32 array).set (w % 32) t.check) (w + 1) ts

def execReanchoring (tries : List ReanchorTry) (s : State) : Out :=
  let c := s.cupola
  if s.up .cd7 && c.rootOk && !c.zeroized && s.reanchorDue && s.due c.reanchorAfter && s.legal.signing.isEmpty then
    let w := if c.reanchorByBits then c.window + 1 else c.window
    match reanchorSearch c.secret 4 w tries with
    | some (win, offset, e) =>
      let c1 := c.writeHelpers ⟨win, 0, s.time, offset, rootCheck s.power.serial c.secret⟩
      .next (raise 0x80E2 none ([0] ++ le 1 win ++ le 1 e ++ [0] ++ le 4 c1.anchorSeq ++ le 6 s.time)
        (traceEnclave 5 0 0 (s.withCupola { c1 with puf := readWindows c.puf w tries })))
    | none =>
      .next (raise 0x80E2 none ([1] ++ le 1 c.window ++ le 1 c.errorsMax ++ [0] ++ le 4 c.anchorSeq ++ le 6 s.time)
        (traceEnclave 5 0 1 (s.withCupola { c with
          reanchorDue := true, reanchorAfter := s.now + 86400000, puf := readWindows c.puf w tries })))
  else .next s

/-! ## Random generator (R450) -/

/-- While a health test fails, requests that need random numbers are refused. -/
def execRngHealthFailure (s : State) : Out :=
  if s.up .cd7 then .next (s.withCupola { s.cupola with rngHealthy := false }) else .next s

/-- 1024 consecutive samples passed. -/
def execRngHealthRestored (s : State) : Out :=
  if s.up .cd7 then .next (s.withCupola { s.cupola with rngHealthy := true }) else .next s

/-! ## Destruction (R451 to R453) -/

def destroyCode : DestroySource → Nat
  | .mesh => 1
  | .glitch => 2
  | .temperature => 3
  | .shield => 4

/-- The main supplies are present, so VDDM lets the Key store region be erased. -/
def State.mainSupply (s : State) : Bool :=
  match s.power.phase with
  | .heldReset => true
  | .supplied => true
  | .running => true
  | .recovery => true
  | .dormant => false
  | .commandedDormant => true
  | .off => false

/-- Every key gone and no helper record left (R452 steps 1 and 3). -/
def Cupola.erase (c : Cupola) (latch : Bool) : Cupola :=
  { c with
    zeroized := true, rootOk := false, secret := 0, helpers := Vector.replicate 2 none, selectors := Vector.replicate 2 none, slots := Vector.replicate 6 ⟨none, 0, none, 0, false, none⟩, oemHash := [],
    retiringUntil := none, destroyLatch := latch, window := 0, anchorTime := 0, anchorSeq := 0, errorsMax := 0,
    reanchorDue := false, reanchorByBits := false }

/-- The completions of abandoned signatures (R356 V2); records the Keep makes on its own are dropped (R355). -/
def abandonSignatures (s : State) : State :=
  let jobs := s.legal.signing
  let s1 := s.withLegal { s.legal with signing := [], waitingRecords := [] }
  jobs.foldl (fun s j =>
    match j.request with
    | some w => finish w stZeroized [] s
    | none => s) s1

/-- Keyed sessions end at once (R453). -/
def endKeyedSessions (s : State) : State :=
  hostBoxes.foldl (fun s b =>
    let s1 := s.modBox b (fun m => { m with attach := none })
    if (s1.box b).session.any (·.keyed) then endSession b s1 else s1)
    (match s.rotunda.supervisor with
      | .reserved _ => s.withRotunda { s.rotunda with supervisor := .free }
      | _ => s)

/-- KEYS_DESTROYED (R457). -/
def raiseDestroyed (d : Nat × Nat × Nat) (s : State) : State :=
  raise 0x80E1 none (le 1 d.1 ++ [0] ++ le 2 d.2.1 ++ le 6 d.2.2) s

/-- The destruction line acts. -/
def destroyKeys (src : DestroySource) (s : State) : State :=
  let d := (destroyCode src, s.legal.aonSeq, s.time)
  let s1 := aonStore s.time 0x0071 (destroyCode src) (s.withCupola ((s.cupola.erase (!s.mainSupply))))
  let s2 := endKeyedSessions (abandonSignatures s1)
  if s.serves then raiseDestroyed d s2 else s2.withCupola { s2.cupola with destroyed := some d }

/-- The line acts on the source of the table (R451): the mesh only while enabled, glitch and shield only with main supply. -/
def execDestruction (src : DestroySource) (s : State) : Out :=
  let acts := match src with
    | .mesh => s.power.inForce.mesh == 1
    | .glitch => s.mainSupply
    | .temperature => true
    | .shield => s.mainSupply
  if s.aon && acts then .next (destroyKeys src s) else .next s

/-- The mesh pattern returned or not; two consecutive failures destroy (R451). -/
def execMeshCheck (returned : Bool) (s : State) : Out :=
  if s.aon && s.power.inForce.mesh == 1 then
    if returned then .next (s.withCupola { s.cupola with meshFails := 0 })
    else if s.cupola.meshFails = 0 then .next (s.withCupola { s.cupola with meshFails := 1 })
    else .next (destroyKeys .mesh (s.withCupola { s.cupola with meshFails := 0 }))
  else .next s

/-- The die temperature sampled; two consecutive samples outside −50 to +125 °C destroy (R451). -/
def execTemperatureCheck (celsius : Int) (s : State) : Out :=
  if s.aon then
    if -50 ≤ celsius ∧ celsius ≤ 125 then .next (s.withCupola { s.cupola with tempFails := 0 })
    else if s.cupola.tempFails = 0 then .next (s.withCupola { s.cupola with tempFails := 1 })
    else .next (destroyKeys .temperature (s.withCupola { s.cupola with tempFails := 0 }))
  else .next s

/-! ## Re-provisioning (R454) -/

/-- The provisioning record's six keys of 16 bytes. -/
def provisionedSlots (keys : List (List Byte)) : Vector KeySlot 6 :=
  Vector.ofFn (fun i => ⟨some (fit 16 (keys.getD i.val [])), 1, none, 0, false, none⟩)

/-- The enclave as re-provisioned: window 0 enrolled with a secret that is a free value, both helper records and the selector written,
slots 2 to 7 and 11 installed with generation 1. -/
def Cupola.provision (c : Cupola) (r : Provisioning) (secret serial time now : Nat) : Cupola :=
  { c.writeHelpers ⟨0, 0, time, bitField r.reference 0 2044 ^^^ encodeSecret secret, rootCheck serial secret⟩ with
    zeroized := false, rootOk := true, secret := secret, errorsMax := 0, slots := provisionedSlots r.keys, oemHash := r.oemHash
    selectors := #v[some ⟨1, Vector.replicate 7 false⟩, some ⟨0, Vector.replicate 7 false⟩]
    retiringUntil := none, reanchorAfter := now + 60000 }

def execReProvisioning (r : Provisioning) (s : State) : Out :=
  if s.servesBox 4 && s.power.phase == .running then
    let secret := bitField (fromLe (s.drawnBytes 38)) 0 304
    let s1 := s.draw.withCupola (s.cupola.provision r secret s.power.serial s.time s.now)
    let first := max s.legal.counter s.legal.reservedEnd
    let s2 := s1.withLegal { s1.legal with certs := r.certificates, counter := first }
    .next (keepLog 0x0072 originService (le 8 first) s2)
  else .next s

end Sys2Proof.Machine
end

