-- ==== Sys2Proof/Machine/Waveform.lean ====
section
/-! DEFINITION. The powerline frame as it leaves the DAC (R365 to R371): scrambler, LDPC blocks, interleaver, differential phases,
preamble and samples. -/

namespace Sys2Proof.Machine

/-! ## Bits (R369, R370) -/

/-- The bits of a header or a payload, each byte's least significant bit first. DESIGN CHOICE (log 183). unsafe. -/
def bitsOf (bs : List Byte) : List Bool := lsbFirst bs

/-- The scrambler x^7 + x^4 + 1 from a register, its stage 1 first (R370 step 1). -/
def scramble : List Bool → List Bool → List Bool
  | _, [] => []
  | reg, x :: xs =>
    let y := xor (reg.getD 3 false) (reg.getD 6 false)
    xor x y :: scramble (y :: reg.take 6) xs

/-! ## The LDPC codes of word length 648 (R369, R370)

IEEE Std 802.11-2020 gives the codes; the tables stand here as PRESUMED (log 182; unsafe). A row of a parity-check matrix lists
the cyclic shifts of its 27 × 27 blocks over the information columns, 27 standing for a block of zeros; the parity columns are the standard's
dual diagonal, whose first column has the shifts of `pivot`. -/

/-- Rate 1/2. -/
def ldpcHalf : List (List Nat) :=
  [[0, 27, 27, 27, 0, 0, 27, 27, 0, 27, 27, 0], [22, 0, 27, 27, 17, 27, 0, 0, 12, 27, 27, 27],
   [6, 27, 0, 27, 10, 27, 27, 27, 24, 27, 0, 27], [2, 27, 27, 0, 20, 27, 27, 27, 25, 0, 27, 27],
   [23, 27, 27, 27, 3, 27, 27, 27, 0, 27, 9, 11], [24, 27, 23, 1, 17, 27, 3, 27, 10, 27, 27, 27]]
  ++ [[25, 27, 27, 27, 8, 27, 27, 27, 7, 18, 27, 27], [13, 24, 27, 27, 0, 27, 8, 27, 6, 27, 27, 27],
   [7, 20, 27, 16, 22, 10, 27, 27, 23, 27, 27, 27], [11, 27, 27, 27, 19, 27, 27, 27, 13, 27, 3, 17],
   [25, 27, 8, 27, 23, 18, 27, 14, 9, 27, 27, 27], [3, 27, 27, 27, 16, 27, 27, 2, 25, 5, 27, 27]]

/-- Rate 2/3. -/
def ldpcTwoThirds : List (List Nat) :=
  [[25, 26, 14, 27, 20, 27, 2, 27, 4, 27, 27, 8, 27, 16, 27, 18], [10, 9, 15, 11, 27, 0, 27, 1, 27, 27, 18, 27, 8, 27, 10, 27],
   [16, 2, 20, 26, 21, 27, 6, 27, 1, 26, 27, 7, 27, 27, 27, 27], [10, 13, 5, 0, 27, 3, 27, 7, 27, 27, 26, 27, 27, 13, 27, 16]]
  ++ [[23, 14, 24, 27, 12, 27, 19, 27, 17, 27, 27, 27, 20, 27, 21, 27], [6, 22, 9, 20, 27, 25, 27, 17, 27, 8, 27, 14, 27, 18, 27, 27],
   [14, 23, 21, 11, 20, 27, 24, 27, 18, 27, 19, 27, 27, 27, 27, 22], [17, 11, 11, 20, 27, 21, 27, 26, 27, 3, 27, 27, 18, 27, 26, 27]]

/-- Rate 5/6. -/
def ldpcFiveSixths : List (List Nat) :=
  [[17, 13, 8, 21, 9, 3, 18, 12, 10, 0, 4, 15, 19, 2, 5, 10, 26, 19, 13, 13],
   [3, 12, 11, 14, 11, 25, 5, 18, 0, 9, 2, 26, 26, 10, 24, 7, 14, 20, 4, 2]]
  ++ [[22, 16, 4, 3, 10, 21, 12, 5, 21, 14, 19, 5, 27, 8, 5, 18, 11, 5, 5, 15],
   [7, 7, 14, 14, 4, 16, 16, 24, 24, 10, 1, 7, 15, 6, 10, 26, 8, 18, 21, 14]]

def ldpcTable (rate : Nat) : List (List Nat) := if rate = 0 then ldpcHalf else if rate = 1 then ldpcTwoThirds else ldpcFiveSixths

/-- Shift of the first parity column in a row: 1 in the first and the last row, 0 in the middle one, else none. -/
def pivot (rows i : Nat) : Nat := if i = 0 ∨ i + 1 = rows then 1 else if i = rows / 2 then 0 else 27

def xorBits (a b : List Bool) : List Bool := List.zipWith xor a b

/-- A block of 27 bits under a cyclic shift. -/
def shiftBlock (n : Nat) (x : List Bool) : List Bool :=
  if n = 27 then List.replicate 27 false else x.drop n ++ x.take n

/-- The 27-bit blocks of a word. -/
def blocks27 (x : List Bool) : List (List Bool) := (List.range (x.length / 27)).map (fun i => (x.drop (27 * i)).take 27)

/-- What a row of the matrix takes of the information blocks. -/
def rowSum (row : List Nat) (xs : List (List Bool)) : List Bool :=
  (List.zipWith shiftBlock row xs).foldl xorBits (List.replicate 27 false)

/-- The parity blocks: the first is the sum of all rows, each further one follows from its row (dual diagonal). -/
def parityBits (rate : Nat) (info : List Bool) : List Bool :=
  let xs := blocks27 info
  let sums := (ldpcTable rate).map (fun r => rowSum r xs)
  let p0 := sums.foldl xorBits (List.replicate 27 false)
  let rows := sums.length
  let step (acc : List (List Bool) × List Bool) (x : List Bool × Nat) : List (List Bool) × List Bool :=
    let next := xorBits (xorBits x.1 (shiftBlock (pivot rows x.2) p0)) acc.2
    (acc.1 ++ [next], next)
  let rest := (sums.zipIdx.take (rows - 1)).foldl step ([], List.replicate 27 false)
  p0 ++ rest.1.flatten

/-- One shortened block: the information bits that stand for themselves, then every parity bit (R370 step 2). -/
def encodeBlock (rate : Nat) (info : List Bool) : List Bool :=
  info ++ parityBits rate (info ++ List.replicate (blockBits rate - info.length) false)

/-- Successive blocks of `k` information bits, at most `n` of them. -/
def encodeBlocks (rate : Nat) : Nat → List Bool → List Bool
  | 0, _ => []
  | n + 1, xs =>
    if xs.isEmpty then [] else encodeBlock rate (xs.take (blockBits rate)) ++ encodeBlocks rate n (xs.drop (blockBits rate))

/-- The coded payload (R370 steps 1 to 3). -/
def payloadBits (m : Option ToneMap) (bytes : List Byte) : List Bool :=
  let rate := m.elim 0 (·.rate)
  let info := scramble (List.replicate 7 true) (bitsOf bytes)
  let coded := encodeBlocks rate (info.length / blockBits rate + 1) info
  if m.isSome then coded else coded.flatMap (fun b => [b, b, b, b])

/-! ## Symbols (R366, R367, R370) -/

/-- Bits on the m-th carrier of a band: one in robust mode, else by the tone map. -/
def carrierBits (m : Option ToneMap) (i : Nat) : Nat :=
  match m with
  | some x => mapCode x i
  | none => 1

/-- Active carriers of a band, lowest first. -/
def activeCarriers (d : Band) (m : Option ToneMap) : List Nat :=
  (List.range (bandCarriers d)).filter (fun i => carrierBits m i != 0)

/-- The smallest odd number of 7 or more that shares no factor with n (R370 step 5). -/
def stride (n : Nat) : Nat := ((List.range 256).find? (fun i => Nat.gcd (7 + 2 * i) n == 1)).elim 7 (fun i => 7 + 2 * i)

/-- The carriers in the order in which a symbol's bits go to them: active carrier (i × s) mod n, a carrier that has all its bits being passed
over. DESIGN CHOICE (log 183). unsafe. -/
def carrierOrder (d : Band) (m : Option ToneMap) : List Nat :=
  let cs := activeCarriers d m
  let n := cs.length
  [1, 2, 3].flatMap (fun round =>
    ((List.range n).map (fun i => cs.getD (i * stride n % n) 0)).filter (fun c => decide (round ≤ carrierBits m c)))

/-- Column j of the stream written row by row into S columns, filled with cyclic repeats (R370 step 4). -/
def column (stream : List Bool) (s b j : Nat) : List Bool :=
  (List.range b).map (fun r => stream.getD ((r * s + j) % max 1 stream.length) false)

/-- Phase step in eighths of a turn of the bits on a carrier, leftmost first (R366). -/
def phaseStep : List Bool → Nat
  | [a] => if a then 4 else 0
  | [false, false] => 0
  | [false, true] => 2
  | [true, true] => 4
  | [true, false] => 6
  | [false, false, false] => 0
  | [false, false, true] => 1
  | [false, true, true] => 2
  | [false, true, false] => 3
  | [true, true, false] => 4
  | [true, true, true] => 5
  | [true, false, true] => 6
  | [true, false, false] => 7
  | _ => 0

/-- A symbol: whether it has a cyclic prefix, and per carrier of the band its phase in units of a turn over 8n, none where it is off. -/
structure PlcSymbol where
  guard : Bool
  phases : List (Option Nat)
  deriving DecidableEq, Repr

/-- The SYNC symbol, or the inverted one: π × m² / n, shifted by π (R367). -/
def syncSymbol (d : Band) (inverted : Bool) : PlcSymbol :=
  let n := bandCarriers d
  ⟨false, (List.range n).map (fun m => some ((4 * m * m + (if inverted then 4 * n else 0)) % (8 * n)))⟩

/-- The preamble (R367). -/
def preamble (d : Band) : List PlcSymbol := List.replicate 8 (syncSymbol d false) ++ [syncSymbol d true]

/-- A data symbol: each carrier's phase is that of the same carrier in the symbol before, turned by its bits (R366). -/
def dataSymbol (d : Band) (order : List Nat) (prev : PlcSymbol) (bits : List Bool) : PlcSymbol :=
  let n := bandCarriers d
  let placed := order.zip bits
  ⟨true, (List.range n).map (fun c =>
    let mine := (placed.filter (fun x => x.1 == c)).map (·.2)
    if mine.isEmpty then none
    else some (((prev.phases.getD c none).getD 0 + phaseStep mine * n) % (8 * n)))⟩

/-- Symbols one after another, each the reference of the next. -/
def dataSymbols (d : Band) (order : List Nat) : PlcSymbol → List (List Bool) → List PlcSymbol
  | _, [] => []
  | prev, x :: xs => let s := dataSymbol d order prev x; s :: dataSymbols d order s xs

/-- The header's columns: its coded bits, repeated to fill the last symbol, in DBPSK on every carrier, symbol after symbol and the lowest
carrier first (R368, R369). DESIGN CHOICE (log 183): the manual gives the header no interleaver. unsafe. -/
def headerColumns (d : Band) (header : List Byte) : List (List Bool) :=
  let coded := encodeBlock 0 (bitsOf header)
  let n := bandCarriers d
  (List.range (headerSymbols d)).map (fun j => (List.range n).map (fun i => coded.getD ((j * n + i) % max 1 coded.length) false))

/-- The payload's columns (R370). -/
def payloadColumns (d : Band) (m : Option ToneMap) (payload : List Byte) : List (List Bool) :=
  let stream := payloadBits m payload
  let b := (carrierOrder d m).length
  let s := payloadSymbols d m payload.length
  if payload.isEmpty then [] else (List.range s).map (column stream s b)

/-- The symbols of a frame of header and payload: the inverted SYNC is the phase reference of the first header symbol (R367). -/
def frameSymbols (d : Band) (m : Option ToneMap) (frame : List Byte) : List PlcSymbol :=
  let pre := preamble d
  let head := dataSymbols d (List.range (bandCarriers d)) (syncSymbol d true) (headerColumns d (frame.take 12))
  let ref := head.getLast?.getD (syncSymbol d true)
  pre ++ head ++ dataSymbols d (carrierOrder d m) ref (payloadColumns d m (frame.drop 12))

/-! ## Samples -/

/-- The lowest carrier of a band (R365). -/
def firstCarrier : Band → Nat
  | .low => 23
  | .upper => 97

/-- One sample of a symbol at 1.6 Msps: carrier k runs through k turns in 1024 samples; in units of 2^-30 of a carrier's amplitude. -/
def symbolSample (d : Band) (x : PlcSymbol) (t : Nat) : Int :=
  let n := bandCarriers d
  (x.phases.zipIdx.map (fun (p : Option Nat × Nat) =>
    match p.1 with
    | some a => cos30 ((firstCarrier d + p.2) * t * 64 + a * 8192 / n)
    | none => 0)).sum

/-- A symbol's samples: 1024, and before a data symbol the last 48 of them once more (R366). -/
def PlcSymbol.samples (d : Band) (x : PlcSymbol) : List Int :=
  let body := (List.range 1024).map (symbolSample d x)
  if x.guard then body.drop 976 ++ body else body

/-- The amplitude that an attenuation in dB leaves, in 2^-30: a factor of 10^(-1/20) for each. -/
def attenuated : Nat → Int
  | 0 => one30
  | n + 1 => mul30 (attenuated n) 956973408

/-- What a band sends for the frame it sent last, on PLC_TXP and PLC_TXN, behind its transmit attenuation (R363, R395). -/
def State.plcWave (s : State) (d : Band) : List Int :=
  if (s.band d).sent.isEmpty then []
  else (frameSymbols d (s.band d).sentMap (s.band d).sent).flatMap (fun x =>
    (x.samples d).map (fun y => mul30 y (attenuated (s.cfg (0x0503 + bandNo d) 0))))

end Sys2Proof.Machine
end

