-- ==== Sys2Proof/Machine/Belfry.lean ====
section
/-! DEFINITION. The powerline link's rows: medium access and attempts, tone maps, routing, joining, its own messages, and the host
commands (chapter 12). -/

namespace Sys2Proof.Machine

/-! ## Medium access (R373 to R376) -/

/-- The receive gain set for a frame from its preamble (R363); the manual does not give by what rule, so any of the eight. -/
def setGain (s : State) : State := (s.withBelfry { s.belfry with gain := 6 * (s.drawn % 8) }).draw

/-- PREAMBLE_DETECTED (R373): the medium is busy until the end of the frame's acknowledgement slot. -/
def execPreambleDetected (d : Band) (s : State) : Out :=
  if s.listens d then
    let m := (s.band d).medium
    .next (countAt (32 + bandNo d) 1 ((setGain s).modBand d (fun b => { b with
      medium := if m = .idle ∨ m = .contention then .receiving else m, dropped := [] })))
  else .next s

/-- A message in a contention period: it lets a period pass, or draws its slot and keeps it. -/
def contend (x : List PlcMessage × State) (m : PlcMessage) : List PlcMessage × State :=
  if m.waitPeriods ≠ 0 then (x.1 ++ [{ m with waitPeriods := m.waitPeriods - 1 }], x.2)
  else if m.slot.isSome then (x.1 ++ [m], x.2)
  else (x.1 ++ [{ m with slot := some (x.2.drawn % 8) }], x.2.draw)

/-- CONTENTION_PERIOD (R374): after an acknowledgement slot, or after a contention period in which nothing was sent. -/
def execContentionPeriod (d : Band) (s : State) : Out :=
  let b := s.band d
  if s.up .cd8 && b.running && !b.awaitingAck && (b.medium == .idle || b.medium == .ackSlot || b.medium == .contention) then
    let x := b.queue.foldl contend ([], s)
    .next (x.2.modBand d (fun b => { b with medium := .contention, queue := x.1, ackDue := none, timedOut := false }))
  else .next s

/-- The message whose slot comes first in the contention period. -/
def firstSlot (q : List PlcMessage) : Option PlcMessage :=
  q.foldl (fun best m =>
    match m.slot with
    | none => best
    | some k =>
      match best with
      | some x => if m.priority * 8 + k < x.priority * 8 + x.slot.getD 0 then some m else best
      | none => some m) none

/-- The map index a message is sent under, none when robust. -/
def State.sendIndex (s : State) (d : Band) (m : PlcMessage) : Option Nat :=
  if m.robust then none
  else (s.neighbourOf m.nextHop).bind (fun x =>
    let v := x.2.dir d .send
    if v.inUse.isSome then v.current else none)

/-- The tone map a frame to an address is sent under, none when robust (R371, R377). -/
def State.sendMap (s : State) (d : Band) (address : Nat) (index : Option Nat) : Option ToneMap :=
  index.bind (fun i => (s.neighbourOf address).bind (fun x => ((x.2.dir d .send).maps[i]?).bind (·.map)))

/-- A frame of the message starts (R374, R388): counter, header and payload. -/
def startFrame (d : Band) (m : PlcMessage) (s : State) : State :=
  let index := s.sendIndex d m
  let refresh := (s.neighbourOf m.nextHop).any (fun x => (x.2.dir d .send).requestRefresh)
  let c := if m.security = .plain then (0, s) else takePlcCounter s
  let f := c.2.plcFrame d m c.1 index refresh
  let s1 := c.2.draw.modBand d (fun b => { b with
    medium := .sending, queue := b.queue.erase m, current := some { m with slot := none }, sequence := (b.sequence + 1) % 64,
    sent := f, sentMap := s.sendMap d m.nextHop index, timedOut := false })
  let s2 := s1.withBelfry { s1.belfry with framesSent := w32 (s1.belfry.framesSent + 1) }
  let s3 := match s2.neighbourOf m.nextHop with
    | some (n, x) =>
      let v := match index with
        | some i => (x.dir d .send).touchMap i s.now
        | none => x.dir d .send
      setNeighbour n ({ x with framesSent := w32 (x.framesSent + 1) }.setDir d .send v) s2
    | none => s2
  tracePlc d 1 f s3

/-- PLC_TRANSMIT_START (R374, R393, none in hold-up by R509): the message of the first slot starts; a reception in the other band makes it contend again. -/
def execPlcTransmitStart (d : Band) (s : State) : Out :=
  let b := s.band d
  if s.up .cd8 && b.running && b.medium == .contention && b.current.isNone && !s.power.holdUp then
    match firstSlot b.queue with
    | none => .next s
    | some m =>
      if (s.band (otherBand d)).medium = .receiving then
        .next (s.modBand d (fun b => { b with queue := b.queue.map (fun x => if x = m then { x with slot := none } else x) }))
      else if s.canSecure m.security d then .next (startFrame d m s)
      else .next (settleMessage m d 1 m.attempts (s.modBand d (fun b => { b with queue := b.queue.erase m })))
  else .next s

/-- PLC_TRANSMIT_END (R373, R395): the acknowledgement slot opens; a broadcast is done, and a disabled band stops. -/
def execPlcTransmitEnd (d : Band) (s : State) : Out :=
  let b := s.band d
  if s.up .cd8 && b.medium == .sending then
    match b.current with
    | some m =>
      if m.acked then .next (settleBand (s.modBand d (fun b => { b with medium := .ackSlot, awaitingAck := true })) d)
      else
        .next (settleBand (settleMessage m d 3 (m.attempts + 1)
          (s.modBand d (fun b => { b with medium := .ackSlot, current := none }))) d)
    | none => .next (settleBand (s.modBand d (fun b => { b with medium := .ackSlot })) d)
  else .next s

/-- PLC_ACK_SEND (R375): a preamble and a header, 150 µs after the frame. -/
def execPlcAckSend (d : Band) (s : State) : Out :=
  let b := s.band d
  match b.ackDue with
  | some a =>
    if s.up .cd8 && b.running && b.medium == .ackSlot && !s.power.holdUp then
      let h := withHcrc (plcHeader 1 0 false false true 0 b.sequence 0 a 0 s.ownZc)
      .next (tracePlc d 1 h (s.draw.modBand d (fun b => { b with
        ackDue := none, sequence := (b.sequence + 1) % 64, sent := h, sentMap := none })))
    else .next s
  | none => .next s

/-- ACKNOWLEDGEMENT (R375): in time, it completes the attempt; late, it is counted and changes nothing else (R398). -/
def execAcknowledgement (d : Band) (s : State) : Out :=
  let b := s.band d
  if s.up .cd8 && b.awaitingAck then
    match b.current with
    | some m =>
      let s1 := tracePlc d 0 (s.drawnBytes 12) (s.draw.modBand d (fun b => { b with awaitingAck := false, current := none }))
      .next (settleMessage m d 0 (m.attempts + 1)
        (modLinkDir m.nextHop d .send (fun v => { v.attempt false with consecutiveFails := 0 }) s1))
    | none => .next (s.modBand d (fun b => { b with awaitingAck := false }))
  else if s.up .cd8 && b.timedOut then
    .next ((s.withBelfry { s.belfry with acksLate := w32 (s.belfry.acksLate + 1) }).modBand d (fun b => { b with timedOut := false }))
  else .next s

/-- The sending direction after a failed attempt: robust, with bit [1], after two in a row (R376). -/
def LinkDir.fail (v : LinkDir) : LinkDir :=
  let n := v.consecutiveFails + 1
  { v.attempt true with
    consecutiveFails := n, forcedRobust := v.forcedRobust || decide (2 ≤ n), requestRefresh := v.requestRefresh || decide (2 ≤ n) }

/-- A link failure (R381): 8 in 60 s make the neighbour unreachable. -/
def linkFailure (address : Nat) (s : State) : State :=
  match s.neighbourOf address with
  | none => s
  | some (c, b) =>
    let times := b.linkFailures.filter (fun t => decide (s.now < t + 60000)) ++ [s.now]
    let dead := decide (8 ≤ times.length)
    let s1 := setNeighbour c { b with linkFailures := times, unreachable := b.unreachable || dead } s
    if dead && !b.unreachable then raiseLeft b.eui b.address 3 s1 else s1

/-- A failed attempt noted at the neighbour (R376). -/
def failAttempt (d : Band) (address : Nat) (s : State) : State :=
  match s.neighbourOf address with
  | none => s
  | some (c, b) =>
    let v := b.dir d .send
    let v1 := v.fail
    let s1 := setNeighbour c ({ b with attemptsFailed := w32 (b.attemptsFailed + 1) }.setDir d .send v1) s
    if v1.forcedRobust && !v.forcedRobust then raiseLink address d .send 2 (v.current.getD 0) s1 else s1

/-- PLC_ACK_TIMEOUT (R375, R376): a retry after r contention periods, or, after the fifth attempt, a dropped frame. -/
def execPlcAckTimeout (d : Band) (s : State) : Out :=
  let b := s.band d
  if s.up .cd8 && b.awaitingAck then
    let s1 := countAt (38 + bandNo d) 1 (s.modBand d (fun b => { b with awaitingAck := false, current := none, timedOut := true }))
    match b.current with
    | some m =>
      let s2 := failAttempt d m.nextHop s1
      let n := m.attempts + 1
      if 5 ≤ n then .next (settleMessage { m with attempts := n } d 2 n (reportDrop m (linkFailure m.nextHop s2)))
      else
        .next (enqueue d { m with attempts := n, waitPeriods := s2.drawn % 2 ^ n, slot := none } s2.draw)
    | none => .next s1
  else .next s

/-- PLC_HEADER_CHECK_FAILED (R380): the frame is discarded and counted; a band disabled meanwhile stops (R395). -/
def execPlcHeaderCheckFailed (d : Band) (s : State) : Out :=
  if s.listens d then
    let s1 := s.modBand d (fun b => { b with medium := .ackSlot, ackDue := none })
    .next (settleBand (countAt (34 + bandNo d) 1 (s1.withBelfry { s1.belfry with headersFailed := w32 (s1.belfry.headersFailed + 1) })) d)
  else .next s

/-! ## Tone maps (R377 to R381) -/

/-- A new map of a receiving direction, sent to its sender (R377, R379). -/
def sendMap (address : Nat) (d : Band) (m : ToneMap) (s : State) : State :=
  match s.neighbourOf address with
  | none => s
  | some (_, b) =>
    let i := (b.dir d .receive).nextIndex
    let s1 := modLinkDir address d .receive (fun v => { v.install i s.now m with traffic := false }) s
    let data := le 1 (bandNo d) ++ le 1 i ++ le 1 m.rate ++ [0] ++ m.carriers
    raiseLink address d .receive 1 i (enqueue d { plcMessage 0 0 address .network data .own with
      frameType := 2, nextHop := address, robust := true } s1)

/-- The frame check passes: at most 15 % of the symbols are erased, and the frame's SNR meets the thresholds of its map (R380). -/
def State.checkPasses (s : State) (d : Band) (source : Nat) (x : FailedSymbols) (snr : List Int) : Bool :=
  let map := match x.mapIndex with
    | none => some (robustMap d)
    | some i => (s.neighbourOf source).bind (fun n => ((n.2.dir d .receive).maps[i.val]?).bind (·.map))
  decide (100 * erasedIn x.energies ≤ 15 * x.energies.length) && map.any (fun m => mapMet d m snr)

/-- A new map formed from the last frames' SNR and sent, where one can be (R377). -/
def updateMap (address : Nat) (d : Band) (snrs : List (List Int)) (s : State) : State :=
  match mapOf d snrs with
  | some m => sendMap address d m s
  | none => s

/-- PLC_FRAME_CHECK_FAILED (R380, R381), with the failed frame's SNR and those of the frames before it: no acknowledgement, and a tone map
update to a neighbour that sent it; a band disabled meanwhile stops (R395). -/
def execPlcFrameCheckFailed (d : Band) (source : Nat) (x : FailedSymbols) (snrs : List (List Int)) (s : State) : Out :=
  let erased := erasedIn x.energies
  if s.listens d && !s.checkPasses d source x (snrs.headD []) then
    let s1 := s.modBand d (fun b => { b with medium := .ackSlot, ackDue := none })
    let s2 := tracePlc d 0 (s1.drawnBytes 12) (countAt (36 + bandNo d) erased
      (s1.draw.withBelfry { s1.belfry with symbolsErased := w32 (s1.belfry.symbolsErased + erased) }))
    match s2.neighbourOf source with
    | none => .next (settleBand s2 d)
    | some (c, b) =>
      let v := (b.dir d .receive).attempt true
      let s3 := setNeighbour c ({ b with checksFailed := w32 (b.checksFailed + 1) }.setDir d .receive v) s2
      .next (settleBand (updateMap source d snrs s3) d)
  else .next s

/-- A tone map update's data: band, index, rate, reserved, map. -/
def updateOf (data : List Byte) : Option (Band × Nat × ToneMap) :=
  let d : Band := if field data 0 1 = 0 then .low else .upper
  let m : ToneMap := ⟨field data 2 1, data.drop 4⟩
  if field data 0 1 ≤ 1 ∧ field data 1 1 ≤ 3 ∧ mapUsable d m then some (d, field data 1 1, m) else none

/-- TONE_MAP_UPDATE (R377, R379): a new map of a sending direction, which ends its robust mode. -/
def execToneMapUpdate (d : Band) (f : PlcFrame) (s : State) : Out :=
  .next (receivePlc d 2 f (fun s1 =>
    match updateOf f.data with
    | some (e, i, m) => raiseLink f.source e .send 1 i (modLinkDir f.source e .send (LinkDir.install i s1.now m) s1)
    | none => s1) s)

/-- TONE_MAP_REFRESH (R378), with the last frames' SNR: every 60 s with traffic, or at once when the sender's header asked. -/
def execToneMapRefresh (d : Band) (slot : Nat) (snrs : List (List Int)) (s : State) : Out :=
  match s.neighbourAt slot with
  | some (_, b) =>
    let v := b.dir d .receive
    if s.up .cd8 && (s.band d).running && (v.requestRefresh || (v.traffic && s.due (v.lastMapAt + 60000))) then
      .next (match mapOf d snrs with
        | some m => sendMap b.address d m s
        | none => modLinkDir b.address d .receive (fun v => { v with traffic := false, requestRefresh := false, lastMapAt := s.now }) s)
    else .next s
  | none => .next s

/-- TONE_MAP_LAPSE (R378): a map unused for 5 min. -/
def execToneMapLapse (d : Band) (slot : Nat) (dir : Direction) (i : Fin 4) (s : State) : Out :=
  match s.neighbourAt slot with
  | some (_, b) =>
    let v := b.dir d dir
    if s.up .cd8 && (v.maps[i.val]?).any (fun m => m.map.isSome && s.due (m.used + 300000)) then
      .next (raiseLink b.address d dir 3 i.val (modLinkDir b.address d dir (fun v => { v with
        maps := v.maps.set i.val MapSlot.empty, current := if v.current = some i.val then none else v.current }) s))
    else .next s
  | none => .next s

/-! ## Routing (R384) -/

/-- The link cost of the frame's last hop, in one direction. -/
def State.hopCost (s : State) (d : Band) (address : Nat) (x : Direction) : Nat :=
  (s.neighbourOf address).elim 0 (fun n => (n.2.dir d x).cost d)

def routeData (target id cost hops : Nat) : List Byte := le 2 target ++ le 2 id ++ le 2 cost ++ le 1 hops ++ [0]

/-- A route request for the Drurus noted: its reply falls due 500 ms after the first copy, along the cheapest path. -/
def noteReply (origin id cost via : Nat) (d : Band) (first : Bool) (s : State) : State :=
  let b := s.belfry
  let moved (r : ReplyDue) : ReplyDue :=
    if r.origin = origin ∧ r.id = id then { r with cost := cost, via := via, band := d } else r
  s.withBelfry { b with
    replies := if first then b.replies ++ [⟨origin, id, cost, via, d, s.now + 500⟩] else b.replies.map moved }

/-- ROUTE_REQ (R384): relayed once, again only at a lower cost, or answered. Its cost grows by the link it came over, in the direction it goes;
the route back to its originator costs what the request brings and this link in the sending direction (R382). DEDUCED (log 206). unsafe. -/
def execRouteReq (d : Band) (f : PlcFrame) (s : State) : Out :=
  .next (receivePlc d 0 f (fun s1 =>
    let target := field f.data 0 2
    let id := field f.data 2 2
    let cost := field f.data 4 2 + s1.hopCost d f.source .receive
    let hops := field f.data 6 1 + 1
    let known := s1.belfry.relayed.find? (fun r => r.1 == f.originator && r.2.1 == id)
    if f.originator = 0 ∨ 8 < hops ∨ known.any (fun r => decide (r.2.2 ≤ cost)) then s1
    else
      let others := s1.belfry.relayed.filter (fun r => !(r.1 == f.originator && r.2.1 == id))
      let s2 := addRoute ⟨f.originator, f.source, d, hops, field f.data 4 2 + s1.hopCost d f.source .send, s1.time, s1.now⟩
        (s1.withBelfry { s1.belfry with
          relayed := others ++ [(f.originator, id, cost)] })
      if target = 0 then noteReply f.originator id cost f.source d known.isNone s2
      else if f.hopsLeft ≤ 1 then s2
      else flood { plcMessage 0x70 1 0xFFFF .network (routeData target id cost hops) .own with
        originator := f.originator, hopsLeft := f.hopsLeft - 1 } s2) s)

/-- ROUTE_REP (R384): a route to the target through the node that sent it; the messages that waited for it go out. -/
def execRouteRep (d : Band) (f : PlcFrame) (s : State) : Out :=
  .next (receiveSecured d 0 f (fun s2 =>
    let target := field f.data 0 2
    let id := field f.data 2 2
    let cost := field f.data 4 2 + s2.hopCost d f.source .send
    let hops := field f.data 6 1 + 1
    if 8 < hops then s2
    else
      let s3 := addRoute ⟨target, f.source, d, hops, cost, s2.time, s2.now⟩ s2
      if f.final = 0 then
        match s3.belfry.discoveries.find? (fun x => x.target == target && x.id == id) with
        | some x =>
          x.messages.foldl (fun s m => dispatch m s) (s3.withBelfry { s3.belfry with
            discoveries := s3.belfry.discoveries.filter (fun y => y.target != target) })
        | none => s3
      else relay { f with data := routeData target id cost hops } s3) s)

/-- ROUTE_REPLY_DUE (R384). -/
def execRouteReplyDue (requestId : Nat) (s : State) : Out :=
  match s.belfry.replies.find? (fun r => r.id == requestId && s.due r.dueAt) with
  | some r =>
    if s.up .cd8 then
      .next (enqueue r.band { plcMessage 0x71 1 r.origin .network (routeData 0 r.id 0 0) .own with nextHop := r.via }
        (s.withBelfry { s.belfry with replies := s.belfry.replies.filter (fun x => x != r) }))
    else .next s
  | none => .next s

/-- ROUTE_REQUEST_TIMEOUT (R384): one more flood after 2 s, then the messages fail with result 1. -/
def execRouteRequestTimeout (target : Nat) (s : State) : Out :=
  match s.belfry.discoveries.find? (fun x => x.target == target && s.due (x.startedAt + 2000)) with
  | some x =>
    if !s.up .cd8 then .next s
    else if x.floods < 2 then
      .next (flood (routeRequest target x.id) (s.withBelfry { s.belfry with discoveries := s.belfry.discoveries.map (fun y =>
        if y.target = target then { y with floods := y.floods + 1, startedAt := s.now } else y) }))
    else
      .next (x.messages.foldl (fun s m => settleMessage m (if m.prefer = 2 then .upper else .low) 1 m.attempts (reportDrop m s))
        (s.withBelfry { s.belfry with discoveries := s.belfry.discoveries.filter (fun y => y.target != target) }))
  | none => .next s

/-- ROUTE_ERR (R384): the originator discards the route. -/
def execRouteErr (d : Band) (f : PlcFrame) (s : State) : Out := .next (receivePlc d 0 f (dropRoute (field f.data 0 2)) s)

/-- ROUTE_ENTRY_LAPSE (R383): 30 min unused. -/
def execRouteEntryLapse (destination : Nat) (s : State) : Out :=
  if s.up .cd8 && s.belfry.routes.any (fun r => r.destination == destination && s.due (r.lastUsedAt + 1800000)) then
    .next (dropRoute destination s)
  else .next s

/-- NEIGHBOUR_TIMEOUT (R385): 10 min unheard. -/
def execNeighbourTimeout (slot : Nat) (s : State) : Out :=
  match s.neighbourAt slot with
  | some (c, b) => .next (if s.up .cd8 && s.due (b.lastHeardAt + 600000) then dropNeighbour c b s else s)
  | none => .next s

/-! ## Messages from nodes (R392, R404) -/

/-- PLC_RECEIVED (R404). -/
def raiseReceived (d : Band) (f : PlcFrame) (s : State) : State :=
  raise 0x80A0 none (le 2 f.originator ++ le 1 ((s.nodeOf f.originator).elim 0 (·.kind)) ++ le 1 f.type ++ le 1 (bandNo d)
    ++ le 1 (9 - f.hopsLeft) ++ le 2 f.data.length ++ le 6 s.time ++ f.data) s

/-- A message of a type the table does not give from a node to the Drurus is counted and dropped (R392). -/
def dropUnknown (s : State) : State := s.withBelfry { s.belfry with unknownTypes := w32 (s.belfry.unknownTypes + 1) }

/-- GATEWAY_REPORT (R392). -/
def execGatewayReport (d : Band) (f : PlcFrame) (s : State) : Out :=
  .next (receivePlc d 0 f (if f.type = 0x03 then raiseReceived d f else dropUnknown) s)

/-- NODE_STATUS (R392): it keeps the node heard; the network table is changed only by joins and removals (R391). -/
def execNodeStatus (d : Band) (f : PlcFrame) (s : State) : Out :=
  .next (receivePlc d 0 f (if f.type = 0x04 then id else dropUnknown) s)

/-- HOST_DATA (R392). -/
def execHostData (d : Band) (f : PlcFrame) (s : State) : Out :=
  .next (receivePlc d 0 f (if within 0x10 0x1F f.type then raiseReceived d f else dropUnknown) s)

/-! ## The Drurus's own messages (R392) -/

/-- PORT_INDICATION's data. -/
def State.indication (s : State) (p : Port) : List Byte :=
  let l := s.lane p
  let flags := bits [false, false, false, false, l.state == .shed, s.steeple.affected[p],
    s.steeple.hub.active || (s.portLock p).active, s.authorised p]
  le 1 p.val ++ le 1 l.state.code ++ le 1 flags ++ [0] ++ le 4 l.allowance

/-- PORT_INDICATION (R392): at a PORT_STATE event of the port and every 60 s, to every bay head of the port. -/
def execPortIndication (p : Port) (s : State) : Out :=
  if s.up .cd8 && (s.belfry.indicationDue[p] || s.due (s.belfry.indicationAt[p] + 60000)) then
    let s1 := s.withBelfry { s.belfry with
      indicationDue := s.belfry.indicationDue.set p false, indicationAt := s.belfry.indicationAt.set p s.now }
    let heads := s.belfry.nodes.filter (fun n => n.kind == 1 && n.attr == p.val)
    .next (heads.foldl (fun s n => dispatch (plcMessage 0x01 1 n.address .network (s.indication p) .own) s) s1)
  else .next s

/-- ENERGY_REPORT's data for a register set. -/
def State.energyData (s : State) (set : Nat) : List Byte :=
  let l := s.keep.latched
  let x := l.sets.toList.getD set LatchedSet.zero
  le 1 set ++ [0] ++ wordBytes x.status ++ le 4 (compactOf (mwh x.regs.total.eai)) ++ le 4 (compactOf (mwh x.regs.total.eae))
    ++ powerBytes x.pMw ++ le 6 l.time

/-- ENERGY_REPORT (R392): every plc_report_s, to every display. -/
def execEnergyReport (s : State) : Out :=
  let period := s.cfg 0x0506 0
  if s.up .cd8 && period != 0 && s.due (s.belfry.reportAt + period * 1000) then
    let shows := s.belfry.nodes.filter (fun n => n.kind == 2)
    .next (shows.foldl (fun s n => dispatch (plcMessage 0x02 1 n.address .network (s.energyData n.attr) .own) s)
      (s.withBelfry { s.belfry with reportAt := s.now }))
  else .next s

/-! ## Joining (R390, R391) -/

/-- Remaining time of the pairing window in seconds. -/
def State.pairingLeft (s : State) : Nat := s.belfry.pairing.elim 0 (fun p => (p.endsAt - s.now) / 1000)

/-- PLC_PAIRING (R404). -/
def raisePairing (open_ : Bool) (joined : Nat) (s : State) : State :=
  raise 0x80A5 none (le 1 (b1 open_) ++ le 1 joined ++ [0, 0] ++ le 6 s.time) s

def closePairing (s : State) : State :=
  match s.belfry.pairing with
  | some p => raisePairing false p.joined (s.withBelfry { s.belfry with pairing := none })
  | none => s

/-- BEACON (R390): every 5 s while a window is open. -/
def execBeacon (s : State) : Out :=
  match s.belfry.pairing with
  | some p =>
    if s.up .cd8 && s.due (p.lastBeaconAt + 5000) then
      .next (flood (plcMessage 0x78 1 0xFFFF .plain (le 2 s.belfry.networkId ++ le 2 s.pairingLeft ++ [0, 0]) .own)
        (s.withBelfry { s.belfry with pairing := some { p with lastBeaconAt := s.now } }))
    else .next s
  | none => .next s

/-- The earlier address of a node, or the lowest free one (R390). -/
def State.addressFor (s : State) (eui : List Byte) : Option Nat :=
  match s.belfry.nodes.find? (fun n => n.eui == eui) with
  | some n => some n.address
  | none =>
    ((List.range 250).map (· + 1)).find? (fun a =>
      !s.belfry.nodes.any (fun n => n.address == a) && !s.belfry.joins.any (fun j => j.address == a && j.eui != eui))

/-- JOIN_ACCEPT's data (R392). -/
def State.acceptData (s : State) (eui : List Byte) (address : Nat) (nd : List Byte) : List Byte :=
  fit 8 eui ++ le 2 address ++ le 2 s.belfry.networkId ++ le 1 s.cupola.keyIndex ++ [0] ++ fit 16 (s.networkKey.getD []) ++ fit 8 nd

/-- JOIN_REQ (R390): a node named in the window is answered under its pairing key. -/
def execJoinReq (d : Band) (f : PlcFrame) (s : State) : Out :=
  .next (hearFrame d 0 f (fun s1 =>
    let eui := f.data.take 8
    let named := s1.belfry.pairing.bind (fun p => p.nodes.find? (fun n => n.1 == eui))
    match named, s1.addressFor eui with
    | some n, some a =>
      if f.type = 0x79 ∧ f.data.length = 18 ∧ s1.belfry.nodes.length < 250 ∧ s1.networkKey.isSome ∧ s1.cupola.rngHealthy then
        let nd := s1.drawnBytes 8
        let j : Join := ⟨eui, a, field f.data 8 1, field f.data 9 1, nd, s1.now + 10000⟩
        let s2 := (countAt 53 1 s1.draw).withBelfry { s1.belfry with joins := s1.belfry.joins.filter (fun x => x.eui != eui) ++ [j] }
        let relay := (s2.neighbourOf f.source).isSome
        enqueue d { plcMessage 0x7A 1 0xFFFF (.pairing n.2 (slice f.data 10 5 ++ nd)) (s2.acceptData eui a nd) .own with
          nextHop := if relay then f.source else 0xFFFF, robust := !relay, acked := relay } s2
      else s1
    | _, _ => s1) s)

/-- JOIN_CONFIRM (R390): within 10 s, under the network key and with a counter that is new (R388), it makes the node joined. -/
def execJoinConfirm (d : Band) (f : PlcFrame) (s : State) : Out :=
  .next (hearFrame d 0 f (fun s1 =>
    let eui := f.data.take 8
    match s1.belfry.joins.find? (fun j => j.eui == eui && j.nd == slice f.data 8 8 && decide (s1.now ≤ j.deadline)) with
    | some j =>
      if f.type = 0x7B ∧ f.secured ∧ f.micOk ∧ s1.networkKey.isSome ∧ f.data.length = 16 then
        let b := s1.belfry
        let node : Node := ⟨j.eui, j.address, j.kind, j.attr, s1.time⟩
        let s2 := s1.withBelfry { b with
          nodes := b.nodes.filter (fun n => n.eui != j.eui) ++ [node], joins := b.joins.filter (fun x => x.eui != j.eui),
          pairing := b.pairing.map (fun p => { p with
            nodes := p.nodes.filter (fun n => n.1 != j.eui),
            joined := if p.nodes.any (fun n => n.1 == j.eui) then p.joined + 1 else p.joined }) }
        let s3 := raise 0x80A1 none (fit 8 j.eui ++ le 2 j.address ++ le 1 j.kind ++ le 1 j.attr ++ le 6 s.time) s2
        let s4 := if s3.belfry.pairing.any (fun p => p.nodes.isEmpty) then closePairing s3 else s3
        (acceptSecured d f s4).getD s1
      else s1
    | none => s1) s)

/-- JOIN_CONFIRM_TIMEOUT (R390). -/
def execJoinConfirmTimeout (address : Nat) (s : State) : Out :=
  if s.up .cd8 then
    .next (s.withBelfry { s.belfry with joins := s.belfry.joins.filter (fun j => !(j.address == address && decide (j.deadline < s.now))) })
  else .next s

/-- PAIRING_WINDOW_CLOSE (R391): at its duration. -/
def execPairingWindowClose (s : State) : Out :=
  if s.up .cd8 && s.belfry.pairing.any (fun p => s.due p.endsAt || p.nodes.isEmpty) then .next (closePairing s) else .next s

/-- A new network key goes to every joined node under the key that retires (R389, R449). -/
def announceKey (s : State) : State :=
  s.belfry.nodes.foldl (fun s n =>
    dispatch (plcMessage 0x7A 1 n.address .retiring (s.acceptData n.eui n.address (s.drawnBytes 8)) .own) s.draw) s

/-- KEY_COMMIT (R448, R449); slot 7 brings the rollover of the network key. -/
def execKeyCommit (b : Box) (s : State) : Out := request b 0x0904 (keyCommit announceKey) s

/-! ## Host commands (R396 to R403) -/

/-- The island runs, or the request is refused ISLAND_RESTARTING. -/
def needs (c : Clock) (r : Req) (k : State → State) (s : State) : State := check (s.up c) stIslandRestarting r k s

/-- PLC_STATUS (R398); the noise floors are measurements the manual gives no number for. -/
def State.plcStatus (s : State) : List Byte :=
  let b := s.belfry
  le 1 (bits [b.low.running, b.upper.running, false, s.bandUPermitted])
    ++ le 1 (b.pairing.elim 0 (fun p => 128 + p.nodes.length)) ++ le 2 s.pairingLeft ++ le 2 b.networkId
    ++ le 1 s.cupola.keyIndex ++ le 1 b.nodes.length ++ le 1 s.neighbours.length ++ le 1 b.routes.length ++ fit 2 (s.drawnBytes 2)
    ++ le 4 (sat 4294967295 b.counter) ++ le 4 b.framesSent ++ le 4 b.framesReceived ++ le 4 b.headersFailed ++ le 4 b.symbolsErased ++ le 4 b.acksLate

def plcStatus (r : Req) : State → State :=
  withLength r.payload.isEmpty r <| noHandle r <| needs .cd8 r fun s => respond r stOk s.plcStatus s.draw

def execPlcStatus (b : Box) (s : State) : Out := request b 0x0601 plcStatus s

/-- One entry of PLC_NEIGHBOURS (R399). -/
def neighbourEntry (c : Channel) (b : NeighbourBody) : List Byte :=
  le 4 c.handle ++ le 2 b.address ++ le 1 b.kind ++ le 1 b.phase ++ le 2 (b.lSend.cost .low) ++ le 2 (b.uSend.cost .upper)
    ++ le 1 (b1 b.heardU * 2 + b1 b.heardL) ++ [0, 0, 0]

/-- Up to `room` neighbours from the slots listed, and the slot after the last examined, or 0 at the table's end. -/
def State.neighboursFrom (s : State) : Nat → List Nat → List (List Byte) × Nat
  | _, [] => ([], 0)
  | 0, slot :: _ => ([], slot)
  | room + 1, slot :: rest =>
    match s.neighbourAt slot with
    | some (c, b) =>
      let x := s.neighboursFrom room rest
      (neighbourEntry c b :: x.1, x.2)
    | none => s.neighboursFrom (room + 1) rest

/-- PLC_NEIGHBOURS (R399); a neighbour whose slot is being rebuilt cannot be read (R88). -/
def plcNeighbours (r : Req) : State → State :=
  withLength (r.payload.length == 4) r <| noHandle r <|
  check (within 1 24 (field r.payload 1 1)) stParamRange r fun s =>
    let from_ := field r.payload 0 1
    let x := s.neighboursFrom (field r.payload 1 1) ((List.range 256).drop from_)
    if s.rotunda.rebuilding.any (fun k => decide (from_ ≤ k ∧ (x.2 = 0 ∨ k < x.2)) && (s.neighbourAt k).isSome) then
      refuse r stMemUncorrectable s
    else respond r stOk (le 1 x.1.length ++ le 1 x.2 ++ [0, 0] ++ x.1.flatten) s

def execPlcNeighbours (b : Box) (s : State) : Out := request b 0x0602 plcNeighbours s

/-- ENERGY may send only to one gateway (R396). -/
def State.maySend (s : State) (r : Req) : Bool :=
  r.role != roleEnergy || (s.nodeOf (field r.payload 0 2)).any (fun n => n.kind == 3 || n.kind == 4)

/-- PLC_SEND (R400). -/
def plcSend (r : Req) : State → State :=
  let dest := field r.payload 0 2
  withLength (within 9 402 r.payload.length) r <| noHandle r fun s =>
  (check (s.maySend r) stRoleDenied r <|
   check ((within 0x0001 0x00FA dest || dest == 0xFFFF) && within 1 2 (field r.payload 2 1) && decide (field r.payload 3 1 ≤ 2)
    && within 0x10 0x1F (field r.payload 4 1)) stParamRange r <|
   needs .cd8 r fun s =>
    let s1 := accept r s
    if dest ≠ 0xFFFF ∧ (s.nodeOf dest).isNone then finish r.wait stOk (le 1 4 ++ [0, 0, 0] ++ le 6 s.time) s1
    else
      dispatch { plcMessage (field r.payload 4 1) (field r.payload 2 1) dest .network (r.payload.drop 8) (.host r.wait 0) with
        prefer := field r.payload 3 1 } s1) s

def execPlcSend (b : Box) (s : State) : Out := request b 0x0603 plcSend s

/-- The nodes a pairing request names. -/
def pairingNodes (bs : List Byte) (n : Nat) : List (List Byte × List Byte) :=
  (List.range n).map (fun i => (slice bs (8 + 24 * i) 8, slice bs (16 + 24 * i) 16))

def pairingState (open_ : Bool) (left : Nat) : List Byte := le 1 (b1 open_) ++ [0] ++ le 2 left

/-- PLC_PAIRING_OPEN (R391, R401). -/
def plcPairingOpen (r : Req) : State → State :=
  let dur := field r.payload 0 2
  let n := field r.payload 2 1
  let id := field r.payload 4 4
  withLength (8 ≤ r.payload.length && r.payload.length == 8 + 24 * n && n ≤ 4) r <| noHandle r <|
  check ((dur == 0 && n == 0) || (within 60 600 dur && within 1 4 n)) stParamRange r <|
  needs .cd8 r fun s =>
    if dur = 0 then acceptDone r stOk (pairingState false 0) (closePairing s)
    else
      (check (s.installerProof id) stLocalConfirmMissing r fun s =>
        let p : Pairing := ⟨s.now + dur * 1000, pairingNodes r.payload n, 0, 0⟩
        acceptDone r stOk (pairingState true dur)
          (raisePairing true 0 (markProofUsed id (s.withBelfry { s.belfry with pairing := some p })))) s

def execPlcPairingOpen (b : Box) (s : State) : Out := request b 0x0604 plcPairingOpen s

/-- One entry of PLC_ROUTE_READ (R402). -/
def routeEntry (x : Route) : List Byte :=
  le 2 x.destination ++ le 2 x.nextHop ++ le 1 (bandNo x.band) ++ le 1 x.hops ++ le 2 x.cost ++ le 6 x.lastUsed ++ [0, 0]

/-- PLC_ROUTE_READ (R402). -/
def plcRouteRead (r : Req) : State → State :=
  withLength (r.payload.length == 4) r <| noHandle r <|
  check (within 1 24 (field r.payload 1 1)) stParamRange r <| needs .cd8 r fun s =>
    let es := (s.belfry.routes.drop (field r.payload 0 1)).take (field r.payload 1 1)
    respond r stOk (le 1 es.length ++ le 1 s.belfry.routes.length ++ [0, 0] ++ es.flatMap routeEntry) s

def execPlcRouteRead (b : Box) (s : State) : Out := request b 0x0605 plcRouteRead s

/-- What PLC_TONEMAP_READ shows of an index: rate, state, age in seconds and map (R402). -/
def LinkDir.view (x : LinkDir) (d : Band) (index now : Nat) : ToneMap × Nat × Nat :=
  let at_ (i : Nat) : Option (ToneMap × Nat) :=
    (x.maps[i]?).bind (fun m => m.map.map (fun t => (t, sat 65535 ((now - m.updated) / 1000))))
  let used := if x.forcedRobust then none else x.current
  if index = 0xFF then
    match used.bind at_ with
    | some t => (t.1, 2, t.2)
    | none => (robustMap d, 3, 0)
  else
    match at_ index with
    | some t => (t.1, if used = some index then 2 else 1, t.2)
    | none => (⟨0, zeros (bandCarriers d / 4)⟩, 0, 0)

/-- PLC_TONEMAP_READ (R402). -/
def plcTonemapRead (r : Req) : State → State :=
  let bandByte := field r.payload 0 1
  let dirByte := field r.payload 1 1
  let index := field r.payload 2 1
  let d : Band := if bandByte = 0 then .low else .upper
  withLength (r.payload.length == 4) r fun s =>
  (check (r.handle != 0) stHandleRequired r <| check (s.current r.handle) stStaleHandle r <|
   check ((s.channelOf r.handle).any (fun c => c.neighbour?.isSome)) stHandleType r <|
   check (decide (bandByte ≤ 1 ∧ dirByte ≤ 1) && (decide (index ≤ 3) || index == 0xFF)) stParamRange r <| needs .cd8 r fun s =>
    match (s.channelOf r.handle).bind (·.neighbour?) with
    | some b => intact (handleSlot r.handle) r (fun s =>
      let v := (b.dir d (if dirByte = 0 then .send else .receive)).view d index s.now
      respond r stOk (r.payload.take 3 ++ le 1 v.1.rate ++ le 1 v.2.1 ++ [0] ++ le 2 v.2.2 ++ le 2 (mapActive d v.1)
        ++ le 2 (mapSymbolBits d v.1) ++ v.1.carriers) s) s
    | none => s) s

def execPlcTonemapRead (b : Box) (s : State) : Out := request b 0x0606 plcTonemapRead s

/-- PLC_NODE_REMOVE (R403): a join by the same node loses at once (W7). -/
def plcNodeRemove (r : Req) : State → State :=
  let a := field r.payload 0 2
  withLength (r.payload.length == 4) r <| noHandle r fun s =>
  (check (s.nodeOf a).isSome stParamRange r <| needs .cd8 r fun s =>
    match s.nodeOf a with
    | some n =>
      let s1 := accept r s
      dispatch (plcMessage 0x7C 1 a .network (fit 8 n.eui) (.leave r.wait n.eui))
        (s1.withBelfry { s1.belfry with joins := s1.belfry.joins.filter (fun j => j.eui != n.eui) })
    | none => s) s

def execPlcNodeRemove (b : Box) (s : State) : Out := request b 0x0607 plcNodeRemove s

end Sys2Proof.Machine
end

