-- ==== Sys2Proof/Machine/Billing.lean ====
section
/-! DEFINITION. Tariffs, demand, billing periods and billing time (chapter 10): time commands, programs, closes, snapshots, and what
the Keep restores at a start (R198, R200, R327, R328). -/

namespace Sys2Proof.Machine

/-! ## Time (R319 to R324) -/

/-- The Keep is in hold (R319). -/
def State.inHold (s : State) : Bool := decide (s.civil < s.keep.billing)

/-- TIME_GET's response (R331). -/
def State.timeBody (s : State) : List Byte :=
  let cfg := s.keep.tariff.settings
  le 6 s.civil ++ le 6 s.keep.billing ++ leInt 2 (localOffset cfg s.keep.billing)
    ++ le 1 (b1 s.inHold * 128 + b1 (s.keep.slewLeft != 0) * 64 + b1 (dstIn cfg s.keep.billing) * 32 + b1 s.keep.uncertain * 16)
    ++ [0] ++ le 4 (s.keep.slewLeft / 1000) ++ le 6 s.keep.lastSet

def timeGet (r : Req) : State → State :=
  withLength r.payload.isEmpty r <| noHandle r <| keepServes r fun s => respond r stOk s.timeBody s

def execTimeGet (b : Box) (s : State) : Out := request b 0x0111 timeGet s

/-- Kind of a time change from civil time `c` to the requested `t` (R320, R332). -/
def timeKind (c t : Nat) : Nat :=
  if t = c then 0 else if c < t then 1 else if c ≤ t + 2000 then 2 else if c ≤ t + 3600000 then 3 else 4

/-- Civil and billing time after a change of the kind (R320). -/
def changeTime (kind t : Nat) (s : State) : State :=
  let k := s.keep
  let base : Keep := { k with slewLeft := 0, slewPart := 0, uncertain := s.power.lostClocks.contains .cd0 }
  if kind = 1 then
    { s with
      civil := t
      keep := { base with
        billing := max k.billing t
        forwardFrom := if k.billing < t then some (((k.forwardFrom.map (·.1)).getD k.billing), t) else k.forwardFrom
        tariff := { k.tariff with flags := k.tariff.flags ||| 32 }
        lastSet := t } }
  else if kind = 2 then s.withKeep { base with slewLeft := (s.civil - t) * 1000, lastSet := w48 s.civil }
  else if kind = 3 ∨ kind = 4 then
    { s with civil := t, keep := { base with tariff := { k.tariff with flags := k.tariff.flags ||| 64 }, lastSet := t } }
  else s.withKeep { base with lastSet := w48 s.civil }

/-- The legal log's two records of a time change (R323, R354). -/
def timeLog (box kind c0 b0 : Nat) (after : Nat) (s : State) : State :=
  if kind = 0 then s
  else
    let tail := le 1 kind ++ le 1 box
    keepLog 0x0041 box (le 6 b0 ++ le 6 s.keep.billing ++ tail) (keepLog 0x0040 box (le 6 c0 ++ le 6 after ++ tail) s)

/-- Boundaries that the walk has processed. -/
def Walk.total (w : Walk) : Nat := w.windows + w.closes + w.switches

/-- A forward step from this billing time causes boundaries: those after it (R332). -/
def State.stepCauses (s : State) (old : Nat) : Bool :=
  let to_ (limit : Nat) := walkTo (s.walkEnv s.keep.forwardFrom false) limit (Walk.start s.keep.demand s.keep.tariff)
  decide ((to_ old).total < (to_ s.keep.billing).total)

/-- TIME_SET (R320, R332): it completes with the boundaries it causes, at once when there are none. -/
def timeSet (r : Req) : State → State :=
  let t := field r.payload 0 6
  let fl := field r.payload 6 1
  withLength (r.payload.length == 8) r <| noHandle r <| keepServes r fun s0 =>
  let s := commitWrite s0
  let kind := timeKind s.time t
  if kind = 4 ∧ fl = 0 then refuse r stTimeStepDenied s
  else
    let s1 := changeTime kind t ((accept r s).withPower { s.power with rcTime := s.power.lostClocks.contains .cd0 })
    let after := if kind = 2 then t else s1.time
    let s2 := timeLog r.box.val kind s.time s.keep.billing after s1
    let w := r.wait 0 (le 6 s.time ++ le 6 after ++ le 6 s2.keep.billing ++ le 1 kind ++ [0])
    if kind = 1 ∧ s2.stepCauses s.keep.billing then s2.withKeep { s2.keep with waiting := s2.keep.waiting ++ [w] }
    else finishTimeSet 0 s2 w

def execTimeSet (b : Box) (s : State) : Out := request b 0x0112 timeSet s

/-- A slew has absorbed its difference (R320). -/
def execSlewComplete (s : State) : Out :=
  if s.aon && decide (s.keep.slewLeft = 0) then .next (s.withKeep { s.keep with slewLeft := 0, slewPart := 0 }) else .next s

/-- Civil time has reached billing time, which follows it again (R319). -/
def execHoldEnd (s : State) : Out :=
  if s.aon && !s.inHold then .next (s.withKeep { s.keep with billing := w48 s.civil }) else .next s

/-! ## Snapshots (R333) -/

/-- Eight maxima of one direction. -/
def maxBytes (v : Vector MaxDemand 8) : List Byte := v.toList.flatMap (fun m => le 4 m.mw ++ le 6 m.time)

/-- A set's values in a SNAPSHOT_READ response, bytes 22 on, every rate among them. -/
def snapshotValues (x : LatchedSet) (mi me : Vector MaxDemand 8) (program : Nat) : List Byte :=
  let t := x.regs.total
  le 1 (legalWraps (mwh t.eai)) ++ le 1 (legalWraps (mwh t.eae)) ++ legalBytes t.eai ++ legalBytes t.eae ++ t.bytes
    ++ rateBytes x.regs.tariffEai 8 ++ rateBytes x.regs.tariffEae 8 ++ maxBytes mi ++ maxBytes me ++ le 4 program
    ++ zeros 4

/-- The running period of one set. -/
def State.runningSnapshot (s : State) (set : Fin 29) : List Byte :=
  let k := s.keep
  let x := k.latched.sets[set]
  le 1 set.val ++ [0] ++ wordBytes x.sticky ++ le 4 k.tariff.period ++ le 6 k.tariff.periodStart ++ zeros 6 ++ [0xFF]
    ++ le 1 (k.tariff.flags ||| (b1 k.uncertain * 8)) ++
    snapshotValues x k.demand.maxImport[set] k.demand.maxExport[set] k.tariff.startProgram

/-- A closed snapshot of one set. -/
def Snapshot.bytes (n : Snapshot) (set : Fin 29) (index : Nat) : List Byte :=
  let x := n.sets[set]
  le 1 set.val ++ le 1 index ++ wordBytes x.sticky ++ le 4 n.period ++ le 6 n.start ++ le 6 n.end_ ++ le 1 n.cause
    ++ le 1 n.flags ++ snapshotValues x n.maxImport[set] n.maxExport[set] n.program

def snapshotRead (r : Req) : State → State :=
  let set := field r.payload 0 1
  let index := field r.payload 1 1
  withLength (r.payload.length == 4) r <| noHandle r fun s =>
  if h : set < 29 then
    if index = 0 then keepServes r (fun s => respond r stOk (s.runningSnapshot ⟨set, h⟩) s) s
    else
      match s.keep.snapshots[index - 1]? with
      | some n =>
        if index ≤ 24 then keepServes r (respond r stOk (n.bytes ⟨set, h⟩ index)) s else refuse r stParamRange s
      | none => refuse r stParamRange s
  else refuse r stParamRange s

def execSnapshotRead (b : Box) (s : State) : Out := request b 0x0504 snapshotRead s

/-! ## BILLING_CLOSE (R334) -/

/-- A close lies less than 60 s back, or one is already asked for (H11). -/
def State.closeBusy (s : State) : Bool :=
  s.keep.closeRequest || s.keep.tariff.lastCloseAt.any (fun t => decide (s.now < t + 60000))

def billingClose (r : Req) : State → State :=
  withLength (r.payload.length == 4) r <| noHandle r <| keepServes r fun s0 =>
  let s := commitWrite s0
  if s.closeBusy then refuse r stBusy s
  else
    let s1 := keepLog 0x0061 r.box.val (le 4 s.keep.tariff.period ++ slice r.payload 0 2) (accept r s)
    s1.withKeep { s1.keep with closeRequest := true, waiting := s1.keep.waiting ++ [r.wait] }

def execBillingClose (b : Box) (s : State) : Out := request b 0x0505 billingClose s

/-! ## TARIFF_ACTIVATE (R311, R335) -/

/-- The instant is a demand interval boundary of the settings in effect (R312). -/
def State.demandAligned (s : State) (t : Nat) : Bool :=
  let cfg := s.keep.tariff.settings
  ((t : Int) + stdOffset cfg * minuteMs) % (setInterval cfg * 60000 : Nat) == 0

/-- First failing check of R311, C08 and C09 against the settings in effect and those committed. -/
def State.activationFault (s : State) (prog : List Byte) : Nat :=
  let c := programFault prog
  if c ≠ 0 then c
  else if !(ruleC08 prog s.tariffCount && ruleC08 prog (getRaw s.rotunda.committed 0x0401 0)) then 6
  else if !(ruleC09 prog (setInterval s.keep.tariff.settings) && ruleC09 prog (setInterval s.rotunda.committed)) then 7
  else 0

/-- The instant at which the program will take effect: its first close not yet processed, which a latch may still owe. -/
def State.effectiveAt (s : State) (when_ instant : Nat) : Nat :=
  let k := s.keep
  let cfg := k.tariff.settings
  if when_ = 2 then instant
  else if when_ = 1 then (nextDemand k.demand.offset k.demand.interval k.demand.mode k.tariff.processedTo).toNat
  else if billingDay cfg = 0 then 0 else (nextBilling cfg (billingDay cfg) k.tariff.processedTo).toNat

def activationDone (effective check : Nat) : List Byte := le 6 effective ++ le 1 check ++ [0]

/-- The program becomes PENDING; one it replaces returns to INACTIVE. -/
def activate (r : Req) (handle when_ instant old : Nat) (s : State) : State :=
  let s1 := match s.keep.tariff.pending with
    | some p => if p.handle = handle then s else programLog r.box.val p.handle 2 1 (setProgram p.handle .inactive s)
    | none => s
  let s2 := setProgram handle .pending (s1.withKeep { s1.keep with
    tariff := { s1.keep.tariff with pending := some ⟨handle, when_, instant⟩ } })
  finish r.wait stOk (activationDone (s.effectiveAt when_ instant) 0) (programLog r.box.val handle old 2 (accept r s2))

def tariffActivate (r : Req) : State → State :=
  let when_ := field r.payload 0 1
  let instant := field r.payload 2 6
  withLength (r.payload.length == 8) r <| withHandle r fun s0 =>
    match (s0.channelOf r.handle).bind Channel.program? with
    | some (st, prog) =>
      check (!(decide (2 < when_ ∨ (when_ ≠ 2 ∧ instant ≠ 0) ∨ (when_ = 2 ∧ instant < s0.keep.billing + 1000))
          || (when_ == 2 && !s0.demandAligned instant))) stParamRange r (keepServes r (fun s0 =>
        let s := commitWrite s0
        if st = .active then refuse r stRefusedState s
        else
          let c := s.activationFault prog
          if c ≠ 0 then acceptDone r (if c ≤ 5 then stParamRange else stCfgConflict) (activationDone 0 c) s
          else activate r r.handle when_ instant st.code s)) s0
    | none => refuse r stHandleType s0

def execTariffActivate (b : Box) (s : State) : Out := request b 0x0506 tariffActivate s

/-- The commit word of the boundary write in progress (R326). -/
def execCommitWordWritten (s : State) : Out := if s.keepUp then .next (commitWrite s) else .next s

/-! ## Restart of the Keep (R198, R200, R327, R328) -/

/-- Boundaries up to an instant, written at once: those up to the cut close windows that are incomplete, and those passed since close the
window that contained the cut as a forward step does, short (R322, R327, R328). -/
def rebuildWrite (cause limit : Nat) (step : Option (Nat × Nat)) (s : State) : State :=
  let e := s.walkEnv step (cause == 3)
  let d := s.keep.demand
  let d0 : Demand := { d with current := { d.current with short := d.current.short || step.isSome } }
  let w := walkTo e limit (Walk.start d0 s.keep.tariff)
  if w.any then
    let b := boundaryWrite { w with tariff := { w.tariff with processedTo := limit } } cause s.keep.latched (cause == 3) s
    commitWrite (s.withKeep { s.keep with
      writing := some { b with save := { b.save with tariff := { b.save.tariff with processedTo := limit } } } })
  else
    w.changed.foldl programChanged (s.withKeep { s.keep with
      tariff := { w.tariff with processedTo := max w.tariff.processedTo limit } })

/-- The sticky words that a save leaves: they restart when its latch was also a billing close (R194). -/
def State.savedSticky (s : State) (l : Latched) : Vector Word16 29 :=
  if s.keep.boundaries.head?.any (fun b => b.latchSeq == l.seq && bit b.kinds 2) then Vector.replicate 29 0
  else l.sets.map (·.sticky)

/-- The state the Keep begins with: everything from the last complete save, RESTORED where no save under R197 preceded the stop (R198); a
program made PENDING since is that still, as its channel has it (R87, R310, R335). -/
def restoreSave (restored : Bool) (s : State) : State :=
  let k := s.keep
  let v : Save := k.saved.getD ⟨Latched.reset, Demand.reset, Tariff.reset, 0⟩
  let resume (x : SubInterval) : SubInterval := { x with start := 0 }
  let d : Demand := { v.demand with
    current := resume v.demand.current, previous := v.demand.previous.map (fun x => { x with start := 0 }) }
  let ago := sat 7920 ((s.now - v.latched.at_) * 8)
  (s.withKeep { k with
    latched := v.latched, latchStrobe := 0, saveStrobe := w32 (4294967296 - ago), sticky := s.savedSticky v.latched
    saving := none, saveWanted := [], cycles := 0, closeNow := false, previous := v.latched.sets.map (·.status)
    restored := restored, marking := none, stopSaved := false, demand := d
    tariff := { v.tariff with pending := k.tariff.pending }
    billing := max s.time v.billing, forwardFrom := none, writing := none, closeRequest := false
    waiting := [] }).withDsp <| Dsp.refreshDelays { s.dsp with
      frequency := none, volts := Vector.replicate 8 false, x16 := Vector.replicate 72 false, words := Vector.replicate 88 0
      reached := Vector.replicate 88 false, holds := Vector.replicate 72 0, clears := Vector.replicate 72 0
      pathAt := Vector.replicate 72 0, pathChanges := Vector.replicate 72 [], taps := Vector.replicate 160 (List.replicate 8 0)
      filters := Vector.replicate 88 (0, 0), delayed := Vector.replicate 8 (List.replicate 48 0)
      releasedAt := s.now, lastCrossing := 0, periods := [], toneAccumulator := 0, tonesStoredAt := s.now
      capture := none, calPending := [], cal := s.calStored
      settings := s.rotunda.applied.filter (fun c => c.field / 256 == 3), settingsPending := none
      feed := Vector.replicate 29 SetFeed.zero, strobe := 0, rotation := none
      tones := s.dsp.tones.map (fun t => { t with
        gain := t.storedGain, phase := t.storedPhase, amplitude := t.storedAmplitude, phasor := t.storedPhasor
        validRun := 0, inBoundRun := 0, amplitudeFails := 0, windowAt := s.now, spoiled := false }) }

/-- States of the TARIFF_PROGRAM channels as the restored tariff state has them (R310). -/
def alignPrograms (s : State) : State :=
  s.setChannels (s.rotunda.channels.map (fun c =>
    match c.body with
    | .program _ bytes =>
      let st : ProgramState :=
        if s.keep.tariff.program = some c.handle then .active
        else if s.keep.tariff.pending.any (fun p => p.handle == c.handle) then .pending else .inactive
      { c with body := .program st bytes }
    | _ => c))

/-- The restart of the Keep: the save restored, then the boundaries up to the cut and those passed since; the window that contains the cut
is incomplete at each start (R327, R328). -/
def restoreKeep (restored : Bool) (cut : Nat) (s : State) : State :=
  let s1 := restoreSave restored s
  let c := min cut s1.keep.billing
  let s2 := rebuildWrite 3 c none s1
  let d := s2.keep.demand
  let s3 := s2.withKeep { s2.keep with demand := { d with current := { d.current with incomplete := true } } }
  alignPrograms (rebuildWrite 4 s3.keep.billing (if c < s3.keep.billing then some (c, s3.keep.billing) else none) s3)

/-! ## The power-fail mark (R199, R200) -/

/-- Unsaved energy of a direction in mWh: since the save, and the mean power times the time since the last latch, each rounded down (R199
gives no rounding). DESIGN CHOICE (log 201). unsafe. -/
def unsavedOf (last saved : Nat) (p : Int) (ms : Nat) : Nat := mwh (last + 79228162514264337593543950336 - saved) + (p.toNat * ms) / 3600000

/-- The mark at a cut that falls now: the time since the last latch is told by model time, which no hold of billing time stops. -/
def State.failMark (s : State) : Mark :=
  let k := s.keep
  let v := k.saved.elim Latched.reset (·.latched)
  let ms := s.now - k.latched.at_
  { unsaved := Vector.ofFn (fun (i : Fin 29) =>
      let a := k.latched.sets[i]
      let b := v.sets[i]
      (unsavedOf a.regs.total.eai b.regs.total.eai a.pMw ms, unsavedOf a.regs.total.eae b.regs.total.eae (-a.pMw) ms))
    lastLatch := k.latched.time }

/-- The unsaved values of one set, saturating (R207). -/
def Mark.entry (m : Option Mark) (i : Nat) : List Byte :=
  match m with
  | some x =>
    let e := x.unsaved.toList.getD i (0, 0)
    le 4 (sat 4294967295 e.1) ++ le 4 (sat 4294967295 e.2)
  | none => zeros 8

/-- The power-fail report: legal log entries and event, after which the mark is gone (R200). -/
def powerFailReport (cut : Nat) (s : State) : State :=
  let m := s.keep.mark
  let saveTime := s.keep.saved.elim 0 (·.latched.time)
  let head := le 6 cut ++ le 6 saveTime ++ le 6 (m.elim saveTime (·.lastLatch))
  let s1 := keepLog 0x0050 originKeep head s
  let s2 := (List.range 15).foldl (fun s i =>
    keepLog 0x0051 originKeep (le 1 (2 * i) ++ le 1 (b1 m.isSome) ++ Mark.entry m (2 * i) ++
      (if i = 14 then zeros 8 else Mark.entry m (2 * i + 1))) s) s1
  let s3 := raise 0x8082 none (head ++ le 1 (b1 m.isSome) ++ [0] ++ (List.range 29).flatMap (Mark.entry m)) s2
  s3.withKeep { s3.keep with mark := none }

end Sys2Proof.Machine
end

