-- ==== Sys2Proof/Machine/Lantern.lean ====
section
/-! DEFINITION. The Lantern observation port (chapter 19): the trace port's messages, the sync and LOST messages, and the counters. -/

namespace Sys2Proof.Machine

/-- TRC_CLK periods in a millisecond (R562). -/
def ticksPerMs : Nat := 61440

/-- A message on the trace port (R564); a sync message follows its preamble (R563). -/
def TraceMsg.bytes (m : TraceMsg) : List Byte :=
  let body := le 1 (m.content.length + 9) ++ le 1 m.source ++ le 1 m.type ++ le 1 m.seq ++ le 4 m.tick ++ m.content
  (if m.type = 0x7E then [0xF0, 0xF0, 0xF0, 0xF0] else []) ++ body ++ le 1 (crc8 0x07 0 body)

/-- Messages of equal ticks in ascending source order (R565). -/
def bySource (ms : List TraceMsg) : List TraceMsg := (List.range 12).flatMap (fun src => ms.filter (fun m => m.source == src))

/-- The messages waiting, in the order in which the port sends them. Those of the present millisecond bear its tick, but for a sync message,
whose tick lies before it (R563, R565). -/
def Lantern.ordered (l : Lantern) : List TraceMsg :=
  bySource (l.buffer.filter (fun m => m.tick != w32 l.tick)) ++ bySource (l.buffer.filter (fun m => m.tick == w32 l.tick))

/-- The levels of TRC_D3 to TRC_D0 at the edges of TRC_CLK, rising edge first, that carry a byte: two nibbles in the four-lane form, four
pairs on TRC_D1 and TRC_D0 in the two-lane form (R562). -/
def traceEdges (twoLane : Bool) (b : Byte) : List Nat :=
  let n := b.toNat
  if twoLane then [n / 64, n / 16 % 4, n / 4 % 4, n % 4] else [n / 16, n % 16]

/-- What the trace port drives for the bytes it has sent, in the form that HP3's mode leaves it (R44, R562). -/
def State.tracePins (s : State) : List Nat := s.lantern.wire.flatMap (traceEdges (s.power.inForce.hp3Mode == 1))

/-- One millisecond of the trace port: everything waiting is sent, and the tick count moves on (R562, R565). -/
def Lantern.run (l : Lantern) : Lantern :=
  { l with
    tick := w64 (l.tick + ticksPerMs)
    counters := l.counters.set 56 (w32 (l.counters[56] + l.buffer.length))
    buffer := []
    wire := l.ordered.flatMap TraceMsg.bytes }

/-- Lantern is released with its counters at 0, or stays in reset (R559). -/
def releaseLantern (on : Bool) (s : State) : State := s.withLantern { Lantern.reset with running := on }

/-- The last tick count that is a multiple of 2^24 (R563). -/
def Lantern.syncTick (l : Lantern) : Nat := l.tick - l.tick % 16777216

/-- A sync message is due: its multiple of 2^24 lies within the millisecond that has just begun, and none has been made for it. -/
def Lantern.syncDue (l : Lantern) : Bool :=
  decide (l.tick - l.syncTick < ticksPerMs) && !l.buffer.any (fun m => m.type == 0x7E)

/-- TRACE_SYNC (R563, R566). -/
def execTraceSync (s : State) : Out :=
  let l := s.lantern
  if s.lanternUp && l.syncDue then
    let flags := b1 s.keep.uncertain * 128 + b1 (s.power.inForce.hp3Mode == 1) * 64
    let s1 := trace 11 0x7E (le 8 l.syncTick ++ le 6 s.time ++ le 1 flags ++ [0]) (s.withLantern { l with tick := l.syncTick })
    .next (count 59 1 (s1.withLantern { s1.lantern with tick := l.tick }))
  else .next s

/-- TRACE_LOST: space has returned in a source's buffer, so its LOST message is posted (R566). -/
def execTraceLost (src : Fin 12) (s : State) : Out :=
  let l := s.lantern
  if s.lanternUp && l.lost[src] != 0 && decide (l.waiting src.val < 32) then
    .next (s.withLantern { l with
      buffer := l.buffer ++ [⟨src.val, 0x7F, l.seqs[src], w32 l.tick, le 2 l.lost[src]⟩]
      seqs := l.seqs.set src (w8 (l.seqs[src] + 1))
      lost := l.lost.set src 0 })
  else .next s

/-- COUNTER_READ (R568). -/
def counterRead (r : Req) : State → State :=
  let first := field r.payload 0 1
  let n := field r.payload 1 1
  withLength (r.payload.length == 4) r <| noHandle r <|
  check (decide (1 ≤ n ∧ first + n ≤ 64)) stParamRange r fun s =>
  if s.lantern.running then
    respond r stOk (le 1 first ++ le 1 n ++ [0, 0] ++ le 8 s.lantern.tick
      ++ ((s.lantern.counters.toList.drop first).take n).flatMap (le 4)) s
  else refuse r stRefusedState s

def execCounterRead (b : Box) (s : State) : Out := request b 0x0A14 counterRead s

end Sys2Proof.Machine
end

