-- ==== Sys2Proof/Machine/Crosspoints.lean ====
section
/-! DEFINITION. The crossing points' own rows: the heartbeats and what their absence means (R27, R28, R39), the gap entry (R36), and
the delivery of session event queue entries to the hosts (R30, R38, R147). -/

namespace Sys2Proof.Machine

/-! ## Allocator input block -/

/-- The first INSTALLER proof issued since a confirmation window opened goes to Steeple and counts as used, once the request record can
be published (R424, O8). -/
def forwardProof (s : State) : State :=
  match s.steeple.window with
  | none => s
  | some w =>
    let mine := s.oculus.proofs.filter (fun p => p.role == 2 && decide (w.openedTime ≤ p.time ∧ s.now < p.at_ + 120000))
    match mine.head? with
    | some p =>
      if mine.any (·.used) || s.rotunda.silent || s.recordFull || !s.serves then s
      else makeRequest 4 none 0 0 p.bytes (markProofUsed p.id s)
    | none => s

/-- ALLOC_INPUT_HEARTBEAT (R27): Rotunda advances the heartbeat, with any proof that waits; an allocator that had taken management as
stopped resumes. -/
def execAllocInputHeartbeat (s : State) : Out :=
  if s.up .cd5 then
    let h := w32 (s.rotunda.published.heartbeat + 1)
    let s1 := forwardProof (s.withRotunda { s.rotunda with published := { s.rotunda.published with heartbeat := h } })
    if s.turretUp then
      let s2 := s1.withTurret { s1.turret with inputHeartbeat := h, inputHeartbeatAt := s.now, inputStale := false }
      .next (if s.turret.inputStale then post none (.allocInput 2) s2 else s2)
    else .next s1
  else .next s

/-- ALLOC_INPUT_STALE (R27): 1000 ms without a change of the heartbeat. -/
def execAllocInputStale (s : State) : Out :=
  if s.turretUp && !s.turret.inputStale && s.due (s.turret.inputHeartbeatAt + 1000) then
    .next (post none (.allocInput 1)
      (s.withTurret { s.turret with inputStale := true, hostDiscarded := true }))
  else .next s

/-- HOST_SURPLUS_EXPIRY (R28): 15 s after its publication the figure is discarded. -/
def execHostSurplusExpiry (s : State) : Out :=
  if s.turretUp && !s.turret.hostDiscarded && s.turret.latched.surplusAt.any (fun t => s.due (t + 15000)) then
    .next (post none (.allocInput 3) (s.withTurret { s.turret with hostDiscarded := true }))
  else .next s

/-! ## Session event queue heartbeat -/

/-- Payload of CONTROL_LOST and CONTROL_BACK: the last heartbeat and the time. -/
def State.controlPayload (s : State) : List Byte := le 4 s.rotunda.queueHeartbeat ++ le 6 s.time

/-- SESSION_EVENT_QUEUE_HEARTBEAT (R39): Turret advances the heartbeat; a control plane taken as silent is back. -/
def execSessionEventQueueHeartbeat (s : State) : Out :=
  if s.turretUp then
    let h := w32 (s.turret.heartbeat + 1)
    let s1 := s.withTurret { s.turret with heartbeat := h }
    if s.serves then
      let s2 := s1.withRotunda { s1.rotunda with silent := false, queueHeartbeat := h, queueHeartbeatAt := s.now }
      .next (if s.rotunda.silent then raise 0x8004 none s2.controlPayload s2 else s2)
    else .next s1
  else .next s

/-- Opcodes whose completion waits for Steeple's outcome (R29). -/
def steepleOps : List Nat := [0x0803, 0x0805, 0x0806, 0x0A05]

/-- The waiting request that an entry of the request record serves. -/
def State.asked (s : State) (number : Nat) : Option Waiting :=
  s.rotunda.waiting.find? (fun w => steepleOps.contains w.opcode && w.argument == number)

/-- A Steeple request no longer waits. -/
def dropAsked (number : Nat) (s : State) : State :=
  s.withRotunda { s.rotunda with
    waiting := s.rotunda.waiting.filter (fun w => !(steepleOps.contains w.opcode && w.argument == number)) }

/-- A published request whose outcome has not come completes CONTROL_SILENT and stays published (R30). -/
def silenceRequest (s : State) (e : RequestEntry) : State :=
  match s.asked e.number with
  | some w => finish w stControlSilent [] (dropAsked e.number s)
  | none => s

/-- CONTROL_LOST (R39): 1000 ms without a change of the queue heartbeat. -/
def execControlLost (s : State) : Out :=
  if s.serves && !s.rotunda.silent && s.due (s.rotunda.queueHeartbeatAt + 1000) then
    let p := s.rotunda.published
    let open_ := p.record.filter (fun e => !e.done)
    let s1 := s.withRotunda { s.rotunda with
      silent := true, published := { p with record := p.record.map (fun e => if e.done then e else { e with silent := true }) } }
    .next (open_.foldl silenceRequest (raise 0x8003 none s1.controlPayload s1))
  else .next s

/-- GAP_ENTRY (R36). -/
def execGapEntry (s : State) : Out := if s.turretUp then .next (postGap s) else .next s

/-! ## Delivery -/

def scopeByte (port : Option Port) : List Byte := le 1 (portByte port)

/-- Event of an entry that becomes one directly (R147, R233, R301); none for the entries handled otherwise. -/
def QEntry.event (e : QEntry) : Option Event :=
  let t := le 6 e.time
  let p := scopeByte e.port
  match e.content with
  | .portState old new_ tr session pilot cable =>
    some ⟨0x8040, e.port, p ++ le 1 old ++ le 1 new_ ++ le 1 tr ++ le 4 session ++ le 1 pilot ++ le 1 cable ++ [0, 0] ++ t⟩
  | .switchOutcome kind result timed blind dur =>
    some ⟨0x8045, e.port, p ++ le 1 kind ++ le 1 result ++ le 1 (bits [blind, timed]) ++ le 2 dur ++ [0, 0] ++ t⟩
  | .residualTest result dc ac => some ⟨0x8046, e.port, p ++ le 1 result ++ le 2 dc ++ le 2 ac ++ [0, 0] ++ t⟩
  | .cable code ohm => some ⟨0x8047, e.port, p ++ le 1 code ++ le 2 ohm ++ t⟩
  | .sessionBegun h st cable => some ⟨0x8041, e.port, le 4 h ++ p ++ le 1 st ++ le 1 cable ++ [0] ++ t⟩
  | .sessionAuthorised h src cap => some ⟨0x8042, e.port, le 4 h ++ p ++ le 1 src ++ [0, 0] ++ le 4 cap ++ t⟩
  | .safety f => some ⟨0x80D0, f.port, f.bytes⟩
  | .shed cause phase site ma readmit =>
    some ⟨0x8071, e.port, p ++ le 1 cause ++ le 1 phase ++ [0] ++ le 4 site ++ le 4 ma ++ le 6 readmit ++ t⟩
  | .readmitted ma => some ⟨0x8072, e.port, p ++ [0, 0, 0] ++ le 4 ma ++ t⟩
  | .siteZone phase old new_ site => some ⟨0x8073, none, le 1 phase ++ le 1 old ++ le 1 new_ ++ [0] ++ le 4 site ++ t⟩
  | .allocInput c => some ⟨0x8074, none, le 1 c ++ [0, 0, 0] ++ t⟩
  | .guardBlind phase blind => some ⟨0x8075, none, le 1 phase ++ le 1 (b1 blind) ++ [0, 0] ++ t⟩
  | .allocChanged period cs =>
    some ⟨0x8070, none, le 4 period ++ t ++ le 1 cs.length ++ [0]
      ++ cs.flatMap (fun c => le 1 c.1 ++ le 1 c.2.1 ++ [0, 0] ++ le 4 c.2.2)⟩
  | .confirmRequired scope port record deadline =>
    some ⟨0x80D1, if scope = 0 then e.port else none, le 1 scope ++ le 1 port ++ [0, 0] ++ le 4 record ++ le 6 deadline⟩
  | .committed payload => some ⟨0x80D2, none, payload⟩
  | .outcome _ _ _ => none
  | .mirrorStale _ => none
  | .memory _ _ _ _ _ => none
  | .gap _ _ _ => none

/-- The completion payload of a request of the record: lock-out resets and commits always carry one, a retirement and a staging only
when they succeed. -/
def outcomePayload (kind status : Nat) (result : List Byte) : List Byte :=
  if kind = 1 ∨ kind = 3 then result.take 12
  else if status ≠ stOk then []
  else if kind = 5 then result.take 12
  else if kind = 2 then result.take 4
  else []

/-- Identifier of the proof an outcome marks as used (R30, R424). -/
def RequestEntry.spentProof (e : RequestEntry) (status : Nat) : Option Nat :=
  if e.kind = 4 then some (field e.data 0 4)
  else if e.kind = 3 ∧ (status = stOk ∨ status = stCheckValueMismatch ∨ status = stParamRange) then some (field e.data 4 4)
  else none

/-- An outcome no host waits for any more (R30). -/
def raiseDone (e : RequestEntry) (status : Nat) (result : List Byte) (time : Nat) (s : State) : State :=
  raise 0x80D3 none (le 4 e.number ++ le 1 e.kind ++ le 1 (ownerCode e.box) ++ le 2 e.seq ++ le 2 status ++ [0, 0]
    ++ result.take 12 ++ le 6 time) s

/-- A request outcome (R30): the entry is done, the proof it used is marked, and its host's request completes. -/
def deliverOutcome (number status : Nat) (result : List Byte) (time : Nat) (s : State) : State :=
  match s.rotunda.published.record.find? (fun e => e.number == number && !e.done) with
  | none => s
  | some e =>
    let s1 := s.withRotunda { s.rotunda with published := { s.rotunda.published with
      record := s.rotunda.published.record.map (fun x => if x.number = number then { x with done := true } else x) } }
    let s2 := (e.spentProof status).elim s1 (fun id => markProofUsed id s1)
    match s.asked number with
    | some w =>
      let s3 := dropAsked number s2
      if s3.alive w.box w.epoch then finish w status (outcomePayload e.kind status result) s3 else raiseDone e status result time s3
    | none => if e.kind = 4 then s2 else raiseDone e status result time s2

/-- A PORT_STATE event makes an indication to the port's bay heads due (R392). -/
def noteIndication (e : QEntry) (s : State) : State :=
  match e.content, e.port with
  | .portState _ _ _ _ _ _, some p =>
    s.withBelfry { s.belfry with indicationDue := s.belfry.indicationDue.set p true }
  | _, _ => s

/-- What Rotunda does with one entry (R147, R30, R476); a stale mirror entry and a gap give no host event. -/
def deliver (e : QEntry) (s : State) : State :=
  match e.event with
  | some ev => raise ev.code ev.port ev.payload (noteIndication e s)
  | none =>
    match e.content with
    | .outcome n st result => deliverOutcome n st result e.time s
    | .memory region kind offset requester cnt =>
      if h : region < 8 then logError ⟨region, h⟩ kind offset requester cnt e.time true s else s
    | _ => s

/-- SESSION_EVENT_DELIVER (R38, R147): the oldest entry is consumed; what Steeple handed over with it is in MRAM by then (R87, R257). -/
def execSessionEventDeliver (s : State) : Out :=
  if s.serves then
    match s.turret.queue with
    | [] => .next s
    | e :: rest => .next (deliver e ((s.withTurret { s.turret with queue := rest }).withSteeple s.steeple.storeSafety))
  else .next s

end Sys2Proof.Machine
end

