-- ==== Sys2Proof/Machine/Keytag.lean ====
section
/-! DEFINITION. A keytag as the reader meets it (R413 to R418): its commands with their answers, the proofs of R416 and R417, and the
standard frame. -/

/-- A block of a keytag: one that is not listed holds zeros at generation 0 (R413). -/
def Sys2Proof.Tag.block (t : Sys2Proof.Tag) (n : Nat) : Sys2Proof.TagBlock :=
  (t.blocks.find? (fun b => b.index == n)).getD ⟨n, 0, Sys2Proof.Machine.zeros 32⟩

/-- A block of a keytag changed. -/
def Sys2Proof.Tag.putBlock (t : Sys2Proof.Tag) (b : Sys2Proof.TagBlock) : Sys2Proof.Tag :=
  { t with blocks := t.blocks.filter (fun x => x.index != b.index) ++ [b] }

namespace Sys2Proof.Machine

/-- CRC_A of a standard frame, as ISO/IEC 14443-3 has it: the lowest bit first, from 0x6363. PRESUMED (log 184). unsafe. -/
def crcA (bs : List Byte) : Nat :=
  bs.foldl (fun c b =>
    (List.range 8).foldl (fun c i => if bit c 0 != bit b.toNat i then (c / 2) ^^^ 0x8408 else c / 2) c) 0x6363

/-- A standard frame: the bytes and their CRC_A. -/
def standardFrame (bs : List Byte) : List Byte := bs ++ le 2 (crcA bs)

def tagVersion (t : Tag) : Nat := if t.kind = .keytagV2 then 2 else 1

def isKeytag (t : Tag) : Bool := t.kind == .keytagV1 || t.kind == .keytagV2

/-! ## What the diversification key gives (R416, R417) -/

/-- The password of a keytag v1. -/
def tagPassword (root uid : List Byte) : List Byte := (cmac root (le 1 1 ++ uid)).take 4

/-- The key K of a keytag v2. -/
def tagKey (root uid : List Byte) : List Byte := cmac root (uid ++ le 1 2)

/-- The tag's proof under a key, and the reader's. -/
def tagProof (k rr rt uid : List Byte) : List Byte := (cmac k (le 1 0x11 ++ rr ++ rt ++ uid)).take 8
def readerProof (k rr rt : List Byte) : List Byte := (cmac k (le 1 0x12 ++ rt ++ rr)).take 8

/-! ## Blocks (R413) -/

/-- The role of block 0, none where its uid is another's or the byte has no meaning (R413, R422). -/
def roleIn (t : Tag) : Nat :=
  let d := (t.block 0).data
  if d.take 10 = fit 10 t.uid ∧ field d 12 1 ≤ 3 then field d 12 1 else 0

/-! ## The commands (R414, R415, R418) -/

/-- A tag as an enumeration leaves it: OPEN, at 106 kbit/s. -/
def PresentedTag.fresh (t : Tag) : PresentedTag := ⟨t, false, false, none, [], 0⟩

/-- A tag selected once more starts in OPEN (R414). -/
def PresentedTag.select (x : PresentedTag) : PresentedTag := { x with secured := false, challenge := none, rate := 0 }

/-- GET_INFO's state. -/
def PresentedTag.stateCode (x : PresentedTag) : Nat :=
  if x.tag.blank then 0 else if x.tag.attemptsLeft = 0 then 3 else if x.secured then 2 else 1

/-- The tag enters SECURED: its attempts are restored (R418). -/
def PresentedTag.secure (x : PresentedTag) : PresentedTag := { x with secured := true, tag := { x.tag with attemptsLeft := 8 } }

/-- One attempt fewer, before it is evaluated (R418). -/
def PresentedTag.spend (x : PresentedTag) : PresentedTag := { x with tag := { x.tag with attemptsLeft := x.tag.attemptsLeft - 1 } }

/-- The tag's answer to a command: status and data, and the tag after it. `g` is block 0's generation after a PERSONALISE, which the manual does
not state. A RESPOND counts only directly after its CHALLENGE; a command that the state or version does not permit is answered 0x01. -/
def PresentedTag.answer (g : Nat) (x0 : PresentedTag) (req : List Byte) : List Byte × PresentedTag :=
  let x : PresentedTag := { x0 with challenge := none }
  let t := x.tag
  let n := field req 1 1
  let no : List Byte × PresentedTag := (le 1 1, x)
  let open_ := !t.blank && !x.secured
  match field req 0 1 with
  | 0xB0 => (le 1 0 ++ le 1 (tagVersion t) ++ le 1 x.stateCode ++ le 1 t.attemptsLeft ++ le 1 t.rates ++ zeros 4, x)
  | 0xB1 =>
    if !t.blank && (x.secured || decide (n ≤ 15)) && decide (n ≤ 63) then
      (le 1 0 ++ fit 32 (t.block n).data ++ le 2 (t.block n).generation, x)
    else no
  | 0xB2 =>
    if x.secured && decide (n ≤ 63) then
      (le 1 0, { x with shadows := x.shadows.filter (fun y => y.1 != n) ++ [(n, slice req 2 32)] })
    else no
  | 0xB3 =>
    if x.secured && decide (n ≤ 63) then (le 1 0 ++ ((x.shadows.find? (fun y => y.1 == n)).elim (zeros 32) (·.2)), x) else no
  | 0xB4 =>
    if x.secured && decide (n ≤ 63) then
      if field req 2 2 ≠ (t.block n).generation then (le 1 2, x)
      else
        let g1 := w16 ((t.block n).generation + 1)
        (le 1 0 ++ le 2 g1, { x with tag := t.putBlock ⟨n, g1, (x.shadows.find? (fun y => y.1 == n)).elim (zeros 32) (·.2)⟩ })
    else no
  | 0xB5 =>
    if !open_ then no
    else if t.attemptsLeft = 0 then (le 1 4, x)
    else if t.obliging || slice req 1 4 == t.password then (le 1 0, x.secure)
    else (le 1 3, x.spend)
  | 0xB6 =>
    if !open_ || t.kind != .keytagV2 then no
    else if t.attemptsLeft = 0 then (le 1 4, x)
    else
      let rr := slice req 1 8
      (le 1 0 ++ fit 8 t.rt ++ tagProof t.key rr (fit 8 t.rt) t.uid, { x.spend with challenge := some rr })
  | 0xB7 =>
    match x0.challenge with
    | some rr => if slice req 1 8 = readerProof t.key rr (fit 8 t.rt) then (le 1 0, x.secure) else (le 1 3, x)
    | none => no
  | 0xB8 => if t.kind == .keytagV2 && decide (n ≤ t.rates) then (le 1 0, { x with rate := n }) else no
  | 0xB9 =>
    if t.blank then
      let t1 : Tag := { t with blank := false, attemptsLeft := 8, password := slice req 1 4, key := slice req 5 16 }
      (le 1 0, { x with tag := t1.putBlock ⟨0, g, slice req 21 32⟩ })
    else no
  | _ => no

/-- One exchange with the tag, by its next fate: the response that arrives, if any, and the tag after it. -/
def PresentedTag.exchange (g : Nat) (x : PresentedTag) (req : List Byte) : Option (List Byte) × PresentedTag :=
  let y : PresentedTag := { x with tag := { x.tag with fates := x.tag.fates.drop 1 } }
  let a := y.answer g req
  match x.tag.fates.head?.getD .ok with
  | .ok => (some a.1, a.2)
  | .unheard => (none, y)
  | .unanswered => (none, a.2)
  | .altered d => (some (a.1.take 1 ++ d), a.2)

end Sys2Proof.Machine
end

