-- ==== Sys2Proof/Machine/Polling.lean ====
section
/-! DEFINITION. How a full poll enumerates the tags in the field (R408 to R411): the bit-oriented anticollision of Type A and the 16-slot
inventory of ISO/IEC 15693, with the frames that Oculus sends for them. -/

namespace Sys2Proof.Machine

/-- The bits of UID bytes in the order in which they go over the air, each byte's least significant bit first, as ISO/IEC 14443-3 and
15693 have them; the first byte of an 8-byte UID is the one sent first. PRESUMED (log 184). unsafe. -/
def airBits (bs : List Byte) : List Bool := lsbFirst bs

/-! ## Type A (R409, R410) -/

/-- The four bytes of a cascade level, 1 to 3: before the last level of a UID they begin with the cascade tag 0x88. -/
def levelBytes (uid : List Byte) (level : Nat) : List Byte :=
  let part := uid.drop (3 * (level - 1))
  if 4 < part.length then 0x88 :: part.take 3 else part.take 4

/-- The level is the last of the UID. -/
def lastLevel (uid : List Byte) (level : Nat) : Bool := decide (uid.length ≤ 3 * (level - 1) + 4)

/-- BCC: the exclusive or of the four bytes. -/
def bccOf (bs : List Byte) : Byte := bs.foldl (· ^^^ ·) 0

/-- The 40-bit SELECT of a level: its four bytes and the BCC that Oculus computes for them. -/
def selectFrame (uid : List Byte) (level : Nat) : ReaderFrame :=
  let v := levelBytes uid level
  .select level (v ++ [bccOf v])

/-- The first bit in which two answers differ, after bit `b`. -/
def collisionBit : Nat → List Bool → List Bool → Option Nat
  | b, x :: xs, y :: ys => if x = y then collisionBit (b + 1) xs ys else some b
  | _, _, _ => none

/-- The first bit in which any answer differs from the first one: a collision. -/
def firstCollision (answers : List (List Bool)) : Option Nat :=
  match answers with
  | [] => none
  | x :: xs => (xs.filterMap (collisionBit 0 x)).foldl (fun (m : Option Nat) b => some (m.elim b (min b))) none

/-- The search below the known bits of a level among the tags that answer there, those of the levels above selected by `path`: at a collision
the branch with 0 comes first and is followed to complete UIDs, each selected, recorded and halted, and then the branch with 1. It ends at
`limit` tags. -/
def searchTypeA : Nat → Nat → List ReaderFrame → Nat → List Bool → List Tag → List ReaderFrame × List Tag
  | 0, _, _, _, _, _ => ([], [])
  | fuel + 1, limit, path, level, known, tags =>
    match tags with
    | [] => ([], [])
    | t :: _ =>
      if limit = 0 then ([], [])
      else
        let ask : List ReaderFrame := if known.length = 32 then [] else [.anticollision level known]
        match firstCollision (tags.map (fun x => airBits (levelBytes x.uid level))) with
        | some b =>
          let common := (airBits (levelBytes t.uid level)).take b
          let branch (v : Bool) : List Tag := tags.filter (fun x => (airBits (levelBytes x.uid level)).getD b false == v)
          let zero := searchTypeA fuel limit path level (common ++ [false]) (branch false)
          let one := searchTypeA fuel (limit - zero.2.length) path level (common ++ [true]) (branch true)
          (ask ++ zero.1 ++ (if one.2.isEmpty then [] else .reqa :: path ++ one.1), zero.2 ++ one.2)
        | none =>
          let pick := selectFrame t.uid level
          if lastLevel t.uid level then (ask ++ [pick, .hlta], [t])
          else
            let below := searchTypeA fuel limit (path ++ [pick]) (level + 1) [] tags
            (ask ++ pick :: below.1, below.2)

/-! ## ISO/IEC 15693 (R411) -/

/-- The slot in which a tag answers an inventory under a mask: the 4 bits after the mask; none where the mask does not fit. -/
def slotOf (mask : List Bool) (t : Tag) : Option Nat :=
  let bs := airBits t.uid
  if bs.take mask.length = mask then some (bits ((bs.drop mask.length).take 4)) else none

/-- The 4 bits of a slot, least significant first. -/
def slotBits (n : Nat) : List Bool := (List.range 4).map (fun i => bit n i)

/-- One inventory of 16 slots: a tag alone in its slot is read and told to stay quiet; afterwards every slot in which two or more have
answered is resolved under the extended mask, in slot order, while the mask does not pass 60 bits. The order is the model's. DESIGN CHOICE
(log 184). unsafe. -/
def inventory (full : Bool) : Nat → List Bool → List Tag → List ReaderFrame × List Tag
  | 0, _, _ => ([], [])
  | fuel + 1, mask, tags =>
    let inSlot (n : Nat) : List Tag := tags.filter (fun t => slotOf mask t == some n)
    let alone := (List.range 16).filterMap (fun n => match inSlot n with
      | [t] => some t
      | _ => none)
    let crowded := (List.range 16).filter (fun n => decide (1 < (inSlot n).length))
    let more := if 60 < mask.length + 4 then [] else crowded.map (fun n => inventory full fuel (mask ++ slotBits n) (inSlot n))
    (.inventory full mask :: alone.map (fun t => .stayQuiet full t.uid) ++ more.flatMap (·.1), alone ++ more.flatMap (·.2))

/-! ## A full poll and a check (R408) -/

/-- A full poll: the frames sent and the tags enumerated, at most 8, Type A first. -/
def fullPoll (typeA iso full : Bool) (field : List Tag) : List ReaderFrame × List Tag :=
  let as := field.filter (fun t => t.kind != .iso15693)
  let vs := field.filter (fun t => t.kind == .iso15693)
  let a := if typeA then searchTypeA 128 8 [] 1 [] as else ([], [])
  let v := if iso then inventory full 17 [] vs else ([], [])
  ((if typeA then [.reqa] else []) ++ a.1 ++ v.1, (a.2 ++ v.2).take 8)

/-- The frames of a check on a presented tag: WUPA and SELECT of every level, or an inventory with the full UID as mask. -/
def checkFrames (full : Bool) (t : Tag) : List ReaderFrame :=
  if t.kind = .iso15693 then [.inventory full (airBits t.uid)]
  else .wupa :: ((List.range 3).filter (fun i => i = 0 || !lastLevel t.uid i)).map (fun i => selectFrame t.uid (i + 1))

end Sys2Proof.Machine
end

