-- ==== Sys2Proof/Machine/Oculus.lean ====
section
/-! DEFINITION. The reader: pings and presentations, the treatment of taps, proofs, held taps, keytag transactions and block writes,
the authorisation list and the reader's commands (chapter 13). -/

namespace Sys2Proof.Machine

/-! ## Tags -/

def tagKindCode : TagKind → Nat
  | .keytagV1 => 1
  | .keytagV2 => 2
  | .typeA => 3
  | .iso15693 => 4

/-- Cupola can serve the reader's key operations (R416, R417, R453). -/
def State.cupolaServes (s : State) : Bool :=
  s.up .cd7 && s.cupola.rootOk && !s.cupola.zeroized && (s.cupola.slots[0]).key.isSome

/-- Role taken (R422): 0 none, 1 USER, 2 INSTALLER, 3 OWNER. A keytag v2's is that of its block 0 once it has passed R417. -/
def tagRole (x : PresentedTag) : Nat := if x.tag.kind = .keytagV2 then if x.passed then roleIn x.tag else 0 else 1

def State.antenna (s : State) (a : Fin 2) : Antenna := if a = 0 then s.oculus.ant0 else s.oculus.ant1

def State.modAntenna (s : State) (a : Fin 2) (f : Antenna → Antenna) : State :=
  if a = 0 then s.withOculus { s.oculus with ant0 := f s.oculus.ant0 } else s.withOculus { s.oculus with ant1 := f s.oculus.ant1 }

/-- The reader runs, its field not off for hold-up, and the antenna is enabled (R430, R509, R549). -/
def State.readerRuns (s : State) : Bool := s.up .cd9 && s.cfg 0x0601 0 == 1 && s.oculus.vddtxGood && !s.power.holdUp
def State.antennaOn (s : State) (a : Fin 2) : Bool := bit (s.cfg 0x0602 0) a.val

/-- An authentication noted, for the 100 ms between attempts on one UID (R418). -/
def noteAuth (uid : List Byte) (s : State) : State :=
  s.withOculus { s.oculus with
    lastAuth := s.oculus.lastAuth.filter (fun x => x.1 != uid && decide (s.now < x.2 + 300)) ++ [(uid, s.now)] }

/-! ## Exchanges with a keytag (R405, R414 to R418) -/

/-- The tags of the presentation on an antenna. -/
def State.tagsOn (s : State) (a : Fin 2) : List PresentedTag := (s.antenna a).presentation.elim [] (·.tags)

def State.tagOn (s : State) (a : Fin 2) (uid : List Byte) : Option PresentedTag := (s.tagsOn a).find? (fun x => x.tag.uid == uid)

/-- A tag as it is now. -/
def State.tagNow (s : State) (a : Fin 2) (x : PresentedTag) : PresentedTag := (s.tagOn a x.tag.uid).getD x

def modPresentation (a : Fin 2) (f : Presentation → Presentation) (s : State) : State :=
  s.modAntenna a (fun x => { x with presentation := x.presentation.map f })

/-- A tag of the presentation on an antenna changed. -/
def modTag (a : Fin 2) (uid : List Byte) (f : PresentedTag → PresentedTag) (s : State) : State :=
  modPresentation a (fun p => { p with tags := p.tags.map (fun x => if x.tag.uid = uid then f x else x) }) s

/-- The carrier on an antenna: the other one's field ends, and with it the selections of its tags (R405, R414). -/
def drive (a : Fin 2) (s : State) : State :=
  if s.oculus.driven = some a then s
  else modPresentation (1 - a) (fun p => { p with tags := p.tags.map PresentedTag.select })
    (s.withOculus { s.oculus with driven := some a })

/-- The carrier off. -/
def carrierOff (s : State) : State := s.withOculus { s.oculus with driven := none }

/-- No field at all: every selection ends with it (R414). -/
def fieldOff (s : State) : State :=
  let off (a : Fin 2) : State → State := modPresentation a (fun p => { p with tags := p.tags.map PresentedTag.select })
  carrierOff (off 1 (off 0 s))

/-- TX1 and TX2 of an antenna port are held low: it is not being driven (R405). -/
def State.antennaLow (s : State) (a : Fin 2) : Bool := !s.readerRuns || s.oculus.driven != some a

/-- A keytag command sent. -/
def noteCommand (rate : Nat) (req : List Byte) (s : State) : State :=
  s.withOculus { s.oculus with sent := s.oculus.sent ++ [.command rate (standardFrame req)] }

/-- One exchange with a keytag of the presentation: the response that arrives, if any (R415). -/
def exchange (a : Fin 2) (uid req : List Byte) (s : State) : Option (List Byte) × State :=
  match s.tagOn a uid with
  | none => (none, s)
  | some x =>
    let r := x.exchange (s.drawn % 65536) req
    (r.1, modTag a uid (fun _ => r.2) (noteCommand x.rate req s.draw))

/-- The response says done; its data. -/
def doneWith (r : Option (List Byte)) : Option (List Byte) := r.bind (fun bs => if field bs 0 1 = 0 ∧ bs ≠ [] then some (bs.drop 1) else none)

/-- The last authentication of a UID lies at least 100 ms back (R418). -/
def State.mayAuthenticate (s : State) (uid : List Byte) : Bool :=
  s.oculus.lastAuth.all (fun x => x.1 != uid || decide (x.2 + 100 ≤ s.now))

/-- The keytag diversification key, while Cupola serves (R416, R417). -/
def State.divKey (s : State) : List Byte := (s.cupola.slots[0]).key.getD []

/-- What a keytag v2's answer to CHALLENGE proves: status, Rt and the tag's proof under the key K (R417). -/
def challengePassed (k rr uid : List Byte) (r : Option (List Byte)) : Option (List Byte) :=
  (doneWith r).bind (fun bs => if bs.length = 16 ∧ bs.drop 8 = tagProof k rr (bs.take 8) uid then some (bs.take 8) else none)

/-- The challenge and response of a keytag v2 (R417). -/
def runChallenge (a : Fin 2) (uid : List Byte) (s : State) : Bool × State :=
  let k := tagKey s.divKey uid
  let rr := s.drawnBytes 8
  let x := exchange a uid (le 1 0xB6 ++ rr) s.draw
  match challengePassed k rr uid x.1 with
  | some rt =>
    let y := exchange a uid (le 1 0xB7 ++ readerProof k rr rt) x.2
    ((doneWith y.1).isSome, y.2)
  | none => (false, x.2)

/-- The PASSCODE of a keytag v1 (R416). -/
def runPasscode (a : Fin 2) (uid : List Byte) (s : State) : Bool × State :=
  let y := exchange a uid (le 1 0xB5 ++ tagPassword s.divKey uid) s
  ((doneWith y.1).isSome, y.2)

/-- One authentication attempt on a keytag (R416 to R418), with Cupola's part in it; a failed one is counted (R433). Without Cupola none is made. -/
def attempt (a : Fin 2) (t : Tag) (s : State) : Bool × State :=
  let ready := s.cupolaServes && (t.kind != .keytagV2 || s.cupola.rngHealthy)
  let s1 := noteAuth t.uid (modPresentation a (fun p => { p with attempted := true }) s)
  let r := if !ready then (false, s)
    else if t.kind = .keytagV2 then runChallenge a t.uid (countAt 53 1 s1)
    else runPasscode a t.uid s1
  let s2 := if ready then traceEnclave 2 2 (b1 !r.1) r.2 else r.2
  if r.1 then (true, modTag a t.uid (fun x => { x with passed := t.kind == .keytagV2 }) s2)
  else (false, s2.withOculus { s2.oculus with authFailures := w32 (s2.oculus.authFailures + 1) })

/-- SECURED wanted of a keytag: it is already, or one attempt is made where the presentation has had none and the last one on the UID lies 100 ms
back (R414, R418). A keytag that is not SECURED any more and may not be attempted counts as failed. DESIGN CHOICE (log 207). unsafe. -/
def secureTag (a : Fin 2) (x0 : PresentedTag) (s : State) : Bool × State :=
  let x := s.tagNow a x0
  if x.secured then (true, s)
  else if (s.antenna a).presentation.any (fun p => !p.attempted) && s.mayAuthenticate x.tag.uid then attempt a x.tag s
  else (false, s)

/-- The authentication of a keytag v2 at a tap (R427); no other tag is authenticated for one. -/
def authenticateTap (a : Fin 2) (x : PresentedTag) (s : State) : State := if x.tag.kind = .keytagV2 then (secureTag a x s).2 else s

/-- One block read: generation and data, or the response's status where it is not done. -/
def readBlock (a : Fin 2) (uid : List Byte) (n : Nat) (s : State) : (TagBlock ⊕ Option Nat) × State :=
  let r := exchange a uid (le 1 0xB1 ++ le 1 n) s
  match doneWith r.1 with
  | some bs => if bs.length = 34 then (.inl ⟨n, field bs 32 2, bs.take 32⟩, r.2) else (.inr none, r.2)
  | none => (.inr (r.1.map (fun bs => field bs 0 1)), r.2)

/-! ## Pending write records (R421) -/

/-- TAG_WRITE_SETTLED (R439). -/
def raiseSettled (w : PendingWrite) (result generation : Nat) (s : State) : State :=
  raise 0x80C1 none (le 1 w.uid.length ++ le 1 w.block ++ le 1 result ++ [0] ++ fit 10 w.uid ++ le 2 generation ++ le 6 s.time) s

/-- The pending records written, to the older of their two copies (R87, R421). -/
def State.writePending (s : State) (l : List PendingWrite) : State :=
  s.withOculus { s.oculus with pendingWrites := l, pendingTwin := s.oculus.pendingTwin.write s.oculus.pendingWrites }

def dropPending (w : PendingWrite) (s : State) : State :=
  s.writePending (s.oculus.pendingWrites.filter (fun x => x != w))

/-- An uncertain write kept; the 17th drops the oldest. -/
def keepPending (w : PendingWrite) (s : State) : State :=
  match s.oculus.pendingWrites with
  | old :: rest =>
    if 16 ≤ rest.length + 1 then
      raiseSettled old 3 old.generation (s.writePending (rest.drop (rest.length - 15) ++ [w]))
    else s.writePending (old :: rest ++ [w])
  | [] => s.writePending [w]

/-- One record settled by the block as read, after an authentication for a block above 15; it stays where the block cannot be read. -/
def settlePending (a : Fin 2) (x : PresentedTag) (s0 : State) (w : PendingWrite) : State :=
  let s := if 15 < w.block then (secureTag a x s0).2 else s0
  let r := readBlock a w.uid w.block s
  match r.1 with
  | .inl b =>
    let result := if b.generation = w16 (w.generation + 1) ∧ sha256 b.data = w.digest then 0
      else if b.generation = w.generation then 1 else 2
    raiseSettled w result b.generation (dropPending w r.2)
  | .inr _ => r.2

/-- Before anything else is done with a tag its records are settled (R421, O7). -/
def settleTag (a : Fin 2) (x : PresentedTag) (s : State) : State :=
  (s.oculus.pendingWrites.filter (fun w => w.uid == x.tag.uid)).foldl (settlePending a x) s

/-! ## Keytag operations of transactions (R419, R420, R434 to R436) -/

def State.txnOn (s : State) (a : Fin 2) : Option (Channel × TxnBody) :=
  s.rotunda.channels.findSome? (fun c => c.txn?.bind (fun b => if b.antenna = a then some (c, b) else none))

def readPayload (t : Tag) (role : Nat) (blocks : List TagBlock) : List Byte :=
  le 1 7 ++ le 1 (tagVersion t) ++ le 1 role ++ le 1 t.attemptsLeft ++ fit 10 t.uid ++ le 1 blocks.length ++ [0]
    ++ blocks.flatMap (fun b => le 2 b.generation ++ fit 32 b.data)

def writePayload (uid : List Byte) (done : List (Nat × Nat × Nat)) : List Byte :=
  le 1 7 ++ [0, 0, 0] ++ fit 10 uid ++ le 1 done.length ++ [0] ++ done.flatMap (fun x => le 1 x.1 ++ le 1 x.2.1 ++ le 2 x.2.2)

def provisionPayload (uid : List Byte) (version role generation : Nat) : List Byte :=
  le 1 7 ++ le 1 version ++ le 1 role ++ [0] ++ fit 10 uid ++ le 2 generation

/-- Completion payload of a write, by the transaction's operation. -/
def writtenPayload (b : TxnBody) (uid : List Byte) (version : Nat) (done : List (Nat × Nat × Nat)) : List Byte :=
  if b.op = 3 then provisionPayload uid version (field b.request 3 1) (done.head?.elim 0 (·.2.2)) else writePayload uid done

/-- Entries left as not attempted. -/
def notAttempted (rest : List (Nat × Nat × List Byte)) : List (Nat × Nat × Nat) := rest.map (fun x => (x.1, 3, 0))

/-- How the write of one block ends (R419, R420): written, the generation differed, not written, or lost at the commit or at the confirming read. -/
inductive BlockEnd where
  | written | differs | notWritten
  | lost (atConfirm : Bool)
  deriving DecidableEq, Repr

/-- Steps 1 and 2 of R419: the data placed in the inactive copy and read back, once more after a mismatch; done, or not written. -/
def writeShadow (a : Fin 2) (uid : List Byte) (n : Nat) (data : List Byte) : Nat → State → Bool × State
  | 0, s => (false, s)
  | tries + 1, s =>
    let w := exchange a uid (le 1 0xB2 ++ le 1 n ++ fit 32 data) s
    if (doneWith w.1).isNone then (false, w.2)
    else
      let r := exchange a uid (le 1 0xB3 ++ le 1 n) w.2
      match doneWith r.1 with
      | some bs => if bs = fit 32 data then (true, r.2) else writeShadow a uid n data tries r.2
      | none => (false, r.2)

/-- One block written by the steps of R419; `g` is its generation before. An answer to COMMIT or to the confirming read that is none of
those the manual names counts as lost. DESIGN CHOICE (log 207). unsafe. -/
def writeBlock (a : Fin 2) (uid : List Byte) (n g : Nat) (data : List Byte) (s : State) : BlockEnd × State :=
  let x := writeShadow a uid n data 2 s
  if !x.1 then (.notWritten, x.2)
  else
    let c := exchange a uid (le 1 0xB4 ++ le 1 n ++ le 2 g) x.2
    match c.1 with
    | none => (.lost false, c.2)
    | some bs =>
      if field bs 0 1 = 2 then (.differs, c.2)
      else if field bs 0 1 = 1 then (.notWritten, c.2)
      else if bs = le 1 0 ++ le 2 (w16 (g + 1)) then
        let r := readBlock a uid n c.2
        (if r.1 = .inl ⟨n, w16 (g + 1), fit 32 data⟩ then .written else .lost true, r.2)
      else (.lost false, c.2)

/-- The generation of a block before its write: the one expected, or the one read at start (R435). -/
def generationAt (a : Fin 2) (uid : List Byte) (n g : Nat) (s : State) : Option Nat × State :=
  if g ≠ 0xFFFF then (some g, s)
  else
    let r := readBlock a uid n s
    (match r.1 with
      | .inl b => some b.generation
      | .inr _ => none, r.2)

/-- The generation the tag has of a block. -/
def State.generationOf (s : State) (a : Fin 2) (uid : List Byte) (n : Nat) : Nat := (s.tagOn a uid).elim 0 (fun x => (x.tag.block n).generation)

/-- Blocks written in order (R419, R435): the first that is not written ends the run, and a lost field at the commit or after it is
settled by reaching the tag again (R420). -/
def writeBlocks (c : Channel) (b : TxnBody) (uid : List Byte) (version : Nat) :
    List (Nat × Nat × List Byte) → List (Nat × Nat × Nat) → State → State
  | [], done, s => endTxn c b stOk (writtenPayload b uid version done) s
  | (n, g, data) :: rest, done, s =>
    let p := generationAt b.antenna uid n g s
    match p.1 with
    | none =>
      endTxn c b stTagAbsent (writtenPayload b uid version (done ++ [(n, 3, p.2.generationOf b.antenna uid n)] ++ notAttempted rest)) p.2
    | some cur =>
      let x := writeBlock b.antenna uid n cur data p.2
      let now_ := x.2.generationOf b.antenna uid n
      match x.1 with
      | .written => writeBlocks c b uid version rest (done ++ [(n, 0, now_)]) x.2
      | .differs => endTxn c b stRefusedState (writtenPayload b uid version (done ++ [(n, 1, now_)] ++ notAttempted rest)) x.2
      | .notWritten => endTxn c b stTagAbsent (writtenPayload b uid version (done ++ [(n, 3, now_)] ++ notAttempted rest)) x.2
      | .lost late =>
        x.2.withOculus { x.2.oculus with reach := some ⟨b.antenna, uid, n, cur, fit 32 data, x.2.now, late, done, rest, version, b, c.slot⟩ }

/-- Blocks of a read, until one does not answer, with the status that ended them. -/
def readBlocks (a : Fin 2) (uid : List Byte) : List Nat → State → (List TagBlock × Option Nat) × State
  | [], s => (([], some 0), s)
  | n :: rest, s =>
    let r := readBlock a uid n s
    match r.1 with
    | .inl b =>
      let more := readBlocks a uid rest r.2
      ((b :: more.1.1, more.1.2), more.2)
    | .inr st => (([], st), r.2)

/-- The bit rate that rdr_rate and the keytag v2 allow, or 106 kbit/s (R409). -/
def setRate (a : Fin 2) (x : PresentedTag) (rate : Nat) (s : State) : State :=
  if x.tag.kind = .keytagV2 ∧ rate ≠ x.rate then (exchange a x.tag.uid (le 1 0xB8 ++ le 1 rate) s).2 else s

/-- TAG_READ on the tag taken (R434), a keytag v2 at the highest rate allowed (R409). A status that permits no read, as of a blank keytag, ends
in REFUSED_STATE. DESIGN CHOICE (log 207). unsafe. -/
def readTag (c : Channel) (b : TxnBody) (x0 : PresentedTag) (s : State) : State :=
  let first := field b.request 3 1
  let n := field b.request 14 1
  let p := if 16 < first + n then secureTag b.antenna x0 s else (true, s)
  let payload (s : State) (bs : List TagBlock) : List Byte := readPayload (s.tagNow b.antenna x0).tag (tagRole (s.tagNow b.antenna x0)) bs
  if !p.1 then endTxn c b stTagAuthFailed (payload p.2 []) p.2
  else
    let r := readBlocks b.antenna x0.tag.uid ((List.range n).map (· + first))
      (setRate b.antenna (p.2.tagNow b.antenna x0) (min (p.2.cfg 0x0607 0) x0.tag.rates) p.2)
    endTxn c b (match r.1.2 with
      | some 0 => stOk
      | some _ => stRefusedState
      | none => stTagAbsent) (payload r.2 r.1.1) r.2

/-- Entries of a TAG_WRITE request. -/
def writeEntries (bs : List Byte) (n : Nat) : List (Nat × Nat × List Byte) :=
  (List.range n).map (fun i => (field bs (16 + 36 * i) 1, field bs (18 + 36 * i) 2, slice bs (20 + 36 * i) 32))

/-- Block 0 as Oculus writes it (R413). -/
def State.block0 (s : State) (uid : List Byte) (version role label : Nat) : List Byte :=
  fit 10 uid ++ le 1 7 ++ le 1 version ++ le 1 role ++ [0] ++ le 6 s.time ++ le 8 s.power.serial ++ le 4 label

/-- TAG_WRITE on the tag taken (R435), at 106 kbit/s (R419). -/
def writeTag (c : Channel) (b : TxnBody) (x : PresentedTag) (s : State) : State :=
  let p := secureTag b.antenna x s
  if p.1 then
    writeBlocks c b x.tag.uid (tagVersion x.tag) (writeEntries b.request (field b.request 3 1)) []
      (setRate b.antenna (p.2.tagNow b.antenna x) 0 p.2)
  else endTxn c b stTagAuthFailed (writePayload x.tag.uid []) p.2

/-- The request of PERSONALISE: Cupola derives the password of a keytag v1, or the key of a keytag v2; the other of the two is zeros. DESIGN
CHOICE (log 207) for the password of a keytag v2. unsafe. -/
def State.personaliseRequest (s : State) (t : Tag) (data : List Byte) : List Byte :=
  let v2 := t.kind == .keytagV2
  le 1 0xB9 ++ (if v2 then zeros 4 else tagPassword s.divKey t.uid) ++ (if v2 then tagKey s.divKey t.uid else zeros 16) ++ fit 32 data

/-- A blank keytag personalised (R415, R436). Where no response comes, the tag may have block 0 or not: a write that is uncertain. -/
def personalise (c : Channel) (b : TxnBody) (x : PresentedTag) (s : State) : State :=
  let t := x.tag
  let data := s.block0 t.uid (tagVersion t) (field b.request 3 1) (field b.request 4 4)
  let pay := provisionPayload t.uid (tagVersion t) (field b.request 3 1)
  if !s.cupolaServes then endTxn c b stZeroized (pay 0) s
  else
    let r := exchange b.antenna t.uid (s.personaliseRequest t data) (traceEnclave 2 2 0 s)
    match r.1 with
    | none => endTxn c b stWriteUncertain (pay 0) (keepPending ⟨t.uid, 0, 0, sha256 data, s.time⟩ r.2)
    | some bs =>
      if field bs 0 1 = 0 then endTxn c b stOk (pay (r.2.generationOf b.antenna t.uid 0)) r.2 else endTxn c b stRefusedState (pay 0) r.2

/-- TAG_PROVISION on the tag taken (R436). -/
def provisionTag (c : Channel) (b : TxnBody) (x : PresentedTag) (s : State) : State :=
  let t := x.tag
  let op := field b.request 2 1
  let role := field b.request 3 1
  let none_ := provisionPayload t.uid (tagVersion t) 0 0
  if op = 0 then
    if !t.blank || (t.kind == .keytagV1 && role != 1) then endTxn c b stRefusedState none_ s else personalise c b x s
  else if t.kind = .keytagV1 then endTxn c b stRefusedState none_ s
  else
    let p := secureTag b.antenna x s
    if p.1 then
      writeBlocks c b t.uid 2 [(0, 0xFFFF, s.block0 t.uid 2 role (field b.request 4 4))] []
        (setRate b.antenna (p.2.tagNow b.antenna x) 0 p.2)
    else endTxn c b stTagAuthFailed none_ p.2

/-- The payload of a transaction that took a keytag and did nothing with it. -/
def takenPayload (b : TxnBody) (x : PresentedTag) : List Byte :=
  if b.op = 1 then readPayload x.tag (tagRole x) []
  else if b.op = 2 then writePayload x.tag.uid []
  else provisionPayload x.tag.uid (tagVersion x.tag) 0 0

/-- A transaction takes a tag (R432): its records are settled first, then the operation runs. -/
def takeTag (slot : Nat) (b : TxnBody) (x0 : PresentedTag) (tap : Nat) (s0 : State) : State :=
  let b1 : TxnBody := { b with state := 1, tap := tap }
  let s := settleTag b.antenna x0 (drive b.antenna (setBody slot (.txn b1) s0))
  let x := s.tagNow b.antenna x0
  match s.channelAt slot with
  | none => s
  | some c =>
    if !isKeytag x.tag then endTxn c b1 stRefusedState noTagPayload s
    else if x.tag.attemptsLeft = 0 && !x.tag.blank then endTxn c b1 stTagLocked (takenPayload b x) s
    else if b.op = 1 then readTag c b1 x s
    else if b.op = 2 then writeTag c b1 x s
    else provisionTag c b1 x s

/-- The tag of a presentation that a transaction's filter names. -/
def TxnBody.picks (b : TxnBody) (tags : List PresentedTag) : Option PresentedTag :=
  if b.uid.isEmpty then tags.head? else tags.find? (fun x => x.tag.uid == b.uid)

/-! ## Proofs (R423) -/

/-- A proof issued; a fifth drops the oldest. -/
def issueProof (a : Fin 2) (uid : List Byte) (role : Nat) (s : State) : Nat × State :=
  let id := s.drawn % 0xFFFFFFFF + 1
  let p : Proof := ⟨id, role, a, uid, s.time, s.now, false⟩
  let s1 := (countAt 53 1 s.draw).withOculus { s.oculus with
    proofs := (s.oculus.proofs ++ [p]).drop (s.oculus.proofs.length + 1 - 4) }
  (id, forwardProof s1)

/-! ## Treatment of a tap (R425 to R428) -/

/-- An entry matches a tag (R425). -/
def AuthEntry.matches (e : AuthEntry) (t : Tag) : Bool :=
  e.uid == t.uid && (e.kind == 0 || (e.kind == 1 && isKeytag t) || (e.kind == 2 && t.kind == .iso15693))

/-- It is valid from valid_from up to valid_until. -/
def AuthEntry.valid (e : AuthEntry) (time : Nat) : Bool :=
  decide (e.validFrom ≤ time) && (e.validUntil == 0 || decide (time < e.validUntil))

def State.listEntryFor (s : State) (t : Tag) : Option AuthEntry :=
  s.oculus.list.find? (fun e => e.matches t && e.valid s.time)

/-- Candidate ports of a tap (R426). -/
def State.isTapCandidate (s : State) (a : Fin 2) (uid : List Byte) (time : Nat) (p : Port) : Bool :=
  let l := s.lane p
  let inSpan (t : Nat) : Bool := decide (t ≤ time ∧ time ≤ t + 120000)
  bit (s.cfg 0x0608 0) a.val &&
    match s.portSession p with
    | some (_, b) =>
      (b.state == .opened && inSpan b.plugTime) ||
        (b.state == .interrupted && l.state == .connected && l.interrupted && b.identity == fit 16 uid && inSpan l.connectedTime)
    | none => false

def State.tapCandidates (s : State) (a : Fin 2) (uid : List Byte) (time : Nat) : List Port :=
  allPorts.filter (s.isTapCandidate a uid time)

/-- The session commands reach the port (R405, R428, O4). -/
def State.canAuthorise (s : State) : Bool := s.serves && !s.rotunda.silent

/-- A candidate port's session authorised, or continued for a port under R135. -/
def authorisePort (p : Port) (source cap : Nat) (uid : List Byte) (s : State) : State :=
  match s.portSession p with
  | some (_, b) => if b.state = .interrupted then continueSession p source cap (fit 16 uid) s else authoriseSession p source cap (fit 16 uid) s
  | none => s

/-- A held tap kept; a ninth drops the oldest (R428). -/
def holdTap (a : Fin 2) (uid : List Byte) (tap : Nat) (s : State) : State :=
  s.withOculus { s.oculus with
    held := (s.oculus.held ++ [(⟨tap, s.time, s.now, a, uid⟩ : HeldTap)]).drop (s.oculus.held.length + 1 - 8) }

/-- What a tap came to: outcome, bound port, proof. -/
structure TapResult where
  outcome : Nat
  port : Option Port
  proof : Nat
  deriving DecidableEq, Repr

/-- Outcomes 5 to 9 and 4 to 1 of a single tag (R427), authenticated where it is a keytag v2. -/
def treatSingle (a : Fin 2) (x0 : PresentedTag) (tap : Nat) (s : State) : TapResult × State :=
  let t := x0.tag
  let entry := s.listEntryFor t
  let cands := s.tapCandidates a t.uid s.time
  if isKeytag t && t.attemptsLeft == 0 && !t.blank then (⟨8, none, 0⟩, s)
  else
    let s1 := authenticateTap a x0 s
    let x := s1.tagNow a x0
    let role := tagRole x
    if t.kind == .keytagV2 && !x.passed then (⟨7, none, 0⟩, s1)
    else if role = 2 ∨ role = 3 then
      let y := issueProof a t.uid role s1
      (⟨5, none, y.1⟩, y.2)
    else if entry.any (·.deny) then (⟨9, none, 0⟩, s1)
    else
      match cands with
      | [] => (⟨4, none, 0⟩, s1)
      | [p] =>
        match entry with
        | some e =>
          if s1.canAuthorise then (⟨1, some p, 0⟩, authorisePort p 2 e.capMa t.uid s1)
          else (⟨2, none, 0⟩, holdTap a t.uid tap s1)
        | none => (⟨2, none, 0⟩, holdTap a t.uid tap s1)
      | _ => (⟨3, none, 0⟩, holdTap a t.uid tap s1)

/-- Ports as a bit mask. -/
def portMask (ps : List Port) : Nat := bits (allPorts.map (fun p => ps.contains p))

/-- TAG_PRESENTED (R439), with Lantern's record. -/
def raiseTap (a : Fin 2) (tap role : Nat) (t : Tag) (tags : Nat) (x : TapResult) (list cands : Nat) (s : State) : State :=
  raise 0x80C0 x.port (le 4 tap ++ le 1 a.val ++ le 1 (tagKindCode t.kind) ++ le 1 role ++ le 1 x.outcome ++ le 1 t.uid.length
    ++ le 1 tags ++ fit 10 t.uid ++ le 1 (portByte x.port) ++ le 1 list ++ le 4 cands ++ le 4 x.proof ++ le 6 s.time)
    (trace 9 0x0B (le 4 tap ++ le 1 a.val ++ le 1 (tagKindCode t.kind) ++ le 1 x.outcome ++ le 1 tags) s)

/-- TAG_PRESENTED's list byte: no match, a valid match, or deny (R439). -/
def State.listCode (s : State) (t : Tag) : Nat := (s.listEntryFor t).elim 0 (fun e => if e.deny then 2 else 1)

/-- One tap (R408, R427): before anything else is done with the tag, its records are settled (R421); a keytag is asked for its version, state
and attempts. -/
def treatTap (a : Fin 2) (tap : Nat) (tags : List PresentedTag) (s : State) : State :=
  match tags with
  | [] => s
  | x :: more =>
    let n := tags.length
    let waiting := (s.txnOn a).filter (fun y => y.2.state == 0)
    let present (u : PresentedTag) (outcome : TapResult) (s1 : State) : State :=
      raiseTap a tap (tagRole (s1.tagNow a u)) u.tag n outcome (s.listCode u.tag) (portMask (s.tapCandidates a u.tag.uid s.time)) s1
    let ask (u : PresentedTag) (s : State) : State := if isKeytag u.tag then noteCommand 0 (le 1 0xB0) s else s
    match waiting.bind (fun y => (y.2.picks tags).map (fun u => (y, u))) with
    | some (y, u) =>
      takeTag y.1.slot y.2 u tap (present u ⟨10, none, 0⟩ (authenticateTap a u (settleTag a u (ask u s))))
    | none =>
      if more.isEmpty then
        let r := treatSingle a ((settleTag a x (ask x s)).tagNow a x) tap (settleTag a x (ask x s))
        present x r.1 r.2
      else present x ⟨6, none, 0⟩ s

/-! ## Pings and presentations (R407, R408) -/

/-- A ping triggers against the baseline of the last pings that did not (R407). -/
def Antenna.triggers (x : Antenna) (amplitude : Nat) (phase : Int) (thrAmp thrPhase : Nat) : Bool :=
  let n := x.amplitudes.length
  n != 0 &&
    (decide (thrAmp * x.amplitudes.sum < ((amplitude * n : Nat) - (x.amplitudes.sum : Nat) : Int).natAbs * 1000) ||
      decide (thrPhase * 10 * n < (phase * n - x.phases.sum).natAbs))

/-- rdr_mod15693: 100 % modulation, else 10 % (R411, R430). -/
def State.fullModulation (s : State) : Bool := s.cfg 0x0609 0 == 1

/-- The full poll of a field by the enabled protocols: its frames and the tags it enumerates (R408). -/
def State.polled (s : State) (field : List Tag) : List ReaderFrame × List Tag :=
  fullPoll (bit (s.cfg 0x0606 0) 0) (bit (s.cfg 0x0606 0) 1) s.fullModulation field

/-- The frames Oculus has just sent. -/
def noteFrames (fs : List ReaderFrame) (s : State) : State := s.withOculus { s.oculus with sent := fs }

/-- A ping of an antenna is due (R407): rdr_ping_ms after its last one, and half of that after the other antenna's, where that is enabled. -/
def State.pingDue (s : State) (a : Fin 2) : Bool :=
  let period := s.cfg 0x0603 0
  (s.antenna a).lastPing.all (fun t => s.due (t + period)) &&
    (!s.antennaOn (1 - a) || (s.antenna (1 - a)).lastPing.all (fun t => s.due (t + period / 2)))

/-- READER_PING (R407): every rdr_ping_ms on an antenna without a presentation; a triggering ping starts a full poll of the
tags that are in the field, in any order. The carrier is off again after a ping, or a poll that found no tag (R405). -/
def execReaderPing (a : Fin 2) (amplitude : Nat) (phase : Int) (field : List Tag) (s : State) : Out :=
  let x := s.antenna a
  if s.readerRuns && s.antennaOn a && x.presentation.isNone && s.pingDue a then
    let s0 := drive a (countAt 54 1 (s.withOculus { s.oculus with pings := w32 (s.oculus.pings + 1) }))
    let s1 := s0.modAntenna a (fun x => { x with lastPing := some s.now })
    if x.triggers amplitude phase (s.cfg 0x0604 0) (s.cfg 0x0605 0) then
      let x := s.polled field
      let s2 := noteFrames x.1 (countAt 55 1 (s1.withOculus { s1.oculus with polls := w32 (s1.oculus.polls + 1) }))
      match x.2 with
      | [] =>
        .next (carrierOff (s2.modAntenna a (fun x =>
          if 4 ≤ x.emptyPolls + 1 then { x with amplitudes := [amplitude], phases := [phase], emptyPolls := 0 }
          else { x with emptyPolls := x.emptyPolls + 1 })))
      | t :: ts =>
        let tap := w32 (s2.oculus.lastTap + 1)
        let found := (t :: ts).map PresentedTag.fresh
        let s3 := (s2.withOculus { s2.oculus with lastTap := tap }).modAntenna a (fun x => { x with
          emptyPolls := 0, presentation := some ⟨found, tap, 0, s.now, false⟩ })
        .next (treatTap a tap found s3)
    else
      .next (carrierOff (s1.modAntenna a (fun x => { x with
        amplitudes := (amplitude :: x.amplitudes).take 16, phases := (phase :: x.phases).take 16 })))
  else .next s

/-- A check of a presentation's tags: an ISO/IEC 14443 tag is selected once more (R408, R414). -/
def Presentation.check (p : Presentation) (now : Nat) (answered : Bool) : Presentation :=
  { p with
    checkedAt := now, failedChecks := if answered then 0 else p.failedChecks + 1
    tags := if answered then p.tags.map PresentedTag.select else p.tags }

/-- PRESENTATION_CHECK (R408), every 100 ms: three failed checks in a row end the presentation, and its field. -/
def execPresentationCheck (a : Fin 2) (answered : Bool) (s : State) : Out :=
  match (s.antenna a).presentation with
  | some p =>
    if s.up .cd9 && s.due (p.checkedAt + 100) then
      let s1 := noteFrames (p.tags.flatMap (fun x => checkFrames s.fullModulation x.tag)) (drive a s)
      let q := p.check s.now answered
      .next (if 3 ≤ q.failedChecks then carrierOff (s1.modAntenna a (fun x => { x with presentation := none }))
        else modPresentation a (fun p => p.check s.now answered) s1)
    else .next s
  | none => .next s

/-- HELD_TAP_EXPIRY (R428). -/
def execHeldTapExpiry (tap : Nat) (s : State) : Out :=
  if s.up .cd9 then
    .next (s.withOculus { s.oculus with held := s.oculus.held.filter (fun h => !(h.tap == tap && decide (h.at_ + 120000 < s.now))) })
  else .next s

/-- PROOF_EXPIRY (R423). -/
def execProofExpiry (id : Nat) (s : State) : Out :=
  if s.up .cd9 then
    .next (s.withOculus { s.oculus with proofs := s.oculus.proofs.filter (fun p => !(p.id == id && s.due (p.at_ + 120000))) })
  else .next s

/-- A tag that is not reached again: the block is uncertain and its record is kept (R420, R421). -/
def loseReach (c : Channel) (x : ReachRun) (s : State) : State :=
  endTxn c x.txn stWriteUncertain (writtenPayload x.txn x.uid x.version (x.done ++ [(x.block, 2, x.generation)] ++ notAttempted x.rest))
    (keepPending ⟨x.uid, x.block, x.generation, sha256 x.data, s.time⟩ s)

/-- The tag selected again, with the fates of its next exchanges. -/
def reselect (a : Fin 2) (uid : List Byte) (fates : List Fate) (s : State) : State :=
  modTag a uid (fun y => { y with tag := { y.tag with fates := fates } }.select) (drive a s)

/-- How a reach ends (R420): the tag re-selected and re-authenticated, a new attempt, and the block read; or not reached. -/
def endReach (x : ReachRun) (r : Option (List Fate)) (s0 : State) : State :=
  let s := s0.withOculus { s0.oculus with reach := none }
  match s.channelAt x.slot with
  | none => s
  | some c =>
    match r.bind (fun fates => (s.tagOn x.antenna x.uid).map (fun t => (fates, t))) with
    | none => loseReach c x s
    | some (fates, t) =>
      let p := attempt x.antenna t.tag (reselect x.antenna x.uid fates s)
      let b := readBlock x.antenna x.uid x.block p.2
      match p.1, b.1 with
      | true, .inl y =>
        if x.atConfirm ∨ y.generation = w16 (x.generation + 1) then
          writeBlocks c x.txn x.uid x.version x.rest (x.done ++ [(x.block, 0, y.generation)]) b.2
        else
          endTxn c x.txn stTagAbsent (writtenPayload x.txn x.uid x.version (x.done ++ [(x.block, 3, y.generation)] ++ notAttempted x.rest)) b.2
      | true, .inr _ => loseReach c x b.2
      | false, _ => loseReach c x p.2

/-- KEYTAG_REACH_AGAIN (R420): the tag reached within 300 ms, no sooner than 100 ms after its last authentication, or not reached. -/
def execKeytagReachAgain (a : Fin 2) (fates : Option (List Fate)) (s : State) : Out :=
  match s.oculus.reach with
  | some x =>
    if s.up .cd9 && x.antenna == a then
      if decide (x.lostAt + 300 < s.now) then .next (endReach x none s)
      else if fates.isNone || s.mayAuthenticate x.uid then .next (endReach x fates s)
      else .next s
    else .next s
  | none => .next s

/-- TAG_TXN_TIMEOUT (R432): no tap by the deadline. -/
def execTagTxnTimeout (a : Fin 2) (s : State) : Out :=
  match s.txnOn a with
  | some (c, b) =>
    if s.up .cd9 && b.state == 0 && s.due b.deadlineAt then .next (endTxn c b stTagAbsent noTagPayload s) else .next s
  | none => .next s

/-- VDDTX_LOW and VDDTX_RESTORED (R549). -/
def execVddtxLow (s : State) : Out := .next (fieldOff (s.withOculus { s.oculus with vddtxGood := false }))
def execVddtxRestored (s : State) : Out := .next (s.withOculus { s.oculus with vddtxGood := true })

/-! ## Commands (R431 to R438) -/

/-- Baselines of READER_STATUS: means of amplitude and phase. -/
def Antenna.baseline (x : Antenna) : List Byte :=
  let n := x.amplitudes.length
  le 2 (if n = 0 then 0 else x.amplitudes.sum / n) ++ leInt 2 (if n = 0 then 0 else x.phases.sum / n)

def State.readerStatus (s : State) : List Byte :=
  let o := s.oculus
  le 1 (b1 s.readerRuns * 128 + b1 o.ant0.presentation.isSome * 64 + b1 o.ant1.presentation.isSome * 32)
    ++ le 1 o.pendingWrites.length ++ le 1 (o.held.filter (fun h => decide (s.now ≤ h.at_ + 120000))).length
    ++ le 1 (o.proofs.filter (fun p => !p.used && decide (s.now < p.at_ + 120000))).length
    ++ o.ant0.baseline ++ o.ant1.baseline ++ le 4 o.lastTap ++ le 2 o.list.length ++ [0, 0]
    ++ le 4 o.pings ++ le 4 o.polls ++ le 4 o.authFailures

def readerStatus (r : Req) : State → State :=
  withLength r.payload.isEmpty r <| noHandle r <| needs .cd9 r fun s => respond r stOk s.readerStatus s

def execReaderStatus (b : Box) (s : State) : Out := request b 0x0701 readerStatus s

/-- A transaction made (R432): its handle comes with ACCEPTED; a presentation in progress may serve it at once. -/
def startTxn (r : Req) (op wait : Nat) (uid : List Byte) (a : Fin 2) (s : State) : State :=
  if (s.txnOn a).isSome then refuse r stBusy s
  else
    let b : TxnBody := ⟨a, op, 0, false, uid, w48 (s.civil + wait * 1000), s.now + wait * 1000, 0, r.box, r.seq, r.opcode, r.epoch, r.payload⟩
    match createChannel (.txn b) (some r.box) r.role s with
    | none => refuse r stNoSlot s
    | some (h, s1) =>
      let s2 := (respond r stAccepted (le 4 h) s1).modBox r.box (fun m => { m with owed := m.owed + 1 })
      match (s2.antenna a).presentation.bind (fun p => (b.picks p.tags).map (fun t => (p.tap, t))) with
      | some (tap, t) => takeTag (handleSlot h) b t tap s2
      | none =>
        if wait = 0 then
          match s2.channelOf h with
          | some c => endTxn c b stTagAbsent noTagPayload s2
          | none => s2
        else s2

/-- The checks the three transactions share: antenna, wait and UID filter. -/
def withTxn (ok : Bool) (uidLens : List Nat) (r : Req) (op : Nat) : State → State :=
  let n := if op = 3 then 0 else field r.payload 2 1
  noHandle r fun s =>
    (check (decide (field r.payload 0 1 ≤ 1 ∧ field r.payload 1 1 ≤ 120) && (op == 3 || uidLens.contains n) && ok
      && bit (s.cfg 0x0602 0) (field r.payload 0 1)) stParamRange r <|
     needs .cd9 r <| startTxn r op (field r.payload 1 1) (if op = 3 then [] else slice r.payload 4 n)
       (if field r.payload 0 1 = 0 then 0 else 1)) s

/-- TAG_READ (R434). -/
def tagRead (r : Req) : State → State :=
  let first := field r.payload 3 1
  let n := field r.payload 14 1
  withLength (r.payload.length == 16) r <| withTxn (within 1 8 n && decide (first ≤ 63 ∧ first + n ≤ 64)) [0, 4, 7, 10] r 1

def execTagRead (b : Box) (s : State) : Out := request b 0x0702 tagRead s

/-- TAG_WRITE (R435). -/
def tagWrite (r : Req) : State → State :=
  let n := field r.payload 3 1
  withLength (decide (16 ≤ r.payload.length) && r.payload.length == 16 + 36 * n) r <|
    withTxn (within 1 4 n && (writeEntries r.payload n).all (fun e => within 1 63 e.1)) [0, 7] r 2

def execTagWrite (b : Box) (s : State) : Out := request b 0x0703 tagWrite s

/-- TAG_PROVISION (R436). -/
def tagProvision (r : Req) : State → State :=
  withLength (r.payload.length == 8) r <| withTxn (decide (field r.payload 2 1 ≤ 1) && within 1 3 (field r.payload 3 1)) [] r 3

def execTagProvision (b : Box) (s : State) : Out := request b 0x0707 tagProvision s

/-! ### Authorisation list (R425, R437) -/

def AuthEntry.bytes (e : AuthEntry) : List Byte :=
  fit 10 e.uid ++ le 1 e.uid.length ++ le 1 e.kind ++ le 1 (b1 e.deny * 128) ++ [0] ++ le 4 e.capMa ++ le 6 e.validFrom
    ++ le 6 e.validUntil ++ le 2 e.label

/-- The entry at an index, free entries as zeros. -/
def State.authAt (s : State) (i : Nat) : List Byte := (s.oculus.list.find? (fun e => e.index == i)).elim (zeros 32) AuthEntry.bytes

/-- AUTHLIST_READ (R437). -/
def authlistRead (r : Req) : State → State :=
  let first := field r.payload 0 2
  let n := field r.payload 2 1
  withLength (r.payload.length == 4) r <| noHandle r <|
  check (decide (first ≤ 511 ∧ first + n ≤ 512) && within 1 13 n) stParamRange r <| needs .cd9 r fun s =>
    respond r stOk (le 1 n ++ [0, 0, 0] ++ le 2 s.oculus.list.length ++ [0, 0]
      ++ ((List.range n).map (· + first)).flatMap s.authAt) s

def execAuthlistRead (b : Box) (s : State) : Out := request b 0x0704 authlistRead s

/-- An entry of a request; its index is set where it is placed. -/
def authEntryOf (bs : List Byte) : AuthEntry :=
  ⟨0, slice bs 0 (field bs 10 1), field bs 11 1, bit (field bs 12 1) 7, field bs 14 4, field bs 18 6, field bs 24 6, field bs 30 2⟩

/-- Ranges of an entry (R425). -/
def authEntryOk (bs : List Byte) : Bool :=
  let n := field bs 10 1
  [4, 7, 8, 10].contains n && isZero (slice bs n (10 - n)) && decide (field bs 11 1 ≤ 2) && capOk (field bs 14 4)

/-- The lowest free index of a list. -/
def freeIndex (l : List AuthEntry) : Option Nat := (List.range 512).find? (fun i => !l.any (fun e => e.index == i))

/-- One entry put, none where it does not fit. -/
def putAuth (l : List AuthEntry) (e : AuthEntry) : Option (List AuthEntry) :=
  match l.find? (fun x => x.uid == e.uid) with
  | some x => some (l.map (fun y => if y.index = x.index then { e with index := x.index } else y))
  | none => (freeIndex l).map (fun i => l ++ [{ e with index := i }])

/-- Entries put in order: the list, or the index of the first that does not fit. -/
def putAll : Nat → List AuthEntry → List AuthEntry → List AuthEntry ⊕ Nat
  | _, l, [] => .inl l
  | i, l, e :: es =>
    match putAuth l e with
    | some l1 => putAll (i + 1) l1 es
    | none => .inr i

/-- AUTHLIST_WRITE (R437): all its entries or none. -/
def authlistWrite (r : Req) : State → State :=
  let op := field r.payload 0 1
  let n := field r.payload 1 1
  let raw := (List.range n).map (fun i => slice r.payload (4 + 32 * i) 32)
  withLength (decide (4 ≤ r.payload.length) && r.payload.length == 4 + 32 * n) r <| noHandle r <|
  check (decide (op ≤ 2) && (if op = 2 then n == 0 else within 1 12 n) && raw.all authEntryOk) stParamRange r <|
  needs .cd9 r fun s =>
    let es := raw.map authEntryOf
    let done (l : List AuthEntry) : State :=
      acceptDone r stOk (le 2 l.length ++ [0, 0]) (s.withOculus { s.oculus with list := l, listTwin := s.oculus.listTwin.write s.oculus.list })
    if op = 2 then done []
    else if op = 1 then done (s.oculus.list.filter (fun x => !es.any (fun e => e.uid == x.uid)))
    else
      match putAll 0 s.oculus.list es with
      | .inl l => done l
      | .inr i => acceptDone r stParamRange (le 2 s.oculus.list.length ++ le 1 i ++ [0]) s

def execAuthlistWrite (b : Box) (s : State) : Out := request b 0x0705 authlistWrite s

/-! ### BIND_PORT (R428, R438) -/

def dropHeld (tap : Nat) (s : State) : State := s.withOculus { s.oculus with held := s.oculus.held.filter (fun h => h.tap != tap) }

def bindPort (r : Req) : State → State :=
  let tap := field r.payload 0 4
  let port := field r.payload 4 1
  let dec := field r.payload 5 1
  let cap := field r.payload 8 4
  withLength (r.payload.length == 12) r <| noHandle r <|
  check (decide (dec ≤ 1) && (if dec = 0 then decide (port < 24) else port == 0xFF) && capOk cap) stParamRange r <|
  needs .cd9 r fun s =>
    match s.oculus.held.find? (fun h => h.tap == tap && decide (s.now ≤ h.at_ + 120000)) with
    | none => refuse r stRefusedState s
    | some h =>
      if dec = 1 then acceptDone r stOk (le 4 0) (dropHeld tap s)
      else
        match portOf port with
        | none => refuse r stParamRange s
        | some p =>
          if s.rotunda.silent then refuse r stControlSilent s
          else if s.isTapCandidate h.antenna h.uid h.time p then
            let s1 := authorisePort p 3 cap h.uid (accept r (dropHeld tap s))
            finish r.wait stOk (le 4 (s1.lane p).session) s1
          else refuse r stRefusedState s

def execBindPort (b : Box) (s : State) : Out := request b 0x0706 bindPort s

end Sys2Proof.Machine
end

