-- ==== Sys2Proof/Machine/ResetOps.lean ====
section
/-! DEFINITION. What each kind of reset clears and keeps (R505): restarts of one island or lane, and the assertion of a device reset.
"Everything not named as cleared is kept." -/

namespace Sys2Proof.Machine

/-! ## Rotunda and the link island -/

/-- A mailbox after a restart: rings, session, stage and repeats are gone; the HOST counters start again only at a device reset
(R73, R74, R90). -/
def Mailbox.restart (device : Bool) (executed civil : Nat) (m : Mailbox) : Mailbox :=
  ({ Mailbox.reset with
    lastExecuted := executed, epoch := m.epoch + 1
    frameErrors := if device then 0 else m.frameErrors
    framesIn := if device then 0 else m.framesIn
    framesOut := if device then 0 else m.framesOut
    eventsLost := if device then 0 else m.eventsLost
    attachedTime := if device then 0 else m.attachedTime
    lastRx := if device then 0 else m.lastRx
    modified := m.modified
    changes := m.changes } : Mailbox).touch civil

/-- Sequence a mailbox restarts with: from the crossing window after a Rotunda restart, from the AON store at a boot (R73, R506). -/
def State.executedAfter (s : State) (device : Bool) (b : Box) : Nat :=
  if device then (if h : b.val < 4 then s.power.aonExecuted[b.val] else 0xFFFF) else (s.box b).lastExecuted

/-- A block write whose tag was to be reached again is given up: its pending record stays (R421). -/
def abandonReach (s : State) : State :=
  match s.oculus.reach with
  | some x => keepPending ⟨x.uid, x.block, x.generation, sha256 x.data, s.time⟩ (s.withOculus { s.oculus with reach := none })
  | none => s

/-- A claim, an erase, an activation and a shutdown asked for end with the Rotunda's state. -/
def dropUpdateWork (s : State) : State :=
  (s.withUpdate { s.update with claim := none, erasing := none, activating := none }).withPower { s.power with shutdown := none }

/-- Rotunda and the link island restart: sessions end, stages and volatile channels are lost; what lies in the crossing window is
kept, and the claim ends with its record kept (R73, R82, R90, R505). -/
def restartRotunda (device : Bool) (s0 : State) : State :=
  let s := abandonReach s0
  let boxes := Vector.ofFn (fun b : Fin 6 => (s.box b).restart device (s.executedAfter device b) s.civil)
  let s1 := s.withRotunda { s.rotunda with
    boxes := boxes, supervisor := .free, rebuilding := [], ranks := [], commits := [], waiting := [], silent := false
    queueHeartbeatAt := s.now }
  dropUpdateWork (destroyAll (s1.rotunda.channels.filter (fun c => !c.body.persistent)) 3 s1)

/-! ## Requests waiting on an island (R521) -/

/-- Several requests complete with one status. -/
def finishAll (ws : List Waiting) (status : Nat) (s : State) : State := ws.foldl (fun s w => finish w status [] s) s

/-! ## The Keep and the metrology DSP -/

/-- The Keep's requests in progress, and the signatures hosts have asked for. -/
def State.keepWaits (s : State) : List Waiting :=
  s.keep.waiting ++ s.dsp.calPending.map (fun x => x.2.1)
    ++ (s.dsp.capture.map (fun c => (⟨c.box, 0x050A, c.seq, 0, c.epoch, 0, []⟩ : Waiting))).toList
    ++ (s.legal.sealing.map (fun x => x.2.2)).toList ++ s.legal.signing.filterMap (·.request)

/-- A blown fuse that is not in the log yet: the pulses were cut off. The entry is stamped with the start, its time uncertain (R347). -/
def noteSeal (s : State) : State :=
  if s.legal.fuse = .intact ∨ s.legal.sealLogged = true then s else sealLog s.legal.fuse true s.calCheck 0 s

/-- What the Keep does for the legal records at each start: it senses the fuse (R346), moves the buffer's entries (R351) and enters a seal
whose entry is missing (R347). -/
def startLegal (sense : FuseSense) (s : State) : State :=
  noteSeal (moveAonBuffer (s.withLegal { s.legal with fuse := senseFuse s.legal.fuse sense }))

/-- What the fuse senses at a restart of the Keep alone: the state it had, or, where a programming pulse was cut off, a free value (R347). -/
def State.fuseSensed (s : State) : FuseSense :=
  if s.legal.sealing.isNone then s.legal.fuse
  else if s.drawn % 3 = 0 then .intact else if s.drawn % 3 = 1 then .undetermined else .blown

/-- The saves commanded before a restart are still wanted after it. -/
def wantSaves (ws : List SaveFor) (s : State) : State := s.withKeep { s.keep with saveWanted := ws }

/-- The Keep restarts with the metrology DSP from the last complete save; saves that a request waits for are wanted again
(R198, R327, R505). -/
def restartKeep (s : State) : State :=
  let wanted := s.keep.saveWanted ++ (s.keep.saving.elim [] (·.2)) ++ (s.keep.writing.elim [] (·.fors))
  let s0 := requeue (s.legal.signing.filter (fun j => j.request.isNone)) s
  let s1 := finishAll s.keepWaits stIslandRestarting (s0.withLegal { s0.legal with
    sealing := none, counter := max s.legal.counter s.legal.reservedEnd })
  startLegal s.fuseSensed (wantSaves wanted (restoreKeep true s1.time s1)).draw

/-! ## Belfry -/

/-- A neighbour after Belfry's restart: its tone maps are gone (R505). -/
def NeighbourBody.restart (now : Nat) (b : NeighbourBody) : NeighbourBody :=
  { b with
    phaseRun := (0, 0), lSend := LinkDir.fresh, lReceive := { LinkDir.fresh with lastMapAt := now }
    uSend := LinkDir.fresh, uReceive := { LinkDir.fresh with lastMapAt := now }, linkFailures := [], unreachable := false }

/-- A neighbour after a device reset: only bytes 32 to 53 and 76 to 79 persist (R397). -/
def NeighbourBody.boot (now : Nat) (b : NeighbourBody) : NeighbourBody :=
  { b.restart now with
    lastHeard := 0, lastHeardAt := now, framesSent := 0, attemptsFailed := 0, framesReceived := 0, checksFailed := 0 }

/-- Every neighbour channel's body changed. -/
def mapNeighbours (f : NeighbourBody → NeighbourBody) (s : State) : State :=
  s.setChannels (s.rotunda.channels.map (fun c =>
    match c.body with
    | .neighbour b => { c with body := .neighbour (f b) }
    | _ => c))

/-- Belfry's volatile state; the network table, the frame counter from its reserved end, and, on an island restart, the counts stay
(R389, R391, W5). -/
def Belfry.restart (b : Belfry) (counts : Bool) : Belfry :=
  { Belfry.reset with
    nodes := b.nodes, counter := max b.counter b.reservedEnd, reservedEnd := b.reservedEnd, networkId := b.networkId
    framesSent := if counts then b.framesSent else 0
    framesReceived := if counts then b.framesReceived else 0
    headersFailed := if counts then b.headersFailed else 0
    symbolsErased := if counts then b.symbolsErased else 0
    acksLate := if counts then b.acksLate else 0
    unknownTypes := if counts then b.unknownTypes else 0 }

/-- The powerline statistics that the archive takes (R42, R398). -/
def Belfry.statistics (b : Belfry) : List Nat :=
  [b.framesSent, b.framesReceived, b.headersFailed, b.symbolsErased, b.acksLate, b.unknownTypes]

/-- Belfry restarts alone, and its statistics go to the archive: DESIGN CHOICE (log 159); requests waiting on it complete, and its bands start with the settings in force (R521, W5). -/
def restartBelfry (s : State) : State :=
  let ws := s.belfry.messages.filterMap PlcMessage.request
  let s1 := mapNeighbours (NeighbourBody.restart s.now) (s.withBelfry (s.belfry.restart true))
  settleBelfry (finishAll ws stIslandRestarting (toArchive [.powerline s.time s.belfry.statistics] s1))

/-! ## Oculus -/

/-- Oculus's volatile state: the list, the pending write records and the supply's level stay (R421, R505). -/
def Oculus.restart (o : Oculus) : Oculus :=
  { Oculus.reset with
    list := o.list, listTwin := o.listTwin, pendingWrites := o.pendingWrites, pendingTwin := o.pendingTwin, vddtxGood := o.vddtxGood }

/-- Oculus restarts alone: a block write leaves its pending record, and every transaction completes (R521, O6). -/
def restartOculus (s : State) : State :=
  let s1 := abandonReach s
  let s2 := s1.rotunda.channels.foldl (fun s c =>
    match c.txn? with
    | some b => endTxn c b stIslandRestarting noTagPayload s
    | none => s) s1
  s2.withOculus s2.oculus.restart

/-! ## Port lanes -/

/-- A lane begins in DISABLED with its outputs off: the persisted enable and the link to its session stay (R135, R140), and so does what
Steeple has recorded of its pre-break switch (R265). -/
def Lane.restart (l : Lane) (ignored : Bool) (civil : Nat) : Lane :=
  { Lane.reset with
    enabled := l.enabled, ignored := ignored, session := l.session, interrupted := l.interrupted, stateTime := w48 civil
    closeStep5Ok := l.closeStep5Ok, openStep3Ok := l.openStep3Ok, preBreakClean := l.preBreakClean
    modified := w48 civil, changes := w32 (l.changes + 1) }

/-- One lane restarts: its requests complete, and it takes T01 if its enable is persisted, whatever port_start holds (R520). -/
def restartLane (p : Port) (s : State) : State :=
  let s1 := settlePort 0x0402 p stIslandRestarting (settlePort 0x0401 p stIslandRestarting s)
  s1.setLane p { (s1.lane p).restart false s.civil with drive := .low, nextDrive := .low }

/-! ## Island restarts (R505, R527) -/

/-- ISLAND_RESTARTED, and what RESET_CAUSE tells of it. -/
def noteRestart (code : Nat) (port : Option Port) (s : State) : State :=
  raise 0x8006 none (le 1 code ++ le 1 (portByte port) ++ [0, 0] ++ le 6 s.time)
    (s.withPower { s.power with lastRestart := code, restartPort := port, restartTime := s.time })

/-- A region's SRAM is cleared by full-line writes, and its poison with it (R469, R505). -/
def clearRegion (i : Fin 8) (s : State) : State := s.setRegion i (fun r => { r with poisoned := [] })

/-- Rotunda restarts with the link island, code 6; its mailboxes serve again after 30 ms, the time R513 gives from Rotunda's release to
their serving, and NOT_READY stands until then (R73). DESIGN CHOICE (log 163). unsafe. -/
def rotundaRestart (s : State) : State :=
  let s1 := noteRestart 6 none (clearRegion 0 (restartRotunda false s))
  s1.withPower { s1.power with serveAt := some (s.now + 30) }

/-- The mailboxes serve again (R73). -/
def serveAgain (s : State) : State :=
  if s.power.serveAt.any s.due then s.withPower { s.power with serveAt := none } else s

/-- The Keep restarts with the metrology DSP, code 7. -/
def keepRestart (s : State) : State := noteRestart 7 none (clearRegion 4 (clearRegion 3 (restartKeep s)))

/-- Belfry restarts under a code: 8 by watchdog or clock, 14 by block-level reset. -/
def belfryRestart (code : Nat) (s : State) : State := noteRestart code none (clearRegion 5 (restartBelfry s))

/-- Oculus restarts under a code: 9 or 14. -/
def oculusRestart (code : Nat) (s : State) : State := noteRestart code none (clearRegion 6 (restartOculus s))

/-! ## The device reset (R505) -/

/-- Codes of the brown-outs. -/
def isBrownOut (cause : Nat) : Bool := cause == 2 || cause == 3 || cause == 4 || cause == 15

/-- The channel table after a device reset: the persistent channels as their mirrors hold them (R87, R89). -/
def Rotunda.reload (r : Rotunda) : Rotunda := { r with
  channels := (r.mirrors.map (·.current)).filter (·.body.persistent) }

/-- The Turret after a device reset: every lane in reset, and Steeple's checks of its pre-break switch are to be made again (R265).
DESIGN CHOICE (log 192). safe. -/
def Turret.boot (t : Turret) (civil : Nat) : Turret :=
  { Turret.reset with lanes := t.lanes.map (fun l => { l.restart false civil with closeStep5Ok := false, openStep3Ok := false }) }

/-- What a stop leaves in the Safety region: a power cut cuts off what is being written, so that the older copy applies (R271 Y9, R284, R297 Q3).
DESIGN CHOICE (log 164): a decision is being written until the millisecond in which it was made has passed. unsafe. -/
def Steeple.kept (t : Steeple) (cut : Bool) : SafetyCopy :=
  if cut then t.stored else t.safety

/-- The fault record up to an index not yet written: the entries after it are lost. -/
def Steeple.recordBefore (t : Steeple) (next : Nat) : List FaultEntry :=
  t.record.take (t.record.length - w32 (t.nextIndex + 4294967296 - next))

/-- Steeple after a device reset: lock-outs, trip latches, degraded modes to be turned into lock-outs, the record, both parameter blocks
and the clock monitor's record stay, with the levels of its inputs (R238, R246, R257, R270, R281, R285). -/
def Steeple.boot (t : Steeple) (now : Nat) (cut : Bool) : Steeple :=
  let x := t.kept cut
  { Steeple.reset with
    hub := x.hub, ports := x.ports, stored := x, trips := t.trips, hubDegraded := x.hubDegraded, portDegraded := x.portDegraded
    record := t.recordBefore x.nextIndex, nextIndex := x.nextIndex, committed := x.block, copyLost := t.copyLost, commitTime := x.commitTime, staged := t.staged
    estopA := t.estopA, estopB := t.estopB, cd1Lost := t.cd1Lost
    suppliesOut := t.suppliesOut, suppliesGoodAt := t.suppliesGoodAt, vddioLow := t.vddioLow
    clocksGoodAt := now, aliveAt := now, aliveSince := now }

/-- Cupola in reset: staged keys are gone, and no derived key exists before the root is regenerated (R442, R448). -/
def Cupola.boot (c : Cupola) : Cupola :=
  { c with
    rootOk := false, secret := 0, puf := [], pufOn := false, errors := [], rngHealthy := true
    slots := c.slots.map (fun k => { k with staged := none, stagedCheck := 0, verified := false }) }

/-- Memory integrity at a device reset: a retirement that runs is cut off (R471), and SRAM is cleared, and its poison with it (R505). -/
def Memory.boot (m0 : Memory) (now drawn : Nat) : Memory :=
  let m := m0.cutRetirement now drawn
  { m with regions := Vector.ofFn (fun i : Fin 8 => if i = 7 then m.regions[i] else { m.regions[i] with poisoned := [] }) }

/-- Update at a device reset: the claim, an erase and an activation in progress end, and so do the 30 min and a fall-back's wait
(R488, R496, R498). -/
def Update.boot (u : Update) : Update :=
  { u with
    claim := none, erasing := none, activating := none, activationResetAt := none, trialUntil := none, fallback := none
    forced := false }

/-- The device's phase once a reset is asserted: the release order waits for supplies good, which still hold where the supplies
stayed (R508, R513). -/
def phaseAfter (cause : Nat) (wanting : Bool) : DevicePhase :=
  if isBrownOut cause then .dormant
  else if cause = 1 ∨ wanting then .heldReset
  else .supplied

/-- The always-on domain's record of an assertion: the power-off time is that of hold-up entry or of a brown-out (R509, R511, J3); a
reset of another kind, after service, has none. A power cut waits for the Keep's next start, whatever resets come between (R200). -/
def Power.assert_ (x : Power) (cause civil now : Nat) : Power :=
  let served := x.phase == .running || x.phase == .recovery
  { x with
    cutAt := if isBrownOut cause || cause == 1 then some (x.cutAt.getD ((if x.holdUp then x.powerOff else none).getD civil)) else x.cutAt
    phase := phaseAfter cause (x.holdUp || x.phase == .heldReset), cause := cause, resetStuck := false, holdUpBefore := x.holdUp
    powerOff := if x.holdUp then x.powerOff
      else if isBrownOut cause then some civil
      else if served then none else x.powerOff
    assertedTime := civil, boots := w32 (x.boots + 1), holdUp := false, held := []
    lostClocks := x.lostClocks.filter (fun c => c == .cd0)
    supplyFault := if served then none else x.supplyFault
    rtcLost := x.rtcLost && !served
    startupFaults := [], shutdown := none, pendingReset := none, pendingDormant := none, wakePending := false, restarting := []
    pullUps := resetPins
    askedAt := [], serveAt := none, suppliedAt := now }

/-- The stop of a running device with this code is preceded by a save under R197: SOFT_RESET, DORMANT, and the activation of an update,
whose selector is pending. -/
def State.savedStop (s : State) (cause : Nat) : Bool :=
  cause == 11 || cause == 13 || (cause == 12 && s.update.selector.state == 1)

/-- A device reset is asserted with a code (R504, R505). -/
def assertReset (cause : Nat) (s : State) : State :=
  let s0 := restartRotunda true s
  let s1 := s0.withRotunda s0.rotunda.reload
  let s2 := mapNeighbours (NeighbourBody.boot s.now) s1
  { s2 with
    rotunda := { s2.rotunda with
      applied := s2.rotunda.committed
      published := { InputBlock.reset with settings := s2.rotunda.committed }
      nextRequest := 1, queueHeartbeat := 0 }
    turret := s2.turret.boot s2.civil
    steeple := s2.steeple.boot s2.now (isBrownOut cause || cause == 1)
    keep := { s2.keep with stopSaved := if s.power.phase = .running then s.savedStop cause else s2.keep.stopSaved }
    legal := { s2.legal with
      counter := max s2.legal.counter s2.legal.reservedEnd, signing := [], waitingRecords := [], sealing := none }
    belfry := s2.belfry.restart false
    oculus := s2.oculus.restart
    cupola := s2.cupola.boot
    memory := s2.memory.boot s2.now s2.drawn
    free := s2.free + 1
    update := s2.update.boot
    power := s2.power.assert_ cause s2.time s2.now
    lantern := Lantern.reset }

end Sys2Proof.Machine
end

