-- ==== Sys2Proof/Machine/Clocks.lean ====
section
/-! DEFINITION. Clock monitors, watchdogs and block-level resets: what the loss and the return of a clock do (R19 to R21), and the
restarts of single islands and lanes (R504, R520, R521). -/

namespace Sys2Proof.Machine

/-! ## Clocks lost (R19, R20) -/

/-- The clocks that derive from the main crystal (R18). -/
def derivedClocks : List Clock := [.cd2, .cd3, .cd4, .cd5, .cd6, .cd8, .cd9, .cd10, .cd11]

/-- Islands that a lost clock leaves held in reset until it is good again. -/
def restartsOnLoss : List Clock := [.cd5, .cd6, .cd7, .cd8, .cd9, .cd10]

/-- A set of clocks with others added. -/
def addClocks (new_ l : List Clock) : List Clock := l ++ new_.filter (fun c => !l.contains c)

def dropClock (c : Clock) (l : List Clock) : List Clock := l.filter (fun x => x != c)

/-- Clocks become lost; the islands among them that restart are held in reset. -/
def markLost (cs : List Clock) (s : State) : State :=
  s.withPower { s.power with
    lostClocks := addClocks cs s.power.lostClocks, held := addClocks (cs.filter restartsOnLoss.contains) s.power.held }

/-- CD0 is lost: the RTC goes on from the reference RC, the event is logged, and the time is uncertain until the crystal is good again.
DEDUCED (log 129): the log is the event log of R41, as no type of the legal log or the error log is this event's. unsafe. -/
def loseCd0 (s : State) : State :=
  let s0 := markLost [.cd0] s
  let s1 := logEvent (.clockLost .cd0) s0
  if s.keep.uncertain then s1
  else (s1.withKeep { s1.keep with uncertain := true }).withPower { s1.power with rcTime := true }

/-- Table: clock-good references, bands and loss. -/
def loseClock (c : Clock) (s : State) : State :=
  match c with
  | .cd0 => loseCd0 s
  | .cd1 => loseCd1 s
  | .crystal => decideFault fClock none [] false (markLost (.crystal :: derivedClocks) s)
  | .cd2 => decideFault fClock none [] false (markLost [.cd2] s)
  | .cd3 => decideFault fClock none [] false (markLost [.cd3] s)
  | .cd4 => decideFault fClock none [] false (markLost [.cd4] s)
  | .cd5 => markLost [.cd5] s
  | .cd6 => markLost [.cd6] s
  | .cd7 => markLost [.cd7] s
  | .cd8 => markLost [.cd8] s
  | .cd9 => markLost [.cd9] s
  | .cd10 => markLost [.cd10] s
  | .cd11 => markLost [.cd11] s

/-- A clock is monitored: CD0 while the always-on domain runs, any other once its island has been released (R19). -/
def State.monitored (s : State) (c : Clock) : Bool :=
  if c = .cd0 then s.aon else s.power.phase == .running && !s.power.startupFaults.contains c

def execClockLost (c : Clock) (s : State) : Out :=
  if s.monitored c && !s.power.lostClocks.contains c then .next (loseClock c s) else .next s

/-- CLOCK_DEVIATION (R20): the clocks are good again from now at the earliest (R259). -/
def execClockDeviation (s : State) : Out :=
  if s.steepleUp then
    .next (decideFault fDeviation none [] false (s.withSteeple { s.steeple with clocksGoodAt := s.now }))
  else .next s

/-! ## Clocks good again -/

/-- A block-level reset of the island is in progress. -/
def State.restarting (s : State) (c : Clock) : Bool := s.power.restarting.any (fun x => x.1 == c)

/-- An island leaves reset with its clock good, unless a start-up fault or a block-level reset keeps it there (R21, R514). -/
def releaseIsland (c : Clock) (restart : State → State) (s : State) : State :=
  if s.power.startupFaults.contains c || s.restarting c then s
  else restart (s.withPower { s.power with held := dropClock c s.power.held })

/-- Rotunda and the link island restart together, once both run. -/
def restartLinked (s : State) : State :=
  if s.power.held.contains .cd5 || s.power.held.contains .cd10 then s else rotundaRestart s

/-- Cupola leaves reset: what is staged is gone (R448). -/
def restartCupola (s : State) : State :=
  s.withCupola { s.cupola with
    slots := s.cupola.slots.map (fun k => { k with staged := none, stagedCheck := 0, verified := false }) }

/-- The time is certain again where only the crystal's loss had made it uncertain. -/
def certainAgain (s : State) : State :=
  if s.power.rcTime then
    (s.withKeep { s.keep with uncertain := false }).withPower { s.power with rcTime := false }
  else s

/-- Steeple's clear condition counts from now (R259). -/
def clocksGood (s : State) : State := s.withSteeple { s.steeple with clocksGoodAt := s.now }

/-- What follows once a lost clock is good again. -/
def regainClock (c : Clock) (s : State) : State :=
  match c with
  | .cd0 => certainAgain s
  | .cd1 => enterCd1Loss (clocksGood s)
  | .crystal => clocksGood s
  | .cd2 => clocksGood s
  | .cd3 => clocksGood s
  | .cd4 => clocksGood s
  | .cd5 => releaseIsland .cd5 restartLinked s
  | .cd6 => releaseIsland .cd6 keepRestart s
  | .cd7 => releaseIsland .cd7 restartCupola s
  | .cd8 => releaseIsland .cd8 (belfryRestart 8) s
  | .cd9 => releaseIsland .cd9 (oculusRestart 9) s
  | .cd10 => releaseIsland .cd10 restartLinked s
  | .cd11 => s

/-- A clock can be good: its crystal is. -/
def State.canBeGood (s : State) (c : Clock) : Bool := !(derivedClocks.contains c && s.power.lostClocks.contains .crystal)

def execClockGood (c : Clock) (s : State) : Out :=
  if s.aon && s.power.lostClocks.contains c && s.canBeGood c then
    .next (regainClock c (s.withPower { s.power with lostClocks := dropClock c s.power.lostClocks }))
  else .next s

/-- The start-up fault of an island, which stays in reset (R21, R514). -/
def recordStartupFault (c : Clock) (s : State) : State :=
  s.withPower { s.power with startupFaults := addClocks [c] s.power.startupFaults, held := addClocks [c] s.power.held }

/-- The time at which the island's release was asked for last: by the start-up sequencer, or by a block-level reset (R21). -/
def State.releaseAsked (s : State) (c : Clock) : Nat :=
  if s.power.phase = .supplied then s.power.suppliedAt
  else ((s.power.askedAt.filter (fun x => x.1 == c)).getLast?).elim 0 (·.2)

/-- ISLAND_RELEASE_TIMEOUT: 2 ms after the request (R21). -/
def execIslandReleaseTimeout (c : Clock) (s : State) : Out :=
  if !s.due (s.releaseAsked c + 2) then .next s
  else if s.power.phase = .supplied ∧ c ≠ .cd0 then .next (recordStartupFault c s)
  else if s.power.phase = .running ∧ s.restarting c = true ∧ s.power.lostClocks.contains c = true then
    let mine := s.power.restarting.filter (fun x => x.1 == c)
    let s1 := recordStartupFault c (s.withPower { s.power with
      restarting := s.power.restarting.filter (fun x => x.1 != c), askedAt := s.power.askedAt.filter (fun x => x.1 != c) })
    .next (finishAll (mine.map (·.2.2)) stIslandRestarting s1)
  else .next s

/-! ## Watchdogs (R504, R520) -/

def execWatchdogReset (w : Watchdog) (s : State) : Out :=
  match w with
  | .rotunda => if s.up .cd5 then .next (rotundaRestart s) else .next s
  | .keep => if s.keepUp then .next (keepRestart s) else .next s
  | .belfry => if s.up .cd8 then .next (belfryRestart 8 s) else .next s
  | .oculus => if s.up .cd9 then .next (oculusRestart 9 s) else .next s

/-! ## BLOCK_RESET (R520, R521) -/

/-- No frame is being sent in the band, and no acknowledgement slot of its own is open. -/
def BandState.quiet (b : BandState) : Bool := b.medium != .sending && b.ackDue.isNone && !b.awaitingAck

/-- Field off, and no TAG_TXN exchanging. -/
def State.oculusQuiet (s : State) : Bool :=
  s.oculus.ant0.presentation.isNone && s.oculus.ant1.presentation.isNone && s.oculus.reach.isNone
    && !s.rotunda.channels.any (fun c => (c.txn?).any (fun b => b.state != 0))

/-- The port is in DISABLED or IDLE. -/
def State.laneQuiet (s : State) (p : Port) : Bool := (s.lane p).state == .disabled || (s.lane p).state == .idle

/-- What a request names: an island, or a lane of Turret. -/
def resetTarget (island port : Nat) : Option (Clock × Option Port) :=
  if island = 2 then (portOf port).map (fun p => (.cd2, some p))
  else if port ≠ 0xFF then none
  else if island = 8 then some (.cd8, none)
  else if island = 9 then some (.cd9, none)
  else none

/-- The target is idle, and no restart of it is in progress (J6). -/
def State.resettable (s : State) (x : Clock × Option Port) : Bool :=
  !s.power.restarting.any (fun y => y.1 == x.1 && y.2.1 == x.2) && !s.power.held.contains x.1 &&
    match x with
    | (.cd8, _) => s.belfry.low.quiet && s.belfry.upper.quiet
    | (.cd9, _) => s.oculusQuiet
    | (_, some p) => s.laneQuiet p
    | (_, none) => false

/-- The restart begins: the island is held in reset, a lane at once in DISABLED. -/
def beginReset (r : Req) (x : Clock × Option Port) (s : State) : State :=
  let s1 := (accept r s).withPower { s.power with
    restarting := s.power.restarting ++ [(x.1, x.2, r.wait)], askedAt := s.power.askedAt ++ [(x.1, s.now)]
    held := if x.2.isSome then s.power.held else addClocks [x.1] s.power.held }
  match x.2 with
  | some p => restartLane p s1
  | none => s1

def blockReset (r : Req) : State → State :=
  withLength (r.payload.length == 4) r <| noHandle r fun s =>
  match resetTarget (field r.payload 0 1) (field r.payload 1 1) with
  | some x => check (s.resettable x) stRefusedState r (beginReset r x) s
  | none => refuse r stParamRange s

def execBlockReset (b : Box) (s : State) : Out := request b 0x0115 blockReset s

/-- The target is released again. -/
def endReset_ (x : Clock × Option Port × Waiting) (s : State) : State :=
  match x with
  | (.cd8, _, _) => belfryRestart 14 (s.withPower { s.power with held := dropClock .cd8 s.power.held })
  | (.cd9, _, _) => oculusRestart 14 (s.withPower { s.power with held := dropClock .cd9 s.power.held })
  | (_, p, _) => noteRestart 14 p s

/-- BLOCK_RESET_COMPLETE: the oldest block-level reset in progress, not while its clock is lost (R21). -/
def execBlockResetComplete (s : State) : Out :=
  match s.power.restarting with
  | x :: rest =>
    if s.power.phase = .running ∧ s.power.lostClocks.contains x.1 = false then
      .next (finish x.2.2 stOk [] (endReset_ x (s.withPower { s.power with
        restarting := rest, askedAt := s.power.askedAt.filter (fun y => y.1 != x.1) })))
    else .next s
  | [] => .next s

end Sys2Proof.Machine
end

