-- ==== Sys2Proof/Machine/Legal.lean ====
section
/-! DEFINITION. Signed readings, certificates, the calibration seal, tamper inputs and the legal log (chapter 11). -/

namespace Sys2Proof.Machine

/-! ## Signed meter records (R337 to R341) -/

/-- Version and check value of the legal software of the active bundle (R304). -/
def State.activeBank (s : State) : Bank := if s.update.selector.active = 1 then s.update.banks[1] else s.update.banks[0]

/-- The values of a record before its counter, nonce and signature. -/
structure RecordCore where
  kind : Nat
  set : Nat
  interrupted : Bool
  restored : Bool
  session : Nat
  start : Nat
  end_ : Nat
  legalOf : Nat
  legalEae : Nat
  status : Word16
  sticky : Word16
  rate : Nat
  value0 : Nat
  value1 : Nat
  latchSeq : Nat
  period : Nat
  deriving DecidableEq, Repr

/-- Record content by kind (R338), its times billing time; a snapshot is found by its period. None while a session's value has not been latched. -/
def State.recordCore (s : State) (j : SignJob) : Option RecordCore :=
  let k := s.keep
  if j.kind = 1 then
    let x := k.latched.sets.toList.getD j.set LatchedSet.zero
    let i := mwh x.regs.total.eai
    let e := mwh x.regs.total.eae
    some ⟨1, j.set, false, false, 0, k.tariff.periodStart, k.latched.time, i, e, x.status, x.sticky, k.tariff.rate, i, e, k.latched.seq,
      k.tariff.period⟩
  else if j.kind = 4 then
    match k.snapshots.find? (fun n => n.period == j.index) with
    | some n =>
      let x := n.sets.toList.getD j.set LatchedSet.zero
      let i := mwh x.regs.total.eai
      let e := mwh x.regs.total.eae
      some ⟨4, j.set, false, false, 0, n.start, n.end_, i, e, x.sticky, x.sticky, n.rate, i, e, 0, n.period⟩
    | none => none
  else
    match j.body with
    | none => none
    | some b =>
      let live := ((s.portSession b.port).elim b (fun x => if x.1.handle = j.session then x.2 else b))
      match live.startEai with
      | none => none
      | some v0 =>
        if j.kind = 2 then
          some ⟨2, b.port.val, live.state == .interrupted, false, j.session, live.plugBilled, live.authBilled, v0, 0, live.startWord,
            live.startSticky, 0, v0, 0, live.startLatch, k.tariff.period⟩
        else
          live.endEai.map (fun v1 =>
            ⟨3, b.port.val, live.state == .interrupted, live.restored, j.session, live.plugBilled, live.endBilled, v1, 0, live.endWord,
              live.endSticky, 0, v0, v1, live.endLatch, k.tariff.period⟩)

/-- Flags byte of a record (R337); that of an interrupted session has RESTORED as it was set at the start after (R344). -/
def State.recordFlags (s : State) (c : RecordCore) : Nat :=
  b1 s.keep.uncertain * 128 + b1 (c.restored || (c.status ||| c.sticky) &&& bRestored != 0) * 64 + b1 (outOfTolerance c.sticky) * 32
    + b1 c.interrupted * 16 + b1 (s.legal.fuse == .intact) * 8 + b1 (s.legal.fuse == .undetermined) * 4

/-- Bytes 0 to 95 of a signed meter record (R337). -/
def State.recordBody (s : State) (c : RecordCore) (counter : Nat) (nonce : List Byte) : List Byte :=
  let bank := s.activeBank
  let two := c.kind == 2 || c.kind == 3
  le 1 1 ++ le 1 c.kind ++ le 1 c.set ++ le 1 (s.recordFlags c) ++ le 8 s.power.serial ++ le 8 counter ++ le 4 c.session
    ++ le 6 c.start ++ le 6 c.end_ ++ le 8 (legalValue c.legalOf) ++ le 8 (if two then 0 else legalValue c.legalEae)
    ++ le 1 (legalWraps c.legalOf) ++ le 1 (if two then 0 else legalWraps c.legalEae) ++ wordBytes c.status
    ++ wordBytes c.sticky ++ le 1 c.rate ++ [0] ++ le 8 c.value0 ++ le 8 c.value1 ++ le 4 c.latchSeq ++ le 2 bank.keepVersion
    ++ le 4 bank.swCheck ++ le 4 c.period ++ fit 6 nonce

/-- A counter value taken, its block reserved before the first value is used (R340). -/
def takeCounter (s : State) : Nat × State :=
  let c := s.legal.counter
  let end_ := if s.legal.reservedEnd ≤ c then c + 1024 else s.legal.reservedEnd
  (c, s.withLegal { s.legal with
    counter := c + 1, reservedEnd := end_
    reservedTwin := if end_ = s.legal.reservedEnd then s.legal.reservedTwin else s.legal.reservedTwin.write s.legal.reservedEnd })

/-- The record delivered: to its requester, or as SESSION_RECORD (R344, R358). -/
def deliverRecord (j : SignJob) (c : RecordCore) (rec_ : List Byte) (s : State) : State :=
  match j.request with
  | some w => finish w stOk rec_ s
  | none => raise 0x8094 (portOf c.set) rec_ s

/-- Cupola signs the head of the queue (R339, R341): ECDSA with the legal key over the record's first 96 bytes; the per-signature secret
comes of 40 bytes of the random generator, which are free. -/
def signHead (j : SignJob) (c : RecordCore) (s0 : State) : State :=
  let s := requeue s0.legal.signing.tail s0
  let n := takeCounter s
  let body := n.2.recordBody c n.1 j.nonce
  let sig := ecdsaSign n.2.legalKey (signatureSecret (n.2.drawnBytes 40)) body
  deliverRecord j c (body ++ sig) (traceEnclave 1 1 0 (countAt 52 1 (countAt 53 1 n.2.draw)))

/-- A snapshot that left its slot before its signature could start. -/
def dropHead (j : SignJob) (s : State) : State :=
  let s1 := requeue s.legal.signing.tail s
  match j.request with
  | some w => finish w stParamRange [] s1
  | none => s1

/-- Cupola serves signatures: up, not zeroized, its generator healthy (R341, R450, R453). -/
def State.signs (s : State) : Bool :=
  s.keepUp && s.up .cd7 && !s.cupola.zeroized && s.cupola.rootOk && s.cupola.rngHealthy

def execSignatureComplete (s : State) : Out :=
  match s.legal.signing with
  | j :: _ =>
    if s.signs then
      match s.recordCore j with
      | some c => .next (signHead j c s)
      | none => .next (if j.kind = 4 then dropHead j s else s)
    else .next s
  | [] => .next s

/-- READ_SIGNED's form (R358): set, index and handle suit the kind. -/
def readSignedOk (kind set index : Nat) : Bool :=
  within 1 4 kind && (if kind = 1 ∨ kind = 4 then decide (set ≤ 28) else set == 0)
    && (if kind = 4 then within 1 24 index else index == 0)

/-- A request joins the signing queue (R341). -/
def queueSignature (r : Req) (j : SignJob) (s : State) : State :=
  if !s.keepUp || !s.up .cd7 then refuse r stIslandRestarting s
  else if s.cupola.zeroized || !s.cupola.rootOk then acceptDone r stZeroized [] s
  else if 16 ≤ s.legal.signing.length ∨ !s.cupola.rngHealthy then refuse r stBusy s
  else
    (accept r s).withLegal { s.legal with signing := s.legal.signing ++ [{ j with request := some r.wait }] }

/-- READ_SIGNED (R357, R358). -/
def readSigned (r : Req) : State → State :=
  let kind := field r.payload 0 1
  let set := field r.payload 1 1
  let index := field r.payload 2 1
  let nonce := slice r.payload 4 6
  withLength (r.payload.length == 12) r fun s =>
  if kind = 2 ∨ kind = 3 then
    withHandle r (fun s =>
      match s.channelOf r.handle with
      | some c =>
        match c.body with
        | .session b =>
          if !readSignedOk kind set index then refuse r stParamRange s
          else if !b.wasAuthorised || (kind == 3 && b.state.live) then refuse r stRefusedState s
          else queueSignature r ⟨kind, b.port.val, r.handle, 0, nonce, none, some b⟩ s
        | _ => refuse r stHandleType s
      | none => refuse r stHandleType s) s
  else if r.handle ≠ 0 then refuse r stHandleRequired s
  else if !readSignedOk kind set index || (kind == 4 && decide (s.keep.snapshots.length < index)) then refuse r stParamRange s
  else
    let period := if kind = 4 then (s.keep.snapshots[index - 1]?).elim 0 (·.period) else 0
    queueSignature r ⟨kind, set, 0, period, nonce, none, none⟩ s

def execReadSigned (b : Box) (s : State) : Out := request b 0x0503 readSigned s

/-! ## Certificates and the log -/

/-- CERT_READ (R360). -/
def certRead (r : Req) : State → State :=
  let cert := field r.payload 0 1
  let off := field r.payload 2 2
  withLength (r.payload.length == 4) r <| noHandle r <| check (decide (cert ≤ 2)) stParamRange r fun s =>
  if s.cupola.zeroized then refuse r stZeroized s
  else
    let der := s.legal.certs.getD cert []
    let data := slice der off 448
    respond r stOk (le 2 der.length ++ le 2 off ++ le 2 data.length ++ [0, 0] ++ data) s

def execCertRead (b : Box) (s : State) : Out := request b 0x0508 certRead s

/-- LEGAL_LOG_READ (R359). -/
def legalLogRead (r : Req) : State → State :=
  let first := field r.payload 0 4
  let n := field r.payload 4 1
  withLength (r.payload.length == 8) r <| noHandle r <| check (within 1 14 n) stParamRange r <| keepServes r fun s =>
  let es := (s.legal.log.filter (fun e => decide (first ≤ e.index))).take n
  respond r stOk (le 1 es.length ++ zeros 3 ++ le 4 (s.legal.nextIndex - 1) ++ le 4 (s.legal.log.head?.elim 0 (·.index))
    ++ es.flatMap LogEntry.bytes) s

def execLegalLogRead (b : Box) (s : State) : Out := request b 0x0507 legalLogRead s

/-! ## The calibration seal (R345 to R348) -/

/-- CAL_SEAL's checks of step 1 (R347), none where all pass. -/
def State.sealRefusal (s : State) (check_ : Nat) : Option Nat :=
  match s.calRefusal with
  | some st => some st
  | none =>
    if s.dsp.capture.isSome || !s.dsp.calPending.isEmpty || s.legal.sealing.isSome then some stBusy
    else if check_ ≠ s.calCheck then some stCheckValueMismatch else none

/-- CAL_SEAL: the first programming pulse follows its acceptance (R347, R361). -/
def calSeal (r : Req) : State → State :=
  let c := field r.payload 0 4
  withLength (r.payload.length == 4) r <| noHandle r <| keepServes r fun s =>
  match s.sealRefusal c with
  | some st => refuse r st s
  | none => (accept r s).withLegal { s.legal with sealing := some (1, c, r.wait) }

def execCalSeal (b : Box) (s : State) : Out := request b 0x050B calSeal s

def FuseSense.code : FuseSense → Nat
  | .intact => 0
  | .blown => 1
  | .undetermined => 2

/-- After a pulse the fuse is sensed: blown ends the pulses, the third pulse ends the sequence (R347). -/
def execSealPulseEnd (sense : FuseSense) (s : State) : Out :=
  match s.legal.sealing with
  | none => .next s
  | some (pulses, c, w) =>
    if s.keepUp then
      let f := senseFuse s.legal.fuse sense
      if f ≠ .blown ∧ pulses < 3 then
        .next (s.withLegal { s.legal with fuse := f, sealing := some (pulses + 1, c, w) })
      else
        let s1 := s.withLegal { s.legal with fuse := f, sealing := none }
        let s2 := if f = .intact then s1 else sealLog f s1.keep.uncertain c pulses s1
        .next (finish w stOk (le 1 (FuseSense.code f) ++ le 1 pulses ++ [0, 0] ++ le 4 c ++ le 6 s2.keep.billing ++ [0, 0]) s2)
    else .next s

/-- A CALEN level steady for 50 ms is taken and logged (R345); its fall ends a capture not yet committed (R178). -/
def execCalenChange (level : Bool) (s : State) : Out :=
  if s.keepUp && s.legal.calen != level then
    let s1 := keepLog (if level then 0x0010 else 0x0011) originKeep [] (s.withLegal { s.legal with calen := level })
    match s1.dsp.capture with
    | some c =>
      if level then .next s1 else .next (finish c.waiting stCalenLow [] (s1.withDsp { s1.dsp with capture := none }))
    | none => .next s1
  else .next s

/-! ## Tamper inputs (R349 to R351) -/

/-- Legal log types of the two inputs (R354). -/
def tamperType (t : TamperInput) (opened : Bool) : Nat :=
  match t with
  | .cover => if opened then 1 else 2
  | .terminal => if opened then 3 else 4

/-- Two samples 125 ms apart agree: the change is stamped with the first (R349) and stored (R350). -/
def execTamperInputChange (t : TamperInput) (opened : Bool) (s : State) : Out :=
  let was := match t with
    | .cover => s.legal.coverOpen
    | .terminal => s.legal.terminalOpen
  if s.aon && was != opened then
    let s1 := aonStore (w48 (s.civil - 125)) (tamperType t opened) 0 s
    .next (s1.withLegal (match t with
      | .cover => { s1.legal with coverOpen := opened }
      | .terminal => { s1.legal with terminalOpen := opened }))
  else .next s

/-- The Keep moves the buffer's entries while main supply is present (R351). -/
def execTamperBufferMove (s : State) : Out := if s.keepUp then .next (moveAonBuffer s) else .next s

end Sys2Proof.Machine
end

