-- ==== Sys2Proof/Machine/Mailboxes.lean ====
section
/-! DEFINITION. Host ports and mailboxes: the SPI transactions, the UART and USB units, attaching and detaching, and the times that
end an attach, its bar and a session (chapter 02; R477 to R479 for the service port). -/

namespace Sys2Proof.Machine

/-! ## Receiving and sending frames -/

/-- The link island has its clock, and answers while its mailboxes do not serve yet (R48, R73). -/
def State.linkUp (s : State) : Bool :=
  s.clocked .cd10 || s.power.phase == .recovery

/-- A received frame discarded, counted and answered by nothing (R49, R58). -/
def discardFrame (b : Box) (s : State) : State :=
  countError b (s.modBox b (fun m => { m with lastAccepted := false }))

/-- A frame that passed checks 1 to 3 placed in the inbound ring with its place in the order of R68. -/
def placeFrame (b : Box) (f : Frame) (s : State) : State :=
  let s1 := s.withRotunda { s.rotunda with arrivals := s.rotunda.arrivals + 1 }
  let s2 := s1.modHost b (fun m => { m with
    inRing := m.inRing ++ [f], lastAccepted := true, framesIn := w32 (m.framesIn + 1) })
  traceFrame b 0 f s2

/-- A received frame: placed when the mailbox serves, has space and checks 1 to 3 pass; discarded and counted otherwise. -/
def receiveFrame (b : Box) (bytes : List Byte) (s : State) : State :=
  let s1 := if 4 ≤ b.val then countAt (24 + b.val) 1 s else s
  match parseFrame (s.rotunda.arrivals + 1) bytes with
  | none => discardFrame b (if b.val < 4 then countAt (24 + b.val) 1 s1 else s1)
  | some f =>
    if s.servesBox b && decide ((s.box b).inRing.length < 8) then settleAll (placeFrame b f s1)
    else discardFrame b s1

/-- The oldest outbound frame leaves its ring and is kept; an EVENT_GAP due comes first into the freed slot (R50, R55, R61). -/
def consumeOut (b : Box) (f : Frame) (s : State) : State :=
  let s1 := s.modHost b (fun m => { m with
    outRing := m.outRing.tail, kept := some f, framesOut := w32 (m.framesOut + 1), lastTxAt := s.now })
  queueGap b s1

def setWire (b : Box) (bytes : List Byte) (s : State) : State := s.modBox b (fun m => { m with wire := bytes })

/-! ## SPI transactions (R47 to R50) -/

/-- STATUS, 0x3C: the status byte, then the status block; ERR is then clear, which the HOST channel's status byte shows (R74). -/
def execStatus (p : HostPort) (s : State) : Out :=
  if s.linkUp && s.isSpi p then
    let told (m : Mailbox) : Mailbox := { m with wire := le 1 (s.statusByte (hostBox p)) ++ s.statusBlock (hostBox p), errFlag := false }
    .next (if (s.box (hostBox p)).errFlag then s.modHost (hostBox p) told else s.modBox (hostBox p) told)
  else .next s

/-- WRITE_FRAME, 0x5A (R49): the frame's bytes between the command byte and CS_N rise. -/
def execWriteFrame (p : HostPort) (bytes : List Byte) (s : State) : Out :=
  if s.linkUp && s.isSpi p then
    .next (receiveFrame (hostBox p) bytes (setWire (hostBox p) (le 1 (s.statusByte (hostBox p)) ++ zeros bytes.length) s))
  else .next s

/-- READ_FRAME, 0xA5 (R50): `clocked` frame bytes are clocked out before CS_N rises; all of them consume the frame. -/
def execReadFrame (p : HostPort) (clocked : Nat) (s : State) : Out :=
  if s.linkUp && s.isSpi p then
    match (s.box (hostBox p)).outRing with
    | [] => .next (setWire (hostBox p) (le 1 (s.statusByte (hostBox p)) ++ [0]) s)
    | f :: _ =>
      let s1 := setWire (hostBox p) (le 1 (s.statusByte (hostBox p)) ++ [1] ++ f.bytes.take clocked) s
      if f.bytes.length ≤ clocked then .next (settleAll (consumeOut (hostBox p) f s1)) else .next s1
  else .next s

/-- READ_AGAIN, 0xC3: the kept frame, if one is kept. -/
def execReadAgain (p : HostPort) (s : State) : Out :=
  if s.linkUp && s.isSpi p then
    .next (setWire (hostBox p) (le 1 (s.statusByte (hostBox p)) ++
      match (s.box (hostBox p)).kept with
      | some f => [1] ++ f.bytes
      | none => [0]) s)
  else .next s

/-- The command bytes of R47. -/
def spiCommandBytes : List Byte := [0x3C, 0x5A, 0xA5, 0xC3]

/-- Any other command byte is a frame error; of the bytes clocked after it every one is 0x00 on MISO until CS_N rises (R47). -/
def execSpiUnknownCommandByte (p : HostPort) (x : StrayCommand) (s : State) : Out :=
  if s.linkUp && s.isSpi p && !spiCommandBytes.contains x.cmd then
    .next (countError (hostBox p) (setWire (hostBox p) (le 1 (s.statusByte (hostBox p)) ++ zeros x.clocked) s))
  else .next s

/-! ## UART units (R52 to R55, R479) and USB transfers (R478) -/

def uartBox : Uart → Box
  | .hp3 => 3
  | .svc => 5

/-- The UART exists in the present options and its island runs. -/
def State.uartUp (s : State) (u : Uart) : Bool :=
  s.linkUp && match u with
    | .hp3 => s.hp3Uart
    | .svc => true

/-- A unit received whole: its content between the flags, escapes as on the line. -/
def execUartMailboxUnit (u : Uart) (bytes : List Byte) (s : State) : Out :=
  if s.uartUp u then .next (receiveFrame (uartBox u) (unescapeUnit bytes) s) else .next s

/-- A gap of more than 10 character times aborts the unit and counts a frame error (R52). -/
def execUartUnitAbort (u : Uart) (s : State) : Out :=
  if s.uartUp u then .next (countError (uartBox u) s) else .next s

/-- The most recently sent frame is sent again (R55). -/
def execLinkControlResend (u : Uart) (s : State) : Out :=
  if s.uartUp u then
    match (s.box (uartBox u)).kept with
    | some f => .next (s.modBox (uartBox u) (fun m => { m with wire := unitOnLine f.bytes, lastTxAt := s.now }))
    | none => .next s
  else .next s

/-- A 0xE5 unit is due: an inbound slot became free, or nothing was sent for 100 ms (R54). -/
def State.linkStatusDue (s : State) (u : Uart) : Bool :=
  (s.box (uartBox u)).slotFreed || s.due ((s.box (uartBox u)).lastTxAt + 100)

/-- The 0xE5 unit: free inbound slots, outbound frames, port status byte (R53, R54). -/
def execLinkStatusUnit (u : Uart) (s : State) : Out :=
  if s.uartUp u && s.linkStatusDue u then
    let m := s.box (uartBox u)
    .next (s.modBox (uartBox u) (fun n => { n with
      wire := unitOnLine ([0xE5] ++ le 1 m.inFree ++ le 1 m.outRing.length ++ le 1 (s.statusByte (uartBox u)))
      lastTxAt := s.now, slotFreed := false }))
  else .next s

/-- The closing flag of the oldest outbound frame has been sent (R55). -/
def execUartFrameSent (u : Uart) (s : State) : Out :=
  if s.uartUp u then
    match (s.box (uartBox u)).outRing with
    | [] => .next s
    | f :: _ => .next (settleAll (consumeOut (uartBox u) f (setWire (uartBox u) (unitOnLine f.bytes) s)))
  else .next s

/-- Lane 0 is connected while SVC_VBUS is above 4.0 V; a full inbound ring answers NAK (R478). -/
def execBulkOutTransfer (bytes : List Byte) (s : State) : Out :=
  if s.linkUp && s.update.vbus && decide ((s.box 4).inRing.length < 8) then .next (receiveFrame 4 bytes s) else .next s

/-- The host reads the oldest outbound frame of lane 0 as one transfer. -/
def execBulkInTransfer (s : State) : Out :=
  if s.linkUp && s.update.vbus then
    match (s.box 4).outRing with
    | [] => .next (setWire 4 [] s)
    | f :: _ => .next (settleAll (consumeOut 4 f (setWire 4 f.bytes s)))
  else .next s

/-- A slot has freed after lost events: the EVENT_GAP event is queued (R61). -/
def execEventGap (b : Box) (s : State) : Out :=
  if s.servesBox b then .next (queueGap b s) else .next s

/-! ## Attaching (R62 to R67) -/

/-- Key slot of a host port: slots 3 to 6 (R445), kept at index slot − 2. -/
def hostKey (s : State) (p : HostPort) : Option (List Byte) :=
  (s.cupola.slots[p.val + 1]'(by omega)).key

/-- A proof or key of R62: AES-CMAC over label, two nonces, port and role. -/
def attachMac (key : List Byte) (label : Byte) (n1 n2 : List Byte) (p : HostPort) (role : Nat) : List Byte :=
  cmac key ([label] ++ n1 ++ n2 ++ le 1 p.val ++ le 1 role)

/-- HOST_ATTACH's response (R62). -/
def attachResponse (r : Req) (s : State) (role mode : Nat) (nd proof : List Byte) : List Byte :=
  le 1 role ++ le 1 mode ++ le 1 r.box.val ++ [0] ++ fit 16 nd ++ fit 16 proof ++ le 2 s.power.inForce.keepalive
    ++ le 2 r.before

/-- SUPERVISOR is reserved or held on another port (R67). -/
def supervisorElsewhere (s : State) (p : HostPort) : Bool :=
  match s.rotunda.supervisor with
  | .free => false
  | .reserved q => q != p
  | .held q => q != p

/-- The session that begins: extended sequences from the request's own, events from 0 (R65). -/
def openSession (b : Box) (role : Nat) (keyed : Bool) (key : List Byte) (seq : Nat) (s : State) : State :=
  s.modHost b (fun m => { m with
    session := some ⟨role, keyed, key, s.time, w16 seq, 0, 0, w16 seq⟩, attach := none, attachedTime := s.time
    lastRx := s.time, lastRxAt := s.now })

/-- An attach abandoned or failed: its reservation ends (R63, R67). -/
def dropAttach (p : HostPort) (s : State) : State :=
  let s1 := s.modBox (hostBox p) (fun m => { m with attach := none })
  if s1.rotunda.supervisor = .reserved p then s1.withRotunda { s1.rotunda with supervisor := .free } else s1

/-- A failed attach: the third within 10 s bars HOST_ATTACH for 10 s (R63). -/
def failAttach (p : HostPort) (s : State) : State :=
  (dropAttach p s).modBox (hostBox p) (fun m =>
    let recent := m.failedAttaches.filter (fun t => s.now < t + 10000) ++ [s.now]
    if 3 ≤ recent.length then { m with failedAttaches := [], barUntil := some (s.now + 10000) }
    else { m with failedAttaches := recent })

/-- Status with which Cupola refuses a mode 1 attach, none when it can serve (R450, R453, R455 Z7, R445). -/
def attachRefusal (s : State) (p : HostPort) : Option Nat :=
  if s.cupola.zeroized then some stAttachFailed
  else if !s.up .cd7 then some stIslandRestarting
  else if !s.cupola.rootOk then some stZeroized
  else if (hostKey s p).isNone then some stKeySlotEmpty
  else if !s.cupola.rngHealthy then some stBusy
  else none

/-- HOST_ATTACH barred until a time (R63). -/
def State.barred (s : State) (b : Box) : Bool :=
  match (s.box b).barUntil with
  | some t => decide (s.now < t)
  | none => false

/-- The mode suits the role (R62). -/
def modeSuits (role mode : Nat) : Bool :=
  if role = roleSupervisor ∨ role = roleBilling then mode == 1 else mode == 0

/-- Steps 1 and 2 in mode 1: nonce drawn, device proof answered, host proof and session key kept for step 4. -/
def attachKeyed (p : HostPort) (r : Req) (role : Nat) (nh : List Byte) (s : State) : State :=
  let key := (hostKey s p).getD []
  let nd := s.drawnBytes 16
  let s1 := traceEnclave 2 (p.val + 3) 0 (countAt 53 1 s.draw)
  let s2 := if role = roleSupervisor then s1.withRotunda { s1.rotunda with supervisor := .reserved p } else s1
  let a : PendingAttach :=
    ⟨role, attachMac key 0x02 nd nh p role, attachMac key 0x03 nh nd p role, r.seq, s.now + 1000⟩
  let s3 := s2.modBox (hostBox p) (fun m => { m with attach := some a })
  respond r stOk (attachResponse r s role 1 nd (attachMac key 0x01 nh nd p role)) s3

/-- HOST_ATTACH past role and mode: it ends the port's session and its pending attach first (R63, R66), whatever it is answered. -/
def attachAnew (p : HostPort) (r : Req) (role mode : Nat) (nh : List Byte) (s : State) : State :=
  let s0 := dropAttach p (endSession (hostBox p) s)
  if s.barred (hostBox p) then refuse r stAttachFailed s0
  else if decide (role = roleSupervisor) && supervisorElsewhere s p then refuse r stSupervisorTaken s0
  else if mode = 0 then
    respond r stOk (attachResponse r s role 0 [] []) (openSession (hostBox p) role false [] r.seq s0)
  else
    match attachRefusal s p with
    | some st => refuse r st s0
    | none => attachKeyed p r role nh s0

/-- HOST_ATTACH: the role, then the mode, and neither refusal changes the port's session (R62). -/
def hostAttach (p : HostPort) (r : Req) : State → State :=
  let role := field r.payload 0 1
  let mode := field r.payload 1 1
  withLength (r.payload.length == 20) r <| noHandle r fun s =>
  if role ≠ s.roleOf (hostBox p) then refuse r stRoleDenied s
  else if !modeSuits role mode then refuse r stParamRange s
  else attachAnew p r role mode (slice r.payload 4 16) s

def execHostAttach (b : Box) (s : State) : Out :=
  if h : b.val < 4 then request b 0x0101 (hostAttach ⟨b.val, h⟩) s else request b 0x0101 (fun r => refuse r stRoleDenied) s

/-- HOST_ATTACH_CONFIRM: the host proof checked, the session opened; its response is the first authenticated frame (R62). -/
def hostAttachConfirm (p : HostPort) (r : Req) : State → State :=
  withLength (r.payload.length == 16) r <| noHandle r fun s =>
  match (s.box (hostBox p)).attach with
  | none => refuse r (if s.attached (hostBox p) then stRefusedState else stNotAttached) s
  | some a =>
    if a.deadline < s.now then refuse r stNotAttached (failAttach p s)
    else if r.payload = a.hostProof then
      let s1 := openSession (hostBox p) a.role true a.sessionKey r.seq s
      let s2 := if s1.rotunda.supervisor = .reserved p then s1.withRotunda { s1.rotunda with supervisor := .held p } else s1
      respond r stOk [] s2
    else refuse r stAttachFailed (failAttach p s)

def execHostAttachConfirm (b : Box) (s : State) : Out :=
  if h : b.val < 4 then request b 0x0102 (hostAttachConfirm ⟨b.val, h⟩) s
  else request b 0x0102 (fun r => refuse r stRoleDenied) s

/-- Step 4 did not arrive within 1 s of step 2 (R63). -/
def execAttachTimeout (p : HostPort) (s : State) : Out :=
  match (s.box (hostBox p)).attach with
  | some a => if s.serves && s.due a.deadline then .next (failAttach p s) else .next s
  | none => .next s

/-- The bar of R63 ends. -/
def execAttachBarEnd (p : HostPort) (s : State) : Out :=
  match (s.box (hostBox p)).barUntil with
  | some t => if s.serves && s.due t then .next (s.modBox (hostBox p) (fun m => { m with barUntil := none })) else .next s
  | none => .next s

/-- HOST_DETACH: answered, then the session ends (R66). -/
def hostDetach (r : Req) : State → State :=
  withLength r.payload.isEmpty r <| noHandle r fun s => endSession r.box (respond r stOk [] s)

def execHostDetach (b : Box) (s : State) : Out := request b 0x0103 hostDetach s

/-- HOST_STATUS: bytes 32 to 79 of the port's HOST body (R66, R74). -/
def hostStatus (p : HostPort) (r : Req) : State → State :=
  withLength r.payload.isEmpty r <| noHandle r <| intact (0x19 + p.val) r fun s => respond r stOk (s.hostBody p) s

def execHostStatus (b : Box) (s : State) : Out :=
  if h : b.val < 4 then request b 0x0104 (hostStatus ⟨b.val, h⟩) s else request b 0x0104 (fun r => refuse r stRoleDenied) s

/-- A keepalive time without a valid inbound frame ends the session (R66). -/
def execKeepaliveExpiry (p : HostPort) (s : State) : Out :=
  if s.serves && s.attached (hostBox p) && s.due ((s.box (hostBox p)).lastRxAt + 1000 * s.power.inForce.keepalive) then
    .next (endSession (hostBox p) s)
  else .next s

end Sys2Proof.Machine
end

