-- ==== Sys2Proof/Machine/Options.lean ====
section
/-! DEFINITION. What the device says of itself, and the option block: DEVICE_INFO, RESET_CAUSE, OPTION_READ and OPTION_WRITE
(R515 to R517, R525). -/

namespace Sys2Proof.Machine

/-! ## The option block (R515, R516) -/

/-- The safe defaults held in OTP (R516). -/
def OptionBlock.safe : OptionBlock :=
  ⟨0, #v[3, 0, 0, 0], 0, 0, 60, 0, 16, 0, 0, 0, 0⟩

/-- Bytes 8 to 21. -/
def OptionBlock.tail (o : OptionBlock) : List Byte :=
  o.roles.toList.flatMap (le 1) ++ le 1 o.hp3Mode ++ le 1 o.hp3Baud ++ le 2 o.keepalive ++ le 1 o.uryan ++ le 1 o.bucketDepth
    ++ le 1 o.mesh ++ le 1 o.lantern ++ le 1 o.region ++ le 1 o.portStart

/-- A block as its 256 bytes. -/
def OptionBlock.bytes (o : OptionBlock) : List Byte :=
  let body := le 2 0x0B1C ++ [1, 0] ++ le 4 o.seq ++ o.tail ++ zeros 230
  body ++ le 4 (crc32c body)

/-- The block whose bytes 8 to 21 are these. -/
def OptionBlock.ofTail (seq : Nat) (x : List Byte) : OptionBlock where
  seq := seq
  roles := Vector.ofFn (fun i => field x i.val 1)
  hp3Mode := field x 4 1
  hp3Baud := field x 5 1
  keepalive := field x 6 2
  uryan := field x 8 1
  bucketDepth := field x 9 1
  mesh := field x 10 1
  lantern := field x 11 1
  region := field x 12 1
  portStart := field x 13 1

/-- A sequence that wraps at 2^32 is above another. -/
def seqAbove (a b : Nat) : Bool := a != b && decide (w32 (a + 4294967296 - b) < 2147483648)

/-- Copy 1 governs (R515). -/
def Power.copyOne (x : Power) : Bool :=
  match x.option0, x.option1 with
  | some a, some b => seqAbove b.seq a.seq
  | none, some _ => true
  | _, none => false

/-- The newest valid stored copy. -/
def Power.newest (x : Power) : Option OptionBlock := if x.copyOne then x.option1 else x.option0

/-- The option loader: the newest valid copy, or the safe defaults (R515). -/
def Power.loadOptions (x : Power) : Power :=
  { x with inForce := x.newest.getD OptionBlock.safe, safeDefaults := x.newest.isNone }

/-! ## Queries -/

/-- DEVICE_INFO response payload. -/
def State.deviceInfo (s : State) : List Byte :=
  let x := s.power
  le 8 x.serial ++ le 1 x.grade ++ le 1 24 ++ le 2 256 ++ le 1 4 ++ le 1 2 ++ le 2 s.activeBank.keepVersion
    ++ le 4 s.activeBank.swCheck ++ fit 4 s.activeBank.version ++ le 6 x.bootTime ++ le 4 ((s.now - x.bootAt) / 1000)
    ++ le 1 (bits [false, false, false, false, x.vbakLow, s.cupola.zeroized, x.phase == .recovery, x.safeDefaults]) ++ [0]

theorem deviceInfo_length (s : State) : s.deviceInfo.length = 36 := by simp [State.deviceInfo]

def deviceInfo (r : Req) : State → State :=
  withLength r.payload.isEmpty r <| noHandle r fun s => respond r stOk s.deviceInfo s

def execDeviceInfo (b : Box) (s : State) : Out := request b 0x0110 deviceInfo s

/-- Clock domains in the order of their numbers. -/
def allDomains : List Clock := [.cd0, .cd1, .cd2, .cd3, .cd4, .cd5, .cd6, .cd7, .cd8, .cd9, .cd10, .cd11]

/-- RESET_CAUSE's flags byte. -/
def Power.causeFlags (x : Power) : List Byte :=
  le 1 (bits [false, false, false, x.rtcLost, x.supplyFault.isSome, x.safeDefaults, x.holdUpBefore, x.resetStuck])

/-- Start-up faults by clock domain (R514). -/
def Power.faultBits (x : Power) : List Byte := le 2 (bits (allDomains.map (fun c => x.startupFaults.contains c)))

/-- RESET_CAUSE response payload. -/
def State.resetCauseBody (s : State) : List Byte :=
  let x := s.power
  le 1 x.cause ++ x.causeFlags ++ x.faultBits ++ le 6 (x.powerOff.getD 0) ++ le 6 x.bootTime ++ le 1 x.lastRestart
    ++ le 1 (portByte x.restartPort) ++ le 6 x.restartTime ++ le 4 x.boots

theorem resetCauseBody_length (s : State) : s.resetCauseBody.length = 28 := by
  simp [State.resetCauseBody, Power.causeFlags, Power.faultBits]

def resetCause (r : Req) : State → State :=
  withLength r.payload.isEmpty r <| noHandle r fun s => respond r stOk s.resetCauseBody s

def execResetCause (b : Box) (s : State) : Out := request b 0x0116 resetCause s

/-- OPTION_READ response payload: the block in force, or the newest valid stored copy. -/
def State.optionBody (s : State) (source : Nat) : List Byte :=
  let x := s.power
  le 1 source ++ le 1 (bits [false, false, false, false, false, x.option1.isSome, x.option0.isSome, x.safeDefaults]) ++ [0, 0]
    ++ (if source = 0 then x.inForce.bytes else x.newest.elim (zeros 256) OptionBlock.bytes)

def optionRead (r : Req) : State → State :=
  withLength (r.payload.length == 4) r <| noHandle r <| check (decide (field r.payload 0 1 ≤ 1)) stParamRange r fun s =>
  respond r stOk (s.optionBody (field r.payload 0 1)) s

def execOptionRead (b : Box) (s : State) : Out := request b 0x0117 optionRead s

/-! ## OPTION_WRITE (R517) -/

/-- Every value lies in its range, and some port has role SUPERVISOR. -/
def OptionBlock.ok (o : OptionBlock) : Bool :=
  o.roles.toList.all (fun x => decide (x ≤ 3)) && o.roles.toList.contains 3 && decide (o.hp3Mode ≤ 1) && decide (o.hp3Baud ≤ 4)
    && within 5 300 o.keepalive && decide (o.uryan ≤ 1) && within 4 64 o.bucketDepth && decide (o.mesh ≤ 1)
    && decide (o.lantern ≤ 1) && decide (o.portStart ≤ 1)

/-- The stored block with bytes from an offset replaced and its sequence moved on. -/
def OptionBlock.patch (o : OptionBlock) (offset : Nat) (data : List Byte) : OptionBlock :=
  let x := o.tail
  OptionBlock.ofTail (w32 (o.seq + 1)) (x.take (offset - 8) ++ data ++ x.drop (offset - 8 + data.length))

/-- The whole block written into the older copy. -/
def Power.writeOption (x : Power) (o : OptionBlock) : Power :=
  if x.newest.isSome && !x.copyOne then { x with option1 := some o } else { x with option0 := some o }

def optionWrite (r : Req) : State → State :=
  let offset := field r.payload 0 1
  let n := field r.payload 1 1
  let id := field r.payload 4 4
  withLength (decide (8 ≤ r.payload.length) && r.payload.length == 8 + n) r <| noHandle r <|
  check (within 8 21 offset && within 1 14 n && decide (offset + n ≤ 22)) stParamRange r fun s =>
  let old := s.power.newest.getD OptionBlock.safe
  let new_ := old.patch offset (r.payload.drop 8)
  let asks := old.uryan != new_.uryan || old.mesh != new_.mesh
  check (new_.ok && new_.region == old.region) stParamRange r
    (check (!asks || s.installerProof id) stLocalConfirmMissing r <| storing r (fun s =>
      let s1 := accept r s
      let s2 := if asks then markProofUsed id s1 else s1
      finish r.wait stOk (le 4 new_.seq) (s2.withPower (s2.power.writeOption new_)))) s

def execOptionWrite (b : Box) (s : State) : Out := request b 0x0118 optionWrite s

end Sys2Proof.Machine
end

