-- ==== Sys2Proof/Machine/Update.lean ====
section
/-! DEFINITION. Firmware update through the service port (chapter 16): the bundle's checks, claims and blocks, the owner lock,
activation, the check at boot, trial, confirmation and fall-back. -/

namespace Sys2Proof.Machine

/-! ## Banks and bundles (R482 to R485) -/

/-- Lane of a service mailbox. -/
def laneOf (b : Box) : Fin 2 := if b = 4 then 0 else 1

/-- The other bank. -/
def otherBank (i : Fin 2) : Fin 2 := if i = 0 then 1 else 0

/-- The bank the selector names. -/
def Update.activeIx (u : Update) : Fin 2 := if u.selector.active = 1 then 1 else 0

/-- The inactive bank, to which blocks go. -/
def Update.spareIx (u : Update) : Fin 2 := otherBank u.activeIx

/-- A 2 KiB block of erased NOR. -/
def erasedBlock : List Byte := List.replicate 2048 0xFF

/-- The block put in place, the list kept by rising index; an erased block is not listed. -/
def putBlockAt (i : Nat) (data : List Byte) : List (Nat × List Byte) → List (Nat × List Byte)
  | [] => if data = erasedBlock then [] else [(i, data)]
  | (j, d) :: rest =>
    if j < i then (j, d) :: putBlockAt i data rest
    else
      let tail := if j = i then rest else (j, d) :: rest
      if data = erasedBlock then tail else (i, data) :: tail

/-- One block of a bank as read. -/
def Bank.block (b : Bank) (i : Nat) : List Byte := ((b.content.find? (fun x => x.1 == i)).elim erasedBlock (·.2))

/-- `n` bytes of a bank from an offset. -/
def Bank.read (b : Bank) (off n : Nat) : List Byte :=
  slice ((List.range ((off % 2048 + n + 2047) / 2048)).flatMap (fun k => b.block (off / 2048 + k))) (off % 2048) n

def Bank.manifest (b : Bank) : List Byte := b.read 0 4096

/-- Bytes in a bank (R482). -/
def bankSize : Nat := 25165824

/-- Blocks of a length. -/
def blocksOf (length : Nat) : Nat := (length + 2047) / 2048

/-- A part of the manifest's list (R483): identifier, offset, length, digest, and whether its reserved bytes are 0. -/
structure Part where
  id : Nat
  offset : Nat
  length : Nat
  digest : List Byte
  clean : Bool
  deriving DecidableEq, Repr

/-- The eight parts a manifest lists. -/
def manifestParts (m : List Byte) : List Part :=
  (List.range 8).map (fun i =>
    let e := slice m (64 + 48 * i) 48
    ⟨field e 0 1, field e 4 4, field e 8 4, slice e 16 32, isZero (slice e 1 3)⟩)

/-- Parts begin on 4 KiB boundaries, end within the bundle and do not overlap (R482); every identifier appears once (R484). -/
def partsOk (length : Nat) (ps : List Part) : Bool :=
  ps.all (fun p => p.clean && p.offset % 4096 == 0 && decide (28672 ≤ p.offset ∧ p.offset + p.length ≤ length))
    && decide (ps.Pairwise (fun p q => p.offset + p.length ≤ q.offset ∨ q.offset + q.length ≤ p.offset))
    && (List.range 8).all (fun i => ps.countP (fun p => p.id == i + 1) == 1)

/-- The 32 bytes of key slot 10 (R445). -/
def slotTen : List Byte := (List.range 32).map Config.vendorHash

/-- The manifest is valid (R484). -/
def State.manifestOk (s : State) (m : List Byte) : Bool :=
  let len := field m 12 4
  let flags := field m 7 1
  let counter := slice m 576 64
  slice m 0 4 == [0x49, 0x4C, 0x44, 0x42] && field m 4 1 == 1 && field m 5 1 == 8 && within 1 64 (field m 6 1)
    && decide (flags ≤ 1) && within 1 bankSize len && isZero (slice m 18 14) && isZero (slice m 704 3392)
    && partsOk len (manifestParts m)
    && sha256 (slice m 448 64) == slotTen && ecdsaVerify (slice m 448 64) (slice m 0 512) (slice m 512 64)
    && (isZero s.cupola.oemHash || (flags == 1 && sha256 counter == fit 32 s.cupola.oemHash
      && ecdsaVerify counter (slice m 0 640) (slice m 640 64)))

/-- table_digest and the digest of every part (R494). -/
def Bank.digestsOk (b : Bank) : Bool :=
  let m := b.manifest
  sha256 (b.read 4096 24576) == slice m 32 32 && (manifestParts m).all (fun p => sha256 (b.read p.offset p.length) == p.digest)

/-- The full verification of a bank (R494): what reading its NOR array finds, and the checks of what was written to it. The bank as
shipped holds a bundle whose bytes the model does not carry. -/
def State.verify (s : State) (i : Fin 2) (found : BundleCheck) : BundleCheck :=
  let b := s.update.banks[i]
  if found ≠ .ok ∨ b.content.isEmpty = true then found
  else if !s.manifestOk b.manifest then .manifestInvalid
  else if field b.manifest 6 1 < s.update.fuses then .rollback
  else if !b.digestsOk then .digestMismatch
  else .ok

/-- Update results of a failed verification (R502). -/
def checkResult : BundleCheck → Nat
  | .ok => 0
  | .manifestInvalid => 2
  | .digestMismatch => 3
  | .rollback => 4

/-- A part of a bundle by its identifier. -/
def Bank.part (b : Bank) (id : Nat) : List Byte :=
  match (manifestParts b.manifest).find? (fun p => p.id == id) with
  | some p => b.read p.offset p.length
  | none => []

/-- What a verified bank's manifest and parts say of it: the bundle digest (R483), its versions, and the identification of R304. -/
def Bank.identified (b : Bank) : Bank :=
  if b.content.isEmpty then b
  else
    let m := b.manifest
    { b with
      digest := sha256 m, version := slice m 8 4, securityVersion := field m 6 1, settingsFormat := field m 16 2
      keepVersion := Config.keepVersion (b.part 3), swCheck := crc32c (b.part 3 ++ b.part 4) }

/-- The fields of a bank's verification record that its CMAC covers (R495). The manual does not lay them out. DESIGN CHOICE (log 209). unsafe. -/
def Bank.recordBytes (i : Fin 2) (b : Bank) : List Byte :=
  le 1 i.val ++ fit 32 b.digest ++ fit 4 b.version ++ le 1 b.securityVersion ++ le 6 b.recordTime

/-- Their CMAC under key slot 9 (R445, R495). -/
def State.recordMac (s : State) (i : Fin 2) (b : Bank) : List Byte := cmac (s.derived labelVrec 16) (b.recordBytes i)

/-- The bank with its verification record written (R494, R495); without the root no record can be sealed (R453). -/
def State.verifiedBank (s : State) (i : Fin 2) : Bank :=
  let b := { (s.update.banks[i]).identified with recordTime := s.time }
  { b with recordValid := s.cupola.rootOk, recordMac := s.recordMac i b }

/-- Every 4 KiB block of the bundle after its block_table matches its entry, with bytes beyond the bundle's length taken as 0xFF
(R482, R495). -/
def Bank.blocksOk (b : Bank) : Bool :=
  let len := field b.manifest 12 4
  (List.range 6144).all (fun i => decide (i < 7) || decide (len ≤ 4096 * i) ||
    let n := min 4096 (len - 4096 * i)
    crc32c (b.read (4096 * i) n ++ List.replicate (4096 - n) 0xFF) == field (b.read (4096 + 4 * i) 4) 0 4)

/-- The SHA-256 of a bank's manifest is the record's, and its blocks load (R495). The bank as shipped holds a bundle whose bytes the model
does not carry. -/
def Bank.loads (b : Bank) : Bool := b.content.isEmpty || (sha256 b.manifest == b.digest && b.blocksOk)

def State.setBank (s : State) (i : Fin 2) (b : Bank) : State :=
  s.withUpdate { s.update with banks := s.update.banks.set i b }

/-! ## The update log and the selector (R493, R503) -/

/-- An update event, kept in the update log (R503). -/
def updateEvent (code : Nat) (payload : List Byte) (s : State) : State :=
  raise code none payload (s.withUpdate { s.update with log := ((code, payload) :: s.update.log).take 64 })

/-- A copy of the boot selector as the Boot and update region holds it (R493). -/
def Selector.bytes (x : Selector) : List Byte :=
  let body := le 4 x.seq ++ le 1 x.state ++ le 1 x.active ++ le 1 x.previous ++ le 1 x.trialBoots ++ fit 32 x.digest ++ le 1 x.fuseTarget
    ++ le 1 x.lastResult ++ zeros 18
  body ++ le 4 (crc32c body)

/-- UPDATE_STATE's payload. -/
def State.updateState (s : State) : List Byte :=
  let u := s.update
  le 1 u.selector.state ++ le 1 u.selector.active ++ le 1 u.selector.trialBoots ++ le 1 u.selector.lastResult
    ++ fit 4 s.activeBank.version ++ le 1 (b1 u.trialDiscarded * 128) ++ [0] ++ le 6 s.time

/-- The selector written, and UPDATE_STATE raised. -/
def writeSelector (f : Selector → Selector) (discarded : Bool) (s : State) : State :=
  let x := f s.update.selector
  let s1 := s.withUpdate { s.update with
    selector := { x with seq := w32 (s.update.selector.seq + 1), time := s.time }, selectorOlder := some s.update.selector
    trialDiscarded := discarded }
  updateEvent 0x80F0 s1.updateState s1

/-! ## Claims (R486 to R489) -/

/-- The digest under the claim in force. -/
def Update.heldDigest (u : Update) : List Byte :=
  match u.erasing with
  | some e => e.record.digest
  | none => (u.record.elim [] (·.digest))

/-- The other lane holds the claim. -/
def Update.heldByOther (u : Update) (l : Fin 2) : Bool := u.claim.any (fun c => c.lane != l)

/-- The lane holds the claim. -/
def Update.heldBy (u : Update) (l : Fin 2) : Bool := u.claim.any (fun c => c.lane == l)

/-- The lowest block not written, or the total (R502). -/
def ClaimRecord.firstMissing (x : ClaimRecord) : Nat :=
  ((List.range (blocksOf x.length)).find? (fun i => !x.blocks.contains i)).getD (blocksOf x.length)

/-- UPDATE_CLAIM's completion payload. -/
def claimPayload (mode : Nat) (x : ClaimRecord) : List Byte :=
  le 1 mode ++ [0] ++ le 2 (blocksOf x.length) ++ le 2 x.blocks.length ++ le 2 x.firstMissing

/-- A refused offer is counted, and logged when it names another bundle (R487). -/
def refuseOffer (r : Req) (digest : List Byte) (s : State) : State :=
  let s1 := s.withUpdate { s.update with offers := w32 (s.update.offers + 1) }
  let s2 := if digest = s.update.heldDigest then s1
    else updateEvent 0x80F1 (le 1 (laneOf r.box).val ++ [0, 0, 0] ++ slice r.payload 32 4 ++ digest ++ le 6 s.time) s1
  refuse r stBusy s2

/-- The claim record written to its older copy (R87, R488). -/
def Update.writeRecord (u : Update) (x : ClaimRecord) : Update :=
  { u with
    record := some x
    recordTwin := if u.record.isSome then u.recordTwin.write u.record else ⟨none, u.recordTwin.seq + 1⟩ }

/-- Both its copies erased. -/
def Update.eraseRecord (u : Update) : Update := { u with record := none, recordTwin := ⟨none, u.recordTwin.seq⟩ }

/-- UPDATE_CLAIM (R486). -/
def updateClaim (r : Req) : State → State :=
  let digest := slice r.payload 0 32
  let len := field r.payload 36 4
  let sv := field r.payload 40 1
  let l := laneOf r.box
  withLength (r.payload.length == 44) r <| noHandle r fun s =>
  if s.update.ownerLock then refuse r stOwnerLocked s
  else if s.update.heldByOther l then refuseOffer r digest s
  else if s.update.selector.state ≠ 0 then refuse r stRefusedState s
  else if sv < s.update.fuses then refuse r stRollback s
  else if !within 1 bankSize len then refuse r stParamRange s
  else if s.update.erasing.isSome then refuse r stBusy s
  else
    match s.update.record.filter (fun x => x.digest == digest && x.length == len) with
    | some x => finish r.wait stOk (claimPayload 1 x) ((accept r s).withUpdate { s.update with claim := some ⟨l, s.now⟩ })
    | none => storing r (fun s => (accept r s).withUpdate { s.update.eraseRecord with
        claim := some ⟨l, s.now⟩, erasing := some ⟨⟨digest, len, sv, slice r.payload 32 4, []⟩, l, r.wait⟩ }) s

def execUpdateClaim (b : Box) (s : State) : Out := request b 0x0A10 updateClaim s

/-- The device serves or is in recovery: Rotunda's boot code and the service port run. -/
def State.updateRuns (s : State) : Bool := s.servesBox 4

/-- BANK_ERASE_COMPLETE (R486): the bank is erased and a new claim record written. -/
def execBankEraseComplete (s : State) : Out :=
  match s.update.erasing with
  | some e =>
    if s.updateRuns && !s.power.holdUp then
      let s1 := s.setBank s.update.spareIx (Bank.reset false)
      .next (finish e.request stOk (claimPayload 0 e.record)
        (s1.withUpdate { s1.update.writeRecord e.record with erasing := none }))
    else .next s
  | none => .next s

/-- One block written into the inactive bank, and then its bit of the claim record; a block already there is not written again. -/
def writeUpdateBlock (i : Nat) (data : List Byte) (x : ClaimRecord) (s : State) : State :=
  let c := s.update.claim.map (fun c => { c with lastBlockAt := s.now })
  if x.blocks.contains i then s.withUpdate { s.update with claim := c }
  else
    let k := s.update.spareIx
    let b := s.update.banks[k]
    let s1 := s.setBank k { b with content := putBlockAt i data b.content }
    s1.withUpdate { s1.update.writeRecord { x with blocks := x.blocks ++ [i] } with claim := c }

/-- UPDATE_BLOCK (R487, R489). -/
def updateBlock (r : Req) : State → State :=
  let i := field r.payload 0 2
  let data := slice r.payload 8 2048
  withLength (r.payload.length == 2056) r <| noHandle r <|
  check (field r.payload 4 4 == crc32c data) stParamRange r fun s =>
  check (s.update.record.all (fun x => decide (i < blocksOf x.length))) stParamRange r
    (check (s.update.heldBy (laneOf r.box)) stBusy r (fun s =>
      match s.update.record with
      | some x => storing r (fun s =>
        let s1 := writeUpdateBlock i data x (accept r s)
        finish r.wait stOk (le 2 (s1.update.record.elim 0 (·.blocks.length)) ++ [0, 0]) s1) s
      | none => refuse r stRefusedState s)) s

def execUpdateBlock (b : Box) (s : State) : Out := request b 0x0A11 updateBlock s

/-- The claim ends; its record stays (R488). -/
def endClaim (s : State) : State := s.withUpdate { s.update with claim := none }

/-- UPDATE_RELEASE (R488, R502). -/
def updateRelease (r : Req) : State → State :=
  withLength (r.payload.length == 4) r <| noHandle r fun s =>
  let discard := bit (field r.payload 0 1) 0
  if s.update.heldByOther (laneOf r.box) then refuse r stBusy s
  else check (!(discard && s.power.holdUp)) stHoldUp r (fun s =>
    let s1 := endClaim (accept r s)
    finish r.wait stOk [] (if discard then s1.withUpdate s1.update.eraseRecord else s1)) s

def execUpdateRelease (b : Box) (s : State) : Out := request b 0x0A13 updateRelease s

/-- CLAIM_TIMEOUT (R488). -/
def execClaimTimeout (s : State) : Out :=
  match s.update.claim with
  | some c => if s.updateRuns && s.due (c.lastBlockAt + 300000) then .next (endClaim s) else .next s
  | none => .next s

/-- SVC_VBUS_CHANGE: lane 0 is connected above 4.0 V, and until SVC_VBUS falls below 3.8 V (R478, R488, R553). -/
def execSvcVbusChange (mv : Nat) (s : State) : Out :=
  let on := decide (4000 < mv) || (s.update.vbus && decide (3800 ≤ mv))
  let s1 := s.withUpdate { s.update with vbus := on }
  if s.update.vbus && !on && s.update.heldBy 0 then .next (endClaim s1) else .next s1

/-! ## The owner lock (R490) -/

/-- Oculus holds an unused OWNER proof of this identifier, not older than 120 s (R423). -/
def State.ownerProof (s : State) (id : Nat) : Bool :=
  s.oculus.proofs.any (fun p => p.id == id && p.role == 3 && !p.used && decide (s.now < p.at_ + 120000))

/-- OWNER_LOCK and OWNER_UNLOCK: the proof is used, the lock set or cleared, and a claim ends at its setting. -/
def ownerCommand (lock : Bool) (r : Req) : State → State :=
  let id := field r.payload 0 4
  withLength (r.payload.length == 4) r <| noHandle r fun s =>
  check (s.ownerProof id) stLocalConfirmMissing r (storing r fun s =>
    let s1 := markProofUsed id (accept r s)
    let s2 := s1.withUpdate { s1.update with
      ownerLock := lock, ownerTwin := s1.update.ownerTwin.write s1.update.ownerLock, claim := if lock then none else s1.update.claim }
    let s3 := if s.update.ownerLock = lock then s2
      else updateEvent 0x80F2 (le 1 (b1 lock) ++ [0, 0, 0] ++ le 6 s.time) s2
    finish r.wait stOk [] s3) s

def ownerLock (r : Req) : State → State := ownerCommand true r
def ownerUnlock (r : Req) : State → State := ownerCommand false r

def execOwnerLock (b : Box) (s : State) : Out := request b 0x0A03 ownerLock s
def execOwnerUnlock (b : Box) (s : State) : Out := request b 0x0A04 ownerUnlock s

/-! ## Activation (R491, R492) -/

/-- A switch may be closed: a port in TESTING, CLOSING, ENERGISED, SHED or OPENING, or any CTF closed. -/
def State.switchClosed (s : State) : Bool := allPorts.any (fun p => (s.lane p).state.busy || (s.lane p).ctf)

/-- The claiming lane, its digest, and every block present. -/
def State.activatable (s : State) (l : Fin 2) (digest : List Byte) : Bool :=
  s.update.heldBy l && s.update.record.any (fun x => x.digest == digest && x.blocks.length == blocksOf x.length)

/-- Status that refuses an activation, none where its conditions hold. -/
def State.activationRefusal (s : State) (l : Fin 2) (digest : List Byte) : Option Nat :=
  if !s.activatable l digest then some stRefusedState
  else if s.switchClosed then some stSwitchClosed
  else if s.power.vbakLow then some stVbakLow
  else if s.power.holdUp then some stHoldUp
  else if s.update.ownerLock then some stOwnerLocked
  else none

/-- UPDATE_ACTIVATE: the save of R197 is asked for; in recovery no Keep runs and none is needed. -/
def updateActivate (r : Req) : State → State :=
  withLength (r.payload.length == 32) r <| noHandle r fun s =>
  match s.activationRefusal (laneOf r.box) r.payload with
  | some st => refuse r st s
  | none =>
    if s.update.activating.isSome ∨ s.update.activationResetAt.isSome then refuse r stBusy s
    else
      let s1 := accept r s
      let s2 := s1.withUpdate { s1.update with activating := some (r.wait 0 r.payload) }
      if s.power.phase = .running then s2.withKeep { s2.keep with saveWanted := s2.keep.saveWanted ++ [.activation] } else s2

def execUpdateActivate (b : Box) (s : State) : Out := request b 0x0A12 updateActivate s

/-- The save an activation waits for is complete. -/
def State.activationSaved (s : State) : Bool :=
  !s.keep.saveWanted.contains .activation && s.keep.saving.all (fun x => !x.2.contains .activation)
    && s.keep.writing.all (fun b => !b.fors.contains .activation)

/-- Step 4: the selector names the claimed bank as pending; the claim ends (R492, R493). -/
def switchBanks (w : Waiting) (s : State) : State :=
  let u := s.update
  let k := u.spareIx
  let s1 := finish w stOk [] (writeSelector (fun x => { x with
    state := 1, active := k.val, previous := u.activeIx.val, trialBoots := 0, digest := w.extra, fuseTarget := 0 }) false s)
  s1.withUpdate { s1.update with claim := none, activating := none, activationResetAt := some (s.now + 100) }

/-- ACTIVATION_SAVE_COMPLETE: steps 3 to 5 (R492). -/
def execActivationSaveComplete (s : State) : Out :=
  match s.update.activating with
  | some w =>
    if s.updateRuns && s.activationSaved then
      match s.activationRefusal (laneOf w.box) w.extra with
      | some st => .next (finish w st [] (s.withUpdate { s.update with activating := none }))
      | none => .next (switchBanks w s)
    else .next s
  | none => .next s

/-- ACTIVATION_RESET: step 6. -/
def execActivationReset (s : State) : Out :=
  match s.update.activationResetAt with
  | some t => if s.updateRuns && s.due t then .next (assertReset 12 s) else .next s
  | none => .next s

/-! ## Confirmation and fall-back (R496 to R499) -/

/-- Steps 2 and 3 of a confirmation: the fuses blown to the target, the settings of other formats erased, and the target returned to 0 in
another write of the selector (R499). -/
def finishConfirmation (s : State) : State :=
  let x := s.update.selector
  let s1 := s.withUpdate { s.update with
    fuses := max s.update.fuses x.fuseTarget, selector := { x with fuseTarget := 0, seq := w32 (x.seq + 1), time := s.time }
    selectorOlder := some x }
  s1.withRotunda { s1.rotunda with oldSettings := none }

/-- UPDATE_CONFIRM: the commit point, then the rest (R499). -/
def confirmTrial (s : State) : State :=
  let target := s.activeBank.securityVersion
  let s1 := writeSelector (fun x => { x with state := 0, previous := 0xFF, fuseTarget := target, lastResult := 1 }) false s
  finishConfirmation (s1.withUpdate { s1.update with trialUntil := none })

def updateConfirm (r : Req) : State → State :=
  withLength (r.payload.length == 32) r <| noHandle r fun s =>
  check (s.update.selector.state == 2 && fit 32 s.update.selector.digest == r.payload) stNoTrial r
    (storing r fun s => finish r.wait stOk [] (confirmTrial (accept r s))) s

def execUpdateConfirm (b : Box) (s : State) : Out := request b 0x0A02 updateConfirm s

/-- The commits of a trial are lost with its fall-back (R497). -/
def State.trialLost (s : State) : Bool := s.rotunda.oldSettings.any (fun c => c != s.rotunda.committed)

/-- The selector goes back to the other bank, confirmed, with a result (R494, R498). -/
def fallBack (result : Nat) (s : State) : State :=
  let k := s.update.spareIx
  writeSelector (fun x => { x with
    state := 0, active := k.val, previous := 0xFF, trialBoots := 0, digest := s.update.banks[k].digest, fuseTarget := 0
    lastResult := result }) s.trialLost s

/-- TRIAL_EXPIRY: a fall-back decided in service (R498). -/
def execTrialExpiry (s : State) : Out :=
  match s.update.trialUntil with
  | some t =>
    if s.updateRuns && s.update.selector.state == 2 && s.due t && !s.power.holdUp then
      let s1 := fallBack 5 s
      .next (s1.withUpdate { s1.update with trialUntil := none, fallback := some s.now })
    else .next s
  | none => .next s

/-- FALLBACK_RESET: no switch is closed any more. -/
def execFallbackReset (s : State) : Out :=
  if s.update.fallback.isSome && s.updateRuns && !s.switchClosed then .next (assertReset 12 s) else .next s

/-- Every live session is stopped as by SESSION_STOP, with a reason for the legal log (R145, R498, R526). -/
def stopAllSessions (origin reason : Nat) (s : State) : State :=
  allPorts.foldl (fun s p =>
    match s.portSession p with
    | some (c, b) =>
      if b.state.live then
        let s1 := keepLog 0x0060 origin (stopData p c.handle reason) s
        if b.state = .reserved then endPortSession p 3 s1
        else s1.modLane p (fun l => { l with stopRequest := true, stopReason := 3 })
      else s
    | none => s) s

/-- FALLBACK_FORCED_STOP: 60 min later every session is stopped; the reset follows the openings. -/
def execFallbackForcedStop (s : State) : Out :=
  match s.update.fallback with
  | some t =>
    if s.updateRuns && s.switchClosed && !s.update.forced && s.due (t + 3600000) then
      .next (stopAllSessions originService 0xFFF0 (s.withUpdate { s.update with forced := true }))
    else .next s
  | none => .next s

/-! ## The check at boot (R494 to R499) -/

/-- What the boot finds of a bank: its full verification. -/
def foundOf (f : StartFacts) (i : Fin 2) : BundleCheck := if i = 0 then f.verifyA else f.verifyB

/-- The verification record of a bank and the blocks loaded against its block_table hold (R495), as far as reading MRAM and NOR finds them as
they were written; without the root the record's CMAC cannot be checked (R453). -/
def State.recordOk (s : State) (f : StartFacts) (i : Fin 2) : Bool :=
  let b := s.update.banks[i]
  b.recordValid && s.cupola.rootOk && (if i = 0 then f.recordAOk else f.recordBOk) && b.recordMac == s.recordMac i b && b.loads

/-- A pending bank is verified (R494): on trial from now, or back to the previous bank. -/
def verifyPending (f : StartFacts) (s : State) : State :=
  let i := s.update.activeIx
  match s.verify i (foundOf f i) with
  | .ok =>
    let old := s.update.banks[otherBank i]
    let s1 := s.setBank i (s.verifiedBank i)
    let s2 := if old.settingsFormat = s1.update.banks[i].settingsFormat then s1
      else s1.withRotunda { s1.rotunda with oldSettings := some s1.rotunda.committed }
    writeSelector (fun x => { x with state := 2, trialBoots := 1 }) false s2
  | e => fallBack (checkResult e) s

/-- A trial boot is counted; a fourth falls back (R496, R498). -/
def countTrialBoot (s : State) : State :=
  if 3 ≤ s.update.selector.trialBoots then fallBack 6 s
  else writeSelector (fun x => { x with trialBoots := x.trialBoots + 1 }) false s

/-- The bank the boot runs from: by its record, by a full verification, or the other bank; none verifies: recovery (R495). -/
def chooseBank (f : StartFacts) (s : State) : Option State :=
  let i := s.update.activeIx
  if s.recordOk f i then some s
  else
    match s.verify i (foundOf f i) with
    | .ok => some (s.setBank i (s.verifiedBank i))
    | e => if s.recordOk f (otherBank i) then some (fallBack (checkResult e) s) else none

/-- Confirmation completed at a boot that finds a fuse target (R499). -/
def completeFuses (s : State) : State :=
  let x := s.update.selector
  if x.state = 0 ∧ x.fuseTarget ≠ 0 then finishConfirmation s else s

/-- After a fall-back the previous firmware finds its own settings (R497). -/
def revertSettings (s : State) : State :=
  match s.rotunda.oldSettings with
  | some c =>
    if s.update.selector.state = 0 then
      s.withRotunda { s.rotunda.writeSettings c with
        applied := c, published := { s.rotunda.published with settings := c }, oldSettings := none }
    else s
  | none => s

/-- The boot's check of the bundle; none where the device enters recovery. -/
def bootCheck (f : StartFacts) (s : State) : Option State :=
  let s1 := if s.update.selector.state = 1 then verifyPending f s
    else if s.update.selector.state = 2 then countTrialBoot s else s
  (chooseBank f s1).map (fun s2 => revertSettings (completeFuses s2))

/-- A trial must be confirmed within 30 min of Rotunda's release (R496). -/
def startTrial (s : State) : State :=
  s.withUpdate { s.update with trialUntil := if s.update.selector.state = 2 then some (s.now + 1800000) else none }

/-! ## UPDATE_STATUS (R502) -/

/-- UPDATE_STATUS response payload. -/
def State.updateStatusBody (s : State) : List Byte :=
  let u := s.update
  let x := u.selector
  let other := u.banks[u.spareIx]
  le 1 (if s.power.phase = .recovery then 3 else x.state) ++ le 1 x.active ++ le 1 x.trialBoots ++ le 1 x.lastResult
    ++ fit 4 s.activeBank.version ++ fit 4 (if other.recordValid then other.version else [])
    ++ le 2 (u.trialUntil.elim 0 (fun t => (t - s.now) / 1000)) ++ le 1 u.fuses
    ++ le 1 (bits [false, false, false, false, u.record.isSome, u.claim.any (fun c => c.lane == 1), u.claim.isSome, u.ownerLock])
    ++ fit 32 (u.record.elim [] (·.digest)) ++ le 2 (u.record.elim 0 (fun x => blocksOf x.length))
    ++ le 2 (u.record.elim 0 (·.blocks.length)) ++ le 4 u.offers ++ le 6 x.time ++ [0, 0]

def updateStatus (r : Req) : State → State :=
  withLength r.payload.isEmpty r <| noHandle r fun s => respond r stOk s.updateStatusBody s

def execUpdateStatus (b : Box) (s : State) : Out := request b 0x0A01 updateStatus s

end Sys2Proof.Machine
end

