-- ==== Sys2Proof/Machine/Power.lean ====
section
/-! DEFINITION. Device resets, supplies, hold-up and Dormant (chapter 17), but for the start itself. -/

namespace Sys2Proof.Machine

/-! ## SOFT_RESET and DORMANT (R523, R526) -/

/-- A reset or an entry to Dormant is in progress or held by the always-on domain. -/
def State.shuttingDown (s : State) : Bool :=
  s.power.shutdown.isSome || s.power.pendingReset.isSome || s.power.pendingDormant.isSome

/-- A port is in TESTING, CLOSING, ENERGISED, SHED or OPENING. -/
def State.anyBusy (s : State) : Bool := allPorts.any (fun p => (s.lane p).state.busy)

/-- Every opening has completed: the save of R197 is asked for, and DORMANT ends the claim. -/
def proceedShutdown (s : State) : State :=
  match s.power.shutdown with
  | some d =>
    let s1 := if d.dormant then endClaim s else s
    let s2 := s1.withPower { s1.power with shutdown := some { d with waitingOpenings := false, waitingSave := true } }
    s2.withKeep { s2.keep with saveWanted := s2.keep.saveWanted ++ [if d.dormant then .dormant else .softReset] }
  | none => s

/-- The shutdown goes on as soon as no opening runs. -/
def shutdownStep (s : State) : State :=
  if s.power.shutdown.any (·.waitingOpenings) && !s.anyBusy then proceedShutdown s else s

/-- SOFT_RESET and DORMANT with a mode. -/
def shutdownRequest (dormant : Bool) (r : Req) : State → State :=
  let mode := field r.payload 0 1
  withLength (r.payload.length == 4) r <| noHandle r <| check (decide (mode ≤ 1)) stParamRange r <| fun s =>
  check (!(mode == 0 && s.anyBusy)) stSwitchClosed r
    (check (!s.shuttingDown) stBusy r (fun s =>
      let s1 := accept r s
      let s2 := s1.withPower { s1.power with shutdown := some ⟨dormant, true, false, s.now, r.wait⟩ }
      shutdownStep (if mode = 1 then stopAllSessions r.box.val 0xFFF1 s2 else s2))) s

def softReset (r : Req) : State → State := shutdownRequest false r
def dormantRequest (r : Req) : State → State := shutdownRequest true r

def execSoftReset (b : Box) (s : State) : Out := request b 0x0113 softReset s
def execDormant (b : Box) (s : State) : Out := request b 0x0114 dormantRequest s

/-- SHUTDOWN_OPENINGS_TIMEOUT. -/
def execShutdownOpeningsTimeout (s : State) : Out :=
  match s.power.shutdown with
  | some d =>
    if d.waitingOpenings && s.due (d.startedAt + 60000) then
      .next (finish d.request stSwitchClosed [] (s.withPower { s.power with shutdown := none }))
    else .next s
  | none => .next s

/-- SOFT_RESET_EXECUTE. -/
def execSoftResetExecute (s : State) : Out :=
  match s.power.pendingReset with
  | some t => if s.aon && s.due t then .next (assertReset 11 s) else .next s
  | none => .next s

/-- Commanded Dormant, left at once where WAKE_N was low before (J5); with the supplies failing it is left when they are good. -/
def enterDormant (s : State) : State :=
  let s1 := assertReset 13 s
  s1.withPower { s1.power with
    phase := if s.power.holdUp then .dormant else if s.power.wakePending then .supplied else .commandedDormant }

/-- DORMANT_ENTRY. -/
def execDormantEntry (s : State) : Out :=
  match s.power.pendingDormant with
  | some t => if s.aon && s.due t then .next (enterDormant s) else .next s
  | none => .next s

/-! ## Sources of a device reset (R504, R507, R511) -/

/-- The islands are out of Dormant: a device reset can find them, in reset or released. -/
def State.powered (s : State) : Bool :=
  match s.power.phase with
  | .heldReset => true
  | .supplied => true
  | .running => true
  | .recovery => true
  | .dormant => false
  | .commandedDormant => false
  | .off => false

/-- What the always-on domain holds and loses with VBAK (R505 code 1, R506, R324). -/
def loseAon (s : State) : State :=
  { s with
    civil := s.keep.saved.elim 0 (·.billing)
    keep := { s.keep with uncertain := true, slewLeft := 0, slewPart := 0 }
    legal := { s.legal with aonBuffer := [], aonLost := 0, aonLostTime := 0, aonSeq := 0 }
    cupola := { s.cupola with destroyLatch := false, meshFails := 0, tempFails := 0 }
    power := { s.power with
      powerOff := none, aonExecuted := Vector.replicate 4 0xFFFF, lostClocks := [], rcTime := false, vbakLow := false
      resetNStuckLow := false } }

/-- POWER_ON: the always-on domain starts from nothing. -/
def execPowerOn (s : State) : Out :=
  if s.power.phase = .off then
    let s1 := assertReset 1 (loseAon s)
    .next (s1.withPower { s1.power with rtcLost := true })
  else .next s

def brownOutCode : Supply → Nat
  | .vddc => 2
  | .vdda => 3
  | .vddio => 4
  | .vddm => 15

/-- A brown-out while the islands are powered: device reset and Dormant; one that VDDIO did not cause, with VDDIO still good, leaves a
supply fault record. -/
def brownOut (x : Supply) (s : State) : State :=
  let s1 := assertReset (brownOutCode x) s
  if x = .vddio ∨ s.power.holdUp ∨ s.steeple.vddioLow then s1
  else s1.withPower { s1.power with supplyFault := some x }

/-- BROWN_OUT. -/
def execBrownOut (x : Supply) (s : State) : Out :=
  if s.powered then .next (brownOut x s)
  else if s.power.phase = .commandedDormant then .next (s.withPower { s.power with phase := .dormant })
  else .next s

/-- RESET_N_LOW, a low of `us` microseconds: below 5 ignored, from 20 a device reset, between them either (R507). -/
def execResetNLow (us : Nat) (s : State) : Out :=
  if !s.powered || s.power.resetNStuckLow || decide (us < 5) then .next s
  else if 20 ≤ us then .next (assertReset 5 s)
  else if s.drawn % 2 = 1 then .next (assertReset 5 s.draw)
  else .next s.draw

/-- RESET_N_STUCK: the device starts with code 5 and the stuck flag, RESET_N is ignored, and the event is logged (R507). DEDUCED
(log 129): the log is the event log of R41. unsafe. -/
def execResetNStuck (s : State) : Out :=
  if s.powered && !s.power.resetNStuckLow then
    let held := s.power.phase = .supplied ∧ s.power.cause = 5
    let s1 := if held then s else assertReset 5 s
    .next (logEvent .resetNStuck (s1.withPower { s1.power with resetStuck := true, resetNStuckLow := true }))
  else .next s

/-- RESET_N_REARM. -/
def execResetNRearm (s : State) : Out := .next (s.withPower { s.power with resetNStuckLow := false })

/-- STEEPLE_FATAL_RESET. -/
def execSteepleFatalReset (s : State) : Out :=
  match s.steeple.fatalAt with
  | some t => if s.power.phase = .running ∧ s.due t = true then .next (assertReset 10 s) else .next s
  | none => .next s

/-! ## Supplies and Dormant (R508, R522, R524) -/

/-- SUPPLIES_GOOD: the release order may begin. -/
def execSuppliesGood (s : State) : Out :=
  if s.power.phase = .heldReset ∨ s.power.phase = .dormant then
    .next ((s.withPower { s.power with phase := .supplied, suppliedAt := s.now }).withSteeple
      { s.steeple with suppliesOut := [], vddioLow := false, suppliesGoodAt := s.now })
  else .next s

/-- WAKE_N held low for 1 ms: commanded Dormant is left, or will be at its entry (J5). -/
def execWakeN (s : State) : Out :=
  if s.power.phase = .commandedDormant then .next (s.withPower { s.power with phase := .supplied, suppliedAt := s.now })
  else if s.power.pendingDormant.isSome && !s.power.holdUp then .next (s.withPower { s.power with wakePending := true })
  else .next s

/-- VBAK_LOW. -/
def execVbakLow (low : Bool) (s : State) : Out :=
  if s.aon then .next (s.withPower { s.power with vbakLow := low }) else .next s

/-- AON_DOMAIN_STOP: in Dormant the always-on domain runs from VBAK alone. -/
def execAonDomainStop (s : State) : Out :=
  if s.power.phase = .dormant ∨ s.power.phase = .commandedDormant then
    .next (s.withPower { s.power with phase := .off })
  else .next s

/-! ## Hold-up (R509, R510) -/

/-- The state of the supply, told to every attached host (R527). -/
def raiseSupplyState (n : Nat) (s : State) : State := raise 0x8007 none (le 1 n ++ [0, 0, 0] ++ le 6 s.time) s

/-- Turret's part: a normal opening towards OFFERED. -/
def holdUpOpening (s : State) (p : Port) : State :=
  match (s.lane p).state with
  | .closing => normalOpening p 12 .offered s
  | .energised => normalOpening p 12 .offered s
  | .shed => normalOpening p 12 .offered s
  | _ => s

/-- The Keep's part: what is being written is completed, and the power-fail mark is begun; its valid flag follows with the millisecond,
within the 3 ms of R509, if hold-up lasts (log 164). -/
def holdUpKeep (s : State) : State :=
  if s.keepUp then
    let s1 := commitWrite (completeSave s)
    s1.withKeep { s1.keep with mark := none, marking := some s1.failMark }
  else s

/-- HOLD_UP_ENTRY. -/
def holdUpEntry (s : State) : State :=
  let s1 := (s.withPower { s.power with holdUp := true, powerOff := some s.time }).withSteeple { s.steeple with vddioLow := true }
  let s2 := if s1.turretUp then allPorts.foldl holdUpOpening s1 else s1
  raiseSupplyState 1 (holdUpKeep s2)

def execHoldUpEntry (s : State) : Out :=
  if (s.power.phase = .running ∨ s.power.phase = .recovery ∨ s.power.phase = .supplied) ∧ s.power.holdUp = false then
    .next (holdUpEntry s)
  else .next s

/-- The mirrors follow what hold-up kept from them: those of channels gone are freed, and those behind their channels are written (R87). -/
def catchUpMirror (l : List MirrorRecord) (c : Channel) : List MirrorRecord :=
  match l.find? (fun m => m.slot == c.slot) with
  | some m => if mirrored m.current.body c.body then writeMirror c l else l
  | none => newMirror c l

def catchUpMirrors (s : State) : State :=
  let kept := s.rotunda.mirrors.filter (fun m => s.rotunda.channels.any (fun c => c.handle == m.current.handle))
  s.withRotunda { s.rotunda with
    mirrors := (s.rotunda.channels.filter (·.body.persistent)).foldl catchUpMirror kept }

/-- HOLD_UP_END: the power-off time is cleared and the mark voided; the mirrors follow. -/
def execHoldUpEnd (s : State) : Out :=
  if s.power.holdUp then
    .next (raiseSupplyState 0 (catchUpMirrors
      (((s.withPower { s.power with holdUp := false, powerOff := none }).withKeep { s.keep with mark := none, marking := none }).withSteeple
        { s.steeple with vddioLow := false })))
  else .next s

/-- PERMITS_RESTORED: every supply within its window for 1 s after a supply stop. -/
def execPermitsRestored (s : State) : Out :=
  if s.steepleUp && s.steeple.supplyStop && s.steeple.suppliesOut.isEmpty && !s.power.holdUp
      && s.due (s.steeple.suppliesGoodAt + 1000) then
    .next (grantPermits (s.withSteeple { s.steeple with supplyStop := false }))
  else .next s

end Sys2Proof.Machine
end

