-- ==== Sys2Proof/Machine/Scrub.lean ====
section
/-! DEFINITION. Reads of checked lines and their effects, the buckets' leak, the yearly refresh, page retirement and the two queries
of memory integrity (chapter 15). -/

namespace Sys2Proof.Machine

/-- The island that checks a region's lines (R459). -/
def regionClock (i : Fin 8) : Clock :=
  [Clock.cd5, .cd5, .cd1, .cd6, .cd4, .cd8, .cd9, .cd5].getD i.val .cd5

/-! ## Effects of an uncorrectable line (R88, R462) -/

/-- The request being served, if any: the one whose turn it is. -/
def State.served (s : State) : Option (Box × Frame × Req) :=
  allBoxes.findSome? (fun b =>
    match executable s b with
    | some (f, r) => if s.servesBox b && inTurn s b f then some (b, f, r) else none
    | none => none)

/-- The request being served meets the line and ends with `MEM_UNCORRECTABLE`. -/
def endServed (s : State) : State :=
  match s.served with
  | some (b, f, r) => refuse r stMemUncorrectable (taken b f s)
  | none => s

/-- A volatile channel is lost: the request of a transaction ends, and the channel is destroyed with reason 5 (R88). -/
def loseChannel (c : Channel) (s : State) : State :=
  let s1 := match c.txn? with
    | some b => finish b.wait stMemUncorrectable noTagPayload (dropReach c.slot s)
    | none => s
  destroyChannel c 0x8022 5 s1

/-- A persistent channel as its MRAM mirror holds it (R87, R88). -/
def restoreChannel (slot : Nat) (s : State) : State :=
  match s.rotunda.mirrors.find? (fun m => m.slot == slot) with
  | some m => s.setChannels (s.rotunda.channels.map (fun c => if c.slot = slot then { c with body := m.current.body } else c))
  | none => s

/-- A line of the channel table: permanent and persistent channels are restored and rebuilt, volatile ones are lost (R88). -/
def loseTableLine (line : Nat) (s : State) : State :=
  let slot := line / 16
  let rebuild := s.withRotunda { s.rotunda with rebuilding := slot :: s.rotunda.rebuilding.filter (fun x => x != slot) }
  if slot < 0x1F then rebuild
  else
    match s.channelAt slot with
    | some c => if c.body.persistent then restoreChannel slot rebuild else loseChannel c s
    | none => s

/-- What an uncorrectable line takes from a twinned record: the copy it lies in. Where that is the current one, its parity being that of its
sequence number, the record falls back to the other while that one is valid (R87, R462). -/
def fallBackCopy {α : Type} (value : α) (t : Twin α) (copy : Nat) : α × Twin α :=
  if copy % 2 ≠ t.seq % 2 then (value, ⟨none, t.seq⟩)
  else
    match t.older with
    | some old => (old, ⟨none, t.seq - 1⟩)
    | none => (value, t)

/-- A copy of the committed safety parameter block fails its check: once both have, Steeple decides F-SF8-05 (R242). -/
def loseBlockCopy (copy : Nat) (s : State) : State :=
  match s.steeple.committed, s.steeple.copyLost with
  | none, _ => s
  | some _, none => s.withSteeple { s.steeple with copyLost := some copy }
  | some _, some c => if c = copy then s else decideFault fMemory none [] false s

/-- A copy of the settings (R97). -/
def loseSettingsCopy (copy : Nat) (s : State) : State :=
  let v := fallBackCopy s.rotunda.committed ⟨s.rotunda.settingsOlder, s.rotunda.settingsSeq⟩ copy
  s.withRotunda { s.rotunda with committed := v.1, settingsOlder := v.2.older, settingsSeq := v.2.seq }

/-- A copy of the slot table (R82). -/
def loseSlotTableCopy (copy : Nat) (s : State) : State :=
  let v := fallBackCopy (⟨s.rotunda.generations, s.rotunda.lastSlot⟩ : SlotTable) ⟨s.rotunda.tableOlder, s.rotunda.tableSeq⟩ copy
  s.withRotunda { s.rotunda with
    generations := v.1.generations, lastSlot := v.1.lastSlot, tableOlder := v.2.older, tableSeq := v.2.seq }

/-- The neighbours' persistent fields lie in the Powerline state region, those of the others in that of channel persistence (R79). -/
def Body.isNeighbour : Body → Bool
  | .neighbour _ => true
  | _ => false

/-- A copy of a mirror (R87). -/
def MirrorRecord.lose (copy : Nat) (m : MirrorRecord) : MirrorRecord :=
  let v := fallBackCopy m.current ⟨m.older, m.seq⟩ copy
  { m with current := v.1, older := v.2.older, seq := v.2.seq }

def loseMirrorCopy (neighbours : Bool) (slot copy : Nat) (s : State) : State :=
  s.withRotunda { s.rotunda with mirrors := s.rotunda.mirrors.map (fun m =>
    if m.slot = slot ∧ m.current.body.isNeighbour = neighbours then m.lose copy else m) }

/-- A copy of the last save (R196). -/
def loseSaveCopy (copy : Nat) (s : State) : State :=
  let v := fallBackCopy s.keep.saved ⟨s.keep.savedOlder.map some, s.keep.savedSeq⟩ copy
  s.withKeep { s.keep with saved := v.1, savedOlder := v.2.older.join, savedSeq := v.2.seq }

/-- A copy of the reserved end (R340). -/
def loseReservedCopy (copy : Nat) (s : State) : State :=
  let v := fallBackCopy s.legal.reservedEnd s.legal.reservedTwin copy
  s.withLegal { s.legal with reservedEnd := v.1, reservedTwin := v.2 }

/-- A copy of a calibration entry (R177). -/
def loseCalCopy (m : Fin 160) (copy : Nat) (s : State) : State :=
  let v := fallBackCopy s.dsp.cal[m] s.dsp.calTwins[m] copy
  s.withDsp { s.dsp with cal := s.dsp.cal.set m v.1, calTwins := s.dsp.calTwins.set m v.2 }

/-- A copy of the boot selector (R493). -/
def loseSelectorCopy (copy : Nat) (s : State) : State :=
  let v := fallBackCopy s.update.selector ⟨s.update.selectorOlder, s.update.selector.seq⟩ copy
  s.withUpdate { s.update with selector := v.1, selectorOlder := v.2.older }

/-- A copy of the owner lock (R490). -/
def loseOwnerCopy (copy : Nat) (s : State) : State :=
  let v := fallBackCopy s.update.ownerLock s.update.ownerTwin copy
  s.withUpdate { s.update with ownerLock := v.1, ownerTwin := v.2 }

/-- A copy of the claim record (R488). -/
def loseClaimCopy (copy : Nat) (s : State) : State :=
  let v := fallBackCopy s.update.record s.update.recordTwin copy
  s.withUpdate { s.update with record := v.1, recordTwin := v.2 }

/-- A copy of the authorisation list (R425) or of the pending records (R421). -/
def loseListCopy (copy : Nat) (s : State) : State :=
  let v := fallBackCopy s.oculus.list s.oculus.listTwin copy
  s.withOculus { s.oculus with list := v.1, listTwin := v.2 }

def losePendingCopy (copy : Nat) (s : State) : State :=
  let v := fallBackCopy s.oculus.pendingWrites s.oculus.pendingTwin copy
  s.withOculus { s.oculus with pendingWrites := v.1, pendingTwin := v.2 }

/-- A line of a twinned record of MRAM (R41, R462). Which record of its region a line holds, and which of its copies, the manual does not
say: `Config.mramPlace` says it of every line, always the same; where it names a record that is not twinned, nothing falls back.
DESIGN CHOICE (log 160). safe. -/
def loseMramLine (x : MramRegion) (line : Nat) (s : State) : State :=
  let place := Config.mramPlace line
  let copy := place % 2
  let n := place / 2
  match x with
  | .settings => if n % 2 = 0 then loseSettingsCopy copy s else s
  | .channels => if n % 2 = 0 then loseSlotTableCopy copy s else loseMirrorCopy false (n / 2 % 256) copy s
  | .powerline => loseMirrorCopy true (n % 256) copy s
  | .legal =>
    if n % 4 = 0 then loseSaveCopy copy s
    else if n % 4 = 1 then loseReservedCopy copy s
    else if n % 4 = 2 then loseCalCopy ⟨n / 4 % 160, Nat.mod_lt _ (by decide)⟩ copy s
    else s
  | .boot => if n % 4 = 0 then loseSelectorCopy copy s else if n % 4 = 1 then loseOwnerCopy copy s
    else if n % 4 = 2 then loseClaimCopy copy s else s
  | .option => if copy = 0 then s.withPower { s.power with option0 := none } else s.withPower { s.power with option1 := none }
  | .safety => if n % 2 = 0 then loseBlockCopy copy s else s
  | .keys =>
    if n % 3 = 0 then s.withCupola { s.cupola with helpers := s.cupola.helpers.set (place % 2) none (Nat.mod_lt _ (by decide)) }
    else if n % 3 = 1 then s.withCupola { s.cupola with selectors := s.cupola.selectors.set (place % 2) none (Nat.mod_lt _ (by decide)) }
    else s
  | .list => if n % 3 = 0 then loseListCopy copy s else if n % 3 = 1 then losePendingCopy copy s else s
  | .spare => s

/-- Table: effect of an uncorrectable line. -/
def lineEffect (i : Fin 8) (line : Nat) (inRequest : Bool) (s0 : State) : State :=
  let s := if inRequest then endServed s0 else s0
  if i = 0 then (if inRequest then s else rotundaRestart s)
  else if i = 1 then loseTableLine line s
  else if i = 2 then decideFault fMemory none [] false s
  else if i = 3 ∨ i = 4 then keepRestart s
  else if i = 5 then belfryRestart 14 s
  else if i = 6 then oculusRestart 14 s
  else loseMramLine (mramRegionAt (line / 128)) line s

/-! ## The read path (R460, R465 to R469) -/

/-- Passes of the scrubber that end with this line (R475). -/
def notePass (i : Fin 8) (line requester : Nat) (s : State) : State :=
  if requester = 0xFE ∧ line + 1 = regionLines i.val then
    if i = 6 then s.withMemory { s.memory with sramPass := s.time }
    else if i = 7 then s.withMemory { s.memory with mramPass := s.time }
    else s
  else s

/-- The recovery classes of the regions (R40, R459): which steps of R460 can yield a line. A line of the channel table has its twin where
its slot holds persistent fields, and the twinned parts of the other regions are the manual's own. -/
def State.recoverable (s : State) (i : Fin 8) (line : Nat) : LineResult → Bool
  | .good => true
  | .refetched => true
  | .twinned =>
    if i = 1 then decide (line / 16 < 0x1F) || (s.channelAt (line / 16)).any (·.body.persistent) else i = 2 || i = 3 || i = 7
  | .reloaded => i != 1 && i != 7
  | .uncorrectable => true

/-- The check of a line's 32 bytes and its number within its region (R458). The number stands after the bytes, 32 bits, least significant
byte first. DESIGN CHOICE (log 211). unsafe. -/
def lineCheck (line : Nat) (bytes : List Byte) : Nat := crc16 0x1021 0xFFFF (bytes ++ le 4 line)

/-- The check that a poisoned line holds: the complement of the other (R458). -/
def poisonedCheck (line : Nat) (bytes : List Byte) : Nat := 0xFFFF - lineCheck line bytes

/-- What a fetched line and its stored check say before any recovery (R458, R460, R461): good, poisoned, or failing (`none`), for which the
steps of R460 are tried. -/
def judgeLine (line : Nat) (bytes : List Byte) (check : Nat) : Option LineResult :=
  if check == lineCheck line bytes then some .good
  else if check == poisonedCheck line bytes then some .uncorrectable else none

/-- One line read, or read for a partial write: a poisoned line is uncorrectable at once (R461). -/
def readLine (i : Fin 8) (line : Nat) (r : LineResult) (requester : Nat) (write inRequest : Bool) (s : State) : State :=
  let found := if s.memory.regions[i].poisoned.contains line || !s.recoverable i line r then .uncorrectable else r
  match found with
  | .good => s
  | .uncorrectable => lineEffect i line inRequest (loseLine i line requester write s)
  | other => recoverLine i (LineResult.kind other) (line * 32) requester (countAt (40 + i.val) 1 s)

/-- The firewall of MRAM: an island writes only the regions it owns (R41). -/
def isWalled (region : Fin 8) (line : Nat) (x : LineRequester) : Bool :=
  region == 7 && x.write && decide (x.code < 12) && islandClocks[x.code]? != some (mramOwnerAt (line / 128))

/-- SCRUB_LINE, and the reads of the owners (R460, R465). A write of an island that does not own the line's region reaches no line: it is
refused with a bus error and logged (R41), in the event log. DEDUCED (log 129). unsafe. -/
def execScrubLine (region : Fin 8) (line : Nat) (r : LineResult) (by_ : LineRequester) (s : State) : Out :=
  if s.up (regionClock region) && decide (line < regionLines region.val) then
    if isWalled region line by_ then .next (logEvent (.writeRefused line by_.code) s) else
    .next (notePass region line by_.code (readLine region line r by_.code by_.write by_.inRequest s))
  else .next s

/-- BUCKET_LEAK (R463). -/
def execBucketLeak (s : State) : Out :=
  .next (s.withMemory { s.memory with regions := s.memory.regions.map (fun r =>
    if s.due (r.lastLeak + 600000) then r.leak s.bucketDepth s.now else r) })

/-- MRAM_REFRESH: the next page, read as the scrubber reads it; the pointer moves at its boundary (R467). -/
def execMramRefresh (page : Nat) (r : LineResult) (s : State) : Out :=
  if s.up .cd5 && !s.power.holdUp && page == s.memory.refreshPage then
    let s1 := readLine 7 (page * 128) r 0xFE false false s
    .next (s1.withMemory { s1.memory with
      refreshPage := if page + 1 = 1024 then 0 else page + 1
      refreshDone := if page + 1 = 1024 then s.time else s1.memory.refreshDone })
  else .next s

/-! ## Commands (R472, R475) -/

/-- PAGE_RETIRE (R471, R472): for region 2 through Steeple, which retires the page at its boundary. -/
def pageRetire (r : Req) : State → State :=
  let region := field r.payload 0 1
  let page := field r.payload 2 2
  withLength (r.payload.length == 4) r <| noHandle r fun s =>
  match (if h : region < 8 then some (⟨region, h⟩ : Fin 8) else none) with
  | none => refuse r stParamRange s
  | some i =>
    if i = 4 then refuse r stParamRange s
    else
      match s.retireRefusal i page with
      | some st => refuse r st s
      | none =>
        if i = 2 then askSteeple 5 r.payload r s
        else
          startRetirement i page r.wait (accept r s)

def execPageRetire (b : Box) (s : State) : Out := request b 0x0A05 pageRetire s

/-- ERROR_LOG_READ, laid out as LEGAL_LOG_READ (R475). -/
def errorLogRead (r : Req) : State → State :=
  let first := field r.payload 0 4
  let n := field r.payload 4 1
  withLength (r.payload.length == 8) r <| noHandle r <| check (within 1 14 n) stParamRange r fun s =>
  let es := (s.memory.log.filter (fun e => decide (first ≤ e.index))).take n
  respond r stOk (le 1 es.length ++ zeros 3 ++ le 4 (s.memory.nextIndex - 1) ++ le 4 (s.memory.log.head?.elim 0 (·.index))
    ++ es.flatMap ErrorEntry.bytes) s

def execErrorLogRead (b : Box) (s : State) : Out := request b 0x0A06 errorLogRead s

/-- A region record of MEM_STATUS. -/
def State.regionRecord (s : State) (i : Fin 8) : List Byte :=
  let r := s.memory.regions[i]
  le 1 i.val ++ le 1 (regionSpares i.val) ++ le 1 r.sparesUsed ++ le 1 r.bucket ++ le 1 s.bucketDepth ++ [0]
    ++ le 2 r.poisoned.length ++ le 4 r.recovered ++ le 4 r.uncorrectable

/-- A recent-error entry of MEM_STATUS. -/
def RecentError.bytes (e : RecentError) : List Byte :=
  le 1 e.region ++ le 1 (128 + b1 e.repeating * 64) ++ le 1 e.count ++ [0] ++ le 4 e.offset ++ le 6 e.first ++ [0, 0]

/-- MEM_STATUS response payload (R475). -/
def State.memStatusBody (s : State) : List Byte :=
  let m := s.memory
  le 6 m.sramPass ++ le 6 m.mramPass ++ le 2 m.refreshPage ++ le 6 m.refreshDone
    ++ (List.finRange 8).flatMap s.regionRecord ++ fit 256 (m.recent.flatMap RecentError.bytes)

def memStatus (r : Req) : State → State :=
  withLength r.payload.isEmpty r <| noHandle r fun s => respond r stOk s.memStatusBody s

def execMemStatus (b : Box) (s : State) : Out := request b 0x0A07 memStatus s

end Sys2Proof.Machine
end

