-- ==== Sys2Proof/Machine/Start.lean ====
section
/-! DEFINITION. The start of the device: the release order from the option loader to the mailboxes serving (R513), with what each island
finds (R89, R135, R198, R200, R238, R270, R442, R494 to R499). -/

namespace Sys2Proof.Machine

/-! ## Cupola (step 5) -/

/-- Cupola's release with what the PUF array reads: the erase of a set destroy latch is complete (J9), the root is regenerated from the
newer helper record or else from the other, and more than 42 corrected bits in a block make a re-anchoring due (R442, R443). -/
def regenerateRoot (array : List Nat) (s : State) : State :=
  let c := { s.cupola with destroyLatch := false, puf := array, pufOn := true, reanchorAfter := s.now + 60000 }
  match s.findRoot array s.cupola.helperOrder [] with
  | (errors, some (h, secret, n)) =>
    s.withCupola { c with
      rootOk := !c.zeroized, secret := secret, errors := errors, errorsMax := n
      window := h.window, anchorTime := h.anchorTime, anchorSeq := h.sequence
      reanchorDue := c.reanchorDue || decide (42 < n), reanchorByBits := c.reanchorByBits || decide (42 < n) }
  | (errors, none) => s.withCupola { c with rootOk := false, errors := errors }

/-- Cupola's release, unless its clock keeps it in reset. -/
def startCupola (array : List Nat) (held : Bool) (s : State) : State :=
  if held then s.withCupola { s.cupola with destroyLatch := false, rootOk := false, reanchorAfter := s.now + 60000 }
  else regenerateRoot array s

/-! ## Steeple (step 6) -/

/-- A port in degraded mode at the restart: its pending lock-out is in force (R270). -/
def lockPendingPort (s : State) (p : Port) : State :=
  match s.steeple.portDegraded[p] with
  | some d => lockDegradedPort p d.code d.index s
  | none => s

/-- Pins lose their weak reset pull-ups (R538). -/
def dropPullUps (ps : List PulledPin) (s : State) : State :=
  s.withPower { s.power with pullUps := s.power.pullUps.filter (fun x => !ps.contains x) }

/-- Steeple's release: the self-test, with that of the comparators to come (R248), what was pending, and the faults its inputs found while it was not running. -/
def startSteeple (selfTestOk : Bool) (s : State) : State :=
  let s0 := s.withTurret { s.turret with lanes := s.turret.lanes.map (fun l => { l with comparator := some s.now }) }
  let s1 := enterCd1Loss (s0.withSteeple { s.steeple with
    selfTest := selfTestOk, aliveAt := s.now, aliveSince := s.now, clocksGoodAt := s.now, estopTestAt := s.now })
  let s2 := allPorts.foldl lockPendingPort s1
  let s3 := match s2.steeple.hubDegraded with
    | some d => endHubDegraded d s2
    | none => s2
  let s4 := match s.power.supplyFault with
    | some x => decideFault fSupply none (le 1 (supplyCode x) ++ le 2 s3.drawn) false s3.draw
    | none => s3
  let s5 := if selfTestOk then s4 else decideFault fSelfTest none [] false s4
  grantPermits (startTelegrams (dropPullUps steeplePins s5))

/-! ## The Keep (step 7) -/

/-- The stop that a start follows: the power-off time, or else the assertion of the reset (R89). -/
def Power.cutTime (x : Power) : Nat := x.powerOff.getD x.assertedTime

/-- The mark, or its absence, entered and reported at the first start after a power cut; otherwise it is gone (R200). -/
def settleMark (s : State) : State :=
  match s.power.cutAt with
  | some t => powerFailReport t (s.withPower { s.power with cutAt := none })
  | none => s.withKeep { s.keep with mark := none }

/-- Another legal software than at the last start is entered in the log (R354). -/
def noteSoftware (s : State) : State :=
  let b := s.activeBank
  let old := s.legal.loggedSoftware
  if old = (b.keepVersion, b.swCheck) then s
  else keepLog 0x0070 originKeep (le 2 old.1 ++ le 4 old.2 ++ le 2 b.keepVersion ++ le 4 b.swCheck)
    (s.withLegal { s.legal with loggedSoftware := (b.keepVersion, b.swCheck) })

/-- The Keep's release, with the metrology DSP; RESTORED is set unless a save under R197 preceded the stop (R198). -/
def startKeep (fuse : FuseSense) (s0 : State) : State :=
  let s := dropPullUps [.calen] s0
  startLegal fuse (noteSoftware (settleMark (restoreKeep (!s.keep.stopSaved && s.power.boots != 1) (s.power.cutAt.getD s.power.cutTime) s)))

/-! ## Turret (step 8) -/

/-- Turret's release: every timer counts from now. -/
def startTurret (s : State) : State :=
  let t := s.turret
  markDisabled <| dropPullUps turretPins <| s.withTurret { t with
    mirror := t.mirror.map (fun e => { e with updatedAt := s.now, freshSince := s.now })
    boundaryAt := s.now, crossings := 0, inputHeartbeatAt := s.now
    lanes := t.lanes.map (fun l => { l with ignored := s.power.inForce.portStart == 0, drive := .low, nextDrive := .low, stateTime := s.time }) }

/-! ## Rotunda (step 9) -/

/-- A session as R89 leaves it: its mirror's fields (R87), its end values those of the last complete save. -/
def SessionBody.interrupt (b : SessionBody) (at_ billed : Nat) (restored : Bool) (l : Latched) : SessionBody :=
  let x := l.sets[b.port.val]'(by omega)
  let v := mwh x.regs.total.eai
  let b1 : SessionBody := if b.startEai.isSome then b
    else { b with startEai := some v, startLatch := l.seq, startWord := x.status, startSticky := x.sticky }
  { b1 with
    state := .interrupted, endReason := 9, endTime := at_, endBilled := billed, restored := restored, endEai := some v
    endLatch := l.seq, endWord := x.status, endSticky := x.sticky, endPending := false }

/-- One session that had not ended: it is interrupted, with its event and, once authorised, its signed end record (R89, R344). -/
def interruptSession (s : State) (c : Channel) : State :=
  match c.body with
  | .session b =>
    if b.state.live then
      let at_ := s.power.cutTime
      let b2 := b.interrupt at_ (max at_ (s.keep.saved.elim 0 (·.billing))) s.keep.restored (s.keep.saved.elim Latched.reset (·.latched))
      let s1 := raise 0x8044 (some b.port) (sessionEndPayload c.handle b2) (setSession c b2 s)
      if b.wasAuthorised then wantSessionRecord 3 c b2 s1 else s1
    else s
  | _ => s

/-- A lane whose last session is INTERRUPTED (R135). -/
def noteInterrupted (s : State) (p : Port) : State :=
  s.withTurret { s.turret with lanes := s.turret.lanes.set p { s.lane p with
    interrupted := (s.portSession p).any (fun x => x.2.state == .interrupted) } }

/-- Rotunda's release: sessions cut off are interrupted. -/
def startRotunda (s : State) : State :=
  let s1 := (dropPullUps [.hosts, .service] s).withRotunda { s.rotunda with createdTime := s.time, queueHeartbeatAt := s.now }
  allPorts.foldl noteInterrupted (s1.rotunda.channels.foldl interruptSession s1)

/-! ## The mailboxes serve (step 11) -/

/-- The corrected bits of the four blocks; of a block that did not decode they are a free value. -/
def State.errorBytes (s : State) : List Byte :=
  (List.range 4).flatMap (fun b => match s.cupola.errors.getD b none with
    | some n => le 1 n
    | none => slice (s.drawnBytes 4) b 1)

/-- KEYS_DESTROYED for a destruction while no mailbox served, and ROOT_UNAVAILABLE (R442, R453). -/
def raiseKeyEvents (tried : Bool) (s : State) : State :=
  let s1 := match s.cupola.destroyed with
    | some d => raiseDestroyed d (s.withCupola { s.cupola with destroyed := none })
    | none => s
  if !tried || s1.cupola.rootOk || s1.cupola.zeroized then s1
  else raise 0x80E3 none (s1.errorBytes ++ le 6 s1.time) s1.draw

/-- DEVICE_STARTED (R527). -/
def raiseStarted (s : State) : State :=
  let x := s.power
  raise 0x8005 none (le 1 x.cause ++ x.causeFlags ++ x.faultBits ++ le 6 (x.powerOff.getD 0) ++ le 6 x.bootTime) s

/-- Islands whose clock was not good in time: without the crystal, none of its own is (R18, R514). -/
def State.startFaults (s : State) (f : StartFacts) : List Clock :=
  let l := f.faultedIslands ++ s.power.startupFaults
  let all := if l.contains .crystal then l ++ derivedClocks else l
  allDomains.filter (fun c => c != .cd0 && all.contains c)

/-- Runs a release unless the island stays in reset. -/
def State.release (s : State) (c : Clock) (k : State → State) : State := if s.power.held.contains c then s else k s

/-- Lantern released where its option byte enables it; otherwise its pins stay as the reset leaves them (R559). -/
def startLantern (on : Bool) (s : State) : State := releaseLantern on (if on then dropPullUps [.trace] s else s)

/-- The islands released in order, with the bundle the boot has chosen. -/
def startIslands (f : StartFacts) (faults : List Clock) (s0 : State) : State :=
  let s := s0.withPower { s0.power with
    phase := .running, held := faults, startupFaults := faults, bootTime := s0.time, bootAt := s0.now }
  let s1 := s.release .cd1 (startSteeple f.selfTestOk)
  let s2 := s1.release .cd6 (startKeep f.fuse)
  let s3 := s2.release .cd2 startTurret
  let s4 := s3.release .cd5 startRotunda
  let s5 := s4.release .cd8 (fun s => settleBelfry (dropPullUps [.coupling] s))
  let s6 := s5.release .cd11 (startLantern (s5.power.inForce.lantern == 1))
  startTrial (raiseStarted (raiseKeyEvents (!s6.power.held.contains .cd7) s6))

/-- The release order from step 4; where no bundle verifies, recovery (R495). -/
def startDevice (f : StartFacts) (s : State) : State :=
  let faults := s.startFaults f
  let s1 := logDuds (s.withPower s.power.loadOptions)
  let s2 := startCupola f.array (faults.contains .cd7) s1
  match bootCheck f s2 with
  | some s3 => startIslands f faults s3
  | none => s2.withPower { s2.power with
      pullUps := s2.power.pullUps.filter (fun x => x != .service), phase := .recovery, held := faults, startupFaults := faults, bootTime := s2.time, bootAt := s2.now }

/-- DEVICE_START. -/
def execDeviceStart (f : StartFacts) (s : State) : Out :=
  if s.power.phase = .supplied then .next (startDevice f s) else .next s

end Sys2Proof.Machine
end

