-- ==== Sys2Proof/Machine/Dispatch.lean ====
section
/-! DEFINITION. The meaning of each command, one arm per constructor of `Instr`, each a direct call of the definition that holds it. -/

namespace Sys2Proof.Machine

def exec (i : Instr) (s : State) : Host.Outcome State Fault Refusal :=
  match i with
  | .status p => Sys2Proof.Machine.execStatus p s
  | .writeFrame p bytes => Sys2Proof.Machine.execWriteFrame p bytes s
  | .readFrame p clocked => Sys2Proof.Machine.execReadFrame p clocked s
  | .readAgain p => Sys2Proof.Machine.execReadAgain p s
  | .spiUnknownCommandByte p cmd => Sys2Proof.Machine.execSpiUnknownCommandByte p cmd s
  | .uartMailboxUnit u bytes => Sys2Proof.Machine.execUartMailboxUnit u bytes s
  | .uartUnitAbort u => Sys2Proof.Machine.execUartUnitAbort u s
  | .linkControlResend u => Sys2Proof.Machine.execLinkControlResend u s
  | .linkStatusUnit u => Sys2Proof.Machine.execLinkStatusUnit u s
  | .uartFrameSent u => Sys2Proof.Machine.execUartFrameSent u s
  | .eventGap b => Sys2Proof.Machine.execEventGap b s
  | .hostAttach b => Sys2Proof.Machine.execHostAttach b s
  | .hostAttachConfirm b => Sys2Proof.Machine.execHostAttachConfirm b s
  | .attachTimeout p => Sys2Proof.Machine.execAttachTimeout p s
  | .attachBarEnd p => Sys2Proof.Machine.execAttachBarEnd p s
  | .hostDetach b => Sys2Proof.Machine.execHostDetach b s
  | .hostStatus b => Sys2Proof.Machine.execHostStatus b s
  | .keepaliveExpiry p => Sys2Proof.Machine.execKeepaliveExpiry p s
  | .deviceInfo b => Sys2Proof.Machine.execDeviceInfo b s
  | .timeGet b => Sys2Proof.Machine.execTimeGet b s
  | .timeSet b => Sys2Proof.Machine.execTimeSet b s
  | .softReset b => Sys2Proof.Machine.execSoftReset b s
  | .dormant b => Sys2Proof.Machine.execDormant b s
  | .blockReset b => Sys2Proof.Machine.execBlockReset b s
  | .resetCause b => Sys2Proof.Machine.execResetCause b s
  | .optionRead b => Sys2Proof.Machine.execOptionRead b s
  | .optionWrite b => Sys2Proof.Machine.execOptionWrite b s
  | .channelCreate b => Sys2Proof.Machine.execChannelCreate b s
  | .channelDestroy b => Sys2Proof.Machine.execChannelDestroy b s
  | .channelRead b => Sys2Proof.Machine.execChannelRead b s
  | .channelModify b => Sys2Proof.Machine.execChannelModify b s
  | .channelList b => Sys2Proof.Machine.execChannelList b s
  | .cfgBegin b => Sys2Proof.Machine.execCfgBegin b s
  | .cfgWrite b => Sys2Proof.Machine.execCfgWrite b s
  | .cfgCommit b => Sys2Proof.Machine.execCfgCommit b s
  | .cfgAbort b => Sys2Proof.Machine.execCfgAbort b s
  | .cfgRead b => Sys2Proof.Machine.execCfgRead b s
  | .cfgStatus b => Sys2Proof.Machine.execCfgStatus b s
  | .stageTimeout p => Sys2Proof.Machine.execStageTimeout p s
  | .commitApplyTimeout p => Sys2Proof.Machine.execCommitApplyTimeout p s
  | .allocSet b => Sys2Proof.Machine.execAllocSet b s
  | .allocRead b => Sys2Proof.Machine.execAllocRead b s
  | .mirrorPublish f pub => Sys2Proof.Machine.execMirrorPublish f pub s
  | .mirrorPublishUnsync pub => Sys2Proof.Machine.execMirrorPublishUnsync pub s
  | .mirrorEntryStale c => Sys2Proof.Machine.execMirrorEntryStale c s
  | .zoneTimerRestart f => Sys2Proof.Machine.execZoneTimerRestart f s
  | .softShedding f => Sys2Proof.Machine.execSoftShedding f s
  | .hardShedding f => Sys2Proof.Machine.execHardShedding f s
  | .guardBlindFault f => Sys2Proof.Machine.execGuardBlindFault f s
  | .clockLost c => Sys2Proof.Machine.execClockLost c s
  | .clockGood c => Sys2Proof.Machine.execClockGood c s
  | .islandReleaseTimeout c => Sys2Proof.Machine.execIslandReleaseTimeout c s
  | .evaluationPeriod p x => Sys2Proof.Machine.execEvaluationPeriod p x s
  | .pilotConfirmed p => Sys2Proof.Machine.execPilotConfirmed p s
  | .pilotFault p => Sys2Proof.Machine.execPilotFault p s
  | .proximityCodeAccepted p => Sys2Proof.Machine.execProximityCodeAccepted p s
  | .cableRefused p => Sys2Proof.Machine.execCableRefused p s
  | .reservationExpired p => Sys2Proof.Machine.execReservationExpired p s
  | .allowanceOpeningTimeout p => Sys2Proof.Machine.execAllowanceOpeningTimeout p s
  | .residualTestStep p r => Sys2Proof.Machine.execResidualTestStep p r s
  | .closingContactorSettled p ctf ctfUnchanged => Sys2Proof.Machine.execClosingContactorSettled p ctf ctfUnchanged s
  | .closingPreBreakStart p => Sys2Proof.Machine.execClosingPreBreakStart p s
  | .closingPbfCheck p pbf => Sys2Proof.Machine.execClosingPbfCheck p pbf s
  | .ovsEdge p => Sys2Proof.Machine.execOvsEdge p s
  | .ovsAbsent p => Sys2Proof.Machine.execOvsAbsent p s
  | .ovsPresenceTimeout p => Sys2Proof.Machine.execOvsPresenceTimeout p s
  | .openingCurrentZero p => Sys2Proof.Machine.execOpeningCurrentZero p s
  | .openingPbfCheck p pbf => Sys2Proof.Machine.execOpeningPbfCheck p pbf s
  | .openingContactorRelease p => Sys2Proof.Machine.execOpeningContactorRelease p s
  | .openingCtfCheck p ctf => Sys2Proof.Machine.execOpeningCtfCheck p ctf s
  | .weldProbe p => Sys2Proof.Machine.execWeldProbe p s
  | .weldProbeEnd p pbf => Sys2Proof.Machine.execWeldProbeEnd p pbf s
  | .contactorFeedbackDiscrepancy p ctf => Sys2Proof.Machine.execContactorFeedbackDiscrepancy p ctf s
  | .preBreakDiscrepancy p pbf => Sys2Proof.Machine.execPreBreakDiscrepancy p pbf s
  | .faultOpeningChecks p ctf => Sys2Proof.Machine.execFaultOpeningChecks p ctf s
  | .portEnable b => Sys2Proof.Machine.execPortEnable b s
  | .portDisable b => Sys2Proof.Machine.execPortDisable b s
  | .sessionOpen b => Sys2Proof.Machine.execSessionOpen b s
  | .sessionAuthorise b => Sys2Proof.Machine.execSessionAuthorise b s
  | .sessionStop b => Sys2Proof.Machine.execSessionStop b s
  | .portStatus b => Sys2Proof.Machine.execPortStatus b s
  | .sessionStatus b => Sys2Proof.Machine.execSessionStatus b s
  | .portDiag b => Sys2Proof.Machine.execPortDiag b s
  | .sessionEnded p => Sys2Proof.Machine.execSessionEnded p s
  | .lineCycleEnd d => Sys2Proof.Machine.execLineCycleEnd d s
  | .pathChange c first rest => Sys2Proof.Machine.execPathChange c first rest s
  | .frequencyDetected found => Sys2Proof.Machine.execFrequencyDetected found s
  | .toneWindowEnd m w => Sys2Proof.Machine.execToneWindowEnd m w s
  | .toneObscured m => Sys2Proof.Machine.execToneObscured m s
  | .regRead b => Sys2Proof.Machine.execRegRead b s
  | .regReadSet b => Sys2Proof.Machine.execRegReadSet b s
  | .snapshotRead b => Sys2Proof.Machine.execSnapshotRead b s
  | .billingClose b => Sys2Proof.Machine.execBillingClose b s
  | .tariffActivate b => Sys2Proof.Machine.execTariffActivate b s
  | .readSigned b => Sys2Proof.Machine.execReadSigned b s
  | .legalLogRead b => Sys2Proof.Machine.execLegalLogRead b s
  | .certRead b => Sys2Proof.Machine.execCertRead b s
  | .calRead b => Sys2Proof.Machine.execCalRead b s
  | .calWrite b => Sys2Proof.Machine.execCalWrite b s
  | .calSeal b => Sys2Proof.Machine.execCalSeal b s
  | .sealPulseEnd sense => Sys2Proof.Machine.execSealPulseEnd sense s
  | .toneStatus b => Sys2Proof.Machine.execToneStatus b s
  | .calenChange level => Sys2Proof.Machine.execCalenChange level s
  | .tamperInputChange t opened => Sys2Proof.Machine.execTamperInputChange t opened s
  | .supplyExcursion x mv => Sys2Proof.Machine.execSupplyExcursion x mv s
  | .residualCurrentDetected p d reading => Sys2Proof.Machine.execResidualCurrentDetected p d reading s
  | .residualSensorFault p mv => Sys2Proof.Machine.execResidualSensorFault p mv s
  | .fastTrip p a b c => Sys2Proof.Machine.execFastTrip p a b c s
  | .comparatorSelfTest p fired quiet => Sys2Proof.Machine.execComparatorSelfTest p fired quiet s
  | .peMonWindow edges => Sys2Proof.Machine.execPeMonWindow edges s
  | .estopTestPulse aFollowed bHeld => Sys2Proof.Machine.execEstopTestPulse aFollowed bHeld s
  | .estopInputChange aClosed bClosed => Sys2Proof.Machine.execEstopInputChange aClosed bClosed s
  | .lockoutReset b => Sys2Proof.Machine.execLockoutReset b s
  | .clearProbeEnd p => Sys2Proof.Machine.execClearProbeEnd p s
  | .srstNPulse lowMs => Sys2Proof.Machine.execSrstNPulse lowMs s
  | .degradedOvercurrent p => Sys2Proof.Machine.execDegradedOvercurrent p s
  | .safetyStatus b => Sys2Proof.Machine.execSafetyStatus b s
  | .faultRecordRead b => Sys2Proof.Machine.execFaultRecordRead b s
  | .safetyParamRead b => Sys2Proof.Machine.execSafetyParamRead b s
  | .safetyParamStage b => Sys2Proof.Machine.execSafetyParamStage b s
  | .safetyCommit b => Sys2Proof.Machine.execSafetyCommit b s
  | .telegramStatus b => Sys2Proof.Machine.execTelegramStatus b s
  | .telegramCopyReceived path framing arrivalUs bytes => Sys2Proof.Machine.execTelegramCopyReceived path framing arrivalUs bytes s
  | .plcStatus b => Sys2Proof.Machine.execPlcStatus b s
  | .plcNeighbours b => Sys2Proof.Machine.execPlcNeighbours b s
  | .plcSend b => Sys2Proof.Machine.execPlcSend b s
  | .plcPairingOpen b => Sys2Proof.Machine.execPlcPairingOpen b s
  | .plcRouteRead b => Sys2Proof.Machine.execPlcRouteRead b s
  | .plcTonemapRead b => Sys2Proof.Machine.execPlcTonemapRead b s
  | .plcNodeRemove b => Sys2Proof.Machine.execPlcNodeRemove b s
  | .contentionPeriod d => Sys2Proof.Machine.execContentionPeriod d s
  | .plcTransmitStart d => Sys2Proof.Machine.execPlcTransmitStart d s
  | .plcTransmitEnd d => Sys2Proof.Machine.execPlcTransmitEnd d s
  | .plcAckSend d => Sys2Proof.Machine.execPlcAckSend d s
  | .plcAckTimeout d => Sys2Proof.Machine.execPlcAckTimeout d s
  | .acknowledgement d => Sys2Proof.Machine.execAcknowledgement d s
  | .plcFrameCheckFailed d source erased newMap => Sys2Proof.Machine.execPlcFrameCheckFailed d source erased newMap s
  | .toneMapUpdate d f => Sys2Proof.Machine.execToneMapUpdate d f s
  | .toneMapRefresh d slot newMap => Sys2Proof.Machine.execToneMapRefresh d slot newMap s
  | .toneMapLapse d slot dir index => Sys2Proof.Machine.execToneMapLapse d slot dir index s
  | .routeReq d f => Sys2Proof.Machine.execRouteReq d f s
  | .routeRep d f => Sys2Proof.Machine.execRouteRep d f s
  | .routeReplyDue requestId => Sys2Proof.Machine.execRouteReplyDue requestId s
  | .routeRequestTimeout target => Sys2Proof.Machine.execRouteRequestTimeout target s
  | .routeErr d f => Sys2Proof.Machine.execRouteErr d f s
  | .routeEntryLapse destination => Sys2Proof.Machine.execRouteEntryLapse destination s
  | .neighbourTimeout slot => Sys2Proof.Machine.execNeighbourTimeout slot s
  | .gatewayReport d f => Sys2Proof.Machine.execGatewayReport d f s
  | .nodeStatus d f => Sys2Proof.Machine.execNodeStatus d f s
  | .hostData d f => Sys2Proof.Machine.execHostData d f s
  | .portIndication p => Sys2Proof.Machine.execPortIndication p s
  | .joinReq d f => Sys2Proof.Machine.execJoinReq d f s
  | .joinConfirm d f => Sys2Proof.Machine.execJoinConfirm d f s
  | .joinConfirmTimeout address => Sys2Proof.Machine.execJoinConfirmTimeout address s
  | .readerPing a amplitude phase field => Sys2Proof.Machine.execReaderPing a amplitude phase field s
  | .presentationCheck a answered => Sys2Proof.Machine.execPresentationCheck a answered s
  | .heldTapExpiry tap => Sys2Proof.Machine.execHeldTapExpiry tap s
  | .proofExpiry id => Sys2Proof.Machine.execProofExpiry id s
  | .keytagReachAgain a r => Sys2Proof.Machine.execKeytagReachAgain a r s
  | .tagTxnTimeout a => Sys2Proof.Machine.execTagTxnTimeout a s
  | .readerStatus b => Sys2Proof.Machine.execReaderStatus b s
  | .tagRead b => Sys2Proof.Machine.execTagRead b s
  | .tagWrite b => Sys2Proof.Machine.execTagWrite b s
  | .tagProvision b => Sys2Proof.Machine.execTagProvision b s
  | .authlistRead b => Sys2Proof.Machine.execAuthlistRead b s
  | .authlistWrite b => Sys2Proof.Machine.execAuthlistWrite b s
  | .bindPort b => Sys2Proof.Machine.execBindPort b s
  | .keyStatus b => Sys2Proof.Machine.execKeyStatus b s
  | .keyStage b => Sys2Proof.Machine.execKeyStage b s
  | .keyVerify b => Sys2Proof.Machine.execKeyVerify b s
  | .keyCommit b => Sys2Proof.Machine.execKeyCommit b s
  | .keyAbort b => Sys2Proof.Machine.execKeyAbort b s
  | .reanchoring tries => Sys2Proof.Machine.execReanchoring tries s
  | .meshCheck returned => Sys2Proof.Machine.execMeshCheck returned s
  | .temperatureCheck celsius => Sys2Proof.Machine.execTemperatureCheck celsius s
  | .destruction src => Sys2Proof.Machine.execDestruction src s
  | .scrubLine region line r by_ => Sys2Proof.Machine.execScrubLine region line r by_ s
  | .mramRefresh page r => Sys2Proof.Machine.execMramRefresh page r s
  | .pageRetire b => Sys2Proof.Machine.execPageRetire b s
  | .errorLogRead b => Sys2Proof.Machine.execErrorLogRead b s
  | .memStatus b => Sys2Proof.Machine.execMemStatus b s
  | .updateStatus b => Sys2Proof.Machine.execUpdateStatus b s
  | .updateConfirm b => Sys2Proof.Machine.execUpdateConfirm b s
  | .ownerLock b => Sys2Proof.Machine.execOwnerLock b s
  | .ownerUnlock b => Sys2Proof.Machine.execOwnerUnlock b s
  | .updateClaim b => Sys2Proof.Machine.execUpdateClaim b s
  | .updateBlock b => Sys2Proof.Machine.execUpdateBlock b s
  | .updateActivate b => Sys2Proof.Machine.execUpdateActivate b s
  | .updateRelease b => Sys2Proof.Machine.execUpdateRelease b s
  | .svcVbusChange mv => Sys2Proof.Machine.execSvcVbusChange mv s
  | .counterRead b => Sys2Proof.Machine.execCounterRead b s
  | .traceLost source => Sys2Proof.Machine.execTraceLost source s
  | .brownOut x => Sys2Proof.Machine.execBrownOut x s
  | .resetNLow us => Sys2Proof.Machine.execResetNLow us s
  | .watchdogReset w => Sys2Proof.Machine.execWatchdogReset w s
  | .deviceStart facts => Sys2Proof.Machine.execDeviceStart facts s
  | .vbakLow low => Sys2Proof.Machine.execVbakLow low s
  | .bulkOutTransfer bytes => Sys2Proof.Machine.execBulkOutTransfer bytes s
  | .reProvisioning r => Sys2Proof.Machine.execReProvisioning r s
  | .preambleDetected d => Sys2Proof.Machine.execPreambleDetected d s
  | .plcHeaderCheckFailed d => Sys2Proof.Machine.execPlcHeaderCheckFailed d s
  | .slewComplete => Sys2Proof.Machine.execSlewComplete s
  | .holdEnd => Sys2Proof.Machine.execHoldEnd s
  | .softResetExecute => Sys2Proof.Machine.execSoftResetExecute s
  | .dormantEntry => Sys2Proof.Machine.execDormantEntry s
  | .shutdownOpeningsTimeout => Sys2Proof.Machine.execShutdownOpeningsTimeout s
  | .blockResetComplete => Sys2Proof.Machine.execBlockResetComplete s
  | .allocInputHeartbeat => Sys2Proof.Machine.execAllocInputHeartbeat s
  | .allocInputStale => Sys2Proof.Machine.execAllocInputStale s
  | .hostSurplusExpiry => Sys2Proof.Machine.execHostSurplusExpiry s
  | .allocationBoundary => Sys2Proof.Machine.execAllocationBoundary s
  | .sessionEventQueueHeartbeat => Sys2Proof.Machine.execSessionEventQueueHeartbeat s
  | .controlLost => Sys2Proof.Machine.execControlLost s
  | .gapEntry => Sys2Proof.Machine.execGapEntry s
  | .sessionEventDeliver => Sys2Proof.Machine.execSessionEventDeliver s
  | .clockDeviation => Sys2Proof.Machine.execClockDeviation s
  | .frequencyLost => Sys2Proof.Machine.execFrequencyLost s
  | .toneStateSave => Sys2Proof.Machine.execToneStateSave s
  | .latch => Sys2Proof.Machine.execLatch s
  | .saveComplete => Sys2Proof.Machine.execSaveComplete s
  | .signatureComplete => Sys2Proof.Machine.execSignatureComplete s
  | .tamperBufferMove => Sys2Proof.Machine.execTamperBufferMove s
  | .lockstepMismatch => Sys2Proof.Machine.execLockstepMismatch s
  | .turretAliveTimeout => Sys2Proof.Machine.execTurretAliveTimeout s
  | .cd1Loss => Sys2Proof.Machine.execCd1Loss s
  | .reactionEnd => Sys2Proof.Machine.execReactionEnd s
  | .escalationWindowEnd => Sys2Proof.Machine.execEscalationWindowEnd s
  | .shuntTripPulseEnd => Sys2Proof.Machine.execShuntTripPulseEnd s
  | .lockoutResetTimeout => Sys2Proof.Machine.execLockoutResetTimeout s
  | .confirmationWindowExpired => Sys2Proof.Machine.execConfirmationWindowExpired s
  | .srstNStuck => Sys2Proof.Machine.execSrstNStuck s
  | .degradedTimeEnd => Sys2Proof.Machine.execDegradedTimeEnd s
  | .degradedEarlyEnd => Sys2Proof.Machine.execDegradedEarlyEnd s
  | .telegramTransmit => Sys2Proof.Machine.execTelegramTransmit s
  | .skewAllowanceEnd => Sys2Proof.Machine.execSkewAllowanceEnd s
  | .telegramTimeout => Sys2Proof.Machine.execTelegramTimeout s
  | .energyReport => Sys2Proof.Machine.execEnergyReport s
  | .beacon => Sys2Proof.Machine.execBeacon s
  | .pairingWindowClose => Sys2Proof.Machine.execPairingWindowClose s
  | .vddtxLow => Sys2Proof.Machine.execVddtxLow s
  | .vddtxRestored => Sys2Proof.Machine.execVddtxRestored s
  | .retiringKeyErase => Sys2Proof.Machine.execRetiringKeyErase s
  | .rngHealthFailure => Sys2Proof.Machine.execRngHealthFailure s
  | .rngHealthRestored => Sys2Proof.Machine.execRngHealthRestored s
  | .bucketLeak => Sys2Proof.Machine.execBucketLeak s
  | .bankEraseComplete => Sys2Proof.Machine.execBankEraseComplete s
  | .activationSaveComplete => Sys2Proof.Machine.execActivationSaveComplete s
  | .activationReset => Sys2Proof.Machine.execActivationReset s
  | .claimTimeout => Sys2Proof.Machine.execClaimTimeout s
  | .trialExpiry => Sys2Proof.Machine.execTrialExpiry s
  | .fallbackReset => Sys2Proof.Machine.execFallbackReset s
  | .fallbackForcedStop => Sys2Proof.Machine.execFallbackForcedStop s
  | .traceSync => Sys2Proof.Machine.execTraceSync s
  | .powerOn => Sys2Proof.Machine.execPowerOn s
  | .resetNStuck => Sys2Proof.Machine.execResetNStuck s
  | .steepleFatalReset => Sys2Proof.Machine.execSteepleFatalReset s
  | .suppliesGood => Sys2Proof.Machine.execSuppliesGood s
  | .holdUpEntry => Sys2Proof.Machine.execHoldUpEntry s
  | .holdUpEnd => Sys2Proof.Machine.execHoldUpEnd s
  | .permitsRestored => Sys2Proof.Machine.execPermitsRestored s
  | .wakeN => Sys2Proof.Machine.execWakeN s
  | .clearConditionsMet => Sys2Proof.Machine.execClearConditionsMet s
  | .srstNRearm => Sys2Proof.Machine.execSrstNRearm s
  | .resetNRearm => Sys2Proof.Machine.execResetNRearm s
  | .aonDomainStop => Sys2Proof.Machine.execAonDomainStop s
  | .bulkInTransfer => Sys2Proof.Machine.execBulkInTransfer s
  | .calCaptureTimeout => Sys2Proof.Machine.execCalCaptureTimeout s
  | .busOffRecovery => Sys2Proof.Machine.execBusOffRecovery s
  | .commitWordWritten => Sys2Proof.Machine.execCommitWordWritten s

end Sys2Proof.Machine
end

