-- ==== Sys2Proof/Machine/Tick.lean ====
section
/-! DEFINITION. What one millisecond brings while no command waits (log entry 3). -/

namespace Sys2Proof.Machine

/-- One millisecond of civil time: 1000 ppm slow while a slew is absorbed (R320); billing time never falls behind it (R319). -/
def passTime (s : State) : State :=
  let k := s.keep
  if k.slewLeft = 0 then
    { s with civil := w48 (s.civil + 1), keep := { k with billing := max k.billing (w48 (s.civil + 1)) } }
  else if k.slewPart + 1 < 1000 then
    { s with
      civil := w48 (s.civil + 1)
      keep := { k with
        billing := max k.billing (w48 (s.civil + 1)), slewLeft := k.slewLeft - 1, slewPart := k.slewPart + 1 } }
  else s.withKeep { k with slewLeft := k.slewLeft - 1, slewPart := 0 }

/-- The trace port sends what waits. -/
def runLantern (s : State) : State := if s.lanternUp then s.withLantern s.lantern.run else s

/-- A power-fail mark whose writing hold-up has allowed gets its valid flag (R199); one cut off before has none. -/
def validateMark (s : State) : State :=
  if s.keepUp then s.withKeep { s.keep with mark := s.keep.marking.orElse (fun _ => s.keep.mark), marking := none } else s

/-- Slots are rebuilt (R88), a retirement ends (R471), what Steeple has decided is in MRAM (R271 Y9), and a power-fail mark is whole (R199). -/
def settleMemory (s : State) : State :=
  settleRetirement (validateMark ((s.withRotunda { s.rotunda with rebuilding := [] }).withSteeple s.steeple.storeSafety))

/-- The synthesiser runs from the release of the modulators: 4096 clocks in a millisecond (R162). Its phase at the
release is 0. DESIGN CHOICE (log 187). unsafe. -/
def runTone (s : State) : State :=
  if s.dspUp then s.withDsp { s.dsp with toneAccumulator := w32 (s.dsp.toneAccumulator + 4096 * toneIncrement) } else s

/-- The current that every Pnn_TON drives, in nA: 2.000 mA rms at the synthesiser's phase, at any state of the port (R105, R162). -/
def State.toneOut (s : State) : Int :=
  if s.dspUp then 2828427 * sin30 (s.dsp.toneAccumulator / 65536) / one30 else 0

/-- One millisecond: the RTC counts while the always-on domain runs, the trace port sends, a restarted Rotunda serves again, sessions whose
events are used up end, slots are rebuilt, what Steeple has decided is in MRAM, the tone runs, and a shutdown goes on once its openings have completed. -/
def tick (s : State) : State :=
  let s1 : State := { s with now := s.now + 1 }
  shutdownStep (runTone (stampBodies (settleMemory (endSpent (serveAgain (runLantern (if s.aon then passTime s1 else s1)))))))

end Sys2Proof.Machine
end

