-- ==== Sys2Proof/Safety.lean ====
section
/-! DEFINITION. What the claims speak of: the capacities that every buffer of the hardware has, when a request is the one that its row
executes, and what changes only in the mailboxes. -/

namespace Sys2Proof.Machine

/-! ## Capacities -/

/-- No inbound ring holds more than 8 frames (R60). -/
def Rotunda.Within (r : Rotunda) : Prop := ∀ b : Box, (r.boxes[b]).inRing.length ≤ 8

/-- The session event queue holds at most 256 entries (R36). -/
def Turret.Within (t : Turret) : Prop := t.queue.length ≤ 256

/-- The fault record holds at most 256 entries (R272). -/
def Steeple.Within (t : Steeple) : Prop := t.record.length ≤ 256

/-- The legal log holds at most 1024 entries (R353), the always-on domain's buffer 64 (R350), the signing queue 16 (R341). -/
def Legal.Within (l : Legal) : Prop := l.log.length ≤ 1024 ∧ l.aonBuffer.length ≤ 64 ∧ l.signing.length ≤ 16

/-- The Keep keeps at most 24 snapshots (R317) and 256 boundary records (R326). -/
def Keep.Within (k : Keep) : Prop := k.snapshots.length ≤ 24 ∧ k.boundaries.length ≤ 256

/-- At most 8 held taps (R428), 4 proofs (R423) and 16 pending write records in either copy (R421). -/
def Oculus.Within (o : Oculus) : Prop :=
  o.held.length ≤ 8 ∧ o.proofs.length ≤ 4 ∧ o.pendingWrites.length ≤ 16 ∧ (o.pendingTwin.older.getD []).length ≤ 16

/-- The error log holds at most 256 entries (R473). -/
def Memory.Within (m : Memory) : Prop := m.log.length ≤ 256

/-- The update log holds at most 64 entries (R503). -/
def Update.Within (u : Update) : Prop := u.log.length ≤ 64

/-- Every buffer is within its capacity. -/
structure State.Within (s : State) : Prop where
  rotunda : s.rotunda.Within
  turret : s.turret.Within
  steeple : s.steeple.Within
  legal : s.legal.Within
  keep : s.keep.Within
  oculus : s.oculus.Within
  memory : s.memory.Within
  update : s.update.Within

/-! ## Requests -/

/-- The oldest frame of a mailbox is a request with this opcode: the mailbox serves, the frame passes checks 4 to 10 of R58 as the
request `r`, its reply slots can be reserved (R61), no other mailbox's request goes before it (R68), and no segments of another
request wait (R57). -/
structure Asked (b : Box) (op : Nat) (f : Frame) (r : Req) (s : State) : Prop where
  ready : ready s b op = some (f, r)
  whole : (s.box b).segments.all (·.matches f) = true

/-- A row's request, taken under a condition, has exactly this effect on the state that taking it leaves. -/
def Does (row : Box → Instr) (op : Nat) (cond : Req → State → Prop) (effect : Req → State → State) : Prop :=
  ∀ b f r s, Asked b op f r s → cond r (taken b f s) → exec (row b) s = .next (effect r (taken b f s))

/-- A row's request, taken under a condition, is answered at once with this payload and does nothing else. -/
def Answers (row : Box → Instr) (op : Nat) (cond : Req → State → Prop) (payload : Req → State → List Byte) : Prop :=
  Does row op cond (fun r s => respond r stOk (payload r s) s)

/-- A row's request, taken under a condition, is refused with this status and does nothing else. -/
def Refuses (row : Box → Instr) (op : Nat) (cond : Req → State → Prop) (status : Nat) : Prop :=
  Does row op cond (fun r s => respond r status [] s)

/-! ## What replies and events touch -/

/-- The state without what frames and messages go through: the mailboxes, the always-on copy of their last sequences, Lantern, and the
model's counter of draws. -/
def State.unlinked (s : State) : State :=
  { s with
    free := 0
    rotunda := { s.rotunda with boxes := Vector.replicate 6 Mailbox.reset }
    power := { s.power with aonExecuted := Vector.replicate 4 0xFFFF }
    lantern := Lantern.reset }

end Sys2Proof.Machine
end

