-- ==== Sys2Proof/Certificates/Slice0/Obligations.lean ====
section
/-! DEFINITION. The statements for the provers. -/

open Sys2Proof Sys2Proof.Machine

/-! ## The block as a whole -/

/-- A step takes the command at the front of the queue and executes it with the rest of the queue. -/
def Obligations.StepRunsFront : Prop :=
  ∀ (c : Instr) (q : List Instr) (s : State), step { s with pending := c :: q } = exec c { s with pending := q }

/-- With no command waiting a step is one millisecond (the model's choice, log entry 3): the clock moves by 1, the queue stays empty,
and civil time moves by one millisecond unless a slew is being absorbed or the always-on domain is off. -/
def Obligations.IdleStepIsOneMillisecond : Prop :=
  ∀ s : State, s.pending = [] → ∃ t, step s = .next t ∧ t.pending = [] ∧ t.now = s.now + 1 ∧
    (s.aon = true → s.keep.slewLeft = 0 → t.civil = w48 (s.civil + 1)) ∧ (s.aon = false → t.civil = s.civil)

/-- Every command ends in a next state, whatever its operands and the state: none faults and none is refused. -/
def Obligations.EveryCommandCompletes : Prop := ∀ (c : Instr) (s : State), ∃ t, exec c s = .next t

/-- No command changes the queue of commands or the model's clock. -/
def Obligations.CommandsLeaveQueueAndClock : Prop :=
  ∀ (c : Instr) (s t : State), s.Within → exec c s = .next t → t.pending = s.pending ∧ t.now = s.now

/-- Every step keeps every buffer within the capacity its rule gives it: inbound rings 8 frames, the session event queue and the fault
record 256 entries, the legal log 1024, the always-on buffer 64, the signing queue 16, snapshots 24, boundary records 256, held taps 8,
proofs 4, pending writes 16, the error log 256, the update log 64. -/
def Obligations.StepsKeepCapacities : Prop := ∀ s t : State, s.Within → step s = .next t → t.Within

/-- The state after reset is within every capacity. -/
def Obligations.ResetIsWithinCapacities : Prop := State.reset.Within

/-- Replies, events, Lantern's messages and the taking of a request touch nothing but mailboxes, Lantern, the always-on copy of the
last sequences and the model's counter of draws. -/
def Obligations.RepliesTouchOnlyTheLink : Prop :=
  (∀ r st pl s, (respond r st pl s).unlinked = s.unlinked) ∧ (∀ r s, (accept r s).unlinked = s.unlinked) ∧
  (∀ w st pl s, (finish w st pl s).unlinked = s.unlinked) ∧ (∀ b f s, (taken b f s).unlinked = s.unlinked) ∧
  (∀ o e s, (raiseAlso o e s).unlinked = s.unlinked) ∧ (∀ c p pl s, (raise c p pl s).unlinked = s.unlinked) ∧
  (∀ src ty c s, (trace src ty c s).unlinked = s.unlinked)

/-! ## Host ports -/

/-- The four SPI transactions and an unknown command byte (R47 to R50): what MISO carries, when a frame is consumed, and that nothing
outside the mailboxes, Lantern and their counters changes. -/
def Obligations.SpiTransactions : Prop :=
  (∀ (p : HostPort) (s : State), s.linkUp = true → s.isSpi p = true →
    ∃ t, exec (.status p) s = .next t ∧ t.unlinked = s.unlinked ∧
      (t.box (hostBox p)).wire = le 1 (s.statusByte (hostBox p)) ++ (le 1 (s.statusByte (hostBox p))
        ++ le 1 (8 - (s.box (hostBox p)).inRing.length) ++ le 1 (s.box (hostBox p)).outRing.length ++ le 1 (s.roleOf (hostBox p))
        ++ le 2 (s.box (hostBox p)).frameErrors ++ [0, 0]) ∧
      (t.box (hostBox p)).errFlag = false) ∧
  (∀ (p : HostPort) (s : State), s.linkUp = true → s.isSpi p = true → (s.box (hostBox p)).outRing = [] →
    ∀ n, exec (.readFrame p n) s = .next (setWire (hostBox p) (le 1 (s.statusByte (hostBox p)) ++ [0]) s)) ∧
  (∀ (p : HostPort) (s : State) f fs n, s.linkUp = true → s.isSpi p = true → (s.box (hostBox p)).outRing = f :: fs →
    n < f.bytes.length → exec (.readFrame p n) s =
      .next (setWire (hostBox p) (le 1 (s.statusByte (hostBox p)) ++ [1] ++ f.bytes.take n) s)) ∧
  (∀ (p : HostPort) (s : State) f fs n, s.linkUp = true → s.isSpi p = true → (s.box (hostBox p)).outRing = f :: fs →
    f.bytes.length ≤ n → exec (.readFrame p n) s = .next (settleAll (consumeOut (hostBox p) f
      (setWire (hostBox p) (le 1 (s.statusByte (hostBox p)) ++ [1] ++ f.bytes) s)))) ∧
  (∀ (p : HostPort) (s : State), s.linkUp = true → s.isSpi p = true →
    ∃ t, exec (.readAgain p) s = .next t ∧ t.unlinked = s.unlinked ∧
      (t.box (hostBox p)).wire = le 1 (s.statusByte (hostBox p)) ++
        (match (s.box (hostBox p)).kept with
          | some f => [1] ++ f.bytes
          | none => [0]) ∧ (t.box (hostBox p)).outRing = (s.box (hostBox p)).outRing) ∧
  (∀ (p : HostPort) (s : State) c, s.linkUp = true → s.isSpi p = true → ¬ c ∈ [0x3C, 0x5A, 0xA5, 0xC3] →
    ∀ n, ∃ t, exec (.spiUnknownCommandByte p ⟨c, n⟩) s = .next t ∧ t.unlinked = s.unlinked ∧
      (t.box (hostBox p)).wire = le 1 (s.statusByte (hostBox p)) ++ zeros n ∧
      (t.box (hostBox p)).frameErrors = w32 ((s.box (hostBox p)).frameErrors + 1) ∧ (t.box (hostBox p)).errFlag = true)

/-- A frame written by the host (R49, R51 to R53, R58, R478, R479): a frame that fails checks 1 to 3 is discarded and counted; one that
passes them goes to the end of the inbound ring while the mailbox serves and has a free slot. -/
def Obligations.FramesArrive : Prop :=
  (∀ (p : HostPort) (s : State) bytes, s.linkUp = true → s.isSpi p = true → parseFrame (s.rotunda.arrivals + 1) bytes = none →
    ∃ t, exec (.writeFrame p bytes) s = .next t ∧ t.unlinked = s.unlinked ∧
      (t.box (hostBox p)).frameErrors = w32 ((s.box (hostBox p)).frameErrors + 1) ∧
      (t.box (hostBox p)).inRing = (s.box (hostBox p)).inRing) ∧
  (∀ (p : HostPort) (s : State) bytes f, s.linkUp = true → s.isSpi p = true → parseFrame (s.rotunda.arrivals + 1) bytes = some f →
    s.servesBox (hostBox p) = true → (s.box (hostBox p)).inRing.length < 8 →
    exec (.writeFrame p bytes) s = .next (settleAll (placeFrame (hostBox p) f
      (setWire (hostBox p) (le 1 (s.statusByte (hostBox p)) ++ zeros bytes.length) s)))) ∧
  (∀ (u : Uart) (s : State) bytes f, s.uartUp u = true → parseFrame (s.rotunda.arrivals + 1) (unescapeUnit bytes) = some f →
    s.servesBox (uartBox u) = true → (s.box (uartBox u)).inRing.length < 8 →
    ∃ t, exec (.uartMailboxUnit u bytes) s = .next (settleAll t) ∧
      (t.box (uartBox u)).inRing = (s.box (uartBox u)).inRing ++ [f]) ∧
  (∀ (s : State) bytes f, s.linkUp = true → s.update.vbus = true → parseFrame (s.rotunda.arrivals + 1) bytes = some f →
    s.servesBox 4 = true → (s.box 4).inRing.length < 8 →
    ∃ t, exec (.bulkOutTransfer bytes) s = .next (settleAll t) ∧ (t.box 4).inRing = (s.box 4).inRing ++ [f])

/-- The UART and USB lines outbound (R52 to R55, R61, R478): an aborted unit is a frame error; the kept frame is sent again; the link
status unit shows free inbound slots, outbound frames and the status byte; a frame sent leaves its ring; lost events are announced. -/
def Obligations.LinesOutbound : Prop :=
  (∀ (u : Uart) (s : State), s.uartUp u = true → ∃ t, exec (.uartUnitAbort u) s = .next t ∧ t.unlinked = s.unlinked ∧
    (t.box (uartBox u)).frameErrors = w32 ((s.box (uartBox u)).frameErrors + 1)) ∧
  (∀ (u : Uart) (s : State) f, s.uartUp u = true → (s.box (uartBox u)).kept = some f →
    ∃ t, exec (.linkControlResend u) s = .next t ∧ t.unlinked = s.unlinked ∧
      (t.box (uartBox u)).wire = [0x7E] ++ escapeUnit f.bytes ++ [0x7E] ∧ (t.box (uartBox u)).lastTxAt = s.now) ∧
  (∀ (u : Uart) (s : State), s.uartUp u = true →
    ((s.box (uartBox u)).slotFreed = true ∨ (s.box (uartBox u)).lastTxAt + 100 ≤ s.now) →
    ∃ t, exec (.linkStatusUnit u) s = .next t ∧ t.unlinked = s.unlinked ∧ (t.box (uartBox u)).slotFreed = false ∧
      (t.box (uartBox u)).wire = [0x7E] ++ escapeUnit ([0xE5] ++ le 1 (8 - (s.box (uartBox u)).inRing.length)
        ++ le 1 (s.box (uartBox u)).outRing.length ++ le 1 (s.statusByte (uartBox u))) ++ [0x7E]) ∧
  (∀ (u : Uart) (s : State) f fs, s.uartUp u = true → (s.box (uartBox u)).outRing = f :: fs →
    ∃ t, exec (.uartFrameSent u) s = .next (settleAll (queueGap (uartBox u) t)) ∧ t.unlinked = s.unlinked ∧
      (t.box (uartBox u)).outRing = fs ∧ (t.box (uartBox u)).kept = some f) ∧
  (∀ (s : State) f fs, s.linkUp = true → s.update.vbus = true → (s.box 4).outRing = f :: fs →
    ∃ t, exec .bulkInTransfer s = .next (settleAll (queueGap 4 t)) ∧ t.unlinked = s.unlinked ∧
      (t.box 4).wire = f.bytes ∧ (t.box 4).outRing = fs ∧ (t.box 4).kept = some f) ∧
  (∀ (b : Box) (s : State) g ss, s.servesBox b = true → (s.box b).lost = some g → (s.box b).session = some ss →
    ss.seqOut < 0xFFFFFFFF → 0 < (s.box b).outFree → ∃ t, exec (.eventGap b) s = .next t ∧ t.unlinked = s.unlinked ∧ (t.box b).lost = none ∧
      (t.box b).outRing = (s.box b).outRing ++ [outFrame (some ss) 2 (ss.seqOut / 65536) flagEvent (w16 ss.seqOut) 0x8001 0 0
        (le 4 g.count ++ le 4 g.first ++ le 4 g.last)])

/-! ## Attaching -/

/-- Attaching, its times and its end (R62 to R67). -/
def Obligations.Attaching : Prop :=
  (∀ (p : HostPort) f r s, Asked (hostBox p) 0x0101 f r s → r.payload.length = 20 → r.handle = 0 →
    field r.payload 0 1 = (taken (hostBox p) f s).roleOf (hostBox p) → (field r.payload 0 1 = 0 ∨ field r.payload 0 1 = 1) →
    field r.payload 1 1 = 0 → (taken (hostBox p) f s).barred (hostBox p) = false →
    exec (.hostAttach (hostBox p)) s = .next (respond r stOk
      (le 1 (field r.payload 0 1) ++ [0] ++ le 1 p.val ++ [0] ++ zeros 16 ++ zeros 16
        ++ le 2 (taken (hostBox p) f s).power.inForce.keepalive ++ le 2 r.before)
      (openSession (hostBox p) (field r.payload 0 1) false [] r.seq
        (dropAttach p (endSession (hostBox p) (taken (hostBox p) f s)))))) ∧
  (∀ (p : HostPort) f r s a, Asked (hostBox p) 0x0102 f r s → r.payload.length = 16 → r.handle = 0 →
    ((taken (hostBox p) f s).box (hostBox p)).attach = some a → s.now ≤ a.deadline → r.payload = a.hostProof →
    (taken (hostBox p) f s).rotunda.supervisor ≠ .reserved p →
    exec (.hostAttachConfirm (hostBox p)) s = .next (respond r stOk []
      (openSession (hostBox p) a.role true a.sessionKey r.seq (taken (hostBox p) f s)))) ∧
  (∀ (p : HostPort) s a, s.serves = true → (s.box (hostBox p)).attach = some a → a.deadline ≤ s.now →
    exec (.attachTimeout p) s = .next (failAttach p s) ∧ ((failAttach p s).box (hostBox p)).attach = none) ∧
  (∀ (p : HostPort) s n, s.serves = true → (s.box (hostBox p)).barUntil = some n → n ≤ s.now →
    ∃ t, exec (.attachBarEnd p) s = .next t ∧ t.unlinked = s.unlinked ∧ t.barred (hostBox p) = false) ∧
  Does .hostDetach 0x0103 (fun r _ => r.payload = [] ∧ r.handle = 0) (fun r s => endSession r.box (respond r stOk [] s)) ∧
  (∀ (p : HostPort) f r s, Asked (hostBox p) 0x0104 f r s → r.payload = [] → r.handle = 0 →
    s.rotunda.rebuilding.contains (0x19 + p.val) = false →
    exec (.hostStatus (hostBox p)) s = .next (respond r stOk ((taken (hostBox p) f s).hostBody p) (taken (hostBox p) f s))) ∧
  (∀ (p : HostPort) s, s.serves = true → (s.box (hostBox p)).session.isSome = true →
    (s.box (hostBox p)).lastRxAt + 1000 * s.power.inForce.keepalive ≤ s.now →
    ∃ t, exec (.keepaliveExpiry p) s = .next t ∧ t = endSession (hostBox p) s)

/-- Three attaches that fail within 10 s bar HOST_ATTACH for 10 s; a barred one answers `ATTACH_FAILED` (R63). -/
def Obligations.FailedAttachesBar : Prop :=
  (∀ (p : HostPort) s t1 t2, (s.box (hostBox p)).failedAttaches = [t1, t2] → s.now < t1 + 10000 → s.now < t2 + 10000 →
    ((failAttach p s).box (hostBox p)).barUntil = some (s.now + 10000)) ∧
  (∀ (p : HostPort) f r s n, Asked (hostBox p) 0x0101 f r s → r.payload.length = 20 → r.handle = 0 →
    field r.payload 0 1 = (taken (hostBox p) f s).roleOf (hostBox p) → modeSuits (field r.payload 0 1) (field r.payload 1 1) = true →
    ((taken (hostBox p) f s).box (hostBox p)).barUntil = some n → s.now < n →
    exec (.hostAttach (hostBox p)) s = .next (respond r 0x0203 []
      (dropAttach p (endSession (hostBox p) (taken (hostBox p) f s)))))

/-- A session that ends takes its stage, its segments and its lost events with it, and its completions are no longer due (R66, R96). -/
def Obligations.SessionEnd : Prop :=
  ∀ b s, (s.box b).session.isSome = true →
    ((endSession b s).box b).session = none ∧ ((endSession b s).box b).stage = none ∧ ((endSession b s).box b).owed = 0 ∧
    ∀ w st pl, w.box = b → w.epoch = (s.box b).epoch → finish w st pl (endSession b s) = endSession b s

/-! ## The device, its options and its time -/

/-- DEVICE_INFO, RESET_CAUSE, OPTION_READ and OPTION_WRITE (R515 to R517, R525). -/
def Obligations.DeviceQueries : Prop :=
  Answers .deviceInfo 0x0110 (fun r _ => r.payload = [] ∧ r.handle = 0) (fun _ s => s.deviceInfo) ∧
  Answers .resetCause 0x0116 (fun r _ => r.payload = [] ∧ r.handle = 0) (fun _ s => s.resetCauseBody) ∧
  Answers .optionRead 0x0117 (fun r _ => r.payload.length = 4 ∧ r.handle = 0 ∧ field r.payload 0 1 ≤ 1)
    (fun r s => s.optionBody (field r.payload 0 1)) ∧
  (∀ b f r s, Asked b 0x0118 f r s → r.handle = 0 → 8 ≤ field r.payload 0 1 → 1 ≤ field r.payload 1 1 →
    field r.payload 0 1 + field r.payload 1 1 ≤ 22 → r.payload.length = 8 + field r.payload 1 1 →
    let old := (taken b f s).power.newest.getD OptionBlock.safe
    let new_ := old.patch (field r.payload 0 1) (r.payload.drop 8)
    new_.ok = true → new_.region = old.region →
    ((old.uryan = new_.uryan ∧ old.mesh = new_.mesh) ∨ (taken b f s).installerProof (field r.payload 4 4) = true) →
    s.power.holdUp = false →
    ∃ t, exec (.optionWrite b) s = .next (finish r.wait stOk (le 4 (w32 (old.seq + 1))) t) ∧
      t.power = (taken b f s).power.writeOption new_ ∧ t.power.inForce = s.power.inForce) ∧
  (∀ (x : Power) o k, x.newest = some k → ((x.writeOption o).option0 = some k ∧ (x.writeOption o).option1 = some o) ∨
    ((x.writeOption o).option1 = some k ∧ (x.writeOption o).option0 = some o)) ∧
  Refuses .optionWrite 0x0118 (fun r _ => r.handle = 0 ∧ r.payload.length = 8 + field r.payload 1 1 ∧
    (field r.payload 0 1 < 8 ∨ field r.payload 1 1 = 0 ∨ 22 < field r.payload 0 1 + field r.payload 1 1)) stParamRange ∧
  Refuses .optionWrite 0x0118 (fun r s => r.handle = 0 ∧ r.payload.length = 8 + field r.payload 1 1 ∧ 8 ≤ field r.payload 0 1 ∧
    1 ≤ field r.payload 1 1 ∧ field r.payload 0 1 + field r.payload 1 1 ≤ 22 ∧
    let old := s.power.newest.getD OptionBlock.safe
    let new_ := old.patch (field r.payload 0 1) (r.payload.drop 8)
    (new_.region ≠ old.region ∨ 3 ∉ new_.roles.toList ∨ new_.ok = false)) stParamRange ∧
  Refuses .optionWrite 0x0118 (fun r s => r.handle = 0 ∧ r.payload.length = 8 + field r.payload 1 1 ∧ 8 ≤ field r.payload 0 1 ∧
    1 ≤ field r.payload 1 1 ∧ field r.payload 0 1 + field r.payload 1 1 ≤ 22 ∧ s.installerProof (field r.payload 4 4) = false ∧
    let old := s.power.newest.getD OptionBlock.safe
    let new_ := old.patch (field r.payload 0 1) (r.payload.drop 8)
    (new_.ok = true ∧ new_.region = old.region ∧ (old.uryan ≠ new_.uryan ∨ old.mesh ≠ new_.mesh))) stLocalConfirmMissing

/-- TIME_GET and TIME_SET (R319 to R323, R331, R332): a step forward moves both times, a slew and a step back leave billing time where
it is, and a step of more than an hour back needs its flag. -/
def Obligations.TimeCommands : Prop :=
  Answers .timeGet 0x0111 (fun r s => r.payload = [] ∧ r.handle = 0 ∧ s.keepUp = true) (fun _ s =>
    le 6 s.civil ++ le 6 s.keep.billing ++ leInt 2 (localOffset s.keep.tariff.settings s.keep.billing)
      ++ le 1 (b1 (decide (s.civil < s.keep.billing)) * 128 + b1 (s.keep.slewLeft != 0) * 64
        + b1 (dstIn s.keep.tariff.settings s.keep.billing) * 32 + b1 s.keep.uncertain * 16)
      ++ [0] ++ le 4 (s.keep.slewLeft / 1000) ++ le 6 s.keep.lastSet) ∧
  (∀ b f r s, Asked b 0x0112 f r s → r.payload.length = 8 → r.handle = 0 → s.keepUp = true → s.keep.writing = none →
    s.time < field r.payload 0 6 → ∃ t, exec (.timeSet b) s = .next t ∧ t.civil = field r.payload 0 6 ∧
      t.keep.billing = max s.keep.billing (field r.payload 0 6) ∧ t.keep.slewLeft = 0 ∧ t.keep.lastSet = field r.payload 0 6) ∧
  (∀ b f r s, Asked b 0x0112 f r s → r.payload.length = 8 → r.handle = 0 → s.keepUp = true → s.keep.writing = none →
    field r.payload 0 6 < s.time → s.time ≤ field r.payload 0 6 + 2000 → ∃ t, exec (.timeSet b) s = .next t ∧ t.civil = s.civil ∧
      t.keep.billing = s.keep.billing ∧ t.keep.slewLeft = (s.civil - field r.payload 0 6) * 1000) ∧
  (∀ b f r s, Asked b 0x0112 f r s → r.payload.length = 8 → r.handle = 0 → s.keepUp = true → s.keep.writing = none →
    field r.payload 0 6 + 2000 < s.time → (s.time ≤ field r.payload 0 6 + 3600000 ∨ field r.payload 6 1 ≠ 0) →
    ∃ t, exec (.timeSet b) s = .next t ∧ t.civil = field r.payload 0 6 ∧ t.keep.billing = s.keep.billing) ∧
  Refuses .timeSet 0x0112 (fun r s => r.payload.length = 8 ∧ r.handle = 0 ∧ s.keepUp = true ∧ s.keep.writing = none ∧
    field r.payload 0 6 + 3600000 < s.time ∧ field r.payload 6 1 = 0) stTimeStepDenied ∧
  (∀ s, s.aon = true → s.keep.slewLeft = 0 →
    exec .slewComplete s = .next (s.withKeep { s.keep with slewLeft := 0, slewPart := 0 })) ∧
  (∀ s, s.aon = true → s.keep.billing ≤ s.civil → exec .holdEnd s = .next (s.withKeep { s.keep with billing := w48 s.civil }))

/-! ## Metering -/

/-- Reads of registers, tones, calibration and snapshots: `keepUp` aside they change nothing, and each answers from one latch (R179,
R180, R192, R203, R204, R333). -/
def Obligations.MeterReads : Prop :=
  Answers .regRead 0x0501 (fun r s => r.payload.length = 4 ∧ r.handle = 0 ∧ field r.payload 0 1 ≤ 28 ∧ field r.payload 1 1 = 0 ∧
    s.keepUp = true) (fun r s => regBytes s.keep.latched (field r.payload 0 1) 0 s.tariffCount) ∧
  Answers .regRead 0x0501 (fun r s => r.payload.length = 4 ∧ r.handle = 0 ∧ field r.payload 0 1 ≤ 28 ∧ field r.payload 1 1 = 1 ∧
    s.keepUp = true) (fun r s => regBytes (s.keep.saved.elim Latched.reset (·.latched)) (field r.payload 0 1) 1 s.tariffCount) ∧
  Answers .regReadSet 0x0502 (fun r s => r.payload.length = 4 ∧ r.handle = 0 ∧ 1 ≤ field r.payload 1 1 ∧ field r.payload 1 1 ≤ 18 ∧
    field r.payload 0 1 + field r.payload 1 1 ≤ 29 ∧ s.keepUp = true)
    (fun r s => le 4 s.keep.latched.seq ++ le 6 s.keep.latched.time ++ le 1 (field r.payload 1 1) ++ [0] ++
      ((List.range (field r.payload 1 1)).map (· + field r.payload 0 1)).flatMap (fun i =>
        let x := s.keep.latched.sets.toList.getD i LatchedSet.zero
        le 1 i ++ [0] ++ le 2 x.status.toNat ++ le 4 (compactOf (mwh x.regs.total.eai)) ++ le 4 (compactOf (mwh x.regs.total.eae))
          ++ powerBytes x.pMw ++ powerBytes x.qMvar ++ le 2 x.sticky.toNat ++ [0, 0])) ∧
  Refuses .regReadSet 0x0502 (fun r _ => r.payload.length = 4 ∧ r.handle = 0 ∧
    (field r.payload 1 1 = 0 ∨ 18 < field r.payload 1 1 ∨ 29 < field r.payload 0 1 + field r.payload 1 1)) stParamRange ∧
  (∀ b f r s (i : Fin 29), Asked b 0x0504 f r s → r.payload.length = 4 → r.handle = 0 → field r.payload 0 1 = i.val →
    field r.payload 1 1 = 0 → s.keepUp = true →
    exec (.snapshotRead b) s = .next (respond r stOk ((taken b f s).runningSnapshot i) (taken b f s))) ∧
  (∀ b f r s (i : Fin 29) n, Asked b 0x0504 f r s → r.payload.length = 4 → r.handle = 0 → field r.payload 0 1 = i.val →
    1 ≤ field r.payload 1 1 → field r.payload 1 1 ≤ 24 → s.keep.snapshots[field r.payload 1 1 - 1]? = some n → s.keepUp = true →
    exec (.snapshotRead b) s = .next (respond r stOk (n.bytes i (field r.payload 1 1)) (taken b f s))) ∧
  Answers .calRead 0x0509 (fun r s => r.payload.length = 4 ∧ r.handle = 0 ∧ 1 ≤ field r.payload 1 1 ∧ field r.payload 1 1 ≤ 22 ∧
    field r.payload 0 1 + field r.payload 1 1 ≤ 160 ∧ s.keepUp = true)
    (fun r s => le 1 (b1 (s.legal.fuse != .intact)) ++ le 1 (b1 s.legal.calen) ++ [0, 0] ++
      ((List.range (field r.payload 1 1)).flatMap (fun i =>
        let c := s.calStored.toList.getD (field r.payload 0 1 + i) (Cal.factory (field r.payload 0 1 + i))
        le 1 (field r.payload 0 1 + i) ++ le 1 (b1 c.written) ++ [0, 0] ++ c.bytes))) ∧
  (∀ b f r s p, Asked b 0x050C f r s → r.payload = [] → (taken b f s).current r.handle = true → portOfHandle r.handle = some p →
    s.keepUp = true → exec (.toneStatus b) s = .next (respond r stOk
      ((portModulators p).flatMap (fun m => (s.dsp.tones[m]).bytes)) (taken b f s)))

/-- Line cycles, paths and line frequency (R154, R156, R157, R159 to R161, R183 to R185, R191): a line cycle ends at an L1 crossing, or
after 160 strobes without a frequency, and brings every register set its shares; a path is taken by its overload and its threshold;
the frequency is that of four periods when detected and none when lost. -/
def Obligations.LineCycles : Prop :=
  (∀ d s x, s.dspUp = true → s.cycleEnd d = some x → ∃ t, exec (.lineCycleEnd d) s = .next t ∧
    t.keep.cycles = sat 65535 (s.keep.cycles + 1) ∧ t.dsp.strobe = x.2 ∧
    (s.dsp.settingsPending = none → let n := strobesSince s.dsp.strobe x.2
      t.dsp.volts = s.presence n (s.cycleSamples n d) ∧ ∀ i : Fin 29, t.dsp.feed[i] =
        (s.dsp.feed[i]).cycle (s.sharesOf n (s.cycleSamples n d) (s.presence n (s.cycleSamples n d)) i))) ∧
  (∀ d s, s.cycleEnd d = none → exec (.lineCycleEnd d) s = .next s) ∧
  (∀ d (s : State), s.dsp.frequency = none → s.cycleEnd d = some (s.dsp.lastCrossing, w32 (s.dsp.strobe + 160))) ∧
  (∀ (c : Fin 72) x xs s, s.dspUp = true → ∃ t, exec (.pathChange c x xs) s = .next t ∧
    t.dsp = (x :: xs).foldl (pathStrobe c) s.dsp ∧ t.keep = s.keep) ∧
  (∀ (c : Fin 72) (d : Dsp) (x : PathStrobe), x.overload = true → (pathStrobe c d x).x16[c] = false ∧
    (pathStrobe c d x).holds[c] = 47) ∧
  (∀ (c : Fin 72) (d : Dsp) (x : PathStrobe), x.overload = false → d.holds[c] ≠ 0 → (pathStrobe c d x).x16[c] = false ∧
    (pathStrobe c d x).holds[c] = d.holds[c] - 1) ∧
  (∀ (c : Fin 72) (d : Dsp) (x : PathStrobe), x.overload = false → d.holds[c] = 0 →
    (pathStrobe c d x).x16[c] = (d.x16[c] || decide (d.window ≤ d.clears[c]))) ∧
  (∀ found f s, s.dspUp = true → s.sourcePhase = some f → s.dsp.frequency = none →
    periodsOk (getRaw s.dsp.settings 0x0309 0) found.periods = true →
    ∃ t, exec (.frequencyDetected found) s = .next t ∧ t.dsp.source = f ∧ t.dsp.frequency = some (frequencyOf found.periods) ∧
      t.keep.closeNow = true ∧ (f = 0 → t.dsp.lastCrossing = found.crossing)) ∧
  (∀ f s, s.dspUp = true → s.dsp.frequency = some f →
    (2 * s.dsp.lastCrossing + 3 * periodNs f ≤ 2 * s.inputNow ∨ s.sourcePhase = none) →
    ∃ t, exec .frequencyLost s = .next t ∧ t.dsp.frequency = none ∧ t.keep.closeNow = false) ∧
  (∀ d s f x, s.dspUp = true → s.dsp.frequency = some f → s.cycleEnd d = some x → s.dsp.settingsPending = none →
    s.dsp.lastCrossing < x.1 → frequencyOk (getRaw s.dsp.settings 0x0309 0) (frequencyOf [x.1 - s.dsp.lastCrossing]) = false →
    ∃ t, exec (.lineCycleEnd d) s = .next t ∧ t.dsp.frequency = none ∧ t.keep.closeNow = false) ∧
  (∀ s, s.dsp.frequency = none → exec .frequencyLost s = .next s)

/-- The reference tone (R163 to R168): a window of 10 s is valid when no sample of it was contaminated, both side bands lie below 5 % and
the amplitude between half and one and a half of the reference; a valid window of a referenced path steps its corrections; three windows
in which the amplitude alone failed lose the tone; no valid window for 24 h obscures it; every 600 s the corrections are stored. -/
def Obligations.ToneTracking : Prop :=
  (∀ (m : Fin 144) samples s, s.dspUp = true → s.dsp.capture = none → (s.dsp.cal[m.val]).toneAmp ≠ 0 →
    (s.dsp.tones[m]).windowAt + 10000 ≤ s.now → let w := measureTone (s.windowStrobe m) samples
    windowValid s.dsp.tones[m] w (s.dsp.cal[m.val]) = true → exec (.toneWindowEnd m samples) s = .next (settleCapture
      (setTone m (((s.dsp.tones[m]).onValid w (s.dsp.cal[m.val]) s.time s.now).nextWindow s.now) s))) ∧
  (∀ (m : Fin 144) samples s, s.dspUp = true → s.dsp.capture = none → (s.dsp.cal[m.val]).toneAmp ≠ 0 →
    (s.dsp.tones[m]).windowAt + 10000 ≤ s.now → let w := measureTone (s.windowStrobe m) samples
    windowValid s.dsp.tones[m] w (s.dsp.cal[m.val]) = false → exec (.toneWindowEnd m samples) s = .next (settleCapture
      (setTone m (((s.dsp.tones[m]).onInvalid w (s.dsp.cal[m.val])).nextWindow s.now) s))) ∧
  (∀ (m : Fin 144) w s, s.now < (s.dsp.tones[m]).windowAt + 10000 → exec (.toneWindowEnd m w) s = .next s) ∧
  (∀ (t : Tone) (w : ToneWindow) (c : Cal), c.toneAmp ≠ 0 → (windowValid t w c = true ↔ t.spoiled = false ∧
    20 * w.side3205 < c.toneAmp ∧ 20 * w.side3215 < c.toneAmp ∧ c.toneAmp ≤ 2 * w.amplitude ∧ 2 * w.amplitude ≤ 3 * c.toneAmp)) ∧
  (∀ (t : Tone) w c time now, t.state ≠ .lost → (t.onValid w c time now).gain = stepTo 20 t.gain (clampTo 5000 (gainTarget w c)) ∧
    (t.onValid w c time now).phase = stepTo 1 t.phase (clampTo 300 (phaseTarget w c))) ∧
  (∀ (t : Tone) w c, t.spoiled = false → sideBandsOk w c = true → t.amplitudeFails = 2 → (t.onInvalid w c).state = .lost) ∧
  (∀ (m : Fin 144) s, s.dspUp = true → (s.dsp.tones[m]).lastValidAt + 86400000 ≤ s.now →
    (s.dsp.tones[m]).state ≠ .notReferenced → ∃ t, exec (.toneObscured m) s = .next t ∧ (t.dsp.tones[m]).obscured = true ∧
      (t.dsp.tones[m]).state = (s.dsp.tones[m]).state) ∧
  (∀ s, s.dspUp = true → s.keepUp = true → s.dsp.tonesStoredAt + 600000 ≤ s.now → ∃ t, exec .toneStateSave s = .next t ∧
    t.dsp.tonesStoredAt = s.now ∧ ∀ m : Fin 144, (t.dsp.tones[m]).storedGain = (s.dsp.tones[m]).gain ∧
      (t.dsp.tones[m]).storedPhase = (s.dsp.tones[m]).phase ∧ (t.dsp.tones[m]).storedAmplitude = (s.dsp.tones[m]).amplitude ∧
      (t.dsp.tones[m]).storedPhasor = (s.dsp.tones[m]).phasor)

/-- A latch (R190, R191, R193): due after N cycles or at the return of frequency, it takes the next sequence number, the billing time and
the channels' words, credits every set with what has flowed, and starts a new period. -/
def Obligations.LatchTakesThePeriod : Prop :=
  ∀ s, s.keepUp = true → s.dspUp = true → (s.keep.latchN ≤ s.keep.cycles ∨ s.keep.closeNow = true) →
    s.keep.writing = none → s.keep.saving = none →
    ∃ t, exec .latch s = .next t ∧ t.keep.latched.seq = w32 (s.keep.latched.seq + 1) ∧ t.keep.latched.time = s.keep.billing ∧
      t.keep.latched.cycles = s.keep.cycles ∧ t.keep.latched.words = s.dsp.words ∧ t.keep.cycles = 0 ∧
      t.dsp.feed = Vector.replicate 29 SetFeed.zero ∧
      ∀ i : Fin 29, (t.keep.latched.sets[i]).regs = (s.keep.latched.sets[i]).regs.credit (s.dsp.feed[i]) s.keep.tariff.rate

/-- The save in progress becomes the last complete save, the one before it the older copy, and what waited for it goes on (R87, R195 to
R197). -/
def Obligations.SavesComplete : Prop :=
  ∀ s v ws, s.keepUp = true → s.keep.saving = some (v, ws) → ∃ t, exec .saveComplete s = .next t ∧ t.keep.saved = some v ∧
    t.keep.savedOlder = s.keep.saved ∧ t.keep.savedSeq = s.keep.savedSeq + 1 ∧ t.keep.saving = none ∧
    (ws = [] → t = s.withKeep ({ s.keep with saving := none }.writeSave v))

/-! ## Billing -/

/-- Closing a billing period, activating a tariff program and the commit of a boundary write (R311, R325, R326, R334, R335). -/
def Obligations.BillingCommands : Prop :=
  (∀ b f r s, Asked b 0x0505 f r s → r.payload.length = 4 → r.handle = 0 → s.keepUp = true → s.keep.writing = none →
    s.keep.closeRequest = false → s.keep.tariff.lastCloseAt = none →
    ∃ t, exec (.billingClose b) s = .next t ∧ t.keep.closeRequest = true ∧ t.keep.waiting = s.keep.waiting ++ [r.wait] ∧
      t.legal.nextIndex = w32 (s.legal.nextIndex + 1) ∧ t.keep.tariff = s.keep.tariff) ∧
  Refuses .billingClose 0x0505 (fun r s => r.payload.length = 4 ∧ r.handle = 0 ∧ s.keepUp = true ∧ s.keep.writing = none ∧
    s.keep.tariff.lastCloseAt = some s.now) stBusy ∧
  (∀ b f r s st prog, Asked b 0x0506 f r s → r.payload.length = 8 → (taken b f s).current r.handle = true →
    ((taken b f s).channelOf r.handle).bind Channel.program? = some (st, prog) → s.keepUp = true → s.keep.writing = none →
    field r.payload 0 1 = 0 → field r.payload 2 6 = 0 → st ≠ .active → (taken b f s).activationFault prog = 0 →
    ∃ t, exec (.tariffActivate b) s = .next t ∧ t.keep.tariff.pending = some ⟨r.handle, 0, 0⟩ ∧
      t.keep.tariff.program = s.keep.tariff.program) ∧
  (∀ s w, s.keepUp = true → s.keep.writing = some w → ∃ t, exec .commitWordWritten s = .next t ∧ t.keep.writing = none ∧
    t.keep.saved = some w.save ∧ t.keep.demand = w.save.demand ∧ t.keep.tariff = w.save.tariff ∧
    t.keep.boundaries = (w.record :: s.keep.boundaries).take 256)

/-! ## Legal metrology -/

/-- Signed readings (R337 to R341, R357, R358): a request joins the queue; the head of the queue is signed with the next counter value. -/
def Obligations.SignedReadings : Prop :=
  (∀ b f r s, Asked b 0x0503 f r s → r.payload.length = 12 → r.handle = 0 → field r.payload 0 1 = 1 → field r.payload 1 1 ≤ 28 →
    field r.payload 2 1 = 0 → s.keepUp = true → s.up .cd7 = true → s.cupola.zeroized = false → s.cupola.rootOk = true →
    s.cupola.rngHealthy = true → s.legal.signing.length < 16 →
    exec (.readSigned b) s = .next ((accept r (taken b f s)).withLegal { s.legal with
      signing := s.legal.signing ++ [⟨1, field r.payload 1 1, 0, 0, slice r.payload 4 6, some r.wait, none⟩] })) ∧
  (∀ j js s c, s.legal.signing = j :: js → js.length ≤ 16 → s.legal.waitingRecords = [] → s.signs = true → s.recordCore j = some c →
    ∃ t, exec .signatureComplete s = .next t ∧ t.legal.signing = js ∧ t.legal.counter = s.legal.counter + 1 ∧
      t.legal.counter ≤ max s.legal.reservedEnd (s.legal.counter + 1024) ∧ t.keep = s.keep) ∧
  (∀ s n t, takeCounter s = (n, t) → n = s.legal.counter ∧ t.legal.counter = n + 1 ∧
    t.legal.reservedEnd = (if s.legal.reservedEnd ≤ n then n + 1024 else s.legal.reservedEnd))

/-- The legal log and the certificates are read out (R359, R360), and an entry takes the next index (R353). -/
def Obligations.LegalReads : Prop :=
  Answers .legalLogRead 0x0507 (fun r s => r.payload.length = 8 ∧ r.handle = 0 ∧ 1 ≤ field r.payload 4 1 ∧ field r.payload 4 1 ≤ 14 ∧
    s.keepUp = true) (fun r s =>
      let es := (s.legal.log.filter (fun e => decide (field r.payload 0 4 ≤ e.index))).take (field r.payload 4 1)
      le 1 es.length ++ zeros 3 ++ le 4 (s.legal.nextIndex - 1) ++ le 4 (s.legal.log.head?.elim 0 (·.index))
        ++ es.flatMap LogEntry.bytes) ∧
  Answers .certRead 0x0508 (fun r s => r.payload.length = 4 ∧ r.handle = 0 ∧ field r.payload 0 1 ≤ 2 ∧ s.cupola.zeroized = false)
    (fun r s =>
      let der := s.legal.certs.getD (field r.payload 0 1) []
      let data := slice der (field r.payload 2 2) 448
      le 2 der.length ++ le 2 (field r.payload 2 2) ++ le 2 data.length ++ [0, 0] ++ data) ∧
  (∀ time type origin u rtc data s, ∃ e, (logAppend time type origin u rtc data s).legal.log = ringPush 1024 s.legal.log e ∧
    e = ⟨s.legal.nextIndex, time, type, origin, u, rtc, data⟩ ∧
    (logAppend time type origin u rtc data s).legal.nextIndex = w32 (s.legal.nextIndex + 1))

/-- The calibration seal, CALEN and calibration writes (R177, R178, R345 to R348). -/
def Obligations.CalibrationAndSeal : Prop :=
  (∀ b f r s, Asked b 0x050A f r s → r.handle = 0 → field r.payload 0 1 = 1 → 1 ≤ field r.payload 1 1 → field r.payload 1 1 ≤ 32 →
    r.payload.length = 4 + 12 * field r.payload 1 1 → s.keepUp = true → s.legal.fuse = .intact → s.legal.calen = true →
    ((List.range (field r.payload 1 1)).map (calEntry r.payload)).all (calEntryOk 1) = true → s.dsp.capture = none → s.legal.sealing = none →
    exec (.calWrite b) s = .next ((accept r (taken b f s)).withDsp { s.dsp with
      capture := some ⟨((List.range (field r.payload 1 1)).map (calEntry r.payload)).map (fun e => (e.1, [])), b, r.seq, r.epoch,
        s.now + 60000⟩ })) ∧
  Refuses .calWrite 0x050A (fun r s => r.payload.length = 4 + 12 * field r.payload 1 1 ∧ r.handle = 0 ∧ s.keepUp = true ∧
    s.legal.fuse = .blown) stSealed ∧
  Refuses .calWrite 0x050A (fun r s => r.payload.length = 4 + 12 * field r.payload 1 1 ∧ r.handle = 0 ∧ s.keepUp = true ∧
    s.legal.fuse = .intact ∧ s.legal.calen = false) stCalenLow ∧
  Refuses .calWrite 0x050A (fun r s => r.payload.length = 4 + 12 * field r.payload 1 1 ∧ r.handle = 0 ∧ s.keepUp = true ∧
    s.legal.fuse = .intact ∧ s.legal.calen = true ∧ field r.payload 0 1 = 1 ∧ 1 ≤ field r.payload 1 1 ∧ field r.payload 1 1 ≤ 32 ∧
    ((List.range (field r.payload 1 1)).map (calEntry r.payload)).all (calEntryOk 1) = true ∧ s.legal.sealing.isSome = true) stBusy ∧
  (∀ s c, s.keepUp = true → s.dsp.capture = some c → c.deadline ≤ s.now →
    exec .calCaptureTimeout s = .next (finish c.waiting stRefusedState [] (s.withDsp { s.dsp with capture := none }))) ∧
  (∀ b f r s, Asked b 0x050B f r s → r.payload.length = 4 → r.handle = 0 → s.keepUp = true → s.legal.fuse = .intact →
    s.legal.calen = true → s.dsp.capture = none → s.dsp.calPending = [] → s.legal.sealing = none → field r.payload 0 4 = s.calCheck →
    exec (.calSeal b) s = .next ((accept r (taken b f s)).withLegal { s.legal with sealing := some (1, s.calCheck, r.wait) })) ∧
  (∀ s c w, s.keepUp = true → s.legal.sealing = some (1, c, w) → s.legal.fuse = .intact →
    exec (.sealPulseEnd .intact) s = .next (s.withLegal { s.legal with sealing := some (2, c, w) })) ∧
  (∀ s n c w, s.keepUp = true → s.legal.sealing = some (n, c, w) →
    ∃ t, exec (.sealPulseEnd .blown) s = .next t ∧ t.legal.fuse = .blown ∧ t.legal.sealing = none ∧
      t.legal.nextIndex = w32 (s.legal.nextIndex + 1)) ∧
  (∀ l s, s.keepUp = true → s.legal.calen ≠ l → s.dsp.capture = none →
    ∃ t, exec (.calenChange l) s = .next t ∧ t.legal.calen = l ∧ t.legal.nextIndex = w32 (s.legal.nextIndex + 1) ∧ t.dsp = s.dsp)

/-- Tamper inputs (R349 to R351): a change is stamped with its first sample, 125 ms before, stored by the always-on domain, and moved to
the legal log by the Keep. -/
def Obligations.TamperInputs : Prop :=
  (∀ o s, s.aon = true → s.legal.coverOpen ≠ o → s.legal.aonBuffer.length < 64 →
    ∃ t, exec (.tamperInputChange .cover o) s = .next t ∧ t.legal.coverOpen = o ∧ t.legal.terminalOpen = s.legal.terminalOpen ∧
      t.legal.aonBuffer = s.legal.aonBuffer ++ [⟨w48 (s.civil - 125), if o then 1 else 2, s.legal.aonSeq, 0⟩]) ∧
  (∀ o s, s.aon = true → s.legal.terminalOpen ≠ o → s.legal.aonBuffer.length < 64 →
    ∃ t, exec (.tamperInputChange .terminal o) s = .next t ∧ t.legal.terminalOpen = o ∧ t.legal.coverOpen = s.legal.coverOpen ∧
      t.legal.aonBuffer = s.legal.aonBuffer ++ [⟨w48 (s.civil - 125), if o then 3 else 4, s.legal.aonSeq, 0⟩]) ∧
  (∀ o s, s.aon = true → s.legal.coverOpen ≠ o → 64 ≤ s.legal.aonBuffer.length →
    ∃ t, exec (.tamperInputChange .cover o) s = .next t ∧ t.legal.aonBuffer = s.legal.aonBuffer ∧
      t.legal.aonLost = sat 255 (s.legal.aonLost + 1)) ∧
  (∀ e s, s.keepUp = true → s.legal.aonBuffer = [e] → s.legal.aonLost = 0 → (∀ x ∈ s.legal.log, x.aonSeq ≠ some e.seq) →
    ∃ t, exec .tamperBufferMove s = .next t ∧ t.legal.aonBuffer = [] ∧
      t.legal.log = ringPush 1024 s.legal.log ⟨s.legal.nextIndex, e.time, e.type, 5, s.keep.uncertain, true, e.data⟩) ∧
  (∀ e x s, s.keepUp = true → s.legal.aonBuffer = [e] → s.legal.aonLost = 0 → x ∈ s.legal.log → x.aonSeq = some e.seq →
    ∃ t, exec .tamperBufferMove s = .next t ∧ t.legal.aonBuffer = [] ∧ t.legal.log = s.legal.log)

/-! ## Outlet ports -/

/-- What a lane takes from an evaluation period and from its three detectors (R107 to R115, R120, R132): the plateaus of its windows, their class,
the filtered feedback and the residual readings; the lane then takes the drive it received before this boundary, and the inputs of the
state table are evaluated in their order. What a transition sets (R131, R133): state, number, time and the pilot drive of the next
boundary, and nothing in another lane or in Steeple. The refusal of a cable from SUSPENDED is the model's reading (log 189). -/
def Obligations.LaneEvaluation : Prop :=
  (∀ p x s, s.turretUp = true → ∃ t, exec (.evaluationPeriod p x) s =
      .next (refreshLane p (if (t.lane p).confirms then t else evaluateInputs p t)) ∧
    let pwm := (s.lane p).drive == .pwm
    (t.lane p).highMv = (plateau x.vdda (highWindow pwm (s.cfg 0x0205 p.val) (s.lane p).duty x.cps)).getD (s.lane p).highMv ∧
    (t.lane p).lowMv = plateau x.vdda (lowWindow pwm (s.cfg 0x0205 p.val) (s.lane p).duty x.cps) ∧
    (t.lane p).lastClass = some (classify (t.lane p).highMv (t.lane p).lowMv) ∧
    (t.lane p).ctf = (x.ctf.foldl (Lane.filterCtf s.now) (s.lane p)).ctf ∧ (t.lane p).pbf = x.pbf ∧ (t.lane p).rcsRms = x.rcsRms ∧
    (t.lane p).ppOhm = proximityOhm x.pps x.vdda ∧
    (t.lane p).classRun = (if (s.lane p).lastClass = (t.lane p).lastClass then sat 255 ((s.lane p).classRun + 1) else 1) ∧
    ((s.lane p).nextDrive ≠ .pwm → (t.lane p).drive = (s.lane p).nextDrive ∧ (t.lane p).duty = 0) ∧
    t.steeple.aliveAt = s.now ∧
    t.steeple.aliveCount = (if s.steeple.aliveAt = s.now then s.steeple.aliveCount else w32 (s.steeple.aliveCount + 1)) ∧
    (∀ q, q ≠ p → t.lane q = s.lane q)) ∧
  (∀ p s, s.turretUp = true → 3 ≤ (s.lane p).classRun → (s.lane p).lastClass ≠ (s.lane p).confirmed →
    ∃ t, exec (.pilotConfirmed p) s = .next (refreshLane p (evaluateInputs p t)) ∧
      (t.lane p).confirmed = (s.lane p).lastClass ∧ (t.lane p).bandChanged = true ∧ (∀ q, q ≠ p → t.lane q = s.lane q)) ∧
  (∀ p s, s.turretUp = true → (s.lane p).portMode ≠ 1 → 50 ≤ (s.lane p).ppRun → (s.lane p).ppBand ≠ (s.lane p).cable →
    s.portSession p = none → ∃ t, exec (.proximityCodeAccepted p) s =
        .next (refreshLane p (evaluateInputs p (if (cableRating (s.lane p).ppBand).isSome then
          post (some p) (.cable (s.lane p).ppBand (s.lane p).ppOhm) t else t))) ∧
      (t.lane p).cable = (s.lane p).ppBand ∧ (∀ q, q ≠ p → t.lane q = s.lane q)) ∧
  (∀ p s v, s.turretUp = true → s.cableOk p = false → (s.lane p).vehicleAt = some v → v + 200 ≤ s.now →
    (s.lane p).state = .connected ∨
      (s.lane p).state = .suspended ∧ (∃ x, s.portSession p = some x ∧ x.2.cable = 0) →
    exec (.cableRefused p) s = .next (refreshLane p (transit p 3 .cableRefused (endPortSession p 7 s)))) ∧
  (∀ p n st s, ((transit p n st s).lane p).state = st ∧ ((transit p n st s).lane p).transition = n ∧
    ((transit p n st s).lane p).stateTime = s.time ∧ ((transit p n st s).lane p).nextDrive = st.drive ∧
    ((transit p n st s).lane p).drive = (if st = .lockout then .low else (s.lane p).drive) ∧
    (transit p n st s).steeple = s.steeple ∧ (∀ q, q ≠ p → (transit p n st s).lane q = s.lane q))

/-- Every band of the pilot has the limits of its table, without PWM and under PWM with its low plateau; and the proximity codes have the
limits and the ratings of theirs, for Rc = 2000 Ω × V / (VDDA − V) (R111, R113). -/
def Obligations.PilotAndProximityBands : Prop :=
  (∀ v, classify v none = .a ↔ 11000 ≤ v ∧ v ≤ 13000) ∧ (∀ v, classify v none = .b ↔ 8000 ≤ v ∧ v ≤ 10000) ∧
  (∀ v, classify v none = .c ↔ 5000 ≤ v ∧ v ≤ 7000) ∧ (∀ v, classify v none = .d ↔ 2000 ≤ v ∧ v ≤ 4000) ∧
  (∀ v, classify v none = .e ↔ -1000 ≤ v ∧ v ≤ 1000) ∧ (∀ v, classify v none = .f ↔ -13000 ≤ v ∧ v ≤ -11000) ∧
  (∀ v, classify v none = .out ↔ ¬ (11000 ≤ v ∧ v ≤ 13000) ∧ ¬ (8000 ≤ v ∧ v ≤ 10000) ∧ ¬ (5000 ≤ v ∧ v ≤ 7000) ∧
    ¬ (2000 ≤ v ∧ v ≤ 4000) ∧ ¬ (-1000 ≤ v ∧ v ≤ 1000) ∧ ¬ (-13000 ≤ v ∧ v ≤ -11000)) ∧
  (∀ v lo, -13000 ≤ lo → lo ≤ -11000 → classify v (some lo) = classify v none) ∧
  (∀ v lo, classify v none ∈ [.b, .c, .d] → -11000 < lo → classify v (some lo) = .diode) ∧
  (∀ v lo, classify v none = .a → -11000 < lo → classify v (some lo) = .out) ∧
  (∀ v lo, classify v none ∈ [.a, .b, .c, .d] → lo < -13000 → classify v (some lo) = .out) ∧
  (∀ v lo, classify v none ∈ [.e, .f, .out] → classify v (some lo) = classify v none) ∧
  (∀ v vdda, proximityCode v vdda = 1 ↔ v < vdda ∧ 1100 * (vdda - v) ≤ 2000 * v ∧ 2000 * v ≤ 2460 * (vdda - v)) ∧
  (∀ v vdda, proximityCode v vdda = 2 ↔ v < vdda ∧ 400 * (vdda - v) ≤ 2000 * v ∧ 2000 * v ≤ 936 * (vdda - v)) ∧
  (∀ v vdda, proximityCode v vdda = 3 ↔ v < vdda ∧ 164 * (vdda - v) ≤ 2000 * v ∧ 2000 * v ≤ 308 * (vdda - v)) ∧
  (∀ v vdda, proximityCode v vdda = 4 ↔ v < vdda ∧ 75 * (vdda - v) ≤ 2000 * v ∧ 2000 * v ≤ 140 * (vdda - v)) ∧
  (∀ v vdda, proximityCode v vdda = 5 ↔ 4000 * (vdda - v) < 2000 * v) ∧
  (∀ v vdda, proximityCode v vdda ≤ 6 ∧ proximityCode v vdda ≠ 0) ∧
  (cableRating 1 = some 13000 ∧ cableRating 2 = some 20000 ∧ cableRating 3 = some 32000 ∧ cableRating 4 = some 63000 ∧
    cableRating 5 = none ∧ cableRating 6 = none)

/-- Closing (R124, R125) from its settled contactor to the outlet voltage, with the step that a failure names. -/
def Obligations.ClosingSteps : Prop :=
  (∀ p s a st, s.turretUp = true → (s.lane p).seq = .closing 1 st a → st + 30 ≤ s.now → (s.lane p).ovs = false →
    (s.lane p).shedActive = false → ∃ t, exec (.closingContactorSettled p true true) s = .next t ∧
      (t.lane p).seq = .closing 3 st s.now ∧ (t.lane p).ctf = true ∧ (∀ q, q ≠ p → t.lane q = s.lane q)) ∧
  (∀ p s a st c u, s.turretUp = true → (s.lane p).seq = .closing 1 st a → st + 30 ≤ s.now → (c && u) = false →
    exec (.closingContactorSettled p c u) s =
      .next (failSequence p 0 3 st 0x0401 (setCtd p false (s.modLane p (fun l => l.seeCtf c))))) ∧
  (∀ p s a st, s.turretUp = true → s.permit p = true → (s.lane p).seq = .closing 3 st a →
    ∃ t, exec (.closingPreBreakStart p) s = .next t ∧ (t.lane p).pbd = true ∧ (t.lane p).seq = .closing 4 st s.now ∧
      (∀ q, q ≠ p → t.lane q = s.lane q)) ∧
  (∀ p s a st, s.turretUp = true → (s.lane p).seq = .closing 4 st a →
    ∃ t, exec (.closingPbfCheck p true) s = .next t ∧ (t.lane p).seq = .closing 5 st a ∧ (t.lane p).closeStep5Ok = true) ∧
  (∀ p s a st, s.turretUp = true → (s.lane p).seq = .closing 4 st a →
    exec (.closingPbfCheck p false) s =
      .next (failSequence p 0 5 st 0x0402 (s.modLane p (fun l => { l with pbf := false, closeStep5Ok := false })))) ∧
  (∀ p s a st, s.turretUp = true → (s.lane p).seq = .closing 5 st a → exec (.ovsEdge p) s =
    .next (energise p st (s.modLane p (fun l => { l with ovs := true, ovsAt := s.now, quietSince := none })))) ∧
  (∀ p s, s.turretUp = true → (s.lane p).seq = .none →
    ∃ t, exec (.ovsEdge p) s = .next t ∧ (t.lane p).ovs = true ∧ (t.lane p).ovsAt = s.now) ∧
  (∀ p s, s.turretUp = true → (s.lane p).ovs = true → (s.lane p).ovsAt + 25 ≤ s.now →
    exec (.ovsAbsent p) s = .next (s.modLane p (fun l => { l with ovs := false }))) ∧
  (∀ p s a st, s.turretUp = true → (s.lane p).seq = .closing 5 st a → a + 25 ≤ s.now → (s.lane p).ovs = false →
    exec (.ovsPresenceTimeout p) s = .next (failSequence p 0 6 st 0x0401 s))

/-- Opening (R126 to R129): the pre-break switch at current zero (R123), its feedback, the contactor's release and feedback, the weld
probe of 20 ms (R239) and its check 5 ms later; the checks after a fault opening (R128); the residual test's four checks (R130). -/
def Obligations.OpeningSteps : Prop :=
  (∀ p s u st a tg, s.turretUp = true → (s.lane p).seq = .opening u 1 st a tg →
    (s.timedNow p = true ∨ s.currentZeroUs p st < (((s.now + 1) * 1000 : Nat) : Int)) →
    ∃ t, exec (.openingCurrentZero p) s = .next t ∧ (t.lane p).pbd = false ∧ (t.lane p).seq = .opening u 2 st s.now tg) ∧
  (∀ p s u st a tg, (s.lane p).seq = .opening u 1 st a tg → s.timedNow p = false → (((s.now + 1) * 1000 : Nat) : Int) ≤ s.currentZeroUs p st →
    exec (.openingCurrentZero p) s = .next s) ∧
  (∀ p s u st a tg, s.turretUp = true → (s.lane p).seq = .opening u 2 st a tg →
    ∃ t, exec (.openingPbfCheck p false) s = .next t ∧ (t.lane p).seq = .opening u 3 st a tg ∧ (t.lane p).openStep3Ok = true) ∧
  (∀ p s u st a tg, s.turretUp = true → (s.lane p).seq = .opening u 2 st a tg → exec (.openingPbfCheck p true) s =
    .next (failSequence p (if u then 2 else 1) 3 st 0x0404 (s.modLane p (fun l => { l with pbf := true, openStep3Ok := false })))) ∧
  (∀ p s u st a tg, s.turretUp = true → (s.lane p).seq = .opening u 3 st a tg → s.outletStale p = false →
    s.currentGone p a = true → (s.lane p).ovs = false →
    ∃ t, exec (.openingContactorRelease p) s = .next t ∧ (t.lane p).ctd = false ∧ (t.lane p).blind = false ∧
      (t.lane p).seq = .opening u 5 st s.now tg) ∧
  (∀ p s u st a tg, s.turretUp = true → (s.lane p).seq = .opening u 3 st a tg → s.outletStale p = true → a + 40 ≤ s.now →
    (s.lane p).ovs = false → (s.lane p).pbf = false →
    ∃ t, exec (.openingContactorRelease p) s = .next t ∧ (t.lane p).ctd = false ∧ (t.lane p).blind = true) ∧
  (∀ p s u st a tg, s.turretUp = true → (s.lane p).seq = .opening u 5 st a tg →
    ∃ t, exec (.openingCtfCheck p false) s = .next t ∧ (t.lane p).seq = .opening u 6 st s.now tg ∧ (t.lane p).ctf = false) ∧
  (∀ p s u st a tg, s.turretUp = true → (s.lane p).seq = .opening u 5 st a tg → a + 50 ≤ s.now →
    exec (.openingCtfCheck p true) s =
      .next (failSequence p (if u then 2 else 1) 6 st 0x0401 (s.modLane p (fun l => l.seeCtf true)))) ∧
  (∀ p s u st a tg, s.turretUp = true → s.steepleUp = true → (s.lane p).seq = .opening u 6 st a tg → (s.lane p).ctd = false →
    (s.lane p).ctf = false → s.permit p = true →
    ∃ t, exec (.weldProbe p) s = .next t ∧ (t.lane p).pbd = true ∧ (t.lane p).seq = .opening u 7 st s.now tg ∧
      (t.lane p).weldProbes = w32 ((s.lane p).weldProbes + 1) ∧ t.steeple.probes = s.steeple.probes.set p true) ∧
  (∀ p s u st a tg, s.steepleUp = true → (s.lane p).seq = .opening u 7 st a tg → a + 20 ≤ s.now →
    ∃ t, exec (.weldProbeEnd p true) s = .next t ∧ (t.lane p).pbd = false ∧ (t.lane p).seq = .opening u 8 st a tg ∧
      t.steeple.probes = s.steeple.probes.set p false) ∧
  (∀ p s u st a tg, s.steepleUp = true → (s.lane p).seq = .opening u 7 st a tg → a + 20 ≤ s.now →
    exec (.weldProbeEnd p false) s = .next (failSequence p (if u then 2 else 1) 7 st 0x0402 (endWeldProbe p s))) ∧
  (∀ p s u st a tg, s.turretUp = true → s.steepleUp = true → (s.lane p).seq = .opening u 8 st a tg → a + 25 ≤ s.now →
    (s.lane p).ovs = false → ∀ x, exec (.weldProbeEnd p x) s =
      .next (finishOpening p u st tg (s.modLane p (fun l => { l with openStep3Ok := !l.pbf })))) ∧
  (∀ p s u st a tg, s.turretUp = true → s.steepleUp = true → (s.lane p).seq = .opening u 8 st a tg → a + 25 ≤ s.now →
    (s.lane p).ovs = true → a ≤ (s.lane p).ovsAt → ∀ x, exec (.weldProbeEnd p x) s =
      .next (failSequence p (if u then 2 else 1) 7 st 0x0403 (s.modLane p (fun l => { l with openStep3Ok := !l.pbf })))) ∧
  (∀ p s a tg, s.turretUp = true → (s.lane p).seq = .waitBandB a tg → a + 3000 ≤ s.now →
    ∃ t, exec (.allowanceOpeningTimeout p) s = .next t ∧
      (t.lane p).seq = .opening false (if (s.lane p).pbd then 1 else 3) s.now s.now tg) ∧
  (∀ p (r : ResidualReading) s, s.steepleUp = true → (s.lane p).testStep = 1 → (s.lane p).testStart + 20 ≤ s.now → r.rms < 30 →
    ∃ t, exec (.residualTestStep p r) s = .next t ∧ (t.lane p).testStep = 2 ∧ (t.lane p).rct = .dc55) ∧
  (∀ p (r : ResidualReading) s, s.steepleUp = true → (s.lane p).testStep = 2 → (s.lane p).testStart + 150 ≤ s.now →
    r.dcFlag = true → 80 ≤ r.dc → r.dc ≤ 120 →
    ∃ t, exec (.residualTestStep p r) s = .next t ∧ (t.lane p).testStep = 3 ∧ (t.lane p).rct = .sine s.testFrequency) ∧
  (∀ p (r : ResidualReading) s, s.steepleUp = true → (s.lane p).testStep = 3 → (s.lane p).testStart + 180 ≤ s.now →
    r.acFlag = true → 320 ≤ r.ac → r.ac ≤ 480 →
    ∃ t, exec (.residualTestStep p r) s = .next t ∧ (t.lane p).testStep = 4 ∧ (t.lane p).rct = .static) ∧
  (∀ p (r : ResidualReading) s, s.steepleUp = true → (s.lane p).testStep = 4 → (s.lane p).testStart + 200 ≤ s.now → r.rms < 30 →
    exec (.residualTestStep p r) s = .next (endTest p 0 [] s)) ∧
  (∀ p s st own, s.steepleUp = true → (s.lane p).seq = .faultOpening st own none → (s.lane p).state ≠ .disabled →
    st + 50 ≤ s.now → s.now < st + 100 →
    exec (.faultOpeningChecks p true) s = .next (decideFault 0x0403 (some p) [1] true
      (s.modLane p (fun l => { l.seeCtf true with seq := .faultOpening st own (some false) })))) ∧
  (∀ p s st own ok, s.steepleUp = true → (s.lane p).seq = .faultOpening st own (some ok) → st + 100 ≤ s.now →
    (s.lane p).ovs = false → ∀ x, exec (.faultOpeningChecks p x) s = .next (faultOutcome p own (if ok then 0 else 1) st
      (s.modLane p (fun l => { l.seeCtf x with seq := .faultOpening st own (some ok) }))))

/-- The port commands (R142), and the queries of ports and sessions (R146): PORT_DIAG's layout is that of its table, the other two show the
channel's state and body. -/
def Obligations.PortCommands : Prop :=
  (∀ b f r s p, Asked b 0x0401 f r s → r.payload.length = 4 → r.handle ≠ 0 → (taken b f s).current r.handle = true →
    portOfHandle r.handle = some p → s.rotunda.silent = false → s.confirmed = true → s.steeple.hub.active = false →
    (s.portLock p).active = false → (s.lane p).enabled = false →
    ∃ t, exec (.portEnable b) s = .next t ∧ (t.lane p).enabled = true ∧ (t.lane p).state = (s.lane p).state ∧
      t.rotunda.waiting = s.rotunda.waiting ++ [r.wait]) ∧
  (∀ b f r s p, Asked b 0x0401 f r s → r.payload.length = 4 → r.handle ≠ 0 → (taken b f s).current r.handle = true →
    portOfHandle r.handle = some p → s.rotunda.silent = false → s.confirmed = false →
    exec (.portEnable b) s = .next (respond r 0x0704 [] (taken b f s))) ∧
  (∀ b f r s p, Asked b 0x0402 f r s → r.payload.length = 4 → r.handle ≠ 0 → (taken b f s).current r.handle = true →
    portOfHandle r.handle = some p → field r.payload 0 1 ≤ 1 → s.rotunda.silent = false → (s.lane p).state ≠ .disabled →
    (s.lane p).state ≠ .lockout →
    ∃ t, exec (.portDisable b) s = .next t ∧ (t.lane p).enabled = false ∧
      (t.lane p).disableRequest = some (max (field r.payload 0 1) ((s.lane p).disableRequest.getD 0))) ∧
  (∀ b f r s p, Asked b 0x0410 f r s → r.payload = [] → r.handle ≠ 0 → (taken b f s).current r.handle = true →
    portOfHandle r.handle = some p → p.val ∉ s.rotunda.rebuilding → exec (.portStatus b) s = .next (respond r stOk
      (le 1 (if s.rotunda.silent then 0xFF else (s.lane p).state.code) ++ (taken b f s).portBody p) (taken b f s))) ∧
  (∀ b f r s p, Asked b 0x0412 f r s → r.payload = [] → r.handle ≠ 0 → (taken b f s).current r.handle = true →
    portOfHandle r.handle = some p → exec (.portDiag b) s = .next (respond r stOk
      (let l := s.lane p
       leInt 2 l.highMv ++ leInt 2 (l.lowMv.getD (-32768)) ++ le 1 l.settleUsed ++ le 1 l.window ++ le 2 l.ppOhm
        ++ le 1 (b1 l.ctf * 128 + b1 l.pbf * 64 + b1 l.ovs * 32) ++ le 1 l.testResult ++ leInt 2 l.rcsDc ++ le 2 l.testDc
        ++ le 2 l.testAc ++ le 2 l.closeDuration ++ le 2 l.openDuration ++ le 2 l.rcsAc ++ le 2 l.rcsRms) (taken b f s))) ∧
  (∀ b f r s c x, Asked b 0x0411 f r s → r.payload = [] → r.handle ≠ 0 → (taken b f s).current r.handle = true →
    (taken b f s).channelOf r.handle = some c → c.body = .session x → c.slot ∉ s.rotunda.rebuilding →
    exec (.sessionStatus b) s = .next (respond r stOk
      (le 1 x.state.code ++ ((taken b f s).sessionNow c x).bytes) (taken b f s)))

/-- The session commands and the ends of sessions (R79, R136, R143 to R147); what SESSION_AUTHORISE does to a RESERVED session is the
model's choice (log entry 175). -/
def Obligations.SessionCommands : Prop :=
  (∀ b f r s p, Asked b 0x0403 f r s → r.payload.length = 24 → r.handle ≠ 0 → (taken b f s).current r.handle = true →
    portOfHandle r.handle = some p → 1 ≤ field r.payload 0 2 → field r.payload 0 2 ≤ 900 → field r.payload 2 1 ≤ 1 →
    capOk (field r.payload 4 4) = true → s.rotunda.silent = false → (s.lane p).state = .idle →
    let body : SessionBody := { newSession p (taken b f s) with
      state := .reserved, cable := 0, plugTime := 0, capMa := field r.payload 4 4, holdS := field r.payload 0 2
      identity := slice r.payload 8 16, preAuthorised := field r.payload 2 1 == 1 }
    exec (.sessionOpen b) s = .next (finish r.wait stOk (le 4 ((replaceSession p body (accept r (taken b f s))).lane p).session)
      (postBegun p (replaceSession p body (accept r (taken b f s)))))) ∧
  (∀ b f r s c x, Asked b 0x0404 f r s → r.payload.length = 24 → r.handle ≠ 0 → (taken b f s).current r.handle = true →
    (taken b f s).channelOf r.handle = some c → c.body = .session x → field r.payload 0 1 = 0 → capOk (field r.payload 4 4) = true →
    s.rotunda.silent = false → x.state = .opened →
    exec (.sessionAuthorise b) s = .next (finish r.wait stOk (le 4 c.handle)
      (authoriseSession x.port 1 (field r.payload 4 4) (slice r.payload 8 16) (accept r (taken b f s))))) ∧
  (∀ b f r s c x, Asked b 0x0404 f r s → r.payload.length = 24 → r.handle ≠ 0 → (taken b f s).current r.handle = true →
    (taken b f s).channelOf r.handle = some c → c.body = .session x → field r.payload 0 1 = 0 → capOk (field r.payload 4 4) = true →
    s.rotunda.silent = false → x.state = .reserved →
    exec (.sessionAuthorise b) s = .next (finish r.wait stOk (le 4 c.handle) (setSession c
      { x with preAuthorised := true, capMa := field r.payload 4 4, identity := slice r.payload 8 16 } (accept r (taken b f s))))) ∧
  (∀ b f r s c x, Asked b 0x0405 f r s → r.payload.length = 4 → r.handle ≠ 0 → (taken b f s).current r.handle = true →
    (taken b f s).channelOf r.handle = some c → c.body = .session x → s.rotunda.silent = false → x.state.live = true →
    x.state ≠ .reserved →
    ∃ t, exec (.sessionStop b) s = .next t ∧ (t.lane x.port).stopRequest = true ∧ (t.lane x.port).stopReason = 3 ∧
      t.legal.nextIndex = w32 (s.legal.nextIndex + 1) ∧ t.rotunda.waiting = s.rotunda.waiting ++ [r.wait]) ∧
  (∀ p s c x, s.serves = true → s.portSession p = some (c, x) → x.state = .reserved → x.openedAt + 1000 * x.holdS ≤ s.now →
    exec (.reservationExpired p) s = .next (endPortSession p 6 s)) ∧
  (∀ p s c x, s.serves = true → s.rotunda.ending = [] → s.portSession p = some (c, x) → x.endPending = true →
    x.endEai.isSome = true → x.startEai.isSome = true → x.wasAuthorised = false →
    exec (.sessionEnded p) s = .next (settleStops c.handle (sessionEndPayload c.handle x)
      (raise 0x8043 (some p) (sessionEndPayload c.handle x) (setSession c { x with endPending := false } s))))

/-! ## Safety -/

/-- Steeple's detectors (R19, R112, R120, R121, R234 to R237, R244 to R246, R248, R250): each decides the fault code its rule gives, with the
detail its record entry carries; while Steeple does not run nothing is decided. -/
def Obligations.DetectorsDecide : Prop :=
  (∀ s, s.steepleUp = true → exec .lockstepMismatch s = .next (decideFault 0x0801 none [] false s)) ∧
  (∀ s, s.steepleUp = true → s.steeple.aliveAt + 5 ≤ s.now → exec .turretAliveTimeout s = .next (decideFault 0x0806 none [] false s)) ∧
  (∀ x mv s, s.steepleUp = true → (supplyWindow x).2 < mv → exec (.supplyExcursion x mv) s =
    .next (decideFault 0x0804 none (le 1 (supplyCode x) ++ le 2 mv) false (noteSupply x true (decide (mv < 3100)) s))) ∧
  (∀ mv s, s.steepleUp = true → mv < 3000 → ∃ t, exec (.supplyExcursion .vddio mv) s = .next t ∧ t.steeple.supplyStop = true ∧
    (.vddio ∉ s.steeple.suppliesOut → ∃ e ∈ t.steeple.record, e.kind = 11 ∧ e.index = s.steeple.nextIndex)) ∧
  (∀ p v s, s.steepleUp = true → (s.lane p).state ≠ .disabled → 1500 < v.natAbs → exec (.residualCurrentDetected p .high v) s =
    .next (decideFault 0x0103 (some p) (leInt 4 v ++ [3]) false s)) ∧
  (∀ p v s, s.steepleUp = true → (s.lane p).state ≠ .disabled → 30 < v.natAbs → (s.lane p).testStep = 0 →
    exec (.residualCurrentDetected p .dc v) s = .next (decideFault 0x0101 (some p) (leInt 4 v ++ [1]) false s)) ∧
  (∀ p v s, s.steepleUp = true → (s.lane p).state ≠ .disabled → 150 < v.natAbs → (s.lane p).testStep = 0 →
    exec (.residualCurrentDetected p .ac v) s = .next (decideFault 0x0102 (some p) (leInt 4 v ++ [2]) false s)) ∧
  (∀ p v s, s.steepleUp = true → (s.lane p).state ≠ .disabled → ((s.lane p).testStep = 2 ∨ (s.lane p).testStep = 3) →
    exec (.residualCurrentDetected p .dc v) s = .next s ∧ exec (.residualCurrentDetected p .ac v) s = .next s) ∧
  (∀ p mv s, s.steepleUp = true → (s.lane p).state ≠ .disabled → (mv < 150 ∨ 1650 < mv) →
    exec (.residualSensorFault p mv) s = .next (decideFault 0x0105 (some p) (leInt 4 (5 * ((mv : Int) - 900)) ++ [5]) false s)) ∧
  (∀ p a b c s blk, s.steepleUp = true → s.steeple.committed = some blk → s.comparing p = false → (a || b || c) = true →
    ∃ t, exec (.fastTrip p a b c) s =
      .next (decideFault 0x0201 (some p) (le 1 (b1 a + 2 * b1 b + 4 * b1 c) ++ le 2 (blk.trip[p])) false t) ∧
    (t.steeple.trips[p]) = #v[(s.steeple.trips[p])[0] || a, (s.steeple.trips[p])[1] || b, (s.steeple.trips[p])[2] || c]) ∧
  (∀ p a b c s, s.comparing p = true → exec (.fastTrip p a b c) s = .next s) ∧
  (∀ p x y s, s.steepleUp = true → s.selfTestDue p = true → (x && y) = false → exec (.comparatorSelfTest p x y) s =
    .next (failSelfTest p (s.modLane p (fun l => { l with comparator := none })))) ∧
  (∀ p s, (s.lane p).testStep = 0 → (s.lane p).testForReset = false → failSelfTest p s = decideFault 0x0203 (some p) [] false s) ∧
  (∀ p s, (s.lane p).testStep ≠ 0 → (s.lane p).testForReset = false → failSelfTest p s =
    decideFault 0x0203 (some p) [] false (s.modLane p Lane.abandonTest)) ∧
  (∀ p s, s.steepleUp = true → s.selfTestDue p = true → ∃ t, exec (.comparatorSelfTest p true true) s = .next t ∧
    t.steeple.record = s.steeple.record ∧ (t.lane p).comparator = none ∧
    ∀ x ∈ t.steeple.resets, p ∈ (s.lockOf x.port).ports → p ∈ x.selfTests) ∧
  (∀ (s : State) p, s.selfTestDue p = true ↔ ((s.lane p).comparator.isSome = true ∨ ∃ x ∈ s.steeple.resets, p ∈ (s.lockOf x.port).ports) ∧
    (s.lane p).ctd = false ∧ (s.lane p).pbd = false) ∧
  (∀ p s cls k, s.steepleUp = true → 3 ≤ (s.lane p).classRun → (s.lane p).state ≠ .disabled → (s.lane p).state ≠ .lockout →
    (s.lane p).lastClass = some cls → pilotFaultCode cls = some k → exec (.pilotFault p) s =
      .next (decideFault k (some p) (leInt 2 (s.lane p).highMv ++ leInt 2 ((s.lane p).lowMv.getD (-32768))) false s)) ∧
  (∀ p s at_, s.steepleUp = true → (s.lane p).state ≠ .disabled → (s.lane p).ctfOdd = some at_ → at_ + 20 ≤ s.now →
    exec (.contactorFeedbackDiscrepancy p (s.lane p).ctf) s =
      .next (decideFault 0x0401 (some p) [0] false (s.modLane p (fun l => { l with ctfOdd := none })))) ∧
  (∀ p x s, s.steepleUp = true → (s.lane p).state ≠ .disabled → x ≠ (s.lane p).pbd →
    exec (.preBreakDiscrepancy p x) s = .next (decideFault (if (s.lane p).pbd then 0x0402 else 0x0404) (some p) [0] false
      (s.modLane p (fun l => { l with pbf := x })))) ∧
  (∀ code port detail own s, s.steepleUp = false → decideFault code port detail own s = s)

/-- Hub inputs (R249 to R251): four bad earth windows, the emergency stop's inputs and test, and the shunt trip's pulse. -/
def Obligations.HubInputs : Prop :=
  (∀ n s, s.steepleUp = true → s.peEnabled = true → 17 ≤ n → n ≤ 23 → exec (.peMonWindow n) s =
    .next (s.withSteeple { s.steeple with peBad := 0, peGoodSince := some (s.steeple.peGoodSince.getD s.now) })) ∧
  (∀ n s, s.steepleUp = true → s.peEnabled = true → (n < 17 ∨ 23 < n) → s.steeple.peBad < 3 → exec (.peMonWindow n) s =
    .next (s.withSteeple { s.steeple with peBad := s.steeple.peBad + 1, peGoodSince := none })) ∧
  (∀ n s, s.steepleUp = true → s.peEnabled = true → (n < 17 ∨ 23 < n) → s.steeple.peBad = 3 → exec (.peMonWindow n) s =
    .next (decideFault 0x0501 none [] false (s.withSteeple { s.steeple with peBad := 4, peGoodSince := none }))) ∧
  (∀ n s, s.peEnabled = false → exec (.peMonWindow n) s = .next s) ∧
  (∀ s, s.steepleUp = true → s.estopEnabled = true → s.steeple.estopTestAt + s.estopPeriod ≤ s.now →
    exec (.estopTestPulse true true) s = .next (s.withSteeple { s.steeple with
      estopTestAt := s.now, estopFollowed := sat 3 (s.steeple.estopFollowed + 1) })) ∧
  (∀ a b s, s.steepleUp = true → s.estopEnabled = true → s.steeple.estopTestAt + s.estopPeriod ≤ s.now → (a && b) = false →
    exec (.estopTestPulse a b) s = .next (decideFault 0x0703 none [] false (s.withSteeple { s.steeple with
      estopTestAt := s.now, estopFollowed := 0 }))) ∧
  (∀ a b s, s.steepleUp = true → s.estopEnabled = true → s.steeple.estopA = true → s.steeple.estopB = true → (a && b) = false →
    exec (.estopInputChange a b) s = .next (decideFault 0x0701 none [] false (noteEstop a b s)) ∧
      (noteEstop a b s).steeple.estopA = a ∧ (noteEstop a b s).steeple.estopB = b) ∧
  (∀ s, s.steepleUp = true → s.estopEnabled = true → exec (.estopInputChange true true) s = .next (noteEstop true true s)) ∧
  (∀ s, s.steepleUp = true → exec .shuntTripPulseEnd s =
    .next (s.withSteeple { s.steeple with shunt := s.steeple.shunt.filterMap (shuntNext s) })) ∧
  (∀ (s : State) h, s.now < h.until_ → shuntNext s h = some h) ∧
  (∀ (s : State) h, h.until_ ≤ s.now → h.low = true → shuntNext s h = some { h with low := false, until_ := s.now + 1000 }) ∧
  (∀ (s : State) h, h.until_ ≤ s.now → h.low = false → (s.lane h.port).ovs = true → h.repeated = false →
    shuntNext s h = some ⟨h.port, true, s.now + 200, true⟩) ∧
  (∀ (s : State) h, h.until_ ≤ s.now → h.low = false → ((s.lane h.port).ovs = false ∨ h.repeated = true) → shuntNext s h = none) ∧
  (∀ (s : State) p, s.shtEnabled = true →
    pulseSht p s = s.withSteeple { s.steeple with shunt := s.steeple.shunt ++ [⟨p, true, s.now + 200, false⟩] })

/-- The first fault of a port, no reaction being open and no degraded class applying, locks that port: its permit and both drives are
off, its lock-out is active and holds the code, and no other port's permit or lock-out changes (R255). -/
def Obligations.FirstPortFaultLocksThePort : Prop :=
  ∀ code p detail own s, s.steepleUp = true → s.repeatOf code (some p) = none →
    (∀ r ∈ s.steeple.reactions, r.open_ s.now = false) → (s.power.inForce.uryan ≠ 1 ∨ (code ≠ 0x0401 ∧ code ≠ 0x0604 ∧ code ≠ 0x0901)) →
    let t := decideFault code (some p) detail own s
    (t.portLock p).active = true ∧ (∃ h ∈ (t.portLock p).faults, h.code = code ∧ h.port = some p) ∧
    t.permit p = false ∧ (t.lane p).ctd = false ∧ (t.lane p).pbd = false ∧ t.steeple.hub.active = s.steeple.hub.active ∧
    (∀ q, q ≠ p → t.permit q = s.permit q ∧ t.portLock q = s.portLock q)

/-- An independent second fault while a reaction is open brings the hub safe state: the hub lock-out is active, and every port's permit
and both its drives are off, every port not in DISABLED is in LOCKOUT, the fault is held, and only a weld pulses SHT_N (R263). -/
def Obligations.SecondFaultIsTheHubSafeState : Prop :=
  ∀ code port detail own s r, s.steepleUp = true → s.repeatOf code port = none → r ∈ s.steeple.reactions →
    r.open_ s.now = true → dependsOn r code port own s.now = false →
    let t := decideFault code port detail own s
    t.steeple.hub.active = true ∧ (∃ h ∈ t.steeple.hub.faults, h.code = code ∧ h.port = port) ∧
    (code ≠ 0x0403 → t.steeple.shunt = s.steeple.shunt) ∧
    ∀ p, t.permit p = false ∧ (t.lane p).ctd = false ∧ (t.lane p).pbd = false ∧
      ((s.lane p).state ≠ .disabled → (t.lane p).state = .lockout)

/-- The times of reactions, of CD1 and of degraded mode (R238, R255, R263, R268, R269). -/
def Obligations.SafetyTimes : Prop :=
  (∀ s, ∃ t, exec .reactionEnd s = .next t ∧ t.steeple.permits = s.steeple.permits ∧
    ∀ r ∈ s.steeple.reactions, r.degraded = false → r.endsAt = none → r.at_ + 100 ≤ s.now →
      { r with endsAt := some (r.at_ + 100) } ∈ t.steeple.reactions) ∧
  (∀ s, exec .escalationWindowEnd s = .next (s.withSteeple { s.steeple with
    reactions := s.steeple.reactions.filter (fun r => r.open_ s.now) })) ∧
  (∀ s, s.steepleUp = true → exec .cd1Loss s = .next (loseCd1 s) ∧ (∀ p, (loseCd1 s).permit p = false) ∧
    (loseCd1 s).steepleUp = false ∧ (loseCd1 s).steeple.cd1Lost.isSome = true) ∧
  (∀ p d s (f : Phase), s.steepleUp = true → s.degradedOf p = some d → s.heldFor (s.steeple.overSince[p])[f] 5000 = true →
    exec (.degradedOvercurrent p) s = .next (lockDegradedPort p d.code d.index s)) ∧
  (∀ d s, s.steepleUp = true → s.steeple.hubDegraded = some d → (∀ p : Port, s.steeple.portDegraded[p] = none) → d.endsAt ≤ s.now →
    exec .degradedTimeEnd s = .next (endHubDegraded d s)) ∧
  (∀ d s, s.steepleUp = true → s.steeple.hubDegraded = some d → s.degradedCleared d = true →
    ∃ t, exec .degradedEarlyEnd s = .next t ∧ t.steeple.hubDegraded = none ∧ t.steeple.hub.pending = false ∧
      t.steeple.permits = s.steeple.permits)

/-- Leaving a lock-out (R258 to R262, R273, R276): the reset is handed to Steeple; its clear conditions, its window and its times end it;
and what SRST_N does (R261). -/
def Obligations.LockoutResets : Prop :=
  (∀ b f r s, Asked b 0x0803 f r s → r.payload.length = 8 → r.handle = 0 →
    ((field r.payload 0 1 = 0 ∧ field r.payload 1 1 < 24) ∨ (field r.payload 0 1 = 1 ∧ field r.payload 1 1 = 255)) →
    exec (.lockoutReset b) s = .next (askSteeple 1 r.payload r (taken b f s))) ∧
  (∀ s r, s.steepleUp = true → s.steeple.resets = [r] → r.inWindow = false → s.allClear r = true →
    (s.lockOf r.port).needsConfirmation = false → exec .clearConditionsMet s = .next (completeReset r {} s)) ∧
  (∀ s r, s.steepleUp = true → s.steeple.resets = [r] → r.inWindow = false → s.allClear r = true →
    (s.lockOf r.port).needsConfirmation = true → s.steeple.window = none → exec .clearConditionsMet s = .next (openWindow r s)) ∧
  (∀ s r, s.steepleUp = true → s.steeple.resets = [r] → r.inWindow = false → s.allClear r = false → r.startedAt + 10000 ≤ s.now →
    exec .lockoutResetTimeout s = .next (endReset r stFaultPresent 0 (s.firstUncleared r) s)) ∧
  (∀ p s r t0, s.steepleUp = true → s.steeple.resets = [r] → r.probing = [(p, t0)] → t0 + 20 ≤ s.now → (s.lane p).confirmed ≠ some .a →
    exec (.clearProbeEnd p) s = .next (endReset r stFaultPresent 0 (s.firstUncleared r) (endProbe s p))) ∧
  (∀ s w r, s.steepleUp = true → s.steeple.window = some w → s.windowRun = some r → w.deadline ≤ s.now →
    exec .confirmationWindowExpired s =
      .next (endReset r stLocalConfirmMissing 0 0 (addRecord 12 0 w.port (s.lockOf w.port).latest [] {} s))) ∧
  (∀ n s w r, s.steepleUp = true → s.steeple.window = some w → s.windowRun = some r → s.steeple.srstStuck = false → 500 ≤ n →
    n < 5000 → w.openedAt + n ≤ s.now → s.now ≤ w.deadline → s.allClear r = true →
    exec (.srstNPulse n) s = .next (completeReset r { srst := true } s)) ∧
  (∀ n s w r, s.steepleUp = true → s.steeple.window = some w → s.windowRun = some r → s.steeple.srstStuck = false → 500 ≤ n →
    n < 5000 → w.openedAt + n ≤ s.now → s.now ≤ w.deadline → s.allClear r = false →
    exec (.srstNPulse n) s = .next (endReset r stFaultPresent 0 (s.firstUncleared r) s)) ∧
  (∀ n s, n < 500 ∨ s.steeple.window = none ∨ s.steeple.srstStuck = true → exec (.srstNPulse n) s = .next s) ∧
  (∀ s, s.steepleUp = true → s.steeple.srstStuck = false → ∃ t, exec .srstNStuck s = .next t ∧ t.steeple.srstStuck = true ∧
    (∃ e ∈ t.steeple.record, e.kind = 10 ∧ e.index = s.steeple.nextIndex) ∧ t.steeple.resets = s.steeple.resets ∧
    t.steeple.permits = s.steeple.permits) ∧
  (∀ s, s.steepleUp = true → exec .srstNRearm s = .next (s.withSteeple { s.steeple with srstStuck := false }))



/-! ## Requests to Steeple and the safety parameters -/

/-- Staging and committing safety parameters, the request record through which Steeple is asked, and the safety queries (R29, R30, R274,
R275, R281 to R284, R298 to R300). -/
def Obligations.SafetyParameters : Prop :=
  Does .safetyParamStage 0x0805 (fun r s => r.payload.length = 4 + field r.payload 2 1 ∧ r.handle = 0 ∧ field r.payload 0 1 = 0 ∧
      1 ≤ field r.payload 2 1 ∧ 1 ≤ field r.payload 1 1 ∧ field r.payload 1 1 + field r.payload 2 1 ≤ 124 ∧
      s.commitPublished = false)
    (fun r s => askSteeple 2 r.payload r s) ∧
  Refuses .safetyParamStage 0x0805 (fun r s => r.payload.length = 4 + field r.payload 2 1 ∧ r.handle = 0 ∧ field r.payload 0 1 = 0 ∧
      1 ≤ field r.payload 2 1 ∧ 1 ≤ field r.payload 1 1 ∧ field r.payload 1 1 + field r.payload 2 1 ≤ 124 ∧
      s.rotunda.silent = false ∧ s.commitPublished = true) stBusy ∧
  (∀ e s, field e.data 0 1 = 0 → (arriveStage e s).steeple.staged =
    blockOf (splice s.steeple.staged.bytes (field e.data 1 1) (slice e.data 4 (field e.data 2 1)))) ∧
  (∀ e s, field e.data 0 1 = 1 → (arriveStage e s).steeple.staged = s.steeple.committed.getD SafetyBlock.defaults) ∧
  Does .safetyCommit 0x0806 (fun r _ => r.payload.length = 8 ∧ r.handle = 0)
    (fun r s => askSteeple 3 (r.payload ++ s.proofBytes (field r.payload 4 4)) r s) ∧
  (∀ e s, s.commitStep e.data = 0 →
    (arriveCommit e s).steeple.committed = some s.steeple.staged ∧ (arriveCommit e s).steeple.commitTime = s.time ∧
    (arriveCommit e s).steeple.committing = true) ∧
  (∀ (s : State) data, s.steeple.committing = true → s.commitStep data = 1) ∧
  (∀ (s : State) data, s.proofSpent (field data 4 4) = true → s.commitStep data ≠ 0) ∧
  (∀ e s, s.commitStep e.data ≠ 0 →
    (arriveCommit e s).steeple.committed = s.steeple.committed ∧ (arriveCommit e s).steeple.permits = s.steeple.permits) ∧
  Answers .safetyStatus 0x0801 (fun r _ => r.payload = [] ∧ r.handle = 0) (fun _ s => s.safetyStatus s.committedCheck) ∧
  Answers .faultRecordRead 0x0802 (fun r _ => r.payload.length = 8 ∧ r.handle = 0 ∧ 1 ≤ field r.payload 4 1 ∧ field r.payload 4 1 ≤ 14)
    (fun r s =>
      let es := (s.steeple.record.filter (fun e =>
        decide (w32 (e.index + 4294967296 - field r.payload 0 4) < 2147483648))).take (field r.payload 4 1)
      le 1 es.length ++ [0, 0, 0] ++ le 4 s.lastIndex ++ es.flatMap FaultEntry.bytes) ∧
  Answers .safetyParamRead 0x0804 (fun r _ => r.payload.length = 4 ∧ r.handle = 0 ∧ field r.payload 0 1 ≤ 1)
    (fun r s => s.paramRead (field r.payload 0 1)) ∧
  Refuses .safetyParamRead 0x0804 (fun r _ => r.payload.length = 4 ∧ r.handle = 0 ∧ 2 ≤ field r.payload 0 1) stParamRange ∧
  (∀ kind data r s, s.rotunda.silent = false → s.recordFull = false → ∃ t, askSteeple kind data r s = t ∧
    t.rotunda.waiting = s.rotunda.waiting ++ [r.wait s.rotunda.nextRequest] ∧
    t.rotunda.nextRequest = w32 (s.rotunda.nextRequest + 1) ∧
    t.rotunda.published.record = s.rotunda.published.record.filter (fun e => !e.done) ++
      [⟨s.rotunda.nextRequest, kind, some r.box, r.seq, r.epoch, s.time, data, s.now, false, false⟩] ∧
    t.steeple = s.steeple) ∧
  (∀ kind data r s, s.rotunda.silent = true → askSteeple kind data r s = refuse r stControlSilent s) ∧
  (∀ kind data r s, s.rotunda.silent = false → s.recordFull = true → askSteeple kind data r s = refuse r stBusy s)

/-- Telegram supervision (R286 to R295, R297): one PDU a period on both links, the checks of a copy and the identifiers and states of SN-B
(R289), pairs, the allowance and the timeout. -/
def Obligations.Telegrams : Prop :=
  (∀ s b, s.steepleUp = true → s.steeple.committed = some b → s.steeple.telegram.running = true →
    s.steeple.telegram.nextTxAt ≤ s.now → ∃ t, exec .telegramTransmit s = .next t ∧ t.steeple.telegram.sent = s.pdu b ∧
      t.steeple.telegram.sentId = b.canTx ∧ t.steeple.telegram.txSeq = w16 (s.steeple.telegram.txSeq + 1) ∧
      t.steeple.telegram.nextTxAt = s.now + b.tgPeriod ∧ t.steeple.telegram.a.lastTxSeq = s.steeple.telegram.txSeq ∧
      (s.steeple.telegram.b.busState ≠ 2 → t.steeple.telegram.b =
        ({ s.steeple.telegram.b with lastTxSeq := s.steeple.telegram.txSeq } : SafetyLink).canSent s.frameFate) ∧
      (s.steeple.telegram.b.busState = 2 → t.steeple.telegram.b = s.steeple.telegram.b)) ∧
  (∀ path id us bs s b, s.steepleUp = true → s.steeple.committed = some b → s.steeple.telegram.running = true → s.inD1 = false →
    (path = .snB → id = b.canRx ∧ s.steeple.telegram.b.busState ≠ 2) → s.copyCheck b path true bs = 0 →
    s.steeple.telegram.waiting = [] → s.steeple.telegram.ended.contains (otherPath path, field bs 0 2) = false →
    ∃ t, exec (.telegramCopyReceived path ⟨.good, id⟩ us bs) s = .next t ∧
      t.steeple.telegram.waiting = [⟨path, field bs 0 2, bs.take 12, us, s.now + 5⟩] ∧
      (t.steeple.telegram.link path).valid = w32 ((s.steeple.telegram.link path).valid + 1) ∧
      t.steeple.telegram.link (otherPath path) = s.steeple.telegram.link (otherPath path)) ∧
  (∀ path id us bs s b w, s.steepleUp = true → s.steeple.committed = some b → s.steeple.telegram.running = true → s.inD1 = false →
    (path = .snB → id = b.canRx ∧ s.steeple.telegram.b.busState ≠ 2) → s.copyCheck b path true bs = 0 →
    s.steeple.telegram.waiting = [w] → w.path = otherPath path → w.seq = field bs 0 2 →
    us ≤ w.arrivalUs + 5000 → w.head = bs.take 12 → bit (field w.head 6 1) 0 = false →
    ∃ t, exec (.telegramCopyReceived path ⟨.good, id⟩ us bs) s = .next t ∧ t.steeple.telegram.waiting = [] ∧
      t.steeple.telegram.reference = some w.seq ∧ t.steeple.telegram.baseAt = s.now ∧ t.steeple.telegram.started = true ∧
      t.steeple.telegram.lastPairStop = false ∧
      (t.steeple.telegram.link path).pairs = w32 ((s.steeple.telegram.link path).pairs + 1) ∧
      (t.steeple.telegram.link w.path).pairs = w32 ((s.steeple.telegram.link w.path).pairs + 1)) ∧
  (∀ path id us bs s b, s.steepleUp = true → s.steeple.committed = some b → s.steeple.telegram.running = true →
    (path = .snB → id = b.canRx ∧ s.steeple.telegram.b.busState ≠ 2) → s.copyCheck b path true bs = 2 →
    ∃ t, exec (.telegramCopyReceived path ⟨.good, id⟩ us bs) s = .next t ∧
      (t.steeple.telegram.link path).crcFail = w32 ((s.steeple.telegram.link path).crcFail + 1) ∧
      t.steeple.telegram.waiting = s.steeple.telegram.waiting ∧ t.steeple.telegram.reference = s.steeple.telegram.reference) ∧
  (∀ path id us bs s b, s.steepleUp = true → s.steeple.committed = some b → s.steeple.telegram.running = true →
    (path = .snB → id = b.canRx ∧ s.steeple.telegram.b.busState ≠ 2) →
    ∃ t, exec (.telegramCopyReceived path ⟨.malformed, id⟩ us bs) s = .next t ∧
      (t.steeple.telegram.link path).otherFail = w32 ((s.steeple.telegram.link path).otherFail + 1) ∧
      t.steeple.telegram.waiting = s.steeple.telegram.waiting) ∧
  (∀ form id us bs s b, s.steepleUp = true → s.steeple.committed = some b → s.steeple.telegram.running = true →
    form ≠ .error → id ≠ b.canRx → ∃ t, exec (.telegramCopyReceived .snB ⟨form, id⟩ us bs) s = .next t ∧
      t.steeple.telegram.waiting = s.steeple.telegram.waiting ∧ t.steeple.telegram.b.valid = s.steeple.telegram.b.valid ∧
      t.steeple.telegram.b.otherFail = s.steeple.telegram.b.otherFail) ∧
  (∀ id us bs s b, s.steepleUp = true → s.steeple.committed = some b → s.steeple.telegram.running = true →
    s.steeple.telegram.b.busState ≠ 2 → ∃ t, exec (.telegramCopyReceived .snB ⟨.error, id⟩ us bs) s = .next t ∧
      t.steeple.telegram.b.busErrors = w32 (s.steeple.telegram.b.busErrors + 1) ∧
      t.steeple.telegram.waiting = s.steeple.telegram.waiting) ∧
  (∀ form id us bs s, s.steeple.telegram.b.busState = 2 → exec (.telegramCopyReceived .snB ⟨form, id⟩ us bs) s = .next s) ∧
  (∀ s w, s.steepleUp = true → s.steeple.telegram.waiting = [w] → w.deadline ≤ s.now →
    ∃ t, exec .skewAllowanceEnd s = .next t ∧ t.steeple.telegram.waiting = [] ∧
      (t.steeple.telegram.link w.path).unmatched = w32 ((s.steeple.telegram.link w.path).unmatched + 1)) ∧
  (∀ s, s.steepleUp = true → s.steeple.telegram.running = true → s.steeple.telegram.timeoutDecided = false →
    s.steeple.telegram.baseAt + s.tgLimit ≤ s.now → s.tgDelivered .snA = s.tgDelivered .snB →
    exec .telegramTimeout s = .next (decideFault 0x0602 none [] false (s.withTelegram { s.steeple.telegram with
      timeoutDecided := true, goodSince := none, stopClearSince := none }))) ∧
  (∀ path s, s.steepleUp = true → s.steeple.telegram.running = true → s.steeple.telegram.timeoutDecided = false →
    s.steeple.telegram.baseAt + s.tgLimit ≤ s.now → s.inD1 = false → s.tgDelivered path = true →
    s.tgDelivered (otherPath path) = false →
    exec .telegramTimeout s = .next (enterRemaining path (decideFault 0x0604 none [] false (s.withTelegram { s.steeple.telegram with
      timeoutDecided := true, goodSince := none, stopClearSince := none })))) ∧
  (∀ s, s.steepleUp = true → s.steeple.telegram.b.busState = 2 → ∃ t, exec .busOffRecovery s = .next t ∧
    t.steeple.telegram.b.busState = 0 ∧ t.steeple.telegram.a = s.steeple.telegram.a) ∧
  (∀ s, s.steeple.telegram.b.busState ≠ 2 → exec .busOffRecovery s = .next s) ∧
  Answers .telegramStatus 0x0807 (fun r s => r.payload = [] ∧ r.handle = 0 ∧ 0x1D ∉ s.rotunda.rebuilding ∧ 0x1E ∉ s.rotunda.rebuilding) (fun _ s => s.telegramStatus)

/-! ## Channels and configuration -/

/-- The channel commands (R75 to R92). -/
def Obligations.ChannelCommands : Prop :=
  (∀ b f r s body h t, Asked b 0x0201 f r s → 5 ≤ r.payload.length → r.payload.length ≤ 452 → r.handle = 0 →
    (field r.payload 0 1 = typeStream ∨ field r.payload 0 1 = typeFilter) → bodyOf (field r.payload 0 1) (r.payload.drop 4) = some body →
    createChannel body (some r.box) r.role (accept r (taken b f s)) = some (h, t) →
    exec (.channelCreate b) s = .next (finish r.wait stOk (le 4 h) t)) ∧
  (∀ body owner role s h t, createChannel body owner role s = some (h, t) → ∃ slot, s.freeSlot? = some slot ∧
    t.rotunda.channels = s.rotunda.channels ++
      [⟨slot, s.generation slot, owner, role, w48 s.civil, w48 s.civil, 0, body⟩] ∧ t.rotunda.generations = s.rotunda.generations) ∧
  (∀ b f r s c, Asked b 0x0202 f r s → r.payload = [] → r.handle ≠ 0 → (taken b f s).current r.handle = true →
    (taken b f s).channelOf r.handle = some c → c.owner = some r.box →
    (c.body.typeCode = typeStream ∨ c.body.typeCode = typeFilter) → c.program? = none → c.txn? = none →
    exec (.channelDestroy b) s = .next (finish r.wait stOk []
      (destroyChannel c 0x8021 0 (abortSignatures c.handle (settleHandle c.handle stAborted (accept r (taken b f s))))))) ∧
  (∀ h s, (∀ j ∈ s.legal.signing, j.request.any (fun w => w.handle == h) = false) → s.legal.waitingRecords = [] →
    s.legal.signing.length ≤ 16 → abortSignatures h s = s) ∧
  (∀ c code reason s, ∃ t, destroyChannel c code reason s = t ∧
    t.rotunda.channels = s.rotunda.channels.filter (fun d => d.slot ≠ c.slot) ∧
    t.generation c.slot = (if c.slot < 256 then (if s.generation c.slot = 0xFFFF then 1 else s.generation c.slot + 1) else 1)) ∧
  (∀ b f r s, Asked b 0x0203 f r s → r.payload.length = 4 → r.handle ≠ 0 → (taken b f s).current r.handle = true →
    1 ≤ field r.payload 2 2 → field r.payload 2 2 ≤ 448 → field r.payload 0 2 + field r.payload 2 2 ≤ 512 →
    s.rotunda.rebuilding.contains (handleSlot r.handle) = false → exec (.channelRead b) s = .next (respond r stOk
      (slice ((taken b f s).slotImage r.handle) (field r.payload 0 2) (field r.payload 2 2)) (taken b f s).draw)) ∧
  (∀ b f r s c x y, Asked b 0x0204 f r s → 5 ≤ r.payload.length → r.payload.length ≤ 452 →
    r.payload.length = 4 + field r.payload 2 2 → r.handle ≠ 0 → (taken b f s).current r.handle = true →
    (taken b f s).channelOf r.handle = some c → c.owner = some r.box → c.body = .filter x → 32 ≤ field r.payload 0 2 →
    field r.payload 0 2 + field r.payload 2 2 ≤ 40 →
    filterOf ((splice (fit 480 x.bytes) (field r.payload 0 2 - 32) (r.payload.drop 4)).take 8) = some y →
    exec (.channelModify b) s = .next (finish r.wait stOk [] (setBody c.slot (.filter y) (accept r (taken b f s))))) ∧
  Answers .channelList 0x0205 (fun r _ => r.payload.length = 4 ∧ r.handle = 0 ∧ field r.payload 0 1 = 0)
    (fun r s =>
      let x := s.listFrom 0 64 ((List.range 256).drop (field r.payload 1 1))
      le 1 x.1.length ++ le 1 x.2 ++ [0, 0] ++ x.1.flatten)

/-- Configuration transactions (R93 to R100) and single allocator writes (R70, R230, R231): a stage is opened, filled, read, abandoned, and
committed as one publication. -/
def Obligations.ConfigurationTransactions : Prop :=
  (∀ b f r s, Asked b 0x0301 f r s → r.payload = [] → r.handle = 0 → (s.box b).stage = none → s.committing b = false →
    exec (.cfgBegin b) s = .next (finish r.wait stOk [] (setStage b (some []) (accept r (touchStage b (taken b f s)))))) ∧
  (∀ b f r s, Asked b 0x0301 f r s → r.payload = [] → r.handle = 0 → (s.box b).stage.isSome = true →
    exec (.cfgBegin b) s = .next (respond r stCfgStageOpen [] (touchStage b (taken b f s)))) ∧
  (∀ b f r s recs stage, Asked b 0x0302 f r s → 4 ≤ r.payload.length → r.handle = 0 →
    parseRecords (field r.payload 0 1) (r.payload.drop 4) = some recs → 1 ≤ recs.length → recs.length ≤ 64 →
    (s.box b).stage = some stage → recs.filterMap (recordRefusal r.role) = [] → (∀ c ∈ recs, sealRefusal s c = none) →
    (recs.foldl stageRecord stage).length ≤ 256 → stageBytes (recs.foldl stageRecord stage) ≤ 4096 →
    exec (.cfgWrite b) s = .next (finish r.wait stOk []
      (setStage b (some (recs.foldl stageRecord stage)) (accept r (touchStage b (taken b f s)))))) ∧
  (∀ b f r s recs, Asked b 0x0303 f r s → r.payload = [] → r.handle = 0 → (s.box b).stage = some recs →
    sealedNow s recs = none → rankDenied s r.role recs = none → conflict s recs (candidate s.rotunda.committed recs) = none → stateRefused s recs = none →
    s.power.holdUp = false → ∃ t, exec (.cfgCommit b) s = .next t ∧ t.rotunda.committed = candidate s.rotunda.committed recs ∧
      t.rotunda.published.settings = candidate s.rotunda.committed recs ∧ (t.box b).stage = none ∧
      t.rotunda.published.seq = w32 (s.rotunda.published.seq + 1)) ∧
  (∀ b f r s recs x, Asked b 0x0303 f r s → r.payload = [] → r.handle = 0 → (s.box b).stage = some recs →
    sealedNow s recs = none → rankDenied s r.role recs = none → conflict s recs (candidate s.rotunda.committed recs) = some x →
    ∃ t, exec (.cfgCommit b) s = .next t ∧ t.rotunda.committed = s.rotunda.committed ∧
      t.rotunda.published = s.rotunda.published ∧ (t.box b).stage = some recs) ∧
  (∀ b f r s recs x, Asked b 0x0303 f r s → r.payload = [] → r.handle = 0 → (s.box b).stage = some recs → sealedNow s recs = some x →
    exec (.cfgCommit b) s = .next (finish r.wait x.1 (commitPayload 0 0 0 0 x.2.1 x.2.2) (accept r (touchStage b (taken b f s))))) ∧
  (∀ b f r s stage, Asked b 0x0304 f r s → r.payload = [] → r.handle = 0 → (s.box b).stage = some stage →
    exec (.cfgAbort b) s = .next (finish r.wait stOk [] (setStage b none (accept r (touchStage b (taken b f s)))))) ∧
  (∀ b f r s, Asked b 0x0305 f r s → r.payload.length = 4 → r.handle = 0 → field r.payload 0 1 = 0 →
    fieldKnown (field r.payload 2 2) (field r.payload 1 1) = true → exec (.cfgRead b) s = .next (respond r stOk
      (le 1 (fieldSize (field r.payload 2 2)) ++ zeros 3 ++ le (fieldSize (field r.payload 2 2))
        (getRaw s.rotunda.committed (field r.payload 2 2) (field r.payload 1 1))) (touchStage b (taken b f s)))) ∧
  (∀ b f r s, Asked b 0x0306 f r s → r.payload = [] → r.handle = 0 → (s.box b).stage = none → s.committing b = false →
    exec (.cfgStatus b) s = .next (respond r stOk (zeros 6 ++ le 4 (s.box b).lastPeriod ++ le 6 (s.box b).lastCommitTime)
      (touchStage b (taken b f s)))) ∧
  (∀ p s, (s.box (hostBox p)).stage.isSome = true → (s.box (hostBox p)).stageTouched + 300000 ≤ s.now →
    ∃ t, exec (.stageTimeout p) s = .next t ∧ (t.box (hostBox p)).stage = none ∧ t.rotunda.committed = s.rotunda.committed) ∧
  (∀ p s c, s.rotunda.commits = [c] → c.box = hostBox p → c.silent = false → c.since + 1000 ≤ s.now →
    exec (.commitApplyTimeout p) s = .next (finish c.wait stControlSilent (commitPayload 0xFFFFFFFF 0 c.records 0 0 0)
      (s.withRotunda { s.rotunda with commits := [{ c with silent := true }] }))) ∧
  (∀ b f r s v, Asked b 0x0310 f r s → r.payload.length = 8 → r.handle = 0 →
    fieldAlloc (field r.payload 0 2) = true → fieldKnown (field r.payload 0 2) (field r.payload 2 1) = true →
    fieldWritable r.role (field r.payload 0 2) = true → field r.payload 3 1 = 0 →
    allocValue (field r.payload 0 2) (field r.payload 4 4) = some v →
    s.rank (field r.payload 0 2) (field r.payload 2 1) ≤ r.role →
    conflict s [⟨field r.payload 0 2, field r.payload 2 1, fieldSize (field r.payload 0 2), v⟩]
      (setRaw s.rotunda.committed (field r.payload 0 2) (field r.payload 2 1) v) = none →
    stateRefused s [⟨field r.payload 0 2, field r.payload 2 1, fieldSize (field r.payload 0 2), v⟩] = none →
    s.power.holdUp = false → ∃ t, exec (.allocSet b) s = .next t ∧
      t.rotunda.committed = setRaw s.rotunda.committed (field r.payload 0 2) (field r.payload 2 1) v ∧
      t.rotunda.published.settings = t.rotunda.committed) ∧
  (∀ b f r s, Asked b 0x0310 f r s → r.payload.length = 8 → r.handle = 0 → fieldAlloc (field r.payload 0 2) = true →
    fieldKnown (field r.payload 0 2) (field r.payload 2 1) = true → fieldWritable r.role (field r.payload 0 2) = false →
    exec (.allocSet b) s = .next (respond r stRoleDenied [] (taken b f s))) ∧
  Answers .allocRead 0x0430 (fun r s => r.payload = [] ∧ r.handle = 0 ∧ 0x18 ∉ s.rotunda.rebuilding) (fun _ s => s.allocBody) ∧
  (∀ (s : State) old, s.turret.siteShown = some old →
    s.allocBody = old.take 16 ++ allPhases.flatMap (s.shownPhase old) ++ old.drop 64)

/-! ## The allocator, the guard and the crossing points -/

/-- The mirror's and the fuse guard's rows (R31 to R33, R220 to R228, R242), and what a shedding stop does (R224): the port is SHED with its
pre-break switch off and its allowance at 6000 mA, and no other port's lane changes. -/
def Obligations.MirrorAndGuard : Prop :=
  (∀ f pub s, s.dspUp = true → s.turretUp = true → s.dsp.frequency.isSome = true →
    exec (.mirrorPublish f pub) s = .next (takePublication [f] false pub.halfUs pub s)) ∧
  (∀ pub s, s.dspUp = true → s.turretUp = true → s.dsp.frequency = none →
    exec (.mirrorPublishUnsync pub) s = .next (takePublication allPhases true 10000 pub s)) ∧
  (∀ f x strobe us v s, ∃ t, takeValue f x strobe us s v = t ∧
    (t.turret.mirror[v.channel]).rms = w32 v.rms ∧ (t.turret.mirror[v.channel]).power = v.power ∧
    (t.turret.mirror[v.channel]).stale = false ∧ (t.turret.mirror[v.channel]).updatedAt = s.now ∧
    (t.turret.mirror[v.channel]).seq = w32 ((s.turret.mirror[v.channel]).seq + 1) ∧
    (∀ c : Channel88, c ≠ v.channel → (t.turret.mirror[c]) = (s.turret.mirror[c]))) ∧
  (∀ c s, s.turretUp = true → s.channelEnabled c = true → (s.turret.mirror[c]).stale = false →
    (s.turret.mirror[c]).updatedAt + s.staleLimit ≤ s.now →
    ∃ t, exec (.mirrorEntryStale c) s = .next t ∧ (t.turret.mirror[c]).stale = true ∧
      (t.turret.mirror[c]).rms = (s.turret.mirror[c]).rms ∧ t.steeple.permits = s.steeple.permits ∧
      t.steeple.record = s.steeple.record) ∧
  (∀ f s, s.turretUp = true → 10 ≤ (s.guard f).zone0Run → ∃ t, exec (.zoneTimerRestart f) s = .next t ∧
    (t.guard f).lsTimer = 0 ∧ (t.guard f).zone2Timer = 0 ∧ t.steeple = s.steeple) ∧
  (∀ f s p ps, s.turretUp = true → (∀ g : Phase, (s.guard g).hard = none) → 1000000 ≤ (s.guard f).zone2Timer →
    s.sheddingOrder f = p :: ps → exec (.softShedding f) s = .next (shedPort p f 3 (s.guard f).siteMa s)) ∧
  (∀ f s p ps, s.turretUp = true → (∀ g : Phase, (s.guard g).hard = none) → (s.guard f).zone2Timer < 1000000 →
    5000000 ≤ (s.guard f).lsTimer → s.sheddingOrder f = p :: ps →
    exec (.softShedding f) s = .next (shedPort p f 2 (s.guard f).siteMa s)) ∧
  (∀ f s, s.turretUp = true → (∀ g : Phase, (s.guard g).hard = none) → 5000000 ≤ (s.guard f).lsTimer → s.sheddingOrder f = [] →
    exec (.softShedding f) s = .next (shedNothing f (s.guard f).zone s)) ∧
  (∀ f s, 2 ≤ (s.guard f).zone3Run → (s.guard f).hard = none → ∃ t, decideHard f s = t ∧ (t.guard f).zone3Run = 0 ∧
    (t.guard f).hard = some ((s.guard f).siteMa,
      shedUntil s f (s.allocIn 0x0101 (f.val + 1)) (s.sheddingOrder f) (s.guard f).siteMa)) ∧
  (∀ (s : State) f ls p ps rest, ls < rest → shedUntil s f ls (p :: ps) rest = p :: shedUntil s f ls ps (rest - s.portRms p f)) ∧
  (∀ (s : State) f ls ps rest, rest ≤ ls → shedUntil s f ls ps rest = []) ∧
  (∀ f s site p ps, s.turretUp = true → (s.guard f).hard = some (site, p :: ps) →
    exec (.hardShedding f) s = .next (shedPorts (p :: ps) f 1 site (s.modGuard f (fun g => { g with hard := none })))) ∧
  (∀ f s site, s.turretUp = true → (s.guard f).hard = some (site, []) →
    exec (.hardShedding f) s = .next (shedNothing f 3 (s.modGuard f (fun g => { g with hard := none })))) ∧
  (∀ f s, (s.guard f).hard = none → exec (.hardShedding f) s = .next s) ∧
  (∀ f s, s.steepleUp = true → (s.guard f).blind = true → (s.guard f).raised = false → (s.guard f).blindSince + 500 ≤ s.now →
    exec (.guardBlindFault f) s = .next (decideFault 0x0901 none [] false (s.modGuard f (fun g => { g with raised := true })))) ∧
  (∀ p f cause site s, (s.lane p).state = .energised → let t := shedPort p f cause site s
    (t.lane p).state = .shed ∧ (t.lane p).transition = 10 ∧ (t.lane p).pbd = false ∧ (t.lane p).shedActive = true ∧
    (t.lane p).shedAt = s.now ∧ (t.lane p).allowance = 6000 ∧ (t.turret.ports[p]).allowance = 6000 ∧
    (∀ q, q ≠ p → t.lane q = s.lane q) ∧ t.steeple = s.steeple ∧
    (∀ g ∈ s.portPhases p, (t.guard g).lsTimer = 0 ∧ (t.guard g).zone2Timer = 0)) ∧
  (∀ p f cause site s, s.stoppable p = false → shedPort p f cause site s = s)

/-- The allocation boundary and the heartbeats of the two crossings (R24 to R30, R35 to R39). -/
def Obligations.CrossingRows : Prop :=
  (∀ s, s.turretUp = true → s.boundaryDue = true → exec .allocationBoundary s = .next (boundary s)) ∧
  (∀ s, s.boundaryDue = false → exec .allocationBoundary s = .next s) ∧
  (∀ s : State, s.dsp.frequency.isSome = true → (s.boundaryDue = true ↔ 5 ≤ s.turret.crossings)) ∧
  (∀ s : State, s.dsp.frequency = none → (s.boundaryDue = true ↔ s.turret.boundaryAt + 100 ≤ s.now)) ∧
  (∀ s, (latchInputs s).turret.period = w32 (s.turret.period + 1) ∧ (latchInputs s).turret.latched = s.rotunda.published ∧
    (latchInputs s).rotunda.applied = s.rotunda.published.settings ∧ (latchInputs s).turret.boundaryTime = s.time) ∧
  (∀ s, s.up .cd5 = true → s.turretUp = true → s.steeple.window = none → ∃ t, exec .allocInputHeartbeat s = .next t ∧
    t.rotunda.published.heartbeat = w32 (s.rotunda.published.heartbeat + 1) ∧
    t.turret.inputHeartbeat = t.rotunda.published.heartbeat ∧ t.turret.inputHeartbeatAt = s.now ∧ t.turret.inputStale = false) ∧
  (∀ s, s.turretUp = true → s.turret.inputStale = false → s.turret.inputHeartbeatAt + 1000 ≤ s.now →
    exec .allocInputStale s =
      .next (post none (.allocInput 1) (s.withTurret { s.turret with inputStale := true, hostDiscarded := true }))) ∧
  (∀ s a, s.turretUp = true → s.turret.hostDiscarded = false → s.turret.latched.surplusAt = some a → a + 15000 ≤ s.now →
    exec .hostSurplusExpiry s = .next (post none (.allocInput 3) (s.withTurret { s.turret with hostDiscarded := true }))) ∧
  (∀ s a, s.turret.latched.surplusAt = some a → s.now < a + 15000 → exec .hostSurplusExpiry s = .next s) ∧
  (∀ s, s.turretUp = true → s.serves = true → s.rotunda.silent = false → ∃ t, exec .sessionEventQueueHeartbeat s = .next t ∧
    t.turret.heartbeat = w32 (s.turret.heartbeat + 1) ∧ t.rotunda.queueHeartbeat = t.turret.heartbeat ∧
    t.rotunda.queueHeartbeatAt = s.now) ∧
  (∀ s, s.serves = true → s.rotunda.silent = false → s.rotunda.queueHeartbeatAt + 1000 ≤ s.now →
    s.rotunda.published.record = [] → ∃ t, exec .controlLost s = .next t ∧ t.rotunda.silent = true ∧
      t.turret = s.turret ∧ t.steeple = s.steeple) ∧
  (∀ s g, s.turretUp = true → s.turret.queueLost = some g → s.turret.queue.length < 224 → ∃ t, exec .gapEntry s = .next t ∧
    t.turret.queueLost = none ∧ t.turret.queue = s.turret.queue ++
      [⟨s.turret.queueSeq, s.time, none, .gap g.count g.first g.last⟩]) ∧
  (∀ s e rest, s.serves = true → s.turret.queue = e :: rest → exec .sessionEventDeliver s =
    .next (deliver e ((s.withTurret { s.turret with queue := rest }).withSteeple s.steeple.storeSafety))) ∧
  (∀ c s, s.turret.queueLost = none → s.turret.queue.length < 224 → ∀ p, ∃ t, post p c s = t ∧
    t.turret.queue = placeEntry s.turret.queue ⟨s.turret.queueSeq, s.time, p, c⟩ ∧
    t.turret.queueSeq = w32 (s.turret.queueSeq + 1)) ∧
  (∀ q e, (∀ x, q.getLast? = some x → x.time ≠ e.time) → placeEntry q e = q ++ [e]) ∧
  (∀ q (x e : QEntry) r p, (∀ y, q.getLast? = some y → y.time ≠ e.time) → x.time = e.time → x.port = some r → e.port = some p →
    placeEntry (q ++ [x]) e = if p < r then q ++ [{ e with seq := x.seq }, { x with seq := e.seq }] else q ++ [x, e]) ∧
  (∀ c s g p, s.turret.queueLost = some g → 224 ≤ s.turret.queue.length → c.urgent = false → ∃ t, post p c s = t ∧
    t.turret.queue = s.turret.queue ∧ t.turret.queueLost = some ⟨g.count + 1, g.first, s.turret.queueSeq⟩)

/-! ## Powerline -/

/-- Medium access (R373 to R376, R380): the slots of a contention period, the frame that starts, its end, acknowledgement or timeout. -/
def Obligations.PlcMediumAccess : Prop :=
  (∀ d s, s.listens d = true → (s.band d).medium = .idle → ∃ t, exec (.preambleDetected d) s = .next t ∧
    (t.band d).medium = .receiving ∧ (t.band d).queue = (s.band d).queue ∧ t.band (otherBand d) = s.band (otherBand d)) ∧
  (∀ d s, s.up .cd8 = true → (s.band d).running = true → (s.band d).awaitingAck = false → (s.band d).medium = .ackSlot →
    ∃ t, exec (.contentionPeriod d) s = .next t ∧ (t.band d).medium = .contention ∧
      (t.band d).queue.length = (s.band d).queue.length ∧
      ∀ m ∈ (t.band d).queue, m.slot = none ∨ (∃ k, m.slot = some k ∧ k < 8) ∨ m.slot ∈ (s.band d).queue.map (·.slot)) ∧
  (∀ d s m, s.up .cd8 = true → (s.band d).running = true → (s.band d).medium = .contention → (s.band d).current = none →
    s.power.holdUp = false → firstSlot (s.band d).queue = some m → (s.band (otherBand d)).medium ≠ .receiving →
    s.canSecure m.security d = true → exec (.plcTransmitStart d) s = .next (startFrame d m s)) ∧
  (∀ d s m, s.up .cd8 = true → (s.band d).running = true → (s.band d).medium = .contention → (s.band d).current = none →
    s.power.holdUp = false → firstSlot (s.band d).queue = some m → (s.band (otherBand d)).medium = .receiving →
    ∃ t, exec (.plcTransmitStart d) s = .next t ∧ (t.band d).medium = .contention ∧ (t.band d).current = none ∧
      t.belfry.framesSent = s.belfry.framesSent) ∧
  (∀ d m s, m.security = .plain → ∃ t, startFrame d m s = t ∧ (t.band d).medium = .sending ∧
    (t.band d).queue = (s.band d).queue.erase m ∧ t.belfry.framesSent = w32 (s.belfry.framesSent + 1) ∧
    t.belfry.counter = s.belfry.counter) ∧
  (∀ d m s, m.security = .network → (startFrame d m s).belfry.counter = s.belfry.counter + 1 ∧
    s.belfry.counter < (startFrame d m s).belfry.reservedEnd) ∧
  (∀ d s m, s.up .cd8 = true → (s.band d).medium = .sending → (s.band d).current = some m → m.acked = true →
    exec (.plcTransmitEnd d) s =
      .next (settleBand (s.modBand d (fun b => { b with medium := .ackSlot, awaitingAck := true })) d)) ∧
  (∀ d s a, s.up .cd8 = true → (s.band d).ackDue = some a → (s.band d).running = true → (s.band d).medium = .ackSlot →
    s.power.holdUp = false → ∃ t, exec (.plcAckSend d) s = .next t ∧ (t.band d).ackDue = none ∧
      (t.band d).sequence = ((s.band d).sequence + 1) % 64 ∧ t.belfry.framesSent = s.belfry.framesSent) ∧
  (∀ d s m w hops, s.up .cd8 = true → (s.band d).awaitingAck = true → (s.band d).current = some m → m.purpose = .host w hops →
    ∃ t, exec (.acknowledgement d) s = .next (finish w stOk
      (le 1 0 ++ le 1 (m.attempts + 1) ++ le 1 hops ++ le 1 (bandNo d) ++ le 6 s.time) t) ∧
      (t.band d).awaitingAck = false ∧ (t.band d).current = none) ∧
  (∀ d s m, s.up .cd8 = true → (s.band d).awaitingAck = true → (s.band d).current = some m → m.attempts < 4 →
    ∃ t n, exec (.plcAckTimeout d) s = .next t ∧ n < 2 ^ (m.attempts + 1) ∧ (t.band d).awaitingAck = false ∧
      (t.band d).queue = (s.band d).queue ++ [{ m with attempts := m.attempts + 1, waitPeriods := n, slot := none }] ∧
      (t.band d).timedOut = true ∧ t.belfry.acksLate = s.belfry.acksLate) ∧
  (∀ d s, s.up .cd8 = true → (s.band d).awaitingAck = false → (s.band d).timedOut = true → ∃ t, exec (.acknowledgement d) s = .next t ∧
    t.belfry.acksLate = w32 (s.belfry.acksLate + 1) ∧ (t.band d).timedOut = false ∧ (t.band d).queue = (s.band d).queue) ∧
  (∀ d s, s.listens d = true → ∃ t, exec (.plcHeaderCheckFailed d) s = .next (settleBand t d) ∧ (t.band d).medium = .ackSlot ∧
    (t.band d).ackDue = none ∧ t.belfry.headersFailed = w32 (s.belfry.headersFailed + 1)) ∧
  (∀ d source x snrs s, s.listens d = true → s.checkPasses d source x (snrs.headD []) = false → s.neighbourOf source = none →
    ∃ t, exec (.plcFrameCheckFailed d source x snrs) s = .next (settleBand t d) ∧ (t.band d).medium = .ackSlot ∧ (t.band d).ackDue = none ∧
      t.belfry.symbolsErased = w32 (s.belfry.symbolsErased + erasedIn x.energies)) ∧
  (∀ d source x snrs s, s.checkPasses d source x (snrs.headD []) = true → exec (.plcFrameCheckFailed d source x snrs) s = .next s) ∧
  (∀ (s : State) d source x snr, x.mapIndex = none → (s.checkPasses d source x snr = true ↔
    100 * erasedIn x.energies ≤ 15 * x.energies.length ∧ mapMet d (robustMap d) snr = true))

/-- Tone maps, routes and neighbours (R377, R378, R383 to R385). -/
def Obligations.PlcMapsAndRoutes : Prop :=
  (∀ d f s, s.listens d = true → acceptSecured d f (endReception d 2 f s) = none →
    exec (.toneMapUpdate d f) s = .next (settleBand (endReception d 2 f s) d)) ∧
  (∀ d f s t e i m, s.listens d = true → acceptSecured d f (endReception d 2 f s) = some t → f.final = 0 →
    updateOf f.data = some (e, i, m) → exec (.toneMapUpdate d f) s =
      .next (settleBand (raiseLink f.source e .send 1 i (modLinkDir f.source e .send (LinkDir.install i t.now m) t)) d)) ∧
  (∀ i now m x, (LinkDir.install i now m x).current = some i ∧ (LinkDir.install i now m x).forcedRobust = false) ∧
  (∀ d slot snrs m s c b, s.neighbourAt slot = some (c, b) → s.up .cd8 = true → (s.band d).running = true →
    (b.dir d .receive).traffic = true → (b.dir d .receive).lastMapAt + 60000 ≤ s.now → mapOf d snrs = some m →
    exec (.toneMapRefresh d slot snrs) s = .next (sendMap b.address d m s)) ∧
  (∀ d snrs m, mapOf d snrs = some m → 8 ≤ mapActive d m) ∧
  (∀ d slot x (i : Fin 4) s c b k, s.neighbourAt slot = some (c, b) → s.up .cd8 = true → (b.dir d x).maps[i.val]? = some k →
    k.map.isSome = true → k.used + 300000 ≤ s.now → exec (.toneMapLapse d slot x i) s =
      .next (raiseLink b.address d x 3 i.val (modLinkDir b.address d x (fun v => { v with
        maps := v.maps.set i.val MapSlot.empty, current := if v.current = some i.val then none else v.current }) s))) ∧
  (∀ d f s t, s.listens d = true → acceptSecured d f (endReception d 0 f s) = some t → f.final = 0xFFFF → f.originator ≠ 0 →
    field f.data 0 2 = 0 → field f.data 6 1 < 8 → t.belfry.relayed = [] →
    exec (.routeReq d f) s = .next (settleBand (noteReply f.originator (field f.data 2 2)
      (field f.data 4 2 + t.hopCost d f.source .receive) f.source d true
      (addRoute ⟨f.originator, f.source, d, field f.data 6 1 + 1, field f.data 4 2 + t.hopCost d f.source .send, t.time, t.now⟩
        (t.withBelfry { t.belfry with relayed := [(f.originator, field f.data 2 2,
          field f.data 4 2 + t.hopCost d f.source .receive)] }))) d)) ∧
  (∀ d f s t, s.listens d = true → acceptSecured d f (endReception d 0 f s) = some t → f.final = 0 → field f.data 6 1 < 8 →
    t.belfry.discoveries = [] → exec (.routeRep d f) s = .next (settleBand (addRoute ⟨field f.data 0 2, f.source, d, field f.data 6 1 + 1,
      field f.data 4 2 + t.hopCost d f.source .send, t.time, t.now⟩ t) d)) ∧
  (∀ r s, r ∈ (addRoute r s).belfry.routes ∧
    ∀ x ∈ (addRoute r s).belfry.routes, x = r ∨ (x ∈ s.belfry.routes ∧ x.destination ≠ r.destination)) ∧
  (∀ id s r, s.up .cd8 = true → s.belfry.replies = [r] → r.id = id → r.dueAt ≤ s.now → exec (.routeReplyDue id) s =
    .next (enqueue r.band { plcMessage 0x71 1 r.origin .network (routeData 0 r.id 0 0) .own with nextHop := r.via }
      (s.withBelfry { s.belfry with replies := [] }))) ∧
  (∀ target s x, s.up .cd8 = true → s.belfry.discoveries = [x] → x.target = target → x.startedAt + 2000 ≤ s.now → x.floods = 1 →
    exec (.routeRequestTimeout target) s = .next (flood (routeRequest target x.id) (s.withBelfry { s.belfry with
      discoveries := [{ x with floods := 2, startedAt := s.now }] }))) ∧
  (∀ target s x m w h, s.up .cd8 = true → s.belfry.discoveries = [x] → x.target = target → x.startedAt + 2000 ≤ s.now →
    x.floods = 2 → x.messages = [m] → m.originator = 0 → m.purpose = .host w h → m.prefer = 0 →
    exec (.routeRequestTimeout target) s = .next (finish w stOk
      (le 1 1 ++ le 1 m.attempts ++ le 1 h ++ le 1 0 ++ le 6 s.time)
      (dropRoute m.final (s.withBelfry { s.belfry with discoveries := [] })))) ∧
  (∀ d f s t, s.listens d = true → acceptSecured d f (endReception d 0 f s) = some t → f.final = 0 →
    exec (.routeErr d f) s = .next (settleBand (dropRoute (field f.data 0 2) t) d) ∧
    ∀ x ∈ (dropRoute (field f.data 0 2) t).belfry.routes, x.destination ≠ field f.data 0 2) ∧
  (∀ dest s r, s.up .cd8 = true → s.belfry.routes = [r] → r.destination = dest → r.lastUsedAt + 1800000 ≤ s.now →
    exec (.routeEntryLapse dest) s = .next (s.withBelfry { s.belfry with routes := [] })) ∧
  (∀ slot s c b, s.neighbourAt slot = some (c, b) → s.up .cd8 = true → b.lastHeardAt + 600000 ≤ s.now →
    exec (.neighbourTimeout slot) s = .next (dropNeighbour c b s) ∧ (dropNeighbour c b s).belfry.nodes = s.belfry.nodes)

/-- Messages of nodes, the Drurus's own messages, and joining (R388, R390 to R392, R404). -/
def Obligations.PlcMessagesAndJoining : Prop :=
  (∀ d f s t, s.listens d = true → acceptSecured d f (endReception d 0 f s) = some t → f.final = 0 → f.type = 0x03 →
    exec (.gatewayReport d f) s = .next (settleBand (raiseReceived d f t) d)) ∧
  (∀ d f s t, s.listens d = true → acceptSecured d f (endReception d 0 f s) = some t → f.final = 0 → f.type = 0x04 →
    exec (.nodeStatus d f) s = .next (settleBand t d)) ∧
  (∀ d f s t, s.listens d = true → acceptSecured d f (endReception d 0 f s) = some t → f.final = 0 → 0x10 ≤ f.type → f.type ≤ 0x1F →
    exec (.hostData d f) s = .next (settleBand (raiseReceived d f t) d)) ∧
  (∀ d f s t, s.listens d = true → acceptSecured d f (endReception d 0 f s) = some t → f.final = 0 → 0x20 ≤ f.type →
    exec (.hostData d f) s =
      .next (settleBand (t.withBelfry { t.belfry with unknownTypes := w32 (t.belfry.unknownTypes + 1) }) d)) ∧
  (∀ d f s, (f.secured = false ∨ f.micOk = false ∨ s.networkKey = none) → acceptSecured d f s = none) ∧
  (∀ p s n, s.up .cd8 = true → s.belfry.indicationDue[p] = true → s.belfry.nodes = [n] → n.kind = 1 → n.attr = p.val →
    ∃ t, exec (.portIndication p) s = .next (dispatch (plcMessage 0x01 1 n.address .network (s.indication p) .own) t) ∧
      t.belfry.indicationDue[p] = false ∧ t.belfry.indicationAt[p] = s.now) ∧
  (∀ s n, s.up .cd8 = true → s.cfg 0x0506 0 ≠ 0 → s.belfry.reportAt + s.cfg 0x0506 0 * 1000 ≤ s.now → s.belfry.nodes = [n] →
    n.kind = 2 → exec .energyReport s = .next (dispatch (plcMessage 0x02 1 n.address .network (s.energyData n.attr) .own)
      (s.withBelfry { s.belfry with reportAt := s.now }))) ∧
  (∀ s p, s.up .cd8 = true → s.belfry.pairing = some p → p.lastBeaconAt + 5000 ≤ s.now → exec .beacon s =
    .next (flood (plcMessage 0x78 1 0xFFFF .plain (le 2 s.belfry.networkId ++ le 2 s.pairingLeft ++ [0, 0]) .own)
      (s.withBelfry { s.belfry with pairing := some { p with lastBeaconAt := s.now } }))) ∧
  (∀ d f s p n a, s.listens d = true → s.belfry.pairing = some p → p.nodes.find? (fun x => x.1 == f.data.take 8) = some n →
    s.addressFor (f.data.take 8) = some a → f.type = 0x79 → f.data.length = 18 → s.belfry.nodes.length < 250 →
    s.networkKey.isSome = true → s.cupola.rngHealthy = true → s.belfry.joins = [] → s.bandEnabled d = true → ∃ t nd, exec (.joinReq d f) s = .next t ∧
      t.belfry.joins = [⟨f.data.take 8, a, field f.data 8 1, field f.data 9 1, nd, s.now + 10000⟩] ∧
      t.belfry.nodes = s.belfry.nodes ∧ (t.band d).queue.length = (s.band d).queue.length + 1) ∧
  (∀ d f s j, s.listens d = true → s.belfry.joins = [j] → j.eui = f.data.take 8 → j.nd = slice f.data 8 8 → s.now ≤ j.deadline →
    f.type = 0x7B → f.secured = true → f.micOk = true → s.networkKey.isSome = true → f.data.length = 16 → f.destination = 0 →
    s.bandEnabled d = true → ¬ f.source ∈ (s.band d).dropped → (∃ c x, s.neighbourOf f.source = some (c, x) ∧ x.rxCounter < f.counter) →
    ∃ t, exec (.joinConfirm d f) s = .next t ∧ ⟨j.eui, j.address, j.kind, j.attr, s.time⟩ ∈ t.belfry.nodes ∧ t.belfry.joins = []) ∧
  (∀ d f s c x, s.neighbourOf f.source = some (c, x) → f.counter ≤ x.rxCounter → acceptSecured d f s = none) ∧
  (∀ d f s, f.source ∈ (s.band d).dropped → acceptSecured d f s = none) ∧
  (∀ address s j, s.up .cd8 = true → s.belfry.joins = [j] → j.address = address → j.deadline < s.now →
    exec (.joinConfirmTimeout address) s = .next (s.withBelfry { s.belfry with joins := [] })) ∧
  (∀ s p, s.up .cd8 = true → s.belfry.pairing = some p → p.endsAt ≤ s.now → exec .pairingWindowClose s =
    .next (raisePairing false p.joined (s.withBelfry { s.belfry with pairing := none })))

/-- The powerline commands (R391, R396 to R403). -/
def Obligations.PlcCommands : Prop :=
  (∀ b f r s, Asked b 0x0601 f r s → r.payload = [] → r.handle = 0 → s.up .cd8 = true →
    exec (.plcStatus b) s = .next (respond r stOk (taken b f s).plcStatus (taken b f s).draw)) ∧
  Answers .plcNeighbours 0x0602 (fun r s => r.payload.length = 4 ∧ r.handle = 0 ∧ 1 ≤ field r.payload 1 1 ∧ field r.payload 1 1 ≤ 24 ∧
      s.rotunda.rebuilding = [])
    (fun r s =>
      let x := s.neighboursFrom (field r.payload 1 1) ((List.range 256).drop (field r.payload 0 1))
      le 1 x.1.length ++ le 1 x.2 ++ [0, 0] ++ x.1.flatten) ∧
  Does .plcSend 0x0603 (fun r s => 9 ≤ r.payload.length ∧ r.payload.length ≤ 402 ∧ r.handle = 0 ∧ s.maySend r = true ∧
      1 ≤ field r.payload 0 2 ∧ field r.payload 0 2 ≤ 0xFA ∧ 1 ≤ field r.payload 2 1 ∧ field r.payload 2 1 ≤ 2 ∧
      field r.payload 3 1 ≤ 2 ∧ 0x10 ≤ field r.payload 4 1 ∧ field r.payload 4 1 ≤ 0x1F ∧ s.up .cd8 = true ∧
      (s.nodeOf (field r.payload 0 2)).isSome = true)
    (fun r s => dispatch { plcMessage (field r.payload 4 1) (field r.payload 2 1) (field r.payload 0 2) .network
      (r.payload.drop 8) (.host r.wait 0) with prefer := field r.payload 3 1 } (accept r s)) ∧
  Refuses .plcSend 0x0603 (fun r s => 9 ≤ r.payload.length ∧ r.payload.length ≤ 402 ∧ r.handle = 0 ∧ s.maySend r = false)
    stRoleDenied ∧
  Does .plcPairingOpen 0x0604 (fun r s => r.payload.length = 8 + 24 * field r.payload 2 1 ∧ r.handle = 0 ∧
      60 ≤ field r.payload 0 2 ∧ field r.payload 0 2 ≤ 600 ∧ 1 ≤ field r.payload 2 1 ∧ field r.payload 2 1 ≤ 4 ∧ s.up .cd8 = true ∧
      s.installerProof (field r.payload 4 4) = true)
    (fun r s => acceptDone r stOk (pairingState true (field r.payload 0 2))
      (raisePairing true 0 (markProofUsed (field r.payload 4 4) (s.withBelfry { s.belfry with
        pairing := some ⟨s.now + field r.payload 0 2 * 1000, pairingNodes r.payload (field r.payload 2 1), 0, 0⟩ })))) ∧
  Answers .plcRouteRead 0x0605 (fun r s => r.payload.length = 4 ∧ r.handle = 0 ∧ 1 ≤ field r.payload 1 1 ∧ field r.payload 1 1 ≤ 24 ∧
      s.up .cd8 = true)
    (fun r s =>
      let es := (s.belfry.routes.drop (field r.payload 0 1)).take (field r.payload 1 1)
      le 1 es.length ++ le 1 s.belfry.routes.length ++ [0, 0] ++ es.flatMap (fun x => le 2 x.destination ++ le 2 x.nextHop ++ le 1 (bandNo x.band)
        ++ le 1 x.hops ++ le 2 x.cost ++ le 6 x.lastUsed ++ [0, 0])) ∧
  (∀ b f r s c x, Asked b 0x0606 f r s → r.payload.length = 4 → r.handle ≠ 0 → (taken b f s).current r.handle = true →
    (taken b f s).channelOf r.handle = some c → c.body = .neighbour x → field r.payload 0 1 ≤ 1 → field r.payload 1 1 ≤ 1 →
    (field r.payload 2 1 ≤ 3 ∨ field r.payload 2 1 = 0xFF) → s.up .cd8 = true → handleSlot r.handle ∉ s.rotunda.rebuilding →
    let d : Band := if field r.payload 0 1 = 0 then .low else .upper
    let v := (x.dir d (if field r.payload 1 1 = 0 then .send else .receive)).view d (field r.payload 2 1) s.now
    exec (.plcTonemapRead b) s = .next (respond r stOk (r.payload.take 3 ++ le 1 v.1.rate ++ le 1 v.2.1 ++ [0] ++ le 2 v.2.2
      ++ le 2 (mapActive d v.1) ++ le 2 (mapSymbolBits d v.1) ++ v.1.carriers) (taken b f s))) ∧
  (∀ b f r s n, Asked b 0x0607 f r s → r.payload.length = 4 → r.handle = 0 → s.nodeOf (field r.payload 0 2) = some n →
    s.up .cd8 = true → ∃ t, exec (.plcNodeRemove b) s = .next (dispatch
      (plcMessage 0x7C 1 (field r.payload 0 2) .network (fit 8 n.eui) (.leave r.wait n.eui)) t) ∧
      t.belfry.joins = s.belfry.joins.filter (fun j => j.eui != n.eui) ∧ t.belfry.nodes = s.belfry.nodes)

/-! ## Reader -/

/-- The reader's rows (R405 to R408, R420, R423, R427, R428, R432, R549), what a tap of one tag comes to (R422, R427), an authentication that
fails (R418, R433), and what a keytag answers without SECURED and when it has no attempt left (R414, R415, R418). -/
def Obligations.ReaderRows : Prop :=
  (∀ a amp ph poll s, s.readerRuns = true → s.antennaOn a = true → (s.antenna a).presentation = none → s.pingDue a = true →
    (s.antenna a).triggers amp ph (s.cfg 0x0604 0) (s.cfg 0x0605 0) = false → ∃ t, exec (.readerPing a amp ph poll) s = .next t ∧
      (t.antenna a).amplitudes = (amp :: (s.antenna a).amplitudes).take 16 ∧
      (t.antenna a).phases = (ph :: (s.antenna a).phases).take 16 ∧ t.oculus.pings = w32 (s.oculus.pings + 1) ∧
      t.oculus.polls = s.oculus.polls ∧ (t.antenna a).lastPing = some s.now ∧ t.oculus.driven = none) ∧
  (∀ a amp ph poll s tag tags, s.readerRuns = true → s.antennaOn a = true → (s.antenna a).presentation = none → s.pingDue a = true →
    (s.antenna a).triggers amp ph (s.cfg 0x0604 0) (s.cfg 0x0605 0) = true → (s.polled poll).2 = tag :: tags →
    ∃ t, exec (.readerPing a amp ph poll) s =
        .next (treatTap a (w32 (s.oculus.lastTap + 1)) ((tag :: tags).map PresentedTag.fresh) t) ∧
      t.oculus.lastTap = w32 (s.oculus.lastTap + 1) ∧ t.oculus.sent = (s.polled poll).1 ∧ t.oculus.driven = some a ∧
      (t.antenna a).presentation = some ⟨(tag :: tags).map PresentedTag.fresh, w32 (s.oculus.lastTap + 1), 0, s.now, false⟩) ∧
  (∀ a amp ph poll s l, (s.antenna a).lastPing = some l → s.now < l + s.cfg 0x0603 0 → exec (.readerPing a amp ph poll) s = .next s) ∧
  (∀ a s p, s.up .cd9 = true → (s.antenna a).presentation = some p → p.checkedAt + 100 ≤ s.now → p.failedChecks = 2 →
    ∃ t, exec (.presentationCheck a false) s = .next t ∧ (t.antenna a).presentation = none ∧ t.oculus.driven = none ∧
      t.oculus.sent = p.tags.flatMap (fun x => checkFrames s.fullModulation x.tag)) ∧
  (∀ a s p x, (s.antenna a).presentation = some p → s.now < p.checkedAt + 100 → exec (.presentationCheck a x) s = .next s) ∧
  (∀ (s : State) poll, (s.polled poll).2.length ≤ 8 ∧ ∀ t ∈ (s.polled poll).2, t ∈ poll) ∧
  (∀ a s p, s.up .cd9 = true → (s.antenna a).presentation = some p → p.checkedAt + 100 ≤ s.now →
    ∃ t, exec (.presentationCheck a true) s = .next t ∧ (t.antenna a).presentation = some { p with
      failedChecks := 0, checkedAt := s.now, tags := p.tags.map PresentedTag.select } ∧ t.oculus.driven = some a) ∧
  (∀ tap s h, s.up .cd9 = true → s.oculus.held = [h] → h.tap = tap → h.at_ + 120000 < s.now →
    exec (.heldTapExpiry tap) s = .next (s.withOculus { s.oculus with held := [] })) ∧
  (∀ id s p, s.up .cd9 = true → s.oculus.proofs = [p] → p.id = id → p.at_ + 120000 ≤ s.now →
    exec (.proofExpiry id) s = .next (s.withOculus { s.oculus with proofs := [] })) ∧
  (∀ a s x, s.up .cd9 = true → s.oculus.reach = some x → x.antenna = a → x.lostAt + 300 < s.now → ∀ r,
    exec (.keytagReachAgain a r) s = .next (endReach x none s)) ∧
  (∀ a s x y, s.up .cd9 = true → s.oculus.reach = some x → x.antenna = a → s.now ≤ x.lostAt + 300 →
    s.mayAuthenticate x.uid = true → exec (.keytagReachAgain a (some y)) s = .next (endReach x (some y) s)) ∧
  (∀ a s c b, s.up .cd9 = true → s.txnOn a = some (c, b) → b.state = 0 → b.deadlineAt ≤ s.now →
    exec (.tagTxnTimeout a) s = .next (destroyChannel c 0x8021 4 (finish b.wait stTagAbsent (zeros 16) s))) ∧
  (∀ s, ∃ t, exec .vddtxLow s = .next t ∧ t.oculus.vddtxGood = false ∧ t.oculus.driven = none ∧ t.readerRuns = false ∧
    t.oculus.held = s.oculus.held ∧ t.oculus.proofs = s.oculus.proofs) ∧
  (∀ s, exec .vddtxRestored s = .next (s.withOculus { s.oculus with vddtxGood := true })) ∧
  (∀ s : State, s.oculus.vddtxGood = false → s.readerRuns = false) ∧
  (∀ (s : State) a, s.readerRuns = false ∨ s.oculus.driven = some (1 - a) → s.antennaLow a = true) ∧
  (∀ a x tap s, isKeytag x.tag = true → x.tag.attemptsLeft = 0 → x.tag.blank = false → treatSingle a x tap s = (⟨8, none, 0⟩, s)) ∧
  (∀ a x tap s, x.tag.attemptsLeft ≠ 0 → x.tag.kind = .keytagV2 → let u := (secureTag a x s).2
    (u.tagNow a x).passed = false → treatSingle a x tap s = (⟨7, none, 0⟩, u)) ∧
  (∀ a t s, (attempt a t s).1 = false → (attempt a t s).2.oculus.authFailures = w32 (s.oculus.authFailures + 1)) ∧
  (∀ a x tap s, x.tag.attemptsLeft ≠ 0 → x.tag.kind = .keytagV2 → let u := (secureTag a x s).2
    (u.tagNow a x).passed = true → (u.tagNow a x).tag.kind = .keytagV2 → roleIn (u.tagNow a x).tag = 2 →
    (treatSingle a x tap s).1.outcome = 5 ∧ (treatSingle a x tap s).1.port = none ∧ (treatSingle a x tap s).1.proof ≠ 0) ∧
  (∀ a x tap s e, x.tag.kind = .typeA → s.tagNow a x = x → s.listEntryFor x.tag = some e → e.deny = true →
    treatSingle a x tap s = (⟨9, none, 0⟩, s)) ∧
  (∀ a x tap s, x.tag.kind = .typeA → s.tagNow a x = x → s.listEntryFor x.tag = none → s.tapCandidates a x.tag.uid s.time = [] →
    treatSingle a x tap s = (⟨4, none, 0⟩, s)) ∧
  (∀ a x tap s p, x.tag.kind = .typeA → s.tagNow a x = x → s.listEntryFor x.tag = none → s.tapCandidates a x.tag.uid s.time = [p] →
    (treatSingle a x tap s).1 = ⟨2, none, 0⟩ ∧ ⟨tap, s.time, s.now, a, x.tag.uid⟩ ∈ (treatSingle a x tap s).2.oculus.held) ∧
  (∀ a x tap s p e, x.tag.kind = .typeA → s.tagNow a x = x → s.listEntryFor x.tag = some e → e.deny = false →
    s.tapCandidates a x.tag.uid s.time = [p] → s.canAuthorise = true →
    treatSingle a x tap s = (⟨1, some p, 0⟩, authorisePort p 2 e.capMa x.tag.uid s)) ∧
  (∀ g (x : PresentedTag) req, x.secured = false → field req 0 1 ∈ [0xB2, 0xB3, 0xB4] → (x.answer g req).1 = le 1 1 ∧
    (x.answer g req).2.tag = x.tag) ∧
  (∀ g (x : PresentedTag) req, x.secured = false → field req 0 1 = 0xB1 → 15 < field req 1 1 → (x.answer g req).1 = le 1 1) ∧
  (∀ g (x : PresentedTag) req, x.secured = false → x.tag.blank = false → x.tag.attemptsLeft = 0 → x.tag.kind = .keytagV2 →
    field req 0 1 ∈ [0xB5, 0xB6] → (x.answer g req).1 = le 1 4 ∧ (x.answer g req).2.secured = false) ∧
  (∀ g (x : PresentedTag) req, x.secured = false → x.tag.blank = false → x.tag.attemptsLeft ≠ 0 → x.tag.obliging = false →
    field req 0 1 = 0xB5 → slice req 1 4 ≠ x.tag.password → (x.answer g req).1 = le 1 3 ∧
    (x.answer g req).2.tag.attemptsLeft = x.tag.attemptsLeft - 1 ∧ (x.answer g req).2.secured = false)

/-- The reader's commands (R431 to R438). -/
def Obligations.ReaderCommands : Prop :=
  Answers .readerStatus 0x0701 (fun r s => r.payload = [] ∧ r.handle = 0 ∧ s.up .cd9 = true) (fun _ s =>
    let o := s.oculus
    le 1 (b1 s.readerRuns * 128 + b1 o.ant0.presentation.isSome * 64 + b1 o.ant1.presentation.isSome * 32)
      ++ le 1 o.pendingWrites.length ++ le 1 (o.held.filter (fun h => decide (s.now ≤ h.at_ + 120000))).length
      ++ le 1 (o.proofs.filter (fun p => !p.used && decide (s.now < p.at_ + 120000))).length
      ++ o.ant0.baseline ++ o.ant1.baseline ++ le 4 o.lastTap ++ le 2 o.list.length ++ [0, 0]
      ++ le 4 o.pings ++ le 4 o.polls ++ le 4 o.authFailures) ∧
  Does .tagRead 0x0702 (fun r s => r.payload.length = 16 ∧ r.handle = 0 ∧ field r.payload 0 1 = 0 ∧ field r.payload 1 1 ≤ 120 ∧
      field r.payload 2 1 = 0 ∧ field r.payload 3 1 + field r.payload 14 1 ≤ 64 ∧ 1 ≤ field r.payload 14 1 ∧ field r.payload 14 1 ≤ 8 ∧
      bit (s.cfg 0x0602 0) 0 = true ∧ s.up .cd9 = true)
    (fun r s => startTxn r 1 (field r.payload 1 1) [] 0 s) ∧
  Does .tagWrite 0x0703 (fun r s => r.payload.length = 16 + 36 * field r.payload 3 1 ∧ r.handle = 0 ∧ field r.payload 0 1 = 1 ∧
      field r.payload 1 1 ≤ 120 ∧ field r.payload 2 1 = 7 ∧ 1 ≤ field r.payload 3 1 ∧ field r.payload 3 1 ≤ 4 ∧
      (∀ e ∈ writeEntries r.payload (field r.payload 3 1), 1 ≤ e.1 ∧ e.1 ≤ 63) ∧
      bit (s.cfg 0x0602 0) 1 = true ∧ s.up .cd9 = true)
    (fun r s => startTxn r 2 (field r.payload 1 1) (slice r.payload 4 7) 1 s) ∧
  Does .tagProvision 0x0707 (fun r s => r.payload.length = 8 ∧ r.handle = 0 ∧ field r.payload 0 1 = 0 ∧ field r.payload 1 1 ≤ 120 ∧
      field r.payload 2 1 ≤ 1 ∧ 1 ≤ field r.payload 3 1 ∧ field r.payload 3 1 ≤ 3 ∧
      bit (s.cfg 0x0602 0) 0 = true ∧ s.up .cd9 = true)
    (fun r s => startTxn r 3 (field r.payload 1 1) [] 0 s) ∧
  (∀ r op wait uid a s x, s.txnOn a = some x → startTxn r op wait uid a s = respond r stBusy [] s) ∧
  (∀ r op wait uid a s h t, s.txnOn a = none → (s.antenna a).presentation = none → wait ≠ 0 →
    createChannel (.txn ⟨a, op, 0, false, uid, w48 (s.civil + wait * 1000), s.now + wait * 1000, 0, r.box, r.seq, r.opcode, r.epoch,
      r.payload⟩) (some r.box) r.role s = some (h, t) →
    startTxn r op wait uid a s = (respond r stAccepted (le 4 h) t).modBox r.box (fun m => { m with owed := m.owed + 1 })) ∧
  Answers .authlistRead 0x0704 (fun r s => r.payload.length = 4 ∧ r.handle = 0 ∧ field r.payload 0 2 + field r.payload 2 1 ≤ 512 ∧
      1 ≤ field r.payload 2 1 ∧ field r.payload 2 1 ≤ 13 ∧ s.up .cd9 = true)
    (fun r s => le 1 (field r.payload 2 1) ++ [0, 0, 0] ++ le 2 s.oculus.list.length ++ [0, 0]
      ++ ((List.range (field r.payload 2 1)).map (· + field r.payload 0 2)).flatMap s.authAt) ∧
  Does .authlistWrite 0x0705 (fun r s => r.payload.length = 4 ∧ r.handle = 0 ∧ field r.payload 0 1 = 2 ∧ field r.payload 1 1 = 0 ∧
      s.up .cd9 = true)
    (fun r s => acceptDone r stOk (zeros 4) (s.withOculus { s.oculus with list := [], listTwin := s.oculus.listTwin.write s.oculus.list })) ∧
  (∀ b f r s h p, Asked b 0x0706 f r s → r.payload.length = 12 → r.handle = 0 → field r.payload 5 1 = 0 →
    portOf (field r.payload 4 1) = some p → capOk (field r.payload 8 4) = true → s.up .cd9 = true → s.oculus.held = [h] →
    h.tap = field r.payload 0 4 → s.now ≤ h.at_ + 120000 → s.rotunda.silent = false →
    s.isTapCandidate h.antenna h.uid h.time p = true → ∃ t, exec (.bindPort b) s =
        .next (finish r.wait stOk (le 4 (t.lane p).session) t) ∧
      t = authorisePort p 3 (field r.payload 8 4) h.uid (accept r (dropHeld h.tap (taken b f s))))

/-! ## Cupola -/

/-- The key commands (R445 to R449, R456). -/
def Obligations.KeyCommands : Prop :=
  Answers .keyStatus 0x0901 (fun r _ => r.payload = [] ∧ r.handle = 0) (fun _ s => s.keyStatusBody) ∧
  (∀ b f r s i key, Asked b 0x0902 f r s → r.payload.length = 28 → r.handle = 0 → slotIx (field r.payload 0 1) = some i →
    i.val ≠ 5 → field r.payload 1 1 = 0 → s.cupolaRefusal = none →
    keyUnwrap ((taken b f s).sessionKey r.box) (slice r.payload 4 24) = some key → ∃ t, exec (.keyStage b) s = .next t ∧
      (t.keySlot i).staged = some key ∧ (t.keySlot i).verified = false ∧ (t.keySlot i).key = (s.keySlot i).key ∧
      (t.keySlot i).generation = (s.keySlot i).generation) ∧
  (∀ b f r s i key, Asked b 0x0903 f r s → r.payload.length = 36 → r.handle = 0 → slotIx (field r.payload 0 1) = some i →
    s.cupolaRefusal = none → (s.keySlot i).staged = some key → fromLe (keyCheck key) = (s.keySlot i).stagedCheck →
    isZero (slice r.payload 20 16) = true → exec (.keyVerify b) s = .next (acceptDone r stOk (cmac key (slice r.payload 4 16))
      ((taken b f s).setKeySlot i { s.keySlot i with verified := true }))) ∧
  (∀ b f r s i key, Asked b 0x0904 f r s → r.payload.length = 8 → r.handle = 0 → slotIx (field r.payload 0 1) = some i → i.val ≠ 5 →
    s.cupolaRefusal = none → (s.keySlot i).staged = some key → (s.keySlot i).verified = true →
    field r.payload 4 4 = (s.keySlot i).stagedCheck → ∃ t, exec (.keyCommit b) s = .next t ∧ (t.keySlot i).key = some key ∧
      (t.keySlot i).generation = w16 ((s.keySlot i).generation + 1) ∧ (t.keySlot i).staged = none ∧
      (∀ j, j ≠ i → t.keySlot j = s.keySlot j)) ∧
  (∀ b f r s i key, Asked b 0x0904 f r s → r.payload.length = 8 → r.handle = 0 → slotIx (field r.payload 0 1) = some i →
    s.cupolaRefusal = none → (s.keySlot i).staged = some key → (s.keySlot i).verified = false →
    exec (.keyCommit b) s = .next (respond r stRefusedState [] (taken b f s))) ∧
  (∀ b f r s i key, Asked b 0x0905 f r s → r.payload.length = 4 → r.handle = 0 → slotIx (field r.payload 0 1) = some i →
    s.cupolaRefusal = none → (s.keySlot i).staged = some key → exec (.keyAbort b) s = .next (acceptDone r stOk []
      ((taken b f s).setKeySlot i { s.keySlot i with staged := none, verified := false })))

/-- Cupola's own rows (R443, R449 to R454): re-anchoring, the random generator, destruction, and re-provisioning. -/
def Obligations.EnclaveRows : Prop :=
  (∀ s t0, s.up .cd7 = true → s.cupola.retiringUntil = some t0 → t0 ≤ s.now → ∃ t, exec .retiringKeyErase s = .next t ∧
    (t.keySlot 5).retiring = none ∧ (t.keySlot 5).key = (s.keySlot 5).key ∧ t.cupola.retiringUntil = none) ∧
  (∀ tries s w offset e, s.up .cd7 = true → s.cupola.rootOk = true → s.cupola.zeroized = false → s.reanchorDue = true →
    s.cupola.reanchorAfter ≤ s.now → s.legal.signing = [] → s.cupola.reanchorByBits = false →
    reanchorSearch s.cupola.secret 4 s.cupola.window tries = some (w, offset, e) → ∃ t, exec (.reanchoring tries) s = .next t ∧ t.cupola.window = w ∧
      t.cupola.anchorTime = s.time ∧ t.cupola.anchorSeq = w32 (s.cupola.anchorSeq + 2) ∧ t.cupola.reanchorDue = false ∧
      t.cupola.slots = s.cupola.slots) ∧
  (∀ tries s, s.up .cd7 = true → s.cupola.rootOk = true → s.cupola.zeroized = false → s.reanchorDue = true →
    s.cupola.reanchorAfter ≤ s.now → s.legal.signing = [] → s.cupola.reanchorByBits = false →
    reanchorSearch s.cupola.secret 4 s.cupola.window tries = none → ∃ t, exec (.reanchoring tries) s = .next t ∧ t.cupola.reanchorDue = true ∧
      t.cupola.reanchorAfter = s.now + 86400000 ∧ t.cupola.anchorSeq = s.cupola.anchorSeq ∧ t.cupola.window = s.cupola.window) ∧
  (∀ s, s.up .cd7 = true → exec .rngHealthFailure s = .next (s.withCupola { s.cupola with rngHealthy := false })) ∧
  (∀ s, s.up .cd7 = true → exec .rngHealthRestored s = .next (s.withCupola { s.cupola with rngHealthy := true })) ∧
  (∀ s, s.aon = true → exec (.destruction .temperature) s = .next (destroyKeys .temperature s)) ∧
  (∀ src s, (destroyKeys src s).cupola.zeroized = true ∧ (∀ i, ((destroyKeys src s).keySlot i).key = none ∧
    ((destroyKeys src s).keySlot i).staged = none) ∧ (destroyKeys src s).legal.signing = [] ∧
    ∀ b : HostPort, ((destroyKeys src s).box (hostBox b)).session.any (·.keyed) = false) ∧
  (∀ s, s.aon = true → s.power.inForce.mesh = 1 → s.cupola.meshFails = 0 →
    exec (.meshCheck false) s = .next (s.withCupola { s.cupola with meshFails := 1 })) ∧
  (∀ s, s.aon = true → s.power.inForce.mesh = 1 → s.cupola.meshFails ≠ 0 →
    exec (.meshCheck false) s = .next (destroyKeys .mesh (s.withCupola { s.cupola with meshFails := 0 }))) ∧
  (∀ c s, s.aon = true → -50 ≤ c → c ≤ 125 →
    exec (.temperatureCheck c) s = .next (s.withCupola { s.cupola with tempFails := 0 })) ∧
  (∀ c s, s.aon = true → (c < -50 ∨ 125 < c) → s.cupola.tempFails = 1 →
    exec (.temperatureCheck c) s = .next (destroyKeys .temperature (s.withCupola { s.cupola with tempFails := 0 }))) ∧
  (∀ p s, s.servesBox 4 = true → s.power.phase = .running → ∃ t, exec (.reProvisioning p) s = .next t ∧ t.cupola.zeroized = false ∧
    t.cupola.rootOk = true ∧ (∀ i, (t.keySlot i).key = some (fit 16 (p.keys.getD i.val []))) ∧ t.legal.certs = p.certificates)

/-! ## Memory, updates and Lantern -/

/-- Memory integrity (R459 to R475): lines read, buckets, the yearly refresh, retirement and the queries. -/
def Obligations.MemoryRows : Prop :=
  (∀ region line by_ s, s.up (regionClock region) = true → line < regionLines region.val →
    (s.memory.regions[region]).poisoned.contains line = false → by_.code ≠ 0xFE → isWalled region line by_ = false →
    exec (.scrubLine region line .good by_) s = .next s) ∧
  (∀ region line found by_ s, s.up (regionClock region) = true → line < regionLines region.val → isWalled region line by_ = true →
    ∃ t, exec (.scrubLine region line found by_) s = .next t ∧ t.memory.regions = s.memory.regions ∧
      t.power.eventLog = (s.power.eventLog ++ [(s.time, LoggedEvent.writeRefused line by_.code)]).drop (s.power.eventLog.length + 1 - 256)) ∧
  (∀ region line by_ s, s.up (regionClock region) = true → line < regionLines region.val →
    line ∉ (s.memory.regions[region]).poisoned → by_.code = 0xFE →
    exec (.scrubLine region line .refetched by_) s = .next (notePass region line 0xFE
      (recoverLine region 1 (line * 32) 0xFE (countAt (40 + region.val) 1 s)))) ∧
  (∀ region kind offset by_ s, ∃ t, recoverLine region kind offset by_ s = t ∧
    (t.memory.regions[region]).recovered = w32 ((s.memory.regions[region]).recovered + 1) ∧
    (t.memory.regions[region]).poisoned = (s.memory.regions[region]).poisoned) ∧
  (∀ region line by_ s, line ∉ (s.memory.regions[region]).poisoned → ∃ t, loseLine region line by_ true s = t ∧
    line ∈ (t.memory.regions[region]).poisoned ∧ (t.memory.regions[region]).bucket = s.bucketDepth ∧
    (t.memory.regions[region]).uncorrectable = w32 ((s.memory.regions[region]).uncorrectable + 1)) ∧
  (∀ s, ∃ t, exec .bucketLeak s = .next t ∧ ∀ i : Fin 8, (t.memory.regions[i]).bucket =
    if (s.memory.regions[i]).lastLeak + 600000 ≤ s.now then (s.memory.regions[i]).bucket - 1 else (s.memory.regions[i]).bucket) ∧
  (∀ page s, s.up .cd5 = true → s.power.holdUp = false → page = s.memory.refreshPage → page * 128 ∉ (s.memory.regions[(7 : Fin 8)]).poisoned →
    ∃ t, exec (.mramRefresh page .good) s = .next t ∧ t.memory.refreshPage = (if page + 1 = 1024 then 0 else page + 1) ∧
      t.memory.refreshDone = (if page + 1 = 1024 then s.time else s.memory.refreshDone)) ∧
  (∀ b f r s (i : Fin 8), Asked b 0x0A05 f r s → r.payload.length = 4 → r.handle = 0 → field r.payload 0 1 = i.val → i ≠ 4 → i ≠ 2 →
    s.retireRefusal i (field r.payload 2 2) = none →
    exec (.pageRetire b) s = .next (startRetirement i (field r.payload 2 2) r.wait (accept r (taken b f s)))) ∧
  (∀ s x, s.memory.retiring = some x → s.now < x.startedAt + 45 → settleRetirement s = s) ∧
  (∀ s x, s.memory.retiring = some x → x.startedAt + 45 ≤ s.now → (settleRetirement s).memory.retiring = none ∧
    (settleRetirement s).memory.regions[x.region].retired =
      s.memory.regions[x.region].retired ++ [(x.page, s.memory.regions[x.region].nextSpare)]) ∧
  Does .pageRetire 0x0A05 (fun r s => r.payload.length = 4 ∧ r.handle = 0 ∧ field r.payload 0 1 = 2 ∧
    s.retireRefusal 2 (field r.payload 2 2) = none) (fun r s => askSteeple 5 r.payload r s) ∧
  Answers .errorLogRead 0x0A06 (fun r _ => r.payload.length = 8 ∧ r.handle = 0 ∧ 1 ≤ field r.payload 4 1 ∧ field r.payload 4 1 ≤ 14)
    (fun r s =>
      let es := (s.memory.log.filter (fun e => decide (field r.payload 0 4 ≤ e.index))).take (field r.payload 4 1)
      le 1 es.length ++ zeros 3 ++ le 4 (s.memory.nextIndex - 1) ++ le 4 (s.memory.log.head?.elim 0 (·.index))
        ++ es.flatMap ErrorEntry.bytes) ∧
  Answers .memStatus 0x0A07 (fun r _ => r.payload = [] ∧ r.handle = 0) (fun _ s => s.memStatusBody)

/-- The service commands of firmware update: UPDATE_STATUS, UPDATE_CONFIRM, the owner lock, and a claim with its blocks, release and
activation request (R486, R487, R488, R489, R490, R491, R499, R502). -/
def Obligations.UpdateCommands : Prop :=
  Answers .updateStatus 0x0A01 (fun r _ => r.payload = [] ∧ r.handle = 0) (fun _ s => s.updateStatusBody) ∧
  Does .updateConfirm 0x0A02 (fun r s => r.payload.length = 32 ∧ r.handle = 0 ∧ s.update.selector.state = 2 ∧
      fit 32 s.update.selector.digest = r.payload ∧ s.power.holdUp = false)
    (fun r s => finish r.wait stOk [] (confirmTrial (accept r s))) ∧
  (∀ s, (confirmTrial s).update.selector.state = 0 ∧ (confirmTrial s).update.selector.previous = 0xFF ∧
    (confirmTrial s).update.fuses = max s.update.fuses s.activeBank.securityVersion ∧ (confirmTrial s).update.trialUntil = none ∧
    (confirmTrial s).update.selector.fuseTarget = 0 ∧ (confirmTrial s).rotunda.oldSettings = none) ∧
  (∀ b f r s, Asked b 0x0A03 f r s → r.payload.length = 4 → r.handle = 0 → s.ownerProof (field r.payload 0 4) = true →
    s.power.holdUp = false → ∃ t, exec (.ownerLock b) s = .next t ∧ t.update.ownerLock = true ∧ t.update.claim = none ∧ t.update.record = s.update.record) ∧
  (∀ b f r s, Asked b 0x0A04 f r s → r.payload.length = 4 → r.handle = 0 → s.ownerProof (field r.payload 0 4) = true →
    s.power.holdUp = false → ∃ t, exec (.ownerUnlock b) s = .next t ∧ t.update.ownerLock = false ∧ t.update.claim = s.update.claim) ∧
  (∀ b f r s, Asked b 0x0A10 f r s → r.payload.length = 44 → r.handle = 0 → s.update.ownerLock = false → s.update.claim = none →
    s.update.selector.state = 0 → s.update.fuses ≤ field r.payload 40 1 → 1 ≤ field r.payload 36 4 → field r.payload 36 4 ≤ bankSize →
    s.update.erasing = none → s.update.record = none → s.power.holdUp = false → ∃ t, exec (.updateClaim b) s = .next t ∧
      t.update.claim = some ⟨laneOf r.box, s.now⟩ ∧ t.update.record = none ∧ t.update.erasing =
        some ⟨⟨slice r.payload 0 32, field r.payload 36 4, field r.payload 40 1, slice r.payload 32 4, []⟩, laneOf r.box, r.wait⟩) ∧
  Refuses .updateClaim 0x0A10 (fun r s => r.payload.length = 44 ∧ r.handle = 0 ∧ s.update.ownerLock = true) stOwnerLocked ∧
  Refuses .updateClaim 0x0A10 (fun r s => r.payload.length = 44 ∧ r.handle = 0 ∧ s.update.ownerLock = false ∧ s.update.claim = none ∧
    s.update.selector.state = 0 ∧ field r.payload 40 1 < s.update.fuses) stRollback ∧
  (∀ b f r s x c, Asked b 0x0A11 f r s → r.payload.length = 2056 → r.handle = 0 → field r.payload 4 4 = crc32c (slice r.payload 8 2048) →
    s.update.record = some x → field r.payload 0 2 < blocksOf x.length → s.update.claim = some c → c.lane = laneOf r.box →
    field r.payload 0 2 ∉ x.blocks → s.power.holdUp = false → ∃ t, exec (.updateBlock b) s = .next t ∧
      t.update.record = some { x with blocks := x.blocks ++ [field r.payload 0 2] } ∧
      t.update.banks[s.update.spareIx].content =
        putBlockAt (field r.payload 0 2) (slice r.payload 8 2048) s.update.banks[s.update.spareIx].content) ∧
  (∀ b f r s c, Asked b 0x0A13 f r s → r.payload.length = 4 → r.handle = 0 → s.update.claim = some c → c.lane = laneOf r.box →
    field r.payload 0 1 = 0 → ∃ t, exec (.updateRelease b) s = .next t ∧ t.update.claim = none ∧ t.update.record = s.update.record) ∧
  (∀ b f r s, Asked b 0x0A12 f r s → r.payload.length = 32 → r.handle = 0 → s.activationRefusal (laneOf r.box) r.payload = none →
    s.update.activating = none → s.update.activationResetAt = none → s.power.phase = .running →
    ∃ t, exec (.updateActivate b) s = .next t ∧ t.update.activating = some (r.wait 0 r.payload) ∧
      t.keep.saveWanted = s.keep.saveWanted ++ [.activation])

/-- What follows the service commands: the erase, the save and the switch of the banks, the reset into the new bank, and the ends of a
claim, of a trial and of a fall-back's wait (R478, R486, R488, R492, R493, R496, R498). -/
def Obligations.UpdateRows : Prop :=
  (∀ s e, s.servesBox 4 = true → s.update.erasing = some e → s.power.holdUp = false → ∃ t, exec .bankEraseComplete s = .next t ∧ t.update.erasing = none ∧
    t.update.record = some e.record ∧ t.update.banks[s.update.spareIx] = Bank.reset false ∧
    t.update.banks[s.update.activeIx] = s.update.banks[s.update.activeIx]) ∧
  (∀ s w, s.update.activating = some w → s.servesBox 4 = true → s.activationSaved = true →
    s.activationRefusal (laneOf w.box) w.extra = none → exec .activationSaveComplete s = .next (switchBanks w s)) ∧
  (∀ w s, (switchBanks w s).update.selector.state = 1 ∧ (switchBanks w s).update.selector.active = s.update.spareIx.val ∧
    (switchBanks w s).update.claim = none ∧ (switchBanks w s).update.activationResetAt = some (s.now + 100)) ∧
  (∀ s t, s.update.activationResetAt = some t → s.servesBox 4 = true → t ≤ s.now → exec .activationReset s = .next (assertReset 12 s)) ∧
  (∀ s c, s.update.claim = some c → s.servesBox 4 = true → c.lastBlockAt + 300000 ≤ s.now →
    exec .claimTimeout s = .next (s.withUpdate { s.update with claim := none })) ∧
  (∀ s c mv, s.update.vbus = true → mv < 3800 → s.update.claim = some c → c.lane = 0 →
    exec (.svcVbusChange mv) s = .next (s.withUpdate { s.update with vbus := false, claim := none })) ∧
  (∀ s mv, s.update.vbus = true → 3800 ≤ mv → exec (.svcVbusChange mv) s = .next s) ∧
  (∀ s mv, s.update.vbus = false → exec (.svcVbusChange mv) s = .next (s.withUpdate { s.update with vbus := decide (4000 < mv) })) ∧
  (∀ s t, s.update.trialUntil = some t → s.servesBox 4 = true → s.update.selector.state = 2 → t ≤ s.now →
    s.power.holdUp = false → ∃ u, exec .trialExpiry s = .next u ∧ u.update.selector.state = 0 ∧ u.update.selector.active = s.update.spareIx.val ∧
      u.update.selector.lastResult = 5 ∧ u.update.fallback = some s.now) ∧
  (∀ s t, s.update.fallback = some t → s.servesBox 4 = true → s.switchClosed = false →
    exec .fallbackReset s = .next (assertReset 12 s)) ∧
  (∀ s t, s.update.fallback = some t → s.servesBox 4 = true → s.switchClosed = true → s.update.forced = false → t + 3600000 ≤ s.now →
    exec .fallbackForcedStop s = .next (stopAllSessions originService 0xFFF0 (s.withUpdate { s.update with forced := true })))

/-- Lantern (R559 to R568): a message with room is buffered under its source's sequence, one without is counted as lost; the LOST and
sync messages; the counters. -/
def Obligations.LanternRows : Prop :=
  (∀ (src : Fin 12) type content s, s.lanternUp = true → s.lantern.waiting src.val < 32 → s.lantern.lost[src] = 0 →
    ∃ t, trace src type content s = t ∧ t.lantern.buffer = s.lantern.buffer ++
      [⟨src.val, type, s.lantern.seqs[src], w32 s.lantern.tick, content⟩] ∧ t.lantern.seqs[src] = w8 (s.lantern.seqs[src] + 1)) ∧
  (∀ (src : Fin 12) type content s, s.lanternUp = true → 32 ≤ s.lantern.waiting src.val →
    ∃ t, trace src type content s = t ∧ t.lantern.buffer = s.lantern.buffer ∧ t.lantern.lost[src] = w16 (s.lantern.lost[src] + 1) ∧
      t.lantern.seqs[src] = w8 (s.lantern.seqs[src] + 1)) ∧
  (∀ (src : Fin 12) type content s, s.lanternUp = false → trace src type content s = s) ∧
  (∀ (src : Fin 12) s, s.lanternUp = true → s.lantern.lost[src] ≠ 0 → s.lantern.waiting src.val < 32 →
    ∃ t, exec (.traceLost src) s = .next t ∧ t.lantern.lost[src] = 0 ∧ t.lantern.buffer = s.lantern.buffer ++
      [⟨src.val, 0x7F, s.lantern.seqs[src], w32 s.lantern.tick, le 2 s.lantern.lost[src]⟩]) ∧
  (∀ s, s.lanternUp = true → s.lantern.syncDue = true → s.lantern.lost[(11 : Fin 12)] = 0 → s.lantern.waiting 11 < 32 →
    ∃ t, exec .traceSync s = .next t ∧ t.lantern.tick = s.lantern.tick ∧
      ∃ m, t.lantern.buffer = s.lantern.buffer ++ [m] ∧ m.type = 0x7E ∧ m.source = 11 ∧ m.tick = w32 s.lantern.syncTick) ∧
  Answers .counterRead 0x0A14 (fun r s => r.payload.length = 4 ∧ r.handle = 0 ∧ 1 ≤ field r.payload 1 1 ∧
      field r.payload 0 1 + field r.payload 1 1 ≤ 64 ∧ s.lantern.running = true)
    (fun r s => le 1 (field r.payload 0 1) ++ le 1 (field r.payload 1 1) ++ [0, 0] ++ le 8 s.lantern.tick
      ++ ((s.lantern.counters.toList.drop (field r.payload 0 1)).take (field r.payload 1 1)).flatMap (le 4)) ∧
  Refuses .counterRead 0x0A14 (fun r s => r.payload.length = 4 ∧ r.handle = 0 ∧ 1 ≤ field r.payload 1 1 ∧
      field r.payload 0 1 + field r.payload 1 1 ≤ 64 ∧ s.lantern.running = false) stRefusedState ∧
  Refuses .counterRead 0x0A14 (fun r _ => r.payload.length = 4 ∧ r.handle = 0 ∧ (field r.payload 1 1 = 0 ∨
      64 < field r.payload 0 1 + field r.payload 1 1)) stParamRange

/-! ## Clocks, restarts and power -/

/-- Clock monitors, watchdogs and block-level resets (R19 to R21, R504, R520, R521). -/
def Obligations.ClocksAndRestarts : Prop :=
  (∀ c s, s.monitored c = true → s.power.lostClocks.contains c = false → exec (.clockLost c) s = .next (loseClock c s)) ∧
  (∀ s, (loseClock .cd8 s).up .cd8 = false ∧ (loseClock .cd8 s).power.held.contains .cd8 = true ∧
    (loseClock .cd8 s).steeple = s.steeple) ∧
  (∀ s, loseClock .cd2 s = decideFault 0x0802 none [] false (markLost [.cd2] s)) ∧
  (∀ s, s.aon = true → s.power.lostClocks = [.cd8] → s.power.startupFaults = [] → s.power.restarting = [] →
    exec (.clockGood .cd8) s = .next (belfryRestart 8 ((s.withPower { s.power with lostClocks := [] }).withPower
      { s.power with lostClocks := [], held := dropClock .cd8 s.power.held }))) ∧
  (∀ s, s.aon = true → s.power.lostClocks = [.cd2] →
    exec (.clockGood .cd2) s = .next ((s.withPower { s.power with lostClocks := [] }).withSteeple
      { s.steeple with clocksGoodAt := s.now })) ∧
  (∀ s, s.steepleUp = true → exec .clockDeviation s =
    .next (decideFault 0x0803 none [] false (s.withSteeple { s.steeple with clocksGoodAt := s.now }))) ∧
  (∀ c s, s.power.phase = .supplied → s.now < s.power.suppliedAt + 2 → exec (.islandReleaseTimeout c) s = .next s) ∧
  (∀ c s, s.power.phase = .supplied → c ≠ .cd0 → s.power.suppliedAt + 2 ≤ s.now → ∃ t, exec (.islandReleaseTimeout c) s = .next t ∧
    t.power.startupFaults.contains c = true ∧ t.power.held.contains c = true) ∧
  (∀ s, s.up .cd5 = true → exec (.watchdogReset .rotunda) s = .next (rotundaRestart s)) ∧
  (∀ s, s.keepUp = true → exec (.watchdogReset .keep) s = .next (keepRestart s)) ∧
  (∀ s, s.up .cd8 = true → exec (.watchdogReset .belfry) s = .next (belfryRestart 8 s)) ∧
  (∀ s, s.up .cd9 = true → exec (.watchdogReset .oculus) s = .next (oculusRestart 9 s)) ∧
  (∀ s, (rotundaRestart s).power.lastRestart = 6 ∧ (rotundaRestart s).power.serveAt = some (s.now + 30) ∧ (∀ b : Box, ((rotundaRestart s).box b).session = none ∧
    ((rotundaRestart s).box b).stage = none ∧ ((rotundaRestart s).box b).inRing = []) ∧
    (rotundaRestart s).rotunda.committed = s.rotunda.committed ∧ (rotundaRestart s).steeple = s.steeple ∧
    (∀ p, (rotundaRestart s).lane p = s.lane p) ∧ ∀ c ∈ (rotundaRestart s).rotunda.channels, c.body.persistent = true) ∧
  (∀ b f r s x, Asked b 0x0115 f r s → r.payload.length = 4 → r.handle = 0 →
    resetTarget (field r.payload 0 1) (field r.payload 1 1) = some x → s.resettable x = true →
    exec (.blockReset b) s = .next (beginReset r x (taken b f s))) ∧
  (∀ b f r s x, Asked b 0x0115 f r s → r.payload.length = 4 → r.handle = 0 →
    resetTarget (field r.payload 0 1) (field r.payload 1 1) = some x → s.resettable x = false →
    exec (.blockReset b) s = .next (respond r stRefusedState [] (taken b f s))) ∧
  (∀ r p s, ((beginReset r (.cd2, some p) s).lane p).state = .disabled ∧ ((beginReset r (.cd2, some p) s).lane p).ctd = false ∧
    ((beginReset r (.cd2, some p) s).lane p).pbd = false ∧ ((beginReset r (.cd2, some p) s).lane p).enabled = (s.lane p).enabled) ∧
  (∀ s x rest, s.power.restarting = x :: rest → s.power.phase = .running → s.power.lostClocks.contains x.1 = false →
    exec .blockResetComplete s = .next (finish x.2.2 stOk [] (endReset_ x (s.withPower { s.power with
      restarting := rest, askedAt := s.power.askedAt.filter (fun y => y.1 != x.1) }))))

/-- Supplies, hold-up, Dormant and the sources of a device reset (R238, R504, R507 to R511, R522 to R526). -/
def Obligations.PowerRows : Prop :=
  (∀ b f r s, Asked b 0x0113 f r s → r.payload.length = 4 → r.handle = 0 → field r.payload 0 1 = 0 → s.anyBusy = false →
    s.shuttingDown = false → ∃ t, exec (.softReset b) s = .next t ∧
      t.power.shutdown = some ⟨false, false, true, s.now, r.wait⟩ ∧ t.keep.saveWanted = s.keep.saveWanted ++ [.softReset]) ∧
  Refuses .softReset 0x0113 (fun r s => r.payload.length = 4 ∧ r.handle = 0 ∧ field r.payload 0 1 = 0 ∧ s.anyBusy = true)
    stSwitchClosed ∧
  (∀ b f r s, Asked b 0x0114 f r s → r.payload.length = 4 → r.handle = 0 → field r.payload 0 1 = 0 → s.anyBusy = false →
    s.shuttingDown = false → ∃ t, exec (.dormant b) s = .next t ∧ t.power.shutdown = some ⟨true, false, true, s.now, r.wait⟩ ∧
      t.keep.saveWanted = s.keep.saveWanted ++ [.dormant] ∧ t.update.claim = none) ∧
  (∀ s d, s.power.shutdown = some d → d.waitingOpenings = true → d.startedAt + 60000 ≤ s.now →
    exec .shutdownOpeningsTimeout s = .next (finish d.request stSwitchClosed [] (s.withPower { s.power with shutdown := none }))) ∧
  (∀ s t, s.power.pendingReset = some t → s.aon = true → t ≤ s.now → exec .softResetExecute s = .next (assertReset 11 s)) ∧
  (∀ s t, s.power.pendingDormant = some t → s.aon = true → t ≤ s.now → s.power.holdUp = false → s.power.wakePending = false →
    ∃ u, exec .dormantEntry s = .next u ∧ u.power.phase = .commandedDormant ∧ u.power.cause = 13) ∧
  (∀ x s, s.powered = true → ∃ t, exec (.brownOut x) s = .next t ∧ t.power.phase = .dormant ∧ t.power.cause = brownOutCode x ∧
    ∀ p, t.permit p = false ∧ (t.lane p).ctd = false ∧ (t.lane p).pbd = false) ∧
  (∀ us s, us < 5 → exec (.resetNLow us) s = .next s) ∧
  (∀ us s, s.powered = true → s.power.resetNStuckLow = false → 20 ≤ us → exec (.resetNLow us) s = .next (assertReset 5 s)) ∧
  (∀ s, s.powered = true → s.power.resetNStuckLow = false → ∃ t, exec .resetNStuck s = .next t ∧ t.power.cause = 5 ∧
    t.power.resetStuck = true ∧ t.power.resetNStuckLow = true ∧
    t.power.eventLog = (s.power.eventLog ++ [(s.time, LoggedEvent.resetNStuck)]).drop (s.power.eventLog.length + 1 - 256)) ∧
  (∀ us s, s.power.resetNStuckLow = true → exec (.resetNLow us) s = .next s) ∧
  (∀ s, exec .resetNRearm s = .next (s.withPower { s.power with resetNStuckLow := false })) ∧
  (∀ s t, s.steeple.fatalAt = some t → s.power.phase = .running → t ≤ s.now → exec .steepleFatalReset s = .next (assertReset 10 s)) ∧
  (∀ s, s.power.phase = .off → ∃ t, exec .powerOn s = .next t ∧ t.power.phase = .heldReset ∧ t.power.cause = 1 ∧
    t.power.rtcLost = true ∧ t.keep.uncertain = true) ∧
  (∀ s, (s.power.phase = .heldReset ∨ s.power.phase = .dormant) → ∃ t, exec .suppliesGood s = .next t ∧ t.power.phase = .supplied ∧
    t.steeple.suppliesGoodAt = s.now ∧ t.steeple.record = s.steeple.record) ∧
  (∀ s, s.power.phase = .commandedDormant → exec .wakeN s =
    .next (s.withPower { s.power with phase := .supplied, suppliedAt := s.now })) ∧
  (∀ low s, s.aon = true → exec (.vbakLow low) s = .next (s.withPower { s.power with vbakLow := low })) ∧
  (∀ s, s.power.phase = .dormant → exec .aonDomainStop s = .next (s.withPower { s.power with phase := .off })) ∧
  (∀ s, s.power.phase = .running → s.power.holdUp = false → ∃ t, exec .holdUpEntry s = .next t ∧ t.power.holdUp = true ∧
    t.power.powerOff = some s.time ∧ t.power.phase = .running ∧
    (s.keepUp = true → t.keep.mark = none ∧ t.keep.marking.isSome = true)) ∧
  (∀ s, s.power.holdUp = true → ∃ t, exec .holdUpEnd s = .next t ∧ t.power.holdUp = false ∧ t.power.powerOff = none ∧
    t.keep.mark = none ∧ t.keep.marking = none) ∧
  (∀ s, s.steepleUp = true → s.steeple.supplyStop = true → s.steeple.suppliesOut = [] → s.power.holdUp = false →
    s.steeple.suppliesGoodAt + 1000 ≤ s.now →
    exec .permitsRestored s = .next (grantPermits (s.withSteeple { s.steeple with supplyStop := false })))

/-- A device reset (R504 to R506, R511) clears the mailboxes, the lanes' drives, the volatile channels and Lantern, and keeps the
committed configuration, the safety parameters, the fault record, the keys in force, the legal log, the meter's save and the update
selector. -/
def Obligations.DeviceResetClearsAndKeeps : Prop :=
  ∀ cause s, let t := assertReset cause s
    t.power.cause = cause ∧ t.power.boots = w32 (s.power.boots + 1) ∧ t.power.assertedTime = s.time ∧
    (t.power.phase = .dormant ↔ cause = 2 ∨ cause = 3 ∨ cause = 4 ∨ cause = 15) ∧ t.serves = false ∧
    (∀ b : Box, (t.box b).session = none ∧ (t.box b).inRing = [] ∧ (t.box b).outRing = [] ∧ (t.box b).stage = none) ∧
    (∀ p, t.permit p = false ∧ (t.lane p).state = .disabled ∧ (t.lane p).ctd = false ∧ (t.lane p).pbd = false ∧
      (t.lane p).enabled = (s.lane p).enabled) ∧
    (∀ c ∈ t.rotunda.channels, c.body.persistent = true) ∧ t.lantern = Lantern.reset ∧ t.update.claim = none ∧
    t.rotunda.committed = s.rotunda.committed ∧ t.rotunda.applied = s.rotunda.committed ∧
    t.steeple.trips = s.steeple.trips ∧
    (cause ≠ 1 → cause ≠ 2 → cause ≠ 3 → cause ≠ 4 → cause ≠ 15 → t.steeple.committed = s.steeple.committed ∧
      t.steeple.hub = s.steeple.hub ∧ t.steeple.ports = s.steeple.ports ∧ t.steeple.nextIndex = s.steeple.nextIndex ∧
      t.steeple.record = s.steeple.record) ∧
    ((cause = 1 ∨ cause = 2 ∨ cause = 3 ∨ cause = 4 ∨ cause = 15) → t.steeple.committed = s.steeple.stored.block ∧
      t.steeple.hub = s.steeple.stored.hub ∧ t.steeple.ports = s.steeple.stored.ports ∧
      t.steeple.nextIndex = s.steeple.stored.nextIndex) ∧ t.legal.log = s.legal.log ∧ t.keep.saved = s.keep.saved ∧
    (∀ i, (t.keySlot i).key = (s.keySlot i).key ∧ (t.keySlot i).staged = none) ∧
    t.update.selector = s.update.selector ∧ t.update.record = s.update.record ∧ t.belfry.nodes = s.belfry.nodes ∧
    t.oculus.list = s.oculus.list ∧
    (s.oculus.reach = none → t.oculus.pendingWrites = s.oculus.pendingWrites)

/-- DEVICE_START (R442, R495, R513, R515, R517, R523): once the supplies are good and a bundle is bootable, the device runs, with the islands in
reset whose clock is not good, the newest valid option block in force, or the safe defaults, and the time of the start; where no bundle
verifies it enters recovery; before the supplies are good nothing happens. An island held stays in reset. -/
def Obligations.DeviceStartReleases : Prop :=
  (∀ f s u, s.power.phase = .supplied →
    bootCheck f (startCupola f.array ((s.startFaults f).contains .cd7) (logDuds (s.withPower s.power.loadOptions))) = some u →
    ∃ t, exec (.deviceStart f) s = .next t ∧ t.power.phase = .running ∧ t.power.held = s.startFaults f ∧
      t.power.inForce = s.power.newest.getD OptionBlock.safe ∧ t.power.bootAt = u.now) ∧
  (∀ f s, s.power.phase = .supplied →
    bootCheck f (startCupola f.array ((s.startFaults f).contains .cd7) (logDuds (s.withPower s.power.loadOptions))) = none →
    ∃ t, exec (.deviceStart f) s = .next t ∧ t.power.phase = .recovery ∧ t.serves = false ∧ t.power.held = s.startFaults f ∧
      t.power.inForce = s.power.newest.getD OptionBlock.safe ∧ t.power.bootAt = s.now ∧ t.rotunda = s.rotunda ∧ t.steeple = s.steeple) ∧
  (∀ f s, s.power.phase = .supplied → exec (.deviceStart f) s = .next (startDevice f s)) ∧
  (∀ f s, s.power.phase ≠ .supplied → exec (.deviceStart f) s = .next s) ∧
  (∀ (f : StartFacts) (s : State) c, c ≠ .cd0 → c ∈ f.faultedIslands → c ∈ allDomains → c ∈ s.startFaults f) ∧
  (∀ (f : StartFacts) (s : State), .crystal ∈ f.faultedIslands → ∀ c ∈ derivedClocks, c ∈ allDomains → c ≠ .cd0 → c ∈ s.startFaults f) ∧
  (∀ x : Power, (x.loadOptions).inForce = x.newest.getD OptionBlock.safe ∧ ((x.loadOptions).safeDefaults = true ↔ x.newest = none)) ∧
  (∀ c k (s : State), s.power.held.contains c = true → s.release c k = s)

/-- What reset leaves where the manual gives it: the device held in reset, no session, no lock-out, every drive off, no stage, no event
and no claim (R73, R140, R238, R257, R281, R486, R505). -/
def Obligations.ResetState : Prop :=
  State.reset.power.phase = .heldReset ∧ State.reset.pending = [] ∧ State.reset.serves = false ∧
  (∀ b : Box, (State.reset.box b).session = none ∧ (State.reset.box b).inRing = [] ∧ (State.reset.box b).outRing = []) ∧
  (∀ p : Port, State.reset.permit p = false ∧ (State.reset.lane p).state = .disabled ∧ (State.reset.lane p).ctd = false ∧
    (State.reset.lane p).pbd = false ∧ (State.reset.portLock p).active = false) ∧
  State.reset.steeple.committed = none ∧ State.reset.steeple.hub.active = false ∧ State.reset.update.claim = none ∧
  State.reset.rotunda.channels = [] ∧ State.reset.memory.log = [] ∧ State.reset.lantern.running = false
end

