-- ==== Sys2Proof/Laws/Link.lean ====
section
/-! SUPPORT. Frames, events and Lantern's messages touch only the link: mailboxes, Lantern and the always-on copy of last sequences. -/

namespace Sys2Proof.Machine

variable (s : State)

@[simp] theorem withLantern_unlinked (l : Lantern) : (s.withLantern l).unlinked = s.unlinked := rfl
@[simp] theorem setBox_unlinked (b : Box) (m : Mailbox) : (s.setBox b m).unlinked = s.unlinked := rfl
@[simp] theorem modBox_unlinked (b : Box) (f : Mailbox → Mailbox) : (s.modBox b f).unlinked = s.unlinked := rfl
@[simp] theorem modHost_unlinked (b : Box) (f : Mailbox → Mailbox) : (s.modHost b f).unlinked = s.unlinked := rfl
@[simp] theorem draw_unlinked : s.draw.unlinked = s.unlinked := rfl

@[simp] theorem count_unlinked (i : Fin 64) (n : Nat) : (count i n s).unlinked = s.unlinked := by
  unfold count
  split <;> rfl

@[simp] theorem countAt_unlinked (i n : Nat) : (countAt i n s).unlinked = s.unlinked := by
  unfold countAt
  split <;> simp

@[simp] theorem trace_unlinked (src : Fin 12) (type : Nat) (content : List Byte) :
    (trace src type content s).unlinked = s.unlinked := by
  unfold trace
  dsimp only
  repeat' split
  all_goals rfl

@[simp] theorem pushOut_unlinked (b : Box) (f : Frame) : (pushOut b f s).unlinked = s.unlinked := by
  simp [pushOut, traceFrame]

@[simp] theorem pushAll_unlinked (s : State) (b : Box) (fs : List Frame) : (pushAll b fs s).unlinked = s.unlinked := by
  unfold pushAll
  induction fs generalizing s with
  | nil => rfl
  | cons f fs ih => rw [List.foldl_cons, ih, pushOut_unlinked]

@[simp] theorem turnAway_unlinked (b : Box) (tag opcode status handle : Nat) :
    (turnAway b tag opcode status handle s).unlinked = s.unlinked := by simp [turnAway]

@[simp] theorem reply_unlinked (b : Box) (seq opcode status handle : Nat) (payload : List Byte) :
    (reply b seq opcode status handle payload s).unlinked = s.unlinked := by simp [reply]

@[simp] theorem respond_unlinked (r : Req) (status : Nat) (payload : List Byte) :
    (respond r status payload s).unlinked = s.unlinked := by simp [respond, traceResult]

@[simp] theorem refuse_unlinked (r : Req) (status : Nat) : (refuse r status s).unlinked = s.unlinked := by simp [refuse]

@[simp] theorem accept_unlinked (r : Req) : (accept r s).unlinked = s.unlinked := by simp [accept]

@[simp] theorem finish_unlinked (w : Waiting) (status : Nat) (payload : List Byte) :
    (finish w status payload s).unlinked = s.unlinked := by
  unfold finish
  split <;> simp [traceResult]

@[simp] theorem acceptDone_unlinked (r : Req) (status : Nat) (payload : List Byte) :
    (acceptDone r status payload s).unlinked = s.unlinked := by simp [acceptDone]

@[simp] theorem queueGap_unlinked (b : Box) : (queueGap b s).unlinked = s.unlinked := by
  unfold queueGap
  dsimp only
  split
  · split <;> simp
  · rfl

@[simp] theorem queueEvent_unlinked (b : Box) (e : Event) : (queueEvent b e s).unlinked = s.unlinked := by
  unfold queueEvent
  dsimp only
  split
  · simp
  · split
    · simp
    · split <;> simp

theorem foldl_unlinked {α : Type} (f : State → α → State) (h : ∀ a s, (f s a).unlinked = s.unlinked) (l : List α) (s : State) :
    (l.foldl f s).unlinked = s.unlinked := by
  induction l generalizing s with
  | nil => rfl
  | cons a l ih => rw [List.foldl_cons, ih, h]

@[simp] theorem raiseAlso_unlinked (o : Option Box) (e : Event) : (raiseAlso o e s).unlinked = s.unlinked :=
  foldl_unlinked _ (fun a s => by split <;> simp) _ _

@[simp] theorem raise_unlinked (code : Nat) (port : Option Port) (payload : List Byte) :
    (raise code port payload s).unlinked = s.unlinked := raiseAlso_unlinked ..

@[simp] theorem raiseTo_unlinked (b : Box) (e : Event) : (raiseTo b e s).unlinked = s.unlinked := by
  unfold raiseTo
  split <;> simp

@[simp] theorem raiseOthers_unlinked (b : Box) (e : Event) : (raiseOthers b e s).unlinked = s.unlinked :=
  foldl_unlinked _ (fun a s => by split <;> simp) _ _

@[simp] theorem popIn_unlinked (b : Box) : (popIn b s).unlinked = s.unlinked := modHost_unlinked ..
@[simp] theorem markValid_unlinked (b : Box) : (markValid b s).unlinked = s.unlinked := modHost_unlinked ..

@[simp] theorem useSeq_unlinked (b : Box) (f : Frame) : (useSeq b f s).unlinked = s.unlinked := by
  unfold useSeq
  split
  · rfl
  · exact modBox_unlinked ..

@[simp] theorem noteExecuted_unlinked (b : Box) (f : Frame) : (noteExecuted b f s).unlinked = s.unlinked := by
  unfold noteExecuted
  split
  · rfl
  · exact modBox_unlinked ..

/-- The always-on copies of the last sequences are outside what `unlinked` keeps. -/
theorem setAon_unlinked (v : Vector Nat 4) : (s.withPower { s.power with aonExecuted := v }).unlinked = s.unlinked := rfl

@[simp] theorem taken_unlinked (b : Box) (f : Frame) : (taken b f s).unlinked = s.unlinked := by
  unfold taken
  dsimp only
  split
  · rw [setAon_unlinked]; simp only [modHost_unlinked, noteExecuted_unlinked, useSeq_unlinked, markValid_unlinked, popIn_unlinked]
  · simp only [modHost_unlinked, noteExecuted_unlinked, useSeq_unlinked, markValid_unlinked, popIn_unlinked]

end Sys2Proof.Machine
end

