-- ==== Sys2Proof/Laws/Frames.lean ====
section
/-! SUPPORT. Frames, events and messages leave every island's registers alone: one lemma per operation and island. -/

namespace Sys2Proof.Machine

variable (s : State)

theorem unlinked_now {s t : State} (h : s.unlinked = t.unlinked)  : s.now = t.now := by
  have e := congrArg (fun u : State => u.now) h
  exact e
theorem unlinked_civil {s t : State} (h : s.unlinked = t.unlinked)  : s.civil = t.civil := by
  have e := congrArg (fun u : State => u.civil) h
  exact e
theorem unlinked_turret {s t : State} (h : s.unlinked = t.unlinked)  : s.turret = t.turret := by
  have e := congrArg (fun u : State => u.turret) h
  exact e
theorem unlinked_steeple {s t : State} (h : s.unlinked = t.unlinked)  : s.steeple = t.steeple := by
  have e := congrArg (fun u : State => u.steeple) h
  exact e
theorem unlinked_dsp {s t : State} (h : s.unlinked = t.unlinked)  : s.dsp = t.dsp := by
  have e := congrArg (fun u : State => u.dsp) h
  exact e
theorem unlinked_keep {s t : State} (h : s.unlinked = t.unlinked)  : s.keep = t.keep := by
  have e := congrArg (fun u : State => u.keep) h
  exact e
theorem unlinked_legal {s t : State} (h : s.unlinked = t.unlinked)  : s.legal = t.legal := by
  have e := congrArg (fun u : State => u.legal) h
  exact e
theorem unlinked_belfry {s t : State} (h : s.unlinked = t.unlinked)  : s.belfry = t.belfry := by
  have e := congrArg (fun u : State => u.belfry) h
  exact e
theorem unlinked_oculus {s t : State} (h : s.unlinked = t.unlinked)  : s.oculus = t.oculus := by
  have e := congrArg (fun u : State => u.oculus) h
  exact e
theorem unlinked_cupola {s t : State} (h : s.unlinked = t.unlinked)  : s.cupola = t.cupola := by
  have e := congrArg (fun u : State => u.cupola) h
  exact e
theorem unlinked_memory {s t : State} (h : s.unlinked = t.unlinked)  : s.memory = t.memory := by
  have e := congrArg (fun u : State => u.memory) h
  exact e
theorem unlinked_update {s t : State} (h : s.unlinked = t.unlinked)  : s.update = t.update := by
  have e := congrArg (fun u : State => u.update) h
  exact e
theorem unlinked_pending {s t : State} (h : s.unlinked = t.unlinked)  : s.pending = t.pending := by
  have e := congrArg (fun u : State => u.pending) h
  exact e
theorem unlinked_channels {s t : State} (h : s.unlinked = t.unlinked)  : s.rotunda.channels = t.rotunda.channels := by
  have e := congrArg (fun u : State => u.rotunda.channels) h
  exact e
theorem unlinked_supervisor {s t : State} (h : s.unlinked = t.unlinked)  : s.rotunda.supervisor = t.rotunda.supervisor := by
  have e := congrArg (fun u : State => u.rotunda.supervisor) h
  exact e
theorem unlinked_commits {s t : State} (h : s.unlinked = t.unlinked)  : s.rotunda.commits = t.rotunda.commits := by
  have e := congrArg (fun u : State => u.rotunda.commits) h
  exact e
theorem unlinked_ranks {s t : State} (h : s.unlinked = t.unlinked)  : s.rotunda.ranks = t.rotunda.ranks := by
  have e := congrArg (fun u : State => u.rotunda.ranks) h
  exact e
theorem unlinked_committed {s t : State} (h : s.unlinked = t.unlinked)  : s.rotunda.committed = t.rotunda.committed := by
  have e := congrArg (fun u : State => u.rotunda.committed) h
  exact e
theorem unlinked_generations {s t : State} (h : s.unlinked = t.unlinked)  : s.rotunda.generations = t.rotunda.generations := by
  have e := congrArg (fun u : State => u.rotunda.generations) h
  exact e
theorem unlinked_lastSlot {s t : State} (h : s.unlinked = t.unlinked)  : s.rotunda.lastSlot = t.rotunda.lastSlot := by
  have e := congrArg (fun u : State => u.rotunda.lastSlot) h
  exact e
theorem unlinked_phase {s t : State} (h : s.unlinked = t.unlinked)  : s.power.phase = t.power.phase := by
  have e := congrArg (fun u : State => u.power.phase) h
  exact e
theorem unlinked_held {s t : State} (h : s.unlinked = t.unlinked)  : s.power.held = t.power.held := by
  have e := congrArg (fun u : State => u.power.held) h
  exact e
theorem unlinked_lostClocks {s t : State} (h : s.unlinked = t.unlinked)  : s.power.lostClocks = t.power.lostClocks := by
  have e := congrArg (fun u : State => u.power.lostClocks) h
  exact e
theorem unlinked_inForce {s t : State} (h : s.unlinked = t.unlinked)  : s.power.inForce = t.power.inForce := by
  have e := congrArg (fun u : State => u.power.inForce) h
  exact e
theorem unlinked_holdUp {s t : State} (h : s.unlinked = t.unlinked)  : s.power.holdUp = t.power.holdUp := by
  have e := congrArg (fun u : State => u.power.holdUp) h
  exact e
theorem unlinked_option0 {s t : State} (h : s.unlinked = t.unlinked)  : s.power.option0 = t.power.option0 := by
  have e := congrArg (fun u : State => u.power.option0) h
  exact e
theorem unlinked_option1 {s t : State} (h : s.unlinked = t.unlinked)  : s.power.option1 = t.power.option1 := by
  have e := congrArg (fun u : State => u.power.option1) h
  exact e
theorem unlinked_published {s t : State} (h : s.unlinked = t.unlinked)  : s.rotunda.published = t.rotunda.published := by
  have e := congrArg (fun u : State => u.rotunda.published) h
  exact e
theorem unlinked_waiting {s t : State} (h : s.unlinked = t.unlinked)  : s.rotunda.waiting = t.rotunda.waiting := by
  have e := congrArg (fun u : State => u.rotunda.waiting) h
  exact e
theorem unlinked_nextRequest {s t : State} (h : s.unlinked = t.unlinked)  : s.rotunda.nextRequest = t.rotunda.nextRequest := by
  have e := congrArg (fun u : State => u.rotunda.nextRequest) h
  exact e
theorem unlinked_silent {s t : State} (h : s.unlinked = t.unlinked)  : s.rotunda.silent = t.rotunda.silent := by
  have e := congrArg (fun u : State => u.rotunda.silent) h
  exact e
theorem unlinked_serves {s t : State} (h : s.unlinked = t.unlinked)  : s.serves = t.serves := by
  have e := congrArg (fun u : State => u.serves) h
  exact e
theorem unlinked_turretUp {s t : State} (h : s.unlinked = t.unlinked)  : s.turretUp = t.turretUp := by
  have e := congrArg (fun u : State => u.turretUp) h
  exact e
theorem unlinked_aon {s t : State} (h : s.unlinked = t.unlinked)  : s.aon = t.aon := by
  have e := congrArg (fun u : State => u.aon) h
  exact e
theorem unlinked_steepleUp {s t : State} (h : s.unlinked = t.unlinked)  : s.steepleUp = t.steepleUp := by
  have e := congrArg (fun u : State => u.steepleUp) h
  exact e
theorem unlinked_dspUp {s t : State} (h : s.unlinked = t.unlinked)  : s.dspUp = t.dspUp := by
  have e := congrArg (fun u : State => u.dspUp) h
  exact e
theorem unlinked_keepUp {s t : State} (h : s.unlinked = t.unlinked)  : s.keepUp = t.keepUp := by
  have e := congrArg (fun u : State => u.keepUp) h
  exact e
theorem unlinked_time {s t : State} (h : s.unlinked = t.unlinked)  : s.time = t.time := by
  have e := congrArg (fun u : State => u.time) h
  exact e
theorem unlinked_lane {s t : State} (h : s.unlinked = t.unlinked) (p : Port) : s.lane p = t.lane p := by
  have e := congrArg (fun u : State => u.lane p) h
  exact e
theorem unlinked_up {s t : State} (h : s.unlinked = t.unlinked) (c : Clock) : s.up c = t.up c := by
  have e := congrArg (fun u : State => u.up c) h
  exact e

@[simp] theorem count_now (i : Fin 64) (n : Nat)  : (count i n s).now = s.now := unlinked_now (count_unlinked s i n) 
@[simp] theorem count_civil (i : Fin 64) (n : Nat)  : (count i n s).civil = s.civil := unlinked_civil (count_unlinked s i n) 
@[simp] theorem count_turret (i : Fin 64) (n : Nat)  : (count i n s).turret = s.turret := unlinked_turret (count_unlinked s i n) 
@[simp] theorem count_steeple (i : Fin 64) (n : Nat)  : (count i n s).steeple = s.steeple := unlinked_steeple (count_unlinked s i n) 
@[simp] theorem count_dsp (i : Fin 64) (n : Nat)  : (count i n s).dsp = s.dsp := unlinked_dsp (count_unlinked s i n) 
@[simp] theorem count_keep (i : Fin 64) (n : Nat)  : (count i n s).keep = s.keep := unlinked_keep (count_unlinked s i n) 
@[simp] theorem count_legal (i : Fin 64) (n : Nat)  : (count i n s).legal = s.legal := unlinked_legal (count_unlinked s i n) 
@[simp] theorem count_belfry (i : Fin 64) (n : Nat)  : (count i n s).belfry = s.belfry := unlinked_belfry (count_unlinked s i n) 
@[simp] theorem count_oculus (i : Fin 64) (n : Nat)  : (count i n s).oculus = s.oculus := unlinked_oculus (count_unlinked s i n) 
@[simp] theorem count_cupola (i : Fin 64) (n : Nat)  : (count i n s).cupola = s.cupola := unlinked_cupola (count_unlinked s i n) 
@[simp] theorem count_memory (i : Fin 64) (n : Nat)  : (count i n s).memory = s.memory := unlinked_memory (count_unlinked s i n) 
@[simp] theorem count_update (i : Fin 64) (n : Nat)  : (count i n s).update = s.update := unlinked_update (count_unlinked s i n) 
@[simp] theorem count_pending (i : Fin 64) (n : Nat)  : (count i n s).pending = s.pending := unlinked_pending (count_unlinked s i n) 
@[simp] theorem count_channels (i : Fin 64) (n : Nat)  : (count i n s).rotunda.channels = s.rotunda.channels := unlinked_channels (count_unlinked s i n) 
@[simp] theorem count_supervisor (i : Fin 64) (n : Nat)  : (count i n s).rotunda.supervisor = s.rotunda.supervisor := unlinked_supervisor (count_unlinked s i n) 
@[simp] theorem count_commits (i : Fin 64) (n : Nat)  : (count i n s).rotunda.commits = s.rotunda.commits := unlinked_commits (count_unlinked s i n) 
@[simp] theorem count_ranks (i : Fin 64) (n : Nat)  : (count i n s).rotunda.ranks = s.rotunda.ranks := unlinked_ranks (count_unlinked s i n) 
@[simp] theorem count_committed (i : Fin 64) (n : Nat)  : (count i n s).rotunda.committed = s.rotunda.committed := unlinked_committed (count_unlinked s i n) 
@[simp] theorem count_generations (i : Fin 64) (n : Nat)  : (count i n s).rotunda.generations = s.rotunda.generations := unlinked_generations (count_unlinked s i n) 
@[simp] theorem count_lastSlot (i : Fin 64) (n : Nat)  : (count i n s).rotunda.lastSlot = s.rotunda.lastSlot := unlinked_lastSlot (count_unlinked s i n) 
@[simp] theorem count_phase (i : Fin 64) (n : Nat)  : (count i n s).power.phase = s.power.phase := unlinked_phase (count_unlinked s i n) 
@[simp] theorem count_held (i : Fin 64) (n : Nat)  : (count i n s).power.held = s.power.held := unlinked_held (count_unlinked s i n) 
@[simp] theorem count_lostClocks (i : Fin 64) (n : Nat)  : (count i n s).power.lostClocks = s.power.lostClocks := unlinked_lostClocks (count_unlinked s i n) 
@[simp] theorem count_inForce (i : Fin 64) (n : Nat)  : (count i n s).power.inForce = s.power.inForce := unlinked_inForce (count_unlinked s i n) 
@[simp] theorem count_holdUp (i : Fin 64) (n : Nat)  : (count i n s).power.holdUp = s.power.holdUp := unlinked_holdUp (count_unlinked s i n) 
@[simp] theorem count_option0 (i : Fin 64) (n : Nat)  : (count i n s).power.option0 = s.power.option0 := unlinked_option0 (count_unlinked s i n) 
@[simp] theorem count_option1 (i : Fin 64) (n : Nat)  : (count i n s).power.option1 = s.power.option1 := unlinked_option1 (count_unlinked s i n) 
@[simp] theorem count_published (i : Fin 64) (n : Nat)  : (count i n s).rotunda.published = s.rotunda.published := unlinked_published (count_unlinked s i n) 
@[simp] theorem count_waiting (i : Fin 64) (n : Nat)  : (count i n s).rotunda.waiting = s.rotunda.waiting := unlinked_waiting (count_unlinked s i n) 
@[simp] theorem count_nextRequest (i : Fin 64) (n : Nat)  : (count i n s).rotunda.nextRequest = s.rotunda.nextRequest := unlinked_nextRequest (count_unlinked s i n) 
@[simp] theorem count_silent (i : Fin 64) (n : Nat)  : (count i n s).rotunda.silent = s.rotunda.silent := unlinked_silent (count_unlinked s i n) 
@[simp] theorem count_serves (i : Fin 64) (n : Nat)  : (count i n s).serves = s.serves := unlinked_serves (count_unlinked s i n) 
@[simp] theorem count_turretUp (i : Fin 64) (n : Nat)  : (count i n s).turretUp = s.turretUp := unlinked_turretUp (count_unlinked s i n) 
@[simp] theorem count_aon (i : Fin 64) (n : Nat)  : (count i n s).aon = s.aon := unlinked_aon (count_unlinked s i n) 
@[simp] theorem count_steepleUp (i : Fin 64) (n : Nat)  : (count i n s).steepleUp = s.steepleUp := unlinked_steepleUp (count_unlinked s i n) 
@[simp] theorem count_dspUp (i : Fin 64) (n : Nat)  : (count i n s).dspUp = s.dspUp := unlinked_dspUp (count_unlinked s i n) 
@[simp] theorem count_keepUp (i : Fin 64) (n : Nat)  : (count i n s).keepUp = s.keepUp := unlinked_keepUp (count_unlinked s i n) 
@[simp] theorem count_time (i : Fin 64) (n : Nat)  : (count i n s).time = s.time := unlinked_time (count_unlinked s i n) 
@[simp] theorem count_lane (i : Fin 64) (n : Nat) (port : Port) : (count i n s).lane port = s.lane port := unlinked_lane (count_unlinked s i n) port
@[simp] theorem count_up (i : Fin 64) (n : Nat) (clk : Clock) : (count i n s).up clk = s.up clk := unlinked_up (count_unlinked s i n) clk

@[simp] theorem countAt_now (i n : Nat)  : (countAt i n s).now = s.now := unlinked_now (countAt_unlinked s i n) 
@[simp] theorem countAt_civil (i n : Nat)  : (countAt i n s).civil = s.civil := unlinked_civil (countAt_unlinked s i n) 
@[simp] theorem countAt_turret (i n : Nat)  : (countAt i n s).turret = s.turret := unlinked_turret (countAt_unlinked s i n) 
@[simp] theorem countAt_steeple (i n : Nat)  : (countAt i n s).steeple = s.steeple := unlinked_steeple (countAt_unlinked s i n) 
@[simp] theorem countAt_dsp (i n : Nat)  : (countAt i n s).dsp = s.dsp := unlinked_dsp (countAt_unlinked s i n) 
@[simp] theorem countAt_keep (i n : Nat)  : (countAt i n s).keep = s.keep := unlinked_keep (countAt_unlinked s i n) 
@[simp] theorem countAt_legal (i n : Nat)  : (countAt i n s).legal = s.legal := unlinked_legal (countAt_unlinked s i n) 
@[simp] theorem countAt_belfry (i n : Nat)  : (countAt i n s).belfry = s.belfry := unlinked_belfry (countAt_unlinked s i n) 
@[simp] theorem countAt_oculus (i n : Nat)  : (countAt i n s).oculus = s.oculus := unlinked_oculus (countAt_unlinked s i n) 
@[simp] theorem countAt_cupola (i n : Nat)  : (countAt i n s).cupola = s.cupola := unlinked_cupola (countAt_unlinked s i n) 
@[simp] theorem countAt_memory (i n : Nat)  : (countAt i n s).memory = s.memory := unlinked_memory (countAt_unlinked s i n) 
@[simp] theorem countAt_update (i n : Nat)  : (countAt i n s).update = s.update := unlinked_update (countAt_unlinked s i n) 
@[simp] theorem countAt_pending (i n : Nat)  : (countAt i n s).pending = s.pending := unlinked_pending (countAt_unlinked s i n) 
@[simp] theorem countAt_channels (i n : Nat)  : (countAt i n s).rotunda.channels = s.rotunda.channels := unlinked_channels (countAt_unlinked s i n) 
@[simp] theorem countAt_supervisor (i n : Nat)  : (countAt i n s).rotunda.supervisor = s.rotunda.supervisor := unlinked_supervisor (countAt_unlinked s i n) 
@[simp] theorem countAt_phase (i n : Nat)  : (countAt i n s).power.phase = s.power.phase := unlinked_phase (countAt_unlinked s i n) 
@[simp] theorem countAt_held (i n : Nat)  : (countAt i n s).power.held = s.power.held := unlinked_held (countAt_unlinked s i n) 
@[simp] theorem countAt_lostClocks (i n : Nat)  : (countAt i n s).power.lostClocks = s.power.lostClocks := unlinked_lostClocks (countAt_unlinked s i n) 
@[simp] theorem countAt_inForce (i n : Nat)  : (countAt i n s).power.inForce = s.power.inForce := unlinked_inForce (countAt_unlinked s i n) 
@[simp] theorem countAt_holdUp (i n : Nat)  : (countAt i n s).power.holdUp = s.power.holdUp := unlinked_holdUp (countAt_unlinked s i n) 
@[simp] theorem countAt_serves (i n : Nat)  : (countAt i n s).serves = s.serves := unlinked_serves (countAt_unlinked s i n) 
@[simp] theorem countAt_turretUp (i n : Nat)  : (countAt i n s).turretUp = s.turretUp := unlinked_turretUp (countAt_unlinked s i n) 
@[simp] theorem countAt_aon (i n : Nat)  : (countAt i n s).aon = s.aon := unlinked_aon (countAt_unlinked s i n) 
@[simp] theorem countAt_steepleUp (i n : Nat)  : (countAt i n s).steepleUp = s.steepleUp := unlinked_steepleUp (countAt_unlinked s i n) 
@[simp] theorem countAt_lane (i n : Nat) (port : Port) : (countAt i n s).lane port = s.lane port := unlinked_lane (countAt_unlinked s i n) port
@[simp] theorem countAt_up (i n : Nat) (clk : Clock) : (countAt i n s).up clk = s.up clk := unlinked_up (countAt_unlinked s i n) clk

@[simp] theorem trace_now (i : Fin 12) (n : Nat) (c : List Byte)  : (trace i n c s).now = s.now := unlinked_now (trace_unlinked s i n c) 
@[simp] theorem trace_civil (i : Fin 12) (n : Nat) (c : List Byte)  : (trace i n c s).civil = s.civil := unlinked_civil (trace_unlinked s i n c) 
@[simp] theorem trace_turret (i : Fin 12) (n : Nat) (c : List Byte)  : (trace i n c s).turret = s.turret := unlinked_turret (trace_unlinked s i n c) 
@[simp] theorem trace_steeple (i : Fin 12) (n : Nat) (c : List Byte)  : (trace i n c s).steeple = s.steeple := unlinked_steeple (trace_unlinked s i n c) 
@[simp] theorem trace_dsp (i : Fin 12) (n : Nat) (c : List Byte)  : (trace i n c s).dsp = s.dsp := unlinked_dsp (trace_unlinked s i n c) 
@[simp] theorem trace_keep (i : Fin 12) (n : Nat) (c : List Byte)  : (trace i n c s).keep = s.keep := unlinked_keep (trace_unlinked s i n c) 
@[simp] theorem trace_legal (i : Fin 12) (n : Nat) (c : List Byte)  : (trace i n c s).legal = s.legal := unlinked_legal (trace_unlinked s i n c) 
@[simp] theorem trace_belfry (i : Fin 12) (n : Nat) (c : List Byte)  : (trace i n c s).belfry = s.belfry := unlinked_belfry (trace_unlinked s i n c) 
@[simp] theorem trace_oculus (i : Fin 12) (n : Nat) (c : List Byte)  : (trace i n c s).oculus = s.oculus := unlinked_oculus (trace_unlinked s i n c) 
@[simp] theorem trace_cupola (i : Fin 12) (n : Nat) (c : List Byte)  : (trace i n c s).cupola = s.cupola := unlinked_cupola (trace_unlinked s i n c) 
@[simp] theorem trace_memory (i : Fin 12) (n : Nat) (c : List Byte)  : (trace i n c s).memory = s.memory := unlinked_memory (trace_unlinked s i n c) 
@[simp] theorem trace_update (i : Fin 12) (n : Nat) (c : List Byte)  : (trace i n c s).update = s.update := unlinked_update (trace_unlinked s i n c) 
@[simp] theorem trace_pending (i : Fin 12) (n : Nat) (c : List Byte)  : (trace i n c s).pending = s.pending := unlinked_pending (trace_unlinked s i n c) 
@[simp] theorem trace_channels (i : Fin 12) (n : Nat) (c : List Byte)  : (trace i n c s).rotunda.channels = s.rotunda.channels := unlinked_channels (trace_unlinked s i n c) 
@[simp] theorem trace_supervisor (i : Fin 12) (n : Nat) (c : List Byte)  : (trace i n c s).rotunda.supervisor = s.rotunda.supervisor := unlinked_supervisor (trace_unlinked s i n c) 
@[simp] theorem trace_commits (i : Fin 12) (n : Nat) (c : List Byte)  : (trace i n c s).rotunda.commits = s.rotunda.commits := unlinked_commits (trace_unlinked s i n c) 
@[simp] theorem trace_ranks (i : Fin 12) (n : Nat) (c : List Byte)  : (trace i n c s).rotunda.ranks = s.rotunda.ranks := unlinked_ranks (trace_unlinked s i n c) 
@[simp] theorem trace_committed (i : Fin 12) (n : Nat) (c : List Byte)  : (trace i n c s).rotunda.committed = s.rotunda.committed := unlinked_committed (trace_unlinked s i n c) 
@[simp] theorem trace_generations (i : Fin 12) (n : Nat) (c : List Byte)  : (trace i n c s).rotunda.generations = s.rotunda.generations := unlinked_generations (trace_unlinked s i n c) 
@[simp] theorem trace_lastSlot (i : Fin 12) (n : Nat) (c : List Byte)  : (trace i n c s).rotunda.lastSlot = s.rotunda.lastSlot := unlinked_lastSlot (trace_unlinked s i n c) 
@[simp] theorem trace_phase (i : Fin 12) (n : Nat) (c : List Byte)  : (trace i n c s).power.phase = s.power.phase := unlinked_phase (trace_unlinked s i n c) 
@[simp] theorem trace_held (i : Fin 12) (n : Nat) (c : List Byte)  : (trace i n c s).power.held = s.power.held := unlinked_held (trace_unlinked s i n c) 
@[simp] theorem trace_lostClocks (i : Fin 12) (n : Nat) (c : List Byte)  : (trace i n c s).power.lostClocks = s.power.lostClocks := unlinked_lostClocks (trace_unlinked s i n c) 
@[simp] theorem trace_inForce (i : Fin 12) (n : Nat) (c : List Byte)  : (trace i n c s).power.inForce = s.power.inForce := unlinked_inForce (trace_unlinked s i n c) 
@[simp] theorem trace_holdUp (i : Fin 12) (n : Nat) (c : List Byte)  : (trace i n c s).power.holdUp = s.power.holdUp := unlinked_holdUp (trace_unlinked s i n c) 
@[simp] theorem trace_option0 (i : Fin 12) (n : Nat) (c : List Byte)  : (trace i n c s).power.option0 = s.power.option0 := unlinked_option0 (trace_unlinked s i n c) 
@[simp] theorem trace_option1 (i : Fin 12) (n : Nat) (c : List Byte)  : (trace i n c s).power.option1 = s.power.option1 := unlinked_option1 (trace_unlinked s i n c) 
@[simp] theorem trace_published (i : Fin 12) (n : Nat) (c : List Byte)  : (trace i n c s).rotunda.published = s.rotunda.published := unlinked_published (trace_unlinked s i n c) 
@[simp] theorem trace_waiting (i : Fin 12) (n : Nat) (c : List Byte)  : (trace i n c s).rotunda.waiting = s.rotunda.waiting := unlinked_waiting (trace_unlinked s i n c) 
@[simp] theorem trace_nextRequest (i : Fin 12) (n : Nat) (c : List Byte)  : (trace i n c s).rotunda.nextRequest = s.rotunda.nextRequest := unlinked_nextRequest (trace_unlinked s i n c) 
@[simp] theorem trace_silent (i : Fin 12) (n : Nat) (c : List Byte)  : (trace i n c s).rotunda.silent = s.rotunda.silent := unlinked_silent (trace_unlinked s i n c) 
@[simp] theorem trace_serves (i : Fin 12) (n : Nat) (c : List Byte)  : (trace i n c s).serves = s.serves := unlinked_serves (trace_unlinked s i n c) 
@[simp] theorem trace_turretUp (i : Fin 12) (n : Nat) (c : List Byte)  : (trace i n c s).turretUp = s.turretUp := unlinked_turretUp (trace_unlinked s i n c) 
@[simp] theorem trace_aon (i : Fin 12) (n : Nat) (c : List Byte)  : (trace i n c s).aon = s.aon := unlinked_aon (trace_unlinked s i n c) 
@[simp] theorem trace_steepleUp (i : Fin 12) (n : Nat) (c : List Byte)  : (trace i n c s).steepleUp = s.steepleUp := unlinked_steepleUp (trace_unlinked s i n c) 
@[simp] theorem trace_dspUp (i : Fin 12) (n : Nat) (c : List Byte)  : (trace i n c s).dspUp = s.dspUp := unlinked_dspUp (trace_unlinked s i n c) 
@[simp] theorem trace_keepUp (i : Fin 12) (n : Nat) (c : List Byte)  : (trace i n c s).keepUp = s.keepUp := unlinked_keepUp (trace_unlinked s i n c) 
@[simp] theorem trace_time (i : Fin 12) (n : Nat) (c : List Byte)  : (trace i n c s).time = s.time := unlinked_time (trace_unlinked s i n c) 
@[simp] theorem trace_lane (i : Fin 12) (n : Nat) (c : List Byte) (port : Port) : (trace i n c s).lane port = s.lane port := unlinked_lane (trace_unlinked s i n c) port
@[simp] theorem trace_up (i : Fin 12) (n : Nat) (c : List Byte) (clk : Clock) : (trace i n c s).up clk = s.up clk := unlinked_up (trace_unlinked s i n c) clk

@[simp] theorem pushOut_now (b : Box) (f : Frame)  : (pushOut b f s).now = s.now := unlinked_now (pushOut_unlinked s b f) 
@[simp] theorem pushOut_civil (b : Box) (f : Frame)  : (pushOut b f s).civil = s.civil := unlinked_civil (pushOut_unlinked s b f) 
@[simp] theorem pushOut_turret (b : Box) (f : Frame)  : (pushOut b f s).turret = s.turret := unlinked_turret (pushOut_unlinked s b f) 
@[simp] theorem pushOut_steeple (b : Box) (f : Frame)  : (pushOut b f s).steeple = s.steeple := unlinked_steeple (pushOut_unlinked s b f) 
@[simp] theorem pushOut_dsp (b : Box) (f : Frame)  : (pushOut b f s).dsp = s.dsp := unlinked_dsp (pushOut_unlinked s b f) 
@[simp] theorem pushOut_keep (b : Box) (f : Frame)  : (pushOut b f s).keep = s.keep := unlinked_keep (pushOut_unlinked s b f) 
@[simp] theorem pushOut_legal (b : Box) (f : Frame)  : (pushOut b f s).legal = s.legal := unlinked_legal (pushOut_unlinked s b f) 
@[simp] theorem pushOut_belfry (b : Box) (f : Frame)  : (pushOut b f s).belfry = s.belfry := unlinked_belfry (pushOut_unlinked s b f) 
@[simp] theorem pushOut_oculus (b : Box) (f : Frame)  : (pushOut b f s).oculus = s.oculus := unlinked_oculus (pushOut_unlinked s b f) 
@[simp] theorem pushOut_cupola (b : Box) (f : Frame)  : (pushOut b f s).cupola = s.cupola := unlinked_cupola (pushOut_unlinked s b f) 
@[simp] theorem pushOut_memory (b : Box) (f : Frame)  : (pushOut b f s).memory = s.memory := unlinked_memory (pushOut_unlinked s b f) 
@[simp] theorem pushOut_update (b : Box) (f : Frame)  : (pushOut b f s).update = s.update := unlinked_update (pushOut_unlinked s b f) 
@[simp] theorem pushOut_pending (b : Box) (f : Frame)  : (pushOut b f s).pending = s.pending := unlinked_pending (pushOut_unlinked s b f) 
@[simp] theorem pushOut_channels (b : Box) (f : Frame)  : (pushOut b f s).rotunda.channels = s.rotunda.channels := unlinked_channels (pushOut_unlinked s b f) 
@[simp] theorem pushOut_supervisor (b : Box) (f : Frame)  : (pushOut b f s).rotunda.supervisor = s.rotunda.supervisor := unlinked_supervisor (pushOut_unlinked s b f) 
@[simp] theorem pushOut_phase (b : Box) (f : Frame)  : (pushOut b f s).power.phase = s.power.phase := unlinked_phase (pushOut_unlinked s b f) 
@[simp] theorem pushOut_held (b : Box) (f : Frame)  : (pushOut b f s).power.held = s.power.held := unlinked_held (pushOut_unlinked s b f) 
@[simp] theorem pushOut_lostClocks (b : Box) (f : Frame)  : (pushOut b f s).power.lostClocks = s.power.lostClocks := unlinked_lostClocks (pushOut_unlinked s b f) 
@[simp] theorem pushOut_inForce (b : Box) (f : Frame)  : (pushOut b f s).power.inForce = s.power.inForce := unlinked_inForce (pushOut_unlinked s b f) 
@[simp] theorem pushOut_holdUp (b : Box) (f : Frame)  : (pushOut b f s).power.holdUp = s.power.holdUp := unlinked_holdUp (pushOut_unlinked s b f) 
@[simp] theorem pushOut_serves (b : Box) (f : Frame)  : (pushOut b f s).serves = s.serves := unlinked_serves (pushOut_unlinked s b f) 
@[simp] theorem pushOut_turretUp (b : Box) (f : Frame)  : (pushOut b f s).turretUp = s.turretUp := unlinked_turretUp (pushOut_unlinked s b f) 
@[simp] theorem pushOut_aon (b : Box) (f : Frame)  : (pushOut b f s).aon = s.aon := unlinked_aon (pushOut_unlinked s b f) 
@[simp] theorem pushOut_steepleUp (b : Box) (f : Frame)  : (pushOut b f s).steepleUp = s.steepleUp := unlinked_steepleUp (pushOut_unlinked s b f) 
@[simp] theorem pushOut_lane (b : Box) (f : Frame) (port : Port) : (pushOut b f s).lane port = s.lane port := unlinked_lane (pushOut_unlinked s b f) port
@[simp] theorem pushOut_up (b : Box) (f : Frame) (clk : Clock) : (pushOut b f s).up clk = s.up clk := unlinked_up (pushOut_unlinked s b f) clk

@[simp] theorem pushAll_now (b : Box) (f : List Frame)  : (pushAll b f s).now = s.now := unlinked_now (pushAll_unlinked s b f) 
@[simp] theorem pushAll_civil (b : Box) (f : List Frame)  : (pushAll b f s).civil = s.civil := unlinked_civil (pushAll_unlinked s b f) 
@[simp] theorem pushAll_turret (b : Box) (f : List Frame)  : (pushAll b f s).turret = s.turret := unlinked_turret (pushAll_unlinked s b f) 
@[simp] theorem pushAll_steeple (b : Box) (f : List Frame)  : (pushAll b f s).steeple = s.steeple := unlinked_steeple (pushAll_unlinked s b f) 
@[simp] theorem pushAll_dsp (b : Box) (f : List Frame)  : (pushAll b f s).dsp = s.dsp := unlinked_dsp (pushAll_unlinked s b f) 
@[simp] theorem pushAll_keep (b : Box) (f : List Frame)  : (pushAll b f s).keep = s.keep := unlinked_keep (pushAll_unlinked s b f) 
@[simp] theorem pushAll_legal (b : Box) (f : List Frame)  : (pushAll b f s).legal = s.legal := unlinked_legal (pushAll_unlinked s b f) 
@[simp] theorem pushAll_belfry (b : Box) (f : List Frame)  : (pushAll b f s).belfry = s.belfry := unlinked_belfry (pushAll_unlinked s b f) 
@[simp] theorem pushAll_oculus (b : Box) (f : List Frame)  : (pushAll b f s).oculus = s.oculus := unlinked_oculus (pushAll_unlinked s b f) 
@[simp] theorem pushAll_cupola (b : Box) (f : List Frame)  : (pushAll b f s).cupola = s.cupola := unlinked_cupola (pushAll_unlinked s b f) 
@[simp] theorem pushAll_memory (b : Box) (f : List Frame)  : (pushAll b f s).memory = s.memory := unlinked_memory (pushAll_unlinked s b f) 
@[simp] theorem pushAll_update (b : Box) (f : List Frame)  : (pushAll b f s).update = s.update := unlinked_update (pushAll_unlinked s b f) 
@[simp] theorem pushAll_pending (b : Box) (f : List Frame)  : (pushAll b f s).pending = s.pending := unlinked_pending (pushAll_unlinked s b f) 
@[simp] theorem pushAll_channels (b : Box) (f : List Frame)  : (pushAll b f s).rotunda.channels = s.rotunda.channels := unlinked_channels (pushAll_unlinked s b f) 
@[simp] theorem pushAll_supervisor (b : Box) (f : List Frame)  : (pushAll b f s).rotunda.supervisor = s.rotunda.supervisor := unlinked_supervisor (pushAll_unlinked s b f) 
@[simp] theorem pushAll_phase (b : Box) (f : List Frame)  : (pushAll b f s).power.phase = s.power.phase := unlinked_phase (pushAll_unlinked s b f) 
@[simp] theorem pushAll_held (b : Box) (f : List Frame)  : (pushAll b f s).power.held = s.power.held := unlinked_held (pushAll_unlinked s b f) 
@[simp] theorem pushAll_lostClocks (b : Box) (f : List Frame)  : (pushAll b f s).power.lostClocks = s.power.lostClocks := unlinked_lostClocks (pushAll_unlinked s b f) 
@[simp] theorem pushAll_inForce (b : Box) (f : List Frame)  : (pushAll b f s).power.inForce = s.power.inForce := unlinked_inForce (pushAll_unlinked s b f) 
@[simp] theorem pushAll_holdUp (b : Box) (f : List Frame)  : (pushAll b f s).power.holdUp = s.power.holdUp := unlinked_holdUp (pushAll_unlinked s b f) 
@[simp] theorem pushAll_serves (b : Box) (f : List Frame)  : (pushAll b f s).serves = s.serves := unlinked_serves (pushAll_unlinked s b f) 
@[simp] theorem pushAll_turretUp (b : Box) (f : List Frame)  : (pushAll b f s).turretUp = s.turretUp := unlinked_turretUp (pushAll_unlinked s b f) 
@[simp] theorem pushAll_aon (b : Box) (f : List Frame)  : (pushAll b f s).aon = s.aon := unlinked_aon (pushAll_unlinked s b f) 
@[simp] theorem pushAll_steepleUp (b : Box) (f : List Frame)  : (pushAll b f s).steepleUp = s.steepleUp := unlinked_steepleUp (pushAll_unlinked s b f) 
@[simp] theorem pushAll_lane (b : Box) (f : List Frame) (port : Port) : (pushAll b f s).lane port = s.lane port := unlinked_lane (pushAll_unlinked s b f) port
@[simp] theorem pushAll_up (b : Box) (f : List Frame) (clk : Clock) : (pushAll b f s).up clk = s.up clk := unlinked_up (pushAll_unlinked s b f) clk

@[simp] theorem reply_now (b : Box) (q o t h : Nat) (c : List Byte)  : (reply b q o t h c s).now = s.now := unlinked_now (reply_unlinked s b q o t h c) 
@[simp] theorem reply_civil (b : Box) (q o t h : Nat) (c : List Byte)  : (reply b q o t h c s).civil = s.civil := unlinked_civil (reply_unlinked s b q o t h c) 
@[simp] theorem reply_turret (b : Box) (q o t h : Nat) (c : List Byte)  : (reply b q o t h c s).turret = s.turret := unlinked_turret (reply_unlinked s b q o t h c) 
@[simp] theorem reply_steeple (b : Box) (q o t h : Nat) (c : List Byte)  : (reply b q o t h c s).steeple = s.steeple := unlinked_steeple (reply_unlinked s b q o t h c) 
@[simp] theorem reply_dsp (b : Box) (q o t h : Nat) (c : List Byte)  : (reply b q o t h c s).dsp = s.dsp := unlinked_dsp (reply_unlinked s b q o t h c) 
@[simp] theorem reply_keep (b : Box) (q o t h : Nat) (c : List Byte)  : (reply b q o t h c s).keep = s.keep := unlinked_keep (reply_unlinked s b q o t h c) 
@[simp] theorem reply_legal (b : Box) (q o t h : Nat) (c : List Byte)  : (reply b q o t h c s).legal = s.legal := unlinked_legal (reply_unlinked s b q o t h c) 
@[simp] theorem reply_belfry (b : Box) (q o t h : Nat) (c : List Byte)  : (reply b q o t h c s).belfry = s.belfry := unlinked_belfry (reply_unlinked s b q o t h c) 
@[simp] theorem reply_oculus (b : Box) (q o t h : Nat) (c : List Byte)  : (reply b q o t h c s).oculus = s.oculus := unlinked_oculus (reply_unlinked s b q o t h c) 
@[simp] theorem reply_cupola (b : Box) (q o t h : Nat) (c : List Byte)  : (reply b q o t h c s).cupola = s.cupola := unlinked_cupola (reply_unlinked s b q o t h c) 
@[simp] theorem reply_memory (b : Box) (q o t h : Nat) (c : List Byte)  : (reply b q o t h c s).memory = s.memory := unlinked_memory (reply_unlinked s b q o t h c) 
@[simp] theorem reply_update (b : Box) (q o t h : Nat) (c : List Byte)  : (reply b q o t h c s).update = s.update := unlinked_update (reply_unlinked s b q o t h c) 
@[simp] theorem reply_pending (b : Box) (q o t h : Nat) (c : List Byte)  : (reply b q o t h c s).pending = s.pending := unlinked_pending (reply_unlinked s b q o t h c) 
@[simp] theorem reply_channels (b : Box) (q o t h : Nat) (c : List Byte)  : (reply b q o t h c s).rotunda.channels = s.rotunda.channels := unlinked_channels (reply_unlinked s b q o t h c) 
@[simp] theorem reply_supervisor (b : Box) (q o t h : Nat) (c : List Byte)  : (reply b q o t h c s).rotunda.supervisor = s.rotunda.supervisor := unlinked_supervisor (reply_unlinked s b q o t h c) 
@[simp] theorem reply_phase (b : Box) (q o t h : Nat) (c : List Byte)  : (reply b q o t h c s).power.phase = s.power.phase := unlinked_phase (reply_unlinked s b q o t h c) 
@[simp] theorem reply_held (b : Box) (q o t h : Nat) (c : List Byte)  : (reply b q o t h c s).power.held = s.power.held := unlinked_held (reply_unlinked s b q o t h c) 
@[simp] theorem reply_lostClocks (b : Box) (q o t h : Nat) (c : List Byte)  : (reply b q o t h c s).power.lostClocks = s.power.lostClocks := unlinked_lostClocks (reply_unlinked s b q o t h c) 
@[simp] theorem reply_inForce (b : Box) (q o t h : Nat) (c : List Byte)  : (reply b q o t h c s).power.inForce = s.power.inForce := unlinked_inForce (reply_unlinked s b q o t h c) 
@[simp] theorem reply_holdUp (b : Box) (q o t h : Nat) (c : List Byte)  : (reply b q o t h c s).power.holdUp = s.power.holdUp := unlinked_holdUp (reply_unlinked s b q o t h c) 
@[simp] theorem reply_serves (b : Box) (q o t h : Nat) (c : List Byte)  : (reply b q o t h c s).serves = s.serves := unlinked_serves (reply_unlinked s b q o t h c) 
@[simp] theorem reply_turretUp (b : Box) (q o t h : Nat) (c : List Byte)  : (reply b q o t h c s).turretUp = s.turretUp := unlinked_turretUp (reply_unlinked s b q o t h c) 
@[simp] theorem reply_aon (b : Box) (q o t h : Nat) (c : List Byte)  : (reply b q o t h c s).aon = s.aon := unlinked_aon (reply_unlinked s b q o t h c) 
@[simp] theorem reply_steepleUp (b : Box) (q o t h : Nat) (c : List Byte)  : (reply b q o t h c s).steepleUp = s.steepleUp := unlinked_steepleUp (reply_unlinked s b q o t h c) 
@[simp] theorem reply_lane (b : Box) (q o t h : Nat) (c : List Byte) (port : Port) : (reply b q o t h c s).lane port = s.lane port := unlinked_lane (reply_unlinked s b q o t h c) port
@[simp] theorem reply_up (b : Box) (q o t h : Nat) (c : List Byte) (clk : Clock) : (reply b q o t h c s).up clk = s.up clk := unlinked_up (reply_unlinked s b q o t h c) clk

@[simp] theorem respond_now (r : Req) (t : Nat) (c : List Byte)  : (respond r t c s).now = s.now := unlinked_now (respond_unlinked s r t c) 
@[simp] theorem respond_civil (r : Req) (t : Nat) (c : List Byte)  : (respond r t c s).civil = s.civil := unlinked_civil (respond_unlinked s r t c) 
@[simp] theorem respond_turret (r : Req) (t : Nat) (c : List Byte)  : (respond r t c s).turret = s.turret := unlinked_turret (respond_unlinked s r t c) 
@[simp] theorem respond_steeple (r : Req) (t : Nat) (c : List Byte)  : (respond r t c s).steeple = s.steeple := unlinked_steeple (respond_unlinked s r t c) 
@[simp] theorem respond_dsp (r : Req) (t : Nat) (c : List Byte)  : (respond r t c s).dsp = s.dsp := unlinked_dsp (respond_unlinked s r t c) 
@[simp] theorem respond_keep (r : Req) (t : Nat) (c : List Byte)  : (respond r t c s).keep = s.keep := unlinked_keep (respond_unlinked s r t c) 
@[simp] theorem respond_legal (r : Req) (t : Nat) (c : List Byte)  : (respond r t c s).legal = s.legal := unlinked_legal (respond_unlinked s r t c) 
@[simp] theorem respond_belfry (r : Req) (t : Nat) (c : List Byte)  : (respond r t c s).belfry = s.belfry := unlinked_belfry (respond_unlinked s r t c) 
@[simp] theorem respond_oculus (r : Req) (t : Nat) (c : List Byte)  : (respond r t c s).oculus = s.oculus := unlinked_oculus (respond_unlinked s r t c) 
@[simp] theorem respond_cupola (r : Req) (t : Nat) (c : List Byte)  : (respond r t c s).cupola = s.cupola := unlinked_cupola (respond_unlinked s r t c) 
@[simp] theorem respond_memory (r : Req) (t : Nat) (c : List Byte)  : (respond r t c s).memory = s.memory := unlinked_memory (respond_unlinked s r t c) 
@[simp] theorem respond_update (r : Req) (t : Nat) (c : List Byte)  : (respond r t c s).update = s.update := unlinked_update (respond_unlinked s r t c) 
@[simp] theorem respond_pending (r : Req) (t : Nat) (c : List Byte)  : (respond r t c s).pending = s.pending := unlinked_pending (respond_unlinked s r t c) 
@[simp] theorem respond_channels (r : Req) (t : Nat) (c : List Byte)  : (respond r t c s).rotunda.channels = s.rotunda.channels := unlinked_channels (respond_unlinked s r t c) 
@[simp] theorem respond_supervisor (r : Req) (t : Nat) (c : List Byte)  : (respond r t c s).rotunda.supervisor = s.rotunda.supervisor := unlinked_supervisor (respond_unlinked s r t c) 
@[simp] theorem respond_commits (r : Req) (t : Nat) (c : List Byte)  : (respond r t c s).rotunda.commits = s.rotunda.commits := unlinked_commits (respond_unlinked s r t c) 
@[simp] theorem respond_ranks (r : Req) (t : Nat) (c : List Byte)  : (respond r t c s).rotunda.ranks = s.rotunda.ranks := unlinked_ranks (respond_unlinked s r t c) 
@[simp] theorem respond_committed (r : Req) (t : Nat) (c : List Byte)  : (respond r t c s).rotunda.committed = s.rotunda.committed := unlinked_committed (respond_unlinked s r t c) 
@[simp] theorem respond_generations (r : Req) (t : Nat) (c : List Byte)  : (respond r t c s).rotunda.generations = s.rotunda.generations := unlinked_generations (respond_unlinked s r t c) 
@[simp] theorem respond_lastSlot (r : Req) (t : Nat) (c : List Byte)  : (respond r t c s).rotunda.lastSlot = s.rotunda.lastSlot := unlinked_lastSlot (respond_unlinked s r t c) 
@[simp] theorem respond_phase (r : Req) (t : Nat) (c : List Byte)  : (respond r t c s).power.phase = s.power.phase := unlinked_phase (respond_unlinked s r t c) 
@[simp] theorem respond_held (r : Req) (t : Nat) (c : List Byte)  : (respond r t c s).power.held = s.power.held := unlinked_held (respond_unlinked s r t c) 
@[simp] theorem respond_lostClocks (r : Req) (t : Nat) (c : List Byte)  : (respond r t c s).power.lostClocks = s.power.lostClocks := unlinked_lostClocks (respond_unlinked s r t c) 
@[simp] theorem respond_inForce (r : Req) (t : Nat) (c : List Byte)  : (respond r t c s).power.inForce = s.power.inForce := unlinked_inForce (respond_unlinked s r t c) 
@[simp] theorem respond_holdUp (r : Req) (t : Nat) (c : List Byte)  : (respond r t c s).power.holdUp = s.power.holdUp := unlinked_holdUp (respond_unlinked s r t c) 
@[simp] theorem respond_option0 (r : Req) (t : Nat) (c : List Byte)  : (respond r t c s).power.option0 = s.power.option0 := unlinked_option0 (respond_unlinked s r t c) 
@[simp] theorem respond_option1 (r : Req) (t : Nat) (c : List Byte)  : (respond r t c s).power.option1 = s.power.option1 := unlinked_option1 (respond_unlinked s r t c) 
@[simp] theorem respond_published (r : Req) (t : Nat) (c : List Byte)  : (respond r t c s).rotunda.published = s.rotunda.published := unlinked_published (respond_unlinked s r t c) 
@[simp] theorem respond_waiting (r : Req) (t : Nat) (c : List Byte)  : (respond r t c s).rotunda.waiting = s.rotunda.waiting := unlinked_waiting (respond_unlinked s r t c) 
@[simp] theorem respond_nextRequest (r : Req) (t : Nat) (c : List Byte)  : (respond r t c s).rotunda.nextRequest = s.rotunda.nextRequest := unlinked_nextRequest (respond_unlinked s r t c) 
@[simp] theorem respond_silent (r : Req) (t : Nat) (c : List Byte)  : (respond r t c s).rotunda.silent = s.rotunda.silent := unlinked_silent (respond_unlinked s r t c) 
@[simp] theorem respond_serves (r : Req) (t : Nat) (c : List Byte)  : (respond r t c s).serves = s.serves := unlinked_serves (respond_unlinked s r t c) 
@[simp] theorem respond_turretUp (r : Req) (t : Nat) (c : List Byte)  : (respond r t c s).turretUp = s.turretUp := unlinked_turretUp (respond_unlinked s r t c) 
@[simp] theorem respond_aon (r : Req) (t : Nat) (c : List Byte)  : (respond r t c s).aon = s.aon := unlinked_aon (respond_unlinked s r t c) 
@[simp] theorem respond_steepleUp (r : Req) (t : Nat) (c : List Byte)  : (respond r t c s).steepleUp = s.steepleUp := unlinked_steepleUp (respond_unlinked s r t c) 
@[simp] theorem respond_dspUp (r : Req) (t : Nat) (c : List Byte)  : (respond r t c s).dspUp = s.dspUp := unlinked_dspUp (respond_unlinked s r t c) 
@[simp] theorem respond_keepUp (r : Req) (t : Nat) (c : List Byte)  : (respond r t c s).keepUp = s.keepUp := unlinked_keepUp (respond_unlinked s r t c) 
@[simp] theorem respond_time (r : Req) (t : Nat) (c : List Byte)  : (respond r t c s).time = s.time := unlinked_time (respond_unlinked s r t c) 
@[simp] theorem respond_lane (r : Req) (t : Nat) (c : List Byte) (port : Port) : (respond r t c s).lane port = s.lane port := unlinked_lane (respond_unlinked s r t c) port
@[simp] theorem respond_up (r : Req) (t : Nat) (c : List Byte) (clk : Clock) : (respond r t c s).up clk = s.up clk := unlinked_up (respond_unlinked s r t c) clk

@[simp] theorem refuse_now (r : Req) (t : Nat)  : (refuse r t s).now = s.now := unlinked_now (refuse_unlinked s r t) 
@[simp] theorem refuse_civil (r : Req) (t : Nat)  : (refuse r t s).civil = s.civil := unlinked_civil (refuse_unlinked s r t) 
@[simp] theorem refuse_turret (r : Req) (t : Nat)  : (refuse r t s).turret = s.turret := unlinked_turret (refuse_unlinked s r t) 
@[simp] theorem refuse_steeple (r : Req) (t : Nat)  : (refuse r t s).steeple = s.steeple := unlinked_steeple (refuse_unlinked s r t) 
@[simp] theorem refuse_dsp (r : Req) (t : Nat)  : (refuse r t s).dsp = s.dsp := unlinked_dsp (refuse_unlinked s r t) 
@[simp] theorem refuse_keep (r : Req) (t : Nat)  : (refuse r t s).keep = s.keep := unlinked_keep (refuse_unlinked s r t) 
@[simp] theorem refuse_legal (r : Req) (t : Nat)  : (refuse r t s).legal = s.legal := unlinked_legal (refuse_unlinked s r t) 
@[simp] theorem refuse_belfry (r : Req) (t : Nat)  : (refuse r t s).belfry = s.belfry := unlinked_belfry (refuse_unlinked s r t) 
@[simp] theorem refuse_oculus (r : Req) (t : Nat)  : (refuse r t s).oculus = s.oculus := unlinked_oculus (refuse_unlinked s r t) 
@[simp] theorem refuse_cupola (r : Req) (t : Nat)  : (refuse r t s).cupola = s.cupola := unlinked_cupola (refuse_unlinked s r t) 
@[simp] theorem refuse_memory (r : Req) (t : Nat)  : (refuse r t s).memory = s.memory := unlinked_memory (refuse_unlinked s r t) 
@[simp] theorem refuse_update (r : Req) (t : Nat)  : (refuse r t s).update = s.update := unlinked_update (refuse_unlinked s r t) 
@[simp] theorem refuse_pending (r : Req) (t : Nat)  : (refuse r t s).pending = s.pending := unlinked_pending (refuse_unlinked s r t) 
@[simp] theorem refuse_channels (r : Req) (t : Nat)  : (refuse r t s).rotunda.channels = s.rotunda.channels := unlinked_channels (refuse_unlinked s r t) 
@[simp] theorem refuse_supervisor (r : Req) (t : Nat)  : (refuse r t s).rotunda.supervisor = s.rotunda.supervisor := unlinked_supervisor (refuse_unlinked s r t) 
@[simp] theorem refuse_phase (r : Req) (t : Nat)  : (refuse r t s).power.phase = s.power.phase := unlinked_phase (refuse_unlinked s r t) 
@[simp] theorem refuse_held (r : Req) (t : Nat)  : (refuse r t s).power.held = s.power.held := unlinked_held (refuse_unlinked s r t) 
@[simp] theorem refuse_lostClocks (r : Req) (t : Nat)  : (refuse r t s).power.lostClocks = s.power.lostClocks := unlinked_lostClocks (refuse_unlinked s r t) 
@[simp] theorem refuse_inForce (r : Req) (t : Nat)  : (refuse r t s).power.inForce = s.power.inForce := unlinked_inForce (refuse_unlinked s r t) 
@[simp] theorem refuse_holdUp (r : Req) (t : Nat)  : (refuse r t s).power.holdUp = s.power.holdUp := unlinked_holdUp (refuse_unlinked s r t) 
@[simp] theorem refuse_serves (r : Req) (t : Nat)  : (refuse r t s).serves = s.serves := unlinked_serves (refuse_unlinked s r t) 
@[simp] theorem refuse_turretUp (r : Req) (t : Nat)  : (refuse r t s).turretUp = s.turretUp := unlinked_turretUp (refuse_unlinked s r t) 
@[simp] theorem refuse_aon (r : Req) (t : Nat)  : (refuse r t s).aon = s.aon := unlinked_aon (refuse_unlinked s r t) 
@[simp] theorem refuse_steepleUp (r : Req) (t : Nat)  : (refuse r t s).steepleUp = s.steepleUp := unlinked_steepleUp (refuse_unlinked s r t) 
@[simp] theorem refuse_lane (r : Req) (t : Nat) (port : Port) : (refuse r t s).lane port = s.lane port := unlinked_lane (refuse_unlinked s r t) port
@[simp] theorem refuse_up (r : Req) (t : Nat) (clk : Clock) : (refuse r t s).up clk = s.up clk := unlinked_up (refuse_unlinked s r t) clk

@[simp] theorem accept_now (r : Req)  : (accept r s).now = s.now := unlinked_now (accept_unlinked s r) 
@[simp] theorem accept_civil (r : Req)  : (accept r s).civil = s.civil := unlinked_civil (accept_unlinked s r) 
@[simp] theorem accept_turret (r : Req)  : (accept r s).turret = s.turret := unlinked_turret (accept_unlinked s r) 
@[simp] theorem accept_steeple (r : Req)  : (accept r s).steeple = s.steeple := unlinked_steeple (accept_unlinked s r) 
@[simp] theorem accept_dsp (r : Req)  : (accept r s).dsp = s.dsp := unlinked_dsp (accept_unlinked s r) 
@[simp] theorem accept_keep (r : Req)  : (accept r s).keep = s.keep := unlinked_keep (accept_unlinked s r) 
@[simp] theorem accept_legal (r : Req)  : (accept r s).legal = s.legal := unlinked_legal (accept_unlinked s r) 
@[simp] theorem accept_belfry (r : Req)  : (accept r s).belfry = s.belfry := unlinked_belfry (accept_unlinked s r) 
@[simp] theorem accept_oculus (r : Req)  : (accept r s).oculus = s.oculus := unlinked_oculus (accept_unlinked s r) 
@[simp] theorem accept_cupola (r : Req)  : (accept r s).cupola = s.cupola := unlinked_cupola (accept_unlinked s r) 
@[simp] theorem accept_memory (r : Req)  : (accept r s).memory = s.memory := unlinked_memory (accept_unlinked s r) 
@[simp] theorem accept_update (r : Req)  : (accept r s).update = s.update := unlinked_update (accept_unlinked s r) 
@[simp] theorem accept_pending (r : Req)  : (accept r s).pending = s.pending := unlinked_pending (accept_unlinked s r) 
@[simp] theorem accept_channels (r : Req)  : (accept r s).rotunda.channels = s.rotunda.channels := unlinked_channels (accept_unlinked s r) 
@[simp] theorem accept_supervisor (r : Req)  : (accept r s).rotunda.supervisor = s.rotunda.supervisor := unlinked_supervisor (accept_unlinked s r) 
@[simp] theorem accept_commits (r : Req)  : (accept r s).rotunda.commits = s.rotunda.commits := unlinked_commits (accept_unlinked s r) 
@[simp] theorem accept_ranks (r : Req)  : (accept r s).rotunda.ranks = s.rotunda.ranks := unlinked_ranks (accept_unlinked s r) 
@[simp] theorem accept_committed (r : Req)  : (accept r s).rotunda.committed = s.rotunda.committed := unlinked_committed (accept_unlinked s r) 
@[simp] theorem accept_generations (r : Req)  : (accept r s).rotunda.generations = s.rotunda.generations := unlinked_generations (accept_unlinked s r) 
@[simp] theorem accept_lastSlot (r : Req)  : (accept r s).rotunda.lastSlot = s.rotunda.lastSlot := unlinked_lastSlot (accept_unlinked s r) 
@[simp] theorem accept_phase (r : Req)  : (accept r s).power.phase = s.power.phase := unlinked_phase (accept_unlinked s r) 
@[simp] theorem accept_held (r : Req)  : (accept r s).power.held = s.power.held := unlinked_held (accept_unlinked s r) 
@[simp] theorem accept_lostClocks (r : Req)  : (accept r s).power.lostClocks = s.power.lostClocks := unlinked_lostClocks (accept_unlinked s r) 
@[simp] theorem accept_inForce (r : Req)  : (accept r s).power.inForce = s.power.inForce := unlinked_inForce (accept_unlinked s r) 
@[simp] theorem accept_holdUp (r : Req)  : (accept r s).power.holdUp = s.power.holdUp := unlinked_holdUp (accept_unlinked s r) 
@[simp] theorem accept_option0 (r : Req)  : (accept r s).power.option0 = s.power.option0 := unlinked_option0 (accept_unlinked s r) 
@[simp] theorem accept_option1 (r : Req)  : (accept r s).power.option1 = s.power.option1 := unlinked_option1 (accept_unlinked s r) 
@[simp] theorem accept_published (r : Req)  : (accept r s).rotunda.published = s.rotunda.published := unlinked_published (accept_unlinked s r) 
@[simp] theorem accept_waiting (r : Req)  : (accept r s).rotunda.waiting = s.rotunda.waiting := unlinked_waiting (accept_unlinked s r) 
@[simp] theorem accept_nextRequest (r : Req)  : (accept r s).rotunda.nextRequest = s.rotunda.nextRequest := unlinked_nextRequest (accept_unlinked s r) 
@[simp] theorem accept_silent (r : Req)  : (accept r s).rotunda.silent = s.rotunda.silent := unlinked_silent (accept_unlinked s r) 
@[simp] theorem accept_serves (r : Req)  : (accept r s).serves = s.serves := unlinked_serves (accept_unlinked s r) 
@[simp] theorem accept_turretUp (r : Req)  : (accept r s).turretUp = s.turretUp := unlinked_turretUp (accept_unlinked s r) 
@[simp] theorem accept_aon (r : Req)  : (accept r s).aon = s.aon := unlinked_aon (accept_unlinked s r) 
@[simp] theorem accept_steepleUp (r : Req)  : (accept r s).steepleUp = s.steepleUp := unlinked_steepleUp (accept_unlinked s r) 
@[simp] theorem accept_dspUp (r : Req)  : (accept r s).dspUp = s.dspUp := unlinked_dspUp (accept_unlinked s r) 
@[simp] theorem accept_keepUp (r : Req)  : (accept r s).keepUp = s.keepUp := unlinked_keepUp (accept_unlinked s r) 
@[simp] theorem accept_time (r : Req)  : (accept r s).time = s.time := unlinked_time (accept_unlinked s r) 
@[simp] theorem accept_lane (r : Req) (port : Port) : (accept r s).lane port = s.lane port := unlinked_lane (accept_unlinked s r) port
@[simp] theorem accept_up (r : Req) (clk : Clock) : (accept r s).up clk = s.up clk := unlinked_up (accept_unlinked s r) clk

@[simp] theorem finish_now (w : Waiting) (t : Nat) (c : List Byte)  : (finish w t c s).now = s.now := unlinked_now (finish_unlinked s w t c) 
@[simp] theorem finish_civil (w : Waiting) (t : Nat) (c : List Byte)  : (finish w t c s).civil = s.civil := unlinked_civil (finish_unlinked s w t c) 
@[simp] theorem finish_turret (w : Waiting) (t : Nat) (c : List Byte)  : (finish w t c s).turret = s.turret := unlinked_turret (finish_unlinked s w t c) 
@[simp] theorem finish_steeple (w : Waiting) (t : Nat) (c : List Byte)  : (finish w t c s).steeple = s.steeple := unlinked_steeple (finish_unlinked s w t c) 
@[simp] theorem finish_dsp (w : Waiting) (t : Nat) (c : List Byte)  : (finish w t c s).dsp = s.dsp := unlinked_dsp (finish_unlinked s w t c) 
@[simp] theorem finish_keep (w : Waiting) (t : Nat) (c : List Byte)  : (finish w t c s).keep = s.keep := unlinked_keep (finish_unlinked s w t c) 
@[simp] theorem finish_legal (w : Waiting) (t : Nat) (c : List Byte)  : (finish w t c s).legal = s.legal := unlinked_legal (finish_unlinked s w t c) 
@[simp] theorem finish_belfry (w : Waiting) (t : Nat) (c : List Byte)  : (finish w t c s).belfry = s.belfry := unlinked_belfry (finish_unlinked s w t c) 
@[simp] theorem finish_oculus (w : Waiting) (t : Nat) (c : List Byte)  : (finish w t c s).oculus = s.oculus := unlinked_oculus (finish_unlinked s w t c) 
@[simp] theorem finish_cupola (w : Waiting) (t : Nat) (c : List Byte)  : (finish w t c s).cupola = s.cupola := unlinked_cupola (finish_unlinked s w t c) 
@[simp] theorem finish_memory (w : Waiting) (t : Nat) (c : List Byte)  : (finish w t c s).memory = s.memory := unlinked_memory (finish_unlinked s w t c) 
@[simp] theorem finish_update (w : Waiting) (t : Nat) (c : List Byte)  : (finish w t c s).update = s.update := unlinked_update (finish_unlinked s w t c) 
@[simp] theorem finish_pending (w : Waiting) (t : Nat) (c : List Byte)  : (finish w t c s).pending = s.pending := unlinked_pending (finish_unlinked s w t c) 
@[simp] theorem finish_channels (w : Waiting) (t : Nat) (c : List Byte)  : (finish w t c s).rotunda.channels = s.rotunda.channels := unlinked_channels (finish_unlinked s w t c) 
@[simp] theorem finish_supervisor (w : Waiting) (t : Nat) (c : List Byte)  : (finish w t c s).rotunda.supervisor = s.rotunda.supervisor := unlinked_supervisor (finish_unlinked s w t c) 
@[simp] theorem finish_commits (w : Waiting) (t : Nat) (c : List Byte)  : (finish w t c s).rotunda.commits = s.rotunda.commits := unlinked_commits (finish_unlinked s w t c) 
@[simp] theorem finish_ranks (w : Waiting) (t : Nat) (c : List Byte)  : (finish w t c s).rotunda.ranks = s.rotunda.ranks := unlinked_ranks (finish_unlinked s w t c) 
@[simp] theorem finish_committed (w : Waiting) (t : Nat) (c : List Byte)  : (finish w t c s).rotunda.committed = s.rotunda.committed := unlinked_committed (finish_unlinked s w t c) 
@[simp] theorem finish_generations (w : Waiting) (t : Nat) (c : List Byte)  : (finish w t c s).rotunda.generations = s.rotunda.generations := unlinked_generations (finish_unlinked s w t c) 
@[simp] theorem finish_lastSlot (w : Waiting) (t : Nat) (c : List Byte)  : (finish w t c s).rotunda.lastSlot = s.rotunda.lastSlot := unlinked_lastSlot (finish_unlinked s w t c) 
@[simp] theorem finish_phase (w : Waiting) (t : Nat) (c : List Byte)  : (finish w t c s).power.phase = s.power.phase := unlinked_phase (finish_unlinked s w t c) 
@[simp] theorem finish_held (w : Waiting) (t : Nat) (c : List Byte)  : (finish w t c s).power.held = s.power.held := unlinked_held (finish_unlinked s w t c) 
@[simp] theorem finish_lostClocks (w : Waiting) (t : Nat) (c : List Byte)  : (finish w t c s).power.lostClocks = s.power.lostClocks := unlinked_lostClocks (finish_unlinked s w t c) 
@[simp] theorem finish_inForce (w : Waiting) (t : Nat) (c : List Byte)  : (finish w t c s).power.inForce = s.power.inForce := unlinked_inForce (finish_unlinked s w t c) 
@[simp] theorem finish_holdUp (w : Waiting) (t : Nat) (c : List Byte)  : (finish w t c s).power.holdUp = s.power.holdUp := unlinked_holdUp (finish_unlinked s w t c) 
@[simp] theorem finish_option0 (w : Waiting) (t : Nat) (c : List Byte)  : (finish w t c s).power.option0 = s.power.option0 := unlinked_option0 (finish_unlinked s w t c) 
@[simp] theorem finish_option1 (w : Waiting) (t : Nat) (c : List Byte)  : (finish w t c s).power.option1 = s.power.option1 := unlinked_option1 (finish_unlinked s w t c) 
@[simp] theorem finish_published (w : Waiting) (t : Nat) (c : List Byte)  : (finish w t c s).rotunda.published = s.rotunda.published := unlinked_published (finish_unlinked s w t c) 
@[simp] theorem finish_waiting (w : Waiting) (t : Nat) (c : List Byte)  : (finish w t c s).rotunda.waiting = s.rotunda.waiting := unlinked_waiting (finish_unlinked s w t c) 
@[simp] theorem finish_nextRequest (w : Waiting) (t : Nat) (c : List Byte)  : (finish w t c s).rotunda.nextRequest = s.rotunda.nextRequest := unlinked_nextRequest (finish_unlinked s w t c) 
@[simp] theorem finish_silent (w : Waiting) (t : Nat) (c : List Byte)  : (finish w t c s).rotunda.silent = s.rotunda.silent := unlinked_silent (finish_unlinked s w t c) 
@[simp] theorem finish_serves (w : Waiting) (t : Nat) (c : List Byte)  : (finish w t c s).serves = s.serves := unlinked_serves (finish_unlinked s w t c) 
@[simp] theorem finish_turretUp (w : Waiting) (t : Nat) (c : List Byte)  : (finish w t c s).turretUp = s.turretUp := unlinked_turretUp (finish_unlinked s w t c) 
@[simp] theorem finish_aon (w : Waiting) (t : Nat) (c : List Byte)  : (finish w t c s).aon = s.aon := unlinked_aon (finish_unlinked s w t c) 
@[simp] theorem finish_steepleUp (w : Waiting) (t : Nat) (c : List Byte)  : (finish w t c s).steepleUp = s.steepleUp := unlinked_steepleUp (finish_unlinked s w t c) 
@[simp] theorem finish_dspUp (w : Waiting) (t : Nat) (c : List Byte)  : (finish w t c s).dspUp = s.dspUp := unlinked_dspUp (finish_unlinked s w t c) 
@[simp] theorem finish_keepUp (w : Waiting) (t : Nat) (c : List Byte)  : (finish w t c s).keepUp = s.keepUp := unlinked_keepUp (finish_unlinked s w t c) 
@[simp] theorem finish_time (w : Waiting) (t : Nat) (c : List Byte)  : (finish w t c s).time = s.time := unlinked_time (finish_unlinked s w t c) 
@[simp] theorem finish_lane (w : Waiting) (t : Nat) (c : List Byte) (port : Port) : (finish w t c s).lane port = s.lane port := unlinked_lane (finish_unlinked s w t c) port
@[simp] theorem finish_up (w : Waiting) (t : Nat) (c : List Byte) (clk : Clock) : (finish w t c s).up clk = s.up clk := unlinked_up (finish_unlinked s w t c) clk

@[simp] theorem acceptDone_now (r : Req) (t : Nat) (c : List Byte)  : (acceptDone r t c s).now = s.now := unlinked_now (acceptDone_unlinked s r t c) 
@[simp] theorem acceptDone_civil (r : Req) (t : Nat) (c : List Byte)  : (acceptDone r t c s).civil = s.civil := unlinked_civil (acceptDone_unlinked s r t c) 
@[simp] theorem acceptDone_turret (r : Req) (t : Nat) (c : List Byte)  : (acceptDone r t c s).turret = s.turret := unlinked_turret (acceptDone_unlinked s r t c) 
@[simp] theorem acceptDone_steeple (r : Req) (t : Nat) (c : List Byte)  : (acceptDone r t c s).steeple = s.steeple := unlinked_steeple (acceptDone_unlinked s r t c) 
@[simp] theorem acceptDone_dsp (r : Req) (t : Nat) (c : List Byte)  : (acceptDone r t c s).dsp = s.dsp := unlinked_dsp (acceptDone_unlinked s r t c) 
@[simp] theorem acceptDone_keep (r : Req) (t : Nat) (c : List Byte)  : (acceptDone r t c s).keep = s.keep := unlinked_keep (acceptDone_unlinked s r t c) 
@[simp] theorem acceptDone_legal (r : Req) (t : Nat) (c : List Byte)  : (acceptDone r t c s).legal = s.legal := unlinked_legal (acceptDone_unlinked s r t c) 
@[simp] theorem acceptDone_belfry (r : Req) (t : Nat) (c : List Byte)  : (acceptDone r t c s).belfry = s.belfry := unlinked_belfry (acceptDone_unlinked s r t c) 
@[simp] theorem acceptDone_oculus (r : Req) (t : Nat) (c : List Byte)  : (acceptDone r t c s).oculus = s.oculus := unlinked_oculus (acceptDone_unlinked s r t c) 
@[simp] theorem acceptDone_cupola (r : Req) (t : Nat) (c : List Byte)  : (acceptDone r t c s).cupola = s.cupola := unlinked_cupola (acceptDone_unlinked s r t c) 
@[simp] theorem acceptDone_memory (r : Req) (t : Nat) (c : List Byte)  : (acceptDone r t c s).memory = s.memory := unlinked_memory (acceptDone_unlinked s r t c) 
@[simp] theorem acceptDone_update (r : Req) (t : Nat) (c : List Byte)  : (acceptDone r t c s).update = s.update := unlinked_update (acceptDone_unlinked s r t c) 
@[simp] theorem acceptDone_pending (r : Req) (t : Nat) (c : List Byte)  : (acceptDone r t c s).pending = s.pending := unlinked_pending (acceptDone_unlinked s r t c) 
@[simp] theorem acceptDone_channels (r : Req) (t : Nat) (c : List Byte)  : (acceptDone r t c s).rotunda.channels = s.rotunda.channels := unlinked_channels (acceptDone_unlinked s r t c) 
@[simp] theorem acceptDone_supervisor (r : Req) (t : Nat) (c : List Byte)  : (acceptDone r t c s).rotunda.supervisor = s.rotunda.supervisor := unlinked_supervisor (acceptDone_unlinked s r t c) 
@[simp] theorem acceptDone_phase (r : Req) (t : Nat) (c : List Byte)  : (acceptDone r t c s).power.phase = s.power.phase := unlinked_phase (acceptDone_unlinked s r t c) 
@[simp] theorem acceptDone_held (r : Req) (t : Nat) (c : List Byte)  : (acceptDone r t c s).power.held = s.power.held := unlinked_held (acceptDone_unlinked s r t c) 
@[simp] theorem acceptDone_lostClocks (r : Req) (t : Nat) (c : List Byte)  : (acceptDone r t c s).power.lostClocks = s.power.lostClocks := unlinked_lostClocks (acceptDone_unlinked s r t c) 
@[simp] theorem acceptDone_inForce (r : Req) (t : Nat) (c : List Byte)  : (acceptDone r t c s).power.inForce = s.power.inForce := unlinked_inForce (acceptDone_unlinked s r t c) 
@[simp] theorem acceptDone_holdUp (r : Req) (t : Nat) (c : List Byte)  : (acceptDone r t c s).power.holdUp = s.power.holdUp := unlinked_holdUp (acceptDone_unlinked s r t c) 
@[simp] theorem acceptDone_serves (r : Req) (t : Nat) (c : List Byte)  : (acceptDone r t c s).serves = s.serves := unlinked_serves (acceptDone_unlinked s r t c) 
@[simp] theorem acceptDone_turretUp (r : Req) (t : Nat) (c : List Byte)  : (acceptDone r t c s).turretUp = s.turretUp := unlinked_turretUp (acceptDone_unlinked s r t c) 
@[simp] theorem acceptDone_aon (r : Req) (t : Nat) (c : List Byte)  : (acceptDone r t c s).aon = s.aon := unlinked_aon (acceptDone_unlinked s r t c) 
@[simp] theorem acceptDone_steepleUp (r : Req) (t : Nat) (c : List Byte)  : (acceptDone r t c s).steepleUp = s.steepleUp := unlinked_steepleUp (acceptDone_unlinked s r t c) 
@[simp] theorem acceptDone_lane (r : Req) (t : Nat) (c : List Byte) (port : Port) : (acceptDone r t c s).lane port = s.lane port := unlinked_lane (acceptDone_unlinked s r t c) port
@[simp] theorem acceptDone_up (r : Req) (t : Nat) (c : List Byte) (clk : Clock) : (acceptDone r t c s).up clk = s.up clk := unlinked_up (acceptDone_unlinked s r t c) clk

@[simp] theorem queueGap_now (b : Box)  : (queueGap b s).now = s.now := unlinked_now (queueGap_unlinked s b) 
@[simp] theorem queueGap_civil (b : Box)  : (queueGap b s).civil = s.civil := unlinked_civil (queueGap_unlinked s b) 
@[simp] theorem queueGap_turret (b : Box)  : (queueGap b s).turret = s.turret := unlinked_turret (queueGap_unlinked s b) 
@[simp] theorem queueGap_steeple (b : Box)  : (queueGap b s).steeple = s.steeple := unlinked_steeple (queueGap_unlinked s b) 
@[simp] theorem queueGap_dsp (b : Box)  : (queueGap b s).dsp = s.dsp := unlinked_dsp (queueGap_unlinked s b) 
@[simp] theorem queueGap_keep (b : Box)  : (queueGap b s).keep = s.keep := unlinked_keep (queueGap_unlinked s b) 
@[simp] theorem queueGap_legal (b : Box)  : (queueGap b s).legal = s.legal := unlinked_legal (queueGap_unlinked s b) 
@[simp] theorem queueGap_belfry (b : Box)  : (queueGap b s).belfry = s.belfry := unlinked_belfry (queueGap_unlinked s b) 
@[simp] theorem queueGap_oculus (b : Box)  : (queueGap b s).oculus = s.oculus := unlinked_oculus (queueGap_unlinked s b) 
@[simp] theorem queueGap_cupola (b : Box)  : (queueGap b s).cupola = s.cupola := unlinked_cupola (queueGap_unlinked s b) 
@[simp] theorem queueGap_memory (b : Box)  : (queueGap b s).memory = s.memory := unlinked_memory (queueGap_unlinked s b) 
@[simp] theorem queueGap_update (b : Box)  : (queueGap b s).update = s.update := unlinked_update (queueGap_unlinked s b) 
@[simp] theorem queueGap_pending (b : Box)  : (queueGap b s).pending = s.pending := unlinked_pending (queueGap_unlinked s b) 
@[simp] theorem queueGap_channels (b : Box)  : (queueGap b s).rotunda.channels = s.rotunda.channels := unlinked_channels (queueGap_unlinked s b) 
@[simp] theorem queueGap_supervisor (b : Box)  : (queueGap b s).rotunda.supervisor = s.rotunda.supervisor := unlinked_supervisor (queueGap_unlinked s b) 
@[simp] theorem queueGap_phase (b : Box)  : (queueGap b s).power.phase = s.power.phase := unlinked_phase (queueGap_unlinked s b) 
@[simp] theorem queueGap_held (b : Box)  : (queueGap b s).power.held = s.power.held := unlinked_held (queueGap_unlinked s b) 
@[simp] theorem queueGap_lostClocks (b : Box)  : (queueGap b s).power.lostClocks = s.power.lostClocks := unlinked_lostClocks (queueGap_unlinked s b) 
@[simp] theorem queueGap_inForce (b : Box)  : (queueGap b s).power.inForce = s.power.inForce := unlinked_inForce (queueGap_unlinked s b) 
@[simp] theorem queueGap_holdUp (b : Box)  : (queueGap b s).power.holdUp = s.power.holdUp := unlinked_holdUp (queueGap_unlinked s b) 
@[simp] theorem queueGap_serves (b : Box)  : (queueGap b s).serves = s.serves := unlinked_serves (queueGap_unlinked s b) 
@[simp] theorem queueGap_turretUp (b : Box)  : (queueGap b s).turretUp = s.turretUp := unlinked_turretUp (queueGap_unlinked s b) 
@[simp] theorem queueGap_aon (b : Box)  : (queueGap b s).aon = s.aon := unlinked_aon (queueGap_unlinked s b) 
@[simp] theorem queueGap_steepleUp (b : Box)  : (queueGap b s).steepleUp = s.steepleUp := unlinked_steepleUp (queueGap_unlinked s b) 
@[simp] theorem queueGap_lane (b : Box) (port : Port) : (queueGap b s).lane port = s.lane port := unlinked_lane (queueGap_unlinked s b) port
@[simp] theorem queueGap_up (b : Box) (clk : Clock) : (queueGap b s).up clk = s.up clk := unlinked_up (queueGap_unlinked s b) clk

@[simp] theorem queueEvent_now (b : Box) (e : Event)  : (queueEvent b e s).now = s.now := unlinked_now (queueEvent_unlinked s b e) 
@[simp] theorem queueEvent_civil (b : Box) (e : Event)  : (queueEvent b e s).civil = s.civil := unlinked_civil (queueEvent_unlinked s b e) 
@[simp] theorem queueEvent_turret (b : Box) (e : Event)  : (queueEvent b e s).turret = s.turret := unlinked_turret (queueEvent_unlinked s b e) 
@[simp] theorem queueEvent_steeple (b : Box) (e : Event)  : (queueEvent b e s).steeple = s.steeple := unlinked_steeple (queueEvent_unlinked s b e) 
@[simp] theorem queueEvent_dsp (b : Box) (e : Event)  : (queueEvent b e s).dsp = s.dsp := unlinked_dsp (queueEvent_unlinked s b e) 
@[simp] theorem queueEvent_keep (b : Box) (e : Event)  : (queueEvent b e s).keep = s.keep := unlinked_keep (queueEvent_unlinked s b e) 
@[simp] theorem queueEvent_legal (b : Box) (e : Event)  : (queueEvent b e s).legal = s.legal := unlinked_legal (queueEvent_unlinked s b e) 
@[simp] theorem queueEvent_belfry (b : Box) (e : Event)  : (queueEvent b e s).belfry = s.belfry := unlinked_belfry (queueEvent_unlinked s b e) 
@[simp] theorem queueEvent_oculus (b : Box) (e : Event)  : (queueEvent b e s).oculus = s.oculus := unlinked_oculus (queueEvent_unlinked s b e) 
@[simp] theorem queueEvent_cupola (b : Box) (e : Event)  : (queueEvent b e s).cupola = s.cupola := unlinked_cupola (queueEvent_unlinked s b e) 
@[simp] theorem queueEvent_memory (b : Box) (e : Event)  : (queueEvent b e s).memory = s.memory := unlinked_memory (queueEvent_unlinked s b e) 
@[simp] theorem queueEvent_update (b : Box) (e : Event)  : (queueEvent b e s).update = s.update := unlinked_update (queueEvent_unlinked s b e) 
@[simp] theorem queueEvent_pending (b : Box) (e : Event)  : (queueEvent b e s).pending = s.pending := unlinked_pending (queueEvent_unlinked s b e) 
@[simp] theorem queueEvent_channels (b : Box) (e : Event)  : (queueEvent b e s).rotunda.channels = s.rotunda.channels := unlinked_channels (queueEvent_unlinked s b e) 
@[simp] theorem queueEvent_supervisor (b : Box) (e : Event)  : (queueEvent b e s).rotunda.supervisor = s.rotunda.supervisor := unlinked_supervisor (queueEvent_unlinked s b e) 
@[simp] theorem queueEvent_phase (b : Box) (e : Event)  : (queueEvent b e s).power.phase = s.power.phase := unlinked_phase (queueEvent_unlinked s b e) 
@[simp] theorem queueEvent_held (b : Box) (e : Event)  : (queueEvent b e s).power.held = s.power.held := unlinked_held (queueEvent_unlinked s b e) 
@[simp] theorem queueEvent_lostClocks (b : Box) (e : Event)  : (queueEvent b e s).power.lostClocks = s.power.lostClocks := unlinked_lostClocks (queueEvent_unlinked s b e) 
@[simp] theorem queueEvent_inForce (b : Box) (e : Event)  : (queueEvent b e s).power.inForce = s.power.inForce := unlinked_inForce (queueEvent_unlinked s b e) 
@[simp] theorem queueEvent_holdUp (b : Box) (e : Event)  : (queueEvent b e s).power.holdUp = s.power.holdUp := unlinked_holdUp (queueEvent_unlinked s b e) 
@[simp] theorem queueEvent_serves (b : Box) (e : Event)  : (queueEvent b e s).serves = s.serves := unlinked_serves (queueEvent_unlinked s b e) 
@[simp] theorem queueEvent_turretUp (b : Box) (e : Event)  : (queueEvent b e s).turretUp = s.turretUp := unlinked_turretUp (queueEvent_unlinked s b e) 
@[simp] theorem queueEvent_aon (b : Box) (e : Event)  : (queueEvent b e s).aon = s.aon := unlinked_aon (queueEvent_unlinked s b e) 
@[simp] theorem queueEvent_steepleUp (b : Box) (e : Event)  : (queueEvent b e s).steepleUp = s.steepleUp := unlinked_steepleUp (queueEvent_unlinked s b e) 
@[simp] theorem queueEvent_lane (b : Box) (e : Event) (port : Port) : (queueEvent b e s).lane port = s.lane port := unlinked_lane (queueEvent_unlinked s b e) port
@[simp] theorem queueEvent_up (b : Box) (e : Event) (clk : Clock) : (queueEvent b e s).up clk = s.up clk := unlinked_up (queueEvent_unlinked s b e) clk

@[simp] theorem raiseAlso_now (o : Option Box) (e : Event)  : (raiseAlso o e s).now = s.now := unlinked_now (raiseAlso_unlinked s o e) 
@[simp] theorem raiseAlso_civil (o : Option Box) (e : Event)  : (raiseAlso o e s).civil = s.civil := unlinked_civil (raiseAlso_unlinked s o e) 
@[simp] theorem raiseAlso_turret (o : Option Box) (e : Event)  : (raiseAlso o e s).turret = s.turret := unlinked_turret (raiseAlso_unlinked s o e) 
@[simp] theorem raiseAlso_steeple (o : Option Box) (e : Event)  : (raiseAlso o e s).steeple = s.steeple := unlinked_steeple (raiseAlso_unlinked s o e) 
@[simp] theorem raiseAlso_dsp (o : Option Box) (e : Event)  : (raiseAlso o e s).dsp = s.dsp := unlinked_dsp (raiseAlso_unlinked s o e) 
@[simp] theorem raiseAlso_keep (o : Option Box) (e : Event)  : (raiseAlso o e s).keep = s.keep := unlinked_keep (raiseAlso_unlinked s o e) 
@[simp] theorem raiseAlso_legal (o : Option Box) (e : Event)  : (raiseAlso o e s).legal = s.legal := unlinked_legal (raiseAlso_unlinked s o e) 
@[simp] theorem raiseAlso_belfry (o : Option Box) (e : Event)  : (raiseAlso o e s).belfry = s.belfry := unlinked_belfry (raiseAlso_unlinked s o e) 
@[simp] theorem raiseAlso_oculus (o : Option Box) (e : Event)  : (raiseAlso o e s).oculus = s.oculus := unlinked_oculus (raiseAlso_unlinked s o e) 
@[simp] theorem raiseAlso_cupola (o : Option Box) (e : Event)  : (raiseAlso o e s).cupola = s.cupola := unlinked_cupola (raiseAlso_unlinked s o e) 
@[simp] theorem raiseAlso_memory (o : Option Box) (e : Event)  : (raiseAlso o e s).memory = s.memory := unlinked_memory (raiseAlso_unlinked s o e) 
@[simp] theorem raiseAlso_update (o : Option Box) (e : Event)  : (raiseAlso o e s).update = s.update := unlinked_update (raiseAlso_unlinked s o e) 
@[simp] theorem raiseAlso_pending (o : Option Box) (e : Event)  : (raiseAlso o e s).pending = s.pending := unlinked_pending (raiseAlso_unlinked s o e) 
@[simp] theorem raiseAlso_channels (o : Option Box) (e : Event)  : (raiseAlso o e s).rotunda.channels = s.rotunda.channels := unlinked_channels (raiseAlso_unlinked s o e) 
@[simp] theorem raiseAlso_supervisor (o : Option Box) (e : Event)  : (raiseAlso o e s).rotunda.supervisor = s.rotunda.supervisor := unlinked_supervisor (raiseAlso_unlinked s o e) 
@[simp] theorem raiseAlso_phase (o : Option Box) (e : Event)  : (raiseAlso o e s).power.phase = s.power.phase := unlinked_phase (raiseAlso_unlinked s o e) 
@[simp] theorem raiseAlso_held (o : Option Box) (e : Event)  : (raiseAlso o e s).power.held = s.power.held := unlinked_held (raiseAlso_unlinked s o e) 
@[simp] theorem raiseAlso_lostClocks (o : Option Box) (e : Event)  : (raiseAlso o e s).power.lostClocks = s.power.lostClocks := unlinked_lostClocks (raiseAlso_unlinked s o e) 
@[simp] theorem raiseAlso_inForce (o : Option Box) (e : Event)  : (raiseAlso o e s).power.inForce = s.power.inForce := unlinked_inForce (raiseAlso_unlinked s o e) 
@[simp] theorem raiseAlso_holdUp (o : Option Box) (e : Event)  : (raiseAlso o e s).power.holdUp = s.power.holdUp := unlinked_holdUp (raiseAlso_unlinked s o e) 
@[simp] theorem raiseAlso_serves (o : Option Box) (e : Event)  : (raiseAlso o e s).serves = s.serves := unlinked_serves (raiseAlso_unlinked s o e) 
@[simp] theorem raiseAlso_turretUp (o : Option Box) (e : Event)  : (raiseAlso o e s).turretUp = s.turretUp := unlinked_turretUp (raiseAlso_unlinked s o e) 
@[simp] theorem raiseAlso_aon (o : Option Box) (e : Event)  : (raiseAlso o e s).aon = s.aon := unlinked_aon (raiseAlso_unlinked s o e) 
@[simp] theorem raiseAlso_steepleUp (o : Option Box) (e : Event)  : (raiseAlso o e s).steepleUp = s.steepleUp := unlinked_steepleUp (raiseAlso_unlinked s o e) 
@[simp] theorem raiseAlso_lane (o : Option Box) (e : Event) (port : Port) : (raiseAlso o e s).lane port = s.lane port := unlinked_lane (raiseAlso_unlinked s o e) port
@[simp] theorem raiseAlso_up (o : Option Box) (e : Event) (clk : Clock) : (raiseAlso o e s).up clk = s.up clk := unlinked_up (raiseAlso_unlinked s o e) clk

@[simp] theorem raise_now (n : Nat) (p : Option Port) (c : List Byte)  : (raise n p c s).now = s.now := unlinked_now (raise_unlinked s n p c) 
@[simp] theorem raise_civil (n : Nat) (p : Option Port) (c : List Byte)  : (raise n p c s).civil = s.civil := unlinked_civil (raise_unlinked s n p c) 
@[simp] theorem raise_turret (n : Nat) (p : Option Port) (c : List Byte)  : (raise n p c s).turret = s.turret := unlinked_turret (raise_unlinked s n p c) 
@[simp] theorem raise_steeple (n : Nat) (p : Option Port) (c : List Byte)  : (raise n p c s).steeple = s.steeple := unlinked_steeple (raise_unlinked s n p c) 
@[simp] theorem raise_dsp (n : Nat) (p : Option Port) (c : List Byte)  : (raise n p c s).dsp = s.dsp := unlinked_dsp (raise_unlinked s n p c) 
@[simp] theorem raise_keep (n : Nat) (p : Option Port) (c : List Byte)  : (raise n p c s).keep = s.keep := unlinked_keep (raise_unlinked s n p c) 
@[simp] theorem raise_legal (n : Nat) (p : Option Port) (c : List Byte)  : (raise n p c s).legal = s.legal := unlinked_legal (raise_unlinked s n p c) 
@[simp] theorem raise_belfry (n : Nat) (p : Option Port) (c : List Byte)  : (raise n p c s).belfry = s.belfry := unlinked_belfry (raise_unlinked s n p c) 
@[simp] theorem raise_oculus (n : Nat) (p : Option Port) (c : List Byte)  : (raise n p c s).oculus = s.oculus := unlinked_oculus (raise_unlinked s n p c) 
@[simp] theorem raise_cupola (n : Nat) (p : Option Port) (c : List Byte)  : (raise n p c s).cupola = s.cupola := unlinked_cupola (raise_unlinked s n p c) 
@[simp] theorem raise_memory (n : Nat) (p : Option Port) (c : List Byte)  : (raise n p c s).memory = s.memory := unlinked_memory (raise_unlinked s n p c) 
@[simp] theorem raise_update (n : Nat) (p : Option Port) (c : List Byte)  : (raise n p c s).update = s.update := unlinked_update (raise_unlinked s n p c) 
@[simp] theorem raise_pending (n : Nat) (p : Option Port) (c : List Byte)  : (raise n p c s).pending = s.pending := unlinked_pending (raise_unlinked s n p c) 
@[simp] theorem raise_channels (n : Nat) (p : Option Port) (c : List Byte)  : (raise n p c s).rotunda.channels = s.rotunda.channels := unlinked_channels (raise_unlinked s n p c) 
@[simp] theorem raise_supervisor (n : Nat) (p : Option Port) (c : List Byte)  : (raise n p c s).rotunda.supervisor = s.rotunda.supervisor := unlinked_supervisor (raise_unlinked s n p c) 
@[simp] theorem raise_commits (n : Nat) (p : Option Port) (c : List Byte)  : (raise n p c s).rotunda.commits = s.rotunda.commits := unlinked_commits (raise_unlinked s n p c) 
@[simp] theorem raise_ranks (n : Nat) (p : Option Port) (c : List Byte)  : (raise n p c s).rotunda.ranks = s.rotunda.ranks := unlinked_ranks (raise_unlinked s n p c) 
@[simp] theorem raise_committed (n : Nat) (p : Option Port) (c : List Byte)  : (raise n p c s).rotunda.committed = s.rotunda.committed := unlinked_committed (raise_unlinked s n p c) 
@[simp] theorem raise_generations (n : Nat) (p : Option Port) (c : List Byte)  : (raise n p c s).rotunda.generations = s.rotunda.generations := unlinked_generations (raise_unlinked s n p c) 
@[simp] theorem raise_lastSlot (n : Nat) (p : Option Port) (c : List Byte)  : (raise n p c s).rotunda.lastSlot = s.rotunda.lastSlot := unlinked_lastSlot (raise_unlinked s n p c) 
@[simp] theorem raise_phase (n : Nat) (p : Option Port) (c : List Byte)  : (raise n p c s).power.phase = s.power.phase := unlinked_phase (raise_unlinked s n p c) 
@[simp] theorem raise_held (n : Nat) (p : Option Port) (c : List Byte)  : (raise n p c s).power.held = s.power.held := unlinked_held (raise_unlinked s n p c) 
@[simp] theorem raise_lostClocks (n : Nat) (p : Option Port) (c : List Byte)  : (raise n p c s).power.lostClocks = s.power.lostClocks := unlinked_lostClocks (raise_unlinked s n p c) 
@[simp] theorem raise_inForce (n : Nat) (p : Option Port) (c : List Byte)  : (raise n p c s).power.inForce = s.power.inForce := unlinked_inForce (raise_unlinked s n p c) 
@[simp] theorem raise_holdUp (n : Nat) (p : Option Port) (c : List Byte)  : (raise n p c s).power.holdUp = s.power.holdUp := unlinked_holdUp (raise_unlinked s n p c) 
@[simp] theorem raise_option0 (n : Nat) (p : Option Port) (c : List Byte)  : (raise n p c s).power.option0 = s.power.option0 := unlinked_option0 (raise_unlinked s n p c) 
@[simp] theorem raise_option1 (n : Nat) (p : Option Port) (c : List Byte)  : (raise n p c s).power.option1 = s.power.option1 := unlinked_option1 (raise_unlinked s n p c) 
@[simp] theorem raise_published (n : Nat) (p : Option Port) (c : List Byte)  : (raise n p c s).rotunda.published = s.rotunda.published := unlinked_published (raise_unlinked s n p c) 
@[simp] theorem raise_waiting (n : Nat) (p : Option Port) (c : List Byte)  : (raise n p c s).rotunda.waiting = s.rotunda.waiting := unlinked_waiting (raise_unlinked s n p c) 
@[simp] theorem raise_nextRequest (n : Nat) (p : Option Port) (c : List Byte)  : (raise n p c s).rotunda.nextRequest = s.rotunda.nextRequest := unlinked_nextRequest (raise_unlinked s n p c) 
@[simp] theorem raise_silent (n : Nat) (p : Option Port) (c : List Byte)  : (raise n p c s).rotunda.silent = s.rotunda.silent := unlinked_silent (raise_unlinked s n p c) 
@[simp] theorem raise_serves (n : Nat) (p : Option Port) (c : List Byte)  : (raise n p c s).serves = s.serves := unlinked_serves (raise_unlinked s n p c) 
@[simp] theorem raise_turretUp (n : Nat) (p : Option Port) (c : List Byte)  : (raise n p c s).turretUp = s.turretUp := unlinked_turretUp (raise_unlinked s n p c) 
@[simp] theorem raise_aon (n : Nat) (p : Option Port) (c : List Byte)  : (raise n p c s).aon = s.aon := unlinked_aon (raise_unlinked s n p c) 
@[simp] theorem raise_steepleUp (n : Nat) (p : Option Port) (c : List Byte)  : (raise n p c s).steepleUp = s.steepleUp := unlinked_steepleUp (raise_unlinked s n p c) 
@[simp] theorem raise_dspUp (n : Nat) (p : Option Port) (c : List Byte)  : (raise n p c s).dspUp = s.dspUp := unlinked_dspUp (raise_unlinked s n p c) 
@[simp] theorem raise_keepUp (n : Nat) (p : Option Port) (c : List Byte)  : (raise n p c s).keepUp = s.keepUp := unlinked_keepUp (raise_unlinked s n p c) 
@[simp] theorem raise_time (n : Nat) (p : Option Port) (c : List Byte)  : (raise n p c s).time = s.time := unlinked_time (raise_unlinked s n p c) 
@[simp] theorem raise_lane (n : Nat) (p : Option Port) (c : List Byte) (port : Port) : (raise n p c s).lane port = s.lane port := unlinked_lane (raise_unlinked s n p c) port
@[simp] theorem raise_up (n : Nat) (p : Option Port) (c : List Byte) (clk : Clock) : (raise n p c s).up clk = s.up clk := unlinked_up (raise_unlinked s n p c) clk

@[simp] theorem raiseTo_now (b : Box) (e : Event)  : (raiseTo b e s).now = s.now := unlinked_now (raiseTo_unlinked s b e) 
@[simp] theorem raiseTo_civil (b : Box) (e : Event)  : (raiseTo b e s).civil = s.civil := unlinked_civil (raiseTo_unlinked s b e) 
@[simp] theorem raiseTo_turret (b : Box) (e : Event)  : (raiseTo b e s).turret = s.turret := unlinked_turret (raiseTo_unlinked s b e) 
@[simp] theorem raiseTo_steeple (b : Box) (e : Event)  : (raiseTo b e s).steeple = s.steeple := unlinked_steeple (raiseTo_unlinked s b e) 
@[simp] theorem raiseTo_dsp (b : Box) (e : Event)  : (raiseTo b e s).dsp = s.dsp := unlinked_dsp (raiseTo_unlinked s b e) 
@[simp] theorem raiseTo_keep (b : Box) (e : Event)  : (raiseTo b e s).keep = s.keep := unlinked_keep (raiseTo_unlinked s b e) 
@[simp] theorem raiseTo_legal (b : Box) (e : Event)  : (raiseTo b e s).legal = s.legal := unlinked_legal (raiseTo_unlinked s b e) 
@[simp] theorem raiseTo_belfry (b : Box) (e : Event)  : (raiseTo b e s).belfry = s.belfry := unlinked_belfry (raiseTo_unlinked s b e) 
@[simp] theorem raiseTo_oculus (b : Box) (e : Event)  : (raiseTo b e s).oculus = s.oculus := unlinked_oculus (raiseTo_unlinked s b e) 
@[simp] theorem raiseTo_cupola (b : Box) (e : Event)  : (raiseTo b e s).cupola = s.cupola := unlinked_cupola (raiseTo_unlinked s b e) 
@[simp] theorem raiseTo_memory (b : Box) (e : Event)  : (raiseTo b e s).memory = s.memory := unlinked_memory (raiseTo_unlinked s b e) 
@[simp] theorem raiseTo_update (b : Box) (e : Event)  : (raiseTo b e s).update = s.update := unlinked_update (raiseTo_unlinked s b e) 
@[simp] theorem raiseTo_pending (b : Box) (e : Event)  : (raiseTo b e s).pending = s.pending := unlinked_pending (raiseTo_unlinked s b e) 
@[simp] theorem raiseTo_channels (b : Box) (e : Event)  : (raiseTo b e s).rotunda.channels = s.rotunda.channels := unlinked_channels (raiseTo_unlinked s b e) 
@[simp] theorem raiseTo_supervisor (b : Box) (e : Event)  : (raiseTo b e s).rotunda.supervisor = s.rotunda.supervisor := unlinked_supervisor (raiseTo_unlinked s b e) 
@[simp] theorem raiseTo_phase (b : Box) (e : Event)  : (raiseTo b e s).power.phase = s.power.phase := unlinked_phase (raiseTo_unlinked s b e) 
@[simp] theorem raiseTo_held (b : Box) (e : Event)  : (raiseTo b e s).power.held = s.power.held := unlinked_held (raiseTo_unlinked s b e) 
@[simp] theorem raiseTo_lostClocks (b : Box) (e : Event)  : (raiseTo b e s).power.lostClocks = s.power.lostClocks := unlinked_lostClocks (raiseTo_unlinked s b e) 
@[simp] theorem raiseTo_inForce (b : Box) (e : Event)  : (raiseTo b e s).power.inForce = s.power.inForce := unlinked_inForce (raiseTo_unlinked s b e) 
@[simp] theorem raiseTo_holdUp (b : Box) (e : Event)  : (raiseTo b e s).power.holdUp = s.power.holdUp := unlinked_holdUp (raiseTo_unlinked s b e) 
@[simp] theorem raiseTo_serves (b : Box) (e : Event)  : (raiseTo b e s).serves = s.serves := unlinked_serves (raiseTo_unlinked s b e) 
@[simp] theorem raiseTo_turretUp (b : Box) (e : Event)  : (raiseTo b e s).turretUp = s.turretUp := unlinked_turretUp (raiseTo_unlinked s b e) 
@[simp] theorem raiseTo_aon (b : Box) (e : Event)  : (raiseTo b e s).aon = s.aon := unlinked_aon (raiseTo_unlinked s b e) 
@[simp] theorem raiseTo_steepleUp (b : Box) (e : Event)  : (raiseTo b e s).steepleUp = s.steepleUp := unlinked_steepleUp (raiseTo_unlinked s b e) 
@[simp] theorem raiseTo_lane (b : Box) (e : Event) (port : Port) : (raiseTo b e s).lane port = s.lane port := unlinked_lane (raiseTo_unlinked s b e) port
@[simp] theorem raiseTo_up (b : Box) (e : Event) (clk : Clock) : (raiseTo b e s).up clk = s.up clk := unlinked_up (raiseTo_unlinked s b e) clk

@[simp] theorem raiseOthers_now (b : Box) (e : Event)  : (raiseOthers b e s).now = s.now := unlinked_now (raiseOthers_unlinked s b e) 
@[simp] theorem raiseOthers_civil (b : Box) (e : Event)  : (raiseOthers b e s).civil = s.civil := unlinked_civil (raiseOthers_unlinked s b e) 
@[simp] theorem raiseOthers_turret (b : Box) (e : Event)  : (raiseOthers b e s).turret = s.turret := unlinked_turret (raiseOthers_unlinked s b e) 
@[simp] theorem raiseOthers_steeple (b : Box) (e : Event)  : (raiseOthers b e s).steeple = s.steeple := unlinked_steeple (raiseOthers_unlinked s b e) 
@[simp] theorem raiseOthers_dsp (b : Box) (e : Event)  : (raiseOthers b e s).dsp = s.dsp := unlinked_dsp (raiseOthers_unlinked s b e) 
@[simp] theorem raiseOthers_keep (b : Box) (e : Event)  : (raiseOthers b e s).keep = s.keep := unlinked_keep (raiseOthers_unlinked s b e) 
@[simp] theorem raiseOthers_legal (b : Box) (e : Event)  : (raiseOthers b e s).legal = s.legal := unlinked_legal (raiseOthers_unlinked s b e) 
@[simp] theorem raiseOthers_belfry (b : Box) (e : Event)  : (raiseOthers b e s).belfry = s.belfry := unlinked_belfry (raiseOthers_unlinked s b e) 
@[simp] theorem raiseOthers_oculus (b : Box) (e : Event)  : (raiseOthers b e s).oculus = s.oculus := unlinked_oculus (raiseOthers_unlinked s b e) 
@[simp] theorem raiseOthers_cupola (b : Box) (e : Event)  : (raiseOthers b e s).cupola = s.cupola := unlinked_cupola (raiseOthers_unlinked s b e) 
@[simp] theorem raiseOthers_memory (b : Box) (e : Event)  : (raiseOthers b e s).memory = s.memory := unlinked_memory (raiseOthers_unlinked s b e) 
@[simp] theorem raiseOthers_update (b : Box) (e : Event)  : (raiseOthers b e s).update = s.update := unlinked_update (raiseOthers_unlinked s b e) 
@[simp] theorem raiseOthers_pending (b : Box) (e : Event)  : (raiseOthers b e s).pending = s.pending := unlinked_pending (raiseOthers_unlinked s b e) 
@[simp] theorem raiseOthers_channels (b : Box) (e : Event)  : (raiseOthers b e s).rotunda.channels = s.rotunda.channels := unlinked_channels (raiseOthers_unlinked s b e) 
@[simp] theorem raiseOthers_supervisor (b : Box) (e : Event)  : (raiseOthers b e s).rotunda.supervisor = s.rotunda.supervisor := unlinked_supervisor (raiseOthers_unlinked s b e) 
@[simp] theorem raiseOthers_phase (b : Box) (e : Event)  : (raiseOthers b e s).power.phase = s.power.phase := unlinked_phase (raiseOthers_unlinked s b e) 
@[simp] theorem raiseOthers_held (b : Box) (e : Event)  : (raiseOthers b e s).power.held = s.power.held := unlinked_held (raiseOthers_unlinked s b e) 
@[simp] theorem raiseOthers_lostClocks (b : Box) (e : Event)  : (raiseOthers b e s).power.lostClocks = s.power.lostClocks := unlinked_lostClocks (raiseOthers_unlinked s b e) 
@[simp] theorem raiseOthers_inForce (b : Box) (e : Event)  : (raiseOthers b e s).power.inForce = s.power.inForce := unlinked_inForce (raiseOthers_unlinked s b e) 
@[simp] theorem raiseOthers_holdUp (b : Box) (e : Event)  : (raiseOthers b e s).power.holdUp = s.power.holdUp := unlinked_holdUp (raiseOthers_unlinked s b e) 
@[simp] theorem raiseOthers_serves (b : Box) (e : Event)  : (raiseOthers b e s).serves = s.serves := unlinked_serves (raiseOthers_unlinked s b e) 
@[simp] theorem raiseOthers_turretUp (b : Box) (e : Event)  : (raiseOthers b e s).turretUp = s.turretUp := unlinked_turretUp (raiseOthers_unlinked s b e) 
@[simp] theorem raiseOthers_aon (b : Box) (e : Event)  : (raiseOthers b e s).aon = s.aon := unlinked_aon (raiseOthers_unlinked s b e) 
@[simp] theorem raiseOthers_steepleUp (b : Box) (e : Event)  : (raiseOthers b e s).steepleUp = s.steepleUp := unlinked_steepleUp (raiseOthers_unlinked s b e) 
@[simp] theorem raiseOthers_lane (b : Box) (e : Event) (port : Port) : (raiseOthers b e s).lane port = s.lane port := unlinked_lane (raiseOthers_unlinked s b e) port
@[simp] theorem raiseOthers_up (b : Box) (e : Event) (clk : Clock) : (raiseOthers b e s).up clk = s.up clk := unlinked_up (raiseOthers_unlinked s b e) clk

@[simp] theorem taken_now (b : Box) (f : Frame)  : (taken b f s).now = s.now := unlinked_now (taken_unlinked s b f) 
@[simp] theorem taken_civil (b : Box) (f : Frame)  : (taken b f s).civil = s.civil := unlinked_civil (taken_unlinked s b f) 
@[simp] theorem taken_turret (b : Box) (f : Frame)  : (taken b f s).turret = s.turret := unlinked_turret (taken_unlinked s b f) 
@[simp] theorem taken_steeple (b : Box) (f : Frame)  : (taken b f s).steeple = s.steeple := unlinked_steeple (taken_unlinked s b f) 
@[simp] theorem taken_dsp (b : Box) (f : Frame)  : (taken b f s).dsp = s.dsp := unlinked_dsp (taken_unlinked s b f) 
@[simp] theorem taken_keep (b : Box) (f : Frame)  : (taken b f s).keep = s.keep := unlinked_keep (taken_unlinked s b f) 
@[simp] theorem taken_legal (b : Box) (f : Frame)  : (taken b f s).legal = s.legal := unlinked_legal (taken_unlinked s b f) 
@[simp] theorem taken_belfry (b : Box) (f : Frame)  : (taken b f s).belfry = s.belfry := unlinked_belfry (taken_unlinked s b f) 
@[simp] theorem taken_oculus (b : Box) (f : Frame)  : (taken b f s).oculus = s.oculus := unlinked_oculus (taken_unlinked s b f) 
@[simp] theorem taken_cupola (b : Box) (f : Frame)  : (taken b f s).cupola = s.cupola := unlinked_cupola (taken_unlinked s b f) 
@[simp] theorem taken_memory (b : Box) (f : Frame)  : (taken b f s).memory = s.memory := unlinked_memory (taken_unlinked s b f) 
@[simp] theorem taken_update (b : Box) (f : Frame)  : (taken b f s).update = s.update := unlinked_update (taken_unlinked s b f) 
@[simp] theorem taken_pending (b : Box) (f : Frame)  : (taken b f s).pending = s.pending := unlinked_pending (taken_unlinked s b f) 
@[simp] theorem taken_channels (b : Box) (f : Frame)  : (taken b f s).rotunda.channels = s.rotunda.channels := unlinked_channels (taken_unlinked s b f) 
@[simp] theorem taken_supervisor (b : Box) (f : Frame)  : (taken b f s).rotunda.supervisor = s.rotunda.supervisor := unlinked_supervisor (taken_unlinked s b f) 
@[simp] theorem taken_commits (b : Box) (f : Frame)  : (taken b f s).rotunda.commits = s.rotunda.commits := unlinked_commits (taken_unlinked s b f) 
@[simp] theorem taken_ranks (b : Box) (f : Frame)  : (taken b f s).rotunda.ranks = s.rotunda.ranks := unlinked_ranks (taken_unlinked s b f) 
@[simp] theorem taken_committed (b : Box) (f : Frame)  : (taken b f s).rotunda.committed = s.rotunda.committed := unlinked_committed (taken_unlinked s b f) 
@[simp] theorem taken_generations (b : Box) (f : Frame)  : (taken b f s).rotunda.generations = s.rotunda.generations := unlinked_generations (taken_unlinked s b f) 
@[simp] theorem taken_lastSlot (b : Box) (f : Frame)  : (taken b f s).rotunda.lastSlot = s.rotunda.lastSlot := unlinked_lastSlot (taken_unlinked s b f) 
@[simp] theorem taken_phase (b : Box) (f : Frame)  : (taken b f s).power.phase = s.power.phase := unlinked_phase (taken_unlinked s b f) 
@[simp] theorem taken_held (b : Box) (f : Frame)  : (taken b f s).power.held = s.power.held := unlinked_held (taken_unlinked s b f) 
@[simp] theorem taken_lostClocks (b : Box) (f : Frame)  : (taken b f s).power.lostClocks = s.power.lostClocks := unlinked_lostClocks (taken_unlinked s b f) 
@[simp] theorem taken_inForce (b : Box) (f : Frame)  : (taken b f s).power.inForce = s.power.inForce := unlinked_inForce (taken_unlinked s b f) 
@[simp] theorem taken_holdUp (b : Box) (f : Frame)  : (taken b f s).power.holdUp = s.power.holdUp := unlinked_holdUp (taken_unlinked s b f) 
@[simp] theorem taken_option0 (b : Box) (f : Frame)  : (taken b f s).power.option0 = s.power.option0 := unlinked_option0 (taken_unlinked s b f) 
@[simp] theorem taken_option1 (b : Box) (f : Frame)  : (taken b f s).power.option1 = s.power.option1 := unlinked_option1 (taken_unlinked s b f) 
@[simp] theorem taken_published (b : Box) (f : Frame)  : (taken b f s).rotunda.published = s.rotunda.published := unlinked_published (taken_unlinked s b f) 
@[simp] theorem taken_waiting (b : Box) (f : Frame)  : (taken b f s).rotunda.waiting = s.rotunda.waiting := unlinked_waiting (taken_unlinked s b f) 
@[simp] theorem taken_nextRequest (b : Box) (f : Frame)  : (taken b f s).rotunda.nextRequest = s.rotunda.nextRequest := unlinked_nextRequest (taken_unlinked s b f) 
@[simp] theorem taken_silent (b : Box) (f : Frame)  : (taken b f s).rotunda.silent = s.rotunda.silent := unlinked_silent (taken_unlinked s b f) 
@[simp] theorem taken_serves (b : Box) (f : Frame)  : (taken b f s).serves = s.serves := unlinked_serves (taken_unlinked s b f) 
@[simp] theorem taken_turretUp (b : Box) (f : Frame)  : (taken b f s).turretUp = s.turretUp := unlinked_turretUp (taken_unlinked s b f) 
@[simp] theorem taken_aon (b : Box) (f : Frame)  : (taken b f s).aon = s.aon := unlinked_aon (taken_unlinked s b f) 
@[simp] theorem taken_steepleUp (b : Box) (f : Frame)  : (taken b f s).steepleUp = s.steepleUp := unlinked_steepleUp (taken_unlinked s b f) 
@[simp] theorem taken_dspUp (b : Box) (f : Frame)  : (taken b f s).dspUp = s.dspUp := unlinked_dspUp (taken_unlinked s b f) 
@[simp] theorem taken_keepUp (b : Box) (f : Frame)  : (taken b f s).keepUp = s.keepUp := unlinked_keepUp (taken_unlinked s b f) 
@[simp] theorem taken_time (b : Box) (f : Frame)  : (taken b f s).time = s.time := unlinked_time (taken_unlinked s b f) 
@[simp] theorem taken_lane (b : Box) (f : Frame) (port : Port) : (taken b f s).lane port = s.lane port := unlinked_lane (taken_unlinked s b f) port
@[simp] theorem taken_up (b : Box) (f : Frame) (clk : Clock) : (taken b f s).up clk = s.up clk := unlinked_up (taken_unlinked s b f) clk

end Sys2Proof.Machine
end

