-- ==== Sys2Proof/Laws/Kept.lean ====
section
/-! SUPPORT. The invariant of every command: it leaves the queue and the clock alone and keeps every buffer within its capacity. Here its
definition and how it passes through the parts of the state; the files beside this one say it of every operation. -/

namespace Sys2Proof.Machine

/-- The queue is `Q`, the clock `N`, and every buffer is within its capacity. -/
structure Kept (Q : List Instr) (N : Nat) (s : State) : Prop where
  pending : s.pending = Q
  now : s.now = N
  within : s.Within

/-- An outcome's next state is kept. -/
structure KeptOut (Q : List Instr) (N : Nat) (o : Out) : Prop where
  out : ∀ t, o = .next t → Kept Q N t

/-- The state an optional outcome holds is kept. -/
structure KeptOpt (Q : List Instr) (N : Nat) (o : Option State) : Prop where
  out : ∀ t, o = some t → Kept Q N t

variable {Q : List Instr} {N : Nat} {s t : State}

theorem keptOut_next (h : Kept Q N s) : KeptOut Q N (.next s) := ⟨fun _ e => by cases e; exact h⟩

theorem Kept.box (h : Kept Q N s) (b : Box) : (s.box b).inRing.length ≤ 8 := h.within.rotunda b

theorem Kept.withRotunda (h : Kept Q N s) {r : Rotunda} (hr : r.Within) : Kept Q N (s.withRotunda r) :=
  ⟨h.pending, h.now, { h.within with rotunda := hr }⟩
theorem Kept.withTurret (h : Kept Q N s) {t : Turret} (ht : t.Within) : Kept Q N (s.withTurret t) :=
  ⟨h.pending, h.now, { h.within with turret := ht }⟩
theorem Kept.withSteeple (h : Kept Q N s) {t : Steeple} (ht : t.Within) : Kept Q N (s.withSteeple t) :=
  ⟨h.pending, h.now, { h.within with steeple := ht }⟩
theorem Kept.withDsp (h : Kept Q N s) {t : Dsp} : Kept Q N (s.withDsp t) := ⟨h.pending, h.now, { h.within with }⟩
theorem Kept.withKeep (h : Kept Q N s) {t : Keep} (ht : t.Within) : Kept Q N (s.withKeep t) :=
  ⟨h.pending, h.now, { h.within with keep := ht }⟩
theorem Kept.withLegal (h : Kept Q N s) {t : Legal} (ht : t.Within) : Kept Q N (s.withLegal t) :=
  ⟨h.pending, h.now, { h.within with legal := ht }⟩
theorem Kept.withBelfry (h : Kept Q N s) {t : Belfry} : Kept Q N (s.withBelfry t) := ⟨h.pending, h.now, { h.within with }⟩
theorem Kept.withOculus (h : Kept Q N s) {t : Oculus} (ht : t.Within) : Kept Q N (s.withOculus t) :=
  ⟨h.pending, h.now, { h.within with oculus := ht }⟩
theorem Kept.withCupola (h : Kept Q N s) {t : Cupola} : Kept Q N (s.withCupola t) := ⟨h.pending, h.now, { h.within with }⟩
theorem Kept.withMemory (h : Kept Q N s) {t : Memory} (ht : t.Within) : Kept Q N (s.withMemory t) :=
  ⟨h.pending, h.now, { h.within with memory := ht }⟩
theorem Kept.withUpdate (h : Kept Q N s) {t : Update} (ht : t.Within) : Kept Q N (s.withUpdate t) :=
  ⟨h.pending, h.now, { h.within with update := ht }⟩
theorem Kept.withPower (h : Kept Q N s) {t : Power} : Kept Q N (s.withPower t) := ⟨h.pending, h.now, { h.within with }⟩
theorem Kept.withLantern (h : Kept Q N s) {t : Lantern} : Kept Q N (s.withLantern t) := ⟨h.pending, h.now, { h.within with }⟩

/-! ## Parts whose buffers are those of a kept state -/

theorem Kept.rotunda (h : Kept Q N s) {r : Rotunda} (e : r.boxes = s.rotunda.boxes) : r.Within := by
  intro b; rw [e]; exact h.within.rotunda b
theorem Kept.turret (h : Kept Q N s) {t : Turret} (e : t.queue = s.turret.queue) : t.Within := by
  unfold Turret.Within; rw [e]; exact h.within.turret
theorem Kept.steeple (h : Kept Q N s) {t : Steeple} (e : t.record = s.steeple.record) : t.Within := by
  unfold Steeple.Within; rw [e]; exact h.within.steeple
theorem Kept.legal (h : Kept Q N s) {t : Legal} (e : t.log = s.legal.log) (e2 : t.aonBuffer = s.legal.aonBuffer)
    (e3 : t.signing = s.legal.signing) : t.Within := by
  unfold Legal.Within; rw [e, e2, e3]; exact h.within.legal
theorem Kept.keep (h : Kept Q N s) {t : Keep} (e : t.snapshots = s.keep.snapshots) (e2 : t.boundaries = s.keep.boundaries) :
    t.Within := by
  unfold Keep.Within; rw [e, e2]; exact h.within.keep
theorem Kept.oculus (h : Kept Q N s) {t : Oculus} (e : t.held = s.oculus.held) (e2 : t.proofs = s.oculus.proofs)
    (e3 : t.pendingWrites = s.oculus.pendingWrites) (e4 : t.pendingTwin = s.oculus.pendingTwin) : t.Within := by
  unfold Oculus.Within; rw [e, e2, e3, e4]; exact h.within.oculus
theorem Kept.memory (h : Kept Q N s) {t : Memory} (e : t.log = s.memory.log) : t.Within := by
  unfold Memory.Within; rw [e]; exact h.within.memory
theorem Kept.update (h : Kept Q N s) {t : Update} (e : t.log = s.update.log) : t.Within := by
  unfold Update.Within; rw [e]; exact h.within.update

/-! ## Branches and repetitions -/

theorem kept_ite {c : Prop} [Decidable c] (h1 : c → Kept Q N s) (h2 : ¬c → Kept Q N t) : Kept Q N (if c then s else t) := by
  split
  · exact h1 ‹_›
  · exact h2 ‹_›

theorem kept_dite {c : Prop} [Decidable c] {a : c → State} {b : ¬c → State} (h1 : ∀ x, Kept Q N (a x)) (h2 : ∀ x, Kept Q N (b x)) :
    Kept Q N (if x : c then a x else b x) := by
  split
  · exact h1 _
  · exact h2 _

theorem keptOut_ite {c : Prop} [Decidable c] {a b : Out} (h1 : c → KeptOut Q N a) (h2 : ¬c → KeptOut Q N b) :
    KeptOut Q N (if c then a else b) := by
  split
  · exact h1 ‹_›
  · exact h2 ‹_›

theorem keptOut_dite {c : Prop} [Decidable c] {a : c → Out} {b : ¬c → Out} (h1 : ∀ x, KeptOut Q N (a x))
    (h2 : ∀ x, KeptOut Q N (b x)) : KeptOut Q N (if x : c then a x else b x) := by
  split
  · exact h1 _
  · exact h2 _

theorem keptOpt_some (h : Kept Q N s) : KeptOpt Q N (some s) := ⟨fun _ e => by cases e; exact h⟩
theorem keptOpt_none : KeptOpt Q N none := ⟨fun _ e => by cases e⟩

theorem keptOpt_ite {c : Prop} [Decidable c] {a b : Option State} (h1 : c → KeptOpt Q N a) (h2 : ¬c → KeptOpt Q N b) :
    KeptOpt Q N (if c then a else b) := by
  split
  · exact h1 ‹_›
  · exact h2 ‹_›

theorem kept_getD {o : Option State} (ho : KeptOpt Q N o) (h : Kept Q N s) : Kept Q N (o.getD s) := by
  cases o with
  | none => exact h
  | some t => exact ho.out t rfl

theorem kept_foldl {α : Type} {f : State → α → State} (hf : ∀ a s, Kept Q N s → Kept Q N (f s a)) (l : List α) :
    ∀ s, Kept Q N s → Kept Q N (l.foldl f s) := by
  induction l with
  | nil => exact fun _ h => h
  | cons a l ih => exact fun s h => ih _ (hf a s h)

theorem kept_foldl' {α : Type} {f : State → α → State} {l : List α} (hf : ∀ a s, Kept Q N s → Kept Q N (f s a))
    (h : Kept Q N s) : Kept Q N (l.foldl f s) := kept_foldl hf l s h

end Sys2Proof.Machine
end

