-- ==== Sys2Proof/Laws/KeptOps.lean ====
section
/-! SUPPORT. Ops: every operation keeps the queue, the clock and the capacities. -/

namespace Sys2Proof.Machine

variable {Q : List Instr} {N : Nat}

theorem State_setBox_kept {b : Box} {m : Mailbox} {s : State} (h : Kept Q N s) (hm : m.inRing.length ≤ 8) :
    Kept Q N (State.setBox s b m) := by
  refine h.withRotunda ?_
  intro c
  by_cases e : b = c
  · subst e; simpa using hm
  · have : ¬ b.val = c.val := fun x => e (Fin.ext x)
    simpa [Vector.getElem_set, this] using h.within.rotunda c

theorem State_modBox_kept {b : Box} {f : Mailbox → Mailbox} {s : State} (h : Kept Q N s)
    (hm : (f (s.box b)).inRing.length ≤ 8) : Kept Q N (State.modBox s b f) := State_setBox_kept h hm

theorem State_modHost_kept {b : Box} {f : Mailbox → Mailbox} {s : State} (h : Kept Q N s)
    (hm : (f (s.box b)).inRing.length ≤ 8) : Kept Q N (State.modHost s b f) := State_setBox_kept h hm

theorem State_draw_kept {s : State} (hs : Kept Q N s) : Kept Q N (State.draw s) := by
  exact ⟨hs.pending, hs.now, { hs.within with }⟩

theorem count_kept (i : Fin 64) (n : Nat) {s : State} (hs : Kept Q N s) : Kept Q N (count i n s) := by
  unfold count
  repeat' with_reducible
    first | assumption | apply kept_ite | apply kept_dite | apply Kept.withLantern | intro _ | dsimp only | split

theorem countAt_kept (i n : Nat) {s : State} (hs : Kept Q N s) : Kept Q N (countAt i n s) := by
  unfold countAt
  repeat' with_reducible
    first | assumption | apply count_kept | apply kept_ite | apply kept_dite | intro _ | dsimp only | split

theorem trace_kept (src : Fin 12) (type : Nat) (content : List Byte) {s : State} (hs : Kept Q N s) : Kept Q N (trace src type content s) := by
  unfold trace
  repeat' with_reducible
    first | assumption | apply tick_kept | apply kept_ite | apply kept_dite | apply Kept.withLantern | intro _ | dsimp only | split

theorem traceEnclave_kept (op slot result : Nat) {s : State} (hs : Kept Q N s) : Kept Q N (traceEnclave op slot result s) := by
  unfold traceEnclave
  repeat' with_reducible
    first | assumption | apply trace_kept | intro _ | dsimp only | split

theorem traceFrame_kept (b : Box) (direction : Nat) (f : Frame) {s : State} (hs : Kept Q N s) : Kept Q N (traceFrame b direction f s) := by
  unfold traceFrame
  repeat' with_reducible
    first | assumption | apply trace_kept | intro _ | dsimp only | split

theorem pushOut_kept (b : Box) (f : Frame) {s : State} (hs : Kept Q N s) : Kept Q N (pushOut b f s) := by
  unfold pushOut
  repeat' with_reducible
    first | assumption | apply State_modHost_kept | apply traceFrame_kept | refine Kept.box (Q := Q) (N := N) ?_ _ | intro _ | dsimp only
          | split

theorem pushAll_kept (b : Box) (fs : List Frame) {s : State} (hs : Kept Q N s) : Kept Q N (pushAll b fs s) := by
  unfold pushAll
  repeat' with_reducible
    first | assumption | apply pushOut_kept | apply kept_foldl' | intro _ | dsimp only | split

theorem queueGap_kept (b : Box) {s : State} (hs : Kept Q N s) : Kept Q N (queueGap b s) := by
  unfold queueGap
  repeat' with_reducible
    first | assumption | apply State_setBox_kept | apply count_kept | apply pushOut_kept | apply kept_ite | apply kept_dite
          | refine Kept.box (Q := Q) (N := N) ?_ _ | intro _ | dsimp only | split

theorem queueEvent_kept (b : Box) (e : Event) {s0 : State} (hs : Kept Q N s0) : Kept Q N (queueEvent b e s0) := by
  unfold queueEvent
  repeat' with_reducible
    first | assumption | apply State_setBox_kept | apply State_modHost_kept | apply count_kept | apply pushAll_kept | apply queueGap_kept
          | apply kept_ite | apply kept_dite | refine Kept.box (Q := Q) (N := N) ?_ _ | intro _ | dsimp only | split

theorem raiseAlso_kept (owner : Option Box) (e : Event) {s : State} (hs : Kept Q N s) : Kept Q N (raiseAlso owner e s) := by
  unfold raiseAlso
  repeat' with_reducible
    first | assumption | apply queueEvent_kept | apply kept_ite | apply kept_dite | apply kept_foldl' | intro _ | dsimp only | split

theorem raise_kept (code : Nat) (port : Option Port) (payload : List Byte) {s : State} (hs : Kept Q N s) : Kept Q N (raise code port payload s) := by
  unfold raise
  repeat' with_reducible
    first | assumption | apply raiseAlso_kept | intro _ | dsimp only | split

theorem raiseTo_kept (b : Box) (e : Event) {s : State} (hs : Kept Q N s) : Kept Q N (raiseTo b e s) := by
  unfold raiseTo
  repeat' with_reducible
    first | assumption | apply queueEvent_kept | apply kept_ite | apply kept_dite | intro _ | dsimp only | split

theorem raiseOthers_kept (b : Box) (e : Event) {s : State} (hs : Kept Q N s) : Kept Q N (raiseOthers b e s) := by
  unfold raiseOthers
  repeat' with_reducible
    first | assumption | apply queueEvent_kept | apply kept_ite | apply kept_dite | apply kept_foldl' | intro _ | dsimp only | split

theorem reply_kept (b : Box) (seq opcode status handle : Nat) (payload : List Byte) {s : State} (hs : Kept Q N s) : Kept Q N (reply b seq opcode status handle payload s) := by
  unfold reply
  repeat' with_reducible
    first | assumption | apply State_setBox_kept | apply pushAll_kept | apply kept_ite | apply kept_dite
          | refine Kept.box (Q := Q) (N := N) ?_ _ | intro _ | dsimp only | split

theorem turnAway_kept (b : Box) (tag opcode status handle : Nat) {s : State} (hs : Kept Q N s) : Kept Q N (turnAway b tag opcode status handle s) := by
  unfold turnAway
  repeat' with_reducible
    first | assumption | apply pushAll_kept | refine Kept.box (Q := Q) (N := N) ?_ _ | intro _ | dsimp only | split

theorem traceResult_kept (b : Box) (opcode status handle : Nat) {s : State} (hs : Kept Q N s) : Kept Q N (traceResult b opcode status handle s) := by
  unfold traceResult
  repeat' with_reducible
    first | assumption | apply trace_kept | intro _ | dsimp only | split

theorem respond_kept (r : Req) (status : Nat) (payload : List Byte) {s : State} (hs : Kept Q N s) : Kept Q N (respond r status payload s) := by
  unfold respond
  repeat' with_reducible
    first | assumption | apply reply_kept | apply traceResult_kept | refine Kept.box (Q := Q) (N := N) ?_ _ | intro _ | dsimp only | split

theorem refuse_kept (r : Req) (status : Nat) {s : State} (hs : Kept Q N s) : Kept Q N (refuse r status s) := by
  unfold refuse
  repeat' with_reducible
    first | assumption | apply respond_kept | intro _ | dsimp only | split

theorem accept_kept (r : Req) {s : State} (hs : Kept Q N s) : Kept Q N (accept r s) := by
  unfold accept
  repeat' with_reducible
    first | assumption | apply State_modBox_kept | apply respond_kept | refine Kept.box (Q := Q) (N := N) ?_ _ | intro _ | dsimp only
          | split

theorem finish_kept (w : Waiting) (status : Nat) (payload : List Byte) {s : State} (hs : Kept Q N s) : Kept Q N (finish w status payload s) := by
  unfold finish
  repeat' with_reducible
    first | assumption | apply State_modBox_kept | apply reply_kept | apply traceResult_kept | apply kept_ite | apply kept_dite
          | refine Kept.box (Q := Q) (N := N) ?_ _ | intro _ | dsimp only | split

theorem acceptDone_kept (r : Req) (status : Nat) (payload : List Byte) {s : State} (hs : Kept Q N s) : Kept Q N (acceptDone r status payload s) := by
  unfold acceptDone
  repeat' with_reducible
    first | assumption | apply accept_kept | apply finish_kept | intro _ | dsimp only | split

theorem State_setRegion_kept (i : Fin 8) (f : Region → Region) {s : State} (hs : Kept Q N s) : Kept Q N (State.setRegion s i f) := by
  exact hs.withMemory hs.within.memory

theorem Memory_archived_log (m : Memory) (es : List ArchiveEntry) : (m.archived es).log = m.log := by
  unfold Memory.archived; rfl

theorem toArchive_kept (es : List ArchiveEntry) {s : State} (hs : Kept Q N s) : Kept Q N (toArchive es s) := by
  unfold toArchive
  exact Kept.withMemory hs (hs.memory (Memory_archived_log _ _))

theorem logEvent_kept (e : LoggedEvent) {s : State} (hs : Kept Q N s) : Kept Q N (logEvent e s) := by
  unfold logEvent
  exact toArchive_kept _ (Kept.withPower hs)

theorem Memory_logged_within (m : Memory) (e : ErrorEntry) : (m.logged e).Within := by
  simp only [Memory.Within, Memory.logged, List.length_drop, List.length_append, List.length_singleton]
  omega

theorem logError_kept (i : Fin 8) (kind offset requester cnt time : Nat) (counted : Bool) {s : State} (hs : Kept Q N s) : Kept Q N (logError i kind offset requester cnt time counted s) := by
  unfold logError
  dsimp only
  split
  · exact raise_kept _ _ _ (hs.withMemory (Memory_logged_within _ _))
  · exact hs.withMemory (Memory_logged_within _ _)

theorem clearPoison_kept (slot : Nat) {s : State} (hs : Kept Q N s) : Kept Q N (clearPoison slot s) := by
  unfold clearPoison
  repeat' with_reducible
    first | assumption | apply State_setRegion_kept | apply logError_kept | apply kept_foldl' | intro _ | dsimp only | split

theorem persist_kept (old : Body) (c : Channel) {s : State} (hs : Kept Q N s) : Kept Q N (persist old c s) := by
  unfold persist
  repeat' with_reducible
    first | assumption | apply kept_ite | apply kept_dite | apply Kept.withRotunda
          | (refine Kept.rotunda (Q := Q) (N := N) (s := ?_) ?_ ?e0; (case e0 => exact rfl)) | refine Kept.box (Q := Q) (N := N) ?_ _
          | intro _ | dsimp only | split

theorem State_setChannels_kept (cs : List Channel) {s : State} (hs : Kept Q N s) : Kept Q N (State.setChannels s cs) := by
  unfold State.setChannels
  repeat' with_reducible
    first | assumption | apply Kept.withRotunda | (refine Kept.rotunda (Q := Q) (N := N) (s := ?_) ?_ ?e0; (case e0 => exact rfl))
          | refine Kept.box (Q := Q) (N := N) ?_ _ | intro _ | dsimp only | split

theorem setBody_kept (slot : Nat) (body : Body) {s : State} (hs : Kept Q N s) : Kept Q N (setBody slot body s) := by
  unfold setBody
  repeat' with_reducible
    first | assumption | apply persist_kept | apply State_setChannels_kept | apply kept_ite | apply kept_dite | intro _ | dsimp only
          | split

theorem addChanges_kept (slot n : Nat) {s : State} (hs : Kept Q N s) : Kept Q N (addChanges slot n s) := by
  unfold addChanges
  repeat' with_reducible
    first | assumption | apply State_setChannels_kept | apply kept_ite | apply kept_dite | intro _ | dsimp only | split

theorem State_addChannel_kept (c : Channel) {s : State} (hs : Kept Q N s) : Kept Q N (State.addChannel s c) := by
  unfold State.addChannel
  repeat' with_reducible
    first | assumption | apply Kept.withRotunda
          | (refine Kept.rotunda (Q := Q) (N := N) (s := ?_) ?_ ?e0; (case e0 => first | exact rfl | with_unfolding_all exact rfl))
          | refine Kept.box (Q := Q) (N := N) ?_ _ | intro _ | dsimp only | split

theorem destroyChannel_kept (c : Channel) (code reason : Nat) {s : State} (hs : Kept Q N s) : Kept Q N (destroyChannel c code reason s) := by
  unfold destroyChannel
  repeat' with_reducible
    first | assumption | apply raiseAlso_kept | apply kept_ite | apply kept_dite | apply Kept.withRotunda
          | (refine Kept.rotunda (Q := Q) (N := N) (s := ?_) ?_ ?e0; (case e0 => first | exact rfl | with_unfolding_all exact rfl))
          | refine Kept.box (Q := Q) (N := N) ?_ _ | intro _ | dsimp only | split

theorem destroyAll_kept (cs : List Channel) (reason : Nat) {s : State} (hs : Kept Q N s) : Kept Q N (destroyAll cs reason s) := by
  unfold destroyAll
  repeat' with_reducible
    first | assumption | apply destroyChannel_kept | apply kept_foldl' | intro _ | dsimp only | split

theorem releaseSupervisor_kept (b : Box) {s : State} (hs : Kept Q N s) : Kept Q N (releaseSupervisor b s) := by
  unfold releaseSupervisor
  repeat' with_reducible
    first | assumption | apply raise_kept | apply kept_ite | apply kept_dite | apply Kept.withRotunda
          | (refine Kept.rotunda (Q := Q) (N := N) (s := ?_) ?_ ?e0; (case e0 => exact rfl)) | refine Kept.box (Q := Q) (N := N) ?_ _
          | intro _ | dsimp only | split

theorem endSession_kept (b : Box) {s : State} (hs : Kept Q N s) : Kept Q N (endSession b s) := by
  unfold endSession
  split
  · exact hs
  · dsimp only
    refine releaseSupervisor_kept _ (destroyAll_kept _ _ ?_)
    refine State_setBox_kept hs ?_
    exact hs.box b

theorem endSpent_kept {s : State} (hs : Kept Q N s) : Kept Q N (endSpent s) := by
  unfold endSpent
  repeat' with_reducible
    first | assumption | apply endSession_kept | apply kept_ite | apply kept_dite | apply kept_foldl'
          | refine Kept.box (Q := Q) (N := N) ?_ _ | intro _ | dsimp only | split

end Sys2Proof.Machine
end

