-- ==== Sys2Proof/Laws/KeptService.lean ====
section
/-! SUPPORT. Service: every operation keeps the queue, the clock and the capacities. -/

namespace Sys2Proof.Machine

variable {Q : List Instr} {N : Nat}

theorem createChannel_kept {body : Body} {owner : Option Box} {role h : Nat} {s t : State} (hs : Kept Q N s)
    (e : createChannel body owner role s = some (h, t)) : Kept Q N t := by
  unfold createChannel at e
  split at e
  · cases e
  · split at e
    · cases e
    · cases e
      exact raiseAlso_kept _ _ (clearPoison_kept _ (hs.withRotunda (hs.rotunda rfl)))

theorem countError_kept (b : Box) {s : State} (hs : Kept Q N s) : Kept Q N (countError b s) := by
  unfold countError
  repeat' with_reducible
    first | assumption | apply State_modHost_kept | refine Kept.box (Q := Q) (N := N) ?_ _ | intro _ | dsimp only | split

theorem popIn_kept (b : Box) {s : State} (hs : Kept Q N s) : Kept Q N (popIn b s) := by
  refine State_modHost_kept hs ?_
  have := hs.box b
  dsimp only
  rw [List.length_tail]
  omega

theorem markValid_kept (b : Box) {s : State} (hs : Kept Q N s) : Kept Q N (markValid b s) := by
  unfold markValid
  repeat' with_reducible
    first | assumption | apply State_modHost_kept | refine Kept.box (Q := Q) (N := N) ?_ _ | intro _ | dsimp only | split

theorem useSeq_kept (b : Box) (f : Frame) {s : State} (hs : Kept Q N s) : Kept Q N (useSeq b f s) := by
  unfold useSeq
  repeat' with_reducible
    first | assumption | apply State_modBox_kept | apply kept_ite | apply kept_dite | refine Kept.box (Q := Q) (N := N) ?_ _ | intro _
          | dsimp only | split

theorem noteExecuted_kept (b : Box) (f : Frame) {s : State} (hs : Kept Q N s) : Kept Q N (noteExecuted b f s) := by
  unfold noteExecuted
  repeat' with_reducible
    first | assumption | apply State_modBox_kept | apply kept_ite | apply kept_dite | refine Kept.box (Q := Q) (N := N) ?_ _ | intro _
          | dsimp only | split

theorem dropSegments_kept (b : Box) {s : State} (hs : Kept Q N s) : Kept Q N (dropSegments b s) := by
  unfold dropSegments
  repeat' with_reducible
    first | assumption | apply State_modBox_kept | refine Kept.box (Q := Q) (N := N) ?_ _ | intro _ | dsimp only | split

theorem breakSegments_kept (b : Box) (g : Segments) {s : State} (hs : Kept Q N s) : Kept Q N (breakSegments b g s) := by
  unfold breakSegments
  repeat' with_reducible
    first | assumption | apply turnAway_kept | apply countError_kept | apply dropSegments_kept | apply kept_ite | apply kept_dite
          | refine Kept.box (Q := Q) (N := N) ?_ _ | intro _ | dsimp only | split

theorem collectSegment_kept (b : Box) (f : Frame) {s : State} (hs : Kept Q N s) : Kept Q N (collectSegment b f s) := by
  unfold collectSegment
  repeat' with_reducible
    first | assumption | apply State_modBox_kept | apply count_kept | apply breakSegments_kept | apply useSeq_kept | apply kept_ite | apply kept_dite
          | refine Kept.box (Q := Q) (N := N) ?_ _ | intro _ | dsimp only | split

theorem settleOne_kept (b : Box) {s t : State} (hs : Kept Q N s) (e : settleOne b s = some t) : Kept Q N t := by
  unfold settleOne at e
  dsimp only at e
  have hp := popIn_kept b hs
  split at e
  · cases e
  · split at e
    · cases e
    · split at e
      · cases e; exact breakSegments_kept _ _ hs
      · split at e
        · cases e
          refine turnAway_kept _ _ _ _ _ ?_
          split
          · exact markValid_kept _ (useSeq_kept _ _ (countError_kept _ (dropSegments_kept _ hp)))
          · exact countError_kept _ (dropSegments_kept _ hp)
        · cases e
          split
          · exact pushOut_kept _ _ (markValid_kept _ (dropSegments_kept _ hp))
          · exact markValid_kept _ (dropSegments_kept _ hp)
        · cases e
          exact endSession_kept _ (turnAway_kept _ _ _ _ _ hp)
        · cases e; exact collectSegment_kept _ _ (markValid_kept _ hp)
        · cases e

theorem settle_kept (n : Nat) : ∀ {s : State}, Kept Q N s → Kept Q N (settle n s) := by
  induction n with
  | zero => exact fun h => h
  | succ n ih =>
    intro s h
    unfold settle
    split
    · rename_i e
      obtain ⟨b, -, e⟩ := Option.bind_eq_some_iff.mp e
      exact ih (settleOne_kept b h e)
    · exact h

theorem settleAll_kept {s : State} (hs : Kept Q N s) : Kept Q N (settleAll s) := settle_kept 96 hs

theorem taken_kept (b : Box) (f : Frame) {s : State} (hs : Kept Q N s) : Kept Q N (taken b f s) := by
  unfold taken
  repeat' with_reducible
    first | assumption | apply State_modHost_kept | apply popIn_kept | apply markValid_kept | apply useSeq_kept | apply noteExecuted_kept
          | apply kept_ite | apply kept_dite | apply Kept.withPower | refine Kept.box (Q := Q) (N := N) ?_ _ | intro _ | dsimp only
          | split

theorem request_kept (b : Box) (op : Nat) (h : Req → State → State) (hh : ∀ x0 s, Kept Q N s → Kept Q N (h x0 s)) {s : State}
    (hs : Kept Q N s) : KeptOut Q N (request b op h s) := by
  unfold request
  dsimp only
  have h1 : Kept Q N (settleAll s) := settleAll_kept hs
  split
  · exact keptOut_next (hh _ _ (taken_kept _ _ h1))
  · exact keptOut_next h1

theorem withLength_kept (ok : Bool) (r : Req) (k : State → State) (hk : ∀ s, Kept Q N s → Kept Q N (k s)) {s : State} (hs : Kept Q N s) : Kept Q N (withLength ok r k s) := by
  unfold withLength
  repeat' with_reducible
    first | assumption | apply hk | apply refuse_kept | apply kept_ite | apply kept_dite | intro _ | dsimp only | split

theorem noHandle_kept (r : Req) (k : State → State) (hk : ∀ s, Kept Q N s → Kept Q N (k s)) {s : State} (hs : Kept Q N s) : Kept Q N (noHandle r k s) := by
  unfold noHandle
  repeat' with_reducible
    first | assumption | apply hk | apply refuse_kept | apply kept_ite | apply kept_dite | intro _ | dsimp only | split

theorem withHandle_kept (r : Req) (k : State → State) (hk : ∀ s, Kept Q N s → Kept Q N (k s)) {s : State} (hs : Kept Q N s) : Kept Q N (withHandle r k s) := by
  unfold withHandle
  repeat' with_reducible
    first | assumption | apply hk | apply refuse_kept | apply kept_ite | apply kept_dite | intro _ | dsimp only | split

theorem intact_kept (slot : Nat) (r : Req) (k : State → State) (hk : ∀ s, Kept Q N s → Kept Q N (k s)) {s : State} (hs : Kept Q N s) : Kept Q N (intact slot r k s) := by
  unfold intact
  repeat' with_reducible
    first | assumption | apply hk | apply refuse_kept | apply kept_ite | apply kept_dite | intro _ | dsimp only | split

theorem check_kept (ok : Bool) (status : Nat) (r : Req) (k : State → State) (hk : ∀ s, Kept Q N s → Kept Q N (k s)) {s : State} (hs : Kept Q N s) : Kept Q N (check ok status r k s) := by
  unfold check
  repeat' with_reducible
    first | assumption | apply hk | apply refuse_kept | apply kept_ite | apply kept_dite | intro _ | dsimp only | split

theorem storing_kept (r : Req) (k : State → State) (hk : ∀ s, Kept Q N s → Kept Q N (k s)) {s : State} (hs : Kept Q N s) : Kept Q N (storing r k s) := by
  unfold storing
  repeat' with_reducible
    first | assumption | apply hk | apply check_kept | intro _ | dsimp only | split

end Sys2Proof.Machine
end

