-- ==== Sys2Proof/Laws/KeptMailboxes.lean ====
section
/-! SUPPORT. Mailboxes: every operation keeps the queue, the clock and the capacities. -/

namespace Sys2Proof.Machine

variable {Q : List Instr} {N : Nat}

theorem discardFrame_kept (b : Box) {s : State} (hs : Kept Q N s) : Kept Q N (discardFrame b s) := by
  unfold discardFrame
  repeat' with_reducible
    first | assumption | apply State_modBox_kept | apply countError_kept | refine Kept.box (Q := Q) (N := N) ?_ _ | intro _ | dsimp only
          | split

theorem placeFrame_kept (b : Box) (f : Frame) {s : State} (hs : Kept Q N s) (hl : (s.box b).inRing.length < 8) :
    Kept Q N (placeFrame b f s) := by
  unfold placeFrame
  refine traceFrame_kept _ _ _ (State_modHost_kept (hs.withRotunda (hs.rotunda rfl)) ?_)
  show ((s.box b).inRing ++ [f]).length ≤ 8
  rw [List.length_append]
  exact hl

theorem receiveFrame_kept (b : Box) (bytes : List Byte) {s : State} (hs : Kept Q N s) : Kept Q N (receiveFrame b bytes s) := by
  unfold receiveFrame
  have h1 : Kept Q N (if 4 ≤ b.val then countAt (24 + b.val) 1 s else s) :=
    kept_ite (fun _ => countAt_kept _ _ hs) (fun _ => hs)
  have hb : ((if 4 ≤ b.val then countAt (24 + b.val) 1 s else s).box b) = s.box b := by
    split
    · unfold countAt
      split
      · unfold count
        split <;> rfl
      · rfl
    · rfl
  dsimp only
  split
  · exact discardFrame_kept _ (kept_ite (fun _ => countAt_kept _ _ h1) (fun _ => h1))
  · split
    · rename_i hc
      refine settleAll_kept (placeFrame_kept b _ h1 ?_)
      rw [hb]
      have := Bool.and_eq_true_iff.mp hc
      exact of_decide_eq_true this.2
    · exact discardFrame_kept _ h1

theorem consumeOut_kept (b : Box) (f : Frame) {s : State} (hs : Kept Q N s) : Kept Q N (consumeOut b f s) := by
  unfold consumeOut
  repeat' with_reducible
    first | assumption | apply State_modHost_kept | apply queueGap_kept | refine Kept.box (Q := Q) (N := N) ?_ _ | intro _ | dsimp only
          | split

theorem setWire_kept (b : Box) (bytes : List Byte) {s : State} (hs : Kept Q N s) : Kept Q N (setWire b bytes s) := by
  unfold setWire
  repeat' with_reducible
    first | assumption | apply State_modBox_kept | refine Kept.box (Q := Q) (N := N) ?_ _ | intro _ | dsimp only | split

theorem execStatus_kept (p : HostPort) {s : State} (hs : Kept Q N s) : KeptOut Q N (execStatus p s) := by
  unfold execStatus
  repeat' with_reducible
    first | assumption | apply State_modHost_kept | apply State_modBox_kept | apply kept_ite | apply kept_dite | apply keptOut_ite | apply keptOut_dite
          | apply keptOut_next | refine Kept.box (Q := Q) (N := N) ?_ _ | intro _ | dsimp only | split

theorem execWriteFrame_kept (p : HostPort) (bytes : List Byte) {s : State} (hs : Kept Q N s) : KeptOut Q N (execWriteFrame p bytes s) := by
  unfold execWriteFrame
  repeat' with_reducible
    first | assumption | apply receiveFrame_kept | apply setWire_kept | apply kept_ite | apply kept_dite | apply keptOut_ite
          | apply keptOut_dite | apply keptOut_next | intro _ | dsimp only | split

theorem execReadFrame_kept (p : HostPort) (clocked : Nat) {s : State} (hs : Kept Q N s) : KeptOut Q N (execReadFrame p clocked s) := by
  unfold execReadFrame
  repeat' with_reducible
    first | assumption | apply consumeOut_kept | apply setWire_kept | apply settleAll_kept | apply kept_ite | apply kept_dite
          | apply keptOut_ite | apply keptOut_dite | apply keptOut_next | refine Kept.box (Q := Q) (N := N) ?_ _ | intro _ | dsimp only
          | split

theorem execReadAgain_kept (p : HostPort) {s : State} (hs : Kept Q N s) : KeptOut Q N (execReadAgain p s) := by
  unfold execReadAgain
  repeat' with_reducible
    first | assumption | apply setWire_kept | apply kept_ite | apply kept_dite | apply keptOut_ite | apply keptOut_dite
          | apply keptOut_next | refine Kept.box (Q := Q) (N := N) ?_ _ | intro _ | dsimp only | split

theorem execSpiUnknownCommandByte_kept (p : HostPort) (x : StrayCommand) {s : State} (hs : Kept Q N s) : KeptOut Q N (execSpiUnknownCommandByte p x s) := by
  unfold execSpiUnknownCommandByte
  repeat' with_reducible
    first | assumption | apply countError_kept | apply setWire_kept | apply kept_ite | apply kept_dite | apply keptOut_ite
          | apply keptOut_dite | apply keptOut_next | intro _ | dsimp only | split

theorem execUartMailboxUnit_kept (u : Uart) (bytes : List Byte) {s : State} (hs : Kept Q N s) : KeptOut Q N (execUartMailboxUnit u bytes s) := by
  unfold execUartMailboxUnit
  repeat' with_reducible
    first | assumption | apply receiveFrame_kept | apply kept_ite | apply kept_dite | apply keptOut_ite | apply keptOut_dite
          | apply keptOut_next | intro _ | dsimp only | split

theorem execUartUnitAbort_kept (u : Uart) {s : State} (hs : Kept Q N s) : KeptOut Q N (execUartUnitAbort u s) := by
  unfold execUartUnitAbort
  repeat' with_reducible
    first | assumption | apply countError_kept | apply kept_ite | apply kept_dite | apply keptOut_ite | apply keptOut_dite
          | apply keptOut_next | intro _ | dsimp only | split

theorem execLinkControlResend_kept (u : Uart) {s : State} (hs : Kept Q N s) : KeptOut Q N (execLinkControlResend u s) := by
  unfold execLinkControlResend
  repeat' with_reducible
    first | assumption | apply State_modBox_kept | apply kept_ite | apply kept_dite | apply keptOut_ite | apply keptOut_dite
          | apply keptOut_next | refine Kept.box (Q := Q) (N := N) ?_ _ | intro _ | dsimp only | split

theorem execLinkStatusUnit_kept (u : Uart) {s : State} (hs : Kept Q N s) : KeptOut Q N (execLinkStatusUnit u s) := by
  unfold execLinkStatusUnit
  repeat' with_reducible
    first | assumption | apply State_modBox_kept | apply kept_ite | apply kept_dite | apply keptOut_ite | apply keptOut_dite
          | apply keptOut_next | refine Kept.box (Q := Q) (N := N) ?_ _ | intro _ | dsimp only | split

theorem execUartFrameSent_kept (u : Uart) {s : State} (hs : Kept Q N s) : KeptOut Q N (execUartFrameSent u s) := by
  unfold execUartFrameSent
  repeat' with_reducible
    first | assumption | apply consumeOut_kept | apply setWire_kept | apply settleAll_kept | apply kept_ite | apply kept_dite
          | apply keptOut_ite | apply keptOut_dite | apply keptOut_next | refine Kept.box (Q := Q) (N := N) ?_ _ | intro _ | dsimp only
          | split

theorem execBulkOutTransfer_kept (bytes : List Byte) {s : State} (hs : Kept Q N s) : KeptOut Q N (execBulkOutTransfer bytes s) := by
  unfold execBulkOutTransfer
  repeat' with_reducible
    first | assumption | apply receiveFrame_kept | apply kept_ite | apply kept_dite | apply keptOut_ite | apply keptOut_dite
          | apply keptOut_next | refine Kept.box (Q := Q) (N := N) ?_ _ | intro _ | dsimp only | split

theorem execBulkInTransfer_kept {s : State} (hs : Kept Q N s) : KeptOut Q N (execBulkInTransfer s) := by
  unfold execBulkInTransfer
  repeat' with_reducible
    first | assumption | apply consumeOut_kept | apply setWire_kept | apply settleAll_kept | apply kept_ite | apply kept_dite
          | apply keptOut_ite | apply keptOut_dite | apply keptOut_next | refine Kept.box (Q := Q) (N := N) ?_ _ | intro _ | dsimp only
          | split

theorem execEventGap_kept (b : Box) {s : State} (hs : Kept Q N s) : KeptOut Q N (execEventGap b s) := by
  unfold execEventGap
  repeat' with_reducible
    first | assumption | apply queueGap_kept | apply kept_ite | apply kept_dite | apply keptOut_ite | apply keptOut_dite
          | apply keptOut_next | intro _ | dsimp only | split

theorem openSession_kept (b : Box) (role : Nat) (keyed : Bool) (key : List Byte) (seq : Nat) {s : State} (hs : Kept Q N s) : Kept Q N (openSession b role keyed key seq s) := by
  unfold openSession
  repeat' with_reducible
    first | assumption | apply State_modHost_kept | refine Kept.box (Q := Q) (N := N) ?_ _ | intro _ | dsimp only | split

theorem dropAttach_kept (p : HostPort) {s : State} (hs : Kept Q N s) : Kept Q N (dropAttach p s) := by
  unfold dropAttach
  repeat' with_reducible
    first | assumption | apply State_modBox_kept | apply kept_ite | apply kept_dite | apply Kept.withRotunda
          | (refine Kept.rotunda (Q := Q) (N := N) (s := ?_) ?_ ?e0; (case e0 => exact rfl)) | refine Kept.box (Q := Q) (N := N) ?_ _
          | intro _ | dsimp only | split

theorem failAttach_kept (p : HostPort) {s : State} (hs : Kept Q N s) : Kept Q N (failAttach p s) := by
  unfold failAttach
  repeat' with_reducible
    first | assumption | apply State_modBox_kept | apply dropAttach_kept | apply kept_ite | apply kept_dite
          | refine Kept.box (Q := Q) (N := N) ?_ _ | intro _ | dsimp only | split

theorem attachKeyed_kept (p : HostPort) (r : Req) (role : Nat) (nh : List Byte) {s : State} (hs : Kept Q N s) : Kept Q N (attachKeyed p r role nh s) := by
  unfold attachKeyed
  repeat' with_reducible
    first | assumption | apply State_modBox_kept | apply State_draw_kept | apply countAt_kept | apply traceEnclave_kept
          | apply respond_kept | apply kept_ite | apply kept_dite | apply Kept.withRotunda
          | (refine Kept.rotunda (Q := Q) (N := N) (s := ?_) ?_ ?e0; (case e0 => first | exact rfl | with_unfolding_all exact rfl))
          | refine Kept.box (Q := Q) (N := N) ?_ _ | intro _ | dsimp only | split

theorem attachAnew_kept (p : HostPort) (r : Req) (role mode : Nat) (nh : List Byte) {s : State} (hs : Kept Q N s) :
    Kept Q N (attachAnew p r role mode nh s) := by
  unfold attachAnew
  repeat' with_reducible
    first | assumption | apply respond_kept | apply refuse_kept | apply endSession_kept | apply openSession_kept
          | apply dropAttach_kept | apply attachKeyed_kept | apply kept_ite | apply kept_dite | intro _ | dsimp only | split

theorem hostAttach_kept (p : HostPort) (r : Req) {s : State} (hs : Kept Q N s) : Kept Q N (hostAttach p r s) := by
  unfold hostAttach
  repeat' with_reducible
    first | assumption | apply refuse_kept | apply withLength_kept | apply noHandle_kept
          | apply attachAnew_kept | apply kept_ite | apply kept_dite | intro _ | dsimp only | split

theorem execHostAttach_kept (b : Box) {s : State} (hs : Kept Q N s) : KeptOut Q N (execHostAttach b s) := by
  unfold execHostAttach
  repeat' with_reducible
    first | assumption | apply refuse_kept | apply hostAttach_kept | apply request_kept | apply kept_ite | apply kept_dite
          | apply keptOut_ite | apply keptOut_dite | apply keptOut_next | intro _ | dsimp only | split

theorem hostAttachConfirm_kept (p : HostPort) (r : Req) {s : State} (hs : Kept Q N s) : Kept Q N (hostAttachConfirm p r s) := by
  unfold hostAttachConfirm
  repeat' with_reducible
    first | assumption | apply respond_kept | apply refuse_kept | apply withLength_kept | apply noHandle_kept | apply openSession_kept
          | apply failAttach_kept | apply kept_ite | apply kept_dite | apply Kept.withRotunda
          | (refine Kept.rotunda (Q := Q) (N := N) (s := ?_) ?_ ?e0; (case e0 => exact rfl)) | refine Kept.box (Q := Q) (N := N) ?_ _
          | intro _ | dsimp only | split

theorem execHostAttachConfirm_kept (b : Box) {s : State} (hs : Kept Q N s) : KeptOut Q N (execHostAttachConfirm b s) := by
  unfold execHostAttachConfirm
  repeat' with_reducible
    first | assumption | apply refuse_kept | apply hostAttachConfirm_kept | apply request_kept | apply kept_ite | apply kept_dite
          | apply keptOut_ite | apply keptOut_dite | apply keptOut_next | intro _ | dsimp only | split

theorem execAttachTimeout_kept (p : HostPort) {s : State} (hs : Kept Q N s) : KeptOut Q N (execAttachTimeout p s) := by
  unfold execAttachTimeout
  repeat' with_reducible
    first | assumption | apply failAttach_kept | apply kept_ite | apply kept_dite | apply keptOut_ite | apply keptOut_dite
          | apply keptOut_next | refine Kept.box (Q := Q) (N := N) ?_ _ | intro _ | dsimp only | split

theorem execAttachBarEnd_kept (p : HostPort) {s : State} (hs : Kept Q N s) : KeptOut Q N (execAttachBarEnd p s) := by
  unfold execAttachBarEnd
  repeat' with_reducible
    first | assumption | apply State_modBox_kept | apply kept_ite | apply kept_dite | apply keptOut_ite | apply keptOut_dite
          | apply keptOut_next | refine Kept.box (Q := Q) (N := N) ?_ _ | intro _ | dsimp only | split

theorem hostDetach_kept (r : Req) {s : State} (hs : Kept Q N s) : Kept Q N (hostDetach r s) := by
  unfold hostDetach
  repeat' with_reducible
    first | assumption | apply respond_kept | apply endSession_kept | apply withLength_kept | apply noHandle_kept
          | refine Kept.box (Q := Q) (N := N) ?_ _ | intro _ | dsimp only | split

theorem execHostDetach_kept (b : Box) {s : State} (hs : Kept Q N s) : KeptOut Q N (execHostDetach b s) := by
  unfold execHostDetach
  repeat' with_reducible
    first | assumption | apply hostDetach_kept | apply request_kept | apply keptOut_next | intro _ | dsimp only | split

theorem hostStatus_kept (p : HostPort) (r : Req) {s : State} (hs : Kept Q N s) : Kept Q N (hostStatus p r s) := by
  unfold hostStatus
  repeat' with_reducible
    first | assumption | apply respond_kept | apply withLength_kept | apply noHandle_kept | apply intact_kept | intro _ | dsimp only
          | split

theorem execHostStatus_kept (b : Box) {s : State} (hs : Kept Q N s) : KeptOut Q N (execHostStatus b s) := by
  unfold execHostStatus
  repeat' with_reducible
    first | assumption | apply refuse_kept | apply hostStatus_kept | apply request_kept | apply kept_ite | apply kept_dite
          | apply keptOut_ite | apply keptOut_dite | apply keptOut_next | intro _ | dsimp only | split

theorem execKeepaliveExpiry_kept (p : HostPort) {s : State} (hs : Kept Q N s) : KeptOut Q N (execKeepaliveExpiry p s) := by
  unfold execKeepaliveExpiry
  repeat' with_reducible
    first | assumption | apply endSession_kept | apply kept_ite | apply kept_dite | apply keptOut_ite | apply keptOut_dite
          | apply keptOut_next | refine Kept.box (Q := Q) (N := N) ?_ _ | intro _ | dsimp only | split

end Sys2Proof.Machine
end

