-- ==== Sys2Proof/Laws/KeptLegalOps.lean ====
section
/-! SUPPORT. LegalOps: every operation keeps the queue, the clock and the capacities. -/

namespace Sys2Proof.Machine

variable {Q : List Instr} {N : Nat}

theorem logAppend_kept (time type origin : Nat) (uncertain rtc : Bool) (data : List Byte) {s : State} (hs : Kept Q N s) : Kept Q N (logAppend time type origin uncertain rtc data s) := by
  unfold logAppend
  refine raise_kept _ _ _ (hs.withLegal ?_)
  unfold Legal.Within
  refine ⟨?_, hs.within.legal.2⟩
  dsimp only
  exact ringPush_length _ _ _ hs.within.legal.1

theorem keepLog_kept (type origin : Nat) (data : List Byte) {s : State} (hs : Kept Q N s) : Kept Q N (keepLog type origin data s) := by
  unfold keepLog
  repeat' with_reducible
    first | assumption | apply logAppend_kept | intro _ | dsimp only | split

theorem aonStore_kept (time type source : Nat) {s : State} (hs : Kept Q N s) : Kept Q N (aonStore time type source s) := by
  unfold aonStore
  split
  · refine hs.withLegal ⟨hs.within.legal.1, ?_, hs.within.legal.2.2⟩
    simp only [List.length_append, List.length_singleton]
    omega
  · exact hs.withLegal hs.within.legal

theorem moveAon_kept (e : AonEntry) {s : State} (hs : Kept Q N s) : Kept Q N (moveAon s e) := by
  unfold moveAon
  repeat' with_reducible
    first | assumption | apply logAppend_kept | intro _ | dsimp only | split

theorem moveAonBuffer_kept {s : State} (hs : Kept Q N s) : Kept Q N (moveAonBuffer s) := by
  unfold moveAonBuffer
  have h1 : Kept Q N (s.legal.aonBuffer.foldl moveAon s) := kept_foldl' (fun _ _ h => moveAon_kept _ h) hs
  have h2 := kept_ite (c := s.legal.aonLost = 0) (fun _ => h1)
    (fun _ => logAppend_kept s.time 0x0005 originAon s.keep.uncertain true
      (le 1 s.legal.aonLost ++ [0] ++ le 6 s.legal.aonLostTime) h1)
  exact h2.withLegal ⟨h2.within.legal.1, Nat.zero_le _, h2.within.legal.2.2⟩

theorem sealLog_kept (fuse : FuseSense) (uncertain : Bool) (c pulses : Nat) {s : State} (hs : Kept Q N s) : Kept Q N (sealLog fuse uncertain c pulses s) := by
  unfold sealLog
  repeat' with_reducible
    first | assumption | apply logAppend_kept | apply kept_ite | apply kept_dite | apply Kept.withLegal
          | (refine Kept.legal (Q := Q) (N := N) (s := ?_) ?_ ?e0 ?e1 ?e2; (case e0 => first | exact rfl | with_unfolding_all exact rfl); (case e1 => first | exact rfl | with_unfolding_all exact rfl); (case e2 => first | exact rfl | with_unfolding_all exact rfl))
          | intro _ | dsimp only | split

theorem requeue_kept (jobs : List SignJob) {s : State} (hs : Kept Q N s) : Kept Q N (requeue jobs s) := by
  unfold requeue
  exact hs.withLegal ⟨hs.within.legal.1, hs.within.legal.2.1, List.length_take_le _ _⟩

end Sys2Proof.Machine
end

