-- ==== Sys2Proof/Laws/KeptCrossing.lean ====
section
/-! SUPPORT. Crossing: every operation keeps the queue, the clock and the capacities. -/

namespace Sys2Proof.Machine

variable {Q : List Instr} {N : Nat}

theorem postGap_kept {s : State} (hs : Kept Q N s) : Kept Q N (postGap s) := by
  unfold postGap
  split
  · exact hs
  · split
    · refine count_kept _ _ (count_kept _ _ (hs.withTurret ?_))
      simp only [Turret.Within, List.length_append, List.length_singleton]
      omega
    · exact hs

theorem length_placeEntry (q : List QEntry) (e : QEntry) : (placeEntry q e).length = q.length + 1 := by
  unfold placeEntry
  have h1 := (List.takeWhile_prefix (fun x : QEntry => x.time == e.time) (l := q.reverse)).length_le
  dsimp only
  generalize hr : (q.reverse.takeWhile (fun x => x.time == e.time)).reverse = run
  have hr' : run.length = (q.reverse.takeWhile (fun x => x.time == e.time)).length := by simp [← hr]
  generalize hl : run.takeWhile _ = low
  have h2 : low.length ≤ run.length := hl ▸ (List.takeWhile_prefix _).length_le
  simp only [List.length_reverse] at h1
  simp
  omega

theorem post_kept (port : Option Port) (c : QContent) {s0 : State} (hs : Kept Q N s0) : Kept Q N (post port c s0) := by
  unfold post
  have h1 := postGap_kept hs
  dsimp only
  split
  · rename_i hc
    refine count_kept _ _ (h1.withTurret ?_)
    have : c.limit ≤ 256 := by unfold QContent.limit; split <;> decide
    simp only [Turret.Within, length_placeEntry]
    omega
  · exact h1.withTurret (h1.turret rfl)

theorem publish_kept (f : InputBlock → InputBlock) {s : State} (hs : Kept Q N s) : Kept Q N (publish f s) := by
  unfold publish
  repeat' with_reducible
    first | assumption | apply count_kept | apply Kept.withRotunda
          | (refine Kept.rotunda (Q := Q) (N := N) (s := ?_) ?_ ?e0; (case e0 => exact rfl)) | refine Kept.box (Q := Q) (N := N) ?_ _
          | intro _ | dsimp only | split

theorem makeRequest_kept (kind : Nat) (box : Option Box) (seq epoch : Nat) (data : List Byte) {s : State} (hs : Kept Q N s) : Kept Q N (makeRequest kind box seq epoch data s) := by
  unfold makeRequest
  repeat' with_reducible
    first | assumption | apply publish_kept | apply Kept.withRotunda
          | (refine Kept.rotunda (Q := Q) (N := N) (s := ?_) ?_ ?e0; (case e0 => exact rfl)) | refine Kept.box (Q := Q) (N := N) ?_ _
          | intro _ | dsimp only | split

theorem askSteeple_kept (kind : Nat) (data : List Byte) (r : Req) {s : State} (hs : Kept Q N s) : Kept Q N (askSteeple kind data r s) := by
  unfold askSteeple
  repeat' with_reducible
    first | assumption | apply refuse_kept | apply accept_kept | apply makeRequest_kept | apply kept_ite | apply kept_dite
          | apply Kept.withRotunda | (refine Kept.rotunda (Q := Q) (N := N) (s := ?_) ?_ ?e0; (case e0 => exact rfl))
          | refine Kept.box (Q := Q) (N := N) ?_ _ | intro _ | dsimp only | split

theorem postOutcome_kept (number status : Nat) (result : List Byte) {s : State} (hs : Kept Q N s) : Kept Q N (postOutcome number status result s) := by
  unfold postOutcome
  repeat' with_reducible
    first | assumption | apply post_kept | intro _ | dsimp only | split

end Sys2Proof.Machine
end

