-- ==== Sys2Proof/Laws/KeptLaneOps.lean ====
section
/-! SUPPORT. LaneOps: every operation keeps the queue, the clock and the capacities. -/

namespace Sys2Proof.Machine

variable {Q : List Instr} {N : Nat}

theorem State_setLane_kept (p : Port) (l : Lane) {s : State} (hs : Kept Q N s) : Kept Q N (State.setLane s p l) := by
  unfold State.setLane
  repeat' with_reducible
    first | assumption | apply Kept.withTurret | (refine Kept.turret (Q := Q) (N := N) (s := ?_) ?_ ?e0; (case e0 => exact rfl)) | intro _
          | dsimp only | split

theorem State_modLane_kept (p : Port) (f : Lane → Lane) {s : State} (hs : Kept Q N s) : Kept Q N (State.modLane s p f) := by
  unfold State.modLane
  repeat' with_reducible
    first | assumption | apply State_setLane_kept | intro _ | dsimp only | split

theorem stopPwm_kept (p : Port) {s : State} (hs : Kept Q N s) : Kept Q N (stopPwm p s) := by
  unfold stopPwm
  repeat' with_reducible
    first | assumption | apply State_modLane_kept | intro _ | dsimp only | split

theorem takeDuty_kept (p : Port) {s : State} (hs : Kept Q N s) : Kept Q N (takeDuty p s) := by
  unfold takeDuty
  repeat' with_reducible
    first | assumption | apply State_modLane_kept | apply kept_ite | apply kept_dite | intro _ | dsimp only | split

theorem setSession_kept (c : Channel) (b : SessionBody) {s : State} (hs : Kept Q N s) : Kept Q N (setSession c b s) := by
  unfold setSession
  repeat' with_reducible
    first | assumption | apply setBody_kept | intro _ | dsimp only | split

theorem creditEnergised_kept (p : Port) {s : State} (hs : Kept Q N s) : Kept Q N (creditEnergised p s) := by
  unfold creditEnergised
  repeat' with_reducible
    first | assumption | apply addChanges_kept | apply State_modLane_kept | apply setSession_kept | intro _ | dsimp only | split

theorem transit_kept (p : Port) (n : Nat) (st : PortState) {s0 : State} (hs : Kept Q N s0) : Kept Q N (transit p n st s0) := by
  unfold transit
  repeat' with_reducible
    first | assumption | apply trace_kept | apply post_kept | apply State_modLane_kept | apply creditEnergised_kept | apply kept_ite
          | apply kept_dite | intro _ | dsimp only | split

theorem wantSessionRecord_kept (kind : Nat) (c : Channel) (b : SessionBody) {s : State} (hs : Kept Q N s) : Kept Q N (wantSessionRecord kind c b s) := by
  unfold wantSessionRecord
  dsimp only
  split
  · exact hs
  · split
    · refine hs.withLegal ⟨hs.within.legal.1, hs.within.legal.2.1, ?_⟩
      simp only [List.length_append, List.length_singleton]
      omega
    · exact hs.withLegal hs.within.legal

theorem settleStops_kept (handle : Nat) (payload : List Byte) {s : State} (hs : Kept Q N s) : Kept Q N (settleStops handle payload s) := by
  unfold settleStops
  repeat' with_reducible
    first | assumption | apply finish_kept | apply kept_foldl' | apply Kept.withRotunda
          | (refine Kept.rotunda (Q := Q) (N := N) (s := ?_) ?_ ?e0; (case e0 => exact rfl)) | refine Kept.box (Q := Q) (N := N) ?_ _
          | intro _ | dsimp only | split

theorem endPortSession_kept (p : Port) (reason : Nat) {s0 : State} (hs : Kept Q N s0) : Kept Q N (endPortSession p reason s0) := by
  unfold endPortSession
  repeat' with_reducible
    first | assumption | apply raise_kept | apply State_modLane_kept | apply setSession_kept | apply settleStops_kept | apply kept_ite
          | apply kept_dite | intro _ | dsimp only | split

theorem postBegun_kept (p : Port) {s : State} (hs : Kept Q N s) : Kept Q N (postBegun p s) := by
  unfold postBegun
  repeat' with_reducible
    first | assumption | apply post_kept | intro _ | dsimp only | split

theorem authoriseSession_kept (p : Port) (source cap : Nat) (identity : List Byte) {s : State} (hs : Kept Q N s) : Kept Q N (authoriseSession p source cap identity s) := by
  unfold authoriseSession
  repeat' with_reducible
    first | assumption | apply post_kept | apply setSession_kept | apply wantSessionRecord_kept | intro _ | dsimp only | split

theorem replaceSession_kept (p : Port) (b : SessionBody) {s : State} (hs : Kept Q N s) : Kept Q N (replaceSession p b s) := by
  unfold replaceSession
  repeat' with_reducible
    first | assumption | apply destroyChannel_kept | apply State_modLane_kept | refine createChannel_kept ?_ (by assumption) | intro _
          | dsimp only | split

theorem continueSession_kept (p : Port) (source cap : Nat) (identity : List Byte) {s : State} (hs : Kept Q N s) : Kept Q N (continueSession p source cap identity s) := by
  unfold continueSession
  repeat' with_reducible
    first | assumption | apply postBegun_kept | apply authoriseSession_kept | apply replaceSession_kept | intro _ | dsimp only | split

theorem beginSession_kept (p : Port) {s : State} (hs : Kept Q N s) : Kept Q N (beginSession p s) := by
  unfold beginSession
  repeat' with_reducible
    first | assumption | apply setSession_kept | apply postBegun_kept | apply replaceSession_kept | apply kept_ite
          | intro _ | dsimp only | split

theorem authoriseAtBegin_kept (p : Port) {s : State} (hs : Kept Q N s) : Kept Q N (authoriseAtBegin p s) := by
  unfold authoriseAtBegin
  repeat' with_reducible
    first | assumption | apply authoriseSession_kept | apply kept_ite | intro _ | dsimp only | split

theorem connect_kept (p : Port) {s : State} (hs : Kept Q N s) : Kept Q N (connect p s) := by
  unfold connect
  repeat' with_reducible
    first | assumption | apply State_modLane_kept | apply transit_kept | apply beginSession_kept
          | apply authoriseAtBegin_kept | apply continueSession_kept | apply kept_ite | apply kept_dite
          | intro _ | dsimp only | split

theorem settlePort_kept (op : Nat) (p : Port) (status : Nat) {s : State} (hs : Kept Q N s) : Kept Q N (settlePort op p status s) := by
  unfold settlePort
  repeat' with_reducible
    first | assumption | apply finish_kept | apply kept_foldl' | apply Kept.withRotunda
          | (refine Kept.rotunda (Q := Q) (N := N) (s := ?_) ?_ ?e0; (case e0 => exact rfl)) | refine Kept.box (Q := Q) (N := N) ?_ _
          | intro _ | dsimp only | split

theorem setCtd_kept (p : Port) (on : Bool) {s : State} (hs : Kept Q N s) : Kept Q N (setCtd p on s) := by
  unfold setCtd
  repeat' with_reducible
    first | assumption | apply State_modLane_kept | apply kept_ite | apply kept_dite | intro _ | dsimp only | split

theorem setPbd_kept (p : Port) (on : Bool) {s : State} (hs : Kept Q N s) : Kept Q N (setPbd p on s) := by
  unfold setPbd
  repeat' with_reducible
    first | assumption | apply State_modLane_kept | intro _ | dsimp only | split

theorem postOutcomeAt_kept (p : Port) (kind result start end_ : Nat) {s : State} (hs : Kept Q N s) : Kept Q N (postOutcomeAt p kind result start end_ s) := by
  unfold postOutcomeAt
  repeat' with_reducible
    first | assumption | apply post_kept | apply State_modLane_kept | intro _ | dsimp only | split

theorem postOutcomeOf_kept (p : Port) (kind result start : Nat) {s : State} (hs : Kept Q N s) : Kept Q N (postOutcomeOf p kind result start s) := by
  unfold postOutcomeOf
  repeat' with_reducible
    first | assumption | apply postOutcomeAt_kept | intro _ | dsimp only | split

end Sys2Proof.Machine
end

