-- ==== Sys2Proof/Laws/KeptSteepleOps.lean ====
section
/-! SUPPORT. SteepleOps: every operation keeps the queue, the clock and the capacities. -/

namespace Sys2Proof.Machine

variable {Q : List Instr} {N : Nat}

theorem setPermit_kept (p : Port) (v : Bool) {s : State} (hs : Kept Q N s) : Kept Q N (setPermit p v s) := by
  unfold setPermit
  repeat' with_reducible
    first | assumption | apply trace_kept | apply kept_ite | apply kept_dite | apply Kept.withSteeple
          | (refine Kept.steeple (Q := Q) (N := N) (s := ?_) ?_ ?e0; (case e0 => exact rfl)) | intro _ | dsimp only | split

theorem setProbe_kept (p : Port) (v : Bool) {s : State} (hs : Kept Q N s) : Kept Q N (setProbe p v s) := by
  unfold setProbe
  repeat' with_reducible
    first | assumption | apply trace_kept | apply kept_ite | apply kept_dite | apply Kept.withSteeple
          | (refine Kept.steeple (Q := Q) (N := N) (s := ?_) ?_ ?e0; (case e0 => exact rfl)) | intro _ | dsimp only | split

theorem grantPermits_kept {s : State} (hs : Kept Q N s) : Kept Q N (grantPermits s) := by
  unfold grantPermits
  repeat' with_reducible
    first | assumption | apply setPermit_kept | apply kept_ite | apply kept_dite | apply kept_foldl' | intro _ | dsimp only | split

theorem addRecord_kept (kind code : Nat) (port : Option Port) (related : Nat) (detail : List Byte) (m : Marks) {s : State} (hs : Kept Q N s) : Kept Q N (addRecord kind code port related detail m s) := by
  unfold addRecord
  have he : (evict s.recordHeld s.steeple.record).length ≤ 255 := by
    have hr : s.steeple.record.length ≤ 256 := hs.within.steeple
    unfold evict
    split
    · omega
    · split
      · rename_i e h1
        have hm := List.mem_of_find?_eq_some h1
        have : (s.steeple.record.filter (fun x => x.index ≠ e.index)).length < s.steeple.record.length := by
          rw [List.length_filter_lt_length_iff_exists]
          exact ⟨e, hm, by simp⟩
        omega
      · rw [List.length_tail]; omega
  refine post_kept _ _ (trace_kept _ _ _ (hs.withSteeple ?_))
  simp only [Steeple.Within, List.length_append, List.length_singleton]
  omega

theorem removePermit_kept (p : Port) {s : State} (hs : Kept Q N s) : Kept Q N (removePermit p s) := by
  unfold removePermit
  repeat' with_reducible
    first | assumption | apply State_modLane_kept | apply setCtd_kept | apply setPbd_kept | apply postOutcomeAt_kept
          | apply setPermit_kept | apply setProbe_kept | apply kept_ite | apply kept_dite | intro _ | dsimp only | split

theorem enterLockout_kept (p : Port) {s : State} (hs : Kept Q N s) : Kept Q N (enterLockout p s) := by
  unfold enterLockout
  repeat' with_reducible
    first | assumption | apply State_modLane_kept | apply transit_kept | apply endPortSession_kept | apply settlePort_kept
          | apply kept_ite | apply kept_dite | intro _ | dsimp only | split

theorem openByFault_kept (p : Port) {s : State} (hs : Kept Q N s) : Kept Q N (openByFault p s) := by
  unfold openByFault
  repeat' with_reducible
    first | assumption | apply removePermit_kept | apply enterLockout_kept | intro _ | dsimp only | split

theorem pulseSht_kept (p : Port) {s : State} (hs : Kept Q N s) : Kept Q N (pulseSht p s) := by
  unfold pulseSht
  repeat' with_reducible
    first | assumption | apply kept_ite | apply kept_dite | apply Kept.withSteeple
          | (refine Kept.steeple (Q := Q) (N := N) (s := ?_) ?_ ?e0; (case e0 => exact rfl)) | intro _ | dsimp only | split

theorem setPortLock_kept (p : Port) (l : Lockout) {s : State} (hs : Kept Q N s) : Kept Q N (setPortLock p l s) := by
  unfold setPortLock
  repeat' with_reducible
    first | assumption | apply Kept.withSteeple | (refine Kept.steeple (Q := Q) (N := N) (s := ?_) ?_ ?e0; (case e0 => exact rfl))
          | intro _ | dsimp only | split

theorem setHubLock_kept (l : Lockout) {s : State} (hs : Kept Q N s) : Kept Q N (setHubLock l s) := by
  unfold setHubLock
  repeat' with_reducible
    first | assumption | apply Kept.withSteeple | (refine Kept.steeple (Q := Q) (N := N) (s := ?_) ?_ ?e0; (case e0 => exact rfl))
          | intro _ | dsimp only | split

theorem holdPort_kept (p : Port) (code : Nat) (pending : Bool) {s : State} (hs : Kept Q N s) : Kept Q N (holdPort p code pending s) := by
  unfold holdPort
  repeat' with_reducible
    first | assumption | apply setPortLock_kept | intro _ | dsimp only | split

theorem holdHub_kept (code : Nat) (port : Option Port) (pending : Bool) {s : State} (hs : Kept Q N s) : Kept Q N (holdHub code port pending s) := by
  unfold holdHub
  repeat' with_reducible
    first | assumption | apply setHubLock_kept | intro _ | dsimp only | split

theorem endProbe_kept (p : Port) {s : State} (hs : Kept Q N s) : Kept Q N (endProbe s p) := by
  unfold endProbe
  repeat' with_reducible
    first | assumption | apply State_modLane_kept | apply kept_ite | apply kept_dite | intro _ | dsimp only | split

theorem endResetTest_kept (p : Port) {s : State} (hs : Kept Q N s) : Kept Q N (endResetTest s p) := by
  unfold endResetTest
  repeat' with_reducible
    first | assumption | apply State_modLane_kept | apply kept_ite | apply kept_dite | intro _ | dsimp only | split

theorem endReset_kept (r : ResetRun) (status record code : Nat) {s : State} (hs : Kept Q N s) : Kept Q N (endReset r status record code s) := by
  unfold endReset
  repeat' with_reducible
    first | assumption | apply postOutcome_kept | apply endProbe_kept | apply endResetTest_kept | apply request_kept | apply kept_ite
          | apply kept_dite | apply kept_foldl' | apply Kept.withSteeple
          | (refine Kept.steeple (Q := Q) (N := N) (s := ?_) ?_ ?e0; (case e0 => exact rfl)) | intro _ | dsimp only | split

theorem endResetsOf_kept (code : Nat) (hit : ResetRun → Bool) {s : State} (hs : Kept Q N s) : Kept Q N (endResetsOf code hit s) := by
  unfold endResetsOf
  repeat' with_reducible
    first | assumption | apply endReset_kept | apply kept_foldl' | intro _ | dsimp only | split

theorem startReaction_kept (code : Nat) (port : Option Port) (degraded : Bool) {s : State} (hs : Kept Q N s) : Kept Q N (startReaction code port degraded s) := by
  unfold startReaction
  repeat' with_reducible
    first | assumption | apply Kept.withSteeple | (refine Kept.steeple (Q := Q) (N := N) (s := ?_) ?_ ?e0; (case e0 => exact rfl))
          | intro _ | dsimp only | split

theorem enterDegraded_kept (cls code : Nat) (port : Option Port) {s : State} (hs : Kept Q N s) : Kept Q N (enterDegraded cls code port s) := by
  unfold enterDegraded
  repeat' with_reducible
    first | assumption | apply holdPort_kept | apply holdHub_kept | apply Kept.withSteeple
          | (refine Kept.steeple (Q := Q) (N := N) (s := ?_) ?_ ?e0; (case e0 => exact rfl)) | intro _ | dsimp only | split

theorem openAll_kept {s : State} (hs : Kept Q N s) : Kept Q N (openAll s) := by
  unfold openAll
  repeat' with_reducible
    first | assumption | apply openByFault_kept | apply kept_foldl' | intro _ | dsimp only | split

theorem lockDegradedPort_kept (p : Port) (code first : Nat) {s : State} (hs : Kept Q N s) : Kept Q N (lockDegradedPort p code first s) := by
  unfold lockDegradedPort
  repeat' with_reducible
    first | assumption | apply addRecord_kept | apply openByFault_kept | apply setPortLock_kept | apply kept_ite | apply kept_dite
          | apply Kept.withSteeple | (refine Kept.steeple (Q := Q) (N := N) (s := ?_) ?_ ?e0; (case e0 => exact rfl)) | intro _
          | dsimp only | split

theorem endHubMode_kept (d : Degraded) {s : State} (hs : Kept Q N s) : Kept Q N (endHubMode d s) := by
  unfold endHubMode
  repeat' with_reducible
    first | assumption | apply kept_ite | apply kept_dite | apply Kept.withSteeple
          | (refine Kept.steeple (Q := Q) (N := N) (s := ?_) ?_ ?e0; (case e0 => first | exact rfl | with_unfolding_all exact rfl))
          | intro _ | dsimp only | split

theorem dropDegraded_kept {s : State} (hs : Kept Q N s) : Kept Q N (dropDegraded s) := by
  unfold dropDegraded
  have h1 := kept_foldl' (f := fun s p => match s.steeple.portDegraded[p] with
    | some d => lockDegradedPort p d.code d.index s
    | none => s) (l := allPorts) (s := s)
    (fun p s h => by
      split
      · exact lockDegradedPort_kept _ _ _ h
      · exact h) hs
  dsimp only
  generalize List.foldl _ s allPorts = u at h1 ⊢
  have h2 : Kept Q N (u.steeple.hubDegraded.elim u (fun d => endHubMode d u)) := by
    cases u.steeple.hubDegraded with
    | none => exact h1
    | some d => exact endHubMode_kept d h1
  exact h2.withSteeple (h2.steeple rfl)

theorem noteDirty_kept (code : Nat) (port : Option Port) {s : State} (hs : Kept Q N s) : Kept Q N (noteDirty code port s) := by
  unfold noteDirty
  repeat' with_reducible
    first | assumption | apply State_modLane_kept | apply kept_ite | apply kept_dite | intro _ | dsimp only | split

theorem weldReaction_kept (code : Nat) (port : Option Port) {s : State} (hs : Kept Q N s) : Kept Q N (weldReaction code port s) := by
  unfold weldReaction
  repeat' with_reducible
    first | assumption | apply pulseSht_kept | apply kept_ite | apply kept_dite | intro _ | dsimp only | split

theorem nativeReaction_kept (code : Nat) (port : Option Port) (detail : List Byte) {s : State} (hs : Kept Q N s) : Kept Q N (nativeReaction code port detail s) := by
  unfold nativeReaction
  repeat' with_reducible
    first | assumption | apply addRecord_kept | apply openByFault_kept | apply holdPort_kept | apply holdHub_kept
          | apply startReaction_kept | apply openAll_kept | apply weldReaction_kept | intro _ | dsimp only | split

theorem escalate_kept (code : Nat) (port : Option Port) (first : Reaction) (detail : List Byte) {s : State} (hs : Kept Q N s) : Kept Q N (escalate code port first detail s) := by
  unfold escalate
  repeat' with_reducible
    first | assumption | apply addRecord_kept | apply setHubLock_kept | apply holdPort_kept | apply holdHub_kept
          | apply startReaction_kept | apply dropDegraded_kept | apply openAll_kept | apply weldReaction_kept | apply kept_ite
          | apply kept_dite | intro _ | dsimp only | split

theorem dependent_kept (code : Nat) (port : Option Port) (first : Reaction) (detail : List Byte) {s : State} (hs : Kept Q N s) : Kept Q N (dependent code port first detail s) := by
  unfold dependent
  repeat' with_reducible
    first | assumption | apply addRecord_kept | apply holdPort_kept | apply holdHub_kept | apply dropDegraded_kept | apply openAll_kept
          | apply weldReaction_kept | apply kept_ite | apply kept_dite | intro _ | dsimp only | split

theorem noteFatal_kept (code : Nat) {s : State} (hs : Kept Q N s) : Kept Q N (noteFatal code s) := by
  unfold noteFatal
  repeat' with_reducible
    first | assumption | apply kept_ite | apply kept_dite | apply Kept.withSteeple
          | (refine Kept.steeple (Q := Q) (N := N) (s := ?_) ?_ ?e0; (case e0 => exact rfl)) | intro _ | dsimp only | split

theorem decideNew_kept (code : Nat) (port : Option Port) (detail : List Byte) (ownOpening : Bool) {s : State} (hs : Kept Q N s) : Kept Q N (decideNew code port detail ownOpening s) := by
  unfold decideNew
  repeat' with_reducible
    first | assumption | apply addRecord_kept | apply startReaction_kept | apply enterDegraded_kept | apply nativeReaction_kept
          | apply escalate_kept | apply dependent_kept | apply kept_ite | apply kept_dite | intro _ | dsimp only | split

theorem decideFault_kept (code : Nat) (port : Option Port) (detail : List Byte) (ownOpening : Bool) {s0 : State} (hs : Kept Q N s0) : Kept Q N (decideFault code port detail ownOpening s0) := by
  unfold decideFault
  repeat' with_reducible
    first | assumption | apply addRecord_kept | apply endResetsOf_kept | apply noteDirty_kept | apply noteFatal_kept
          | apply decideNew_kept | apply kept_ite | apply kept_dite | intro _ | dsimp only | split

end Sys2Proof.Machine
end

