-- ==== Sys2Proof/Laws/KeptKeepOps.lean ====
section
/-! SUPPORT. KeepOps: every operation keeps the queue, the clock and the capacities. -/

namespace Sys2Proof.Machine

variable {Q : List Instr} {N : Nat}

theorem keepServes_kept (r : Req) (k : State → State) (hk : ∀ s, Kept Q N s → Kept Q N (k s)) {s : State} (hs : Kept Q N s) : Kept Q N (keepServes r k s) := by
  unfold keepServes
  repeat' with_reducible
    first | assumption | apply hk | apply refuse_kept | apply kept_ite | apply kept_dite | intro _ | dsimp only | split

theorem afterSave_kept (w : SaveFor) {s : State} (hs : Kept Q N s) : Kept Q N (afterSave s w) := by
  unfold afterSave
  repeat' with_reducible
    first | assumption | apply finish_kept | apply softReset_kept | apply request_kept | apply kept_ite | apply kept_dite
          | apply Kept.withPower | intro _ | dsimp only | split

theorem completeSave_kept {s : State} (hs : Kept Q N s) : Kept Q N (completeSave s) := by
  unfold completeSave
  repeat' with_reducible
    first | assumption | apply afterSave_kept | apply kept_foldl' | apply Kept.withKeep
          | (refine Kept.keep (Q := Q) (N := N) (s := ?_) ?_ ?e0 ?e1; (case e0 => first | exact rfl | with_unfolding_all exact rfl); (case e1 => first | exact rfl | with_unfolding_all exact rfl))
          | intro _ | dsimp only | split

theorem setProgram_kept (handle : Nat) (st : ProgramState) {s : State} (hs : Kept Q N s) : Kept Q N (setProgram handle st s) := by
  unfold setProgram
  repeat' with_reducible
    first | assumption | apply setBody_kept | intro _ | dsimp only | split

theorem programLog_kept (origin handle old new_ : Nat) {s : State} (hs : Kept Q N s) : Kept Q N (programLog origin handle old new_ s) := by
  unfold programLog
  repeat' with_reducible
    first | assumption | apply keepLog_kept | intro _ | dsimp only | split

theorem programChanged_kept (c : Nat × Nat × Nat) {s : State} (hs : Kept Q N s) : Kept Q N (programChanged s c) := by
  unfold programChanged
  repeat' with_reducible
    first | assumption | apply raise_kept | apply setProgram_kept | apply programLog_kept | apply kept_ite | apply kept_dite | intro _
          | dsimp only | split

theorem finishTimeSet_kept (count : Nat) (w : Waiting) {s : State} (hs : Kept Q N s) : Kept Q N (finishTimeSet count s w) := by
  unfold finishTimeSet
  repeat' with_reducible
    first | assumption | apply count_kept | apply raise_kept | apply finish_kept | refine Kept.box (Q := Q) (N := N) ?_ _ | intro _
          | dsimp only | split

theorem finishKeepWaiting_kept (b : BoundaryWrite) {s : State} (hs : Kept Q N s) : Kept Q N (finishKeepWaiting b s) := by
  unfold finishKeepWaiting
  repeat' with_reducible
    first | assumption | apply count_kept | apply finish_kept | apply finishTimeSet_kept | apply kept_ite | apply kept_dite
          | apply kept_foldl' | apply Kept.withKeep
          | (refine Kept.keep (Q := Q) (N := N) (s := ?_) ?_ ?e0 ?e1; (case e0 => exact rfl); (case e1 => exact rfl)) | intro _
          | dsimp only | split

theorem commitWrite_kept {s : State} (hs : Kept Q N s) : Kept Q N (commitWrite s) := by
  unfold commitWrite
  split
  · exact hs
  · dsimp only
    refine kept_foldl' (fun a s h => afterSave_kept _ h) (trace_kept _ _ _ (finishKeepWaiting_kept _ (kept_foldl' (fun a s h => programChanged_kept _ h) ?_)))
    have h1 : ∀ k : Keep, k.Within → Kept Q N (s.withKeep k) := fun k hk => hs.withKeep hk
    split <;> (refine raise_kept _ _ _ ?_; try refine raise_kept _ _ _ ?_) <;> (refine h1 _ ?_; simp only [Keep.Within, Keep.writeSave, List.length_take]; omega)

end Sys2Proof.Machine
end

