-- ==== Sys2Proof/Laws/KeptMetering.lean ====
section
/-! SUPPORT. Metering: every operation keeps the queue, the clock and the capacities. -/

namespace Sys2Proof.Machine

variable {Q : List Instr} {N : Nat}

theorem cycleWords_kept (n : Nat) (d : CycleData) (y : CycleSamples) (volts : Vector Bool 8) {s : State} (hs : Kept Q N s) : Kept Q N (cycleWords n d y volts s) := by
  unfold cycleWords
  repeat' with_reducible
    first | assumption | apply Kept.withDsp | intro _ | dsimp only | split

theorem loseFrequency_kept {s : State} (hs : Kept Q N s) : Kept Q N (loseFrequency s) := by
  unfold loseFrequency
  repeat' with_reducible
    first | assumption | apply Kept.withKeep
          | (refine Kept.keep (Q := Q) (N := N) (s := ?_) ?_ ?e0 ?e1; (case e0 => first | exact rfl | with_unfolding_all exact rfl); (case e1 => first | exact rfl | with_unfolding_all exact rfl))
          | apply Kept.withDsp | intro _ | dsimp only | split

theorem nextFrequency_kept (t : Nat) (d : CycleData) {s : State} (hs : Kept Q N s) : Kept Q N (nextFrequency t d s) := by
  unfold nextFrequency
  repeat' with_reducible
    first | assumption | apply loseFrequency_kept | apply kept_ite | apply kept_dite | apply Kept.withDsp | intro _ | dsimp only | split

theorem calCycle_kept {s : State} (hs : Kept Q N s) : Kept Q N (calCycle s) := by
  unfold calCycle
  repeat' with_reducible
    first | assumption | apply finish_kept | apply kept_ite | apply kept_dite | apply kept_foldl' | apply Kept.withDsp | intro _
          | dsimp only | split

theorem takeSettings_kept (start : Nat) {s : State} (hs : Kept Q N s) : Kept Q N (takeSettings start s) := by
  unfold takeSettings
  repeat' with_reducible
    first | assumption | apply kept_ite | apply kept_dite | apply Kept.withDsp | intro _ | dsimp only | split

theorem countCycle_kept {s : State} (hs : Kept Q N s) : Kept Q N (countCycle s) := by
  unfold countCycle
  repeat' with_reducible
    first | assumption | apply kept_ite | apply kept_dite | apply Kept.withKeep
          | (refine Kept.keep (Q := Q) (N := N) (s := ?_) ?_ ?e0 ?e1; (case e0 => exact rfl); (case e1 => exact rfl)) | intro _
          | dsimp only | split

theorem countCrossing_kept {s : State} (hs : Kept Q N s) : Kept Q N (countCrossing s) := by
  unfold countCrossing
  repeat' with_reducible
    first | assumption | apply kept_ite | apply kept_dite | apply Kept.withTurret
          | (refine Kept.turret (Q := Q) (N := N) (s := ?_) ?_ ?e0; (case e0 => first | exact rfl | with_unfolding_all exact rfl))
          | intro _ | dsimp only | split

theorem lineCycle_kept (t strobe : Nat) (d : CycleData) {s0 : State} (hs : Kept Q N s0) : Kept Q N (lineCycle t strobe d s0) := by
  unfold lineCycle
  repeat' with_reducible
    first | assumption | apply cycleWords_kept | apply nextFrequency_kept | apply calCycle_kept | apply takeSettings_kept
          | apply countCycle_kept | apply countCrossing_kept | apply Kept.withDsp | intro _ | dsimp only | split

theorem execLineCycleEnd_kept (d : CycleData) {s : State} (hs : Kept Q N s) : KeptOut Q N (execLineCycleEnd d s) := by
  unfold execLineCycleEnd
  repeat' with_reducible
    first | assumption | apply lineCycle_kept | apply kept_ite | apply kept_dite | apply keptOut_ite | apply keptOut_dite
          | apply keptOut_next | intro _ | dsimp only | split

theorem execPathChange_kept (c : Fin 72) (first : PathStrobe) (rest : List PathStrobe) {s : State} (hs : Kept Q N s) : KeptOut Q N (execPathChange c first rest s) := by
  unfold execPathChange
  repeat' with_reducible
    first | assumption | apply trace_kept | apply kept_ite | apply kept_dite | apply keptOut_ite | apply keptOut_dite | apply keptOut_next
          | apply kept_foldl' | apply Kept.withDsp | intro _ | dsimp only | split

theorem markUnsync_kept {s : State} (hs : Kept Q N s) : Kept Q N (markUnsync s) := by
  unfold markUnsync
  repeat' with_reducible
    first | assumption | apply Kept.withDsp | intro _ | dsimp only | split

theorem execFrequencyDetected_kept (x : FrequencyFound) {s : State} (hs : Kept Q N s) : KeptOut Q N (execFrequencyDetected x s) := by
  unfold execFrequencyDetected
  repeat' with_reducible
    first | assumption | apply markUnsync_kept | apply kept_ite | apply kept_dite | apply keptOut_ite | apply keptOut_dite
          | apply keptOut_next | apply Kept.withKeep
          | (refine Kept.keep (Q := Q) (N := N) (s := ?_) ?_ ?e0 ?e1; (case e0 => first | exact rfl | with_unfolding_all exact rfl); (case e1 => first | exact rfl | with_unfolding_all exact rfl))
          | apply Kept.withDsp | intro _ | dsimp only | split

theorem execFrequencyLost_kept {s : State} (hs : Kept Q N s) : KeptOut Q N (execFrequencyLost s) := by
  unfold execFrequencyLost
  repeat' with_reducible
    first | assumption | apply loseFrequency_kept | apply kept_ite | apply kept_dite | apply keptOut_ite | apply keptOut_dite
          | apply keptOut_next | intro _ | dsimp only | split

theorem noteBits_kept (m : Fin 144) {s : State} (hs : Kept Q N s) : Kept Q N (noteBits m s) := by
  unfold noteBits
  repeat' with_reducible
    first | assumption | apply Kept.withDsp | intro _ | dsimp only | split

theorem setTone_kept (m : Fin 144) (new_ : Tone) {s0 : State} (hs : Kept Q N s0) : Kept Q N (setTone m new_ s0) := by
  unfold setTone
  repeat' with_reducible
    first | assumption | apply trace_kept | apply keepLog_kept | apply noteBits_kept | apply kept_ite | apply kept_dite
          | apply Kept.withDsp | intro _ | dsimp only | split

theorem calLog_kept (box op : Nat) (mods : List Nat) {s : State} (hs : Kept Q N s) : Kept Q N (calLog box op mods s) := by
  unfold calLog
  repeat' with_reducible
    first | assumption | apply keepLog_kept | intro _ | dsimp only | split

theorem setReference_kept (x : Nat × List (Nat × Int)) {s : State} (hs : Kept Q N s) : Kept Q N (setReference s x) := by
  unfold setReference
  repeat' with_reducible
    first | assumption | apply noteBits_kept | apply setTone_kept | apply kept_ite | apply kept_dite | apply Kept.withDsp | intro _
          | dsimp only | split

theorem settleCapture_kept {s : State} (hs : Kept Q N s) : Kept Q N (settleCapture s) := by
  unfold settleCapture
  repeat' with_reducible
    first | assumption | apply finish_kept | apply calLog_kept | apply setReference_kept | apply kept_ite | apply kept_dite
          | apply kept_foldl' | apply Kept.withDsp | refine Kept.box (Q := Q) (N := N) ?_ _ | intro _ | dsimp only | split

theorem execToneWindowEnd_kept (m : Fin 144) (samples : List Int) {s : State} (hs : Kept Q N s) : KeptOut Q N (execToneWindowEnd m samples s) := by
  unfold execToneWindowEnd
  repeat' with_reducible
    first | assumption | apply setTone_kept | apply settleCapture_kept | apply kept_ite | apply kept_dite | apply keptOut_ite
          | apply keptOut_dite | apply keptOut_next | apply Kept.withDsp | intro _ | dsimp only | split

theorem execToneObscured_kept (m : Fin 144) {s : State} (hs : Kept Q N s) : KeptOut Q N (execToneObscured m s) := by
  unfold execToneObscured
  repeat' with_reducible
    first | assumption | apply setTone_kept | apply kept_ite | apply kept_dite | apply keptOut_ite | apply keptOut_dite
          | apply keptOut_next | intro _ | dsimp only | split

theorem execToneStateSave_kept {s : State} (hs : Kept Q N s) : KeptOut Q N (execToneStateSave s) := by
  unfold execToneStateSave
  repeat' with_reducible
    first | assumption | apply kept_ite | apply kept_dite | apply keptOut_ite | apply keptOut_dite | apply keptOut_next
          | apply Kept.withDsp | intro _ | dsimp only | split

theorem calWrite_kept (r : Req) {s : State} (hs : Kept Q N s) : Kept Q N (calWrite r s) := by
  unfold calWrite
  repeat' with_reducible
    first | assumption | apply refuse_kept | apply accept_kept | apply withLength_kept | apply noHandle_kept | apply check_kept
          | apply keepServes_kept | apply calLog_kept | apply kept_ite | apply kept_dite | apply Kept.withDsp
          | refine Kept.box (Q := Q) (N := N) ?_ _ | intro _ | dsimp only | split

theorem execCalWrite_kept (b : Box) {s : State} (hs : Kept Q N s) : KeptOut Q N (execCalWrite b s) := by
  unfold execCalWrite
  repeat' with_reducible
    first | assumption | apply calWrite_kept | apply request_kept | apply keptOut_next | intro _ | dsimp only | split

theorem execCalCaptureTimeout_kept {s : State} (hs : Kept Q N s) : KeptOut Q N (execCalCaptureTimeout s) := by
  unfold execCalCaptureTimeout
  repeat' with_reducible
    first | assumption | apply finish_kept | apply kept_ite | apply kept_dite | apply keptOut_ite | apply keptOut_dite
          | apply keptOut_next | apply Kept.withDsp | intro _ | dsimp only | split

theorem calRead_kept (r : Req) {s : State} (hs : Kept Q N s) : Kept Q N (calRead r s) := by
  unfold calRead
  repeat' with_reducible
    first | assumption | apply respond_kept | apply withLength_kept | apply noHandle_kept | apply check_kept | apply keepServes_kept
          | intro _ | dsimp only | split

theorem execCalRead_kept (b : Box) {s : State} (hs : Kept Q N s) : KeptOut Q N (execCalRead b s) := by
  unfold execCalRead
  repeat' with_reducible
    first | assumption | apply calRead_kept | apply request_kept | apply keptOut_next | intro _ | dsimp only | split

theorem toneStatus_kept (r : Req) {s : State} (hs : Kept Q N s) : Kept Q N (toneStatus r s) := by
  unfold toneStatus
  repeat' with_reducible
    first | assumption | apply respond_kept | apply refuse_kept | apply withLength_kept | apply withHandle_kept | apply keepServes_kept
          | intro _ | dsimp only | split

theorem execToneStatus_kept (b : Box) {s : State} (hs : Kept Q N s) : KeptOut Q N (execToneStatus b s) := by
  unfold execToneStatus
  repeat' with_reducible
    first | assumption | apply toneStatus_kept | apply request_kept | apply keptOut_next | intro _ | dsimp only | split

theorem latchEvents_kept (old new_ : Latched) (i : Fin 29) {s : State} (hs : Kept Q N s) : Kept Q N (latchEvents old new_ s i) := by
  unfold latchEvents
  repeat' with_reducible
    first | assumption | apply raise_kept | apply kept_ite | apply kept_dite | intro _ | dsimp only | split

theorem latchEnding_kept (l : Latched) {s : State} (hs : Kept Q N s) : Kept Q N (latchEnding l s) := by
  unfold latchEnding
  exact hs.withRotunda hs.within.rotunda

theorem latchSessions_kept (l : Latched) {s : State} (hs : Kept Q N s) : Kept Q N (latchSessions l s) := by
  unfold latchSessions
  have h0 : Kept Q N (latchEnding l s) := latchEnding_kept l hs
  have h1 : Kept Q N ((latchEnding l s).withLegal { (latchEnding l s).legal with
      signing := s.legal.signing.map (fun j => j.latch l), waitingRecords := s.legal.waitingRecords.map (fun j => j.latch l) }) := by
    refine h0.withLegal ⟨hs.within.legal.1, hs.within.legal.2.1, ?_⟩
    simp only [List.length_map]
    exact hs.within.legal.2.2
  refine kept_foldl' (fun c s h => ?_) h1
  split
  · exact kept_ite (fun _ => h) (fun _ => setBody_kept _ _ h)
  · exact h

theorem deliverStreams_kept (l : Latched) {s : State} (hs : Kept Q N s) : Kept Q N (deliverStreams l s) := by
  unfold deliverStreams
  repeat' with_reducible
    first | assumption | apply raiseTo_kept | apply setBody_kept | apply kept_ite | apply kept_dite | apply kept_foldl' | intro _
          | dsimp only | split

theorem finishIdleTimeSets_kept {s : State} (hs : Kept Q N s) : Kept Q N (finishIdleTimeSets s) := by
  unfold finishIdleTimeSets
  repeat' with_reducible
    first | assumption | apply finishTimeSet_kept | apply kept_foldl' | apply Kept.withKeep
          | (refine Kept.keep (Q := Q) (N := N) (s := ?_) ?_ ?e0 ?e1; (case e0 => exact rfl); (case e1 => exact rfl)) | intro _
          | dsimp only | split

theorem latchBoundaries_kept {s : State} (hs : Kept Q N s) : Kept Q N (latchBoundaries s) := by
  unfold latchBoundaries
  repeat' with_reducible
    first | assumption | apply programChanged_kept | apply finishIdleTimeSets_kept | apply kept_ite | apply kept_dite | apply kept_foldl'
          | apply Kept.withKeep
          | (refine Kept.keep (Q := Q) (N := N) (s := ?_) ?_ ?e0 ?e1; (case e0 => exact rfl); (case e1 => exact rfl)) | intro _
          | dsimp only | split

theorem latchSave_kept {s : State} (hs : Kept Q N s) : Kept Q N (latchSave s) := by
  unfold latchSave
  repeat' with_reducible
    first | assumption | apply kept_ite | apply kept_dite | apply Kept.withKeep
          | (refine Kept.keep (Q := Q) (N := N) (s := ?_) ?_ ?e0 ?e1; (case e0 => exact rfl); (case e1 => exact rfl)) | intro _
          | dsimp only | split

theorem takeFeed_kept (l : Latched) {s : State} (hs : Kept Q N s) : Kept Q N (takeFeed l s) := by
  unfold takeFeed
  repeat' with_reducible
    first | assumption | apply Kept.withKeep
          | (refine Kept.keep (Q := Q) (N := N) (s := ?_) ?_ ?e0 ?e1; (case e0 => exact rfl); (case e1 => exact rfl)) | apply Kept.withDsp
          | intro _ | dsimp only | split

theorem notePrevious_kept (l : Latched) {s : State} (hs : Kept Q N s) : Kept Q N (notePrevious l s) := by
  unfold notePrevious
  repeat' with_reducible
    first | assumption | apply Kept.withKeep
          | (refine Kept.keep (Q := Q) (N := N) (s := ?_) ?_ ?e0 ?e1; (case e0 => exact rfl); (case e1 => exact rfl)) | intro _
          | dsimp only | split

theorem noteStrobe_kept (n : Nat) {s : State} (hs : Kept Q N s) : Kept Q N (noteStrobe n s) := by
  unfold noteStrobe
  repeat' with_reducible
    first | assumption | apply Kept.withKeep
          | (refine Kept.keep (Q := Q) (N := N) (s := ?_) ?_ ?e0 ?e1; (case e0 => exact rfl); (case e1 => exact rfl)) | intro _
          | dsimp only | split

theorem traceLatch_kept (l : Latched) {s : State} (hs : Kept Q N s) : Kept Q N (traceLatch l s) := by
  unfold traceLatch
  repeat' with_reducible
    first | assumption | apply trace_kept | apply kept_ite | apply kept_dite | intro _ | dsimp only | split

theorem makeLatch_kept {s0 : State} (hs : Kept Q N s0) : Kept Q N (makeLatch s0) := by
  unfold makeLatch
  exact deliverStreams_kept _ (traceLatch_kept _ (noteStrobe_kept _ (latchSave_kept (latchBoundaries_kept (latchSessions_kept _
    (notePrevious_kept _ (kept_foldl' (fun i s h => latchEvents_kept _ _ _ h) (takeFeed_kept _ (commitWrite_kept (completeSave_kept hs))))))))))

theorem execLatch_kept {s : State} (hs : Kept Q N s) : KeptOut Q N (execLatch s) := by
  unfold execLatch
  repeat' with_reducible
    first | assumption | apply makeLatch_kept | apply kept_ite | apply kept_dite | apply keptOut_ite | apply keptOut_dite
          | apply keptOut_next | intro _ | dsimp only | split

theorem execSaveComplete_kept {s : State} (hs : Kept Q N s) : KeptOut Q N (execSaveComplete s) := by
  unfold execSaveComplete
  repeat' with_reducible
    first | assumption | apply completeSave_kept | apply kept_ite | apply kept_dite | apply keptOut_ite | apply keptOut_dite
          | apply keptOut_next | intro _ | dsimp only | split

theorem regRead_kept (r : Req) {s : State} (hs : Kept Q N s) : Kept Q N (regRead r s) := by
  unfold regRead
  repeat' with_reducible
    first | assumption | apply respond_kept | apply withLength_kept | apply noHandle_kept | apply check_kept | apply keepServes_kept
          | apply kept_ite | apply kept_dite | intro _ | dsimp only | split

theorem execRegRead_kept (b : Box) {s : State} (hs : Kept Q N s) : KeptOut Q N (execRegRead b s) := by
  unfold execRegRead
  repeat' with_reducible
    first | assumption | apply regRead_kept | apply request_kept | apply keptOut_next | intro _ | dsimp only | split

theorem regReadSet_kept (r : Req) {s : State} (hs : Kept Q N s) : Kept Q N (regReadSet r s) := by
  unfold regReadSet
  repeat' with_reducible
    first | assumption | apply respond_kept | apply withLength_kept | apply noHandle_kept | apply check_kept | apply keepServes_kept
          | intro _ | dsimp only | split

theorem execRegReadSet_kept (b : Box) {s : State} (hs : Kept Q N s) : KeptOut Q N (execRegReadSet b s) := by
  unfold execRegReadSet
  repeat' with_reducible
    first | assumption | apply regReadSet_kept | apply request_kept | apply keptOut_next | intro _ | dsimp only | split

end Sys2Proof.Machine
end

