-- ==== Sys2Proof/Laws/KeptBilling.lean ====
section
/-! SUPPORT. Billing: every operation keeps the queue, the clock and the capacities. -/

namespace Sys2Proof.Machine

variable {Q : List Instr} {N : Nat}

theorem timeGet_kept (r : Req) {s : State} (hs : Kept Q N s) : Kept Q N (timeGet r s) := by
  unfold timeGet
  repeat' with_reducible
    first | assumption | apply respond_kept | apply withLength_kept | apply noHandle_kept | apply keepServes_kept | intro _ | dsimp only
          | split

theorem execTimeGet_kept (b : Box) {s : State} (hs : Kept Q N s) : KeptOut Q N (execTimeGet b s) := by
  unfold execTimeGet
  repeat' with_reducible
    first | assumption | apply timeGet_kept | apply request_kept | apply keptOut_next | intro _ | dsimp only | split

theorem changeTime_kept (kind t : Nat) {s : State} (hs : Kept Q N s) : Kept Q N (changeTime kind t s) := by
  unfold changeTime
  dsimp only
  refine kept_ite (fun _ => ?_) (fun _ => kept_ite (fun _ => hs.withKeep (hs.keep rfl rfl))
    (fun _ => kept_ite (fun _ => ?_) (fun _ => hs.withKeep (hs.keep rfl rfl))))
  all_goals exact ⟨hs.pending, hs.now, { hs.within with keep := hs.keep rfl rfl }⟩

theorem timeLog_kept (box kind c0 b0 : Nat) (after : Nat) {s : State} (hs : Kept Q N s) : Kept Q N (timeLog box kind c0 b0 after s) := by
  unfold timeLog
  repeat' with_reducible
    first | assumption | apply keepLog_kept | apply kept_ite | apply kept_dite | intro _ | dsimp only | split

theorem timeSet_kept (r : Req) {s : State} (hs : Kept Q N s) : Kept Q N (timeSet r s) := by
  unfold timeSet
  repeat' with_reducible
    first | assumption | apply refuse_kept | apply accept_kept | apply withLength_kept | apply noHandle_kept | apply keepServes_kept
          | apply finishTimeSet_kept | apply commitWrite_kept | apply changeTime_kept | apply timeLog_kept | apply kept_ite
          | apply kept_dite | apply Kept.withKeep
          | (refine Kept.keep (Q := Q) (N := N) (s := ?_) ?_ ?e0 ?e1; (case e0 => exact rfl); (case e1 => exact rfl))
          | apply Kept.withPower | refine Kept.box (Q := Q) (N := N) ?_ _ | intro _ | dsimp only | split

theorem execTimeSet_kept (b : Box) {s : State} (hs : Kept Q N s) : KeptOut Q N (execTimeSet b s) := by
  unfold execTimeSet
  repeat' with_reducible
    first | assumption | apply timeSet_kept | apply request_kept | apply keptOut_next | intro _ | dsimp only | split

theorem execSlewComplete_kept {s : State} (hs : Kept Q N s) : KeptOut Q N (execSlewComplete s) := by
  unfold execSlewComplete
  repeat' with_reducible
    first | assumption | apply kept_ite | apply kept_dite | apply keptOut_ite | apply keptOut_dite | apply keptOut_next
          | apply Kept.withKeep
          | (refine Kept.keep (Q := Q) (N := N) (s := ?_) ?_ ?e0 ?e1; (case e0 => exact rfl); (case e1 => exact rfl)) | intro _
          | dsimp only | split

theorem execHoldEnd_kept {s : State} (hs : Kept Q N s) : KeptOut Q N (execHoldEnd s) := by
  unfold execHoldEnd
  repeat' with_reducible
    first | assumption | apply kept_ite | apply kept_dite | apply keptOut_ite | apply keptOut_dite | apply keptOut_next
          | apply Kept.withKeep
          | (refine Kept.keep (Q := Q) (N := N) (s := ?_) ?_ ?e0 ?e1; (case e0 => exact rfl); (case e1 => exact rfl)) | intro _
          | dsimp only | split

theorem snapshotRead_kept (r : Req) {s : State} (hs : Kept Q N s) : Kept Q N (snapshotRead r s) := by
  unfold snapshotRead
  repeat' with_reducible
    first | assumption | apply respond_kept | apply refuse_kept | apply withLength_kept | apply noHandle_kept | apply keepServes_kept
          | apply kept_ite | apply kept_dite | intro _ | dsimp only | split

theorem execSnapshotRead_kept (b : Box) {s : State} (hs : Kept Q N s) : KeptOut Q N (execSnapshotRead b s) := by
  unfold execSnapshotRead
  repeat' with_reducible
    first | assumption | apply snapshotRead_kept | apply request_kept | apply keptOut_next | intro _ | dsimp only | split

theorem billingClose_kept (r : Req) {s : State} (hs : Kept Q N s) : Kept Q N (billingClose r s) := by
  unfold billingClose
  repeat' with_reducible
    first | assumption | apply refuse_kept | apply accept_kept | apply withLength_kept | apply noHandle_kept | apply keepLog_kept
          | apply keepServes_kept | apply commitWrite_kept | apply kept_ite | apply kept_dite | apply Kept.withKeep
          | (refine Kept.keep (Q := Q) (N := N) (s := ?_) ?_ ?e0 ?e1; (case e0 => exact rfl); (case e1 => exact rfl))
          | refine Kept.box (Q := Q) (N := N) ?_ _ | intro _ | dsimp only | split

theorem execBillingClose_kept (b : Box) {s : State} (hs : Kept Q N s) : KeptOut Q N (execBillingClose b s) := by
  unfold execBillingClose
  repeat' with_reducible
    first | assumption | apply billingClose_kept | apply request_kept | apply keptOut_next | intro _ | dsimp only | split

theorem activate_kept (r : Req) (handle when_ instant old : Nat) {s : State} (hs : Kept Q N s) : Kept Q N (activate r handle when_ instant old s) := by
  unfold activate
  repeat' with_reducible
    first | assumption | apply accept_kept | apply finish_kept | apply setProgram_kept | apply programLog_kept | apply kept_ite
          | apply kept_dite | apply Kept.withKeep
          | (refine Kept.keep (Q := Q) (N := N) (s := ?_) ?_ ?e0 ?e1; (case e0 => exact rfl); (case e1 => exact rfl))
          | refine Kept.box (Q := Q) (N := N) ?_ _ | intro _ | dsimp only | split

theorem tariffActivate_kept (r : Req) {s : State} (hs : Kept Q N s) : Kept Q N (tariffActivate r s) := by
  unfold tariffActivate
  repeat' with_reducible
    first | assumption | apply refuse_kept | apply acceptDone_kept | apply withLength_kept | apply withHandle_kept | apply check_kept
          | apply keepServes_kept | apply commitWrite_kept | apply activate_kept | apply kept_ite | apply kept_dite | intro _ | dsimp only
          | split

theorem execTariffActivate_kept (b : Box) {s : State} (hs : Kept Q N s) : KeptOut Q N (execTariffActivate b s) := by
  unfold execTariffActivate
  repeat' with_reducible
    first | assumption | apply tariffActivate_kept | apply request_kept | apply keptOut_next | intro _ | dsimp only | split

theorem execCommitWordWritten_kept {s : State} (hs : Kept Q N s) : KeptOut Q N (execCommitWordWritten s) := by
  unfold execCommitWordWritten
  repeat' with_reducible
    first | assumption | apply commitWrite_kept | apply kept_ite | apply kept_dite | apply keptOut_ite | apply keptOut_dite
          | apply keptOut_next | intro _ | dsimp only | split

theorem rebuildWrite_kept (cause limit : Nat) (step : Option (Nat × Nat)) {s : State} (hs : Kept Q N s) : Kept Q N (rebuildWrite cause limit step s) := by
  unfold rebuildWrite
  repeat' with_reducible
    first | assumption | apply programChanged_kept | apply commitWrite_kept | apply kept_ite | apply kept_dite | apply kept_foldl'
          | apply Kept.withKeep
          | (refine Kept.keep (Q := Q) (N := N) (s := ?_) ?_ ?e0 ?e1; (case e0 => first | exact rfl | with_unfolding_all exact rfl); (case e1 => first | exact rfl | with_unfolding_all exact rfl))
          | intro _ | dsimp only | split

theorem restoreSave_kept (restored : Bool) {s : State} (hs : Kept Q N s) : Kept Q N (restoreSave restored s) := by
  unfold restoreSave
  repeat' with_reducible
    first | assumption | apply Kept.withKeep
          | (refine Kept.keep (Q := Q) (N := N) (s := ?_) ?_ ?e0 ?e1; (case e0 => first | exact rfl | with_unfolding_all exact rfl); (case e1 => first | exact rfl | with_unfolding_all exact rfl))
          | apply Kept.withDsp | intro _ | dsimp only | split

theorem alignPrograms_kept {s : State} (hs : Kept Q N s) : Kept Q N (alignPrograms s) := by
  unfold alignPrograms
  repeat' with_reducible
    first | assumption | apply State_setChannels_kept | apply kept_ite | apply kept_dite | intro _ | dsimp only | split

theorem restoreKeep_kept (restored : Bool) (cut : Nat) {s : State} (hs : Kept Q N s) : Kept Q N (restoreKeep restored cut s) := by
  unfold restoreKeep
  repeat' with_reducible
    first | assumption | apply rebuildWrite_kept | apply restoreSave_kept | apply alignPrograms_kept | apply kept_ite | apply kept_dite
          | apply Kept.withKeep
          | (refine Kept.keep (Q := Q) (N := N) (s := ?_) ?_ ?e0 ?e1; (case e0 => first | exact rfl | with_unfolding_all exact rfl); (case e1 => first | exact rfl | with_unfolding_all exact rfl))
          | intro _ | dsimp only | split

theorem powerFailReport_kept (cut : Nat) {s : State} (hs : Kept Q N s) : Kept Q N (powerFailReport cut s) := by
  unfold powerFailReport
  repeat' with_reducible
    first | assumption | apply raise_kept | apply keepLog_kept | apply kept_ite | apply kept_dite | apply kept_foldl'
          | apply Kept.withKeep
          | (refine Kept.keep (Q := Q) (N := N) (s := ?_) ?_ ?e0 ?e1; (case e0 => exact rfl); (case e1 => exact rfl)) | intro _
          | dsimp only | split

end Sys2Proof.Machine
end

