-- ==== Sys2Proof/Laws/KeptLegal.lean ====
section
/-! SUPPORT. Legal: every operation keeps the queue, the clock and the capacities. -/

namespace Sys2Proof.Machine

variable {Q : List Instr} {N : Nat}

theorem deliverRecord_kept (j : SignJob) (c : RecordCore) (rec_ : List Byte) {s : State} (hs : Kept Q N s) : Kept Q N (deliverRecord j c rec_ s) := by
  unfold deliverRecord
  repeat' with_reducible
    first | assumption | apply raise_kept | apply finish_kept | apply request_kept | intro _ | dsimp only | split

theorem takeCounter_kept {s : State} (hs : Kept Q N s) : Kept Q N (takeCounter s).2 := hs.withLegal hs.within.legal

theorem signHead_kept (j : SignJob) (c : RecordCore) {s0 : State} (hs : Kept Q N s0) : Kept Q N (signHead j c s0) := by
  unfold signHead
  have h := takeCounter_kept (requeue_kept s0.legal.signing.tail hs)
  exact deliverRecord_kept _ _ _ (trace_kept _ _ _ (countAt_kept _ _ (countAt_kept _ _ (State_draw_kept h))))

theorem dropHead_kept (j : SignJob) {s : State} (hs : Kept Q N s) : Kept Q N (dropHead j s) := by
  unfold dropHead
  repeat' with_reducible
    first | assumption | apply finish_kept | apply requeue_kept | apply request_kept | intro _ | dsimp only | split

theorem execSignatureComplete_kept {s : State} (hs : Kept Q N s) : KeptOut Q N (execSignatureComplete s) := by
  unfold execSignatureComplete
  repeat' with_reducible
    first | assumption | apply signHead_kept | apply dropHead_kept | apply kept_ite | apply kept_dite | apply keptOut_ite
          | apply keptOut_dite | apply keptOut_next | intro _ | dsimp only | split

theorem queueSignature_kept (r : Req) (j : SignJob) {s : State} (hs : Kept Q N s) : Kept Q N (queueSignature r j s) := by
  unfold queueSignature
  refine kept_ite (fun _ => refuse_kept _ _ hs) (fun _ => kept_ite (fun _ => acceptDone_kept _ _ _ hs)
    (fun _ => kept_ite (fun _ => refuse_kept _ _ hs) (fun hc => ?_)))
  have h1 := (accept_kept r hs).within.legal
  refine (accept_kept _ hs).withLegal ?_
  unfold Legal.Within
  refine ⟨hs.within.legal.1, hs.within.legal.2.1, ?_⟩
  simp only [List.length_append, List.length_singleton]
  omega

theorem readSigned_kept (r : Req) {s : State} (hs : Kept Q N s) : Kept Q N (readSigned r s) := by
  unfold readSigned
  repeat' with_reducible
    first | assumption | apply refuse_kept | apply withLength_kept | apply withHandle_kept | apply queueSignature_kept | apply kept_ite
          | apply kept_dite | intro _ | dsimp only | split

theorem execReadSigned_kept (b : Box) {s : State} (hs : Kept Q N s) : KeptOut Q N (execReadSigned b s) := by
  unfold execReadSigned
  repeat' with_reducible
    first | assumption | apply readSigned_kept | apply request_kept | apply keptOut_next | intro _ | dsimp only | split

theorem certRead_kept (r : Req) {s : State} (hs : Kept Q N s) : Kept Q N (certRead r s) := by
  unfold certRead
  repeat' with_reducible
    first | assumption | apply respond_kept | apply refuse_kept | apply withLength_kept | apply noHandle_kept | apply check_kept
          | apply kept_ite | apply kept_dite | intro _ | dsimp only | split

theorem execCertRead_kept (b : Box) {s : State} (hs : Kept Q N s) : KeptOut Q N (execCertRead b s) := by
  unfold execCertRead
  repeat' with_reducible
    first | assumption | apply certRead_kept | apply request_kept | apply keptOut_next | intro _ | dsimp only | split

theorem legalLogRead_kept (r : Req) {s : State} (hs : Kept Q N s) : Kept Q N (legalLogRead r s) := by
  unfold legalLogRead
  repeat' with_reducible
    first | assumption | apply respond_kept | apply withLength_kept | apply noHandle_kept | apply check_kept | apply keepServes_kept
          | intro _ | dsimp only | split

theorem execLegalLogRead_kept (b : Box) {s : State} (hs : Kept Q N s) : KeptOut Q N (execLegalLogRead b s) := by
  unfold execLegalLogRead
  repeat' with_reducible
    first | assumption | apply legalLogRead_kept | apply request_kept | apply keptOut_next | intro _ | dsimp only | split

theorem calSeal_kept (r : Req) {s : State} (hs : Kept Q N s) : Kept Q N (calSeal r s) := by
  unfold calSeal
  repeat' with_reducible
    first | assumption | apply refuse_kept | apply accept_kept | apply withLength_kept | apply noHandle_kept | apply keepServes_kept
          | apply Kept.withLegal
          | (refine Kept.legal (Q := Q) (N := N) (s := ?_) ?_ ?e0 ?e1 ?e2; (case e0 => exact rfl); (case e1 => exact rfl); (case e2 => exact rfl))
          | intro _ | dsimp only | split

theorem execCalSeal_kept (b : Box) {s : State} (hs : Kept Q N s) : KeptOut Q N (execCalSeal b s) := by
  unfold execCalSeal
  repeat' with_reducible
    first | assumption | apply calSeal_kept | apply request_kept | apply keptOut_next | intro _ | dsimp only | split

theorem execSealPulseEnd_kept (sense : FuseSense) {s : State} (hs : Kept Q N s) : KeptOut Q N (execSealPulseEnd sense s) := by
  unfold execSealPulseEnd
  repeat' with_reducible
    first | assumption | apply finish_kept | apply sealLog_kept | apply kept_ite | apply kept_dite | apply keptOut_ite
          | apply keptOut_dite | apply keptOut_next | apply Kept.withLegal
          | (refine Kept.legal (Q := Q) (N := N) (s := ?_) ?_ ?e0 ?e1 ?e2; (case e0 => exact rfl); (case e1 => exact rfl); (case e2 => exact rfl))
          | intro _ | dsimp only | split

theorem execCalenChange_kept (level : Bool) {s : State} (hs : Kept Q N s) : KeptOut Q N (execCalenChange level s) := by
  unfold execCalenChange
  repeat' with_reducible
    first | assumption | apply finish_kept | apply keepLog_kept | apply kept_ite | apply kept_dite | apply keptOut_ite
          | apply keptOut_dite | apply keptOut_next | apply Kept.withLegal
          | (refine Kept.legal (Q := Q) (N := N) (s := ?_) ?_ ?e0 ?e1 ?e2; (case e0 => exact rfl); (case e1 => exact rfl); (case e2 => exact rfl))
          | apply Kept.withDsp | intro _ | dsimp only | split

theorem execTamperInputChange_kept (t : TamperInput) (opened : Bool) {s : State} (hs : Kept Q N s) : KeptOut Q N (execTamperInputChange t opened s) := by
  unfold execTamperInputChange
  repeat' with_reducible
    first | assumption | apply aonStore_kept | apply kept_ite | apply kept_dite | apply keptOut_ite | apply keptOut_dite
          | apply keptOut_next | apply Kept.withLegal
          | (refine Kept.legal (Q := Q) (N := N) (s := ?_) ?_ ?e0 ?e1 ?e2; (case e0 => exact rfl); (case e1 => exact rfl); (case e2 => exact rfl))
          | intro _ | dsimp only | split

theorem execTamperBufferMove_kept {s : State} (hs : Kept Q N s) : KeptOut Q N (execTamperBufferMove s) := by
  unfold execTamperBufferMove
  repeat' with_reducible
    first | assumption | apply moveAonBuffer_kept | apply kept_ite | apply kept_dite | apply keptOut_ite | apply keptOut_dite
          | apply keptOut_next | intro _ | dsimp only | split

end Sys2Proof.Machine
end

