-- ==== Sys2Proof/Laws/KeptSiteOps.lean ====
section
/-! SUPPORT. SiteOps: every operation keeps the queue, the clock and the capacities. -/

namespace Sys2Proof.Machine

variable {Q : List Instr} {N : Nat}

theorem stampBodies_kept {s : State} (hs : Kept Q N s) : Kept Q N (stampBodies s) := by
  unfold stampBodies
  exact Kept.withTurret hs (hs.turret (by unfold Turret.seeSite; split <;> rfl))

end Sys2Proof.Machine
end

