-- ==== Sys2Proof/Laws/KeptPorts.lean ====
section
/-! SUPPORT. Ports: every operation keeps the queue, the clock and the capacities. -/

namespace Sys2Proof.Machine

variable {Q : List Instr} {N : Nat}

theorem retarget_kept (p : Port) (t : Target) {s : State} (hs : Kept Q N s) : Kept Q N (retarget p t s) := by
  unfold retarget
  repeat' with_reducible
    first | assumption | apply State_modLane_kept | intro _ | dsimp only | split

theorem noteTimed_kept (p : Port) {s : State} (hs : Kept Q N s) : Kept Q N (noteTimed p s) := by
  unfold noteTimed
  repeat' with_reducible
    first | assumption | apply State_modLane_kept | intro _ | dsimp only | split

theorem clearFallbacks_kept (p : Port) {s : State} (hs : Kept Q N s) : Kept Q N (clearFallbacks p s) := by
  unfold clearFallbacks
  repeat' with_reducible
    first | assumption | apply State_modLane_kept | intro _ | dsimp only | split

theorem beginOpening_kept (p : Port) (urgent : Bool) (step n : Nat) (t : Target) {s : State} (hs : Kept Q N s) : Kept Q N (beginOpening p urgent step n t s) := by
  unfold beginOpening
  repeat' with_reducible
    first | assumption | apply State_modLane_kept | apply transit_kept | apply setPbd_kept | apply clearFallbacks_kept | apply kept_ite
          | apply kept_dite | intro _ | dsimp only | split

theorem normalOpening_kept (p : Port) (n : Nat) (t : Target) {s : State} (hs : Kept Q N s) : Kept Q N (normalOpening p n t s) := by
  unfold normalOpening
  repeat' with_reducible
    first | assumption | apply State_modLane_kept | apply postOutcomeOf_kept | apply beginOpening_kept | apply kept_ite | apply kept_dite
          | intro _ | dsimp only | split

theorem urgentOpening_kept (p : Port) (t : Target) {s : State} (hs : Kept Q N s) : Kept Q N (urgentOpening p t s) := by
  unfold urgentOpening
  repeat' with_reducible
    first | assumption | apply State_modLane_kept | apply postOutcomeOf_kept | apply beginOpening_kept | intro _ | dsimp only | split

theorem allowanceOpening_kept (p : Port) {s : State} (hs : Kept Q N s) : Kept Q N (allowanceOpening p s) := by
  unfold allowanceOpening
  repeat' with_reducible
    first | assumption | apply State_modLane_kept | apply stopPwm_kept | apply transit_kept | apply normalOpening_kept | apply kept_ite | intro _
          | dsimp only | split

theorem unplugWaiting_kept (p : Port) {s : State} (hs : Kept Q N s) : Kept Q N (unplugWaiting p s) := by
  unfold unplugWaiting
  repeat' with_reducible
    first | assumption | apply State_modLane_kept | apply setPbd_kept | apply clearFallbacks_kept | intro _ | dsimp only | split

theorem startWaiting_kept (p : Port) (t : Target) {s : State} (hs : Kept Q N s) : Kept Q N (startWaiting p t s) := by
  unfold startWaiting
  repeat' with_reducible
    first | assumption | apply State_modLane_kept | apply clearFallbacks_kept | apply kept_ite | apply kept_dite | intro _ | dsimp only
          | split

theorem finishDisable_kept (p : Port) {s : State} (hs : Kept Q N s) : Kept Q N (finishDisable p s) := by
  unfold finishDisable
  repeat' with_reducible
    first | assumption | apply State_modLane_kept | apply settlePort_kept | intro _ | dsimp only | split

theorem reachTarget_kept (p : Port) (t : Target) {s : State} (hs : Kept Q N s) : Kept Q N (reachTarget p t s) := by
  unfold reachTarget
  repeat' with_reducible
    first | assumption | apply State_modLane_kept | apply transit_kept | apply endPortSession_kept | apply lockDegradedPort_kept
          | apply finishDisable_kept | apply kept_ite | apply kept_dite | intro _ | dsimp only | split

theorem leave_kept (p : Port) {s : State} (hs : Kept Q N s) : Kept Q N (leave p s) := by
  unfold leave
  repeat' with_reducible
    first | assumption | apply State_modLane_kept | apply transit_kept | apply endPortSession_kept | intro _ | dsimp only | split

theorem evalUnplug_kept (p : Port) {s : State} (hs : Kept Q N s) : KeptOpt Q N (evalUnplug p s) := by
  unfold evalUnplug
  repeat' with_reducible
    first | assumption | apply setPbd_kept | apply retarget_kept | apply urgentOpening_kept | apply unplugWaiting_kept | apply leave_kept
          | apply kept_ite | apply kept_dite | apply keptOpt_some | exact keptOpt_none | apply keptOpt_ite | intro _ | dsimp only | split

theorem evalDisable_kept (p : Port) {s : State} (hs : Kept Q N s) : KeptOpt Q N (evalDisable p s) := by
  unfold evalDisable
  repeat' with_reducible
    first | assumption | apply transit_kept | apply endPortSession_kept | apply retarget_kept | apply normalOpening_kept
          | apply finishDisable_kept | apply kept_ite | apply kept_dite | apply keptOpt_some | exact keptOpt_none | apply keptOpt_ite
          | intro _ | dsimp only | split

theorem stopSession_kept (p : Port) {s : State} (hs : Kept Q N s) : Kept Q N (stopSession p s) := by
  unfold stopSession
  repeat' with_reducible
    first | assumption | apply State_modLane_kept | apply transit_kept | apply endPortSession_kept | intro _ | dsimp only | split

theorem stopByOpening_kept (p : Port) {s : State} (hs : Kept Q N s) : Kept Q N (stopByOpening p s) := by
  unfold stopByOpening
  repeat' with_reducible
    first | assumption | apply State_modLane_kept | apply normalOpening_kept | intro _ | dsimp only | split

theorem evalStop_kept (p : Port) {s : State} (hs : Kept Q N s) : KeptOpt Q N (evalStop p s) := by
  unfold evalStop
  repeat' with_reducible
    first | assumption | apply State_modLane_kept | apply transit_kept | apply retarget_kept | apply stopSession_kept
          | apply stopByOpening_kept | apply kept_ite | apply kept_dite | apply keptOpt_some | exact keptOpt_none | apply keptOpt_ite
          | intro _ | dsimp only | split

theorem startTest_kept (p : Port) {s : State} (hs : Kept Q N s) : Kept Q N (startTest p s) := by
  unfold startTest
  repeat' with_reducible
    first | assumption | apply State_modLane_kept | apply transit_kept | intro _ | dsimp only | split

theorem evalBand_kept (p : Port) {s : State} (hs : Kept Q N s) : KeptOpt Q N (evalBand p s) := by
  unfold evalBand
  repeat' with_reducible
    first | assumption | apply transit_kept | apply connect_kept | apply normalOpening_kept | apply startWaiting_kept
          | apply startTest_kept | apply kept_ite | apply kept_dite | apply keptOpt_some | exact keptOpt_none | apply keptOpt_ite
          | intro _ | dsimp only | split

theorem evalAllowance_kept (p : Port) {s : State} (hs : Kept Q N s) : KeptOpt Q N (evalAllowance p s) := by
  unfold evalAllowance
  repeat' with_reducible
    first | assumption | apply transit_kept | apply allowanceOpening_kept | apply kept_ite | apply kept_dite | apply keptOpt_some
          | exact keptOpt_none | apply keptOpt_ite | intro _ | dsimp only | split

theorem evalEnable_kept (p : Port) {s : State} (hs : Kept Q N s) : KeptOpt Q N (evalEnable p s) := by
  unfold evalEnable
  repeat' with_reducible
    first | assumption | apply State_modLane_kept | apply transit_kept | apply setPermit_kept | apply decideFault_kept | apply kept_ite
          | apply kept_dite | apply keptOpt_some | exact keptOpt_none | apply keptOpt_ite | intro _ | dsimp only | split

theorem retargetOpening_kept (p : Port) {s0 : State} (hs : Kept Q N s0) : Kept Q N (retargetOpening p s0) := by
  unfold retargetOpening
  repeat' with_reducible
    first | assumption | apply State_modLane_kept | apply retarget_kept | apply kept_ite | apply kept_dite | intro _ | dsimp only | split

theorem evaluateInputs_kept (p : Port) {s0 : State} (hs : Kept Q N s0) : Kept Q N (evaluateInputs p s0) := by
  unfold evaluateInputs
  repeat' with_reducible
    first | assumption | apply retargetOpening_kept | refine KeptOpt.out (evalUnplug_kept _  ?_) _ (by assumption)
          | refine kept_getD (evalUnplug_kept _  ?_) ?_ | refine KeptOpt.out (evalDisable_kept _  ?_) _ (by assumption)
          | refine kept_getD (evalDisable_kept _  ?_) ?_ | refine KeptOpt.out (evalStop_kept _  ?_) _ (by assumption)
          | refine kept_getD (evalStop_kept _  ?_) ?_ | refine KeptOpt.out (evalBand_kept _  ?_) _ (by assumption)
          | refine kept_getD (evalBand_kept _  ?_) ?_ | refine KeptOpt.out (evalAllowance_kept _  ?_) _ (by assumption)
          | refine kept_getD (evalAllowance_kept _  ?_) ?_ | refine KeptOpt.out (evalEnable_kept _  ?_) _ (by assumption)
          | refine kept_getD (evalEnable_kept _  ?_) ?_ | intro _ | dsimp only | split

theorem refreshLane_kept (p : Port) {s : State} (hs : Kept Q N s) : Kept Q N (refreshLane p s) := by
  unfold refreshLane
  repeat' with_reducible
    first | assumption | apply State_modLane_kept | apply kept_ite | apply kept_dite | intro _ | dsimp only | split

theorem advanceAlive_kept {s : State} (hs : Kept Q N s) : Kept Q N (advanceAlive s) := by
  unfold advanceAlive
  repeat' with_reducible
    first | assumption | apply kept_ite | apply kept_dite | apply Kept.withSteeple
          | (refine Kept.steeple (Q := Q) (N := N) (s := ?_) ?_ ?e0; (case e0 => exact rfl)) | intro _ | dsimp only | split

theorem execEvaluationPeriod_kept (p : Port) (x : LaneSample) {s : State} (hs : Kept Q N s) : KeptOut Q N (execEvaluationPeriod p x s) := by
  unfold execEvaluationPeriod
  repeat' with_reducible
    first | assumption | apply countAt_kept | apply State_modLane_kept | apply takeDuty_kept | apply evaluateInputs_kept
          | apply refreshLane_kept | apply advanceAlive_kept | apply settle_kept | apply kept_ite | apply kept_dite | apply keptOut_ite
          | apply keptOut_dite | apply keptOut_next | intro _ | dsimp only | split

theorem execPilotConfirmed_kept (p : Port) {s : State} (hs : Kept Q N s) : KeptOut Q N (execPilotConfirmed p s) := by
  unfold execPilotConfirmed
  repeat' with_reducible
    first | assumption | apply State_modLane_kept | apply evaluateInputs_kept | apply refreshLane_kept | apply kept_ite | apply kept_dite
          | apply keptOut_ite | apply keptOut_dite | apply keptOut_next | intro _ | dsimp only | split

theorem execPilotFault_kept (p : Port) {s : State} (hs : Kept Q N s) : KeptOut Q N (execPilotFault p s) := by
  unfold execPilotFault
  repeat' with_reducible
    first | assumption | apply decideFault_kept | apply kept_ite | apply kept_dite | apply keptOut_ite | apply keptOut_dite
          | apply keptOut_next | intro _ | dsimp only | split

theorem execProximityCodeAccepted_kept (p : Port) {s : State} (hs : Kept Q N s) : KeptOut Q N (execProximityCodeAccepted p s) := by
  unfold execProximityCodeAccepted
  repeat' with_reducible
    first | assumption | apply post_kept | apply State_modLane_kept | apply setSession_kept | apply evaluateInputs_kept
          | apply refreshLane_kept | apply kept_ite | apply kept_dite | apply keptOut_ite | apply keptOut_dite | apply keptOut_next
          | intro _ | dsimp only | split

theorem execCableRefused_kept (p : Port) {s : State} (hs : Kept Q N s) : KeptOut Q N (execCableRefused p s) := by
  unfold execCableRefused
  repeat' with_reducible
    first | assumption | apply transit_kept | apply endPortSession_kept | apply refreshLane_kept | apply kept_ite | apply kept_dite
          | apply keptOut_ite | apply keptOut_dite | apply keptOut_next | intro _ | dsimp only | split

theorem execReservationExpired_kept (p : Port) {s : State} (hs : Kept Q N s) : KeptOut Q N (execReservationExpired p s) := by
  unfold execReservationExpired
  repeat' with_reducible
    first | assumption | apply endPortSession_kept | apply kept_ite | apply kept_dite | apply keptOut_ite | apply keptOut_dite
          | apply keptOut_next | intro _ | dsimp only | split

theorem execAllowanceOpeningTimeout_kept (p : Port) {s : State} (hs : Kept Q N s) : KeptOut Q N (execAllowanceOpeningTimeout p s) := by
  unfold execAllowanceOpeningTimeout
  repeat' with_reducible
    first | assumption | apply startWaiting_kept | apply kept_ite | apply kept_dite | apply keptOut_ite | apply keptOut_dite
          | apply keptOut_next | intro _ | dsimp only | split

theorem closingRefused_kept (p : Port) {s : State} (hs : Kept Q N s) : Kept Q N (closingRefused p s) := by
  unfold closingRefused
  repeat' with_reducible
    first | assumption | apply State_modLane_kept | apply transit_kept | apply postOutcomeOf_kept | intro _ | dsimp only | split

theorem startClosing_kept (p : Port) {s0 : State} (hs : Kept Q N s0) : Kept Q N (startClosing p s0) := by
  unfold startClosing
  repeat' with_reducible
    first | assumption | apply State_modLane_kept | apply transit_kept | apply setCtd_kept | apply postOutcomeOf_kept
          | apply decideFault_kept | apply clearFallbacks_kept | apply closingRefused_kept | apply kept_ite | apply kept_dite | intro _
          | dsimp only | split

theorem openDegraded_kept (p : Port) (before : Sequence) {s : State} (hs : Kept Q N s) : Kept Q N (openDegraded p before s) := by
  unfold openDegraded
  repeat' with_reducible
    first | assumption | apply beginOpening_kept | apply reachTarget_kept | apply kept_ite | apply kept_dite | intro _ | dsimp only
          | split

theorem failSequence_kept (p : Port) (kind step start code : Nat) {s : State} (hs : Kept Q N s) : Kept Q N (failSequence p kind step start code s) := by
  unfold failSequence
  repeat' with_reducible
    first | assumption | apply State_modLane_kept | apply postOutcomeOf_kept | apply decideFault_kept | apply openDegraded_kept | intro _
          | dsimp only | split

theorem openAfterClosing_kept (p : Port) (a : Option Target) {s : State} (hs : Kept Q N s) : Kept Q N (openAfterClosing p a s) := by
  unfold openAfterClosing
  repeat' with_reducible
    first | assumption | apply stopPwm_kept | apply beginOpening_kept | apply kept_ite | intro _ | dsimp only | split

theorem shedClosing_kept (p : Port) (start : Nat) {s : State} (hs : Kept Q N s) : Kept Q N (shedClosing p start s) := by
  unfold shedClosing
  repeat' with_reducible
    first | assumption | apply State_modLane_kept | apply transit_kept | apply setPbd_kept | apply postOutcomeOf_kept
          | apply openAfterClosing_kept | intro _ | dsimp only | split

theorem execClosingContactorSettled_kept (p : Port) (ctf unchanged : Bool) {s : State} (hs : Kept Q N s) : KeptOut Q N (execClosingContactorSettled p ctf unchanged s) := by
  unfold execClosingContactorSettled
  repeat' with_reducible
    first | assumption | apply State_modLane_kept | apply setCtd_kept | apply failSequence_kept | apply shedClosing_kept | apply kept_ite
          | apply kept_dite | apply keptOut_ite | apply keptOut_dite | apply keptOut_next | intro _ | dsimp only | split

theorem execClosingPreBreakStart_kept (p : Port) {s : State} (hs : Kept Q N s) : KeptOut Q N (execClosingPreBreakStart p s) := by
  unfold execClosingPreBreakStart
  repeat' with_reducible
    first | assumption | apply State_modLane_kept | apply setPbd_kept | apply noteTimed_kept | apply kept_ite | apply kept_dite
          | apply keptOut_ite | apply keptOut_dite | apply keptOut_next | intro _ | dsimp only | split

theorem execClosingPbfCheck_kept (p : Port) (pbf : Bool) {s : State} (hs : Kept Q N s) : KeptOut Q N (execClosingPbfCheck p pbf s) := by
  unfold execClosingPbfCheck
  repeat' with_reducible
    first | assumption | apply State_modLane_kept | apply failSequence_kept | apply kept_ite | apply kept_dite | apply keptOut_ite
          | apply keptOut_dite | apply keptOut_next | intro _ | dsimp only | split

theorem energise_kept (p : Port) (start : Nat) {s : State} (hs : Kept Q N s) : Kept Q N (energise p start s) := by
  unfold energise
  repeat' with_reducible
    first | assumption | apply State_modLane_kept | apply setSession_kept | apply transit_kept | apply postOutcomeOf_kept
          | apply openAfterClosing_kept | apply kept_ite | apply kept_dite | intro _ | dsimp only | split

theorem readmitDone_kept (p : Port) (start : Nat) {s : State} (hs : Kept Q N s) : Kept Q N (readmitDone p start s) := by
  unfold readmitDone
  repeat' with_reducible
    first | assumption | apply State_modLane_kept | apply transit_kept | apply postOutcomeOf_kept | intro _ | dsimp only | split

theorem execOvsEdge_kept (p : Port) {s : State} (hs : Kept Q N s) : KeptOut Q N (execOvsEdge p s) := by
  unfold execOvsEdge
  repeat' with_reducible
    first | assumption | apply State_modLane_kept | apply energise_kept | apply readmitDone_kept | apply kept_ite | apply kept_dite
          | apply keptOut_ite | apply keptOut_dite | apply keptOut_next | intro _ | dsimp only | split

theorem execOvsAbsent_kept (p : Port) {s : State} (hs : Kept Q N s) : KeptOut Q N (execOvsAbsent p s) := by
  unfold execOvsAbsent
  repeat' with_reducible
    first | assumption | apply State_modLane_kept | apply kept_ite | apply kept_dite | apply keptOut_ite | apply keptOut_dite
          | apply keptOut_next | intro _ | dsimp only | split

theorem execOvsPresenceTimeout_kept (p : Port) {s : State} (hs : Kept Q N s) : KeptOut Q N (execOvsPresenceTimeout p s) := by
  unfold execOvsPresenceTimeout
  repeat' with_reducible
    first | assumption | apply failSequence_kept | apply kept_ite | apply kept_dite | apply keptOut_ite | apply keptOut_dite
          | apply keptOut_next | intro _ | dsimp only | split

theorem endTest_kept (p : Port) (result : Nat) (detail : List Byte) {s : State} (hs : Kept Q N s) : Kept Q N (endTest p result detail s) := by
  unfold endTest
  repeat' with_reducible
    first | assumption | apply post_kept | apply State_modLane_kept | apply transit_kept | apply endReset_kept | apply decideFault_kept
          | apply startClosing_kept | apply kept_ite | apply kept_dite | apply kept_foldl' | apply Kept.withSteeple
          | (refine Kept.steeple (Q := Q) (N := N) (s := ?_) ?_ ?e0; (case e0 => exact rfl)) | intro _ | dsimp only | split

theorem execResidualTestStep_kept (p : Port) (r : ResidualReading) {s : State} (hs : Kept Q N s) : KeptOut Q N (execResidualTestStep p r s) := by
  unfold execResidualTestStep
  repeat' with_reducible
    first | assumption | apply State_modLane_kept | apply endTest_kept | apply kept_ite | apply kept_dite | apply keptOut_ite
          | apply keptOut_dite | apply keptOut_next | intro _ | dsimp only | split

theorem execOpeningCurrentZero_kept (p : Port) {s : State} (hs : Kept Q N s) : KeptOut Q N (execOpeningCurrentZero p s) := by
  unfold execOpeningCurrentZero
  repeat' with_reducible
    first | assumption | apply State_modLane_kept | apply setPbd_kept | apply noteTimed_kept | apply kept_ite | apply kept_dite
          | apply keptOut_ite | apply keptOut_dite | apply keptOut_next | intro _ | dsimp only | split

theorem execOpeningPbfCheck_kept (p : Port) (pbf : Bool) {s : State} (hs : Kept Q N s) : KeptOut Q N (execOpeningPbfCheck p pbf s) := by
  unfold execOpeningPbfCheck
  repeat' with_reducible
    first | assumption | apply State_modLane_kept | apply failSequence_kept | apply kept_ite | apply kept_dite | apply keptOut_ite
          | apply keptOut_dite | apply keptOut_next | intro _ | dsimp only | split

theorem releaseContactor_kept (p : Port) (u : Bool) (start : Nat) (t : Target) (blind : Bool) {s : State} (hs : Kept Q N s) : Kept Q N (releaseContactor p u start t blind s) := by
  unfold releaseContactor
  repeat' with_reducible
    first | assumption | apply State_modLane_kept | apply setCtd_kept | intro _ | dsimp only | split

theorem execOpeningContactorRelease_kept (p : Port) {s : State} (hs : Kept Q N s) : KeptOut Q N (execOpeningContactorRelease p s) := by
  unfold execOpeningContactorRelease
  repeat' with_reducible
    first | assumption | apply State_modLane_kept | apply failSequence_kept | apply releaseContactor_kept | apply kept_ite
          | apply kept_dite | apply keptOut_ite | apply keptOut_dite | apply keptOut_next | intro _ | dsimp only | split

theorem execOpeningCtfCheck_kept (p : Port) (ctf : Bool) {s : State} (hs : Kept Q N s) : KeptOut Q N (execOpeningCtfCheck p ctf s) := by
  unfold execOpeningCtfCheck
  repeat' with_reducible
    first | assumption | apply State_modLane_kept | apply failSequence_kept | apply kept_ite | apply kept_dite | apply keptOut_ite
          | apply keptOut_dite | apply keptOut_next | intro _ | dsimp only | split

theorem finishOpening_kept (p : Port) (u : Bool) (start : Nat) (t : Target) {s : State} (hs : Kept Q N s) : Kept Q N (finishOpening p u start t s) := by
  unfold finishOpening
  repeat' with_reducible
    first | assumption | apply State_modLane_kept | apply postOutcomeOf_kept | apply reachTarget_kept | apply kept_ite | apply kept_dite
          | intro _ | dsimp only | split

theorem execWeldProbe_kept (p : Port) {s : State} (hs : Kept Q N s) : KeptOut Q N (execWeldProbe p s) := by
  unfold execWeldProbe
  repeat' with_reducible
    first | assumption | apply State_modLane_kept | apply setPbd_kept | apply setProbe_kept | apply noteTimed_kept
          | apply finishOpening_kept | apply kept_ite | apply kept_dite | apply keptOut_ite | apply keptOut_dite | apply keptOut_next
          | intro _ | dsimp only | split

theorem endWeldProbe_kept (p : Port) {s : State} (hs : Kept Q N s) : Kept Q N (endWeldProbe p s) := by
  unfold endWeldProbe
  repeat' with_reducible
    first | assumption | apply setPbd_kept | apply setProbe_kept | intro _ | dsimp only | split

theorem execWeldProbeEnd_kept (p : Port) (pbf : Bool) {s : State} (hs : Kept Q N s) : KeptOut Q N (execWeldProbeEnd p pbf s) := by
  unfold execWeldProbeEnd
  repeat' with_reducible
    first | assumption | apply State_modLane_kept | apply failSequence_kept | apply finishOpening_kept | apply endWeldProbe_kept
          | apply kept_ite | apply kept_dite | apply keptOut_ite | apply keptOut_dite | apply keptOut_next | intro _ | dsimp only | split

theorem execContactorFeedbackDiscrepancy_kept (p : Port) (ctf : Bool) {s : State} (hs : Kept Q N s) : KeptOut Q N (execContactorFeedbackDiscrepancy p ctf s) := by
  unfold execContactorFeedbackDiscrepancy
  repeat' with_reducible
    first | assumption | apply State_modLane_kept | apply decideFault_kept | apply kept_ite | apply kept_dite | apply keptOut_ite
          | apply keptOut_dite | apply keptOut_next | intro _ | dsimp only | split

theorem execPreBreakDiscrepancy_kept (p : Port) (pbf : Bool) {s : State} (hs : Kept Q N s) : KeptOut Q N (execPreBreakDiscrepancy p pbf s) := by
  unfold execPreBreakDiscrepancy
  repeat' with_reducible
    first | assumption | apply State_modLane_kept | apply decideFault_kept | apply kept_ite | apply kept_dite | apply keptOut_ite
          | apply keptOut_dite | apply keptOut_next | intro _ | dsimp only | split

theorem faultOutcome_kept (p : Port) (own : Bool) (result start : Nat) {s : State} (hs : Kept Q N s) : Kept Q N (faultOutcome p own result start s) := by
  unfold faultOutcome
  repeat' with_reducible
    first | assumption | apply State_modLane_kept | apply postOutcomeOf_kept | apply kept_ite | apply kept_dite | intro _ | dsimp only
          | split

theorem execFaultOpeningChecks_kept (p : Port) (ctf : Bool) {s : State} (hs : Kept Q N s) : KeptOut Q N (execFaultOpeningChecks p ctf s) := by
  unfold execFaultOpeningChecks
  repeat' with_reducible
    first | assumption | apply State_modLane_kept | apply decideFault_kept | apply faultOutcome_kept | apply kept_ite | apply kept_dite
          | apply keptOut_ite | apply keptOut_dite | apply keptOut_next | intro _ | dsimp only | split

theorem withPort_kept (r : Req) (k : Port → State → State) (hk : ∀ x0 s, Kept Q N s → Kept Q N (k x0 s)) {s : State} (hs : Kept Q N s) : Kept Q N (withPort r k s) := by
  unfold withPort
  repeat' with_reducible
    first | assumption | apply hk | apply refuse_kept | apply withHandle_kept | intro _ | dsimp only | split

theorem withSession_kept (r : Req) (k : Channel → SessionBody → State → State) (hk : ∀ x0 x1 s, Kept Q N s → Kept Q N (k x0 x1 s)) {s : State} (hs : Kept Q N s) : Kept Q N (withSession r k s) := by
  unfold withSession
  repeat' with_reducible
    first | assumption | apply hk | apply refuse_kept | apply withHandle_kept | intro _ | dsimp only | split

theorem notSilent_kept (r : Req) (k : State → State) (hk : ∀ s, Kept Q N s → Kept Q N (k s)) {s : State} (hs : Kept Q N s) : Kept Q N (notSilent r k s) := by
  unfold notSilent
  repeat' with_reducible
    first | assumption | apply hk | apply refuse_kept | apply kept_ite | apply kept_dite | intro _ | dsimp only | split

theorem acceptWaiting_kept (r : Req) (argument : Nat) (extra : List Byte) {s : State} (hs : Kept Q N s) : Kept Q N (acceptWaiting r argument extra s) := by
  unfold acceptWaiting
  repeat' with_reducible
    first | assumption | apply accept_kept | apply Kept.withRotunda
          | (refine Kept.rotunda (Q := Q) (N := N) (s := ?_) ?_ ?e0; (case e0 => exact rfl)) | refine Kept.box (Q := Q) (N := N) ?_ _
          | intro _ | dsimp only | split

theorem portEnable_kept (r : Req) {s : State} (hs : Kept Q N s) : Kept Q N (portEnable r s) := by
  unfold portEnable
  repeat' with_reducible
    first | assumption | apply refuse_kept | apply acceptDone_kept | apply withLength_kept | apply State_modLane_kept
          | apply withPort_kept | apply notSilent_kept | apply acceptWaiting_kept | apply kept_ite | apply kept_dite | intro _
          | dsimp only | split

theorem execPortEnable_kept (b : Box) {s : State} (hs : Kept Q N s) : KeptOut Q N (execPortEnable b s) := by
  unfold execPortEnable
  repeat' with_reducible
    first | assumption | apply portEnable_kept | apply request_kept | apply keptOut_next | intro _ | dsimp only | split

theorem portDisable_kept (r : Req) {s : State} (hs : Kept Q N s) : Kept Q N (portDisable r s) := by
  unfold portDisable
  repeat' with_reducible
    first | assumption | apply refuse_kept | apply acceptDone_kept | apply withLength_kept | apply State_modLane_kept
          | apply finishDisable_kept | apply withPort_kept | apply notSilent_kept | apply acceptWaiting_kept | apply kept_ite
          | apply kept_dite | intro _ | dsimp only | split

theorem execPortDisable_kept (b : Box) {s : State} (hs : Kept Q N s) : KeptOut Q N (execPortDisable b s) := by
  unfold execPortDisable
  repeat' with_reducible
    first | assumption | apply portDisable_kept | apply request_kept | apply keptOut_next | intro _ | dsimp only | split

theorem sessionOpen_kept (r : Req) {s : State} (hs : Kept Q N s) : Kept Q N (sessionOpen r s) := by
  unfold sessionOpen
  repeat' with_reducible
    first | assumption | apply refuse_kept | apply accept_kept | apply finish_kept | apply withLength_kept | apply postBegun_kept
          | apply replaceSession_kept | apply withPort_kept | apply notSilent_kept | apply kept_ite | apply kept_dite | intro _
          | dsimp only | split

theorem execSessionOpen_kept (b : Box) {s : State} (hs : Kept Q N s) : KeptOut Q N (execSessionOpen b s) := by
  unfold execSessionOpen
  repeat' with_reducible
    first | assumption | apply sessionOpen_kept | apply request_kept | apply keptOut_next | intro _ | dsimp only | split

theorem denySession_kept (r : Req) (c : Channel) (b : SessionBody) {s : State} (hs : Kept Q N s) : Kept Q N (denySession r c b s) := by
  unfold denySession
  repeat' with_reducible
    first | assumption | apply accept_kept | apply finish_kept | apply State_modLane_kept | apply endPortSession_kept | apply kept_ite
          | apply kept_dite | intro _ | dsimp only | split

theorem sessionAuthorise_kept (r : Req) {s : State} (hs : Kept Q N s) : Kept Q N (sessionAuthorise r s) := by
  unfold sessionAuthorise
  repeat' with_reducible
    first | assumption | apply refuse_kept | apply accept_kept | apply finish_kept | apply withLength_kept | apply setSession_kept
          | apply authoriseSession_kept | apply continueSession_kept | apply withSession_kept | apply notSilent_kept
          | apply denySession_kept | apply kept_ite | apply kept_dite | intro _ | dsimp only | split

theorem execSessionAuthorise_kept (b : Box) {s : State} (hs : Kept Q N s) : KeptOut Q N (execSessionAuthorise b s) := by
  unfold execSessionAuthorise
  repeat' with_reducible
    first | assumption | apply sessionAuthorise_kept | apply request_kept | apply keptOut_next | intro _ | dsimp only | split

theorem sessionStop_kept (r : Req) {s : State} (hs : Kept Q N s) : Kept Q N (sessionStop r s) := by
  unfold sessionStop
  repeat' with_reducible
    first | assumption | apply refuse_kept | apply withLength_kept | apply keepLog_kept | apply State_modLane_kept
          | apply endPortSession_kept | apply withSession_kept | apply notSilent_kept | apply acceptWaiting_kept | apply kept_ite
          | apply kept_dite | refine Kept.box (Q := Q) (N := N) ?_ _ | intro _ | dsimp only | split

theorem execSessionStop_kept (b : Box) {s : State} (hs : Kept Q N s) : KeptOut Q N (execSessionStop b s) := by
  unfold execSessionStop
  repeat' with_reducible
    first | assumption | apply sessionStop_kept | apply request_kept | apply keptOut_next | intro _ | dsimp only | split

theorem raiseEnded_kept (p : Port) (c : Channel) (b : SessionBody) {s : State} (hs : Kept Q N s) : Kept Q N (raiseEnded p c b s) := by
  unfold raiseEnded
  repeat' with_reducible
    first | assumption | apply raise_kept | apply wantSessionRecord_kept | apply settleStops_kept | apply kept_ite | intro _ | dsimp only

theorem dropEnding_kept (c : Channel) {s : State} (hs : Kept Q N s) : Kept Q N (dropEnding c s) := by
  unfold dropEnding
  exact hs.withRotunda hs.within.rotunda

theorem execSessionEnded_kept (p : Port) {s : State} (hs : Kept Q N s) : KeptOut Q N (execSessionEnded p s) := by
  unfold execSessionEnded
  repeat' with_reducible
    first | assumption | apply raiseEnded_kept | apply setSession_kept | apply keptOut_ite | apply keptOut_next
          | apply dropEnding_kept | intro _ | dsimp only | split

theorem portStatus_kept (r : Req) {s : State} (hs : Kept Q N s) : Kept Q N (portStatus r s) := by
  unfold portStatus
  repeat' with_reducible
    first | assumption | apply respond_kept | apply withLength_kept | apply intact_kept | apply withPort_kept | intro _ | dsimp only
          | split

theorem execPortStatus_kept (b : Box) {s : State} (hs : Kept Q N s) : KeptOut Q N (execPortStatus b s) := by
  unfold execPortStatus
  repeat' with_reducible
    first | assumption | apply portStatus_kept | apply request_kept | apply keptOut_next | intro _ | dsimp only | split

theorem sessionStatus_kept (r : Req) {s : State} (hs : Kept Q N s) : Kept Q N (sessionStatus r s) := by
  unfold sessionStatus
  repeat' with_reducible
    first | assumption | apply respond_kept | apply withLength_kept | apply intact_kept | apply withSession_kept | intro _ | dsimp only
          | split

theorem execSessionStatus_kept (b : Box) {s : State} (hs : Kept Q N s) : KeptOut Q N (execSessionStatus b s) := by
  unfold execSessionStatus
  repeat' with_reducible
    first | assumption | apply sessionStatus_kept | apply request_kept | apply keptOut_next | intro _ | dsimp only | split

theorem portDiag_kept (r : Req) {s : State} (hs : Kept Q N s) : Kept Q N (portDiag r s) := by
  unfold portDiag
  repeat' with_reducible
    first | assumption | apply respond_kept | apply withLength_kept | apply withPort_kept | intro _ | dsimp only | split

theorem execPortDiag_kept (b : Box) {s : State} (hs : Kept Q N s) : KeptOut Q N (execPortDiag b s) := by
  unfold execPortDiag
  repeat' with_reducible
    first | assumption | apply portDiag_kept | apply request_kept | apply keptOut_next | intro _ | dsimp only | split

end Sys2Proof.Machine
end

