-- ==== Sys2Proof/Laws/KeptFaults.lean ====
section
/-! SUPPORT. Faults: every operation keeps the queue, the clock and the capacities. -/

namespace Sys2Proof.Machine

variable {Q : List Instr} {N : Nat}

theorem execLockstepMismatch_kept {s : State} (hs : Kept Q N s) : KeptOut Q N (execLockstepMismatch s) := by
  unfold execLockstepMismatch
  repeat' with_reducible
    first | assumption | apply decideFault_kept | apply kept_ite | apply kept_dite | apply keptOut_ite | apply keptOut_dite
          | apply keptOut_next | intro _ | dsimp only | split

theorem dropPermits_kept {s : State} (hs : Kept Q N s) : Kept Q N (dropPermits s) := by
  unfold dropPermits
  repeat' with_reducible
    first | assumption | apply setCtd_kept | apply setPbd_kept | apply setPermit_kept | apply setProbe_kept | apply kept_foldl' | intro _
          | dsimp only | split

theorem supplyStop_kept (again : Bool) {s : State} (hs : Kept Q N s) : Kept Q N (supplyStop again s) := by
  unfold supplyStop
  repeat' with_reducible
    first | assumption | apply addRecord_kept | apply dropPermits_kept | apply kept_ite | apply kept_dite | apply Kept.withSteeple
          | (refine Kept.steeple (Q := Q) (N := N) (s := ?_) ?_ ?e0; (case e0 => first | exact rfl | with_unfolding_all exact rfl))
          | intro _ | dsimp only | split

theorem noteSupply_kept (x : Supply) (out low : Bool) {s : State} (hs : Kept Q N s) : Kept Q N (noteSupply x out low s) := by
  unfold noteSupply
  repeat' with_reducible
    first | assumption | apply kept_ite | apply kept_dite | apply Kept.withSteeple
          | (refine Kept.steeple (Q := Q) (N := N) (s := ?_) ?_ ?e0; (case e0 => exact rfl)) | intro _ | dsimp only | split

theorem execSupplyExcursion_kept (x : Supply) (mv : Nat) {s : State} (hs : Kept Q N s) : KeptOut Q N (execSupplyExcursion x mv s) := by
  unfold execSupplyExcursion
  repeat' with_reducible
    first | assumption | apply decideFault_kept | apply supplyStop_kept | apply noteSupply_kept | apply kept_ite | apply kept_dite
          | apply keptOut_ite | apply keptOut_dite | apply keptOut_next | intro _ | dsimp only | split

theorem execTurretAliveTimeout_kept {s : State} (hs : Kept Q N s) : KeptOut Q N (execTurretAliveTimeout s) := by
  unfold execTurretAliveTimeout
  repeat' with_reducible
    first | assumption | apply decideFault_kept | apply kept_ite | apply kept_dite | apply keptOut_ite | apply keptOut_dite
          | apply keptOut_next | intro _ | dsimp only | split

theorem loseCd1_kept {s : State} (hs : Kept Q N s) : Kept Q N (loseCd1 s) := by
  unfold loseCd1
  repeat' with_reducible
    first | assumption | apply dropPermits_kept | apply Kept.withSteeple
          | (refine Kept.steeple (Q := Q) (N := N) (s := ?_) ?_ ?e0; (case e0 => exact rfl)) | apply Kept.withPower | intro _ | dsimp only
          | split

theorem enterCd1Loss_kept {s : State} (hs : Kept Q N s) : Kept Q N (enterCd1Loss s) := by
  unfold enterCd1Loss
  repeat' with_reducible
    first | assumption | apply decideFault_kept | apply Kept.withSteeple
          | (refine Kept.steeple (Q := Q) (N := N) (s := ?_) ?_ ?e0; (case e0 => exact rfl)) | intro _ | dsimp only | split

theorem execCd1Loss_kept {s : State} (hs : Kept Q N s) : KeptOut Q N (execCd1Loss s) := by
  unfold execCd1Loss
  repeat' with_reducible
    first | assumption | apply loseCd1_kept | apply kept_ite | apply kept_dite | apply keptOut_ite | apply keptOut_dite
          | apply keptOut_next | intro _ | dsimp only | split

theorem execResidualCurrentDetected_kept (p : Port) (d : Detector) (reading : Int) {s : State} (hs : Kept Q N s) : KeptOut Q N (execResidualCurrentDetected p d reading s) := by
  unfold execResidualCurrentDetected
  repeat' with_reducible
    first | assumption | apply decideFault_kept | apply kept_ite | apply kept_dite | apply keptOut_ite | apply keptOut_dite
          | apply keptOut_next | intro _ | dsimp only | split

theorem execResidualSensorFault_kept (p : Port) (mv : Nat) {s : State} (hs : Kept Q N s) : KeptOut Q N (execResidualSensorFault p mv s) := by
  unfold execResidualSensorFault
  repeat' with_reducible
    first | assumption | apply decideFault_kept | apply kept_ite | apply kept_dite | apply keptOut_ite | apply keptOut_dite
          | apply keptOut_next | intro _ | dsimp only | split

theorem execFastTrip_kept (p : Port) (a b c : Bool) {s : State} (hs : Kept Q N s) : KeptOut Q N (execFastTrip p a b c s) := by
  unfold execFastTrip
  repeat' with_reducible
    first | assumption | apply decideFault_kept | apply kept_ite | apply kept_dite | apply keptOut_ite | apply keptOut_dite
          | apply keptOut_next | apply Kept.withSteeple | (refine Kept.steeple (Q := Q) (N := N) (s := ?_) ?_ ?e0; (case e0 => exact rfl))
          | intro _ | dsimp only | split

theorem passSelfTest_kept (p : Port) {s : State} (hs : Kept Q N s) : Kept Q N (passSelfTest p s) := by
  unfold passSelfTest
  repeat' with_reducible
    first | assumption | apply State_modLane_kept | apply settlePort_kept | apply kept_ite | apply kept_dite | apply Kept.withSteeple
          | (refine Kept.steeple (Q := Q) (N := N) (s := ?_) ?_ ?e0; (case e0 => first | exact rfl | with_unfolding_all exact rfl))
          | intro _ | dsimp only | split

theorem failSelfTest_kept (p : Port) {s : State} (hs : Kept Q N s) : Kept Q N (failSelfTest p s) := by
  unfold failSelfTest
  repeat' with_reducible
    first | assumption | apply State_modLane_kept | apply endResetsOf_kept | apply decideFault_kept | apply kept_ite | apply kept_dite
          | intro _ | dsimp only | split

theorem execComparatorSelfTest_kept (p : Port) (fired quiet : Bool) {s : State} (hs : Kept Q N s) : KeptOut Q N (execComparatorSelfTest p fired quiet s) := by
  unfold execComparatorSelfTest
  repeat' with_reducible
    first | assumption | apply State_modLane_kept | apply passSelfTest_kept | apply failSelfTest_kept | apply kept_ite | apply kept_dite
          | apply keptOut_ite | apply keptOut_dite | apply keptOut_next | intro _ | dsimp only | split

theorem execReactionEnd_kept {s : State} (hs : Kept Q N s) : KeptOut Q N (execReactionEnd s) := by
  unfold execReactionEnd
  repeat' with_reducible
    first | assumption | apply kept_ite | apply kept_dite | apply keptOut_ite | apply keptOut_dite | apply keptOut_next
          | apply Kept.withSteeple | (refine Kept.steeple (Q := Q) (N := N) (s := ?_) ?_ ?e0; (case e0 => exact rfl)) | intro _
          | dsimp only | split

theorem execEscalationWindowEnd_kept {s : State} (hs : Kept Q N s) : KeptOut Q N (execEscalationWindowEnd s) := by
  unfold execEscalationWindowEnd
  repeat' with_reducible
    first | assumption | apply keptOut_next | apply Kept.withSteeple
          | (refine Kept.steeple (Q := Q) (N := N) (s := ?_) ?_ ?e0; (case e0 => exact rfl)) | intro _ | dsimp only | split

theorem execPeMonWindow_kept (edges : Nat) {s : State} (hs : Kept Q N s) : KeptOut Q N (execPeMonWindow edges s) := by
  unfold execPeMonWindow
  repeat' with_reducible
    first | assumption | apply decideFault_kept | apply kept_ite | apply kept_dite | apply keptOut_ite | apply keptOut_dite
          | apply keptOut_next | apply Kept.withSteeple | (refine Kept.steeple (Q := Q) (N := N) (s := ?_) ?_ ?e0; (case e0 => exact rfl))
          | intro _ | dsimp only | split

theorem execEstopTestPulse_kept (aFollowed bHeld : Bool) {s : State} (hs : Kept Q N s) : KeptOut Q N (execEstopTestPulse aFollowed bHeld s) := by
  unfold execEstopTestPulse
  repeat' with_reducible
    first | assumption | apply decideFault_kept | apply kept_ite | apply kept_dite | apply keptOut_ite | apply keptOut_dite
          | apply keptOut_next | apply Kept.withSteeple | (refine Kept.steeple (Q := Q) (N := N) (s := ?_) ?_ ?e0; (case e0 => exact rfl))
          | intro _ | dsimp only | split

theorem noteEstop_kept (a b : Bool) {s : State} (hs : Kept Q N s) : Kept Q N (noteEstop a b s) := by
  unfold noteEstop
  repeat' with_reducible
    first | assumption | apply kept_ite | apply kept_dite | apply Kept.withSteeple
          | (refine Kept.steeple (Q := Q) (N := N) (s := ?_) ?_ ?e0; (case e0 => exact rfl)) | intro _ | dsimp only | split

theorem execEstopInputChange_kept (a b : Bool) {s : State} (hs : Kept Q N s) : KeptOut Q N (execEstopInputChange a b s) := by
  unfold execEstopInputChange
  repeat' with_reducible
    first | assumption | apply decideFault_kept | apply noteEstop_kept | apply kept_ite | apply kept_dite | apply keptOut_ite
          | apply keptOut_dite | apply keptOut_next | apply Kept.withSteeple
          | (refine Kept.steeple (Q := Q) (N := N) (s := ?_) ?_ ?e0; (case e0 => exact rfl)) | intro _ | dsimp only | split

theorem execShuntTripPulseEnd_kept {s : State} (hs : Kept Q N s) : KeptOut Q N (execShuntTripPulseEnd s) := by
  unfold execShuntTripPulseEnd
  repeat' with_reducible
    first | assumption | apply kept_ite | apply kept_dite | apply keptOut_ite | apply keptOut_dite | apply keptOut_next
          | apply Kept.withSteeple | (refine Kept.steeple (Q := Q) (N := N) (s := ?_) ?_ ?e0; (case e0 => exact rfl)) | intro _
          | dsimp only | split

theorem releasePort_kept (p : Port) {s : State} (hs : Kept Q N s) : Kept Q N (releasePort s p) := by
  unfold releasePort
  repeat' with_reducible
    first | assumption | apply State_modLane_kept | apply transit_kept | apply setPermit_kept | apply kept_ite | apply kept_dite | intro _
          | dsimp only | split

theorem clearTrips_kept (p : Port) {s : State} (hs : Kept Q N s) : Kept Q N (clearTrips s p) := by
  unfold clearTrips
  repeat' with_reducible
    first | assumption | apply kept_ite | apply kept_dite | apply Kept.withSteeple
          | (refine Kept.steeple (Q := Q) (N := N) (s := ?_) ?_ ?e0; (case e0 => exact rfl)) | intro _ | dsimp only | split

theorem leaveLock_kept (port : Option Port) (m : Marks) {s : State} (hs : Kept Q N s) : Kept Q N (leaveLock port m s) := by
  unfold leaveLock
  repeat' with_reducible
    first | assumption | apply addRecord_kept | apply setPortLock_kept | apply setHubLock_kept | apply releasePort_kept
          | apply clearTrips_kept | apply kept_foldl' | apply Kept.withSteeple
          | (refine Kept.steeple (Q := Q) (N := N) (s := ?_) ?_ ?e0; (case e0 => first | exact rfl | with_unfolding_all exact rfl))
          | intro _ | dsimp only | split

theorem completeReset_kept (r : ResetRun) (m : Marks) {s : State} (hs : Kept Q N s) : Kept Q N (completeReset r m s) := by
  unfold completeReset
  repeat' with_reducible
    first | assumption | apply endReset_kept | apply leaveLock_kept | intro _ | dsimp only | split

theorem startResetTest_kept (f : HeldFault) {s : State} (hs : Kept Q N s) : Kept Q N (startResetTest s f) := by
  unfold startResetTest
  repeat' with_reducible
    first | assumption | apply State_modLane_kept | apply kept_ite | apply kept_dite | intro _ | dsimp only | split

theorem startResetProbe_kept (p : Port) {s : State} (hs : Kept Q N s) : Kept Q N (startResetProbe s p) := by
  unfold startResetProbe
  repeat' with_reducible
    first | assumption | apply State_modLane_kept | intro _ | dsimp only | split

theorem arriveReset_kept (e : RequestEntry) {s : State} (hs : Kept Q N s) : Kept Q N (arriveReset e s) := by
  unfold arriveReset
  repeat' with_reducible
    first | assumption | apply postOutcome_kept | apply startResetTest_kept | apply startResetProbe_kept | apply kept_ite
          | apply kept_dite | apply kept_foldl' | apply Kept.withSteeple
          | (refine Kept.steeple (Q := Q) (N := N) (s := ?_) ?_ ?e0; (case e0 => exact rfl)) | intro _ | dsimp only | split

theorem lockoutReset_kept (r : Req) {s : State} (hs : Kept Q N s) : Kept Q N (lockoutReset r s) := by
  unfold lockoutReset
  repeat' with_reducible
    first | assumption | apply withLength_kept | apply noHandle_kept | apply check_kept | apply askSteeple_kept | intro _ | dsimp only
          | split

theorem execLockoutReset_kept (b : Box) {s : State} (hs : Kept Q N s) : KeptOut Q N (execLockoutReset b s) := by
  unfold execLockoutReset
  repeat' with_reducible
    first | assumption | apply lockoutReset_kept | apply request_kept | apply keptOut_next | intro _ | dsimp only | split

theorem openWindow_kept (r : ResetRun) {s : State} (hs : Kept Q N s) : Kept Q N (openWindow r s) := by
  unfold openWindow
  repeat' with_reducible
    first | assumption | apply post_kept | apply request_kept | apply kept_ite | apply kept_dite | apply Kept.withSteeple
          | (refine Kept.steeple (Q := Q) (N := N) (s := ?_) ?_ ?e0; (case e0 => exact rfl)) | intro _ | dsimp only | split

theorem clearReset_kept (r : ResetRun) {s : State} (hs : Kept Q N s) : Kept Q N (clearReset s r) := by
  unfold clearReset
  repeat' with_reducible
    first | assumption | apply endReset_kept | apply completeReset_kept | apply openWindow_kept | apply kept_ite | apply kept_dite
          | intro _ | dsimp only | split

theorem execClearConditionsMet_kept {s : State} (hs : Kept Q N s) : KeptOut Q N (execClearConditionsMet s) := by
  unfold execClearConditionsMet
  repeat' with_reducible
    first | assumption | apply clearReset_kept | apply kept_ite | apply kept_dite | apply keptOut_ite | apply keptOut_dite
          | apply keptOut_next | apply kept_foldl' | intro _ | dsimp only | split

theorem execLockoutResetTimeout_kept {s : State} (hs : Kept Q N s) : KeptOut Q N (execLockoutResetTimeout s) := by
  unfold execLockoutResetTimeout
  repeat' with_reducible
    first | assumption | apply endReset_kept | apply kept_ite | apply kept_dite | apply keptOut_ite | apply keptOut_dite
          | apply keptOut_next | apply kept_foldl' | intro _ | dsimp only | split

theorem endPilotProbe_kept (p : Port) (r : ResetRun) {s : State} (hs : Kept Q N s) : Kept Q N (endPilotProbe p s r) := by
  unfold endPilotProbe
  repeat' with_reducible
    first | assumption | apply endProbe_kept | apply endReset_kept | apply request_kept | apply kept_ite | apply kept_dite
          | apply Kept.withSteeple | (refine Kept.steeple (Q := Q) (N := N) (s := ?_) ?_ ?e0; (case e0 => exact rfl)) | intro _
          | dsimp only | split

theorem execClearProbeEnd_kept (p : Port) {s : State} (hs : Kept Q N s) : KeptOut Q N (execClearProbeEnd p s) := by
  unfold execClearProbeEnd
  repeat' with_reducible
    first | assumption | apply endPilotProbe_kept | apply kept_ite | apply kept_dite | apply keptOut_ite | apply keptOut_dite
          | apply keptOut_next | apply kept_foldl' | intro _ | dsimp only | split

theorem execConfirmationWindowExpired_kept {s : State} (hs : Kept Q N s) : KeptOut Q N (execConfirmationWindowExpired s) := by
  unfold execConfirmationWindowExpired
  repeat' with_reducible
    first | assumption | apply addRecord_kept | apply endReset_kept | apply kept_ite | apply kept_dite | apply keptOut_ite
          | apply keptOut_dite | apply keptOut_next | intro _ | dsimp only | split

theorem confirmReset_kept (m : Marks) {s : State} (hs : Kept Q N s) : Kept Q N (confirmReset m s) := by
  unfold confirmReset
  repeat' with_reducible
    first | assumption | apply endReset_kept | apply completeReset_kept | apply kept_ite | apply kept_dite | intro _ | dsimp only | split

theorem execSrstNPulse_kept (lowMs : Nat) {s : State} (hs : Kept Q N s) : KeptOut Q N (execSrstNPulse lowMs s) := by
  unfold execSrstNPulse
  repeat' with_reducible
    first | assumption | apply confirmReset_kept | apply kept_ite | apply kept_dite | apply keptOut_ite | apply keptOut_dite
          | apply keptOut_next | intro _ | dsimp only | split

theorem execSrstNStuck_kept {s : State} (hs : Kept Q N s) : KeptOut Q N (execSrstNStuck s) := by
  unfold execSrstNStuck
  repeat' with_reducible
    first | assumption | apply addRecord_kept | apply kept_ite | apply kept_dite | apply keptOut_ite | apply keptOut_dite
          | apply keptOut_next | apply Kept.withSteeple | (refine Kept.steeple (Q := Q) (N := N) (s := ?_) ?_ ?e0; (case e0 => exact rfl))
          | intro _ | dsimp only | split

theorem execSrstNRearm_kept {s : State} (hs : Kept Q N s) : KeptOut Q N (execSrstNRearm s) := by
  unfold execSrstNRearm
  repeat' with_reducible
    first | assumption | apply kept_ite | apply kept_dite | apply keptOut_ite | apply keptOut_dite | apply keptOut_next
          | apply Kept.withSteeple | (refine Kept.steeple (Q := Q) (N := N) (s := ?_) ?_ ?e0; (case e0 => exact rfl)) | intro _
          | dsimp only | split

theorem useProof_kept (id : Nat) {s : State} (hs : Kept Q N s) : Kept Q N (useProof id s) := by
  unfold useProof
  repeat' with_reducible
    first | assumption | apply Kept.withSteeple | (refine Kept.steeple (Q := Q) (N := N) (s := ?_) ?_ ?e0; (case e0 => exact rfl))
          | intro _ | dsimp only | split

theorem arriveProof_kept (e : RequestEntry) {s : State} (hs : Kept Q N s) : Kept Q N (arriveProof e s) := by
  unfold arriveProof
  repeat' with_reducible
    first | assumption | apply postOutcome_kept | apply confirmReset_kept | apply useProof_kept | apply kept_ite | apply kept_dite
          | intro _ | dsimp only | split

theorem execDegradedOvercurrent_kept (p : Port) {s : State} (hs : Kept Q N s) : KeptOut Q N (execDegradedOvercurrent p s) := by
  unfold execDegradedOvercurrent
  repeat' with_reducible
    first | assumption | apply lockDegradedPort_kept | apply kept_ite | apply kept_dite | apply keptOut_ite | apply keptOut_dite
          | apply keptOut_next | intro _ | dsimp only | split

theorem endHubDegraded_kept (d : Degraded) {s : State} (hs : Kept Q N s) : Kept Q N (endHubDegraded d s) := by
  unfold endHubDegraded
  repeat' with_reducible
    first | assumption | apply addRecord_kept | apply openAll_kept | apply endHubMode_kept | apply kept_ite | apply kept_dite
          | apply Kept.withSteeple
          | (refine Kept.steeple (Q := Q) (N := N) (s := ?_) ?_ ?e0; (case e0 => first | exact rfl | with_unfolding_all exact rfl))
          | intro _ | dsimp only | split

theorem endPortDegraded_kept (p : Port) {s : State} (hs : Kept Q N s) : Kept Q N (endPortDegraded s p) := by
  unfold endPortDegraded
  repeat' with_reducible
    first | assumption | apply lockDegradedPort_kept | apply kept_ite | apply kept_dite | intro _ | dsimp only | split

theorem execDegradedTimeEnd_kept {s : State} (hs : Kept Q N s) : KeptOut Q N (execDegradedTimeEnd s) := by
  unfold execDegradedTimeEnd
  repeat' with_reducible
    first | assumption | apply endHubDegraded_kept | apply endPortDegraded_kept | apply kept_ite | apply kept_dite | apply keptOut_ite
          | apply keptOut_dite | apply keptOut_next | apply kept_foldl' | intro _ | dsimp only | split

theorem execDegradedEarlyEnd_kept {s : State} (hs : Kept Q N s) : KeptOut Q N (execDegradedEarlyEnd s) := by
  unfold execDegradedEarlyEnd
  repeat' with_reducible
    first | assumption | apply addRecord_kept | apply endHubMode_kept | apply kept_ite | apply kept_dite | apply keptOut_ite
          | apply keptOut_dite | apply keptOut_next | apply Kept.withSteeple
          | (refine Kept.steeple (Q := Q) (N := N) (s := ?_) ?_ ?e0; (case e0 => first | exact rfl | with_unfolding_all exact rfl))
          | intro _ | dsimp only | split

theorem faultRecordRead_kept (r : Req) {s : State} (hs : Kept Q N s) : Kept Q N (faultRecordRead r s) := by
  unfold faultRecordRead
  repeat' with_reducible
    first | assumption | apply respond_kept | apply withLength_kept | apply noHandle_kept | apply check_kept | intro _ | dsimp only
          | split

theorem execFaultRecordRead_kept (b : Box) {s : State} (hs : Kept Q N s) : KeptOut Q N (execFaultRecordRead b s) := by
  unfold execFaultRecordRead
  repeat' with_reducible
    first | assumption | apply faultRecordRead_kept | apply request_kept | apply keptOut_next | intro _ | dsimp only | split

end Sys2Proof.Machine
end

