-- ==== Sys2Proof/Laws/KeptParams.lean ====
section
/-! SUPPORT. Params: every operation keeps the queue, the clock and the capacities. -/

namespace Sys2Proof.Machine

variable {Q : List Instr} {N : Nat}

theorem safetyStatus_kept (r : Req) {s : State} (hs : Kept Q N s) : Kept Q N (safetyStatus r s) := by
  unfold safetyStatus
  repeat' with_reducible
    first | assumption | apply respond_kept | apply withLength_kept | apply noHandle_kept | intro _ | dsimp only | split

theorem execSafetyStatus_kept (b : Box) {s : State} (hs : Kept Q N s) : KeptOut Q N (execSafetyStatus b s) := by
  unfold execSafetyStatus
  repeat' with_reducible
    first | assumption | apply safetyStatus_kept | apply request_kept | apply keptOut_next | intro _ | dsimp only | split

theorem safetyParamRead_kept (r : Req) {s : State} (hs : Kept Q N s) : Kept Q N (safetyParamRead r s) := by
  unfold safetyParamRead
  repeat' with_reducible
    first | assumption | apply respond_kept | apply withLength_kept | apply noHandle_kept | apply check_kept | intro _ | dsimp only
          | split

theorem execSafetyParamRead_kept (b : Box) {s : State} (hs : Kept Q N s) : KeptOut Q N (execSafetyParamRead b s) := by
  unfold execSafetyParamRead
  repeat' with_reducible
    first | assumption | apply safetyParamRead_kept | apply request_kept | apply keptOut_next | intro _ | dsimp only | split

theorem safetyParamStage_kept (r : Req) {s : State} (hs : Kept Q N s) : Kept Q N (safetyParamStage r s) := by
  unfold safetyParamStage
  repeat' with_reducible
    first | assumption | apply refuse_kept | apply withLength_kept | apply noHandle_kept | apply check_kept | apply askSteeple_kept
          | apply kept_ite | apply kept_dite | intro _ | dsimp only | split

theorem execSafetyParamStage_kept (b : Box) {s : State} (hs : Kept Q N s) : KeptOut Q N (execSafetyParamStage b s) := by
  unfold execSafetyParamStage
  repeat' with_reducible
    first | assumption | apply safetyParamStage_kept | apply request_kept | apply keptOut_next | intro _ | dsimp only | split

theorem arriveStage_kept (e : RequestEntry) {s : State} (hs : Kept Q N s) : Kept Q N (arriveStage e s) := by
  unfold arriveStage
  repeat' with_reducible
    first | assumption | apply check_kept | apply postOutcome_kept | apply kept_ite | apply kept_dite | apply Kept.withSteeple
          | (refine Kept.steeple (Q := Q) (N := N) (s := ?_) ?_ ?e0; (case e0 => exact rfl)) | intro _ | dsimp only | split

theorem markProofUsed_kept (id : Nat) {s : State} (hs : Kept Q N s) : Kept Q N (markProofUsed id s) := by
  refine hs.withOculus ⟨hs.within.oculus.1, ?_, hs.within.oculus.2.2⟩
  simpa only [List.length_map] using hs.within.oculus.2.1

theorem safetyCommit_kept (r : Req) {s : State} (hs : Kept Q N s) : Kept Q N (safetyCommit r s) := by
  unfold safetyCommit
  repeat' with_reducible
    first | assumption | apply withLength_kept | apply noHandle_kept | apply askSteeple_kept | intro _ | dsimp only | split

theorem execSafetyCommit_kept (b : Box) {s : State} (hs : Kept Q N s) : KeptOut Q N (execSafetyCommit b s) := by
  unfold execSafetyCommit
  repeat' with_reducible
    first | assumption | apply safetyCommit_kept | apply request_kept | apply keptOut_next | intro _ | dsimp only | split

theorem State_withTelegram_kept (t : Telegram) {s : State} (hs : Kept Q N s) : Kept Q N (State.withTelegram s t) := by
  unfold State.withTelegram
  repeat' with_reducible
    first | assumption | apply Kept.withSteeple | (refine Kept.steeple (Q := Q) (N := N) (s := ?_) ?_ ?e0; (case e0 => exact rfl))
          | intro _ | dsimp only | split

theorem State_modLink_kept (path : SafetyPath) (f : SafetyLink → SafetyLink) {s : State} (hs : Kept Q N s) : Kept Q N (State.modLink s path f) := by
  unfold State.modLink
  repeat' with_reducible
    first | assumption | apply State_withTelegram_kept | intro _ | dsimp only | split

theorem startTelegrams_kept {s : State} (hs : Kept Q N s) : Kept Q N (startTelegrams s) := by
  unfold startTelegrams
  repeat' with_reducible
    first | assumption | apply State_withTelegram_kept | intro _ | dsimp only | split

theorem execTelegramTransmit_kept {s : State} (hs : Kept Q N s) : KeptOut Q N (execTelegramTransmit s) := by
  unfold execTelegramTransmit
  repeat' with_reducible
    first | assumption | apply State_draw_kept | apply State_withTelegram_kept | apply State_modLink_kept | apply kept_ite | apply kept_dite | apply keptOut_ite
          | apply keptOut_dite | apply keptOut_next | intro _ | dsimp only | split

theorem discardWaiting_kept (w : WaitingCopy) {s : State} (hs : Kept Q N s) : Kept Q N (discardWaiting w s) := by
  unfold discardWaiting
  repeat' with_reducible
    first | assumption | apply State_withTelegram_kept | apply State_modLink_kept | intro _ | dsimp only | split

theorem mismatch_kept {s : State} (hs : Kept Q N s) : Kept Q N (mismatch s) := by
  unfold mismatch
  repeat' with_reducible
    first | assumption | apply decideFault_kept | apply State_withTelegram_kept | intro _ | dsimp only | split

theorem decideStop_kept (expired : Bool) (code : Nat) {s0 : State} (hs : Kept Q N s0) : Kept Q N (decideStop expired code s0) := by
  unfold decideStop
  repeat' with_reducible
    first | assumption | apply endResetsOf_kept | apply dependent_kept | apply decideFault_kept | apply kept_ite | apply kept_dite
          | intro _ | dsimp only | split

theorem completePair_kept (w : WaitingCopy) (arrivalUs : Nat) {s : State} (hs : Kept Q N s) : Kept Q N (completePair w arrivalUs s) := by
  unfold completePair
  repeat' with_reducible
    first | assumption | apply State_withTelegram_kept | apply State_modLink_kept | apply decideStop_kept | apply kept_ite
          | apply kept_dite | intro _ | dsimp only | split

theorem openAllowance_kept (c : WaitingCopy) {s : State} (hs : Kept Q N s) : Kept Q N (openAllowance c s) := by
  unfold openAllowance
  repeat' with_reducible
    first | assumption | apply State_withTelegram_kept | apply mismatch_kept | apply kept_ite | apply kept_dite | intro _ | dsimp only
          | split

theorem matchCopy_kept (c : WaitingCopy) {s : State} (hs : Kept Q N s) : Kept Q N (matchCopy c s) := by
  unfold matchCopy
  repeat' with_reducible
    first | assumption | apply State_withTelegram_kept | apply discardWaiting_kept | apply mismatch_kept | apply completePair_kept
          | apply openAllowance_kept | apply kept_ite | apply kept_dite | apply kept_foldl' | intro _ | dsimp only | split

theorem countRemaining_kept (path : SafetyPath) (bs : List Byte) (paired : Bool) {s : State} (hs : Kept Q N s) : Kept Q N (countRemaining path bs paired s) := by
  unfold countRemaining
  repeat' with_reducible
    first | assumption | apply State_withTelegram_kept | apply decideStop_kept | apply kept_ite | apply kept_dite | intro _ | dsimp only
          | split

theorem takeCopy_kept (path : SafetyPath) (arrivalUs : Nat) (bs : List Byte) {s : State} (hs : Kept Q N s) : Kept Q N (takeCopy path arrivalUs bs s) := by
  unfold takeCopy
  repeat' with_reducible
    first | assumption | apply State_modLink_kept | apply matchCopy_kept | apply countRemaining_kept | intro _ | dsimp only | split

theorem checkCopy_kept (b : SafetyBlock) (path : SafetyPath) (form : CopyForm) (arrivalUs : Nat) (bs : List Byte) {s : State} (hs : Kept Q N s) : Kept Q N (checkCopy b path form arrivalUs bs s) := by
  unfold checkCopy
  repeat' with_reducible
    first | assumption | apply State_modLink_kept | apply takeCopy_kept | apply kept_ite | apply kept_dite | intro _ | dsimp only | split

theorem execTelegramCopyReceived_kept (path : SafetyPath) (x : CopyFraming) (arrivalUs : Nat) (bs : List Byte) {s : State} (hs : Kept Q N s) : KeptOut Q N (execTelegramCopyReceived path x arrivalUs bs s) := by
  unfold execTelegramCopyReceived
  repeat' with_reducible
    first | assumption | apply State_modLink_kept | apply checkCopy_kept | apply kept_ite | apply kept_dite | apply keptOut_ite
          | apply keptOut_dite | apply keptOut_next | intro _ | dsimp only | split

theorem execSkewAllowanceEnd_kept {s : State} (hs : Kept Q N s) : KeptOut Q N (execSkewAllowanceEnd s) := by
  unfold execSkewAllowanceEnd
  repeat' with_reducible
    first | assumption | apply discardWaiting_kept | apply kept_ite | apply kept_dite | apply keptOut_ite | apply keptOut_dite
          | apply keptOut_next | apply kept_foldl' | intro _ | dsimp only | split

theorem enterRemaining_kept (path : SafetyPath) {s : State} (hs : Kept Q N s) : Kept Q N (enterRemaining path s) := by
  unfold enterRemaining
  repeat' with_reducible
    first | assumption | apply State_withTelegram_kept | apply kept_ite | apply kept_dite | intro _ | dsimp only | split

theorem execTelegramTimeout_kept {s : State} (hs : Kept Q N s) : KeptOut Q N (execTelegramTimeout s) := by
  unfold execTelegramTimeout
  repeat' with_reducible
    first | assumption | apply decideFault_kept | apply State_withTelegram_kept | apply enterRemaining_kept | apply kept_ite
          | apply kept_dite | apply keptOut_ite | apply keptOut_dite | apply keptOut_next | intro _ | dsimp only | split

theorem execBusOffRecovery_kept {s : State} (hs : Kept Q N s) : KeptOut Q N (execBusOffRecovery s) := by
  unfold execBusOffRecovery
  repeat' with_reducible
    first | assumption | apply State_modLink_kept | apply keptOut_next | intro _ | dsimp only | split

theorem putInForce_kept {s : State} (hs : Kept Q N s) : Kept Q N (putInForce s) := by
  unfold putInForce
  repeat' with_reducible
    first | assumption | apply grantPermits_kept | apply startTelegrams_kept | apply kept_ite | apply kept_dite | apply Kept.withSteeple
          | (refine Kept.steeple (Q := Q) (N := N) (s := ?_) ?_ ?e0; (case e0 => exact rfl)) | intro _ | dsimp only | split

theorem arriveCommit_kept (e : RequestEntry) {s : State} (hs : Kept Q N s) : Kept Q N (arriveCommit e s) := by
  unfold arriveCommit
  repeat' with_reducible
    first | assumption | apply check_kept | apply post_kept | apply postOutcome_kept | apply useProof_kept | apply markProofUsed_kept
          | apply putInForce_kept | apply kept_ite | apply kept_dite | intro _ | dsimp only | split

theorem telegramStatus_kept (r : Req) {s : State} (hs : Kept Q N s) : Kept Q N (telegramStatus r s) := by
  unfold telegramStatus
  repeat' with_reducible
    first | assumption | apply respond_kept | apply withLength_kept | apply noHandle_kept | apply intact_kept | intro _ | dsimp only
          | split

theorem execTelegramStatus_kept (b : Box) {s : State} (hs : Kept Q N s) : KeptOut Q N (execTelegramStatus b s) := by
  unfold execTelegramStatus
  repeat' with_reducible
    first | assumption | apply telegramStatus_kept | apply request_kept | apply keptOut_next | intro _ | dsimp only | split

end Sys2Proof.Machine
end

