-- ==== Sys2Proof/Laws/KeptOptions.lean ====
section
/-! SUPPORT. Options: every operation keeps the queue, the clock and the capacities. -/

namespace Sys2Proof.Machine

variable {Q : List Instr} {N : Nat}

theorem deviceInfo_kept (r : Req) {s : State} (hs : Kept Q N s) : Kept Q N (deviceInfo r s) := by
  unfold deviceInfo
  repeat' with_reducible
    first | assumption | apply respond_kept | apply withLength_kept | apply noHandle_kept | intro _ | dsimp only | split

theorem execDeviceInfo_kept (b : Box) {s : State} (hs : Kept Q N s) : KeptOut Q N (execDeviceInfo b s) := by
  unfold execDeviceInfo
  repeat' with_reducible
    first | assumption | apply deviceInfo_kept | apply request_kept | apply keptOut_next | intro _ | dsimp only | split

theorem resetCause_kept (r : Req) {s : State} (hs : Kept Q N s) : Kept Q N (resetCause r s) := by
  unfold resetCause
  repeat' with_reducible
    first | assumption | apply respond_kept | apply withLength_kept | apply noHandle_kept | intro _ | dsimp only | split

theorem execResetCause_kept (b : Box) {s : State} (hs : Kept Q N s) : KeptOut Q N (execResetCause b s) := by
  unfold execResetCause
  repeat' with_reducible
    first | assumption | apply resetCause_kept | apply request_kept | apply keptOut_next | intro _ | dsimp only | split

theorem optionRead_kept (r : Req) {s : State} (hs : Kept Q N s) : Kept Q N (optionRead r s) := by
  unfold optionRead
  repeat' with_reducible
    first | assumption | apply respond_kept | apply withLength_kept | apply noHandle_kept | apply check_kept | intro _ | dsimp only
          | split

theorem execOptionRead_kept (b : Box) {s : State} (hs : Kept Q N s) : KeptOut Q N (execOptionRead b s) := by
  unfold execOptionRead
  repeat' with_reducible
    first | assumption | apply optionRead_kept | apply request_kept | apply keptOut_next | intro _ | dsimp only | split

theorem optionWrite_kept (r : Req) {s : State} (hs : Kept Q N s) : Kept Q N (optionWrite r s) := by
  unfold optionWrite
  repeat' with_reducible
    first | assumption | apply accept_kept | apply finish_kept | apply withLength_kept | apply noHandle_kept | apply check_kept
          | apply storing_kept | apply markProofUsed_kept | apply kept_ite | apply kept_dite | apply Kept.withPower | intro _ | dsimp only
          | split

theorem execOptionWrite_kept (b : Box) {s : State} (hs : Kept Q N s) : KeptOut Q N (execOptionWrite b s) := by
  unfold execOptionWrite
  repeat' with_reducible
    first | assumption | apply optionWrite_kept | apply request_kept | apply keptOut_next | intro _ | dsimp only | split

end Sys2Proof.Machine
end

