-- ==== Sys2Proof/Laws/KeptLantern.lean ====
section
/-! SUPPORT. Lantern: every operation keeps the queue, the clock and the capacities. -/

namespace Sys2Proof.Machine

variable {Q : List Instr} {N : Nat}

theorem releaseLantern_kept (on : Bool) {s : State} (hs : Kept Q N s) : Kept Q N (releaseLantern on s) := by
  unfold releaseLantern
  repeat' with_reducible
    first | assumption | apply Kept.withLantern | intro _ | dsimp only | split

theorem execTraceSync_kept {s : State} (hs : Kept Q N s) : KeptOut Q N (execTraceSync s) := by
  unfold execTraceSync
  repeat' with_reducible
    first | assumption | apply count_kept | apply trace_kept | apply tick_kept | apply kept_ite | apply kept_dite | apply keptOut_ite
          | apply keptOut_dite | apply keptOut_next | apply Kept.withLantern | intro _ | dsimp only | split

theorem execTraceLost_kept (src : Fin 12) {s : State} (hs : Kept Q N s) : KeptOut Q N (execTraceLost src s) := by
  unfold execTraceLost
  repeat' with_reducible
    first | assumption | apply tick_kept | apply kept_ite | apply kept_dite | apply keptOut_ite | apply keptOut_dite | apply keptOut_next
          | apply Kept.withLantern | intro _ | dsimp only | split

theorem counterRead_kept (r : Req) {s : State} (hs : Kept Q N s) : Kept Q N (counterRead r s) := by
  unfold counterRead
  repeat' with_reducible
    first | assumption | apply respond_kept | apply refuse_kept | apply withLength_kept | apply noHandle_kept | apply check_kept
          | apply tick_kept | apply kept_ite | apply kept_dite | intro _ | dsimp only | split

theorem execCounterRead_kept (b : Box) {s : State} (hs : Kept Q N s) : KeptOut Q N (execCounterRead b s) := by
  unfold execCounterRead
  repeat' with_reducible
    first | assumption | apply counterRead_kept | apply request_kept | apply keptOut_next | intro _ | dsimp only | split

end Sys2Proof.Machine
end

