-- ==== Sys2Proof/Laws/KeptMemOps.lean ====
section
/-! SUPPORT. MemOps: every operation keeps the queue, the clock and the capacities. -/

namespace Sys2Proof.Machine

variable {Q : List Instr} {N : Nat}

theorem memRecord_kept (i : Fin 8) (kind offset requester cnt : Nat) (counted : Bool) {s : State} (hs : Kept Q N s) : Kept Q N (memRecord i kind offset requester cnt counted s) := by
  unfold memRecord
  repeat' with_reducible
    first | assumption | apply logError_kept | apply post_kept | apply kept_ite | apply kept_dite | intro _ | dsimp only | split

theorem bucketAdd_kept (i : Fin 8) (requester : Nat) {s : State} (hs : Kept Q N s) : Kept Q N (bucketAdd i requester s) := by
  unfold bucketAdd
  repeat' with_reducible
    first | assumption | apply State_setRegion_kept | apply memRecord_kept | apply kept_ite | apply kept_dite | intro _ | dsimp only
          | split

theorem bucketFill_kept (i : Fin 8) {s : State} (hs : Kept Q N s) : Kept Q N (bucketFill i s) := by
  unfold bucketFill
  repeat' with_reducible
    first | assumption | apply State_setRegion_kept | intro _ | dsimp only | split

theorem copyPage_kept (i : Fin 8) (page : Nat) {s : State} (hs : Kept Q N s) : Kept Q N (copyPage i page s) := by
  unfold copyPage
  repeat' with_reducible
    first | assumption | apply count_kept | apply memRecord_kept | apply kept_foldl' | intro _ | dsimp only | split

theorem retirePage_kept (i : Fin 8) (page : Nat) {s : State} (hs : Kept Q N s) : Kept Q N (retirePage i page s) := by
  unfold retirePage
  repeat' with_reducible
    first | assumption | apply State_setRegion_kept | apply memRecord_kept | apply copyPage_kept | intro _ | dsimp only | split

theorem startRetirement_kept (i : Fin 8) (page : Nat) (w : Waiting) {s : State} (hs : Kept Q N s) : Kept Q N (startRetirement i page w s) := by
  unfold startRetirement
  repeat' with_reducible
    first | assumption | apply Kept.withMemory
          | (refine Kept.memory (Q := Q) (N := N) (s := ?_) ?_ ?e0; (case e0 => first | exact rfl | with_unfolding_all exact rfl))
          | intro _ | dsimp only | split

theorem settleRetirement_kept {s : State} (hs : Kept Q N s) : Kept Q N (settleRetirement s) := by
  unfold settleRetirement
  repeat' with_reducible
    first | assumption | apply finish_kept | apply retirePage_kept | apply request_kept | apply kept_ite | apply kept_dite
          | apply Kept.withMemory
          | (refine Kept.memory (Q := Q) (N := N) (s := ?_) ?_ ?e0; (case e0 => first | exact rfl | with_unfolding_all exact rfl))
          | intro _ | dsimp only | split

theorem logDuds_kept {s : State} (hs : Kept Q N s) : Kept Q N (logDuds s) := by
  unfold logDuds
  repeat' with_reducible
    first | assumption | apply logError_kept | apply kept_foldl' | intro _ | dsimp only | split

theorem dspMark_kept (page : Nat) {s : State} (hs : Kept Q N s) : Kept Q N (dspMark page s) := by
  unfold dspMark
  repeat' with_reducible
    first | assumption | apply retirePage_kept | apply kept_ite | apply kept_dite | apply Kept.withMemory
          | (refine Kept.memory (Q := Q) (N := N) (s := ?_) ?_ ?e0; (case e0 => exact rfl)) | intro _ | dsimp only | split

theorem recoverLine_kept (i : Fin 8) (kind offset requester : Nat) {s0 : State} (hs : Kept Q N s0) : Kept Q N (recoverLine i kind offset requester s0) := by
  unfold recoverLine
  repeat' with_reducible
    first | assumption | apply count_kept | apply State_setRegion_kept | apply memRecord_kept | apply bucketAdd_kept | apply dspMark_kept
          | apply kept_ite | apply kept_dite | apply Kept.withMemory
          | (refine Kept.memory (Q := Q) (N := N) (s := ?_) ?_ ?e0; (case e0 => exact rfl)) | intro _ | dsimp only | split

theorem loseLine_kept (i : Fin 8) (line requester : Nat) (write : Bool) {s : State} (hs : Kept Q N s) : Kept Q N (loseLine i line requester write s) := by
  unfold loseLine
  repeat' with_reducible
    first | assumption | apply count_kept | apply State_setRegion_kept | apply memRecord_kept | apply bucketFill_kept | apply kept_ite
          | apply kept_dite | intro _ | dsimp only | split

end Sys2Proof.Machine
end

