-- ==== Sys2Proof/Laws/KeptGuardOps.lean ====
section
/-! SUPPORT. GuardOps: every operation keeps the queue, the clock and the capacities. -/

namespace Sys2Proof.Machine

variable {Q : List Instr} {N : Nat}

theorem cutMeans_kept (p : Port) {s : State} (hs : Kept Q N s) : Kept Q N (cutMeans p s) := by
  unfold cutMeans
  repeat' with_reducible
    first | assumption | apply kept_ite | apply kept_dite | apply Kept.withTurret
          | (refine Kept.turret (Q := Q) (N := N) (s := ?_) ?_ ?e0; (case e0 => exact rfl)) | intro _ | dsimp only | split

theorem State_modGuard_kept (f : Phase) (g : GuardPhase → GuardPhase) {s : State} (hs : Kept Q N s) : Kept Q N (State.modGuard s f g) := by
  unfold State.modGuard
  repeat' with_reducible
    first | assumption | apply Kept.withTurret | (refine Kept.turret (Q := Q) (N := N) (s := ?_) ?_ ?e0; (case e0 => exact rfl)) | intro _
          | dsimp only | split

theorem postZone_kept (f : Phase) (old new_ : Nat) {s : State} (hs : Kept Q N s) : Kept Q N (postZone f old new_ s) := by
  unfold postZone
  repeat' with_reducible
    first | assumption | apply post_kept | apply State_modGuard_kept | apply kept_ite | apply kept_dite | intro _ | dsimp only | split

theorem evaluateZone_kept (f : Phase) (us : Nat) {s : State} (hs : Kept Q N s) : Kept Q N (evaluateZone f us s) := by
  unfold evaluateZone
  repeat' with_reducible
    first | assumption | apply count_kept | apply State_modGuard_kept | apply postZone_kept | apply kept_ite | apply kept_dite | intro _
          | dsimp only | split

theorem updateBlind_kept (f : Phase) {s : State} (hs : Kept Q N s) : Kept Q N (updateBlind f s) := by
  unfold updateBlind
  repeat' with_reducible
    first | assumption | apply post_kept | apply State_modGuard_kept | apply kept_ite | apply kept_dite | apply Kept.withTurret
          | (refine Kept.turret (Q := Q) (N := N) (s := ?_) ?_ ?e0; (case e0 => exact rfl)) | intro _ | dsimp only | split

theorem updateBlinds_kept {s : State} (hs : Kept Q N s) : Kept Q N (updateBlinds s) := by
  unfold updateBlinds
  repeat' with_reducible
    first | assumption | apply updateBlind_kept | apply kept_foldl' | intro _ | dsimp only | split

theorem setAllowance_kept (p : Port) (ma reason : Nat) {s : State} (hs : Kept Q N s) : Kept Q N (setAllowance p ma reason s) := by
  unfold setAllowance
  repeat' with_reducible
    first | assumption | apply trace_kept | apply State_modLane_kept | apply Kept.withTurret
          | (refine Kept.turret (Q := Q) (N := N) (s := ?_) ?_ ?e0; (case e0 => exact rfl)) | intro _ | dsimp only | split

theorem stopPreBreak_kept (p : Port) {s : State} (hs : Kept Q N s) : Kept Q N (stopPreBreak p s) := by
  unfold stopPreBreak
  repeat' with_reducible
    first | assumption | apply State_modLane_kept | apply transit_kept | apply setPbd_kept | apply shedClosing_kept | apply kept_ite
          | apply kept_dite | intro _ | dsimp only | split

theorem shedPort_kept (p : Port) (f : Phase) (cause site : Nat) {s : State} (hs : Kept Q N s) : Kept Q N (shedPort p f cause site s) := by
  unfold shedPort
  repeat' with_reducible
    first | assumption | apply trace_kept | apply post_kept | apply State_modLane_kept | apply cutMeans_kept | apply State_modGuard_kept
          | apply setAllowance_kept | apply stopPreBreak_kept | apply kept_ite | apply kept_dite | apply kept_foldl'
          | apply Kept.withTurret
          | (refine Kept.turret (Q := Q) (N := N) (s := ?_) ?_ ?e0; (case e0 => first | exact rfl | with_unfolding_all exact rfl))
          | intro _ | dsimp only | split

theorem shedNothing_kept (f : Phase) (z : Nat) {s : State} (hs : Kept Q N s) : Kept Q N (shedNothing f z s) := by
  unfold shedNothing
  repeat' with_reducible
    first | assumption | apply State_modGuard_kept | apply postZone_kept | apply kept_ite | apply kept_dite | apply Kept.withTurret
          | (refine Kept.turret (Q := Q) (N := N) (s := ?_) ?_ ?e0; (case e0 => first | exact rfl | with_unfolding_all exact rfl))
          | intro _ | dsimp only | split

theorem decideHard_kept (f : Phase) {s : State} (hs : Kept Q N s) : Kept Q N (decideHard f s) := by
  unfold decideHard
  repeat' with_reducible
    first | assumption | apply State_modGuard_kept | apply shedUntil_kept | apply kept_ite | apply kept_dite | intro _ | dsimp only
          | split

theorem evaluateGuard_kept (f : Phase) (us : Nat) {s : State} (hs : Kept Q N s) : Kept Q N (evaluateGuard f us s) := by
  unfold evaluateGuard
  repeat' with_reducible
    first | assumption | apply evaluateZone_kept | apply decideHard_kept | intro _ | dsimp only | split

theorem shedPorts_kept (ps : List Port) (f : Phase) (cause site : Nat) {s : State} (hs : Kept Q N s) : Kept Q N (shedPorts ps f cause site s) := by
  unfold shedPorts
  repeat' with_reducible
    first | assumption | apply shedPort_kept | apply kept_foldl' | intro _ | dsimp only | split

theorem shedHard_kept (f : Phase) {s : State} (hs : Kept Q N s) : Kept Q N (shedHard f s) := by
  unfold shedHard
  repeat' with_reducible
    first | assumption | apply State_modGuard_kept | apply shedNothing_kept | apply shedPorts_kept | apply kept_ite | apply kept_dite
          | intro _ | dsimp only | split

theorem shedDue_kept {s : State} (hs : Kept Q N s) : Kept Q N (shedDue s) := by
  unfold shedDue
  repeat' with_reducible
    first | assumption | apply shedHard_kept | apply kept_foldl' | intro _ | dsimp only | split

theorem markDisabled_kept {s : State} (hs : Kept Q N s) : Kept Q N (markDisabled s) := by
  unfold markDisabled
  repeat' with_reducible
    first | assumption | apply Kept.withTurret
          | (refine Kept.turret (Q := Q) (N := N) (s := ?_) ?_ ?e0; (case e0 => first | exact rfl | with_unfolding_all exact rfl))
          | intro _ | dsimp only | split

end Sys2Proof.Machine
end

