-- ==== Sys2Proof/Laws/KeptCrosspoints.lean ====
section
/-! SUPPORT. Crosspoints: every operation keeps the queue, the clock and the capacities. -/

namespace Sys2Proof.Machine

variable {Q : List Instr} {N : Nat}

theorem forwardProof_kept {s : State} (hs : Kept Q N s) : Kept Q N (forwardProof s) := by
  unfold forwardProof
  repeat' with_reducible
    first | assumption | apply makeRequest_kept | apply markProofUsed_kept | apply kept_ite | apply kept_dite | intro _ | dsimp only
          | split

theorem execAllocInputHeartbeat_kept {s : State} (hs : Kept Q N s) : KeptOut Q N (execAllocInputHeartbeat s) := by
  unfold execAllocInputHeartbeat
  repeat' with_reducible
    first | assumption | apply post_kept | apply forwardProof_kept | apply kept_ite | apply kept_dite | apply keptOut_ite
          | apply keptOut_dite | apply keptOut_next | apply Kept.withRotunda
          | (refine Kept.rotunda (Q := Q) (N := N) (s := ?_) ?_ ?e0; (case e0 => exact rfl)) | apply Kept.withTurret
          | (refine Kept.turret (Q := Q) (N := N) (s := ?_) ?_ ?e0; (case e0 => exact rfl)) | refine Kept.box (Q := Q) (N := N) ?_ _
          | intro _ | dsimp only | split

theorem execAllocInputStale_kept {s : State} (hs : Kept Q N s) : KeptOut Q N (execAllocInputStale s) := by
  unfold execAllocInputStale
  repeat' with_reducible
    first | assumption | apply post_kept | apply kept_ite | apply kept_dite | apply keptOut_ite | apply keptOut_dite | apply keptOut_next
          | apply Kept.withTurret | (refine Kept.turret (Q := Q) (N := N) (s := ?_) ?_ ?e0; (case e0 => exact rfl)) | intro _ | dsimp only
          | split

theorem execHostSurplusExpiry_kept {s : State} (hs : Kept Q N s) : KeptOut Q N (execHostSurplusExpiry s) := by
  unfold execHostSurplusExpiry
  repeat' with_reducible
    first | assumption | apply post_kept | apply kept_ite | apply kept_dite | apply keptOut_ite | apply keptOut_dite | apply keptOut_next
          | apply Kept.withTurret | (refine Kept.turret (Q := Q) (N := N) (s := ?_) ?_ ?e0; (case e0 => exact rfl)) | intro _ | dsimp only
          | split

theorem execSessionEventQueueHeartbeat_kept {s : State} (hs : Kept Q N s) : KeptOut Q N (execSessionEventQueueHeartbeat s) := by
  unfold execSessionEventQueueHeartbeat
  repeat' with_reducible
    first | assumption | apply raise_kept | apply kept_ite | apply kept_dite | apply keptOut_ite | apply keptOut_dite | apply keptOut_next
          | apply Kept.withRotunda | (refine Kept.rotunda (Q := Q) (N := N) (s := ?_) ?_ ?e0; (case e0 => exact rfl))
          | apply Kept.withTurret | (refine Kept.turret (Q := Q) (N := N) (s := ?_) ?_ ?e0; (case e0 => exact rfl))
          | refine Kept.box (Q := Q) (N := N) ?_ _ | intro _ | dsimp only | split

theorem dropAsked_kept (number : Nat) {s : State} (hs : Kept Q N s) : Kept Q N (dropAsked number s) := by
  unfold dropAsked
  repeat' with_reducible
    first | assumption | apply Kept.withRotunda | (refine Kept.rotunda (Q := Q) (N := N) (s := ?_) ?_ ?e0; (case e0 => exact rfl))
          | refine Kept.box (Q := Q) (N := N) ?_ _ | intro _ | dsimp only | split

theorem silenceRequest_kept (e : RequestEntry) {s : State} (hs : Kept Q N s) : Kept Q N (silenceRequest s e) := by
  unfold silenceRequest
  repeat' with_reducible
    first | assumption | apply finish_kept | apply dropAsked_kept | intro _ | dsimp only | split

theorem execControlLost_kept {s : State} (hs : Kept Q N s) : KeptOut Q N (execControlLost s) := by
  unfold execControlLost
  repeat' with_reducible
    first | assumption | apply raise_kept | apply silenceRequest_kept | apply kept_ite | apply kept_dite | apply keptOut_ite
          | apply keptOut_dite | apply keptOut_next | apply kept_foldl' | apply Kept.withRotunda
          | (refine Kept.rotunda (Q := Q) (N := N) (s := ?_) ?_ ?e0; (case e0 => exact rfl)) | refine Kept.box (Q := Q) (N := N) ?_ _
          | intro _ | dsimp only | split

theorem execGapEntry_kept {s : State} (hs : Kept Q N s) : KeptOut Q N (execGapEntry s) := by
  unfold execGapEntry
  repeat' with_reducible
    first | assumption | apply postGap_kept | apply kept_ite | apply kept_dite | apply keptOut_ite | apply keptOut_dite
          | apply keptOut_next | intro _ | dsimp only | split

theorem raiseDone_kept (e : RequestEntry) (status : Nat) (result : List Byte) (time : Nat) {s : State} (hs : Kept Q N s) : Kept Q N (raiseDone e status result time s) := by
  unfold raiseDone
  repeat' with_reducible
    first | assumption | apply raise_kept | refine Kept.box (Q := Q) (N := N) ?_ _ | intro _ | dsimp only | split

theorem deliverOutcome_kept (number status : Nat) (result : List Byte) (time : Nat) {s : State} (hs : Kept Q N s) : Kept Q N (deliverOutcome number status result time s) := by
  unfold deliverOutcome
  split
  · exact hs
  · rename_i e he
    have h1 : Kept Q N (s.withRotunda { s.rotunda with published := { s.rotunda.published with
      record := s.rotunda.published.record.map (fun x => if x.number = number then { x with done := true } else x) } }) :=
      hs.withRotunda (hs.rotunda rfl)
    have h2 : ∀ o : Option Nat, Kept Q N (o.elim (s.withRotunda { s.rotunda with published := { s.rotunda.published with
      record := s.rotunda.published.record.map (fun x => if x.number = number then { x with done := true } else x) } })
      (fun id => markProofUsed id (s.withRotunda { s.rotunda with published := { s.rotunda.published with
      record := s.rotunda.published.record.map (fun x => if x.number = number then { x with done := true } else x) } }))) := by
      intro o
      cases o with
      | none => exact h1
      | some i => exact markProofUsed_kept i h1
    dsimp only
    split
    · exact kept_ite (fun _ => finish_kept _ _ _ (dropAsked_kept _ (h2 _))) (fun _ => raiseDone_kept _ _ _ _ (dropAsked_kept _ (h2 _)))
    · exact kept_ite (fun _ => h2 _) (fun _ => raiseDone_kept _ _ _ _ (h2 _))

theorem noteIndication_kept (e : QEntry) {s : State} (hs : Kept Q N s) : Kept Q N (noteIndication e s) := by
  unfold noteIndication
  repeat' with_reducible
    first | assumption | apply Kept.withBelfry | intro _ | dsimp only | split

theorem deliver_kept (e : QEntry) {s : State} (hs : Kept Q N s) : Kept Q N (deliver e s) := by
  unfold deliver
  repeat' with_reducible
    first | assumption | apply raise_kept | apply logError_kept | apply deliverOutcome_kept | apply noteIndication_kept | apply kept_ite
          | apply kept_dite | intro _ | dsimp only | split

theorem execSessionEventDeliver_kept {s : State} (hs : Kept Q N s) : KeptOut Q N (execSessionEventDeliver s) := by
  unfold execSessionEventDeliver
  refine keptOut_ite (fun _ => ?_) (fun _ => keptOut_next hs)
  split
  · exact keptOut_next hs
  · rename_i e rest he
    have h1 : (Turret.Within { s.turret with queue := rest }) := by
      have := hs.within.turret
      unfold Turret.Within at *
      rw [he, List.length_cons] at this
      dsimp only
      omega
    have h2 := hs.withTurret h1
    exact keptOut_next (deliver_kept _ (h2.withSteeple (h2.steeple rfl)))

end Sys2Proof.Machine
end

