-- ==== Sys2Proof/Laws/KeptBelfryOps.lean ====
section
/-! SUPPORT. BelfryOps: every operation keeps the queue, the clock and the capacities. -/

namespace Sys2Proof.Machine

variable {Q : List Instr} {N : Nat}

theorem State_modBand_kept (d : Band) (f : BandState → BandState) {s : State} (hs : Kept Q N s) : Kept Q N (State.modBand s d f) := by
  unfold State.modBand
  repeat' with_reducible
    first | assumption | apply Kept.withBelfry | intro _ | dsimp only | split

theorem setNeighbour_kept (c : Channel) (b : NeighbourBody) {s : State} (hs : Kept Q N s) : Kept Q N (setNeighbour c b s) := by
  unfold setNeighbour
  repeat' with_reducible
    first | assumption | apply setBody_kept | intro _ | dsimp only | split

theorem modLinkDir_kept (address : Nat) (d : Band) (x : Direction) (f : LinkDir → LinkDir) {s : State} (hs : Kept Q N s) : Kept Q N (modLinkDir address d x f s) := by
  unfold modLinkDir
  repeat' with_reducible
    first | assumption | apply setNeighbour_kept | intro _ | dsimp only | split

theorem raiseLink_kept (address : Nat) (d : Band) (x : Direction) (change index : Nat) {s : State} (hs : Kept Q N s) : Kept Q N (raiseLink address d x change index s) := by
  unfold raiseLink
  repeat' with_reducible
    first | assumption | apply raise_kept | intro _ | dsimp only | split

theorem raiseLeft_kept (eui : List Byte) (address reason : Nat) {s : State} (hs : Kept Q N s) : Kept Q N (raiseLeft eui address reason s) := by
  unfold raiseLeft
  repeat' with_reducible
    first | assumption | apply raise_kept | intro _ | dsimp only | split

theorem missFrame_kept (d : Band) (address : Nat) {s : State} (hs : Kept Q N s) : Kept Q N (missFrame d address s) := by
  unfold missFrame
  repeat' with_reducible
    first | assumption | apply State_modBand_kept | apply kept_ite | apply kept_dite | intro _ | dsimp only | split

theorem dropNeighbour_kept (c : Channel) (b : NeighbourBody) {s : State} (hs : Kept Q N s) : Kept Q N (dropNeighbour c b s) := by
  unfold dropNeighbour
  repeat' with_reducible
    first | assumption | apply destroyChannel_kept | apply raiseLeft_kept | apply missFrame_kept | intro _ | dsimp only | split

theorem admitNeighbour_kept (n : Node) (d : Band) {s : State} (hs : Kept Q N s) : Kept Q N (admitNeighbour n d s) := by
  unfold admitNeighbour
  repeat' with_reducible
    first | assumption | apply dropNeighbour_kept | refine createChannel_kept ?_ (by assumption) | apply kept_ite | apply kept_dite
          | intro _ | dsimp only | split

theorem tracePlc_kept (d : Band) (direction : Nat) (header : List Byte) {s : State} (hs : Kept Q N s) : Kept Q N (tracePlc d direction header s) := by
  unfold tracePlc
  repeat' with_reducible
    first | assumption | apply trace_kept | intro _ | dsimp only | split

theorem enqueue_kept (d : Band) (m : PlcMessage) {s : State} (hs : Kept Q N s) : Kept Q N (enqueue d m s) := by
  unfold enqueue
  repeat' with_reducible
    first | assumption | apply State_modBand_kept | intro _ | dsimp only | split

theorem flood_kept (m : PlcMessage) {s : State} (hs : Kept Q N s) : Kept Q N (flood m s) := by
  unfold flood
  repeat' with_reducible
    first | assumption | apply enqueue_kept | apply kept_ite | apply kept_dite | apply kept_foldl' | intro _ | dsimp only | split

theorem touchRoute_kept (dest : Nat) {s : State} (hs : Kept Q N s) : Kept Q N (touchRoute dest s) := by
  unfold touchRoute
  repeat' with_reducible
    first | assumption | apply kept_ite | apply kept_dite | apply Kept.withBelfry | intro _ | dsimp only | split

theorem addRoute_kept (r : Route) {s : State} (hs : Kept Q N s) : Kept Q N (addRoute r s) := by
  unfold addRoute
  repeat' with_reducible
    first | assumption | apply kept_ite | apply kept_dite | apply Kept.withBelfry | intro _ | dsimp only | split

theorem dropRoute_kept (dest : Nat) {s : State} (hs : Kept Q N s) : Kept Q N (dropRoute dest s) := by
  unfold dropRoute
  repeat' with_reducible
    first | assumption | apply Kept.withBelfry | intro _ | dsimp only | split

theorem discover_kept (m : PlcMessage) {s : State} (hs : Kept Q N s) : Kept Q N (discover m s) := by
  unfold discover
  repeat' with_reducible
    first | assumption | apply flood_kept | apply kept_ite | apply kept_dite | apply Kept.withBelfry | intro _ | dsimp only | split

theorem removeNode_kept (eui : List Byte) {s : State} (hs : Kept Q N s) : Kept Q N (removeNode eui s) := by
  unfold removeNode
  repeat' with_reducible
    first | assumption | apply destroyChannel_kept | apply raiseLeft_kept | apply kept_ite | apply kept_dite | apply Kept.withBelfry
          | intro _ | dsimp only | split

theorem settleMessage_kept (m : PlcMessage) (d : Band) (result attempts : Nat) {s : State} (hs : Kept Q N s) : Kept Q N (settleMessage m d result attempts s) := by
  unfold settleMessage
  repeat' with_reducible
    first | assumption | apply finish_kept | apply leave_kept | apply removeNode_kept | apply kept_ite | apply kept_dite | intro _
          | dsimp only | split

theorem dispatch_kept (m : PlcMessage) {s : State} (hs : Kept Q N s) : Kept Q N (dispatch m s) := by
  unfold dispatch
  repeat' with_reducible
    first | assumption | apply leave_kept | apply enqueue_kept | apply touchRoute_kept | apply discover_kept | apply settleMessage_kept
          | apply kept_ite | apply kept_dite | intro _ | dsimp only | split

theorem reportDrop_kept (m : PlcMessage) {s : State} (hs : Kept Q N s) : Kept Q N (reportDrop m s) := by
  unfold reportDrop
  repeat' with_reducible
    first | assumption | apply dropRoute_kept | apply dispatch_kept | apply kept_ite | apply kept_dite | intro _ | dsimp only | split

theorem lapseDir_kept (address : Nat) (d : Band) (x : Direction) {s : State} (hs : Kept Q N s) : Kept Q N (lapseDir address d s x) := by
  unfold lapseDir
  repeat' with_reducible
    first | assumption | apply modLinkDir_kept | apply raiseLink_kept | apply kept_foldl' | intro _ | dsimp only | split

theorem lapseBand_kept (d : Band) {s : State} (hs : Kept Q N s) : Kept Q N (lapseBand d s) := by
  unfold lapseBand
  repeat' with_reducible
    first | assumption | apply lapseDir_kept | apply kept_foldl' | intro _ | dsimp only | split

theorem settleBand_kept (d : Band) {s : State} (hs : Kept Q N s) : Kept Q N (settleBand s d) := by
  unfold settleBand
  repeat' with_reducible
    first | assumption | apply State_modBand_kept | apply settleMessage_kept | apply lapseBand_kept | apply kept_ite | apply kept_dite
          | apply kept_foldl' | intro _ | dsimp only | split

theorem settleBelfry_kept {s : State} (hs : Kept Q N s) : Kept Q N (settleBelfry s) := by
  unfold settleBelfry
  repeat' with_reducible
    first | assumption | apply settleBand_kept | apply kept_ite | apply kept_dite | apply kept_foldl' | apply Kept.withBelfry | intro _
          | dsimp only | split

theorem endReception_kept (d : Band) (frameType : Nat) (f : PlcFrame) {s : State} (hs : Kept Q N s) : Kept Q N (endReception d frameType f s) := by
  unfold endReception
  repeat' with_reducible
    first | assumption | apply countAt_kept | apply traceEnclave_kept | apply State_modBand_kept | apply tracePlc_kept | apply kept_ite
          | apply kept_dite | apply Kept.withBelfry | intro _ | dsimp only | split

theorem raisePhase_kept (c : Channel) (old new_ : NeighbourBody) {s : State} (hs : Kept Q N s) : Kept Q N (raisePhase c old new_ s) := by
  unfold raisePhase
  repeat' with_reducible
    first | assumption | apply raise_kept | apply kept_ite | apply kept_dite | intro _ | dsimp only | split

theorem acceptSecured_kept (d : Band) (f : PlcFrame) {s0 : State} (hs : Kept Q N s0) : KeptOpt Q N (acceptSecured d f s0) := by
  unfold acceptSecured
  repeat' with_reducible
    first | assumption | apply setNeighbour_kept | apply admitNeighbour_kept | apply raisePhase_kept | apply kept_ite | apply kept_dite
          | apply keptOpt_some | exact keptOpt_none | apply keptOpt_ite | intro _ | dsimp only | split

theorem relay_kept (f : PlcFrame) {s : State} (hs : Kept Q N s) : Kept Q N (relay f s) := by
  unfold relay
  repeat' with_reducible
    first | assumption | apply dispatch_kept | apply kept_ite | apply kept_dite | intro _ | dsimp only | split

theorem hearFrame_kept (d : Band) (frameType : Nat) (f : PlcFrame) (k : State → State) (hk : ∀ s, Kept Q N s → Kept Q N (k s)) {s : State} (hs : Kept Q N s) : Kept Q N (hearFrame d frameType f k s) := by
  unfold hearFrame
  repeat' with_reducible
    first | assumption | apply hk | apply settleBand_kept | apply endReception_kept | apply kept_ite | apply kept_dite | intro _
          | dsimp only | split

theorem receiveSecured_kept (d : Band) (frameType : Nat) (f : PlcFrame) (k : State → State) (hk : ∀ s, Kept Q N s → Kept Q N (k s)) {s : State} (hs : Kept Q N s) : Kept Q N (receiveSecured d frameType f k s) := by
  unfold receiveSecured
  repeat' with_reducible
    first | assumption | apply hk | apply hearFrame_kept | refine KeptOpt.out (acceptSecured_kept _ _  ?_) _ (by assumption) | intro _
          | dsimp only | split

theorem receivePlc_kept (d : Band) (frameType : Nat) (f : PlcFrame) (k : State → State) (hk : ∀ s, Kept Q N s → Kept Q N (k s)) {s : State} (hs : Kept Q N s) : Kept Q N (receivePlc d frameType f k s) := by
  unfold receivePlc
  repeat' with_reducible
    first | assumption | apply hk | apply relay_kept | apply receiveSecured_kept | apply kept_ite | apply kept_dite | intro _ | dsimp only
          | split

end Sys2Proof.Machine
end

