-- ==== Sys2Proof/Laws/KeptChannels.lean ====
section
/-! SUPPORT. Channels: every operation keeps the queue, the clock and the capacities. -/

namespace Sys2Proof.Machine

variable {Q : List Instr} {N : Nat}

theorem withOwned_kept (destroy : Bool) (r : Req) (k : Channel → State → State) (hk : ∀ x0 s, Kept Q N s → Kept Q N (k x0 s)) {s : State} (hs : Kept Q N s) : Kept Q N (withOwned destroy r k s) := by
  unfold withOwned
  repeat' with_reducible
    first | assumption | apply hk | apply refuse_kept | apply withHandle_kept | apply kept_ite | apply kept_dite
          | refine Kept.box (Q := Q) (N := N) ?_ _ | intro _ | dsimp only | split

theorem programServes_kept (type : Nat) (r : Req) (k : State → State) (hk : ∀ s, Kept Q N s → Kept Q N (k s)) {s : State} (hs : Kept Q N s) : Kept Q N (programServes type r k s) := by
  unfold programServes
  repeat' with_reducible
    first | assumption | apply hk | apply keepServes_kept | apply kept_ite | apply kept_dite | intro _ | dsimp only | split

theorem channelCreate_kept (r : Req) {s : State} (hs : Kept Q N s) : Kept Q N (channelCreate r s) := by
  unfold channelCreate
  repeat' with_reducible
    first | assumption | apply respond_kept | apply refuse_kept | apply accept_kept | apply finish_kept | apply withLength_kept
          | apply noHandle_kept | apply check_kept | apply programLog_kept | apply programServes_kept
          | refine createChannel_kept ?_ (by assumption) | apply kept_ite | apply kept_dite | refine Kept.box (Q := Q) (N := N) ?_ _
          | intro _ | dsimp only | split

theorem execChannelCreate_kept (b : Box) {s : State} (hs : Kept Q N s) : KeptOut Q N (execChannelCreate b s) := by
  unfold execChannelCreate
  repeat' with_reducible
    first | assumption | apply channelCreate_kept | apply request_kept | apply keptOut_next | intro _ | dsimp only | split

theorem endTxn_kept (c : Channel) (b : TxnBody) (status : Nat) (payload : List Byte) {s : State} (hs : Kept Q N s) : Kept Q N (endTxn c b status payload s) := by
  unfold endTxn
  repeat' with_reducible
    first | assumption | apply finish_kept | apply destroyChannel_kept | intro _ | dsimp only | split

theorem dropReach_kept (slot : Nat) {s : State} (hs : Kept Q N s) : Kept Q N (dropReach slot s) := by
  unfold dropReach
  repeat' with_reducible
    first | assumption | apply kept_ite | apply kept_dite | apply Kept.withOculus
          | (refine Kept.oculus (Q := Q) (N := N) (s := ?_) ?_ ?e0 ?e1 ?e2 ?e3; (case e0 => first | exact rfl | with_unfolding_all exact rfl); (case e1 => first | exact rfl | with_unfolding_all exact rfl); (case e2 => first | exact rfl | with_unfolding_all exact rfl); (case e3 => first | exact rfl | with_unfolding_all exact rfl))
          | intro _ | dsimp only | split

theorem settleHandle_kept (handle status : Nat) {s : State} (hs : Kept Q N s) : Kept Q N (settleHandle handle status s) := by
  unfold settleHandle
  repeat' with_reducible
    first | assumption | apply finish_kept | apply kept_foldl' | apply Kept.withRotunda
          | (refine Kept.rotunda (Q := Q) (N := N) (s := ?_) ?_ ?e0; (case e0 => exact rfl)) | refine Kept.box (Q := Q) (N := N) ?_ _
          | intro _ | dsimp only | split

theorem abortSignatures_kept (handle : Nat) {s : State} (hs : Kept Q N s) : Kept Q N (abortSignatures handle s) := by
  unfold abortSignatures
  repeat' with_reducible
    first | assumption | apply finish_kept | apply requeue_kept | apply request_kept | apply kept_foldl' | intro _ | dsimp only | split

theorem destroyBy_kept (r : Req) (c : Channel) {s : State} (hs : Kept Q N s) : Kept Q N (destroyBy r c s) := by
  unfold destroyBy
  repeat' with_reducible
    first | assumption | apply accept_kept | apply finish_kept | apply destroyChannel_kept | apply programLog_kept | apply dropReach_kept
          | apply settleHandle_kept | apply abortSignatures_kept | apply kept_ite | apply kept_dite
          | refine Kept.box (Q := Q) (N := N) ?_ _ | intro _ | dsimp only | split

theorem channelDestroy_kept (r : Req) {s : State} (hs : Kept Q N s) : Kept Q N (channelDestroy r s) := by
  unfold channelDestroy
  refine withLength_kept _ _ _ (fun s hs => withOwned_kept _ _ _ (fun c s hs => ?_) hs) hs
  cases c.program? with
  | none => exact check_kept _ _ _ _ (fun s hs => destroyBy_kept _ _ hs) hs
  | some x => exact keepServes_kept _ _ (fun s hs => check_kept _ _ _ _ (fun s hs => destroyBy_kept _ _ hs) hs) hs

theorem execChannelDestroy_kept (b : Box) {s : State} (hs : Kept Q N s) : KeptOut Q N (execChannelDestroy b s) := by
  unfold execChannelDestroy
  repeat' with_reducible
    first | assumption | apply channelDestroy_kept | apply request_kept | apply keptOut_next | intro _ | dsimp only | split

theorem channelRead_kept (r : Req) {s : State} (hs : Kept Q N s) : Kept Q N (channelRead r s) := by
  unfold channelRead
  repeat' with_reducible
    first | assumption | apply State_draw_kept | apply respond_kept | apply withLength_kept | apply withHandle_kept | apply intact_kept
          | apply check_kept | intro _ | dsimp only | split

theorem execChannelRead_kept (b : Box) {s : State} (hs : Kept Q N s) : KeptOut Q N (execChannelRead b s) := by
  unfold execChannelRead
  repeat' with_reducible
    first | assumption | apply channelRead_kept | apply request_kept | apply keptOut_next | intro _ | dsimp only | split

theorem applyModify_kept (r : Req) (c : Channel) (body : Body) {s : State} (hs : Kept Q N s) : Kept Q N (applyModify r c body s) := by
  unfold applyModify
  repeat' with_reducible
    first | assumption | apply State_draw_kept | apply accept_kept | apply finish_kept | apply setBody_kept | apply programLog_kept
          | apply endTxn_kept | apply kept_ite | apply kept_dite | refine Kept.box (Q := Q) (N := N) ?_ _ | intro _ | dsimp only | split

theorem channelModify_kept (r : Req) {s : State} (hs : Kept Q N s) : Kept Q N (channelModify r s) := by
  unfold channelModify
  refine withLength_kept _ _ _ (fun s hs => withOwned_kept _ _ _ (fun c s hs => ?_) hs) hs
  cases writableBytes c.body (field r.payload 0 2) (field r.payload 2 2) with
  | false => exact refuse_kept _ _ hs
  | true =>
    cases modifiedBody c.body (field r.payload 0 2) (r.payload.drop 4) with
    | none => exact refuse_kept _ _ hs
    | some body =>
      cases c.program? with
      | none => exact applyModify_kept _ _ _ hs
      | some x => exact keepServes_kept _ _ (fun s hs => check_kept _ _ _ _ (fun s hs => applyModify_kept _ _ _ hs) hs) hs

theorem execChannelModify_kept (b : Box) {s : State} (hs : Kept Q N s) : KeptOut Q N (execChannelModify b s) := by
  unfold execChannelModify
  repeat' with_reducible
    first | assumption | apply channelModify_kept | apply request_kept | apply keptOut_next | intro _ | dsimp only | split

theorem channelList_kept (r : Req) {s : State} (hs : Kept Q N s) : Kept Q N (channelList r s) := by
  unfold channelList
  repeat' with_reducible
    first | assumption | apply respond_kept | apply withLength_kept | apply noHandle_kept | apply check_kept | intro _ | dsimp only
          | split

theorem execChannelList_kept (b : Box) {s : State} (hs : Kept Q N s) : KeptOut Q N (execChannelList b s) := by
  unfold execChannelList
  repeat' with_reducible
    first | assumption | apply channelList_kept | apply request_kept | apply keptOut_next | intro _ | dsimp only | split

end Sys2Proof.Machine
end

