-- ==== Sys2Proof/Laws/KeptCupola.lean ====
section
/-! SUPPORT. Cupola: every operation keeps the queue, the clock and the capacities. -/

namespace Sys2Proof.Machine

variable {Q : List Instr} {N : Nat}

theorem State_setKeySlot_kept (i : Fin 6) (k : KeySlot) {s : State} (hs : Kept Q N s) : Kept Q N (State.setKeySlot s i k) := by
  unfold State.setKeySlot
  repeat' with_reducible
    first | assumption | apply Kept.withCupola | intro _ | dsimp only | split

theorem keyStatus_kept (r : Req) {s : State} (hs : Kept Q N s) : Kept Q N (keyStatus r s) := by
  unfold keyStatus
  repeat' with_reducible
    first | assumption | apply respond_kept | apply withLength_kept | apply noHandle_kept | intro _ | dsimp only | split

theorem execKeyStatus_kept (b : Box) {s : State} (hs : Kept Q N s) : KeptOut Q N (execKeyStatus b s) := by
  unfold execKeyStatus
  repeat' with_reducible
    first | assumption | apply keyStatus_kept | apply request_kept | apply keptOut_next | intro _ | dsimp only | split

theorem keyCommand_kept (len : Nat) (ok : Bool) (r : Req) (k : Fin 6 → State → State) (hk : ∀ x0 s, Kept Q N s → Kept Q N (k x0 s)) {s : State} (hs : Kept Q N s) : Kept Q N (keyCommand len ok r k s) := by
  unfold keyCommand
  repeat' with_reducible
    first | assumption | apply hk | apply refuse_kept | apply withLength_kept | apply noHandle_kept | apply kept_ite | apply kept_dite
          | intro _ | dsimp only | split

theorem stageKey_kept (r : Req) (i : Fin 6) (key wrapped : List Byte) {s : State} (hs : Kept Q N s) : Kept Q N (stageKey r i key wrapped s) := by
  unfold stageKey
  repeat' with_reducible
    first | assumption | apply accept_kept | apply finish_kept | apply check_kept | apply State_setKeySlot_kept | apply traceEnclave_kept
          | intro _ | dsimp only | split

theorem keyStage_kept (r : Req) {s : State} (hs : Kept Q N s) : Kept Q N (keyStage r s) := by
  unfold keyStage
  repeat' with_reducible
    first | assumption | apply State_draw_kept | apply countAt_kept | apply refuse_kept | apply acceptDone_kept | apply keyCommand_kept
          | apply stageKey_kept | apply kept_ite | apply kept_dite | refine Kept.box (Q := Q) (N := N) ?_ _ | intro _ | dsimp only | split

theorem execKeyStage_kept (b : Box) {s : State} (hs : Kept Q N s) : KeptOut Q N (execKeyStage b s) := by
  unfold execKeyStage
  repeat' with_reducible
    first | assumption | apply keyStage_kept | apply request_kept | apply keptOut_next | intro _ | dsimp only | split

theorem keyVerify_kept (r : Req) {s : State} (hs : Kept Q N s) : Kept Q N (keyVerify r s) := by
  unfold keyVerify
  repeat' with_reducible
    first | assumption | apply refuse_kept | apply acceptDone_kept | apply State_setKeySlot_kept | apply keyCommand_kept | apply kept_ite
          | apply kept_dite | intro _ | dsimp only | split

theorem execKeyVerify_kept (b : Box) {s : State} (hs : Kept Q N s) : KeptOut Q N (execKeyVerify b s) := by
  unfold execKeyVerify
  repeat' with_reducible
    first | assumption | apply keyVerify_kept | apply request_kept | apply keptOut_next | intro _ | dsimp only | split

theorem commitKey_kept (r : Req) (i : Fin 6) (key : List Byte) {s : State} (hs : Kept Q N s) : Kept Q N (commitKey r i key s) := by
  unfold commitKey
  repeat' with_reducible
    first | assumption | apply raise_kept | apply accept_kept | apply finish_kept | apply State_setKeySlot_kept | apply traceEnclave_kept
          | apply kept_ite | apply kept_dite | apply Kept.withCupola | intro _ | dsimp only | split

theorem keyCommit_kept (after : State → State) (r : Req) (hafter : ∀ s, Kept Q N s → Kept Q N (after s)) {s : State} (hs : Kept Q N s) : Kept Q N (keyCommit after r s) := by
  unfold keyCommit
  repeat' with_reducible
    first | assumption | apply hafter | apply refuse_kept | apply keyCommand_kept | apply commitKey_kept | apply kept_ite
          | apply kept_dite | intro _ | dsimp only | split

theorem keyAbort_kept (r : Req) {s : State} (hs : Kept Q N s) : Kept Q N (keyAbort r s) := by
  unfold keyAbort
  repeat' with_reducible
    first | assumption | apply refuse_kept | apply acceptDone_kept | apply State_setKeySlot_kept | apply keyCommand_kept | intro _
          | dsimp only | split

theorem execKeyAbort_kept (b : Box) {s : State} (hs : Kept Q N s) : KeptOut Q N (execKeyAbort b s) := by
  unfold execKeyAbort
  repeat' with_reducible
    first | assumption | apply keyAbort_kept | apply request_kept | apply keptOut_next | intro _ | dsimp only | split

theorem execRetiringKeyErase_kept {s : State} (hs : Kept Q N s) : KeptOut Q N (execRetiringKeyErase s) := by
  unfold execRetiringKeyErase
  repeat' with_reducible
    first | assumption | apply raise_kept | apply State_setKeySlot_kept | apply kept_ite | apply kept_dite | apply keptOut_ite
          | apply keptOut_dite | apply keptOut_next | apply Kept.withCupola | intro _ | dsimp only | split

theorem execReanchoring_kept (tries : List ReanchorTry) {s : State} (hs : Kept Q N s) : KeptOut Q N (execReanchoring tries s) := by
  unfold execReanchoring
  repeat' with_reducible
    first | assumption | apply raise_kept | apply traceEnclave_kept | apply kept_ite | apply kept_dite | apply keptOut_ite
          | apply keptOut_dite | apply keptOut_next | apply Kept.withCupola | intro _ | dsimp only | split

theorem execRngHealthFailure_kept {s : State} (hs : Kept Q N s) : KeptOut Q N (execRngHealthFailure s) := by
  unfold execRngHealthFailure
  repeat' with_reducible
    first | assumption | apply kept_ite | apply kept_dite | apply keptOut_ite | apply keptOut_dite | apply keptOut_next
          | apply Kept.withCupola | intro _ | dsimp only | split

theorem execRngHealthRestored_kept {s : State} (hs : Kept Q N s) : KeptOut Q N (execRngHealthRestored s) := by
  unfold execRngHealthRestored
  repeat' with_reducible
    first | assumption | apply kept_ite | apply kept_dite | apply keptOut_ite | apply keptOut_dite | apply keptOut_next
          | apply Kept.withCupola | intro _ | dsimp only | split

theorem abandonSignatures_kept {s : State} (hs : Kept Q N s) : Kept Q N (abandonSignatures s) := by
  unfold abandonSignatures
  have h1 : Kept Q N (s.withLegal { s.legal with signing := [], waitingRecords := [] }) :=
    hs.withLegal ⟨hs.within.legal.1, hs.within.legal.2.1, Nat.zero_le _⟩
  refine kept_foldl' (fun j s h => ?_) h1
  split
  · exact finish_kept _ _ _ h
  · exact h

theorem endKeyedSessions_kept {s : State} (hs : Kept Q N s) : Kept Q N (endKeyedSessions s) := by
  unfold endKeyedSessions
  repeat' with_reducible
    first | assumption | apply State_modBox_kept | apply endSession_kept | apply kept_ite | apply kept_dite | apply kept_foldl'
          | apply Kept.withRotunda | (refine Kept.rotunda (Q := Q) (N := N) (s := ?_) ?_ ?e0; (case e0 => exact rfl))
          | refine Kept.box (Q := Q) (N := N) ?_ _ | intro _ | dsimp only | split

theorem raiseDestroyed_kept (d : Nat × Nat × Nat) {s : State} (hs : Kept Q N s) : Kept Q N (raiseDestroyed d s) := by
  unfold raiseDestroyed
  repeat' with_reducible
    first | assumption | apply raise_kept | intro _ | dsimp only | split

theorem destroyKeys_kept (src : DestroySource) {s : State} (hs : Kept Q N s) : Kept Q N (destroyKeys src s) := by
  unfold destroyKeys
  repeat' with_reducible
    first | assumption | apply aonStore_kept | apply abandonSignatures_kept | apply endKeyedSessions_kept | apply raiseDestroyed_kept
          | apply kept_ite | apply kept_dite | apply Kept.withCupola | intro _ | dsimp only | split

theorem execDestruction_kept (src : DestroySource) {s : State} (hs : Kept Q N s) : KeptOut Q N (execDestruction src s) := by
  unfold execDestruction
  repeat' with_reducible
    first | assumption | apply destroyKeys_kept | apply kept_ite | apply kept_dite | apply keptOut_ite | apply keptOut_dite
          | apply keptOut_next | intro _ | dsimp only | split

theorem execMeshCheck_kept (returned : Bool) {s : State} (hs : Kept Q N s) : KeptOut Q N (execMeshCheck returned s) := by
  unfold execMeshCheck
  repeat' with_reducible
    first | assumption | apply destroyKeys_kept | apply kept_ite | apply kept_dite | apply keptOut_ite | apply keptOut_dite
          | apply keptOut_next | apply Kept.withCupola | intro _ | dsimp only | split

theorem execTemperatureCheck_kept (celsius : Int) {s : State} (hs : Kept Q N s) : KeptOut Q N (execTemperatureCheck celsius s) := by
  unfold execTemperatureCheck
  repeat' with_reducible
    first | assumption | apply destroyKeys_kept | apply kept_ite | apply kept_dite | apply keptOut_ite | apply keptOut_dite
          | apply keptOut_next | apply Kept.withCupola | intro _ | dsimp only | split

theorem execReProvisioning_kept (r : Provisioning) {s : State} (hs : Kept Q N s) : KeptOut Q N (execReProvisioning r s) := by
  unfold execReProvisioning
  repeat' with_reducible
    first | assumption | apply State_draw_kept | apply keepLog_kept | apply kept_ite | apply kept_dite | apply keptOut_ite
          | apply keptOut_dite | apply keptOut_next | apply Kept.withLegal
          | (refine Kept.legal (Q := Q) (N := N) (s := ?_) ?_ ?e0 ?e1 ?e2; (case e0 => exact rfl); (case e1 => exact rfl); (case e2 => exact rfl))
          | apply Kept.withCupola | intro _ | dsimp only | split

end Sys2Proof.Machine
end

