-- ==== Sys2Proof/Laws/KeptBelfry.lean ====
section
/-! SUPPORT. Belfry: every operation keeps the queue, the clock and the capacities. -/

namespace Sys2Proof.Machine

variable {Q : List Instr} {N : Nat}

theorem setGain_kept {s : State} (hs : Kept Q N s) : Kept Q N (setGain s) := by
  unfold setGain
  repeat' with_reducible
    first | assumption | apply State_draw_kept | apply Kept.withBelfry | intro _ | dsimp only | split

theorem execPreambleDetected_kept (d : Band) {s : State} (hs : Kept Q N s) : KeptOut Q N (execPreambleDetected d s) := by
  unfold execPreambleDetected
  repeat' with_reducible
    first | assumption | apply countAt_kept | apply State_modBand_kept | apply setGain_kept | apply kept_ite | apply kept_dite
          | apply keptOut_ite | apply keptOut_dite | apply keptOut_next | intro _ | dsimp only | split

theorem contend_kept (l : List PlcMessage) : ∀ (x : List PlcMessage × State), Kept Q N x.2 → Kept Q N (l.foldl contend x).2 := by
  induction l with
  | nil => exact fun x h => h
  | cons m l ih =>
    intro x h
    refine ih _ ?_
    unfold contend
    split
    · exact h
    · split
      · exact h
      · exact State_draw_kept h

theorem execContentionPeriod_kept (d : Band) {s : State} (hs : Kept Q N s) : KeptOut Q N (execContentionPeriod d s) := by
  unfold execContentionPeriod
  exact keptOut_ite (fun _ => keptOut_next (State_modBand_kept _ _ (contend_kept _ _ hs))) (fun _ => keptOut_next hs)

theorem takePlcCounter_kept {s : State} (hs : Kept Q N s) : Kept Q N (takePlcCounter s).2 := by
  unfold takePlcCounter
  repeat' with_reducible
    first | assumption | apply Kept.withBelfry | apply traceEnclave_kept | intro _ | dsimp only | split

theorem startFrame_kept (d : Band) (m : PlcMessage) {s : State} (hs : Kept Q N s) : Kept Q N (startFrame d m s) := by
  unfold startFrame
  have h1 : Kept Q N (if m.security = .plain then (0, s) else takePlcCounter s).2 := by
    split
    · exact hs
    · exact takePlcCounter_kept hs
  dsimp only
  refine tracePlc_kept _ _ _ ?_
  split
  · exact setNeighbour_kept _ _ ((State_modBand_kept _ _ (State_draw_kept h1)).withBelfry)
  · exact (State_modBand_kept _ _ (State_draw_kept h1)).withBelfry

theorem execPlcTransmitStart_kept (d : Band) {s : State} (hs : Kept Q N s) : KeptOut Q N (execPlcTransmitStart d s) := by
  unfold execPlcTransmitStart
  repeat' with_reducible
    first | assumption | apply State_modBand_kept | apply settleMessage_kept | apply startFrame_kept | apply kept_ite | apply kept_dite
          | apply keptOut_ite | apply keptOut_dite | apply keptOut_next | intro _ | dsimp only | split

theorem execPlcTransmitEnd_kept (d : Band) {s : State} (hs : Kept Q N s) : KeptOut Q N (execPlcTransmitEnd d s) := by
  unfold execPlcTransmitEnd
  repeat' with_reducible
    first | assumption | apply State_modBand_kept | apply settleMessage_kept | apply settleBand_kept | apply kept_ite | apply kept_dite
          | apply keptOut_ite | apply keptOut_dite | apply keptOut_next | intro _ | dsimp only | split

theorem execPlcAckSend_kept (d : Band) {s : State} (hs : Kept Q N s) : KeptOut Q N (execPlcAckSend d s) := by
  unfold execPlcAckSend
  repeat' with_reducible
    first | assumption | apply State_draw_kept | apply State_modBand_kept | apply tracePlc_kept | apply kept_ite | apply kept_dite
          | apply keptOut_ite | apply keptOut_dite | apply keptOut_next | intro _ | dsimp only | split

theorem execAcknowledgement_kept (d : Band) {s : State} (hs : Kept Q N s) : KeptOut Q N (execAcknowledgement d s) := by
  unfold execAcknowledgement
  repeat' with_reducible
    first | assumption | apply State_draw_kept | apply State_modBand_kept | apply modLinkDir_kept | apply tracePlc_kept
          | apply settleMessage_kept | apply kept_ite | apply kept_dite | apply keptOut_ite | apply keptOut_dite | apply keptOut_next
          | apply Kept.withBelfry | intro _ | dsimp only | split

theorem linkFailure_kept (address : Nat) {s : State} (hs : Kept Q N s) : Kept Q N (linkFailure address s) := by
  unfold linkFailure
  repeat' with_reducible
    first | assumption | apply setNeighbour_kept | apply raiseLeft_kept | apply kept_ite | apply kept_dite | intro _ | dsimp only | split

theorem failAttempt_kept (d : Band) (address : Nat) {s : State} (hs : Kept Q N s) : Kept Q N (failAttempt d address s) := by
  unfold failAttempt
  repeat' with_reducible
    first | assumption | apply setNeighbour_kept | apply raiseLink_kept | apply kept_ite | apply kept_dite | intro _ | dsimp only | split

theorem execPlcAckTimeout_kept (d : Band) {s : State} (hs : Kept Q N s) : KeptOut Q N (execPlcAckTimeout d s) := by
  unfold execPlcAckTimeout
  repeat' with_reducible
    first | assumption | apply State_draw_kept | apply countAt_kept | apply State_modBand_kept | apply enqueue_kept
          | apply settleMessage_kept | apply reportDrop_kept | apply linkFailure_kept | apply failAttempt_kept | apply kept_ite
          | apply kept_dite | apply keptOut_ite | apply keptOut_dite | apply keptOut_next | apply Kept.withBelfry | intro _ | dsimp only
          | split

theorem execPlcHeaderCheckFailed_kept (d : Band) {s : State} (hs : Kept Q N s) : KeptOut Q N (execPlcHeaderCheckFailed d s) := by
  unfold execPlcHeaderCheckFailed
  repeat' with_reducible
    first | assumption | apply countAt_kept | apply State_modBand_kept | apply settleBand_kept | apply kept_ite | apply kept_dite
          | apply keptOut_ite | apply keptOut_dite | apply keptOut_next | apply Kept.withBelfry | intro _ | dsimp only | split

theorem sendMap_kept (address : Nat) (d : Band) (m : ToneMap) {s : State} (hs : Kept Q N s) : Kept Q N (sendMap address d m s) := by
  unfold sendMap
  repeat' with_reducible
    first | assumption | apply modLinkDir_kept | apply raiseLink_kept | apply enqueue_kept | intro _ | dsimp only | split

theorem updateMap_kept (address : Nat) (d : Band) (snrs : List (List Int)) {s : State} (hs : Kept Q N s) : Kept Q N (updateMap address d snrs s) := by
  unfold updateMap
  repeat' with_reducible
    first | assumption | apply sendMap_kept | intro _ | dsimp only | split

theorem execPlcFrameCheckFailed_kept (d : Band) (source : Nat) (x : FailedSymbols) (snrs : List (List Int)) {s : State} (hs : Kept Q N s) : KeptOut Q N (execPlcFrameCheckFailed d source x snrs s) := by
  unfold execPlcFrameCheckFailed
  repeat' with_reducible
    first | assumption | apply State_draw_kept | apply countAt_kept | apply State_modBand_kept | apply setNeighbour_kept
          | apply tracePlc_kept | apply settleBand_kept | apply updateMap_kept | apply kept_ite | apply kept_dite | apply keptOut_ite
          | apply keptOut_dite | apply keptOut_next | apply Kept.withBelfry | intro _ | dsimp only | split

theorem execToneMapUpdate_kept (d : Band) (f : PlcFrame) {s : State} (hs : Kept Q N s) : KeptOut Q N (execToneMapUpdate d f s) := by
  unfold execToneMapUpdate
  repeat' with_reducible
    first | assumption | apply modLinkDir_kept | apply raiseLink_kept | apply receivePlc_kept | apply keptOut_next | intro _ | dsimp only
          | split

theorem execToneMapRefresh_kept (d : Band) (slot : Nat) (snrs : List (List Int)) {s : State} (hs : Kept Q N s) : KeptOut Q N (execToneMapRefresh d slot snrs s) := by
  unfold execToneMapRefresh
  repeat' with_reducible
    first | assumption | apply modLinkDir_kept | apply sendMap_kept | apply kept_ite | apply kept_dite | apply keptOut_ite
          | apply keptOut_dite | apply keptOut_next | intro _ | dsimp only | split

theorem execToneMapLapse_kept (d : Band) (slot : Nat) (dir : Direction) (i : Fin 4) {s : State} (hs : Kept Q N s) : KeptOut Q N (execToneMapLapse d slot dir i s) := by
  unfold execToneMapLapse
  repeat' with_reducible
    first | assumption | apply modLinkDir_kept | apply raiseLink_kept | apply kept_ite | apply kept_dite | apply keptOut_ite
          | apply keptOut_dite | apply keptOut_next | intro _ | dsimp only | split

theorem noteReply_kept (origin id cost via : Nat) (d : Band) (first : Bool) {s : State} (hs : Kept Q N s) : Kept Q N (noteReply origin id cost via d first s) := by
  unfold noteReply
  repeat' with_reducible
    first | assumption | apply kept_ite | apply kept_dite | apply Kept.withBelfry | intro _ | dsimp only | split

theorem execRouteReq_kept (d : Band) (f : PlcFrame) {s : State} (hs : Kept Q N s) : KeptOut Q N (execRouteReq d f s) := by
  unfold execRouteReq
  repeat' with_reducible
    first | assumption | apply flood_kept | apply addRoute_kept | apply receivePlc_kept | apply noteReply_kept | apply kept_ite
          | apply kept_dite | apply keptOut_ite | apply keptOut_dite | apply keptOut_next | apply Kept.withBelfry | intro _ | dsimp only
          | split

theorem execRouteRep_kept (d : Band) (f : PlcFrame) {s : State} (hs : Kept Q N s) : KeptOut Q N (execRouteRep d f s) := by
  unfold execRouteRep
  repeat' with_reducible
    first | assumption | apply addRoute_kept | apply dispatch_kept | apply relay_kept | apply receiveSecured_kept | apply kept_ite
          | apply kept_dite | apply keptOut_ite | apply keptOut_dite | apply keptOut_next | apply kept_foldl' | apply Kept.withBelfry
          | intro _ | dsimp only | split

theorem execRouteReplyDue_kept (requestId : Nat) {s : State} (hs : Kept Q N s) : KeptOut Q N (execRouteReplyDue requestId s) := by
  unfold execRouteReplyDue
  repeat' with_reducible
    first | assumption | apply enqueue_kept | apply kept_ite | apply kept_dite | apply keptOut_ite | apply keptOut_dite
          | apply keptOut_next | apply Kept.withBelfry | intro _ | dsimp only | split

theorem execRouteRequestTimeout_kept (target : Nat) {s : State} (hs : Kept Q N s) : KeptOut Q N (execRouteRequestTimeout target s) := by
  unfold execRouteRequestTimeout
  repeat' with_reducible
    first | assumption | apply flood_kept | apply settleMessage_kept | apply reportDrop_kept | apply kept_ite | apply kept_dite
          | apply keptOut_ite | apply keptOut_dite | apply keptOut_next | apply kept_foldl' | apply Kept.withBelfry | intro _ | dsimp only
          | split

theorem execRouteErr_kept (d : Band) (f : PlcFrame) {s : State} (hs : Kept Q N s) : KeptOut Q N (execRouteErr d f s) := by
  unfold execRouteErr
  repeat' with_reducible
    first | assumption | apply dropRoute_kept | apply receivePlc_kept | apply keptOut_next | intro _ | dsimp only | split

theorem execRouteEntryLapse_kept (destination : Nat) {s : State} (hs : Kept Q N s) : KeptOut Q N (execRouteEntryLapse destination s) := by
  unfold execRouteEntryLapse
  repeat' with_reducible
    first | assumption | apply dropRoute_kept | apply kept_ite | apply kept_dite | apply keptOut_ite | apply keptOut_dite
          | apply keptOut_next | intro _ | dsimp only | split

theorem execNeighbourTimeout_kept (slot : Nat) {s : State} (hs : Kept Q N s) : KeptOut Q N (execNeighbourTimeout slot s) := by
  unfold execNeighbourTimeout
  repeat' with_reducible
    first | assumption | apply dropNeighbour_kept | apply kept_ite | apply kept_dite | apply keptOut_ite | apply keptOut_dite
          | apply keptOut_next | intro _ | dsimp only | split

theorem raiseReceived_kept (d : Band) (f : PlcFrame) {s : State} (hs : Kept Q N s) : Kept Q N (raiseReceived d f s) := by
  unfold raiseReceived
  repeat' with_reducible
    first | assumption | apply raise_kept | intro _ | dsimp only | split

theorem dropUnknown_kept {s : State} (hs : Kept Q N s) : Kept Q N (dropUnknown s) := by
  unfold dropUnknown
  repeat' with_reducible
    first | assumption | apply Kept.withBelfry | intro _ | dsimp only | split

theorem execGatewayReport_kept (d : Band) (f : PlcFrame) {s : State} (hs : Kept Q N s) : KeptOut Q N (execGatewayReport d f s) := by
  unfold execGatewayReport
  repeat' with_reducible
    first | assumption | apply receivePlc_kept | apply raiseReceived_kept | apply dropUnknown_kept | apply kept_ite | apply kept_dite
          | apply keptOut_ite | apply keptOut_dite | apply keptOut_next | intro _ | dsimp only | split

theorem execNodeStatus_kept (d : Band) (f : PlcFrame) {s : State} (hs : Kept Q N s) : KeptOut Q N (execNodeStatus d f s) := by
  unfold execNodeStatus
  refine keptOut_next (receivePlc_kept _ _ _ _ (fun s hs => ?_) hs)
  split
  · exact hs
  · exact dropUnknown_kept hs

theorem execHostData_kept (d : Band) (f : PlcFrame) {s : State} (hs : Kept Q N s) : KeptOut Q N (execHostData d f s) := by
  unfold execHostData
  repeat' with_reducible
    first | assumption | apply receivePlc_kept | apply raiseReceived_kept | apply dropUnknown_kept | apply kept_ite | apply kept_dite
          | apply keptOut_ite | apply keptOut_dite | apply keptOut_next | intro _ | dsimp only | split

theorem execPortIndication_kept (p : Port) {s : State} (hs : Kept Q N s) : KeptOut Q N (execPortIndication p s) := by
  unfold execPortIndication
  repeat' with_reducible
    first | assumption | apply dispatch_kept | apply kept_ite | apply kept_dite | apply keptOut_ite | apply keptOut_dite
          | apply keptOut_next | apply kept_foldl' | apply Kept.withBelfry | intro _ | dsimp only | split

theorem execEnergyReport_kept {s : State} (hs : Kept Q N s) : KeptOut Q N (execEnergyReport s) := by
  unfold execEnergyReport
  repeat' with_reducible
    first | assumption | apply dispatch_kept | apply kept_ite | apply kept_dite | apply keptOut_ite | apply keptOut_dite
          | apply keptOut_next | apply kept_foldl' | apply Kept.withBelfry | intro _ | dsimp only | split

theorem raisePairing_kept (open_ : Bool) (joined : Nat) {s : State} (hs : Kept Q N s) : Kept Q N (raisePairing open_ joined s) := by
  unfold raisePairing
  repeat' with_reducible
    first | assumption | apply raise_kept | intro _ | dsimp only | split

theorem closePairing_kept {s : State} (hs : Kept Q N s) : Kept Q N (closePairing s) := by
  unfold closePairing
  repeat' with_reducible
    first | assumption | apply raisePairing_kept | apply Kept.withBelfry | intro _ | dsimp only | split

theorem execBeacon_kept {s : State} (hs : Kept Q N s) : KeptOut Q N (execBeacon s) := by
  unfold execBeacon
  repeat' with_reducible
    first | assumption | apply flood_kept | apply kept_ite | apply kept_dite | apply keptOut_ite | apply keptOut_dite | apply keptOut_next
          | apply Kept.withBelfry | intro _ | dsimp only | split

theorem execJoinReq_kept (d : Band) (f : PlcFrame) {s : State} (hs : Kept Q N s) : KeptOut Q N (execJoinReq d f s) := by
  unfold execJoinReq
  repeat' with_reducible
    first | assumption | apply State_draw_kept | apply countAt_kept | apply enqueue_kept | apply relay_kept | apply hearFrame_kept
          | apply kept_ite | apply kept_dite | apply keptOut_ite | apply keptOut_dite | apply keptOut_next | apply Kept.withBelfry
          | intro _ | dsimp only | split

theorem execJoinConfirm_kept (d : Band) (f : PlcFrame) {s : State} (hs : Kept Q N s) : KeptOut Q N (execJoinConfirm d f s) := by
  unfold execJoinConfirm
  repeat' with_reducible
    first | assumption | apply raise_kept | apply hearFrame_kept | apply closePairing_kept
          | refine KeptOpt.out (acceptSecured_kept _ _  ?_) _ (by assumption) | refine kept_getD (acceptSecured_kept _ _  ?_) ?_
          | apply kept_ite | apply kept_dite | apply keptOut_ite | apply keptOut_dite | apply keptOut_next | apply Kept.withBelfry
          | intro _ | dsimp only | split

theorem execJoinConfirmTimeout_kept (address : Nat) {s : State} (hs : Kept Q N s) : KeptOut Q N (execJoinConfirmTimeout address s) := by
  unfold execJoinConfirmTimeout
  repeat' with_reducible
    first | assumption | apply kept_ite | apply kept_dite | apply keptOut_ite | apply keptOut_dite | apply keptOut_next
          | apply Kept.withBelfry | intro _ | dsimp only | split

theorem execPairingWindowClose_kept {s : State} (hs : Kept Q N s) : KeptOut Q N (execPairingWindowClose s) := by
  unfold execPairingWindowClose
  repeat' with_reducible
    first | assumption | apply closePairing_kept | apply kept_ite | apply kept_dite | apply keptOut_ite | apply keptOut_dite
          | apply keptOut_next | intro _ | dsimp only | split

theorem announceKey_kept {s : State} (hs : Kept Q N s) : Kept Q N (announceKey s) := by
  unfold announceKey
  repeat' with_reducible
    first | assumption | apply State_draw_kept | apply dispatch_kept | apply kept_foldl' | intro _ | dsimp only | split

theorem execKeyCommit_kept (b : Box) {s : State} (hs : Kept Q N s) : KeptOut Q N (execKeyCommit b s) := by
  unfold execKeyCommit
  repeat' with_reducible
    first | assumption | apply keyCommit_kept | apply announceKey_kept | apply request_kept | apply keptOut_next | intro _ | dsimp only
          | split

theorem needs_kept (c : Clock) (r : Req) (k : State → State) (hk : ∀ s, Kept Q N s → Kept Q N (k s)) {s : State} (hs : Kept Q N s) : Kept Q N (needs c r k s) := by
  unfold needs
  repeat' with_reducible
    first | assumption | apply hk | apply check_kept | intro _ | dsimp only | split

theorem plcStatus_kept (r : Req) {s : State} (hs : Kept Q N s) : Kept Q N (plcStatus r s) := by
  unfold plcStatus
  repeat' with_reducible
    first | assumption | apply State_draw_kept | apply respond_kept | apply withLength_kept | apply noHandle_kept | apply needs_kept
          | intro _ | dsimp only | split

theorem execPlcStatus_kept (b : Box) {s : State} (hs : Kept Q N s) : KeptOut Q N (execPlcStatus b s) := by
  unfold execPlcStatus
  repeat' with_reducible
    first | assumption | apply plcStatus_kept | apply request_kept | apply keptOut_next | intro _ | dsimp only | split

theorem plcNeighbours_kept (r : Req) {s : State} (hs : Kept Q N s) : Kept Q N (plcNeighbours r s) := by
  unfold plcNeighbours
  repeat' with_reducible
    first | assumption | apply respond_kept | apply refuse_kept | apply withLength_kept | apply noHandle_kept | apply check_kept
          | apply kept_ite | apply kept_dite | intro _ | dsimp only | split

theorem execPlcNeighbours_kept (b : Box) {s : State} (hs : Kept Q N s) : KeptOut Q N (execPlcNeighbours b s) := by
  unfold execPlcNeighbours
  repeat' with_reducible
    first | assumption | apply plcNeighbours_kept | apply request_kept | apply keptOut_next | intro _ | dsimp only | split

theorem plcSend_kept (r : Req) {s : State} (hs : Kept Q N s) : Kept Q N (plcSend r s) := by
  unfold plcSend
  repeat' with_reducible
    first | assumption | apply accept_kept | apply finish_kept | apply withLength_kept | apply noHandle_kept | apply check_kept
          | apply dispatch_kept | apply needs_kept | apply kept_ite | apply kept_dite | intro _ | dsimp only | split

theorem execPlcSend_kept (b : Box) {s : State} (hs : Kept Q N s) : KeptOut Q N (execPlcSend b s) := by
  unfold execPlcSend
  repeat' with_reducible
    first | assumption | apply plcSend_kept | apply request_kept | apply keptOut_next | intro _ | dsimp only | split

theorem plcPairingOpen_kept (r : Req) {s : State} (hs : Kept Q N s) : Kept Q N (plcPairingOpen r s) := by
  unfold plcPairingOpen
  repeat' with_reducible
    first | assumption | apply acceptDone_kept | apply withLength_kept | apply noHandle_kept | apply check_kept | apply markProofUsed_kept
          | apply raisePairing_kept | apply closePairing_kept | apply needs_kept | apply kept_ite | apply kept_dite
          | apply Kept.withBelfry | intro _ | dsimp only | split

theorem execPlcPairingOpen_kept (b : Box) {s : State} (hs : Kept Q N s) : KeptOut Q N (execPlcPairingOpen b s) := by
  unfold execPlcPairingOpen
  repeat' with_reducible
    first | assumption | apply plcPairingOpen_kept | apply request_kept | apply keptOut_next | intro _ | dsimp only | split

theorem plcRouteRead_kept (r : Req) {s : State} (hs : Kept Q N s) : Kept Q N (plcRouteRead r s) := by
  unfold plcRouteRead
  repeat' with_reducible
    first | assumption | apply respond_kept | apply withLength_kept | apply noHandle_kept | apply check_kept | apply needs_kept | intro _
          | dsimp only | split

theorem execPlcRouteRead_kept (b : Box) {s : State} (hs : Kept Q N s) : KeptOut Q N (execPlcRouteRead b s) := by
  unfold execPlcRouteRead
  repeat' with_reducible
    first | assumption | apply plcRouteRead_kept | apply request_kept | apply keptOut_next | intro _ | dsimp only | split

theorem plcTonemapRead_kept (r : Req) {s : State} (hs : Kept Q N s) : Kept Q N (plcTonemapRead r s) := by
  unfold plcTonemapRead
  repeat' with_reducible
    first | assumption | apply respond_kept | apply withLength_kept | apply intact_kept | apply check_kept | apply needs_kept
          | apply kept_ite | apply kept_dite | intro _ | dsimp only | split

theorem execPlcTonemapRead_kept (b : Box) {s : State} (hs : Kept Q N s) : KeptOut Q N (execPlcTonemapRead b s) := by
  unfold execPlcTonemapRead
  repeat' with_reducible
    first | assumption | apply plcTonemapRead_kept | apply request_kept | apply keptOut_next | intro _ | dsimp only | split

theorem plcNodeRemove_kept (r : Req) {s : State} (hs : Kept Q N s) : Kept Q N (plcNodeRemove r s) := by
  unfold plcNodeRemove
  repeat' with_reducible
    first | assumption | apply accept_kept | apply withLength_kept | apply noHandle_kept | apply check_kept | apply leave_kept
          | apply dispatch_kept | apply needs_kept | apply Kept.withBelfry | intro _ | dsimp only | split

theorem execPlcNodeRemove_kept (b : Box) {s : State} (hs : Kept Q N s) : KeptOut Q N (execPlcNodeRemove b s) := by
  unfold execPlcNodeRemove
  repeat' with_reducible
    first | assumption | apply plcNodeRemove_kept | apply request_kept | apply keptOut_next | intro _ | dsimp only | split

end Sys2Proof.Machine
end

