-- ==== Sys2Proof/Laws/KeptOculus.lean ====
section
/-! SUPPORT. Oculus: every operation keeps the queue, the clock and the capacities. -/

namespace Sys2Proof.Machine

variable {Q : List Instr} {N : Nat}

theorem State_modAntenna_kept (a : Fin 2) (f : Antenna → Antenna) {s : State} (hs : Kept Q N s) : Kept Q N (State.modAntenna s a f) := by
  unfold State.modAntenna
  repeat' with_reducible
    first | assumption | apply kept_ite | apply kept_dite | apply Kept.withOculus
          | (refine Kept.oculus (Q := Q) (N := N) (s := ?_) ?_ ?e0 ?e1 ?e2 ?e3; (case e0 => first | exact rfl | with_unfolding_all exact rfl); (case e1 => first | exact rfl | with_unfolding_all exact rfl); (case e2 => first | exact rfl | with_unfolding_all exact rfl); (case e3 => first | exact rfl | with_unfolding_all exact rfl))
          | intro _ | dsimp only | split

theorem noteAuth_kept (uid : List Byte) {s : State} (hs : Kept Q N s) : Kept Q N (noteAuth uid s) := by
  unfold noteAuth
  repeat' with_reducible
    first | assumption | apply Kept.withOculus
          | (refine Kept.oculus (Q := Q) (N := N) (s := ?_) ?_ ?e0 ?e1 ?e2 ?e3; (case e0 => first | exact rfl | with_unfolding_all exact rfl); (case e1 => first | exact rfl | with_unfolding_all exact rfl); (case e2 => first | exact rfl | with_unfolding_all exact rfl); (case e3 => first | exact rfl | with_unfolding_all exact rfl))
          | intro _ | dsimp only | split

theorem modPresentation_kept (a : Fin 2) (f : Presentation → Presentation) {s : State} (hs : Kept Q N s) : Kept Q N (modPresentation a f s) := by
  unfold modPresentation
  repeat' with_reducible
    first | assumption | apply State_modAntenna_kept | intro _ | dsimp only | split

theorem modTag_kept (a : Fin 2) (uid : List Byte) (f : PresentedTag → PresentedTag) {s : State} (hs : Kept Q N s) : Kept Q N (modTag a uid f s) := by
  unfold modTag
  repeat' with_reducible
    first | assumption | apply modPresentation_kept | apply kept_ite | apply kept_dite | intro _ | dsimp only | split

theorem drive_kept (a : Fin 2) {s : State} (hs : Kept Q N s) : Kept Q N (drive a s) := by
  unfold drive
  repeat' with_reducible
    first | assumption | apply modPresentation_kept | apply kept_ite | apply kept_dite | apply Kept.withOculus
          | (refine Kept.oculus (Q := Q) (N := N) (s := ?_) ?_ ?e0 ?e1 ?e2 ?e3; (case e0 => first | exact rfl | with_unfolding_all exact rfl); (case e1 => first | exact rfl | with_unfolding_all exact rfl); (case e2 => first | exact rfl | with_unfolding_all exact rfl); (case e3 => first | exact rfl | with_unfolding_all exact rfl))
          | intro _ | dsimp only | split

theorem carrierOff_kept {s : State} (hs : Kept Q N s) : Kept Q N (carrierOff s) := by
  unfold carrierOff
  repeat' with_reducible
    first | assumption | apply Kept.withOculus
          | (refine Kept.oculus (Q := Q) (N := N) (s := ?_) ?_ ?e0 ?e1 ?e2 ?e3; (case e0 => first | exact rfl | with_unfolding_all exact rfl); (case e1 => first | exact rfl | with_unfolding_all exact rfl); (case e2 => first | exact rfl | with_unfolding_all exact rfl); (case e3 => first | exact rfl | with_unfolding_all exact rfl))
          | intro _ | dsimp only | split

theorem fieldOff_kept {s : State} (hs : Kept Q N s) : Kept Q N (fieldOff s) := by
  unfold fieldOff
  repeat' with_reducible
    first | assumption | apply modPresentation_kept | apply carrierOff_kept | intro _ | dsimp only | split

theorem noteCommand_kept (rate : Nat) (req : List Byte) {s : State} (hs : Kept Q N s) : Kept Q N (noteCommand rate req s) := by
  unfold noteCommand
  repeat' with_reducible
    first | assumption | apply Kept.withOculus
          | (refine Kept.oculus (Q := Q) (N := N) (s := ?_) ?_ ?e0 ?e1 ?e2 ?e3; (case e0 => first | exact rfl | with_unfolding_all exact rfl); (case e1 => first | exact rfl | with_unfolding_all exact rfl); (case e2 => first | exact rfl | with_unfolding_all exact rfl); (case e3 => first | exact rfl | with_unfolding_all exact rfl))
          | intro _ | dsimp only | split

theorem exchange_kept (a : Fin 2) (uid req : List Byte) {s : State} (hs : Kept Q N s) : Kept Q N (exchange a uid req s).2 := by
  unfold exchange
  split
  · exact hs
  · exact modTag_kept _ _ _ (noteCommand_kept _ _ (State_draw_kept hs))

theorem runChallenge_kept (a : Fin 2) (uid : List Byte) {s : State} (hs : Kept Q N s) : Kept Q N (runChallenge a uid s).2 := by
  unfold runChallenge
  dsimp only
  split
  · exact exchange_kept _ _ _ (exchange_kept _ _ _ (State_draw_kept hs))
  · exact exchange_kept _ _ _ (State_draw_kept hs)

theorem runPasscode_kept (a : Fin 2) (uid : List Byte) {s : State} (hs : Kept Q N s) : Kept Q N (runPasscode a uid s).2 := by
  unfold runPasscode
  exact exchange_kept _ _ _ hs

theorem kept_snd_ite {α : Type} {c : Prop} [Decidable c] {x y : α × State} (h1 : Kept Q N x.2) (h2 : Kept Q N y.2) :
    Kept Q N (if c then x else y).2 := by
  split
  · exact h1
  · exact h2

theorem attempt_kept (a : Fin 2) (t : Tag) {s : State} (hs : Kept Q N s) : Kept Q N (attempt a t s).2 := by
  unfold attempt
  have h1 := noteAuth_kept t.uid (modPresentation_kept a (fun p => { p with attempted := true }) hs)
  have h2 : ∀ (c : Bool), Kept Q N (if !c then (false, s) else if t.kind = .keytagV2
      then runChallenge a t.uid (countAt 53 1 (noteAuth t.uid (modPresentation a (fun p => { p with attempted := true }) s)))
      else runPasscode a t.uid (noteAuth t.uid (modPresentation a (fun p => { p with attempted := true }) s))).2 := fun c =>
    kept_snd_ite hs (kept_snd_ite (runChallenge_kept _ _ (countAt_kept _ _ h1)) (runPasscode_kept _ _ h1))
  have h3 : ∀ (c : Bool) (r : Bool × State), Kept Q N r.2 → Kept Q N (if c then traceEnclave 2 2 (b1 !r.1) r.2 else r.2) :=
    fun c r h => kept_ite (fun _ => traceEnclave_kept _ _ _ h) (fun _ => h)
  dsimp only
  have h4 := h3 (s.cupolaServes && (t.kind != .keytagV2 || s.cupola.rngHealthy)) _
    (h2 (s.cupolaServes && (t.kind != .keytagV2 || s.cupola.rngHealthy)))
  refine kept_snd_ite (modTag_kept _ _ _ h4) (h4.withOculus (h4.oculus rfl rfl rfl rfl))

theorem secureTag_kept (a : Fin 2) (x : PresentedTag) {s : State} (hs : Kept Q N s) : Kept Q N (secureTag a x s).2 := by
  unfold secureTag
  exact kept_snd_ite hs (kept_snd_ite (attempt_kept _ _ hs) hs)

theorem authenticateTap_kept (a : Fin 2) (x : PresentedTag) {s : State} (hs : Kept Q N s) : Kept Q N (authenticateTap a x s) := by
  unfold authenticateTap
  exact kept_ite (fun _ => secureTag_kept _ _ hs) (fun _ => hs)

theorem readBlock_kept (a : Fin 2) (uid : List Byte) (n : Nat) {s : State} (hs : Kept Q N s) : Kept Q N (readBlock a uid n s).2 := by
  unfold readBlock
  have h := exchange_kept a uid (le 1 0xB1 ++ le 1 n) hs
  dsimp only
  split
  · exact kept_snd_ite h h
  · exact h

theorem raiseSettled_kept (w : PendingWrite) (result generation : Nat) {s : State} (hs : Kept Q N s) : Kept Q N (raiseSettled w result generation s) := by
  unfold raiseSettled
  repeat' with_reducible
    first | assumption | apply raise_kept | intro _ | dsimp only | split

theorem State_writePending_kept (l : List PendingWrite) (hl : l.length ≤ 16) {s : State} (hs : Kept Q N s) :
    Kept Q N (State.writePending s l) := by
  unfold State.writePending
  exact hs.withOculus ⟨hs.within.oculus.1, hs.within.oculus.2.1, hl, hs.within.oculus.2.2.1⟩

theorem dropPending_kept (w : PendingWrite) {s : State} (hs : Kept Q N s) : Kept Q N (dropPending w s) := by
  unfold dropPending
  exact State_writePending_kept _ (Nat.le_trans (List.length_filter_le _ _) hs.within.oculus.2.2.1) hs

theorem keepPending_kept (w : PendingWrite) {s : State} (hs : Kept Q N s) : Kept Q N (keepPending w s) := by
  unfold keepPending
  split
  · rename_i old rest he
    split
    · refine raiseSettled_kept _ _ _ (State_writePending_kept _ ?_ hs)
      simp only [List.length_append, List.length_drop, List.length_singleton]
      omega
    · refine State_writePending_kept _ ?_ hs
      simp only [List.length_append, List.length_cons, List.length_nil]
      omega
  · exact State_writePending_kept _ (by simp only [List.length_singleton]; omega) hs

theorem settlePending_kept (a : Fin 2) (x : PresentedTag) (w : PendingWrite) {s0 : State} (hs : Kept Q N s0) : Kept Q N (settlePending a x s0 w) := by
  unfold settlePending
  have h := readBlock_kept a w.uid w.block
    (kept_ite (c := 15 < w.block) (fun _ => secureTag_kept a x hs) (fun _ => hs))
  dsimp only
  split
  · exact raiseSettled_kept _ _ _ (dropPending_kept _ h)
  · exact h

theorem settleTag_kept (a : Fin 2) (x : PresentedTag) {s : State} (hs : Kept Q N s) : Kept Q N (settleTag a x s) := by
  unfold settleTag
  repeat' with_reducible
    first | assumption | apply settlePending_kept | apply kept_foldl' | intro _ | dsimp only | split

theorem setRate_kept (a : Fin 2) (x : PresentedTag) (rate : Nat) {s : State} (hs : Kept Q N s) : Kept Q N (setRate a x rate s) := by
  unfold setRate
  exact kept_ite (fun _ => exchange_kept _ _ _ hs) (fun _ => hs)

theorem readBlocks_kept (a : Fin 2) (uid : List Byte) (ns : List Nat) : ∀ {s : State}, Kept Q N s → Kept Q N (readBlocks a uid ns s).2 := by
  induction ns with
  | nil => exact fun hs => hs
  | cons n ns ih =>
    intro s hs
    have h := readBlock_kept a uid n hs
    unfold readBlocks
    dsimp only
    split
    · exact ih h
    · exact h

theorem readTag_kept (c : Channel) (b : TxnBody) (x0 : PresentedTag) {s : State} (hs : Kept Q N s) : Kept Q N (readTag c b x0 s) := by
  have h : Kept Q N (if 16 < field b.request 3 1 + field b.request 14 1 then secureTag b.antenna x0 s else (true, s)).2 :=
    kept_snd_ite (secureTag_kept _ _ hs) hs
  unfold readTag
  dsimp only
  generalize (if 16 < field b.request 3 1 + field b.request 14 1 then secureTag b.antenna x0 s else (true, s)) = p at h ⊢
  have h2 := readBlocks_kept b.antenna x0.tag.uid ((List.range (field b.request 14 1)).map (· + field b.request 3 1))
    (setRate_kept b.antenna (p.2.tagNow b.antenna x0) (min (p.2.cfg 0x0607 0) x0.tag.rates) h)
  generalize readBlocks b.antenna x0.tag.uid _ _ = r at h2 ⊢
  refine kept_ite (fun _ => endTxn_kept _ _ _ _ h) (fun _ => endTxn_kept _ _ _ _ h2)

theorem writeShadow_kept (a : Fin 2) (uid : List Byte) (n : Nat) (data : List Byte) (tries : Nat) :
    ∀ {s : State}, Kept Q N s → Kept Q N (writeShadow a uid n data tries s).2 := by
  induction tries with
  | zero => exact fun hs => hs
  | succ k ih =>
    intro s hs
    have h1 := exchange_kept a uid (le 1 0xB2 ++ le 1 n ++ fit 32 data) hs
    have h2 := exchange_kept a uid (le 1 0xB3 ++ le 1 n) h1
    unfold writeShadow
    dsimp only
    split
    · exact h1
    · split
      · exact kept_snd_ite h2 (ih h2)
      · exact h2

theorem writeBlock_kept (a : Fin 2) (uid : List Byte) (n g : Nat) (data : List Byte) {s : State} (hs : Kept Q N s) :
    Kept Q N (writeBlock a uid n g data s).2 := by
  have h := writeShadow_kept a uid n data 2 hs
  have h2 := exchange_kept a uid (le 1 0xB4 ++ le 1 n ++ le 2 g) h
  unfold writeBlock
  dsimp only
  split
  · exact h
  · split
    · exact h2
    · exact kept_snd_ite h2 (kept_snd_ite h2 (kept_snd_ite (readBlock_kept _ _ _ h2) h2))

theorem generationAt_kept (a : Fin 2) (uid : List Byte) (n g : Nat) {s : State} (hs : Kept Q N s) :
    Kept Q N (generationAt a uid n g s).2 := by
  unfold generationAt
  exact kept_snd_ite hs (readBlock_kept _ _ _ hs)

theorem writeBlocks_kept (c : Channel) (b : TxnBody) (uid : List Byte) (version : Nat) (es : List (Nat × Nat × List Byte)) :
    ∀ (dn : List (Nat × Nat × Nat)) {s : State}, Kept Q N s → Kept Q N (writeBlocks c b uid version es dn s) := by
  induction es with
  | nil => exact fun dn s hs => endTxn_kept _ _ _ _ hs
  | cons e es ih =>
    intro dn s hs
    obtain ⟨n, g, data⟩ := e
    have h1 := generationAt_kept b.antenna uid n g hs
    unfold writeBlocks
    dsimp only
    split
    · exact endTxn_kept _ _ _ _ h1
    · rename_i cur _
      have h2 := writeBlock_kept b.antenna uid n cur data h1
      split
      · exact ih _ h2
      · exact endTxn_kept _ _ _ _ h2
      · exact endTxn_kept _ _ _ _ h2
      · exact h2.withOculus (h2.oculus rfl rfl rfl rfl)

theorem writeTag_kept (c : Channel) (b : TxnBody) (x : PresentedTag) {s : State} (hs : Kept Q N s) : Kept Q N (writeTag c b x s) := by
  unfold writeTag
  have h := secureTag_kept b.antenna x hs
  exact kept_ite (fun _ => writeBlocks_kept _ _ _ _ _ _ (setRate_kept _ _ _ h)) (fun _ => endTxn_kept _ _ _ _ h)

theorem personalise_kept (c : Channel) (b : TxnBody) (x : PresentedTag) {s : State} (hs : Kept Q N s) : Kept Q N (personalise c b x s) := by
  unfold personalise
  have h := fun req => exchange_kept b.antenna x.tag.uid req (traceEnclave_kept 2 2 0 hs)
  dsimp only
  split
  · exact endTxn_kept _ _ _ _ hs
  · split
    · exact endTxn_kept _ _ _ _ (keepPending_kept _ (h _))
    · exact kept_ite (fun _ => endTxn_kept _ _ _ _ (h _)) (fun _ => endTxn_kept _ _ _ _ (h _))

theorem provisionTag_kept (c : Channel) (b : TxnBody) (x : PresentedTag) {s : State} (hs : Kept Q N s) : Kept Q N (provisionTag c b x s) := by
  unfold provisionTag
  have h := secureTag_kept b.antenna x hs
  exact kept_ite (fun _ => kept_ite (fun _ => endTxn_kept _ _ _ _ hs) (fun _ => personalise_kept _ _ _ hs))
    (fun _ => kept_ite (fun _ => endTxn_kept _ _ _ _ hs)
      (fun _ => kept_ite (fun _ => writeBlocks_kept _ _ _ _ _ _ (setRate_kept _ _ _ h)) (fun _ => endTxn_kept _ _ _ _ h)))

theorem takeTag_kept (slot : Nat) (b : TxnBody) (x0 : PresentedTag) (tap : Nat) {s0 : State} (hs : Kept Q N s0) : Kept Q N (takeTag slot b x0 tap s0) := by
  unfold takeTag
  repeat' with_reducible
    first | assumption | apply setBody_kept | apply endTxn_kept | apply drive_kept | apply settleTag_kept | apply readTag_kept
          | apply writeTag_kept | apply provisionTag_kept | apply kept_ite | apply kept_dite | intro _ | dsimp only | split

theorem authorisePort_kept (p : Port) (source cap : Nat) (uid : List Byte) {s : State} (hs : Kept Q N s) : Kept Q N (authorisePort p source cap uid s) := by
  unfold authorisePort
  repeat' with_reducible
    first | assumption | apply authoriseSession_kept | apply continueSession_kept | apply kept_ite | apply kept_dite | intro _
          | dsimp only | split

theorem holdTap_kept (a : Fin 2) (uid : List Byte) (tap : Nat) {s : State} (hs : Kept Q N s) : Kept Q N (holdTap a uid tap s) := by
  unfold holdTap
  dsimp only
  refine hs.withOculus ?_
  unfold Oculus.Within
  refine ⟨?_, hs.within.oculus.2⟩
  simp only [List.length_drop, List.length_append, List.length_singleton]
  omega

theorem raiseTap_kept (a : Fin 2) (tap role : Nat) (t : Tag) (tags : Nat) (x : TapResult) (list cands : Nat) {s : State} (hs : Kept Q N s) : Kept Q N (raiseTap a tap role t tags x list cands s) := by
  unfold raiseTap
  repeat' with_reducible
    first | assumption | apply trace_kept | apply raise_kept | intro _ | dsimp only | split

theorem issueProof_kept (a : Fin 2) (uid : List Byte) (role : Nat) {s : State} (hs : Kept Q N s) :
    Kept Q N (issueProof a uid role s).2 := by
  unfold issueProof
  dsimp only
  refine forwardProof_kept ((countAt_kept _ _ (State_draw_kept hs)).withOculus ?_)
  refine ⟨hs.within.oculus.1, ?_, hs.within.oculus.2.2⟩
  simp only [List.length_drop, List.length_append, List.length_singleton]
  omega

theorem treatSingle_kept (a : Fin 2) (x : PresentedTag) (tap : Nat) {s : State} (hs : Kept Q N s) : Kept Q N (treatSingle a x tap s).2 := by
  unfold treatSingle
  have h1 := authenticateTap_kept a x hs
  dsimp only
  split
  · exact hs
  · split
    · exact h1
    · split
      · exact issueProof_kept _ _ _ h1
      · split
        · exact h1
        · split
          · exact h1
          · split
            · split
              · exact authorisePort_kept _ _ _ _ h1
              · exact holdTap_kept _ _ _ h1
            · exact holdTap_kept _ _ _ h1
          · exact holdTap_kept _ _ _ h1

theorem treatTap_kept (a : Fin 2) (tap : Nat) (tags : List PresentedTag) {s : State} (hs : Kept Q N s) : Kept Q N (treatTap a tap tags s) := by
  unfold treatTap
  split
  · exact hs
  · have h : ∀ u : PresentedTag, Kept Q N (settleTag a u (if isKeytag u.tag then noteCommand 0 (le 1 0xB0) s else s)) :=
      fun u => settleTag_kept _ _ (kept_ite (fun _ => noteCommand_kept _ _ hs) (fun _ => hs))
    dsimp only
    split
    · exact takeTag_kept _ _ _ _ (raiseTap_kept _ _ _ _ _ _ _ _ (authenticateTap_kept _ _ (h _)))
    · split
      · exact raiseTap_kept _ _ _ _ _ _ _ _ (treatSingle_kept _ _ _ (h _))
      · exact raiseTap_kept _ _ _ _ _ _ _ _ hs

theorem noteFrames_kept (fs : List ReaderFrame) {s : State} (hs : Kept Q N s) : Kept Q N (noteFrames fs s) := by
  unfold noteFrames
  repeat' with_reducible
    first | assumption | apply Kept.withOculus
          | (refine Kept.oculus (Q := Q) (N := N) (s := ?_) ?_ ?e0 ?e1 ?e2 ?e3; (case e0 => first | exact rfl | with_unfolding_all exact rfl); (case e1 => first | exact rfl | with_unfolding_all exact rfl); (case e2 => first | exact rfl | with_unfolding_all exact rfl); (case e3 => first | exact rfl | with_unfolding_all exact rfl))
          | intro _ | dsimp only | split

theorem execReaderPing_kept (a : Fin 2) (amplitude : Nat) (phase : Int) (field : List Tag) {s : State} (hs : Kept Q N s) : KeptOut Q N (execReaderPing a amplitude phase field s) := by
  unfold execReaderPing
  repeat' with_reducible
    first | assumption | apply countAt_kept | apply State_modAntenna_kept | apply drive_kept | apply carrierOff_kept | apply treatTap_kept
          | apply noteFrames_kept | apply kept_ite | apply kept_dite | apply keptOut_ite | apply keptOut_dite | apply keptOut_next
          | apply Kept.withOculus
          | (refine Kept.oculus (Q := Q) (N := N) (s := ?_) ?_ ?e0 ?e1 ?e2 ?e3; (case e0 => first | exact rfl | with_unfolding_all exact rfl); (case e1 => first | exact rfl | with_unfolding_all exact rfl); (case e2 => first | exact rfl | with_unfolding_all exact rfl); (case e3 => first | exact rfl | with_unfolding_all exact rfl))
          | intro _ | dsimp only | split

theorem execPresentationCheck_kept (a : Fin 2) (answered : Bool) {s : State} (hs : Kept Q N s) : KeptOut Q N (execPresentationCheck a answered s) := by
  unfold execPresentationCheck
  repeat' with_reducible
    first | assumption | apply check_kept | apply State_modAntenna_kept | apply modPresentation_kept | apply drive_kept
          | apply carrierOff_kept | apply noteFrames_kept | apply kept_ite | apply kept_dite | apply keptOut_ite | apply keptOut_dite
          | apply keptOut_next | intro _ | dsimp only | split

theorem execHeldTapExpiry_kept (tap : Nat) {s : State} (hs : Kept Q N s) : KeptOut Q N (execHeldTapExpiry tap s) := by
  unfold execHeldTapExpiry
  refine keptOut_ite (fun _ => keptOut_next (hs.withOculus ⟨?_, hs.within.oculus.2⟩)) (fun _ => keptOut_next hs)
  exact Nat.le_trans (List.length_filter_le _ _) hs.within.oculus.1

theorem execProofExpiry_kept (id : Nat) {s : State} (hs : Kept Q N s) : KeptOut Q N (execProofExpiry id s) := by
  unfold execProofExpiry
  refine keptOut_ite (fun _ => keptOut_next (hs.withOculus ⟨hs.within.oculus.1, ?_, hs.within.oculus.2.2⟩)) (fun _ => keptOut_next hs)
  exact Nat.le_trans (List.length_filter_le _ _) hs.within.oculus.2.1

theorem loseReach_kept (c : Channel) (x : ReachRun) {s : State} (hs : Kept Q N s) : Kept Q N (loseReach c x s) := by
  unfold loseReach
  repeat' with_reducible
    first | assumption | apply endTxn_kept | apply keepPending_kept | intro _ | dsimp only | split

theorem reselect_kept (a : Fin 2) (uid : List Byte) (fates : List Fate) {s : State} (hs : Kept Q N s) : Kept Q N (reselect a uid fates s) := by
  unfold reselect
  repeat' with_reducible
    first | assumption | apply modTag_kept | apply drive_kept | intro _ | dsimp only | split

theorem endReach_kept (x : ReachRun) (r : Option (List Fate)) {s0 : State} (hs : Kept Q N s0) : Kept Q N (endReach x r s0) := by
  unfold endReach
  have h0 : Kept Q N (s0.withOculus { s0.oculus with reach := none }) := hs.withOculus (hs.oculus rfl rfl rfl rfl)
  dsimp only
  split
  · exact h0
  · split
    · exact loseReach_kept _ _ h0
    · rename_i fates t _
      have h1 := attempt_kept x.antenna t.tag (reselect_kept x.antenna x.uid fates h0)
      have h2 := readBlock_kept x.antenna x.uid x.block h1
      split
      · exact kept_ite (fun _ => writeBlocks_kept _ _ _ _ _ _ h2) (fun _ => endTxn_kept _ _ _ _ h2)
      · exact loseReach_kept _ _ h2
      · exact loseReach_kept _ _ h1

theorem execKeytagReachAgain_kept (a : Fin 2) (fates : Option (List Fate)) {s : State} (hs : Kept Q N s) : KeptOut Q N (execKeytagReachAgain a fates s) := by
  unfold execKeytagReachAgain
  repeat' with_reducible
    first | assumption | apply endReach_kept | apply kept_ite | apply kept_dite | apply keptOut_ite | apply keptOut_dite
          | apply keptOut_next | intro _ | dsimp only | split

theorem execTagTxnTimeout_kept (a : Fin 2) {s : State} (hs : Kept Q N s) : KeptOut Q N (execTagTxnTimeout a s) := by
  unfold execTagTxnTimeout
  repeat' with_reducible
    first | assumption | apply endTxn_kept | apply kept_ite | apply kept_dite | apply keptOut_ite | apply keptOut_dite
          | apply keptOut_next | intro _ | dsimp only | split

theorem execVddtxLow_kept {s : State} (hs : Kept Q N s) : KeptOut Q N (execVddtxLow s) := by
  unfold execVddtxLow
  repeat' with_reducible
    first | assumption | apply fieldOff_kept | apply keptOut_next | apply Kept.withOculus
          | (refine Kept.oculus (Q := Q) (N := N) (s := ?_) ?_ ?e0 ?e1 ?e2 ?e3; (case e0 => first | exact rfl | with_unfolding_all exact rfl); (case e1 => first | exact rfl | with_unfolding_all exact rfl); (case e2 => first | exact rfl | with_unfolding_all exact rfl); (case e3 => first | exact rfl | with_unfolding_all exact rfl))
          | intro _ | dsimp only | split

theorem execVddtxRestored_kept {s : State} (hs : Kept Q N s) : KeptOut Q N (execVddtxRestored s) := by
  unfold execVddtxRestored
  repeat' with_reducible
    first | assumption | apply keptOut_next | apply Kept.withOculus
          | (refine Kept.oculus (Q := Q) (N := N) (s := ?_) ?_ ?e0 ?e1 ?e2 ?e3; (case e0 => first | exact rfl | with_unfolding_all exact rfl); (case e1 => first | exact rfl | with_unfolding_all exact rfl); (case e2 => first | exact rfl | with_unfolding_all exact rfl); (case e3 => first | exact rfl | with_unfolding_all exact rfl))
          | intro _ | dsimp only | split

theorem readerStatus_kept (r : Req) {s : State} (hs : Kept Q N s) : Kept Q N (readerStatus r s) := by
  unfold readerStatus
  repeat' with_reducible
    first | assumption | apply respond_kept | apply withLength_kept | apply noHandle_kept | apply needs_kept | intro _ | dsimp only
          | split

theorem execReaderStatus_kept (b : Box) {s : State} (hs : Kept Q N s) : KeptOut Q N (execReaderStatus b s) := by
  unfold execReaderStatus
  repeat' with_reducible
    first | assumption | apply readerStatus_kept | apply request_kept | apply keptOut_next | intro _ | dsimp only | split

theorem startTxn_kept (r : Req) (op wait : Nat) (uid : List Byte) (a : Fin 2) {s : State} (hs : Kept Q N s) : Kept Q N (startTxn r op wait uid a s) := by
  unfold startTxn
  repeat' with_reducible
    first | assumption | apply State_modBox_kept | apply respond_kept | apply refuse_kept | apply endTxn_kept | apply takeTag_kept
          | refine createChannel_kept ?_ (by assumption) | apply kept_ite | apply kept_dite | refine Kept.box (Q := Q) (N := N) ?_ _
          | intro _ | dsimp only | split

theorem withTxn_kept (ok : Bool) (uidLens : List Nat) (r : Req) (op : Nat) {s : State} (hs : Kept Q N s) : Kept Q N (withTxn ok uidLens r op s) := by
  unfold withTxn
  repeat' with_reducible
    first | assumption | apply noHandle_kept | apply check_kept | apply needs_kept | apply startTxn_kept | apply kept_ite
          | apply kept_dite | intro _ | dsimp only | split

theorem tagRead_kept (r : Req) {s : State} (hs : Kept Q N s) : Kept Q N (tagRead r s) := by
  unfold tagRead
  repeat' with_reducible
    first | assumption | apply withLength_kept | apply withTxn_kept | intro _ | dsimp only | split

theorem execTagRead_kept (b : Box) {s : State} (hs : Kept Q N s) : KeptOut Q N (execTagRead b s) := by
  unfold execTagRead
  repeat' with_reducible
    first | assumption | apply tagRead_kept | apply request_kept | apply keptOut_next | intro _ | dsimp only | split

theorem tagWrite_kept (r : Req) {s : State} (hs : Kept Q N s) : Kept Q N (tagWrite r s) := by
  unfold tagWrite
  repeat' with_reducible
    first | assumption | apply withLength_kept | apply withTxn_kept | intro _ | dsimp only | split

theorem execTagWrite_kept (b : Box) {s : State} (hs : Kept Q N s) : KeptOut Q N (execTagWrite b s) := by
  unfold execTagWrite
  repeat' with_reducible
    first | assumption | apply tagWrite_kept | apply request_kept | apply keptOut_next | intro _ | dsimp only | split

theorem tagProvision_kept (r : Req) {s : State} (hs : Kept Q N s) : Kept Q N (tagProvision r s) := by
  unfold tagProvision
  repeat' with_reducible
    first | assumption | apply withLength_kept | apply withTxn_kept | intro _ | dsimp only | split

theorem execTagProvision_kept (b : Box) {s : State} (hs : Kept Q N s) : KeptOut Q N (execTagProvision b s) := by
  unfold execTagProvision
  repeat' with_reducible
    first | assumption | apply tagProvision_kept | apply request_kept | apply keptOut_next | intro _ | dsimp only | split

theorem authlistRead_kept (r : Req) {s : State} (hs : Kept Q N s) : Kept Q N (authlistRead r s) := by
  unfold authlistRead
  repeat' with_reducible
    first | assumption | apply respond_kept | apply withLength_kept | apply noHandle_kept | apply check_kept | apply needs_kept | intro _
          | dsimp only | split

theorem execAuthlistRead_kept (b : Box) {s : State} (hs : Kept Q N s) : KeptOut Q N (execAuthlistRead b s) := by
  unfold execAuthlistRead
  repeat' with_reducible
    first | assumption | apply authlistRead_kept | apply request_kept | apply keptOut_next | intro _ | dsimp only | split

theorem authlistWrite_kept (r : Req) {s : State} (hs : Kept Q N s) : Kept Q N (authlistWrite r s) := by
  unfold authlistWrite
  repeat' with_reducible
    first | assumption | apply acceptDone_kept | apply withLength_kept | apply noHandle_kept | apply check_kept | apply needs_kept
          | apply kept_ite | apply kept_dite | apply Kept.withOculus
          | (refine Kept.oculus (Q := Q) (N := N) (s := ?_) ?_ ?e0 ?e1 ?e2 ?e3; (case e0 => first | exact rfl | with_unfolding_all exact rfl); (case e1 => first | exact rfl | with_unfolding_all exact rfl); (case e2 => first | exact rfl | with_unfolding_all exact rfl); (case e3 => first | exact rfl | with_unfolding_all exact rfl))
          | intro _ | dsimp only | split

theorem execAuthlistWrite_kept (b : Box) {s : State} (hs : Kept Q N s) : KeptOut Q N (execAuthlistWrite b s) := by
  unfold execAuthlistWrite
  repeat' with_reducible
    first | assumption | apply authlistWrite_kept | apply request_kept | apply keptOut_next | intro _ | dsimp only | split

theorem dropHeld_kept (tap : Nat) {s : State} (hs : Kept Q N s) : Kept Q N (dropHeld tap s) := by
  unfold dropHeld
  refine hs.withOculus ⟨?_, hs.within.oculus.2⟩
  exact Nat.le_trans (List.length_filter_le _ _) hs.within.oculus.1

theorem bindPort_kept (r : Req) {s : State} (hs : Kept Q N s) : Kept Q N (bindPort r s) := by
  unfold bindPort
  repeat' with_reducible
    first | assumption | apply refuse_kept | apply accept_kept | apply finish_kept | apply acceptDone_kept | apply withLength_kept
          | apply noHandle_kept | apply check_kept | apply needs_kept | apply authorisePort_kept | apply dropHeld_kept | apply kept_ite
          | apply kept_dite | intro _ | dsimp only | split

theorem execBindPort_kept (b : Box) {s : State} (hs : Kept Q N s) : KeptOut Q N (execBindPort b s) := by
  unfold execBindPort
  repeat' with_reducible
    first | assumption | apply bindPort_kept | apply request_kept | apply keptOut_next | intro _ | dsimp only | split

end Sys2Proof.Machine
end

