-- ==== Sys2Proof/Laws/KeptResetOps.lean ====
section
/-! SUPPORT. ResetOps: every operation keeps the queue, the clock and the capacities. -/

namespace Sys2Proof.Machine

variable {Q : List Instr} {N : Nat}

theorem abandonReach_kept {s : State} (hs : Kept Q N s) : Kept Q N (abandonReach s) := by
  unfold abandonReach
  repeat' with_reducible
    first | assumption | apply keepPending_kept | apply Kept.withOculus
          | (refine Kept.oculus (Q := Q) (N := N) (s := ?_) ?_ ?e0 ?e1 ?e2 ?e3; (case e0 => first | exact rfl | with_unfolding_all exact rfl); (case e1 => first | exact rfl | with_unfolding_all exact rfl); (case e2 => first | exact rfl | with_unfolding_all exact rfl); (case e3 => first | exact rfl | with_unfolding_all exact rfl))
          | intro _ | dsimp only | split

theorem dropUpdateWork_kept {s : State} (hs : Kept Q N s) : Kept Q N (dropUpdateWork s) := by
  unfold dropUpdateWork
  repeat' with_reducible
    first | assumption | apply Kept.withUpdate | (refine Kept.update (Q := Q) (N := N) (s := ?_) ?_ ?e0; (case e0 => exact rfl))
          | apply Kept.withPower | intro _ | dsimp only | split

theorem restartRotunda_kept (device : Bool) {s0 : State} (hs : Kept Q N s0) : Kept Q N (restartRotunda device s0) := by
  unfold restartRotunda
  have h0 : Mailbox.reset.inRing.length ≤ 8 := by decide
  have h1 : ∀ f : Fin 6 → Mailbox, (∀ b, (f b).inRing = Mailbox.reset.inRing) →
      ∀ r : Rotunda, r.boxes = Vector.ofFn f → r.Within := by
    intro f hf r hr b
    rw [hr, Fin.getElem_fin, Vector.getElem_ofFn, hf]
    exact h0
  refine dropUpdateWork_kept (destroyAll_kept _ 3 ((abandonReach_kept hs).withRotunda (h1 (fun b => ((abandonReach s0).box b).restart device
      ((abandonReach s0).executedAfter device b) (abandonReach s0).civil) (fun _ => rfl) { (abandonReach s0).rotunda with
    boxes := _, supervisor := .free, rebuilding := [], ranks := [], commits := [], waiting := [], silent := false
    queueHeartbeatAt := (abandonReach s0).now } rfl)))

theorem finishAll_kept (ws : List Waiting) (status : Nat) {s : State} (hs : Kept Q N s) : Kept Q N (finishAll ws status s) := by
  unfold finishAll
  repeat' with_reducible
    first | assumption | apply finish_kept | apply kept_foldl' | intro _ | dsimp only | split

theorem noteSeal_kept {s : State} (hs : Kept Q N s) : Kept Q N (noteSeal s) := by
  unfold noteSeal
  repeat' with_reducible
    first | assumption | apply intact_kept | apply sealLog_kept | apply kept_ite | apply kept_dite | intro _ | dsimp only | split

theorem startLegal_kept (sense : FuseSense) {s : State} (hs : Kept Q N s) : Kept Q N (startLegal sense s) := by
  unfold startLegal
  repeat' with_reducible
    first | assumption | apply moveAonBuffer_kept | apply noteSeal_kept | apply Kept.withLegal
          | (refine Kept.legal (Q := Q) (N := N) (s := ?_) ?_ ?e0 ?e1 ?e2; (case e0 => first | exact rfl | with_unfolding_all exact rfl); (case e1 => first | exact rfl | with_unfolding_all exact rfl); (case e2 => first | exact rfl | with_unfolding_all exact rfl))
          | intro _ | dsimp only | split

theorem wantSaves_kept (ws : List SaveFor) {s : State} (hs : Kept Q N s) : Kept Q N (wantSaves ws s) := by
  unfold wantSaves
  repeat' with_reducible
    first | assumption | apply Kept.withKeep
          | (refine Kept.keep (Q := Q) (N := N) (s := ?_) ?_ ?e0 ?e1; (case e0 => exact rfl); (case e1 => exact rfl)) | intro _
          | dsimp only | split

theorem restartKeep_kept {s : State} (hs : Kept Q N s) : Kept Q N (restartKeep s) := by
  unfold restartKeep
  have h0 := requeue_kept (s.legal.signing.filter (fun j => j.request.isNone)) hs
  dsimp only
  exact startLegal_kept _ (State_draw_kept (wantSaves_kept _ (restoreKeep_kept _ _
    (finishAll_kept _ _ (h0.withLegal h0.within.legal)))))

theorem mapNeighbours_kept (f : NeighbourBody → NeighbourBody) {s : State} (hs : Kept Q N s) : Kept Q N (mapNeighbours f s) := by
  unfold mapNeighbours
  repeat' with_reducible
    first | assumption | apply State_setChannels_kept | intro _ | dsimp only | split

theorem restartBelfry_kept {s : State} (hs : Kept Q N s) : Kept Q N (restartBelfry s) := by
  unfold restartBelfry
  repeat' with_reducible
    first | assumption | apply toArchive_kept | apply settleBelfry_kept | apply finishAll_kept | apply mapNeighbours_kept
          | apply request_kept | apply Kept.withBelfry | intro _ | dsimp only | split

theorem restartOculus_kept {s : State} (hs : Kept Q N s) : Kept Q N (restartOculus s) := by
  unfold restartOculus
  have h1 : Kept Q N ((abandonReach s).rotunda.channels.foldl (fun s c =>
      match c.txn? with
      | some b => endTxn c b stIslandRestarting noTagPayload s
      | none => s) (abandonReach s)) := by
    refine kept_foldl' (fun c s h => ?_) (abandonReach_kept hs)
    split
    · exact endTxn_kept _ _ _ _ h
    · exact h
  have h0 : Oculus.reset.held.length ≤ 8 ∧ Oculus.reset.proofs.length ≤ 4 := by decide
  exact h1.withOculus ⟨h0.1, h0.2, h1.within.oculus.2.2⟩

theorem restartLane_kept (p : Port) {s : State} (hs : Kept Q N s) : Kept Q N (restartLane p s) := by
  unfold restartLane
  repeat' with_reducible
    first | assumption | apply State_setLane_kept | apply settlePort_kept | intro _ | dsimp only | split

theorem noteRestart_kept (code : Nat) (port : Option Port) {s : State} (hs : Kept Q N s) : Kept Q N (noteRestart code port s) := by
  unfold noteRestart
  repeat' with_reducible
    first | assumption | apply raise_kept | apply Kept.withPower | intro _ | dsimp only | split

theorem clearRegion_kept (i : Fin 8) {s : State} (hs : Kept Q N s) : Kept Q N (clearRegion i s) := by
  unfold clearRegion
  repeat' with_reducible
    first | assumption | apply State_setRegion_kept | intro _ | dsimp only | split

theorem rotundaRestart_kept {s : State} (hs : Kept Q N s) : Kept Q N (rotundaRestart s) := by
  unfold rotundaRestart
  repeat' with_reducible
    first | assumption | apply restartRotunda_kept | apply noteRestart_kept | apply clearRegion_kept | apply Kept.withPower | intro _
          | dsimp only | split

theorem serveAgain_kept {s : State} (hs : Kept Q N s) : Kept Q N (serveAgain s) := by
  unfold serveAgain
  repeat' with_reducible
    first | assumption | apply kept_ite | apply kept_dite | apply Kept.withPower | intro _ | dsimp only | split

theorem keepRestart_kept {s : State} (hs : Kept Q N s) : Kept Q N (keepRestart s) := by
  unfold keepRestart
  repeat' with_reducible
    first | assumption | apply restartKeep_kept | apply noteRestart_kept | apply clearRegion_kept | intro _ | dsimp only | split

theorem belfryRestart_kept (code : Nat) {s : State} (hs : Kept Q N s) : Kept Q N (belfryRestart code s) := by
  unfold belfryRestart
  repeat' with_reducible
    first | assumption | apply restartBelfry_kept | apply noteRestart_kept | apply clearRegion_kept | intro _ | dsimp only | split

theorem oculusRestart_kept (code : Nat) {s : State} (hs : Kept Q N s) : Kept Q N (oculusRestart code s) := by
  unfold oculusRestart
  repeat' with_reducible
    first | assumption | apply restartOculus_kept | apply noteRestart_kept | apply clearRegion_kept | intro _ | dsimp only | split

theorem recordBefore_within {t : Steeple} (next : Nat) (h : t.Within) : (t.recordBefore next).length ≤ 256 :=
  Nat.le_trans (List.length_take_le _ _) (Nat.le_trans (Nat.sub_le _ _) h)

@[simp] theorem Memory_boot_log (m : Memory) (now drawn : Nat) : (m.boot now drawn).log = m.log := by
  show (m.cutRetirement now drawn).log = m.log
  unfold Memory.cutRetirement
  split <;> rfl

theorem assertReset_kept (cause : Nat) {s : State} (hs : Kept Q N s) : Kept Q N (assertReset cause s) := by
  unfold assertReset
  have h2 := mapNeighbours_kept (NeighbourBody.boot s.now)
    ((restartRotunda_kept true hs).withRotunda ((restartRotunda_kept true hs).within.rotunda) :
      Kept Q N ((restartRotunda true s).withRotunda (restartRotunda true s).rotunda.reload))
  have hT : Turret.reset.queue.length ≤ 256 := by decide
  have hO : Oculus.reset.held.length ≤ 8 ∧ Oculus.reset.proofs.length ≤ 4 := by decide
  constructor
  · exact h2.pending
  · exact h2.now
  · constructor
    · exact fun b => h2.box b
    · exact hT
    · exact recordBefore_within _ h2.within.steeple
    · exact ⟨h2.within.legal.1, h2.within.legal.2.1, Nat.zero_le _⟩
    · exact h2.within.keep
    · exact ⟨hO.1, hO.2, h2.within.oculus.2.2⟩
    · exact h2.memory (Memory_boot_log _ _ _)
    · exact h2.within.update

end Sys2Proof.Machine
end

