-- ==== Sys2Proof/Laws/KeptClocks.lean ====
section
/-! SUPPORT. Clocks: every operation keeps the queue, the clock and the capacities. -/

namespace Sys2Proof.Machine

variable {Q : List Instr} {N : Nat}

theorem markLost_kept (cs : List Clock) {s : State} (hs : Kept Q N s) : Kept Q N (markLost cs s) := by
  unfold markLost
  repeat' with_reducible
    first | assumption | apply Kept.withPower | intro _ | dsimp only | split

theorem loseCd0_kept {s : State} (hs : Kept Q N s) : Kept Q N (loseCd0 s) := by
  unfold loseCd0
  repeat' with_reducible
    first | assumption | apply logEvent_kept | apply markLost_kept | apply kept_ite | apply kept_dite | apply Kept.withKeep
          | (refine Kept.keep (Q := Q) (N := N) (s := ?_) ?_ ?e0 ?e1; (case e0 => first | exact rfl | with_unfolding_all exact rfl); (case e1 => first | exact rfl | with_unfolding_all exact rfl))
          | apply Kept.withPower | intro _ | dsimp only | split

theorem loseClock_kept (c : Clock) {s : State} (hs : Kept Q N s) : Kept Q N (loseClock c s) := by
  unfold loseClock
  repeat' with_reducible
    first | assumption | apply decideFault_kept | apply loseCd1_kept | apply markLost_kept | apply loseCd0_kept | intro _ | dsimp only
          | split

theorem execClockLost_kept (c : Clock) {s : State} (hs : Kept Q N s) : KeptOut Q N (execClockLost c s) := by
  unfold execClockLost
  repeat' with_reducible
    first | assumption | apply loseClock_kept | apply kept_ite | apply kept_dite | apply keptOut_ite | apply keptOut_dite
          | apply keptOut_next | intro _ | dsimp only | split

theorem execClockDeviation_kept {s : State} (hs : Kept Q N s) : KeptOut Q N (execClockDeviation s) := by
  unfold execClockDeviation
  repeat' with_reducible
    first | assumption | apply decideFault_kept | apply kept_ite | apply kept_dite | apply keptOut_ite | apply keptOut_dite
          | apply keptOut_next | apply Kept.withSteeple
          | (refine Kept.steeple (Q := Q) (N := N) (s := ?_) ?_ ?e0; (case e0 => first | exact rfl | with_unfolding_all exact rfl))
          | intro _ | dsimp only | split

theorem releaseIsland_kept (c : Clock) (restart : State → State) (hrestart : ∀ s, Kept Q N s → Kept Q N (restart s)) {s : State} (hs : Kept Q N s) : Kept Q N (releaseIsland c restart s) := by
  unfold releaseIsland
  repeat' with_reducible
    first | assumption | apply hrestart | apply kept_ite | apply kept_dite | apply Kept.withPower | intro _ | dsimp only | split

theorem restartLinked_kept {s : State} (hs : Kept Q N s) : Kept Q N (restartLinked s) := by
  unfold restartLinked
  repeat' with_reducible
    first | assumption | apply rotundaRestart_kept | apply kept_ite | apply kept_dite | intro _ | dsimp only | split

theorem restartCupola_kept {s : State} (hs : Kept Q N s) : Kept Q N (restartCupola s) := by
  unfold restartCupola
  repeat' with_reducible
    first | assumption | apply Kept.withCupola | intro _ | dsimp only | split

theorem certainAgain_kept {s : State} (hs : Kept Q N s) : Kept Q N (certainAgain s) := by
  unfold certainAgain
  repeat' with_reducible
    first | assumption | apply kept_ite | apply kept_dite | apply Kept.withKeep
          | (refine Kept.keep (Q := Q) (N := N) (s := ?_) ?_ ?e0 ?e1; (case e0 => exact rfl); (case e1 => exact rfl))
          | apply Kept.withPower | intro _ | dsimp only | split

theorem clocksGood_kept {s : State} (hs : Kept Q N s) : Kept Q N (clocksGood s) := by
  unfold clocksGood
  repeat' with_reducible
    first | assumption | apply Kept.withSteeple | (refine Kept.steeple (Q := Q) (N := N) (s := ?_) ?_ ?e0; (case e0 => exact rfl))
          | intro _ | dsimp only | split

theorem regainClock_kept (c : Clock) {s : State} (hs : Kept Q N s) : Kept Q N (regainClock c s) := by
  unfold regainClock
  repeat' with_reducible
    first | assumption | apply enterCd1Loss_kept | apply keepRestart_kept | apply belfryRestart_kept | apply oculusRestart_kept
          | apply releaseIsland_kept | apply restartLinked_kept | apply restartCupola_kept | apply certainAgain_kept
          | apply clocksGood_kept | intro _ | dsimp only | split

theorem execClockGood_kept (c : Clock) {s : State} (hs : Kept Q N s) : KeptOut Q N (execClockGood c s) := by
  unfold execClockGood
  repeat' with_reducible
    first | assumption | apply regainClock_kept | apply kept_ite | apply kept_dite | apply keptOut_ite | apply keptOut_dite
          | apply keptOut_next | apply Kept.withPower | intro _ | dsimp only | split

theorem recordStartupFault_kept (c : Clock) {s : State} (hs : Kept Q N s) : Kept Q N (recordStartupFault c s) := by
  unfold recordStartupFault
  repeat' with_reducible
    first | assumption | apply Kept.withPower | intro _ | dsimp only | split

theorem execIslandReleaseTimeout_kept (c : Clock) {s : State} (hs : Kept Q N s) : KeptOut Q N (execIslandReleaseTimeout c s) := by
  unfold execIslandReleaseTimeout
  repeat' with_reducible
    first | assumption | apply finishAll_kept | apply recordStartupFault_kept | apply kept_ite | apply kept_dite | apply keptOut_ite
          | apply keptOut_dite | apply keptOut_next | apply Kept.withPower | intro _ | dsimp only | split

theorem execWatchdogReset_kept (w : Watchdog) {s : State} (hs : Kept Q N s) : KeptOut Q N (execWatchdogReset w s) := by
  unfold execWatchdogReset
  repeat' with_reducible
    first | assumption | apply rotundaRestart_kept | apply keepRestart_kept | apply belfryRestart_kept | apply oculusRestart_kept
          | apply kept_ite | apply kept_dite | apply keptOut_ite | apply keptOut_dite | apply keptOut_next | intro _ | dsimp only | split

theorem beginReset_kept (r : Req) (x : Clock × Option Port) {s : State} (hs : Kept Q N s) : Kept Q N (beginReset r x s) := by
  unfold beginReset
  repeat' with_reducible
    first | assumption | apply accept_kept | apply restartLane_kept | apply kept_ite | apply kept_dite | apply Kept.withPower | intro _
          | dsimp only | split

theorem blockReset_kept (r : Req) {s : State} (hs : Kept Q N s) : Kept Q N (blockReset r s) := by
  unfold blockReset
  repeat' with_reducible
    first | assumption | apply refuse_kept | apply withLength_kept | apply noHandle_kept | apply check_kept | apply beginReset_kept
          | intro _ | dsimp only | split

theorem execBlockReset_kept (b : Box) {s : State} (hs : Kept Q N s) : KeptOut Q N (execBlockReset b s) := by
  unfold execBlockReset
  repeat' with_reducible
    first | assumption | apply blockReset_kept | apply request_kept | apply keptOut_next | intro _ | dsimp only | split

theorem endReset__kept (x : Clock × Option Port × Waiting) {s : State} (hs : Kept Q N s) : Kept Q N (endReset_ x s) := by
  unfold endReset_
  repeat' with_reducible
    first | assumption | apply noteRestart_kept | apply belfryRestart_kept | apply oculusRestart_kept | apply Kept.withPower | intro _
          | dsimp only | split

theorem execBlockResetComplete_kept {s : State} (hs : Kept Q N s) : KeptOut Q N (execBlockResetComplete s) := by
  unfold execBlockResetComplete
  repeat' with_reducible
    first | assumption | apply finish_kept | apply endReset__kept | apply kept_ite | apply kept_dite | apply keptOut_ite
          | apply keptOut_dite | apply keptOut_next | apply Kept.withPower | intro _ | dsimp only | split

end Sys2Proof.Machine
end

