-- ==== Sys2Proof/Laws/KeptUpdate.lean ====
section
/-! SUPPORT. Update: every operation keeps the queue, the clock and the capacities. -/

namespace Sys2Proof.Machine

variable {Q : List Instr} {N : Nat}

theorem State_setBank_kept (i : Fin 2) (b : Bank) {s : State} (hs : Kept Q N s) : Kept Q N (State.setBank s i b) := by
  unfold State.setBank
  repeat' with_reducible
    first | assumption | apply Kept.withUpdate | (refine Kept.update (Q := Q) (N := N) (s := ?_) ?_ ?e0; (case e0 => exact rfl)) | intro _
          | dsimp only | split

theorem updateEvent_kept (code : Nat) (payload : List Byte) {s : State} (hs : Kept Q N s) : Kept Q N (updateEvent code payload s) := by
  unfold updateEvent
  refine raise_kept _ _ _ (hs.withUpdate ?_)
  simp only [Update.Within, List.length_take]
  omega

theorem writeSelector_kept (f : Selector → Selector) (discarded : Bool) {s : State} (hs : Kept Q N s) : Kept Q N (writeSelector f discarded s) := by
  unfold writeSelector
  repeat' with_reducible
    first | assumption | apply updateEvent_kept | apply Kept.withUpdate
          | (refine Kept.update (Q := Q) (N := N) (s := ?_) ?_ ?e0; (case e0 => exact rfl)) | intro _ | dsimp only | split

theorem refuseOffer_kept (r : Req) (digest : List Byte) {s : State} (hs : Kept Q N s) : Kept Q N (refuseOffer r digest s) := by
  unfold refuseOffer
  repeat' with_reducible
    first | assumption | apply refuse_kept | apply updateEvent_kept | apply kept_ite | apply kept_dite | apply Kept.withUpdate
          | (refine Kept.update (Q := Q) (N := N) (s := ?_) ?_ ?e0; (case e0 => exact rfl)) | refine Kept.box (Q := Q) (N := N) ?_ _
          | intro _ | dsimp only | split

theorem updateClaim_kept (r : Req) {s : State} (hs : Kept Q N s) : Kept Q N (updateClaim r s) := by
  unfold updateClaim
  repeat' with_reducible
    first | assumption | apply refuse_kept | apply accept_kept | apply finish_kept | apply withLength_kept | apply noHandle_kept
          | apply storing_kept | apply refuseOffer_kept | apply ownerLock_kept | apply kept_ite | apply kept_dite | apply Kept.withUpdate
          | (refine Kept.update (Q := Q) (N := N) (s := ?_) ?_ ?e0; (case e0 => first | exact rfl | with_unfolding_all exact rfl))
          | refine Kept.box (Q := Q) (N := N) ?_ _ | intro _ | dsimp only | split

theorem execUpdateClaim_kept (b : Box) {s : State} (hs : Kept Q N s) : KeptOut Q N (execUpdateClaim b s) := by
  unfold execUpdateClaim
  repeat' with_reducible
    first | assumption | apply updateClaim_kept | apply request_kept | apply keptOut_next | intro _ | dsimp only | split

theorem execBankEraseComplete_kept {s : State} (hs : Kept Q N s) : KeptOut Q N (execBankEraseComplete s) := by
  unfold execBankEraseComplete
  repeat' with_reducible
    first | assumption | apply finish_kept | apply State_setBank_kept | apply request_kept | apply kept_ite | apply kept_dite
          | apply keptOut_ite | apply keptOut_dite | apply keptOut_next | apply Kept.withUpdate
          | (refine Kept.update (Q := Q) (N := N) (s := ?_) ?_ ?e0; (case e0 => first | exact rfl | with_unfolding_all exact rfl))
          | intro _ | dsimp only | split

theorem writeUpdateBlock_kept (i : Nat) (data : List Byte) (x : ClaimRecord) {s : State} (hs : Kept Q N s) : Kept Q N (writeUpdateBlock i data x s) := by
  unfold writeUpdateBlock
  repeat' with_reducible
    first | assumption | apply State_setBank_kept | apply kept_ite | apply kept_dite | apply Kept.withUpdate
          | (refine Kept.update (Q := Q) (N := N) (s := ?_) ?_ ?e0; (case e0 => first | exact rfl | with_unfolding_all exact rfl))
          | intro _ | dsimp only | split

theorem updateBlock_kept (r : Req) {s : State} (hs : Kept Q N s) : Kept Q N (updateBlock r s) := by
  unfold updateBlock
  repeat' with_reducible
    first | assumption | apply refuse_kept | apply accept_kept | apply finish_kept | apply withLength_kept | apply noHandle_kept
          | apply check_kept | apply storing_kept | apply writeUpdateBlock_kept | refine Kept.box (Q := Q) (N := N) ?_ _ | intro _
          | dsimp only | split

theorem execUpdateBlock_kept (b : Box) {s : State} (hs : Kept Q N s) : KeptOut Q N (execUpdateBlock b s) := by
  unfold execUpdateBlock
  repeat' with_reducible
    first | assumption | apply updateBlock_kept | apply request_kept | apply keptOut_next | intro _ | dsimp only | split

theorem endClaim_kept {s : State} (hs : Kept Q N s) : Kept Q N (endClaim s) := by
  unfold endClaim
  repeat' with_reducible
    first | assumption | apply Kept.withUpdate | (refine Kept.update (Q := Q) (N := N) (s := ?_) ?_ ?e0; (case e0 => exact rfl)) | intro _
          | dsimp only | split

theorem updateRelease_kept (r : Req) {s : State} (hs : Kept Q N s) : Kept Q N (updateRelease r s) := by
  unfold updateRelease
  repeat' with_reducible
    first | assumption | apply refuse_kept | apply accept_kept | apply finish_kept | apply withLength_kept | apply noHandle_kept
          | apply check_kept | apply endClaim_kept | apply kept_ite | apply kept_dite | apply Kept.withUpdate
          | (refine Kept.update (Q := Q) (N := N) (s := ?_) ?_ ?e0; (case e0 => first | exact rfl | with_unfolding_all exact rfl))
          | refine Kept.box (Q := Q) (N := N) ?_ _ | intro _ | dsimp only | split

theorem execUpdateRelease_kept (b : Box) {s : State} (hs : Kept Q N s) : KeptOut Q N (execUpdateRelease b s) := by
  unfold execUpdateRelease
  repeat' with_reducible
    first | assumption | apply updateRelease_kept | apply request_kept | apply keptOut_next | intro _ | dsimp only | split

theorem execClaimTimeout_kept {s : State} (hs : Kept Q N s) : KeptOut Q N (execClaimTimeout s) := by
  unfold execClaimTimeout
  repeat' with_reducible
    first | assumption | apply endClaim_kept | apply kept_ite | apply kept_dite | apply keptOut_ite | apply keptOut_dite
          | apply keptOut_next | intro _ | dsimp only | split

theorem execSvcVbusChange_kept (mv : Nat) {s : State} (hs : Kept Q N s) : KeptOut Q N (execSvcVbusChange mv s) := by
  unfold execSvcVbusChange
  repeat' with_reducible
    first | assumption | apply endClaim_kept | apply kept_ite | apply kept_dite | apply keptOut_ite | apply keptOut_dite
          | apply keptOut_next | apply Kept.withUpdate | (refine Kept.update (Q := Q) (N := N) (s := ?_) ?_ ?e0; (case e0 => exact rfl))
          | intro _ | dsimp only | split

theorem ownerCommand_kept (lock : Bool) (r : Req) {s : State} (hs : Kept Q N s) : Kept Q N (ownerCommand lock r s) := by
  unfold ownerCommand
  repeat' with_reducible
    first | assumption | apply accept_kept | apply finish_kept | apply withLength_kept | apply noHandle_kept | apply check_kept
          | apply storing_kept | apply markProofUsed_kept | apply updateEvent_kept | apply ownerLock_kept | apply kept_ite
          | apply kept_dite | apply Kept.withUpdate
          | (refine Kept.update (Q := Q) (N := N) (s := ?_) ?_ ?e0; (case e0 => first | exact rfl | with_unfolding_all exact rfl))
          | intro _ | dsimp only | split

theorem ownerLock_kept (r : Req) {s : State} (hs : Kept Q N s) : Kept Q N (ownerLock r s) := by
  unfold ownerLock
  repeat' with_reducible
    first | assumption | apply ownerCommand_kept | intro _ | dsimp only | split

theorem ownerUnlock_kept (r : Req) {s : State} (hs : Kept Q N s) : Kept Q N (ownerUnlock r s) := by
  unfold ownerUnlock
  repeat' with_reducible
    first | assumption | apply ownerCommand_kept | intro _ | dsimp only | split

theorem execOwnerLock_kept (b : Box) {s : State} (hs : Kept Q N s) : KeptOut Q N (execOwnerLock b s) := by
  unfold execOwnerLock
  repeat' with_reducible
    first | assumption | apply ownerLock_kept | apply request_kept | apply keptOut_next | intro _ | dsimp only | split

theorem execOwnerUnlock_kept (b : Box) {s : State} (hs : Kept Q N s) : KeptOut Q N (execOwnerUnlock b s) := by
  unfold execOwnerUnlock
  repeat' with_reducible
    first | assumption | apply ownerUnlock_kept | apply request_kept | apply keptOut_next | intro _ | dsimp only | split

theorem updateActivate_kept (r : Req) {s : State} (hs : Kept Q N s) : Kept Q N (updateActivate r s) := by
  unfold updateActivate
  repeat' with_reducible
    first | assumption | apply refuse_kept | apply accept_kept | apply withLength_kept | apply noHandle_kept | apply kept_ite
          | apply kept_dite | apply Kept.withKeep
          | (refine Kept.keep (Q := Q) (N := N) (s := ?_) ?_ ?e0 ?e1; (case e0 => exact rfl); (case e1 => exact rfl))
          | apply Kept.withUpdate | (refine Kept.update (Q := Q) (N := N) (s := ?_) ?_ ?e0; (case e0 => exact rfl))
          | refine Kept.box (Q := Q) (N := N) ?_ _ | intro _ | dsimp only | split

theorem execUpdateActivate_kept (b : Box) {s : State} (hs : Kept Q N s) : KeptOut Q N (execUpdateActivate b s) := by
  unfold execUpdateActivate
  repeat' with_reducible
    first | assumption | apply updateActivate_kept | apply request_kept | apply keptOut_next | intro _ | dsimp only | split

theorem switchBanks_kept (w : Waiting) {s : State} (hs : Kept Q N s) : Kept Q N (switchBanks w s) := by
  unfold switchBanks
  repeat' with_reducible
    first | assumption | apply finish_kept | apply writeSelector_kept | apply Kept.withUpdate
          | (refine Kept.update (Q := Q) (N := N) (s := ?_) ?_ ?e0; (case e0 => exact rfl)) | intro _ | dsimp only | split

theorem execActivationSaveComplete_kept {s : State} (hs : Kept Q N s) : KeptOut Q N (execActivationSaveComplete s) := by
  unfold execActivationSaveComplete
  repeat' with_reducible
    first | assumption | apply finish_kept | apply switchBanks_kept | apply kept_ite | apply kept_dite | apply keptOut_ite
          | apply keptOut_dite | apply keptOut_next | apply Kept.withUpdate
          | (refine Kept.update (Q := Q) (N := N) (s := ?_) ?_ ?e0; (case e0 => exact rfl)) | refine Kept.box (Q := Q) (N := N) ?_ _
          | intro _ | dsimp only | split

theorem execActivationReset_kept {s : State} (hs : Kept Q N s) : KeptOut Q N (execActivationReset s) := by
  unfold execActivationReset
  repeat' with_reducible
    first | assumption | apply assertReset_kept | apply kept_ite | apply kept_dite | apply keptOut_ite | apply keptOut_dite
          | apply keptOut_next | intro _ | dsimp only | split

theorem finishConfirmation_kept {s : State} (hs : Kept Q N s) : Kept Q N (finishConfirmation s) := by
  unfold finishConfirmation
  repeat' with_reducible
    first | assumption | apply Kept.withRotunda
          | (refine Kept.rotunda (Q := Q) (N := N) (s := ?_) ?_ ?e0; (case e0 => first | exact rfl | with_unfolding_all exact rfl))
          | apply Kept.withUpdate
          | (refine Kept.update (Q := Q) (N := N) (s := ?_) ?_ ?e0; (case e0 => first | exact rfl | with_unfolding_all exact rfl))
          | refine Kept.box (Q := Q) (N := N) ?_ _ | intro _ | dsimp only | split

theorem confirmTrial_kept {s : State} (hs : Kept Q N s) : Kept Q N (confirmTrial s) := by
  unfold confirmTrial
  repeat' with_reducible
    first | assumption | apply writeSelector_kept | apply finishConfirmation_kept | apply Kept.withUpdate
          | (refine Kept.update (Q := Q) (N := N) (s := ?_) ?_ ?e0; (case e0 => first | exact rfl | with_unfolding_all exact rfl))
          | intro _ | dsimp only | split

theorem updateConfirm_kept (r : Req) {s : State} (hs : Kept Q N s) : Kept Q N (updateConfirm r s) := by
  unfold updateConfirm
  repeat' with_reducible
    first | assumption | apply accept_kept | apply finish_kept | apply withLength_kept | apply noHandle_kept | apply check_kept
          | apply storing_kept | apply confirmTrial_kept | intro _ | dsimp only | split

theorem execUpdateConfirm_kept (b : Box) {s : State} (hs : Kept Q N s) : KeptOut Q N (execUpdateConfirm b s) := by
  unfold execUpdateConfirm
  repeat' with_reducible
    first | assumption | apply updateConfirm_kept | apply request_kept | apply keptOut_next | intro _ | dsimp only | split

theorem fallBack_kept (result : Nat) {s : State} (hs : Kept Q N s) : Kept Q N (fallBack result s) := by
  unfold fallBack
  repeat' with_reducible
    first | assumption | apply writeSelector_kept | intro _ | dsimp only | split

theorem execTrialExpiry_kept {s : State} (hs : Kept Q N s) : KeptOut Q N (execTrialExpiry s) := by
  unfold execTrialExpiry
  repeat' with_reducible
    first | assumption | apply fallBack_kept | apply kept_ite | apply kept_dite | apply keptOut_ite | apply keptOut_dite
          | apply keptOut_next | apply Kept.withUpdate | (refine Kept.update (Q := Q) (N := N) (s := ?_) ?_ ?e0; (case e0 => exact rfl))
          | intro _ | dsimp only | split

theorem execFallbackReset_kept {s : State} (hs : Kept Q N s) : KeptOut Q N (execFallbackReset s) := by
  unfold execFallbackReset
  repeat' with_reducible
    first | assumption | apply assertReset_kept | apply kept_ite | apply kept_dite | apply keptOut_ite | apply keptOut_dite
          | apply keptOut_next | intro _ | dsimp only | split

theorem stopAllSessions_kept (origin reason : Nat) {s : State} (hs : Kept Q N s) : Kept Q N (stopAllSessions origin reason s) := by
  unfold stopAllSessions
  repeat' with_reducible
    first | assumption | apply keepLog_kept | apply State_modLane_kept | apply endPortSession_kept | apply kept_ite | apply kept_dite
          | apply kept_foldl' | intro _ | dsimp only | split

theorem execFallbackForcedStop_kept {s : State} (hs : Kept Q N s) : KeptOut Q N (execFallbackForcedStop s) := by
  unfold execFallbackForcedStop
  repeat' with_reducible
    first | assumption | apply stopAllSessions_kept | apply kept_ite | apply kept_dite | apply keptOut_ite | apply keptOut_dite
          | apply keptOut_next | apply Kept.withUpdate | (refine Kept.update (Q := Q) (N := N) (s := ?_) ?_ ?e0; (case e0 => exact rfl))
          | intro _ | dsimp only | split

theorem verifyPending_kept (f : StartFacts) {s : State} (hs : Kept Q N s) : Kept Q N (verifyPending f s) := by
  unfold verifyPending
  repeat' with_reducible
    first | assumption | apply State_setBank_kept | apply writeSelector_kept | apply fallBack_kept | apply kept_ite | apply kept_dite
          | apply Kept.withRotunda | (refine Kept.rotunda (Q := Q) (N := N) (s := ?_) ?_ ?e0; (case e0 => exact rfl))
          | refine Kept.box (Q := Q) (N := N) ?_ _ | intro _ | dsimp only | split

theorem countTrialBoot_kept {s : State} (hs : Kept Q N s) : Kept Q N (countTrialBoot s) := by
  unfold countTrialBoot
  repeat' with_reducible
    first | assumption | apply writeSelector_kept | apply fallBack_kept | apply kept_ite | apply kept_dite | intro _ | dsimp only | split

theorem chooseBank_kept (f : StartFacts) {s : State} (hs : Kept Q N s) : KeptOpt Q N (chooseBank f s) := by
  unfold chooseBank
  repeat' with_reducible
    first | assumption | apply State_setBank_kept | apply fallBack_kept | apply kept_ite | apply kept_dite | apply keptOpt_some
          | exact keptOpt_none | apply keptOpt_ite | intro _ | dsimp only | split

theorem completeFuses_kept {s : State} (hs : Kept Q N s) : Kept Q N (completeFuses s) := by
  unfold completeFuses
  repeat' with_reducible
    first | assumption | apply finishConfirmation_kept | apply kept_ite | apply kept_dite | intro _ | dsimp only | split

theorem revertSettings_kept {s : State} (hs : Kept Q N s) : Kept Q N (revertSettings s) := by
  unfold revertSettings
  repeat' with_reducible
    first | assumption | apply kept_ite | apply kept_dite | apply Kept.withRotunda
          | (refine Kept.rotunda (Q := Q) (N := N) (s := ?_) ?_ ?e0; (case e0 => first | exact rfl | with_unfolding_all exact rfl))
          | refine Kept.box (Q := Q) (N := N) ?_ _ | intro _ | dsimp only | split

theorem bootCheck_kept (f : StartFacts) {s : State} (hs : Kept Q N s) : KeptOpt Q N (bootCheck f s) := by
  unfold bootCheck
  have h1 : Kept Q N (if s.update.selector.state = 1 then verifyPending f s
    else if s.update.selector.state = 2 then countTrialBoot s else s) :=
    kept_ite (fun _ => verifyPending_kept _ hs) (fun _ => kept_ite (fun _ => countTrialBoot_kept hs) (fun _ => hs))
  dsimp only
  constructor
  intro t e
  rw [Option.map_eq_some_iff] at e
  obtain ⟨u, hu, rfl⟩ := e
  exact revertSettings_kept (completeFuses_kept ((chooseBank_kept _ h1).out _ hu))

theorem startTrial_kept {s : State} (hs : Kept Q N s) : Kept Q N (startTrial s) := by
  unfold startTrial
  repeat' with_reducible
    first | assumption | apply kept_ite | apply kept_dite | apply Kept.withUpdate
          | (refine Kept.update (Q := Q) (N := N) (s := ?_) ?_ ?e0; (case e0 => exact rfl)) | intro _ | dsimp only | split

theorem updateStatus_kept (r : Req) {s : State} (hs : Kept Q N s) : Kept Q N (updateStatus r s) := by
  unfold updateStatus
  repeat' with_reducible
    first | assumption | apply respond_kept | apply withLength_kept | apply noHandle_kept | intro _ | dsimp only | split

theorem execUpdateStatus_kept (b : Box) {s : State} (hs : Kept Q N s) : KeptOut Q N (execUpdateStatus b s) := by
  unfold execUpdateStatus
  repeat' with_reducible
    first | assumption | apply updateStatus_kept | apply request_kept | apply keptOut_next | intro _ | dsimp only | split

end Sys2Proof.Machine
end

