-- ==== Sys2Proof/Laws/KeptPower.lean ====
section
/-! SUPPORT. Power: every operation keeps the queue, the clock and the capacities. -/

namespace Sys2Proof.Machine

variable {Q : List Instr} {N : Nat}

theorem proceedShutdown_kept {s : State} (hs : Kept Q N s) : Kept Q N (proceedShutdown s) := by
  unfold proceedShutdown
  repeat' with_reducible
    first | assumption | apply endClaim_kept | apply softReset_kept | apply kept_ite | apply kept_dite | apply Kept.withKeep
          | (refine Kept.keep (Q := Q) (N := N) (s := ?_) ?_ ?e0 ?e1; (case e0 => exact rfl); (case e1 => exact rfl))
          | apply Kept.withPower | intro _ | dsimp only | split

theorem shutdownStep_kept {s : State} (hs : Kept Q N s) : Kept Q N (shutdownStep s) := by
  unfold shutdownStep
  repeat' with_reducible
    first | assumption | apply proceedShutdown_kept | apply kept_ite | apply kept_dite | intro _ | dsimp only | split

theorem shutdownRequest_kept (dormant : Bool) (r : Req) {s : State} (hs : Kept Q N s) : Kept Q N (shutdownRequest dormant r s) := by
  unfold shutdownRequest
  repeat' with_reducible
    first | assumption | apply accept_kept | apply withLength_kept | apply noHandle_kept | apply check_kept | apply stopAllSessions_kept
          | apply shutdownStep_kept | apply kept_ite | apply kept_dite | apply Kept.withPower | refine Kept.box (Q := Q) (N := N) ?_ _
          | intro _ | dsimp only | split

theorem softReset_kept (r : Req) {s : State} (hs : Kept Q N s) : Kept Q N (softReset r s) := by
  unfold softReset
  repeat' with_reducible
    first | assumption | apply shutdownRequest_kept | intro _ | dsimp only | split

theorem dormantRequest_kept (r : Req) {s : State} (hs : Kept Q N s) : Kept Q N (dormantRequest r s) := by
  unfold dormantRequest
  repeat' with_reducible
    first | assumption | apply shutdownRequest_kept | intro _ | dsimp only | split

theorem execSoftReset_kept (b : Box) {s : State} (hs : Kept Q N s) : KeptOut Q N (execSoftReset b s) := by
  unfold execSoftReset
  repeat' with_reducible
    first | assumption | apply softReset_kept | apply request_kept | apply keptOut_next | intro _ | dsimp only | split

theorem execDormant_kept (b : Box) {s : State} (hs : Kept Q N s) : KeptOut Q N (execDormant b s) := by
  unfold execDormant
  repeat' with_reducible
    first | assumption | apply dormantRequest_kept | apply request_kept | apply keptOut_next | intro _ | dsimp only | split

theorem execShutdownOpeningsTimeout_kept {s : State} (hs : Kept Q N s) : KeptOut Q N (execShutdownOpeningsTimeout s) := by
  unfold execShutdownOpeningsTimeout
  repeat' with_reducible
    first | assumption | apply finish_kept | apply request_kept | apply kept_ite | apply kept_dite | apply keptOut_ite
          | apply keptOut_dite | apply keptOut_next | apply Kept.withPower | intro _ | dsimp only | split

theorem execSoftResetExecute_kept {s : State} (hs : Kept Q N s) : KeptOut Q N (execSoftResetExecute s) := by
  unfold execSoftResetExecute
  repeat' with_reducible
    first | assumption | apply assertReset_kept | apply kept_ite | apply kept_dite | apply keptOut_ite | apply keptOut_dite
          | apply keptOut_next | intro _ | dsimp only | split

theorem enterDormant_kept {s : State} (hs : Kept Q N s) : Kept Q N (enterDormant s) := by
  unfold enterDormant
  repeat' with_reducible
    first | assumption | apply assertReset_kept | apply kept_ite | apply kept_dite | apply Kept.withKeep
          | (refine Kept.keep (Q := Q) (N := N) (s := ?_) ?_ ?e0 ?e1; (case e0 => first | exact rfl | with_unfolding_all exact rfl); (case e1 => first | exact rfl | with_unfolding_all exact rfl))
          | apply Kept.withPower | intro _ | dsimp only | split

theorem execDormantEntry_kept {s : State} (hs : Kept Q N s) : KeptOut Q N (execDormantEntry s) := by
  unfold execDormantEntry
  repeat' with_reducible
    first | assumption | apply enterDormant_kept | apply kept_ite | apply kept_dite | apply keptOut_ite | apply keptOut_dite
          | apply keptOut_next | intro _ | dsimp only | split

theorem loseAon_kept {s : State} (hs : Kept Q N s) : Kept Q N (loseAon s) := by
  unfold loseAon
  exact ⟨hs.pending, hs.now, { hs.within with keep := hs.keep rfl rfl, legal := ⟨hs.within.legal.1, Nat.zero_le _, hs.within.legal.2.2⟩ }⟩

theorem execPowerOn_kept {s : State} (hs : Kept Q N s) : KeptOut Q N (execPowerOn s) := by
  unfold execPowerOn
  repeat' with_reducible
    first | assumption | apply assertReset_kept | apply loseAon_kept | apply kept_ite | apply kept_dite | apply keptOut_ite
          | apply keptOut_dite | apply keptOut_next | apply Kept.withPower | intro _ | dsimp only | split

theorem brownOut_kept (x : Supply) {s : State} (hs : Kept Q N s) : Kept Q N (brownOut x s) := by
  unfold brownOut
  repeat' with_reducible
    first | assumption | apply assertReset_kept | apply kept_ite | apply kept_dite | apply Kept.withPower | intro _ | dsimp only | split

theorem execBrownOut_kept (x : Supply) {s : State} (hs : Kept Q N s) : KeptOut Q N (execBrownOut x s) := by
  unfold execBrownOut
  repeat' with_reducible
    first | assumption | apply brownOut_kept | apply kept_ite | apply kept_dite | apply keptOut_ite | apply keptOut_dite
          | apply keptOut_next | apply Kept.withPower | intro _ | dsimp only | split

theorem execResetNLow_kept (us : Nat) {s : State} (hs : Kept Q N s) : KeptOut Q N (execResetNLow us s) := by
  unfold execResetNLow
  repeat' with_reducible
    first | assumption | apply State_draw_kept | apply assertReset_kept | apply kept_ite | apply kept_dite | apply keptOut_ite
          | apply keptOut_dite | apply keptOut_next | intro _ | dsimp only | split

theorem execResetNStuck_kept {s : State} (hs : Kept Q N s) : KeptOut Q N (execResetNStuck s) := by
  unfold execResetNStuck
  repeat' with_reducible
    first | assumption | apply logEvent_kept | apply assertReset_kept | apply kept_ite | apply kept_dite | apply keptOut_ite
          | apply keptOut_dite | apply keptOut_next | apply Kept.withPower | intro _ | dsimp only | split

theorem execResetNRearm_kept {s : State} (hs : Kept Q N s) : KeptOut Q N (execResetNRearm s) := by
  unfold execResetNRearm
  repeat' with_reducible
    first | assumption | apply keptOut_next | apply Kept.withPower | intro _ | dsimp only | split

theorem execSteepleFatalReset_kept {s : State} (hs : Kept Q N s) : KeptOut Q N (execSteepleFatalReset s) := by
  unfold execSteepleFatalReset
  repeat' with_reducible
    first | assumption | apply assertReset_kept | apply kept_ite | apply kept_dite | apply keptOut_ite | apply keptOut_dite
          | apply keptOut_next | intro _ | dsimp only | split

theorem execSuppliesGood_kept {s : State} (hs : Kept Q N s) : KeptOut Q N (execSuppliesGood s) := by
  unfold execSuppliesGood
  repeat' with_reducible
    first | assumption | apply kept_ite | apply kept_dite | apply keptOut_ite | apply keptOut_dite | apply keptOut_next
          | apply Kept.withSteeple | (refine Kept.steeple (Q := Q) (N := N) (s := ?_) ?_ ?e0; (case e0 => exact rfl))
          | apply Kept.withPower | intro _ | dsimp only | split

theorem execWakeN_kept {s : State} (hs : Kept Q N s) : KeptOut Q N (execWakeN s) := by
  unfold execWakeN
  repeat' with_reducible
    first | assumption | apply kept_ite | apply kept_dite | apply keptOut_ite | apply keptOut_dite | apply keptOut_next
          | apply Kept.withPower | intro _ | dsimp only | split

theorem execVbakLow_kept (low : Bool) {s : State} (hs : Kept Q N s) : KeptOut Q N (execVbakLow low s) := by
  unfold execVbakLow
  repeat' with_reducible
    first | assumption | apply kept_ite | apply kept_dite | apply keptOut_ite | apply keptOut_dite | apply keptOut_next
          | apply Kept.withPower | intro _ | dsimp only | split

theorem execAonDomainStop_kept {s : State} (hs : Kept Q N s) : KeptOut Q N (execAonDomainStop s) := by
  unfold execAonDomainStop
  repeat' with_reducible
    first | assumption | apply kept_ite | apply kept_dite | apply keptOut_ite | apply keptOut_dite | apply keptOut_next
          | apply Kept.withPower | intro _ | dsimp only | split

theorem raiseSupplyState_kept (n : Nat) {s : State} (hs : Kept Q N s) : Kept Q N (raiseSupplyState n s) := by
  unfold raiseSupplyState
  repeat' with_reducible
    first | assumption | apply raise_kept | intro _ | dsimp only | split

theorem holdUpOpening_kept (p : Port) {s : State} (hs : Kept Q N s) : Kept Q N (holdUpOpening s p) := by
  unfold holdUpOpening
  repeat' with_reducible
    first | assumption | apply normalOpening_kept | intro _ | dsimp only | split

theorem holdUpKeep_kept {s : State} (hs : Kept Q N s) : Kept Q N (holdUpKeep s) := by
  unfold holdUpKeep
  repeat' with_reducible
    first | assumption | apply completeSave_kept | apply commitWrite_kept | apply kept_ite | apply kept_dite | apply Kept.withKeep
          | (refine Kept.keep (Q := Q) (N := N) (s := ?_) ?_ ?e0 ?e1; (case e0 => exact rfl); (case e1 => exact rfl)) | intro _
          | dsimp only | split

theorem holdUpEntry_kept {s : State} (hs : Kept Q N s) : Kept Q N (holdUpEntry s) := by
  unfold holdUpEntry
  repeat' with_reducible
    first | assumption | apply raiseSupplyState_kept | apply holdUpOpening_kept | apply holdUpKeep_kept | apply kept_ite | apply kept_dite
          | apply kept_foldl' | apply Kept.withSteeple | (refine Kept.steeple (Q := Q) (N := N) (s := ?_) ?_ ?e0; (case e0 => exact rfl))
          | apply Kept.withPower | intro _ | dsimp only | split

theorem execHoldUpEntry_kept {s : State} (hs : Kept Q N s) : KeptOut Q N (execHoldUpEntry s) := by
  unfold execHoldUpEntry
  repeat' with_reducible
    first | assumption | apply holdUpEntry_kept | apply kept_ite | apply kept_dite | apply keptOut_ite | apply keptOut_dite
          | apply keptOut_next | intro _ | dsimp only | split

theorem catchUpMirrors_kept {s : State} (hs : Kept Q N s) : Kept Q N (catchUpMirrors s) := by
  unfold catchUpMirrors
  repeat' with_reducible
    first | assumption | apply kept_foldl' | apply Kept.withRotunda
          | (refine Kept.rotunda (Q := Q) (N := N) (s := ?_) ?_ ?e0; (case e0 => first | exact rfl | with_unfolding_all exact rfl))
          | refine Kept.box (Q := Q) (N := N) ?_ _ | intro _ | dsimp only | split

theorem execHoldUpEnd_kept {s : State} (hs : Kept Q N s) : KeptOut Q N (execHoldUpEnd s) := by
  unfold execHoldUpEnd
  repeat' with_reducible
    first | assumption | apply raiseSupplyState_kept | apply catchUpMirrors_kept | apply kept_ite | apply kept_dite | apply keptOut_ite
          | apply keptOut_dite | apply keptOut_next | apply Kept.withSteeple
          | (refine Kept.steeple (Q := Q) (N := N) (s := ?_) ?_ ?e0; (case e0 => first | exact rfl | with_unfolding_all exact rfl))
          | apply Kept.withKeep
          | (refine Kept.keep (Q := Q) (N := N) (s := ?_) ?_ ?e0 ?e1; (case e0 => first | exact rfl | with_unfolding_all exact rfl); (case e1 => first | exact rfl | with_unfolding_all exact rfl))
          | apply Kept.withPower | intro _ | dsimp only | split

theorem execPermitsRestored_kept {s : State} (hs : Kept Q N s) : KeptOut Q N (execPermitsRestored s) := by
  unfold execPermitsRestored
  repeat' with_reducible
    first | assumption | apply grantPermits_kept | apply supplyStop_kept | apply kept_ite | apply kept_dite | apply keptOut_ite
          | apply keptOut_dite | apply keptOut_next | apply Kept.withSteeple
          | (refine Kept.steeple (Q := Q) (N := N) (s := ?_) ?_ ?e0; (case e0 => exact rfl)) | intro _ | dsimp only | split

end Sys2Proof.Machine
end

