-- ==== Sys2Proof/Laws/KeptTransactions.lean ====
section
/-! SUPPORT. Transactions: every operation keeps the queue, the clock and the capacities. -/

namespace Sys2Proof.Machine

variable {Q : List Instr} {N : Nat}

theorem touchStage_kept (b : Box) {s : State} (hs : Kept Q N s) : Kept Q N (touchStage b s) := by
  unfold touchStage
  repeat' with_reducible
    first | assumption | apply State_modBox_kept | refine Kept.box (Q := Q) (N := N) ?_ _ | intro _ | dsimp only | split

theorem setStage_kept (b : Box) (st : Option (List CfgRecord)) {s : State} (hs : Kept Q N s) : Kept Q N (setStage b st s) := by
  unfold setStage
  repeat' with_reducible
    first | assumption | apply State_modBox_kept | apply State_modHost_kept | apply kept_ite | apply kept_dite
          | refine Kept.box (Q := Q) (N := N) ?_ _ | intro _ | dsimp only | split

theorem cfgBegin_kept (r : Req) {s : State} (hs : Kept Q N s) : Kept Q N (cfgBegin r s) := by
  unfold cfgBegin
  repeat' with_reducible
    first | assumption | apply refuse_kept | apply accept_kept | apply finish_kept | apply withLength_kept | apply noHandle_kept
          | apply touchStage_kept | apply setStage_kept | apply kept_ite | apply kept_dite | refine Kept.box (Q := Q) (N := N) ?_ _
          | intro _ | dsimp only | split

theorem execCfgBegin_kept (b : Box) {s : State} (hs : Kept Q N s) : KeptOut Q N (execCfgBegin b s) := by
  unfold execCfgBegin
  repeat' with_reducible
    first | assumption | apply cfgBegin_kept | apply request_kept | apply keptOut_next | intro _ | dsimp only | split

theorem writeStage_kept (r : Req) (recs : List CfgRecord) {s : State} (hs : Kept Q N s) : Kept Q N (writeStage r recs s) := by
  unfold writeStage
  repeat' with_reducible
    first | assumption | apply refuse_kept | apply accept_kept | apply finish_kept | apply setStage_kept | apply kept_ite
          | apply kept_dite | apply kept_foldl' | refine Kept.box (Q := Q) (N := N) ?_ _ | intro _ | dsimp only | split

theorem cfgWrite_kept (r : Req) {s : State} (hs : Kept Q N s) : Kept Q N (cfgWrite r s) := by
  unfold cfgWrite
  refine withLength_kept _ _ _ (fun s hs => ?_) (touchStage_kept _ hs)
  cases parseRecords (field r.payload 0 1) (r.payload.drop 4) with
  | none => exact refuse_kept _ _ hs
  | some x => exact noHandle_kept _ _ (fun s hs => check_kept _ _ _ _ (fun s hs => writeStage_kept _ _ hs) hs) hs

theorem execCfgWrite_kept (b : Box) {s : State} (hs : Kept Q N s) : KeptOut Q N (execCfgWrite b s) := by
  unfold execCfgWrite
  repeat' with_reducible
    first | assumption | apply cfgWrite_kept | apply request_kept | apply keptOut_next | intro _ | dsimp only | split

theorem cfgAbort_kept (r : Req) {s : State} (hs : Kept Q N s) : Kept Q N (cfgAbort r s) := by
  unfold cfgAbort
  repeat' with_reducible
    first | assumption | apply refuse_kept | apply accept_kept | apply finish_kept | apply withLength_kept | apply noHandle_kept
          | apply touchStage_kept | apply setStage_kept | apply kept_ite | apply kept_dite | refine Kept.box (Q := Q) (N := N) ?_ _
          | intro _ | dsimp only | split

theorem execCfgAbort_kept (b : Box) {s : State} (hs : Kept Q N s) : KeptOut Q N (execCfgAbort b s) := by
  unfold execCfgAbort
  repeat' with_reducible
    first | assumption | apply cfgAbort_kept | apply request_kept | apply keptOut_next | intro _ | dsimp only | split

theorem cfgRead_kept (r : Req) {s : State} (hs : Kept Q N s) : Kept Q N (cfgRead r s) := by
  unfold cfgRead
  repeat' with_reducible
    first | assumption | apply respond_kept | apply withLength_kept | apply noHandle_kept | apply check_kept | apply touchStage_kept
          | apply kept_ite | apply kept_dite | refine Kept.box (Q := Q) (N := N) ?_ _ | intro _ | dsimp only | split

theorem execCfgRead_kept (b : Box) {s : State} (hs : Kept Q N s) : KeptOut Q N (execCfgRead b s) := by
  unfold execCfgRead
  repeat' with_reducible
    first | assumption | apply cfgRead_kept | apply request_kept | apply keptOut_next | intro _ | dsimp only | split

theorem cfgStatus_kept (r : Req) {s : State} (hs : Kept Q N s) : Kept Q N (cfgStatus r s) := by
  unfold cfgStatus
  repeat' with_reducible
    first | assumption | apply respond_kept | apply withLength_kept | apply noHandle_kept | apply touchStage_kept | apply kept_ite
          | apply kept_dite | refine Kept.box (Q := Q) (N := N) ?_ _ | intro _ | dsimp only | split

theorem execCfgStatus_kept (b : Box) {s : State} (hs : Kept Q N s) : KeptOut Q N (execCfgStatus b s) := by
  unfold execCfgStatus
  repeat' with_reducible
    first | assumption | apply cfgStatus_kept | apply request_kept | apply keptOut_next | intro _ | dsimp only | split

theorem execStageTimeout_kept (p : HostPort) {s : State} (hs : Kept Q N s) : KeptOut Q N (execStageTimeout p s) := by
  unfold execStageTimeout
  repeat' with_reducible
    first | assumption | apply setStage_kept | apply kept_ite | apply kept_dite | apply keptOut_ite | apply keptOut_dite
          | apply keptOut_next | refine Kept.box (Q := Q) (N := N) ?_ _ | intro _ | dsimp only | split

theorem logSetting_kept (b : Box) (old : List Setting) (c : CfgRecord) {s : State} (hs : Kept Q N s) : Kept Q N (logSetting b old s c) := by
  unfold logSetting
  repeat' with_reducible
    first | assumption | apply State_draw_kept | apply keepLog_kept | apply kept_ite | apply kept_dite | intro _ | dsimp only | split

theorem commitRecords_kept (r : Req) (recs : List CfgRecord) (ranks : List RankEntry) (records : Nat) {s : State} (hs : Kept Q N s) : Kept Q N (commitRecords r recs ranks records s) := by
  unfold commitRecords
  repeat' with_reducible
    first | assumption | apply publish_kept | apply logSetting_kept | apply kept_ite | apply kept_dite | apply kept_foldl'
          | apply Kept.withRotunda
          | (refine Kept.rotunda (Q := Q) (N := N) (s := ?_) ?_ ?e0; (case e0 => first | exact rfl | with_unfolding_all exact rfl))
          | refine Kept.box (Q := Q) (N := N) ?_ _ | intro _ | dsimp only | split

theorem transact_kept (r : Req) (recs : List CfgRecord) (ok : State → State) (hok : ∀ s, Kept Q N s → Kept Q N (ok s)) {s : State} (hs : Kept Q N s) : Kept Q N (transact r recs ok s) := by
  unfold transact
  repeat' with_reducible
    first | assumption | apply hok | apply finish_kept | intro _ | dsimp only | split

theorem cfgCommit_kept (r : Req) {s : State} (hs : Kept Q N s) : Kept Q N (cfgCommit r s) := by
  unfold cfgCommit
  repeat' with_reducible
    first | assumption | apply refuse_kept | apply accept_kept | apply withLength_kept | apply noHandle_kept | apply touchStage_kept
          | apply setStage_kept | apply commitRecords_kept | apply transact_kept | refine Kept.box (Q := Q) (N := N) ?_ _ | intro _
          | dsimp only | split

theorem execCfgCommit_kept (b : Box) {s : State} (hs : Kept Q N s) : KeptOut Q N (execCfgCommit b s) := by
  unfold execCfgCommit
  repeat' with_reducible
    first | assumption | apply cfgCommit_kept | apply request_kept | apply keptOut_next | intro _ | dsimp only | split

theorem allocWrite_kept (r : Req) (fld index value : Nat) (release : Bool) {s : State} (hs : Kept Q N s) : Kept Q N (allocWrite r fld index value release s) := by
  unfold allocWrite
  repeat' with_reducible
    first | assumption | apply accept_kept | apply commitRecords_kept | apply transact_kept | apply State_release_kept | apply kept_ite
          | apply kept_dite | intro _ | dsimp only | split

theorem allocSet_kept (r : Req) {s : State} (hs : Kept Q N s) : Kept Q N (allocSet r s) := by
  unfold allocSet
  refine withLength_kept _ _ _ (fun s hs => noHandle_kept _ _ (fun s hs => check_kept _ _ _ _ (fun s hs =>
    check_kept _ _ _ _ (fun s hs => ?_) hs) hs) hs) hs
  split
  · exact check_kept _ _ _ _ (fun s hs => allocWrite_kept _ _ _ _ _ hs) hs
  · cases allocValue (field r.payload 0 2) (field r.payload 4 4) with
    | none => exact refuse_kept _ _ hs
    | some v => exact allocWrite_kept _ _ _ _ _ hs

theorem execAllocSet_kept (b : Box) {s : State} (hs : Kept Q N s) : KeptOut Q N (execAllocSet b s) := by
  unfold execAllocSet
  repeat' with_reducible
    first | assumption | apply allocSet_kept | apply request_kept | apply keptOut_next | intro _ | dsimp only | split

theorem allocRead_kept (r : Req) {s : State} (hs : Kept Q N s) : Kept Q N (allocRead r s) := by
  unfold allocRead
  repeat' with_reducible
    first | assumption | apply respond_kept | apply withLength_kept | apply noHandle_kept | apply intact_kept | intro _ | dsimp only
          | split

theorem execAllocRead_kept (b : Box) {s : State} (hs : Kept Q N s) : KeptOut Q N (execAllocRead b s) := by
  unfold execAllocRead
  repeat' with_reducible
    first | assumption | apply allocRead_kept | apply request_kept | apply keptOut_next | intro _ | dsimp only | split

theorem execCommitApplyTimeout_kept (p : HostPort) {s : State} (hs : Kept Q N s) : KeptOut Q N (execCommitApplyTimeout p s) := by
  unfold execCommitApplyTimeout
  repeat' with_reducible
    first | assumption | apply finish_kept | apply kept_ite | apply kept_dite | apply keptOut_ite | apply keptOut_dite
          | apply keptOut_next | apply kept_foldl' | apply Kept.withRotunda
          | (refine Kept.rotunda (Q := Q) (N := N) (s := ?_) ?_ ?e0; (case e0 => exact rfl)) | refine Kept.box (Q := Q) (N := N) ?_ _
          | intro _ | dsimp only | split

theorem applyCommit_kept (period time : Nat) (c : Commit) {s : State} (hs : Kept Q N s) : Kept Q N (applyCommit period time s c) := by
  unfold applyCommit
  repeat' with_reducible
    first | assumption | apply State_modBox_kept | apply raiseOthers_kept | apply finish_kept | apply kept_ite | apply kept_dite
          | refine Kept.box (Q := Q) (N := N) ?_ _ | intro _ | dsimp only | split

theorem applyCommits_kept (period time : Nat) {s : State} (hs : Kept Q N s) : Kept Q N (applyCommits period time s) := by
  unfold applyCommits
  repeat' with_reducible
    first | assumption | apply applyCommit_kept | apply kept_foldl' | apply Kept.withRotunda
          | (refine Kept.rotunda (Q := Q) (N := N) (s := ?_) ?_ ?e0; (case e0 => exact rfl)) | refine Kept.box (Q := Q) (N := N) ?_ _
          | intro _ | dsimp only | split

end Sys2Proof.Machine
end

