-- ==== Sys2Proof/Laws/KeptMirror.lean ====
section
/-! SUPPORT. Mirror: every operation keeps the queue, the clock and the capacities. -/

namespace Sys2Proof.Machine

variable {Q : List Instr} {N : Nat}

theorem noteTone_kept (old : MirrorEntry) (c : Channel88) {s : State} (hs : Kept Q N s) : Kept Q N (noteTone old c s) := by
  unfold noteTone
  repeat' with_reducible
    first | assumption | apply decideFault_kept | apply kept_ite | apply kept_dite | intro _ | dsimp only | split

theorem takeValue_kept (f : Phase) (unsync : Bool) (strobe us : Nat) (v : MirrorValue) {s : State} (hs : Kept Q N s) : Kept Q N (takeValue f unsync strobe us s v) := by
  unfold takeValue
  repeat' with_reducible
    first | assumption | apply count_kept | apply kept_ite | apply kept_dite | apply Kept.withTurret
          | (refine Kept.turret (Q := Q) (N := N) (s := ?_) ?_ ?e0; (case e0 => exact rfl)) | intro _ | dsimp only | split

theorem notePeak_kept (v : MirrorValue) {s : State} (hs : Kept Q N s) : Kept Q N (notePeak s v) := by
  unfold notePeak
  repeat' with_reducible
    first | assumption | apply setSession_kept | apply kept_ite | apply kept_dite | intro _ | dsimp only | split

theorem noteOver_kept {s : State} (hs : Kept Q N s) : Kept Q N (noteOver s) := by
  unfold noteOver
  repeat' with_reducible
    first | assumption | apply kept_ite | apply kept_dite | apply Kept.withSteeple
          | (refine Kept.steeple (Q := Q) (N := N) (s := ?_) ?_ ?e0; (case e0 => exact rfl)) | intro _ | dsimp only | split

theorem takePublication_kept (fs : List Phase) (unsync : Bool) (us : Nat) (pub : MirrorPub) {s : State} (hs : Kept Q N s) : Kept Q N (takePublication fs unsync us pub s) := by
  unfold takePublication
  repeat' with_reducible
    first | assumption | apply stampBodies_kept | apply updateBlinds_kept | apply evaluateGuard_kept | apply noteTone_kept
          | apply takeValue_kept | apply notePeak_kept | apply noteOver_kept | apply kept_ite | apply kept_dite | apply kept_foldl'
          | apply Kept.withTurret
          | (refine Kept.turret (Q := Q) (N := N) (s := ?_) ?_ ?e0; (case e0 => first | exact rfl | with_unfolding_all exact rfl))
          | intro _ | dsimp only | split

theorem execMirrorPublish_kept (f : Phase) (pub : MirrorPub) {s : State} (hs : Kept Q N s) : KeptOut Q N (execMirrorPublish f pub s) := by
  unfold execMirrorPublish
  repeat' with_reducible
    first | assumption | apply takePublication_kept | apply kept_ite | apply kept_dite | apply keptOut_ite | apply keptOut_dite
          | apply keptOut_next | intro _ | dsimp only | split

theorem execMirrorPublishUnsync_kept (pub : MirrorPub) {s : State} (hs : Kept Q N s) : KeptOut Q N (execMirrorPublishUnsync pub s) := by
  unfold execMirrorPublishUnsync
  repeat' with_reducible
    first | assumption | apply takePublication_kept | apply kept_ite | apply kept_dite | apply keptOut_ite | apply keptOut_dite
          | apply keptOut_next | intro _ | dsimp only | split

theorem execMirrorEntryStale_kept (c : Channel88) {s : State} (hs : Kept Q N s) : KeptOut Q N (execMirrorEntryStale c s) := by
  unfold execMirrorEntryStale
  repeat' with_reducible
    first | assumption | apply count_kept | apply post_kept | apply updateBlinds_kept | apply noteOver_kept | apply kept_ite
          | apply kept_dite | apply keptOut_ite | apply keptOut_dite | apply keptOut_next | apply Kept.withTurret
          | (refine Kept.turret (Q := Q) (N := N) (s := ?_) ?_ ?e0; (case e0 => first | exact rfl | with_unfolding_all exact rfl))
          | intro _ | dsimp only | split

theorem execZoneTimerRestart_kept (f : Phase) {s : State} (hs : Kept Q N s) : KeptOut Q N (execZoneTimerRestart f s) := by
  unfold execZoneTimerRestart
  repeat' with_reducible
    first | assumption | apply State_modGuard_kept | apply kept_ite | apply kept_dite | apply keptOut_ite | apply keptOut_dite
          | apply keptOut_next | intro _ | dsimp only | split

theorem softShed_kept (f : Phase) {s : State} (hs : Kept Q N s) : Kept Q N (softShed f s) := by
  unfold softShed
  repeat' with_reducible
    first | assumption | apply shedPort_kept | apply shedNothing_kept | apply kept_ite | apply kept_dite | intro _ | dsimp only | split

theorem execSoftShedding_kept (f : Phase) {s : State} (hs : Kept Q N s) : KeptOut Q N (execSoftShedding f s) := by
  unfold execSoftShedding
  repeat' with_reducible
    first | assumption | apply shedDue_kept | apply softShed_kept | apply kept_ite | apply kept_dite | apply keptOut_ite
          | apply keptOut_dite | apply keptOut_next | intro _ | dsimp only | split

theorem execHardShedding_kept (f : Phase) {s : State} (hs : Kept Q N s) : KeptOut Q N (execHardShedding f s) := by
  unfold execHardShedding
  repeat' with_reducible
    first | assumption | apply shedHard_kept | apply kept_ite | apply kept_dite | apply keptOut_ite | apply keptOut_dite
          | apply keptOut_next | intro _ | dsimp only | split

theorem execGuardBlindFault_kept (f : Phase) {s : State} (hs : Kept Q N s) : KeptOut Q N (execGuardBlindFault f s) := by
  unfold execGuardBlindFault
  repeat' with_reducible
    first | assumption | apply decideFault_kept | apply State_modGuard_kept | apply kept_ite | apply kept_dite | apply keptOut_ite
          | apply keptOut_dite | apply keptOut_next | intro _ | dsimp only | split

end Sys2Proof.Machine
end

