-- ==== Sys2Proof/Laws/KeptScrub.lean ====
section
/-! SUPPORT. Scrub: every operation keeps the queue, the clock and the capacities. -/

namespace Sys2Proof.Machine

variable {Q : List Instr} {N : Nat}

theorem endServed_kept {s : State} (hs : Kept Q N s) : Kept Q N (endServed s) := by
  unfold endServed
  repeat' with_reducible
    first | assumption | apply refuse_kept | apply taken_kept | intro _ | dsimp only | split

theorem loseChannel_kept (c : Channel) {s : State} (hs : Kept Q N s) : Kept Q N (loseChannel c s) := by
  unfold loseChannel
  repeat' with_reducible
    first | assumption | apply finish_kept | apply destroyChannel_kept | apply dropReach_kept | intro _ | dsimp only | split

theorem restoreChannel_kept (slot : Nat) {s : State} (hs : Kept Q N s) : Kept Q N (restoreChannel slot s) := by
  unfold restoreChannel
  repeat' with_reducible
    first | assumption | apply State_setChannels_kept | apply kept_ite | apply kept_dite | intro _ | dsimp only | split

theorem loseTableLine_kept (line : Nat) {s : State} (hs : Kept Q N s) : Kept Q N (loseTableLine line s) := by
  unfold loseTableLine
  repeat' with_reducible
    first | assumption | apply loseChannel_kept | apply restoreChannel_kept | apply kept_ite | apply kept_dite | apply Kept.withRotunda
          | (refine Kept.rotunda (Q := Q) (N := N) (s := ?_) ?_ ?e0; (case e0 => first | exact rfl | with_unfolding_all exact rfl))
          | refine Kept.box (Q := Q) (N := N) ?_ _ | intro _ | dsimp only | split

theorem loseBlockCopy_kept (copy : Nat) {s : State} (hs : Kept Q N s) : Kept Q N (loseBlockCopy copy s) := by
  unfold loseBlockCopy
  repeat' with_reducible
    first | assumption | apply decideFault_kept | apply kept_ite | apply kept_dite | apply Kept.withSteeple
          | (refine Kept.steeple (Q := Q) (N := N) (s := ?_) ?_ ?e0; (case e0 => first | exact rfl | with_unfolding_all exact rfl))
          | intro _ | dsimp only | split

theorem loseSettingsCopy_kept (copy : Nat) {s : State} (hs : Kept Q N s) : Kept Q N (loseSettingsCopy copy s) := by
  unfold loseSettingsCopy
  repeat' with_reducible
    first | assumption | apply Kept.withRotunda
          | (refine Kept.rotunda (Q := Q) (N := N) (s := ?_) ?_ ?e0; (case e0 => first | exact rfl | with_unfolding_all exact rfl))
          | refine Kept.box (Q := Q) (N := N) ?_ _ | intro _ | dsimp only | split

theorem loseSlotTableCopy_kept (copy : Nat) {s : State} (hs : Kept Q N s) : Kept Q N (loseSlotTableCopy copy s) := by
  unfold loseSlotTableCopy
  repeat' with_reducible
    first | assumption | apply Kept.withRotunda
          | (refine Kept.rotunda (Q := Q) (N := N) (s := ?_) ?_ ?e0; (case e0 => first | exact rfl | with_unfolding_all exact rfl))
          | refine Kept.box (Q := Q) (N := N) ?_ _ | intro _ | dsimp only | split

theorem loseMirrorCopy_kept (neighbours : Bool) (slot copy : Nat) {s : State} (hs : Kept Q N s) : Kept Q N (loseMirrorCopy neighbours slot copy s) := by
  unfold loseMirrorCopy
  repeat' with_reducible
    first | assumption | apply kept_ite | apply kept_dite | apply Kept.withRotunda
          | (refine Kept.rotunda (Q := Q) (N := N) (s := ?_) ?_ ?e0; (case e0 => first | exact rfl | with_unfolding_all exact rfl))
          | refine Kept.box (Q := Q) (N := N) ?_ _ | intro _ | dsimp only | split

theorem loseSaveCopy_kept (copy : Nat) {s : State} (hs : Kept Q N s) : Kept Q N (loseSaveCopy copy s) := by
  unfold loseSaveCopy
  repeat' with_reducible
    first | assumption | apply Kept.withKeep
          | (refine Kept.keep (Q := Q) (N := N) (s := ?_) ?_ ?e0 ?e1; (case e0 => first | exact rfl | with_unfolding_all exact rfl); (case e1 => first | exact rfl | with_unfolding_all exact rfl))
          | intro _ | dsimp only | split

theorem loseReservedCopy_kept (copy : Nat) {s : State} (hs : Kept Q N s) : Kept Q N (loseReservedCopy copy s) := by
  unfold loseReservedCopy
  repeat' with_reducible
    first | assumption | apply Kept.withLegal
          | (refine Kept.legal (Q := Q) (N := N) (s := ?_) ?_ ?e0 ?e1 ?e2; (case e0 => first | exact rfl | with_unfolding_all exact rfl); (case e1 => first | exact rfl | with_unfolding_all exact rfl); (case e2 => first | exact rfl | with_unfolding_all exact rfl))
          | intro _ | dsimp only | split

theorem loseCalCopy_kept (m : Fin 160) (copy : Nat) {s : State} (hs : Kept Q N s) : Kept Q N (loseCalCopy m copy s) := by
  unfold loseCalCopy
  repeat' with_reducible
    first | assumption | apply Kept.withDsp | intro _ | dsimp only | split

theorem loseSelectorCopy_kept (copy : Nat) {s : State} (hs : Kept Q N s) : Kept Q N (loseSelectorCopy copy s) := by
  unfold loseSelectorCopy
  repeat' with_reducible
    first | assumption | apply Kept.withUpdate
          | (refine Kept.update (Q := Q) (N := N) (s := ?_) ?_ ?e0; (case e0 => first | exact rfl | with_unfolding_all exact rfl))
          | intro _ | dsimp only | split

theorem loseOwnerCopy_kept (copy : Nat) {s : State} (hs : Kept Q N s) : Kept Q N (loseOwnerCopy copy s) := by
  unfold loseOwnerCopy
  repeat' with_reducible
    first | assumption | apply ownerLock_kept | apply Kept.withUpdate
          | (refine Kept.update (Q := Q) (N := N) (s := ?_) ?_ ?e0; (case e0 => first | exact rfl | with_unfolding_all exact rfl))
          | intro _ | dsimp only | split

theorem loseClaimCopy_kept (copy : Nat) {s : State} (hs : Kept Q N s) : Kept Q N (loseClaimCopy copy s) := by
  unfold loseClaimCopy
  repeat' with_reducible
    first | assumption | apply Kept.withUpdate
          | (refine Kept.update (Q := Q) (N := N) (s := ?_) ?_ ?e0; (case e0 => first | exact rfl | with_unfolding_all exact rfl))
          | intro _ | dsimp only | split

theorem loseListCopy_kept (copy : Nat) {s : State} (hs : Kept Q N s) : Kept Q N (loseListCopy copy s) := by
  unfold loseListCopy
  repeat' with_reducible
    first | assumption | apply Kept.withOculus
          | (refine Kept.oculus (Q := Q) (N := N) (s := ?_) ?_ ?e0 ?e1 ?e2 ?e3; (case e0 => first | exact rfl | with_unfolding_all exact rfl); (case e1 => first | exact rfl | with_unfolding_all exact rfl); (case e2 => first | exact rfl | with_unfolding_all exact rfl); (case e3 => first | exact rfl | with_unfolding_all exact rfl))
          | intro _ | dsimp only | split

theorem losePendingCopy_kept (copy : Nat) {s : State} (hs : Kept Q N s) : Kept Q N (losePendingCopy copy s) := by
  unfold losePendingCopy fallBackCopy
  have h := hs.within.oculus
  refine hs.withOculus ⟨h.1, h.2.1, ?_⟩
  dsimp only
  split
  · exact ⟨h.2.2.1, Nat.zero_le _⟩
  · split
    · rename_i old e
      have h3 := h.2.2.2
      rw [e] at h3
      exact ⟨h3, Nat.zero_le _⟩
    · exact h.2.2

theorem loseMramLine_kept (x : MramRegion) (line : Nat) {s : State} (hs : Kept Q N s) : Kept Q N (loseMramLine x line s) := by
  unfold loseMramLine
  repeat' with_reducible
    first | assumption | apply loseBlockCopy_kept | apply loseSettingsCopy_kept | apply loseSlotTableCopy_kept | apply loseMirrorCopy_kept
          | apply loseSaveCopy_kept | apply loseReservedCopy_kept | apply loseCalCopy_kept | apply loseSelectorCopy_kept
          | apply loseOwnerCopy_kept | apply loseClaimCopy_kept | apply loseListCopy_kept | apply losePendingCopy_kept | apply kept_ite
          | apply kept_dite | apply Kept.withCupola | apply Kept.withPower | intro _ | dsimp only | split

theorem lineEffect_kept (i : Fin 8) (line : Nat) (inRequest : Bool) {s0 : State} (hs : Kept Q N s0) : Kept Q N (lineEffect i line inRequest s0) := by
  unfold lineEffect
  repeat' with_reducible
    first | assumption | apply decideFault_kept | apply rotundaRestart_kept | apply keepRestart_kept | apply belfryRestart_kept
          | apply oculusRestart_kept | apply endServed_kept | apply loseTableLine_kept | apply loseMramLine_kept | apply kept_ite
          | apply kept_dite | intro _ | dsimp only | split

theorem notePass_kept (i : Fin 8) (line requester : Nat) {s : State} (hs : Kept Q N s) : Kept Q N (notePass i line requester s) := by
  unfold notePass
  repeat' with_reducible
    first | assumption | apply kept_ite | apply kept_dite | apply Kept.withMemory
          | (refine Kept.memory (Q := Q) (N := N) (s := ?_) ?_ ?e0; (case e0 => exact rfl)) | intro _ | dsimp only | split

theorem readLine_kept (i : Fin 8) (line : Nat) (r : LineResult) (requester : Nat) (write inRequest : Bool) {s : State} (hs : Kept Q N s) : Kept Q N (readLine i line r requester write inRequest s) := by
  unfold readLine
  repeat' with_reducible
    first | assumption | apply countAt_kept | apply recoverLine_kept | apply loseLine_kept | apply lineEffect_kept | apply kept_ite
          | apply kept_dite | intro _ | dsimp only | split

theorem execScrubLine_kept (region : Fin 8) (line : Nat) (r : LineResult) (by_ : LineRequester) {s : State} (hs : Kept Q N s) : KeptOut Q N (execScrubLine region line r by_ s) := by
  unfold execScrubLine
  repeat' with_reducible
    first | assumption | apply logEvent_kept | apply notePass_kept | apply readLine_kept | apply kept_ite | apply kept_dite
          | apply keptOut_ite | apply keptOut_dite | apply keptOut_next | intro _ | dsimp only | split

theorem execBucketLeak_kept {s : State} (hs : Kept Q N s) : KeptOut Q N (execBucketLeak s) := by
  unfold execBucketLeak
  repeat' with_reducible
    first | assumption | apply kept_ite | apply kept_dite | apply keptOut_ite | apply keptOut_dite | apply keptOut_next
          | apply Kept.withMemory | (refine Kept.memory (Q := Q) (N := N) (s := ?_) ?_ ?e0; (case e0 => exact rfl)) | intro _ | dsimp only
          | split

theorem execMramRefresh_kept (page : Nat) (r : LineResult) {s : State} (hs : Kept Q N s) : KeptOut Q N (execMramRefresh page r s) := by
  unfold execMramRefresh
  repeat' with_reducible
    first | assumption | apply readLine_kept | apply kept_ite | apply kept_dite | apply keptOut_ite | apply keptOut_dite
          | apply keptOut_next | apply Kept.withMemory | (refine Kept.memory (Q := Q) (N := N) (s := ?_) ?_ ?e0; (case e0 => exact rfl))
          | intro _ | dsimp only | split

theorem pageRetire_kept (r : Req) {s : State} (hs : Kept Q N s) : Kept Q N (pageRetire r s) := by
  unfold pageRetire
  repeat' with_reducible
    first | assumption | apply refuse_kept | apply accept_kept | apply withLength_kept | apply noHandle_kept | apply askSteeple_kept
          | apply startRetirement_kept | apply kept_ite | apply kept_dite | intro _ | dsimp only | split

theorem execPageRetire_kept (b : Box) {s : State} (hs : Kept Q N s) : KeptOut Q N (execPageRetire b s) := by
  unfold execPageRetire
  repeat' with_reducible
    first | assumption | apply pageRetire_kept | apply request_kept | apply keptOut_next | intro _ | dsimp only | split

theorem errorLogRead_kept (r : Req) {s : State} (hs : Kept Q N s) : Kept Q N (errorLogRead r s) := by
  unfold errorLogRead
  repeat' with_reducible
    first | assumption | apply respond_kept | apply withLength_kept | apply noHandle_kept | apply check_kept | intro _ | dsimp only
          | split

theorem execErrorLogRead_kept (b : Box) {s : State} (hs : Kept Q N s) : KeptOut Q N (execErrorLogRead b s) := by
  unfold execErrorLogRead
  repeat' with_reducible
    first | assumption | apply errorLogRead_kept | apply request_kept | apply keptOut_next | intro _ | dsimp only | split

theorem memStatus_kept (r : Req) {s : State} (hs : Kept Q N s) : Kept Q N (memStatus r s) := by
  unfold memStatus
  repeat' with_reducible
    first | assumption | apply respond_kept | apply withLength_kept | apply noHandle_kept | intro _ | dsimp only | split

theorem execMemStatus_kept (b : Box) {s : State} (hs : Kept Q N s) : KeptOut Q N (execMemStatus b s) := by
  unfold execMemStatus
  repeat' with_reducible
    first | assumption | apply memStatus_kept | apply request_kept | apply keptOut_next | intro _ | dsimp only | split

end Sys2Proof.Machine
end

