-- ==== Sys2Proof/Laws/KeptStart.lean ====
section
/-! SUPPORT. Start: every operation keeps the queue, the clock and the capacities. -/

namespace Sys2Proof.Machine

variable {Q : List Instr} {N : Nat}

theorem regenerateRoot_kept (array : List Nat) {s : State} (hs : Kept Q N s) : Kept Q N (regenerateRoot array s) := by
  unfold regenerateRoot
  repeat' with_reducible
    first | assumption | apply Kept.withCupola | intro _ | dsimp only | split

theorem startCupola_kept (array : List Nat) (held : Bool) {s : State} (hs : Kept Q N s) : Kept Q N (startCupola array held s) := by
  unfold startCupola
  repeat' with_reducible
    first | assumption | apply regenerateRoot_kept | apply kept_ite | apply kept_dite | apply Kept.withCupola | intro _ | dsimp only
          | split

theorem lockPendingPort_kept (p : Port) {s : State} (hs : Kept Q N s) : Kept Q N (lockPendingPort s p) := by
  unfold lockPendingPort
  repeat' with_reducible
    first | assumption | apply lockDegradedPort_kept | intro _ | dsimp only | split

theorem dropPullUps_kept (ps : List PulledPin) {s : State} (hs : Kept Q N s) : Kept Q N (dropPullUps ps s) := by
  unfold dropPullUps
  repeat' with_reducible
    first | assumption | apply Kept.withPower | intro _ | dsimp only | split

theorem startSteeple_kept (selfTestOk : Bool) {s : State} (hs : Kept Q N s) : Kept Q N (startSteeple selfTestOk s) := by
  unfold startSteeple
  repeat' with_reducible
    first | assumption | apply State_draw_kept | apply grantPermits_kept | apply decideFault_kept | apply enterCd1Loss_kept
          | apply endHubDegraded_kept | apply startTelegrams_kept | apply lockPendingPort_kept | apply dropPullUps_kept | apply kept_ite
          | apply kept_dite | apply kept_foldl' | apply Kept.withTurret
          | (refine Kept.turret (Q := Q) (N := N) (s := ?_) ?_ ?e0; (case e0 => first | exact rfl | with_unfolding_all exact rfl))
          | apply Kept.withSteeple
          | (refine Kept.steeple (Q := Q) (N := N) (s := ?_) ?_ ?e0; (case e0 => first | exact rfl | with_unfolding_all exact rfl))
          | intro _ | dsimp only | split

theorem settleMark_kept {s : State} (hs : Kept Q N s) : Kept Q N (settleMark s) := by
  unfold settleMark
  repeat' with_reducible
    first | assumption | apply powerFailReport_kept | apply Kept.withKeep
          | (refine Kept.keep (Q := Q) (N := N) (s := ?_) ?_ ?e0 ?e1; (case e0 => first | exact rfl | with_unfolding_all exact rfl); (case e1 => first | exact rfl | with_unfolding_all exact rfl))
          | apply Kept.withPower | intro _ | dsimp only | split

theorem noteSoftware_kept {s : State} (hs : Kept Q N s) : Kept Q N (noteSoftware s) := by
  unfold noteSoftware
  repeat' with_reducible
    first | assumption | apply keepLog_kept | apply kept_ite | apply kept_dite | apply Kept.withLegal
          | (refine Kept.legal (Q := Q) (N := N) (s := ?_) ?_ ?e0 ?e1 ?e2; (case e0 => exact rfl); (case e1 => exact rfl); (case e2 => exact rfl))
          | intro _ | dsimp only | split

theorem startKeep_kept (fuse : FuseSense) {s0 : State} (hs : Kept Q N s0) : Kept Q N (startKeep fuse s0) := by
  unfold startKeep
  repeat' with_reducible
    first | assumption | apply restoreKeep_kept | apply startLegal_kept | apply dropPullUps_kept | apply settleMark_kept
          | apply noteSoftware_kept | intro _ | dsimp only | split

theorem startTurret_kept {s : State} (hs : Kept Q N s) : Kept Q N (startTurret s) := by
  unfold startTurret
  repeat' with_reducible
    first | assumption | apply markDisabled_kept | apply drive_kept | apply dropPullUps_kept | apply Kept.withTurret
          | (refine Kept.turret (Q := Q) (N := N) (s := ?_) ?_ ?e0; (case e0 => first | exact rfl | with_unfolding_all exact rfl))
          | intro _ | dsimp only | split

theorem interruptSession_kept (c : Channel) {s : State} (hs : Kept Q N s) : Kept Q N (interruptSession s c) := by
  unfold interruptSession
  repeat' with_reducible
    first | assumption | apply raise_kept | apply setSession_kept | apply wantSessionRecord_kept | apply kept_ite | apply kept_dite
          | intro _ | dsimp only | split

theorem noteInterrupted_kept (p : Port) {s : State} (hs : Kept Q N s) : Kept Q N (noteInterrupted s p) := by
  unfold noteInterrupted
  repeat' with_reducible
    first | assumption | apply Kept.withTurret | (refine Kept.turret (Q := Q) (N := N) (s := ?_) ?_ ?e0; (case e0 => exact rfl)) | intro _
          | dsimp only | split

theorem startRotunda_kept {s : State} (hs : Kept Q N s) : Kept Q N (startRotunda s) := by
  unfold startRotunda
  repeat' with_reducible
    first | assumption | apply dropPullUps_kept | apply interruptSession_kept | apply noteInterrupted_kept | apply kept_foldl'
          | apply Kept.withRotunda
          | (refine Kept.rotunda (Q := Q) (N := N) (s := ?_) ?_ ?e0; (case e0 => first | exact rfl | with_unfolding_all exact rfl))
          | refine Kept.box (Q := Q) (N := N) ?_ _ | intro _ | dsimp only | split

theorem raiseKeyEvents_kept (tried : Bool) {s : State} (hs : Kept Q N s) : Kept Q N (raiseKeyEvents tried s) := by
  unfold raiseKeyEvents
  repeat' with_reducible
    first | assumption | apply State_draw_kept | apply raise_kept | apply raiseDestroyed_kept | apply kept_ite | apply kept_dite
          | apply Kept.withCupola | intro _ | dsimp only | split

theorem raiseStarted_kept {s : State} (hs : Kept Q N s) : Kept Q N (raiseStarted s) := by
  unfold raiseStarted
  repeat' with_reducible
    first | assumption | apply raise_kept | intro _ | dsimp only | split

theorem State_release_kept (c : Clock) (k : State → State) (hk : ∀ s, Kept Q N s → Kept Q N (k s)) {s : State} (hs : Kept Q N s) : Kept Q N (State.release s c k) := by
  unfold State.release
  repeat' with_reducible
    first | assumption | apply hk | apply kept_ite | apply kept_dite | intro _ | dsimp only | split

theorem startLantern_kept (on : Bool) {s : State} (hs : Kept Q N s) : Kept Q N (startLantern on s) := by
  unfold startLantern
  repeat' with_reducible
    first | assumption | apply trace_kept | apply releaseLantern_kept | apply dropPullUps_kept | apply kept_ite | apply kept_dite
          | intro _ | dsimp only | split

theorem startIslands_kept (f : StartFacts) (faults : List Clock) {s0 : State} (hs : Kept Q N s0) : Kept Q N (startIslands f faults s0) := by
  unfold startIslands
  repeat' with_reducible
    first | assumption | apply settleBelfry_kept | apply startTrial_kept | apply dropPullUps_kept | apply startSteeple_kept
          | apply startKeep_kept | apply startTurret_kept | apply startRotunda_kept | apply raiseKeyEvents_kept | apply raiseStarted_kept
          | apply State_release_kept | apply startLantern_kept | apply Kept.withPower | intro _ | dsimp only | split

theorem startDevice_kept (f : StartFacts) {s : State} (hs : Kept Q N s) : Kept Q N (startDevice f s) := by
  unfold startDevice
  repeat' with_reducible
    first | assumption | apply logDuds_kept | apply startCupola_kept | apply startIslands_kept
          | refine KeptOpt.out (bootCheck_kept _  ?_) _ (by assumption) | apply Kept.withPower | intro _ | dsimp only | split

theorem execDeviceStart_kept (f : StartFacts) {s : State} (hs : Kept Q N s) : KeptOut Q N (execDeviceStart f s) := by
  unfold execDeviceStart
  repeat' with_reducible
    first | assumption | apply startDevice_kept | apply kept_ite | apply kept_dite | apply keptOut_ite | apply keptOut_dite
          | apply keptOut_next | intro _ | dsimp only | split

end Sys2Proof.Machine
end

