-- ==== Sys2Proof/Laws/KeptAllocator.lean ====
section
/-! SUPPORT. Allocator: every operation keeps the queue, the clock and the capacities. -/

namespace Sys2Proof.Machine

variable {Q : List Instr} {N : Nat}

theorem readmitPort_kept (p : Port) {s : State} (hs : Kept Q N s) : Kept Q N (readmitPort s p) := by
  unfold readmitPort
  repeat' with_reducible
    first | assumption | apply post_kept | apply State_modLane_kept | apply clearFallbacks_kept | apply beginOpening_kept
          | apply cutMeans_kept | apply setAllowance_kept | apply kept_ite | apply kept_dite | apply Kept.withTurret
          | (refine Kept.turret (Q := Q) (N := N) (s := ?_) ?_ ?e0; (case e0 => first | exact rfl | with_unfolding_all exact rfl))
          | intro _ | dsimp only | split

theorem settleAllowance_kept (give : Vector Nat 24) (start : Nat) (p : Port) {s : State} (hs : Kept Q N s) : Kept Q N (settleAllowance give start s p) := by
  unfold settleAllowance
  repeat' with_reducible
    first | assumption | apply State_draw_kept | apply setAllowance_kept | apply kept_ite | apply kept_dite | apply Kept.withTurret
          | (refine Kept.turret (Q := Q) (N := N) (s := ?_) ?_ ?e0; (case e0 => exact rfl)) | intro _ | dsimp only | split

theorem allocate_kept (start : Nat) {s : State} (hs : Kept Q N s) : Kept Q N (allocate start s) := by
  unfold allocate
  repeat' with_reducible
    first | assumption | apply readmitPort_kept | apply settleAllowance_kept | apply kept_ite | apply kept_dite | apply kept_foldl'
          | apply Kept.withTurret | (refine Kept.turret (Q := Q) (N := N) (s := ?_) ?_ ?e0; (case e0 => exact rfl)) | intro _ | dsimp only
          | split

theorem postBattery_kept (old : State) {s : State} (hs : Kept Q N s) : Kept Q N (postBattery old s) := by
  unfold postBattery
  repeat' with_reducible
    first | assumption | apply post_kept | apply kept_ite | apply kept_dite | intro _ | dsimp only | split

theorem postChanges_kept {s : State} (hs : Kept Q N s) : Kept Q N (postChanges s) := by
  unfold postChanges
  repeat' with_reducible
    first | assumption | apply post_kept | apply kept_ite | apply kept_dite | apply Kept.withTurret
          | (refine Kept.turret (Q := Q) (N := N) (s := ?_) ?_ ?e0; (case e0 => exact rfl)) | intro _ | dsimp only | split

theorem actOn_kept (e : RequestEntry) {s : State} (hs : Kept Q N s) : Kept Q N (actOn s e) := by
  unfold actOn
  repeat' with_reducible
    first | assumption | apply postOutcome_kept | apply arriveReset_kept | apply arriveProof_kept | apply arriveStage_kept
          | apply arriveCommit_kept | apply retirePage_kept | apply kept_ite | apply kept_dite | apply Kept.withSteeple
          | (refine Kept.steeple (Q := Q) (N := N) (s := ?_) ?_ ?e0; (case e0 => exact rfl)) | intro _ | dsimp only | split

theorem passRecord_kept {s : State} (hs : Kept Q N s) : Kept Q N (passRecord s) := by
  unfold passRecord
  repeat' with_reducible
    first | assumption | apply actOn_kept | apply kept_ite | apply kept_dite | apply kept_foldl' | intro _ | dsimp only | split

theorem latchInputs_kept {s : State} (hs : Kept Q N s) : Kept Q N (latchInputs s) := by
  unfold latchInputs
  repeat' with_reducible
    first | assumption | apply post_kept | apply updateBlinds_kept | apply markDisabled_kept | apply kept_ite | apply kept_dite
          | apply Kept.withRotunda
          | (refine Kept.rotunda (Q := Q) (N := N) (s := ?_) ?_ ?e0; (case e0 => first | exact rfl | with_unfolding_all exact rfl))
          | apply Kept.withTurret
          | (refine Kept.turret (Q := Q) (N := N) (s := ?_) ?_ ?e0; (case e0 => first | exact rfl | with_unfolding_all exact rfl))
          | apply Kept.withDsp | refine Kept.box (Q := Q) (N := N) ?_ _ | intro _ | dsimp only | split

theorem restartMeans_kept {s : State} (hs : Kept Q N s) : Kept Q N (restartMeans s) := by
  unfold restartMeans
  repeat' with_reducible
    first | assumption | apply Kept.withTurret | (refine Kept.turret (Q := Q) (N := N) (s := ?_) ?_ ?e0; (case e0 => exact rfl)) | intro _
          | dsimp only | split

theorem showSite_kept {s : State} (hs : Kept Q N s) : Kept Q N (showSite s) := by
  unfold showSite
  repeat' with_reducible
    first | assumption | apply Kept.withTurret
          | (refine Kept.turret (Q := Q) (N := N) (s := ?_) ?_ ?e0; (case e0 => first | exact rfl | with_unfolding_all exact rfl))
          | intro _ | dsimp only | split

theorem boundary_kept {s0 : State} (hs : Kept Q N s0) : Kept Q N (boundary s0) := by
  unfold boundary
  repeat' with_reducible
    first | assumption | apply stampBodies_kept | apply shedDue_kept | apply settleBelfry_kept | apply applyCommits_kept
          | apply softShed_kept | apply allocate_kept | apply postBattery_kept | apply postChanges_kept | apply passRecord_kept
          | apply latchInputs_kept | apply restartMeans_kept | apply showSite_kept | apply kept_foldl' | intro _ | dsimp only | split

theorem execAllocationBoundary_kept {s : State} (hs : Kept Q N s) : KeptOut Q N (execAllocationBoundary s) := by
  unfold execAllocationBoundary
  repeat' with_reducible
    first | assumption | apply boundary_kept | apply kept_ite | apply kept_dite | apply keptOut_ite | apply keptOut_dite
          | apply keptOut_next | intro _ | dsimp only | split

end Sys2Proof.Machine
end

