-- ==== Sys2Proof/Laws/KeptTick.lean ====
section
/-! SUPPORT. Tick: every operation keeps the queue, the clock and the capacities. -/

namespace Sys2Proof.Machine

variable {Q : List Instr} {N : Nat}

theorem passTime_kept {s : State} (hs : Kept Q N s) : Kept Q N (passTime s) := by
  unfold passTime
  dsimp only
  split
  · exact ⟨hs.pending, hs.now, { hs.within with keep := hs.keep rfl rfl }⟩
  · split
    · exact ⟨hs.pending, hs.now, { hs.within with keep := hs.keep rfl rfl }⟩
    · exact hs.withKeep (hs.keep rfl rfl)

theorem runLantern_kept {s : State} (hs : Kept Q N s) : Kept Q N (runLantern s) := by
  unfold runLantern
  repeat' with_reducible
    first | assumption | apply kept_ite | apply kept_dite | apply Kept.withLantern | intro _ | dsimp only | split

theorem validateMark_kept {s : State} (hs : Kept Q N s) : Kept Q N (validateMark s) := by
  unfold validateMark
  repeat' with_reducible
    first | assumption | apply kept_ite | apply kept_dite | apply Kept.withKeep
          | (refine Kept.keep (Q := Q) (N := N) (s := ?_) ?_ ?e0 ?e1; (case e0 => first | exact rfl | with_unfolding_all exact rfl); (case e1 => first | exact rfl | with_unfolding_all exact rfl))
          | intro _ | dsimp only | split

theorem settleMemory_kept {s : State} (hs : Kept Q N s) : Kept Q N (settleMemory s) := by
  unfold settleMemory
  repeat' with_reducible
    first | assumption | apply settleRetirement_kept | apply validateMark_kept | apply Kept.withRotunda
          | (refine Kept.rotunda (Q := Q) (N := N) (s := ?_) ?_ ?e0; (case e0 => first | exact rfl | with_unfolding_all exact rfl))
          | apply Kept.withSteeple
          | (refine Kept.steeple (Q := Q) (N := N) (s := ?_) ?_ ?e0; (case e0 => first | exact rfl | with_unfolding_all exact rfl))
          | refine Kept.box (Q := Q) (N := N) ?_ _ | intro _ | dsimp only | split

theorem runTone_kept {s : State} (hs : Kept Q N s) : Kept Q N (runTone s) := by
  unfold runTone
  repeat' with_reducible
    first | assumption | apply kept_ite | apply kept_dite | apply Kept.withDsp | intro _ | dsimp only | split

theorem tick_kept {s : State} (hs : Kept Q N s) : Kept Q (N + 1) (tick s) := by
  unfold tick
  have h1 : Kept Q (N + 1) ({ s with now := s.now + 1 } : State) := ⟨hs.pending, by rw [← hs.now], { hs.within with }⟩
  exact shutdownStep_kept (runTone_kept (stampBodies_kept (settleMemory_kept (endSpent_kept (serveAgain_kept (runLantern_kept
    (kept_ite (c := s.aon) (fun _ => passTime_kept h1) (fun _ => h1))))))))

end Sys2Proof.Machine
end

