-- ==== Sys2Proof/Laws/Requests.lean ====
section
/-! SUPPORT. A request that is ready is executed by its row, and what its header says. -/

namespace Sys2Proof.Machine

variable {b : Box} {op : Nat} {f : Frame} {r : Req} {s : State}

theorem ready_cases (h : ready s b op = some (f, r)) :
    s.servesBox b = true ∧ executable s b = some (f, r) ∧ r.opcode = op ∧ inTurn s b f = true := by
  unfold ready at h
  split at h
  · split at h
    · rename_i f' r' he
      split at h
      · rename_i hc
        cases h
        simp only [Bool.and_eq_true, decide_eq_true_eq] at hc
        exact ⟨‹_›, he, hc.1, hc.2⟩
      · cases h
    · cases h
  · cases h

theorem executable_cases (h : executable s b = some (f, r)) :
    (∃ fs, (s.box b).inRing = f :: fs) ∧ s.otherSegments b f = false ∧ judge s b f = .execute r ∧ (opClass r.opcode).isSome = true ∧
      slotsOf r.opcode ≤ (s.box b).outFree := by
  unfold executable at h
  split at h
  · cases h
  · rename_i g fs hi
    split at h
    · cases h
    · rename_i ho
      split at h
      · rename_i r' hj
        split at h
        · rename_i hc
          cases h
          simp only [Bool.and_eq_true, decide_eq_true_eq] at hc
          exact ⟨⟨fs, hi⟩, by simpa using ho, hj, hc.1, hc.2⟩
        · cases h
      · cases h

theorem OpClass.one_le_slots (c : OpClass) : 1 ≤ c.slots := by cases c <;> decide

theorem one_le_slotsOf (op : Nat) : 1 ≤ slotsOf op := by
  unfold slotsOf
  split
  · split
    · decide
    · exact OpClass.one_le_slots _
  · decide

/-- What a request carries: its mailbox, the frame's header, the whole payload, the session and the role. -/
theorem judge_execute (h : judge s b f = .execute r) :
    r = ⟨b, f.opcode, tagOf (extendedIn (s.box b).session f) f.stamp, f.handle, wholePayload (s.box b) f, (s.box b).epoch, s.roleOf b, (s.box b).lastExecuted⟩ := by
  unfold judge at h
  dsimp only at h
  repeat' split at h
  all_goals first
    | (cases h; rfl)
    | cases h

theorem Asked.settled (h : Asked b op f r s) : settleOne b s = none := by
  obtain ⟨-, he, -, -⟩ := ready_cases h.ready
  obtain ⟨⟨fs, hi⟩, ho, hj, -, hf⟩ := executable_cases he
  have hs := one_le_slotsOf r.opcode
  have hn : (s.box b).segments.filter (fun g => !g.matches f) = none := by
    unfold State.otherSegments at ho
    cases hg : (s.box b).segments with
    | none => rfl
    | some g =>
      rw [hg] at ho
      simp only [Option.any_some] at ho
      simp only [Option.filter_some, ho, Bool.false_eq_true, if_false]
  unfold settleOne
  simp only [hi, hn, hj]
  exact if_neg (by omega)

/-- No frame is taken off while a request is ready: its own is the next of all the mailboxes. -/
theorem Asked.none_settles (h : Asked b op f r s) (c : Box) : settles s c = false := by
  obtain ⟨hb, he, -, ht⟩ := ready_cases h.ready
  obtain ⟨⟨fs, hi⟩, -⟩ := executable_cases he
  have hm : movable s b = true := by simp [movable, hb, he]
  by_cases hcb : c = b
  · subst hcb; simp [settles, h.settled]
  · refine Bool.eq_false_iff.mpr fun hc => ?_
    simp only [settles, Bool.and_eq_true] at hc
    obtain ⟨⟨hsc, hone⟩, hc⟩ := hc
    split at hc
    · rename_i g gs hg
      have mc : movable s c = true := by simp [movable, hsc, hone]
      have e1 := (List.all_eq_true.mp ht) c (by simp [allBoxes])
      have e2 := (List.all_eq_true.mp hc) b (by simp [allBoxes])
      simp [hcb, Ne.symm hcb, mc, hm, hg, hi] at e1 e2
      omega
    · cases hc

theorem Asked.settleAll (h : Asked b op f r s) : settleAll s = s := by
  unfold Machine.settleAll settle
  rw [show allBoxes.find? (settles s) = none from List.find?_eq_none.mpr fun c _ => by simp [h.none_settles c]]
  rfl

/-- A ready request is executed by the row of its opcode. -/
theorem Asked.request (h : Asked b op f r s) (k : Req → State → State) : request b op k s = .next (k r (taken b f s)) := by
  unfold Machine.request
  simp only [h.settleAll, h.ready]

theorem Asked.opcode (h : Asked b op f r s) : r.opcode = op := (ready_cases h.ready).2.2.1

theorem Asked.req (h : Asked b op f r s) :
    r = ⟨b, f.opcode, tagOf (extendedIn (s.box b).session f) f.stamp, f.handle, wholePayload (s.box b) f, (s.box b).epoch, s.roleOf b, (s.box b).lastExecuted⟩ :=
  judge_execute (executable_cases (ready_cases h.ready).2.1).2.2.1

theorem Asked.box (h : Asked b op f r s) : r.box = b := by rw [h.req]

end Sys2Proof.Machine
end

