-- ==== Sys2Proof/Laws/Start.lean ====
section
/-! SUPPORT. The release order leaves the device's phase alone: what each of its operations does, for the claim that a start brings the
device into service. -/

namespace Sys2Proof.Machine

/-- What a start settles of the power state before the first release: the phase, the islands held, the option block in force, and the time
of the start. -/
structure StartedAs (x : DevicePhase × List Clock × OptionBlock × Nat) (s : State) : Prop where
  eq : (s.power.phase, s.power.held, s.power.inForce, s.power.bootAt) = x

variable {ph : DevicePhase × List Clock × OptionBlock × Nat}

theorem StartedAs.withRotunda {s : State} (hs : StartedAs ph s) (v : Rotunda) : StartedAs ph (s.withRotunda v) := ⟨hs.eq⟩
theorem StartedAs.withTurret {s : State} (hs : StartedAs ph s) (v : Turret) : StartedAs ph (s.withTurret v) := ⟨hs.eq⟩
theorem StartedAs.withSteeple {s : State} (hs : StartedAs ph s) (v : Steeple) : StartedAs ph (s.withSteeple v) := ⟨hs.eq⟩
theorem StartedAs.withDsp {s : State} (hs : StartedAs ph s) (v : Dsp) : StartedAs ph (s.withDsp v) := ⟨hs.eq⟩
theorem StartedAs.withKeep {s : State} (hs : StartedAs ph s) (v : Keep) : StartedAs ph (s.withKeep v) := ⟨hs.eq⟩
theorem StartedAs.withLegal {s : State} (hs : StartedAs ph s) (v : Legal) : StartedAs ph (s.withLegal v) := ⟨hs.eq⟩
theorem StartedAs.withBelfry {s : State} (hs : StartedAs ph s) (v : Belfry) : StartedAs ph (s.withBelfry v) := ⟨hs.eq⟩
theorem StartedAs.withOculus {s : State} (hs : StartedAs ph s) (v : Oculus) : StartedAs ph (s.withOculus v) := ⟨hs.eq⟩
theorem StartedAs.withCupola {s : State} (hs : StartedAs ph s) (v : Cupola) : StartedAs ph (s.withCupola v) := ⟨hs.eq⟩
theorem StartedAs.withMemory {s : State} (hs : StartedAs ph s) (v : Memory) : StartedAs ph (s.withMemory v) := ⟨hs.eq⟩
theorem StartedAs.withUpdate {s : State} (hs : StartedAs ph s) (v : Update) : StartedAs ph (s.withUpdate v) := ⟨hs.eq⟩
theorem StartedAs.withLantern {s : State} (hs : StartedAs ph s) (v : Lantern) : StartedAs ph (s.withLantern v) := ⟨hs.eq⟩
theorem StartedAs.withPower {s : State} {v : Power} (hv : (v.phase, v.held, v.inForce, v.bootAt) = ph) : StartedAs ph (s.withPower v) := ⟨hv⟩

theorem startedAs_ite {c : Prop} [Decidable c] {s t : State} (h1 : StartedAs ph s) (h2 : StartedAs ph t) : StartedAs ph (if c then s else t) := by
  split
  · exact h1
  · exact h2

theorem startedAs_foldl {α : Type} {f : State → α → State} (hf : ∀ a s, StartedAs ph s → StartedAs ph (f s a)) {l : List α} :
    ∀ {s}, StartedAs ph s → StartedAs ph (l.foldl f s) := by
  induction l with
  | nil => exact fun h => h
  | cons a l ih => exact fun h => ih (hf a _ h)

theorem State_setBox_started (b : Box) (m : Mailbox) {s : State} (hs : StartedAs ph s) : StartedAs ph (State.setBox s b m) := by
  unfold State.setBox
  repeat' with_reducible
    first | assumption | intro _ | apply startedAs_ite | apply startedAs_foldl | apply StartedAs.withRotunda | apply StartedAs.eq
          | dsimp only | split

theorem State_modBox_started (b : Box) (f : Mailbox → Mailbox) {s : State} (hs : StartedAs ph s) : StartedAs ph (State.modBox s b f) := by
  unfold State.modBox
  repeat' with_reducible
    first | assumption | intro _ | apply State_setBox_started | apply startedAs_ite | apply startedAs_foldl | apply StartedAs.eq
          | dsimp only | split

theorem State_modHost_started (b : Box) (f : Mailbox → Mailbox) {s : State} (hs : StartedAs ph s) : StartedAs ph (State.modHost s b f) := by
  unfold State.modHost
  repeat' with_reducible
    first | assumption | intro _ | apply State_setBox_started | apply startedAs_ite | apply startedAs_foldl | apply StartedAs.eq
          | dsimp only | split

theorem State_draw_started {s : State} (hs : StartedAs ph s) : StartedAs ph (State.draw s) := by
  exact ⟨hs.eq⟩

theorem count_started (i : Fin 64) (n : Nat) {s : State} (hs : StartedAs ph s) : StartedAs ph (count i n s) := by
  unfold count
  repeat' with_reducible
    first | assumption | intro _ | apply startedAs_ite | apply startedAs_foldl | apply StartedAs.withLantern | apply StartedAs.eq
          | dsimp only | split

theorem trace_started (src : Fin 12) (type : Nat) (content : List Byte) {s : State} (hs : StartedAs ph s) : StartedAs ph (trace src type content s) := by
  unfold trace
  repeat' with_reducible
    first | assumption | intro _ | apply startedAs_ite | apply startedAs_foldl | apply StartedAs.withLantern | apply StartedAs.eq
          | dsimp only | split

theorem traceFrame_started (b : Box) (direction : Nat) (f : Frame) {s : State} (hs : StartedAs ph s) : StartedAs ph (traceFrame b direction f s) := by
  unfold traceFrame
  repeat' with_reducible
    first | assumption | intro _ | apply trace_started | apply startedAs_ite | apply startedAs_foldl | apply StartedAs.eq | dsimp only
          | split

theorem pushOut_started (b : Box) (f : Frame) {s : State} (hs : StartedAs ph s) : StartedAs ph (pushOut b f s) := by
  unfold pushOut
  repeat' with_reducible
    first | assumption | intro _ | apply State_modHost_started | apply traceFrame_started | apply startedAs_ite | apply startedAs_foldl
          | apply StartedAs.eq | dsimp only | split

theorem pushAll_started (b : Box) (fs : List Frame) {s : State} (hs : StartedAs ph s) : StartedAs ph (pushAll b fs s) := by
  unfold pushAll
  repeat' with_reducible
    first | assumption | intro _ | apply pushOut_started | apply startedAs_ite | apply startedAs_foldl | apply StartedAs.eq | dsimp only
          | split

theorem queueGap_started (b : Box) {s : State} (hs : StartedAs ph s) : StartedAs ph (queueGap b s) := by
  unfold queueGap
  repeat' with_reducible
    first | assumption | intro _ | apply State_setBox_started | apply count_started | apply pushOut_started | apply startedAs_ite
          | apply startedAs_foldl | apply StartedAs.eq | dsimp only | split

theorem queueEvent_started (b : Box) (e : Event) {s0 : State} (hs : StartedAs ph s0) : StartedAs ph (queueEvent b e s0) := by
  unfold queueEvent
  repeat' with_reducible
    first | assumption | intro _ | apply State_setBox_started | apply State_modHost_started | apply pushAll_started
          | apply queueGap_started | apply startedAs_ite | apply startedAs_foldl | apply StartedAs.eq | dsimp only | split

theorem raiseAlso_started (owner : Option Box) (e : Event) {s : State} (hs : StartedAs ph s) : StartedAs ph (raiseAlso owner e s) := by
  unfold raiseAlso
  repeat' with_reducible
    first | assumption | intro _ | apply queueEvent_started | apply startedAs_ite | apply startedAs_foldl | apply StartedAs.eq
          | dsimp only | split

theorem raise_started (code : Nat) (port : Option Port) (payload : List Byte) {s : State} (hs : StartedAs ph s) : StartedAs ph (raise code port payload s) := by
  unfold raise
  repeat' with_reducible
    first | assumption | intro _ | apply raiseAlso_started | apply startedAs_ite | apply startedAs_foldl | apply StartedAs.eq | dsimp only
          | split

theorem reply_started (b : Box) (tag opcode status handle : Nat) (payload : List Byte) {s : State} (hs : StartedAs ph s) : StartedAs ph (reply b tag opcode status handle payload s) := by
  unfold reply
  repeat' with_reducible
    first | assumption | intro _ | apply State_setBox_started | apply pushAll_started | apply startedAs_ite | apply startedAs_foldl
          | apply StartedAs.eq | dsimp only | split

theorem traceResult_started (b : Box) (opcode status handle : Nat) {s : State} (hs : StartedAs ph s) : StartedAs ph (traceResult b opcode status handle s) := by
  unfold traceResult
  repeat' with_reducible
    first | assumption | intro _ | apply trace_started | apply startedAs_ite | apply startedAs_foldl | apply StartedAs.eq | dsimp only
          | split

theorem finish_started (w : Waiting) (status : Nat) (payload : List Byte) {s : State} (hs : StartedAs ph s) : StartedAs ph (finish w status payload s) := by
  unfold finish
  repeat' with_reducible
    first | assumption | intro _ | apply State_modBox_started | apply reply_started | apply traceResult_started | apply startedAs_ite
          | apply startedAs_foldl | apply StartedAs.eq | dsimp only | split

theorem logError_started (i : Fin 8) (kind offset requester cnt time : Nat) (counted : Bool) {s : State} (hs : StartedAs ph s) : StartedAs ph (logError i kind offset requester cnt time counted s) := by
  unfold logError
  repeat' with_reducible
    first | assumption | intro _ | apply raise_started | apply startedAs_ite | apply startedAs_foldl | apply StartedAs.withMemory
          | apply StartedAs.eq | dsimp only | split

theorem persist_started (old : Body) (c : Channel) {s : State} (hs : StartedAs ph s) : StartedAs ph (persist old c s) := by
  unfold persist
  repeat' with_reducible
    first | assumption | intro _ | apply startedAs_ite | apply startedAs_foldl | apply StartedAs.withRotunda | apply StartedAs.eq
          | dsimp only | split

theorem State_setChannels_started (cs : List Channel) {s : State} (hs : StartedAs ph s) : StartedAs ph (State.setChannels s cs) := by
  unfold State.setChannels
  repeat' with_reducible
    first | assumption | intro _ | apply startedAs_ite | apply startedAs_foldl | apply StartedAs.withRotunda | apply StartedAs.eq
          | dsimp only | split

theorem setBody_started (slot : Nat) (body : Body) {s : State} (hs : StartedAs ph s) : StartedAs ph (setBody slot body s) := by
  unfold setBody
  repeat' with_reducible
    first | assumption | intro _ | apply persist_started | apply State_setChannels_started | apply startedAs_ite | apply startedAs_foldl
          | apply StartedAs.eq | dsimp only | split

theorem addChanges_started (slot n : Nat) {s : State} (hs : StartedAs ph s) : StartedAs ph (addChanges slot n s) := by
  unfold addChanges
  repeat' with_reducible
    first | assumption | intro _ | apply State_setChannels_started | apply startedAs_ite | apply startedAs_foldl | apply StartedAs.eq
          | dsimp only | split

theorem destroyChannel_started (c : Channel) (code reason : Nat) {s : State} (hs : StartedAs ph s) : StartedAs ph (destroyChannel c code reason s) := by
  unfold destroyChannel
  repeat' with_reducible
    first | assumption | intro _ | apply raiseAlso_started | apply startedAs_ite | apply startedAs_foldl | apply StartedAs.withRotunda
          | apply StartedAs.eq | dsimp only | split

theorem logAppend_started (time type origin : Nat) (uncertain rtc : Bool) (data : List Byte) {s : State} (hs : StartedAs ph s) : StartedAs ph (logAppend time type origin uncertain rtc data s) := by
  unfold logAppend
  repeat' with_reducible
    first | assumption | intro _ | apply raise_started | apply startedAs_ite | apply startedAs_foldl | apply StartedAs.withLegal
          | apply StartedAs.eq | dsimp only | split

theorem keepLog_started (type origin : Nat) (data : List Byte) {s : State} (hs : StartedAs ph s) : StartedAs ph (keepLog type origin data s) := by
  unfold keepLog
  repeat' with_reducible
    first | assumption | intro _ | apply logAppend_started | apply startedAs_ite | apply startedAs_foldl | apply StartedAs.eq | dsimp only
          | split

theorem moveAon_started (e : AonEntry) {s : State} (hs : StartedAs ph s) : StartedAs ph (moveAon s e) := by
  unfold moveAon
  repeat' with_reducible
    first | assumption | intro _ | apply logAppend_started | apply startedAs_ite | apply startedAs_foldl | apply StartedAs.eq | dsimp only
          | split

theorem moveAonBuffer_started {s : State} (hs : StartedAs ph s) : StartedAs ph (moveAonBuffer s) := by
  unfold moveAonBuffer
  repeat' with_reducible
    first | assumption | intro _ | apply logAppend_started | apply moveAon_started | apply startedAs_ite | apply startedAs_foldl
          | apply StartedAs.withLegal | apply StartedAs.eq | dsimp only | split

theorem sealLog_started (fuse : FuseSense) (uncertain : Bool) (c pulses : Nat) {s : State} (hs : StartedAs ph s) : StartedAs ph (sealLog fuse uncertain c pulses s) := by
  unfold sealLog
  repeat' with_reducible
    first | assumption | intro _ | apply logAppend_started | apply startedAs_ite | apply startedAs_foldl | apply StartedAs.withLegal
          | apply StartedAs.eq | dsimp only | split

theorem postGap_started {s : State} (hs : StartedAs ph s) : StartedAs ph (postGap s) := by
  unfold postGap
  repeat' with_reducible
    first | assumption | intro _ | apply count_started | apply startedAs_ite | apply startedAs_foldl | apply StartedAs.withTurret
          | apply StartedAs.eq | dsimp only | split

theorem post_started (port : Option Port) (c : QContent) {s0 : State} (hs : StartedAs ph s0) : StartedAs ph (post port c s0) := by
  unfold post
  repeat' with_reducible
    first | assumption | intro _ | apply count_started | apply postGap_started | apply startedAs_ite | apply startedAs_foldl
          | apply StartedAs.withTurret | apply StartedAs.eq | dsimp only | split

theorem postOutcome_started (number status : Nat) (result : List Byte) {s : State} (hs : StartedAs ph s) : StartedAs ph (postOutcome number status result s) := by
  unfold postOutcome
  repeat' with_reducible
    first | assumption | intro _ | apply post_started | apply startedAs_ite | apply startedAs_foldl | apply StartedAs.eq | dsimp only
          | split

theorem State_setLane_started (p : Port) (l : Lane) {s : State} (hs : StartedAs ph s) : StartedAs ph (State.setLane s p l) := by
  unfold State.setLane
  repeat' with_reducible
    first | assumption | intro _ | apply startedAs_ite | apply startedAs_foldl | apply StartedAs.withTurret | apply StartedAs.eq
          | dsimp only | split

theorem State_modLane_started (p : Port) (f : Lane → Lane) {s : State} (hs : StartedAs ph s) : StartedAs ph (State.modLane s p f) := by
  unfold State.modLane
  repeat' with_reducible
    first | assumption | intro _ | apply State_setLane_started | apply startedAs_ite | apply startedAs_foldl | apply StartedAs.eq
          | dsimp only | split

theorem setSession_started (c : Channel) (b : SessionBody) {s : State} (hs : StartedAs ph s) : StartedAs ph (setSession c b s) := by
  unfold setSession
  repeat' with_reducible
    first | assumption | intro _ | apply setBody_started | apply startedAs_ite | apply startedAs_foldl | apply StartedAs.eq | dsimp only
          | split

theorem creditEnergised_started (p : Port) {s : State} (hs : StartedAs ph s) : StartedAs ph (creditEnergised p s) := by
  unfold creditEnergised
  repeat' with_reducible
    first | assumption | intro _ | apply addChanges_started | apply State_modLane_started | apply setSession_started | apply startedAs_ite
          | apply startedAs_foldl | apply StartedAs.eq | dsimp only | split

theorem transit_started (p : Port) (n : Nat) (st : PortState) {s0 : State} (hs : StartedAs ph s0) : StartedAs ph (transit p n st s0) := by
  unfold transit
  repeat' with_reducible
    first | assumption | intro _ | apply trace_started | apply post_started | apply State_modLane_started | apply creditEnergised_started
          | apply startedAs_ite | apply startedAs_foldl | apply StartedAs.eq | dsimp only | split

theorem wantSessionRecord_started (kind : Nat) (c : Channel) (b : SessionBody) {s : State} (hs : StartedAs ph s) : StartedAs ph (wantSessionRecord kind c b s) := by
  unfold wantSessionRecord
  repeat' with_reducible
    first | assumption | intro _ | apply startedAs_ite | apply startedAs_foldl | apply StartedAs.withLegal | apply StartedAs.eq
          | dsimp only | split

theorem settleStops_started (handle : Nat) (payload : List Byte) {s : State} (hs : StartedAs ph s) : StartedAs ph (settleStops handle payload s) := by
  unfold settleStops
  repeat' with_reducible
    first | assumption | intro _ | apply finish_started | apply startedAs_ite | apply startedAs_foldl | apply StartedAs.withRotunda
          | apply StartedAs.eq | dsimp only | split

theorem endPortSession_started (p : Port) (reason : Nat) {s0 : State} (hs : StartedAs ph s0) : StartedAs ph (endPortSession p reason s0) := by
  unfold endPortSession
  repeat' with_reducible
    first | assumption | intro _ | apply raise_started | apply State_modLane_started | apply setSession_started
          | apply settleStops_started | apply startedAs_ite | apply startedAs_foldl | apply StartedAs.eq | dsimp only | split

theorem settlePort_started (op : Nat) (p : Port) (status : Nat) {s : State} (hs : StartedAs ph s) : StartedAs ph (settlePort op p status s) := by
  unfold settlePort
  repeat' with_reducible
    first | assumption | intro _ | apply finish_started | apply startedAs_ite | apply startedAs_foldl | apply StartedAs.withRotunda
          | apply StartedAs.eq | dsimp only | split

theorem setCtd_started (p : Port) (on : Bool) {s : State} (hs : StartedAs ph s) : StartedAs ph (setCtd p on s) := by
  unfold setCtd
  repeat' with_reducible
    first | assumption | intro _ | apply State_modLane_started | apply startedAs_ite | apply startedAs_foldl | apply StartedAs.eq
          | dsimp only | split

theorem setPbd_started (p : Port) (on : Bool) {s : State} (hs : StartedAs ph s) : StartedAs ph (setPbd p on s) := by
  unfold setPbd
  repeat' with_reducible
    first | assumption | intro _ | apply State_modLane_started | apply startedAs_ite | apply startedAs_foldl | apply StartedAs.eq
          | dsimp only | split

theorem postOutcomeAt_started (p : Port) (kind result start end_ : Nat) {s : State} (hs : StartedAs ph s) : StartedAs ph (postOutcomeAt p kind result start end_ s) := by
  unfold postOutcomeAt
  repeat' with_reducible
    first | assumption | intro _ | apply post_started | apply State_modLane_started | apply startedAs_ite | apply startedAs_foldl
          | apply StartedAs.eq | dsimp only | split

theorem setPermit_started (p : Port) (v : Bool) {s : State} (hs : StartedAs ph s) : StartedAs ph (setPermit p v s) := by
  unfold setPermit
  repeat' with_reducible
    first | assumption | intro _ | apply trace_started | apply startedAs_ite | apply startedAs_foldl | apply StartedAs.withSteeple
          | apply StartedAs.eq | dsimp only | split

theorem setProbe_started (p : Port) (v : Bool) {s : State} (hs : StartedAs ph s) : StartedAs ph (setProbe p v s) := by
  unfold setProbe
  repeat' with_reducible
    first | assumption | intro _ | apply trace_started | apply startedAs_ite | apply startedAs_foldl | apply StartedAs.withSteeple
          | apply StartedAs.eq | dsimp only | split

theorem grantPermits_started {s : State} (hs : StartedAs ph s) : StartedAs ph (grantPermits s) := by
  unfold grantPermits
  repeat' with_reducible
    first | assumption | intro _ | apply setPermit_started | apply startedAs_ite | apply startedAs_foldl | apply StartedAs.eq | dsimp only
          | split

theorem addRecord_started (kind code : Nat) (port : Option Port) (related : Nat) (detail : List Byte) (m : Marks) {s : State} (hs : StartedAs ph s) : StartedAs ph (addRecord kind code port related detail m s) := by
  unfold addRecord
  repeat' with_reducible
    first | assumption | intro _ | apply trace_started | apply post_started | apply startedAs_ite | apply startedAs_foldl
          | apply StartedAs.withSteeple | apply StartedAs.eq | dsimp only | split

theorem removePermit_started (p : Port) {s : State} (hs : StartedAs ph s) : StartedAs ph (removePermit p s) := by
  unfold removePermit
  repeat' with_reducible
    first | assumption | intro _ | apply State_modLane_started | apply setCtd_started | apply setPbd_started | apply postOutcomeAt_started
          | apply setPermit_started | apply setProbe_started | apply startedAs_ite | apply startedAs_foldl | apply StartedAs.eq
          | dsimp only | split

theorem enterLockout_started (p : Port) {s : State} (hs : StartedAs ph s) : StartedAs ph (enterLockout p s) := by
  unfold enterLockout
  repeat' with_reducible
    first | assumption | intro _ | apply State_modLane_started | apply transit_started | apply endPortSession_started
          | apply settlePort_started | apply startedAs_ite | apply startedAs_foldl | apply StartedAs.eq | dsimp only | split

theorem openByFault_started (p : Port) {s : State} (hs : StartedAs ph s) : StartedAs ph (openByFault p s) := by
  unfold openByFault
  repeat' with_reducible
    first | assumption | intro _ | apply removePermit_started | apply enterLockout_started | apply startedAs_ite | apply startedAs_foldl
          | apply StartedAs.eq | dsimp only | split

theorem pulseSht_started (p : Port) {s : State} (hs : StartedAs ph s) : StartedAs ph (pulseSht p s) := by
  unfold pulseSht
  repeat' with_reducible
    first | assumption | intro _ | apply startedAs_ite | apply startedAs_foldl | apply StartedAs.withSteeple | apply StartedAs.eq
          | dsimp only | split

theorem setPortLock_started (p : Port) (l : Lockout) {s : State} (hs : StartedAs ph s) : StartedAs ph (setPortLock p l s) := by
  unfold setPortLock
  repeat' with_reducible
    first | assumption | intro _ | apply startedAs_ite | apply startedAs_foldl | apply StartedAs.withSteeple | apply StartedAs.eq
          | dsimp only | split

theorem setHubLock_started (l : Lockout) {s : State} (hs : StartedAs ph s) : StartedAs ph (setHubLock l s) := by
  unfold setHubLock
  repeat' with_reducible
    first | assumption | intro _ | apply startedAs_ite | apply startedAs_foldl | apply StartedAs.withSteeple | apply StartedAs.eq
          | dsimp only | split

theorem holdPort_started (p : Port) (code : Nat) (pending : Bool) {s : State} (hs : StartedAs ph s) : StartedAs ph (holdPort p code pending s) := by
  unfold holdPort
  repeat' with_reducible
    first | assumption | intro _ | apply setPortLock_started | apply startedAs_ite | apply startedAs_foldl | apply StartedAs.eq
          | dsimp only | split

theorem holdHub_started (code : Nat) (port : Option Port) (pending : Bool) {s : State} (hs : StartedAs ph s) : StartedAs ph (holdHub code port pending s) := by
  unfold holdHub
  repeat' with_reducible
    first | assumption | intro _ | apply setHubLock_started | apply startedAs_ite | apply startedAs_foldl | apply StartedAs.eq
          | dsimp only | split

theorem endProbe_started (p : Port) {s : State} (hs : StartedAs ph s) : StartedAs ph (endProbe s p) := by
  unfold endProbe
  repeat' with_reducible
    first | assumption | intro _ | apply State_modLane_started | apply startedAs_ite | apply startedAs_foldl | apply StartedAs.eq
          | dsimp only | split

theorem endResetTest_started (p : Port) {s : State} (hs : StartedAs ph s) : StartedAs ph (endResetTest s p) := by
  unfold endResetTest
  repeat' with_reducible
    first | assumption | intro _ | apply State_modLane_started | apply startedAs_ite | apply startedAs_foldl | apply StartedAs.eq
          | dsimp only | split

theorem endReset_started (r : ResetRun) (status record code : Nat) {s : State} (hs : StartedAs ph s) : StartedAs ph (endReset r status record code s) := by
  unfold endReset
  repeat' with_reducible
    first | assumption | intro _ | apply postOutcome_started | apply endProbe_started | apply endResetTest_started | apply startedAs_ite
          | apply startedAs_foldl | apply StartedAs.withSteeple | apply StartedAs.eq | dsimp only | split

theorem endResetsOf_started (code : Nat) (hit : ResetRun → Bool) {s : State} (hs : StartedAs ph s) : StartedAs ph (endResetsOf code hit s) := by
  unfold endResetsOf
  repeat' with_reducible
    first | assumption | intro _ | apply endReset_started | apply startedAs_ite | apply startedAs_foldl | apply StartedAs.eq | dsimp only
          | split

theorem startReaction_started (code : Nat) (port : Option Port) (degraded : Bool) {s : State} (hs : StartedAs ph s) : StartedAs ph (startReaction code port degraded s) := by
  unfold startReaction
  repeat' with_reducible
    first | assumption | intro _ | apply startedAs_ite | apply startedAs_foldl | apply StartedAs.withSteeple | apply StartedAs.eq
          | dsimp only | split

theorem enterDegraded_started (cls code : Nat) (port : Option Port) {s : State} (hs : StartedAs ph s) : StartedAs ph (enterDegraded cls code port s) := by
  unfold enterDegraded
  repeat' with_reducible
    first | assumption | intro _ | apply holdPort_started | apply holdHub_started | apply startedAs_ite | apply startedAs_foldl
          | apply StartedAs.withSteeple | apply StartedAs.eq | dsimp only | split

theorem openAll_started {s : State} (hs : StartedAs ph s) : StartedAs ph (openAll s) := by
  unfold openAll
  repeat' with_reducible
    first | assumption | intro _ | apply openByFault_started | apply startedAs_ite | apply startedAs_foldl | apply StartedAs.eq
          | dsimp only | split

theorem lockDegradedPort_started (p : Port) (code first : Nat) {s : State} (hs : StartedAs ph s) : StartedAs ph (lockDegradedPort p code first s) := by
  unfold lockDegradedPort
  repeat' with_reducible
    first | assumption | intro _ | apply addRecord_started | apply openByFault_started | apply setPortLock_started | apply startedAs_ite
          | apply startedAs_foldl | apply StartedAs.withSteeple | apply StartedAs.eq | dsimp only | split

theorem endHubMode_started (d : Degraded) {s : State} (hs : StartedAs ph s) : StartedAs ph (endHubMode d s) := by
  unfold endHubMode
  repeat' with_reducible
    first | assumption | intro _ | apply startedAs_ite | apply startedAs_foldl | apply StartedAs.withSteeple | apply StartedAs.eq
          | dsimp only | split

theorem dropDegraded_started {s : State} (hs : StartedAs ph s) : StartedAs ph (dropDegraded s) := by
  unfold dropDegraded
  have h1 : StartedAs ph (allPorts.foldl (fun s p => match s.steeple.portDegraded[p] with
      | some d => lockDegradedPort p d.code d.index s
      | none => s) s) := by
    refine startedAs_foldl (fun p s h => ?_) hs
    split
    · exact lockDegradedPort_started _ _ _ h
    · exact h
  dsimp only
  generalize List.foldl _ s allPorts = u at h1 ⊢
  have h2 : StartedAs ph (u.steeple.hubDegraded.elim u (fun d => endHubMode d u)) := by
    cases u.steeple.hubDegraded with
    | none => exact h1
    | some d => exact endHubMode_started d h1
  exact h2.withSteeple _

theorem noteDirty_started (code : Nat) (port : Option Port) {s : State} (hs : StartedAs ph s) : StartedAs ph (noteDirty code port s) := by
  unfold noteDirty
  repeat' with_reducible
    first | assumption | intro _ | apply State_modLane_started | apply startedAs_ite | apply startedAs_foldl | apply StartedAs.eq
          | dsimp only | split

theorem weldReaction_started (code : Nat) (port : Option Port) {s : State} (hs : StartedAs ph s) : StartedAs ph (weldReaction code port s) := by
  unfold weldReaction
  repeat' with_reducible
    first | assumption | intro _ | apply pulseSht_started | apply startedAs_ite | apply startedAs_foldl | apply StartedAs.eq | dsimp only
          | split

theorem nativeReaction_started (code : Nat) (port : Option Port) (detail : List Byte) {s : State} (hs : StartedAs ph s) : StartedAs ph (nativeReaction code port detail s) := by
  unfold nativeReaction
  repeat' with_reducible
    first | assumption | intro _ | apply addRecord_started | apply openByFault_started | apply holdPort_started | apply holdHub_started
          | apply startReaction_started | apply openAll_started | apply weldReaction_started | apply startedAs_ite | apply startedAs_foldl
          | apply StartedAs.eq | dsimp only | split

theorem escalate_started (code : Nat) (port : Option Port) (first : Reaction) (detail : List Byte) {s : State} (hs : StartedAs ph s) : StartedAs ph (escalate code port first detail s) := by
  unfold escalate
  repeat' with_reducible
    first | assumption | intro _ | apply addRecord_started | apply setHubLock_started | apply holdPort_started | apply holdHub_started
          | apply startReaction_started | apply openAll_started | apply dropDegraded_started | apply weldReaction_started
          | apply startedAs_ite | apply startedAs_foldl | apply StartedAs.eq | dsimp only | split

theorem dependent_started (code : Nat) (port : Option Port) (first : Reaction) (detail : List Byte) {s : State} (hs : StartedAs ph s) : StartedAs ph (dependent code port first detail s) := by
  unfold dependent
  repeat' with_reducible
    first | assumption | intro _ | apply addRecord_started | apply holdPort_started | apply holdHub_started | apply openAll_started
          | apply dropDegraded_started | apply weldReaction_started | apply startedAs_ite | apply startedAs_foldl | apply StartedAs.eq
          | dsimp only | split

theorem noteFatal_started (code : Nat) {s : State} (hs : StartedAs ph s) : StartedAs ph (noteFatal code s) := by
  unfold noteFatal
  repeat' with_reducible
    first | assumption | intro _ | apply startedAs_ite | apply startedAs_foldl | apply StartedAs.withSteeple | apply StartedAs.eq
          | dsimp only | split

theorem decideNew_started (code : Nat) (port : Option Port) (detail : List Byte) (ownOpening : Bool) {s : State} (hs : StartedAs ph s) : StartedAs ph (decideNew code port detail ownOpening s) := by
  unfold decideNew
  repeat' with_reducible
    first | assumption | intro _ | apply addRecord_started | apply startReaction_started | apply enterDegraded_started
          | apply nativeReaction_started | apply escalate_started | apply dependent_started | apply startedAs_ite | apply startedAs_foldl
          | apply StartedAs.eq | dsimp only | split

theorem decideFault_started (code : Nat) (port : Option Port) (detail : List Byte) (ownOpening : Bool) {s0 : State} (hs : StartedAs ph s0) : StartedAs ph (decideFault code port detail ownOpening s0) := by
  unfold decideFault
  repeat' with_reducible
    first | assumption | intro _ | apply addRecord_started | apply endResetsOf_started | apply noteDirty_started | apply noteFatal_started
          | apply decideNew_started | apply startedAs_ite | apply startedAs_foldl | apply StartedAs.eq | dsimp only | split

theorem afterSave_started (w : SaveFor) {s : State} (hs : StartedAs ph s) : StartedAs ph (afterSave s w) := by
  unfold afterSave
  repeat' with_reducible
    first | assumption | intro _ | apply finish_started | apply startedAs_ite | apply startedAs_foldl | apply StartedAs.withPower
          | apply StartedAs.eq | dsimp only | split

theorem setProgram_started (handle : Nat) (st : ProgramState) {s : State} (hs : StartedAs ph s) : StartedAs ph (setProgram handle st s) := by
  unfold setProgram
  repeat' with_reducible
    first | assumption | intro _ | apply setBody_started | apply startedAs_ite | apply startedAs_foldl | apply StartedAs.eq | dsimp only
          | split

theorem programLog_started (origin handle old new_ : Nat) {s : State} (hs : StartedAs ph s) : StartedAs ph (programLog origin handle old new_ s) := by
  unfold programLog
  repeat' with_reducible
    first | assumption | intro _ | apply keepLog_started | apply startedAs_ite | apply startedAs_foldl | apply StartedAs.eq | dsimp only
          | split

theorem programChanged_started (c : Nat × Nat × Nat) {s : State} (hs : StartedAs ph s) : StartedAs ph (programChanged s c) := by
  unfold programChanged
  repeat' with_reducible
    first | assumption | intro _ | apply raise_started | apply setProgram_started | apply programLog_started | apply startedAs_ite
          | apply startedAs_foldl | apply StartedAs.eq | dsimp only | split

theorem finishTimeSet_started (count : Nat) (w : Waiting) {s : State} (hs : StartedAs ph s) : StartedAs ph (finishTimeSet count s w) := by
  unfold finishTimeSet
  repeat' with_reducible
    first | assumption | intro _ | apply count_started | apply raise_started | apply finish_started | apply startedAs_ite
          | apply startedAs_foldl | apply StartedAs.eq | dsimp only | split

theorem finishKeepWaiting_started (b : BoundaryWrite) {s : State} (hs : StartedAs ph s) : StartedAs ph (finishKeepWaiting b s) := by
  unfold finishKeepWaiting
  repeat' with_reducible
    first | assumption | intro _ | apply finish_started | apply finishTimeSet_started | apply startedAs_ite | apply startedAs_foldl
          | apply StartedAs.withKeep | apply StartedAs.eq | dsimp only | split

theorem commitWrite_started {s : State} (hs : StartedAs ph s) : StartedAs ph (commitWrite s) := by
  unfold commitWrite
  repeat' with_reducible
    first | assumption | intro _ | apply trace_started | apply raise_started | apply afterSave_started | apply programChanged_started
          | apply finishKeepWaiting_started | apply startedAs_ite | apply startedAs_foldl | apply StartedAs.withKeep | apply StartedAs.eq
          | dsimp only | split

theorem rebuildWrite_started (cause limit : Nat) (step : Option (Nat × Nat)) {s : State} (hs : StartedAs ph s) : StartedAs ph (rebuildWrite cause limit step s) := by
  unfold rebuildWrite
  repeat' with_reducible
    first | assumption | intro _ | apply programChanged_started | apply commitWrite_started | apply startedAs_ite | apply startedAs_foldl
          | apply StartedAs.withKeep | apply StartedAs.eq | dsimp only | split

theorem restoreSave_started (restored : Bool) {s : State} (hs : StartedAs ph s) : StartedAs ph (restoreSave restored s) := by
  unfold restoreSave
  repeat' with_reducible
    first | assumption | intro _ | apply startedAs_ite | apply startedAs_foldl | apply StartedAs.withDsp | apply StartedAs.withKeep
          | apply StartedAs.eq | dsimp only | split

theorem alignPrograms_started {s : State} (hs : StartedAs ph s) : StartedAs ph (alignPrograms s) := by
  unfold alignPrograms
  repeat' with_reducible
    first | assumption | intro _ | apply State_setChannels_started | apply startedAs_ite | apply startedAs_foldl | apply StartedAs.eq
          | dsimp only | split

theorem restoreKeep_started (restored : Bool) (cut : Nat) {s : State} (hs : StartedAs ph s) : StartedAs ph (restoreKeep restored cut s) := by
  unfold restoreKeep
  repeat' with_reducible
    first | assumption | intro _ | apply rebuildWrite_started | apply restoreSave_started | apply alignPrograms_started
          | apply startedAs_ite | apply startedAs_foldl | apply StartedAs.withKeep | apply StartedAs.eq | dsimp only | split

theorem powerFailReport_started (cut : Nat) {s : State} (hs : StartedAs ph s) : StartedAs ph (powerFailReport cut s) := by
  unfold powerFailReport
  repeat' with_reducible
    first | assumption | intro _ | apply raise_started | apply keepLog_started | apply startedAs_ite | apply startedAs_foldl
          | apply StartedAs.withKeep | apply StartedAs.eq | dsimp only | split

theorem raiseDestroyed_started (d : Nat × Nat × Nat) {s : State} (hs : StartedAs ph s) : StartedAs ph (raiseDestroyed d s) := by
  unfold raiseDestroyed
  repeat' with_reducible
    first | assumption | intro _ | apply raise_started | apply startedAs_ite | apply startedAs_foldl | apply StartedAs.eq | dsimp only
          | split

theorem enterCd1Loss_started {s : State} (hs : StartedAs ph s) : StartedAs ph (enterCd1Loss s) := by
  unfold enterCd1Loss
  repeat' with_reducible
    first | assumption | intro _ | apply decideFault_started | apply startedAs_ite | apply startedAs_foldl | apply StartedAs.withSteeple
          | apply StartedAs.eq | dsimp only | split

theorem endHubDegraded_started (d : Degraded) {s : State} (hs : StartedAs ph s) : StartedAs ph (endHubDegraded d s) := by
  unfold endHubDegraded
  repeat' with_reducible
    first | assumption | intro _ | apply addRecord_started | apply openAll_started | apply endHubMode_started | apply startedAs_ite
          | apply startedAs_foldl | apply StartedAs.withSteeple | apply StartedAs.eq | dsimp only | split

theorem State_withTelegram_started (t : Telegram) {s : State} (hs : StartedAs ph s) : StartedAs ph (State.withTelegram s t) := by
  unfold State.withTelegram
  repeat' with_reducible
    first | assumption | intro _ | apply startedAs_ite | apply startedAs_foldl | apply StartedAs.withSteeple | apply StartedAs.eq
          | dsimp only | split

theorem startTelegrams_started {s : State} (hs : StartedAs ph s) : StartedAs ph (startTelegrams s) := by
  unfold startTelegrams
  repeat' with_reducible
    first | assumption | intro _ | apply State_withTelegram_started | apply startedAs_ite | apply startedAs_foldl | apply StartedAs.eq
          | dsimp only | split

theorem releaseLantern_started (on : Bool) {s : State} (hs : StartedAs ph s) : StartedAs ph (releaseLantern on s) := by
  unfold releaseLantern
  repeat' with_reducible
    first | assumption | intro _ | apply startedAs_ite | apply startedAs_foldl | apply StartedAs.withLantern | apply StartedAs.eq
          | dsimp only | split

theorem logDuds_started {s : State} (hs : StartedAs ph s) : StartedAs ph (logDuds s) := by
  unfold logDuds
  repeat' with_reducible
    first | assumption | intro _ | apply logError_started | apply startedAs_ite | apply startedAs_foldl | apply StartedAs.eq | dsimp only
          | split

theorem markDisabled_started {s : State} (hs : StartedAs ph s) : StartedAs ph (markDisabled s) := by
  unfold markDisabled
  repeat' with_reducible
    first | assumption | intro _ | apply startedAs_ite | apply startedAs_foldl | apply StartedAs.withTurret | apply StartedAs.eq
          | dsimp only | split

theorem State_modBand_started (d : Band) (f : BandState → BandState) {s : State} (hs : StartedAs ph s) : StartedAs ph (State.modBand s d f) := by
  unfold State.modBand
  repeat' with_reducible
    first | assumption | intro _ | apply startedAs_ite | apply startedAs_foldl | apply StartedAs.withBelfry | apply StartedAs.eq
          | dsimp only | split

theorem setNeighbour_started (c : Channel) (b : NeighbourBody) {s : State} (hs : StartedAs ph s) : StartedAs ph (setNeighbour c b s) := by
  unfold setNeighbour
  repeat' with_reducible
    first | assumption | intro _ | apply setBody_started | apply startedAs_ite | apply startedAs_foldl | apply StartedAs.eq | dsimp only
          | split

theorem modLinkDir_started (address : Nat) (d : Band) (x : Direction) (f : LinkDir → LinkDir) {s : State} (hs : StartedAs ph s) : StartedAs ph (modLinkDir address d x f s) := by
  unfold modLinkDir
  repeat' with_reducible
    first | assumption | intro _ | apply setNeighbour_started | apply startedAs_ite | apply startedAs_foldl | apply StartedAs.eq
          | dsimp only | split

theorem raiseLink_started (address : Nat) (d : Band) (x : Direction) (change index : Nat) {s : State} (hs : StartedAs ph s) : StartedAs ph (raiseLink address d x change index s) := by
  unfold raiseLink
  repeat' with_reducible
    first | assumption | intro _ | apply raise_started | apply startedAs_ite | apply startedAs_foldl | apply StartedAs.eq | dsimp only
          | split

theorem raiseLeft_started (eui : List Byte) (address reason : Nat) {s : State} (hs : StartedAs ph s) : StartedAs ph (raiseLeft eui address reason s) := by
  unfold raiseLeft
  repeat' with_reducible
    first | assumption | intro _ | apply raise_started | apply startedAs_ite | apply startedAs_foldl | apply StartedAs.eq | dsimp only
          | split

theorem removeNode_started (eui : List Byte) {s : State} (hs : StartedAs ph s) : StartedAs ph (removeNode eui s) := by
  unfold removeNode
  repeat' with_reducible
    first | assumption | intro _ | apply destroyChannel_started | apply raiseLeft_started | apply startedAs_ite | apply startedAs_foldl
          | apply StartedAs.withBelfry | apply StartedAs.eq | dsimp only | split

theorem settleMessage_started (m : PlcMessage) (d : Band) (result attempts : Nat) {s : State} (hs : StartedAs ph s) : StartedAs ph (settleMessage m d result attempts s) := by
  unfold settleMessage
  repeat' with_reducible
    first | assumption | intro _ | apply finish_started | apply removeNode_started | apply startedAs_ite | apply startedAs_foldl
          | apply StartedAs.eq | dsimp only | split

theorem lapseDir_started (address : Nat) (d : Band) (x : Direction) {s : State} (hs : StartedAs ph s) : StartedAs ph (lapseDir address d s x) := by
  unfold lapseDir
  repeat' with_reducible
    first | assumption | intro _ | apply modLinkDir_started | apply raiseLink_started | apply startedAs_ite | apply startedAs_foldl
          | apply StartedAs.eq | dsimp only | split

theorem lapseBand_started (d : Band) {s : State} (hs : StartedAs ph s) : StartedAs ph (lapseBand d s) := by
  unfold lapseBand
  repeat' with_reducible
    first | assumption | intro _ | apply lapseDir_started | apply startedAs_ite | apply startedAs_foldl | apply StartedAs.eq | dsimp only
          | split

theorem settleBand_started (d : Band) {s : State} (hs : StartedAs ph s) : StartedAs ph (settleBand s d) := by
  unfold settleBand
  repeat' with_reducible
    first | assumption | intro _ | apply State_modBand_started | apply settleMessage_started | apply lapseBand_started
          | apply startedAs_ite | apply startedAs_foldl | apply StartedAs.eq | dsimp only | split

theorem settleBelfry_started {s : State} (hs : StartedAs ph s) : StartedAs ph (settleBelfry s) := by
  unfold settleBelfry
  repeat' with_reducible
    first | assumption | intro _ | apply settleBand_started | apply startedAs_ite | apply startedAs_foldl | apply StartedAs.withBelfry
          | apply StartedAs.eq | dsimp only | split

theorem noteSeal_started {s : State} (hs : StartedAs ph s) : StartedAs ph (noteSeal s) := by
  unfold noteSeal
  repeat' with_reducible
    first | assumption | intro _ | apply sealLog_started | apply startedAs_ite | apply startedAs_foldl | apply StartedAs.eq | dsimp only
          | split

theorem startLegal_started (sense : FuseSense) {s : State} (hs : StartedAs ph s) : StartedAs ph (startLegal sense s) := by
  unfold startLegal
  repeat' with_reducible
    first | assumption | intro _ | apply moveAonBuffer_started | apply noteSeal_started | apply startedAs_ite | apply startedAs_foldl
          | apply StartedAs.withLegal | apply StartedAs.eq | dsimp only | split

theorem State_setBank_started (i : Fin 2) (b : Bank) {s : State} (hs : StartedAs ph s) : StartedAs ph (State.setBank s i b) := by
  unfold State.setBank
  repeat' with_reducible
    first | assumption | intro _ | apply startedAs_ite | apply startedAs_foldl | apply StartedAs.withUpdate | apply StartedAs.eq
          | dsimp only | split

theorem updateEvent_started (code : Nat) (payload : List Byte) {s : State} (hs : StartedAs ph s) : StartedAs ph (updateEvent code payload s) := by
  unfold updateEvent
  repeat' with_reducible
    first | assumption | intro _ | apply raise_started | apply startedAs_ite | apply startedAs_foldl | apply StartedAs.withUpdate
          | apply StartedAs.eq | dsimp only | split

theorem writeSelector_started (f : Selector → Selector) (discarded : Bool) {s : State} (hs : StartedAs ph s) : StartedAs ph (writeSelector f discarded s) := by
  unfold writeSelector
  repeat' with_reducible
    first | assumption | intro _ | apply updateEvent_started | apply startedAs_ite | apply startedAs_foldl | apply StartedAs.withUpdate
          | apply StartedAs.eq | dsimp only | split

theorem finishConfirmation_started {s : State} (hs : StartedAs ph s) : StartedAs ph (finishConfirmation s) := by
  unfold finishConfirmation
  repeat' with_reducible
    first | assumption | intro _ | apply startedAs_ite | apply startedAs_foldl | apply StartedAs.withRotunda | apply StartedAs.withUpdate
          | apply StartedAs.eq | dsimp only | split

theorem fallBack_started (result : Nat) {s : State} (hs : StartedAs ph s) : StartedAs ph (fallBack result s) := by
  unfold fallBack
  repeat' with_reducible
    first | assumption | intro _ | apply writeSelector_started | apply startedAs_ite | apply startedAs_foldl | apply StartedAs.eq
          | dsimp only | split

theorem verifyPending_started (f : StartFacts) {s : State} (hs : StartedAs ph s) : StartedAs ph (verifyPending f s) := by
  unfold verifyPending
  repeat' with_reducible
    first | assumption | intro _ | apply State_setBank_started | apply writeSelector_started | apply fallBack_started
          | apply startedAs_ite | apply startedAs_foldl | apply StartedAs.withRotunda | apply StartedAs.eq | dsimp only | split

theorem countTrialBoot_started {s : State} (hs : StartedAs ph s) : StartedAs ph (countTrialBoot s) := by
  unfold countTrialBoot
  repeat' with_reducible
    first | assumption | intro _ | apply writeSelector_started | apply fallBack_started | apply startedAs_ite | apply startedAs_foldl
          | apply StartedAs.eq | dsimp only | split

theorem completeFuses_started {s : State} (hs : StartedAs ph s) : StartedAs ph (completeFuses s) := by
  unfold completeFuses
  repeat' with_reducible
    first | assumption | intro _ | apply finishConfirmation_started | apply startedAs_ite | apply startedAs_foldl | apply StartedAs.eq
          | dsimp only | split

theorem revertSettings_started {s : State} (hs : StartedAs ph s) : StartedAs ph (revertSettings s) := by
  unfold revertSettings
  repeat' with_reducible
    first | assumption | intro _ | apply startedAs_ite | apply startedAs_foldl | apply StartedAs.withRotunda | apply StartedAs.eq
          | dsimp only | split

theorem startTrial_started {s : State} (hs : StartedAs ph s) : StartedAs ph (startTrial s) := by
  unfold startTrial
  repeat' with_reducible
    first | assumption | intro _ | apply startedAs_ite | apply startedAs_foldl | apply StartedAs.withUpdate | apply StartedAs.eq
          | dsimp only | split

theorem regenerateRoot_started (array : List Nat) {s : State} (hs : StartedAs ph s) : StartedAs ph (regenerateRoot array s) := by
  unfold regenerateRoot
  repeat' with_reducible
    first | assumption | intro _ | apply startedAs_ite | apply startedAs_foldl | apply StartedAs.withCupola | apply StartedAs.eq
          | dsimp only | split

theorem startCupola_started (array : List Nat) (held : Bool) {s : State} (hs : StartedAs ph s) : StartedAs ph (startCupola array held s) := by
  unfold startCupola
  repeat' with_reducible
    first | assumption | intro _ | apply regenerateRoot_started | apply startedAs_ite | apply startedAs_foldl | apply StartedAs.withCupola
          | apply StartedAs.eq | dsimp only | split

theorem lockPendingPort_started (p : Port) {s : State} (hs : StartedAs ph s) : StartedAs ph (lockPendingPort s p) := by
  unfold lockPendingPort
  repeat' with_reducible
    first | assumption | intro _ | apply lockDegradedPort_started | apply startedAs_ite | apply startedAs_foldl | apply StartedAs.eq
          | dsimp only | split

theorem dropPullUps_started (ps : List PulledPin) {s : State} (hs : StartedAs ph s) : StartedAs ph (dropPullUps ps s) := by
  unfold dropPullUps
  repeat' with_reducible
    first | assumption | intro _ | apply startedAs_ite | apply startedAs_foldl | apply StartedAs.withPower | apply StartedAs.eq
          | dsimp only | split

theorem startSteeple_started (selfTestOk : Bool) {s : State} (hs : StartedAs ph s) : StartedAs ph (startSteeple selfTestOk s) := by
  unfold startSteeple
  repeat' with_reducible
    first | assumption | intro _ | apply State_draw_started | apply grantPermits_started | apply decideFault_started
          | apply enterCd1Loss_started | apply endHubDegraded_started | apply startTelegrams_started | apply lockPendingPort_started
          | apply dropPullUps_started | apply startedAs_ite | apply startedAs_foldl | apply StartedAs.withTurret
          | apply StartedAs.withSteeple | apply StartedAs.eq | dsimp only | split

theorem settleMark_started {s : State} (hs : StartedAs ph s) : StartedAs ph (settleMark s) := by
  unfold settleMark
  repeat' with_reducible
    first | assumption | intro _ | apply powerFailReport_started | apply startedAs_ite | apply startedAs_foldl | apply StartedAs.withKeep
          | apply StartedAs.withPower | apply StartedAs.eq | dsimp only | split

theorem noteSoftware_started {s : State} (hs : StartedAs ph s) : StartedAs ph (noteSoftware s) := by
  unfold noteSoftware
  repeat' with_reducible
    first | assumption | intro _ | apply keepLog_started | apply startedAs_ite | apply startedAs_foldl | apply StartedAs.withLegal
          | apply StartedAs.eq | dsimp only | split

theorem startKeep_started (fuse : FuseSense) {s0 : State} (hs : StartedAs ph s0) : StartedAs ph (startKeep fuse s0) := by
  unfold startKeep
  repeat' with_reducible
    first | assumption | intro _ | apply restoreKeep_started | apply startLegal_started | apply dropPullUps_started
          | apply settleMark_started | apply noteSoftware_started | apply startedAs_ite | apply startedAs_foldl | apply StartedAs.eq
          | dsimp only | split

theorem startTurret_started {s : State} (hs : StartedAs ph s) : StartedAs ph (startTurret s) := by
  unfold startTurret
  repeat' with_reducible
    first | assumption | intro _ | apply markDisabled_started | apply dropPullUps_started | apply startedAs_ite | apply startedAs_foldl
          | apply StartedAs.withTurret | apply StartedAs.eq | dsimp only | split

theorem interruptSession_started (c : Channel) {s : State} (hs : StartedAs ph s) : StartedAs ph (interruptSession s c) := by
  unfold interruptSession
  repeat' with_reducible
    first | assumption | intro _ | apply raise_started | apply setSession_started | apply wantSessionRecord_started | apply startedAs_ite
          | apply startedAs_foldl | apply StartedAs.eq | dsimp only | split

theorem noteInterrupted_started (p : Port) {s : State} (hs : StartedAs ph s) : StartedAs ph (noteInterrupted s p) := by
  unfold noteInterrupted
  repeat' with_reducible
    first | assumption | intro _ | apply startedAs_ite | apply startedAs_foldl | apply StartedAs.withTurret | apply StartedAs.eq
          | dsimp only | split

theorem startRotunda_started {s : State} (hs : StartedAs ph s) : StartedAs ph (startRotunda s) := by
  unfold startRotunda
  repeat' with_reducible
    first | assumption | intro _ | apply dropPullUps_started | apply interruptSession_started | apply noteInterrupted_started
          | apply startedAs_ite | apply startedAs_foldl | apply StartedAs.withRotunda | apply StartedAs.eq | dsimp only | split

theorem raiseKeyEvents_started (tried : Bool) {s : State} (hs : StartedAs ph s) : StartedAs ph (raiseKeyEvents tried s) := by
  unfold raiseKeyEvents
  repeat' with_reducible
    first | assumption | intro _ | apply State_draw_started | apply raise_started | apply raiseDestroyed_started | apply startedAs_ite
          | apply startedAs_foldl | apply StartedAs.withCupola | apply StartedAs.eq | dsimp only | split

theorem raiseStarted_started {s : State} (hs : StartedAs ph s) : StartedAs ph (raiseStarted s) := by
  unfold raiseStarted
  repeat' with_reducible
    first | assumption | intro _ | apply raise_started | apply startedAs_ite | apply startedAs_foldl | apply StartedAs.eq | dsimp only
          | split

theorem startLantern_started (on : Bool) {s : State} (hs : StartedAs ph s) : StartedAs ph (startLantern on s) := by
  unfold startLantern
  repeat' with_reducible
    first | assumption | intro _ | apply releaseLantern_started | apply dropPullUps_started | apply startedAs_ite | apply startedAs_foldl
          | apply StartedAs.eq | dsimp only | split

theorem release_started (c : Clock) {k : State → State} (hk : ∀ u, StartedAs ph u → StartedAs ph (k u)) {s : State} (hs : StartedAs ph s) :
    StartedAs ph (s.release c k) := by
  unfold State.release
  exact startedAs_ite hs (hk s hs)

/-- The release order: the device runs, with the islands it holds, its option block and its time of start. -/
theorem startIslands_started (f : StartFacts) (faults : List Clock) (s : State) :
    StartedAs (.running, faults, s.power.inForce, s.now) (startIslands f faults s) := by
  unfold startIslands
  refine startTrial_started (raiseStarted_started (raiseKeyEvents_started _ ?_))
  refine release_started _ (fun u h => startLantern_started _ h) (release_started _ (fun u h => settleBelfry_started (dropPullUps_started _ h))
    (release_started _ (fun u h => startRotunda_started h) (release_started _ (fun u h => startTurret_started h)
    (release_started _ (fun u h => startKeep_started _ h) (release_started _ (fun u h => startSteeple_started _ h) ⟨rfl⟩)))))

/-- The boot's check of the bundle leaves them alone. -/
theorem bootCheck_started (f : StartFacts) {s u : State} (hs : StartedAs ph s) (h : bootCheck f s = some u) : StartedAs ph u := by
  have h1 : StartedAs ph (if s.update.selector.state = 1 then verifyPending f s
      else if s.update.selector.state = 2 then countTrialBoot s else s) :=
    startedAs_ite (verifyPending_started f hs) (startedAs_ite (countTrialBoot_started hs) hs)
  unfold bootCheck at h
  dsimp only at h
  generalize (if s.update.selector.state = 1 then verifyPending f s
      else if s.update.selector.state = 2 then countTrialBoot s else s) = v at h h1
  have h2 : ∀ w, chooseBank f v = some w → StartedAs ph w := by
    intro w hw
    unfold chooseBank at hw
    dsimp only at hw
    split at hw
    · cases hw; exact h1
    · split at hw
      · cases hw; exact State_setBank_started _ _ h1
      · split at hw
        · cases hw; exact fallBack_started _ h1
        · cases hw
  cases hc : chooseBank f v with
  | none => rw [hc] at h; cases h
  | some w =>
    rw [hc] at h
    cases h
    exact revertSettings_started (completeFuses_started (h2 w hc))

end Sys2Proof.Machine
end

