-- ==== Sys2Proof/Laws/State.lean ====
section
/-! SUPPORT. What each named update of the state leaves and sets: one lemma per update and field. -/

namespace Sys2Proof.Machine

section
variable (s : State) (x : Rotunda)
@[simp] theorem withRotunda_now : (s.withRotunda x).now = s.now := rfl
@[simp] theorem withRotunda_civil : (s.withRotunda x).civil = s.civil := rfl
@[simp] theorem withRotunda_free : (s.withRotunda x).free = s.free := rfl
@[simp] theorem withRotunda_rotunda : (s.withRotunda x).rotunda = x := rfl
@[simp] theorem withRotunda_turret : (s.withRotunda x).turret = s.turret := rfl
@[simp] theorem withRotunda_steeple : (s.withRotunda x).steeple = s.steeple := rfl
@[simp] theorem withRotunda_dsp : (s.withRotunda x).dsp = s.dsp := rfl
@[simp] theorem withRotunda_keep : (s.withRotunda x).keep = s.keep := rfl
@[simp] theorem withRotunda_legal : (s.withRotunda x).legal = s.legal := rfl
@[simp] theorem withRotunda_belfry : (s.withRotunda x).belfry = s.belfry := rfl
@[simp] theorem withRotunda_oculus : (s.withRotunda x).oculus = s.oculus := rfl
@[simp] theorem withRotunda_cupola : (s.withRotunda x).cupola = s.cupola := rfl
@[simp] theorem withRotunda_memory : (s.withRotunda x).memory = s.memory := rfl
@[simp] theorem withRotunda_update : (s.withRotunda x).update = s.update := rfl
@[simp] theorem withRotunda_power : (s.withRotunda x).power = s.power := rfl
@[simp] theorem withRotunda_lantern : (s.withRotunda x).lantern = s.lantern := rfl
@[simp] theorem withRotunda_pending : (s.withRotunda x).pending = s.pending := rfl
@[simp] theorem withRotunda_lane (p : Port) : (s.withRotunda x).lane p = s.lane p := rfl
@[simp] theorem withRotunda_time : (s.withRotunda x).time = s.time := rfl
@[simp] theorem withRotunda_serves : (s.withRotunda x).serves = s.serves := rfl
@[simp] theorem withRotunda_turretUp : (s.withRotunda x).turretUp = s.turretUp := rfl
@[simp] theorem withRotunda_steepleUp : (s.withRotunda x).steepleUp = s.steepleUp := rfl
@[simp] theorem withRotunda_up (c : Clock) : (s.withRotunda x).up c = s.up c := rfl
end

section
variable (s : State) (x : Turret)
@[simp] theorem withTurret_now : (s.withTurret x).now = s.now := rfl
@[simp] theorem withTurret_civil : (s.withTurret x).civil = s.civil := rfl
@[simp] theorem withTurret_free : (s.withTurret x).free = s.free := rfl
@[simp] theorem withTurret_rotunda : (s.withTurret x).rotunda = s.rotunda := rfl
@[simp] theorem withTurret_turret : (s.withTurret x).turret = x := rfl
@[simp] theorem withTurret_steeple : (s.withTurret x).steeple = s.steeple := rfl
@[simp] theorem withTurret_dsp : (s.withTurret x).dsp = s.dsp := rfl
@[simp] theorem withTurret_keep : (s.withTurret x).keep = s.keep := rfl
@[simp] theorem withTurret_legal : (s.withTurret x).legal = s.legal := rfl
@[simp] theorem withTurret_belfry : (s.withTurret x).belfry = s.belfry := rfl
@[simp] theorem withTurret_oculus : (s.withTurret x).oculus = s.oculus := rfl
@[simp] theorem withTurret_cupola : (s.withTurret x).cupola = s.cupola := rfl
@[simp] theorem withTurret_memory : (s.withTurret x).memory = s.memory := rfl
@[simp] theorem withTurret_update : (s.withTurret x).update = s.update := rfl
@[simp] theorem withTurret_power : (s.withTurret x).power = s.power := rfl
@[simp] theorem withTurret_lantern : (s.withTurret x).lantern = s.lantern := rfl
@[simp] theorem withTurret_pending : (s.withTurret x).pending = s.pending := rfl
@[simp] theorem withTurret_box (b : Box) : (s.withTurret x).box b = s.box b := rfl
@[simp] theorem withTurret_time : (s.withTurret x).time = s.time := rfl
@[simp] theorem withTurret_serves : (s.withTurret x).serves = s.serves := rfl
@[simp] theorem withTurret_turretUp : (s.withTurret x).turretUp = s.turretUp := rfl
@[simp] theorem withTurret_steepleUp : (s.withTurret x).steepleUp = s.steepleUp := rfl
@[simp] theorem withTurret_up (c : Clock) : (s.withTurret x).up c = s.up c := rfl
end

section
variable (s : State) (x : Steeple)
@[simp] theorem withSteeple_now : (s.withSteeple x).now = s.now := rfl
@[simp] theorem withSteeple_civil : (s.withSteeple x).civil = s.civil := rfl
@[simp] theorem withSteeple_free : (s.withSteeple x).free = s.free := rfl
@[simp] theorem withSteeple_rotunda : (s.withSteeple x).rotunda = s.rotunda := rfl
@[simp] theorem withSteeple_turret : (s.withSteeple x).turret = s.turret := rfl
@[simp] theorem withSteeple_steeple : (s.withSteeple x).steeple = x := rfl
@[simp] theorem withSteeple_dsp : (s.withSteeple x).dsp = s.dsp := rfl
@[simp] theorem withSteeple_keep : (s.withSteeple x).keep = s.keep := rfl
@[simp] theorem withSteeple_legal : (s.withSteeple x).legal = s.legal := rfl
@[simp] theorem withSteeple_belfry : (s.withSteeple x).belfry = s.belfry := rfl
@[simp] theorem withSteeple_oculus : (s.withSteeple x).oculus = s.oculus := rfl
@[simp] theorem withSteeple_cupola : (s.withSteeple x).cupola = s.cupola := rfl
@[simp] theorem withSteeple_memory : (s.withSteeple x).memory = s.memory := rfl
@[simp] theorem withSteeple_update : (s.withSteeple x).update = s.update := rfl
@[simp] theorem withSteeple_power : (s.withSteeple x).power = s.power := rfl
@[simp] theorem withSteeple_lantern : (s.withSteeple x).lantern = s.lantern := rfl
@[simp] theorem withSteeple_pending : (s.withSteeple x).pending = s.pending := rfl
@[simp] theorem withSteeple_box (b : Box) : (s.withSteeple x).box b = s.box b := rfl
@[simp] theorem withSteeple_lane (p : Port) : (s.withSteeple x).lane p = s.lane p := rfl
@[simp] theorem withSteeple_time : (s.withSteeple x).time = s.time := rfl
@[simp] theorem withSteeple_serves : (s.withSteeple x).serves = s.serves := rfl
@[simp] theorem withSteeple_turretUp : (s.withSteeple x).turretUp = s.turretUp := rfl
@[simp] theorem withSteeple_steepleUp : (s.withSteeple x).steepleUp = s.steepleUp := rfl
@[simp] theorem withSteeple_up (c : Clock) : (s.withSteeple x).up c = s.up c := rfl
end

section
variable (s : State) (x : Dsp)
@[simp] theorem withDsp_now : (s.withDsp x).now = s.now := rfl
@[simp] theorem withDsp_civil : (s.withDsp x).civil = s.civil := rfl
@[simp] theorem withDsp_free : (s.withDsp x).free = s.free := rfl
@[simp] theorem withDsp_rotunda : (s.withDsp x).rotunda = s.rotunda := rfl
@[simp] theorem withDsp_turret : (s.withDsp x).turret = s.turret := rfl
@[simp] theorem withDsp_steeple : (s.withDsp x).steeple = s.steeple := rfl
@[simp] theorem withDsp_dsp : (s.withDsp x).dsp = x := rfl
@[simp] theorem withDsp_keep : (s.withDsp x).keep = s.keep := rfl
@[simp] theorem withDsp_legal : (s.withDsp x).legal = s.legal := rfl
@[simp] theorem withDsp_belfry : (s.withDsp x).belfry = s.belfry := rfl
@[simp] theorem withDsp_oculus : (s.withDsp x).oculus = s.oculus := rfl
@[simp] theorem withDsp_cupola : (s.withDsp x).cupola = s.cupola := rfl
@[simp] theorem withDsp_memory : (s.withDsp x).memory = s.memory := rfl
@[simp] theorem withDsp_update : (s.withDsp x).update = s.update := rfl
@[simp] theorem withDsp_power : (s.withDsp x).power = s.power := rfl
@[simp] theorem withDsp_lantern : (s.withDsp x).lantern = s.lantern := rfl
@[simp] theorem withDsp_pending : (s.withDsp x).pending = s.pending := rfl
@[simp] theorem withDsp_box (b : Box) : (s.withDsp x).box b = s.box b := rfl
@[simp] theorem withDsp_lane (p : Port) : (s.withDsp x).lane p = s.lane p := rfl
@[simp] theorem withDsp_time : (s.withDsp x).time = s.time := rfl
@[simp] theorem withDsp_serves : (s.withDsp x).serves = s.serves := rfl
@[simp] theorem withDsp_turretUp : (s.withDsp x).turretUp = s.turretUp := rfl
@[simp] theorem withDsp_steepleUp : (s.withDsp x).steepleUp = s.steepleUp := rfl
@[simp] theorem withDsp_up (c : Clock) : (s.withDsp x).up c = s.up c := rfl
end

section
variable (s : State) (x : Keep)
@[simp] theorem withKeep_now : (s.withKeep x).now = s.now := rfl
@[simp] theorem withKeep_civil : (s.withKeep x).civil = s.civil := rfl
@[simp] theorem withKeep_free : (s.withKeep x).free = s.free := rfl
@[simp] theorem withKeep_rotunda : (s.withKeep x).rotunda = s.rotunda := rfl
@[simp] theorem withKeep_turret : (s.withKeep x).turret = s.turret := rfl
@[simp] theorem withKeep_steeple : (s.withKeep x).steeple = s.steeple := rfl
@[simp] theorem withKeep_dsp : (s.withKeep x).dsp = s.dsp := rfl
@[simp] theorem withKeep_keep : (s.withKeep x).keep = x := rfl
@[simp] theorem withKeep_legal : (s.withKeep x).legal = s.legal := rfl
@[simp] theorem withKeep_belfry : (s.withKeep x).belfry = s.belfry := rfl
@[simp] theorem withKeep_oculus : (s.withKeep x).oculus = s.oculus := rfl
@[simp] theorem withKeep_cupola : (s.withKeep x).cupola = s.cupola := rfl
@[simp] theorem withKeep_memory : (s.withKeep x).memory = s.memory := rfl
@[simp] theorem withKeep_update : (s.withKeep x).update = s.update := rfl
@[simp] theorem withKeep_power : (s.withKeep x).power = s.power := rfl
@[simp] theorem withKeep_lantern : (s.withKeep x).lantern = s.lantern := rfl
@[simp] theorem withKeep_pending : (s.withKeep x).pending = s.pending := rfl
@[simp] theorem withKeep_box (b : Box) : (s.withKeep x).box b = s.box b := rfl
@[simp] theorem withKeep_lane (p : Port) : (s.withKeep x).lane p = s.lane p := rfl
@[simp] theorem withKeep_time : (s.withKeep x).time = s.time := rfl
@[simp] theorem withKeep_serves : (s.withKeep x).serves = s.serves := rfl
@[simp] theorem withKeep_turretUp : (s.withKeep x).turretUp = s.turretUp := rfl
@[simp] theorem withKeep_steepleUp : (s.withKeep x).steepleUp = s.steepleUp := rfl
@[simp] theorem withKeep_up (c : Clock) : (s.withKeep x).up c = s.up c := rfl
end

section
variable (s : State) (x : Legal)
@[simp] theorem withLegal_now : (s.withLegal x).now = s.now := rfl
@[simp] theorem withLegal_civil : (s.withLegal x).civil = s.civil := rfl
@[simp] theorem withLegal_free : (s.withLegal x).free = s.free := rfl
@[simp] theorem withLegal_rotunda : (s.withLegal x).rotunda = s.rotunda := rfl
@[simp] theorem withLegal_turret : (s.withLegal x).turret = s.turret := rfl
@[simp] theorem withLegal_steeple : (s.withLegal x).steeple = s.steeple := rfl
@[simp] theorem withLegal_dsp : (s.withLegal x).dsp = s.dsp := rfl
@[simp] theorem withLegal_keep : (s.withLegal x).keep = s.keep := rfl
@[simp] theorem withLegal_legal : (s.withLegal x).legal = x := rfl
@[simp] theorem withLegal_belfry : (s.withLegal x).belfry = s.belfry := rfl
@[simp] theorem withLegal_oculus : (s.withLegal x).oculus = s.oculus := rfl
@[simp] theorem withLegal_cupola : (s.withLegal x).cupola = s.cupola := rfl
@[simp] theorem withLegal_memory : (s.withLegal x).memory = s.memory := rfl
@[simp] theorem withLegal_update : (s.withLegal x).update = s.update := rfl
@[simp] theorem withLegal_power : (s.withLegal x).power = s.power := rfl
@[simp] theorem withLegal_lantern : (s.withLegal x).lantern = s.lantern := rfl
@[simp] theorem withLegal_pending : (s.withLegal x).pending = s.pending := rfl
@[simp] theorem withLegal_box (b : Box) : (s.withLegal x).box b = s.box b := rfl
@[simp] theorem withLegal_lane (p : Port) : (s.withLegal x).lane p = s.lane p := rfl
@[simp] theorem withLegal_time : (s.withLegal x).time = s.time := rfl
@[simp] theorem withLegal_serves : (s.withLegal x).serves = s.serves := rfl
@[simp] theorem withLegal_turretUp : (s.withLegal x).turretUp = s.turretUp := rfl
@[simp] theorem withLegal_steepleUp : (s.withLegal x).steepleUp = s.steepleUp := rfl
@[simp] theorem withLegal_up (c : Clock) : (s.withLegal x).up c = s.up c := rfl
end

section
variable (s : State) (x : Belfry)
@[simp] theorem withBelfry_now : (s.withBelfry x).now = s.now := rfl
@[simp] theorem withBelfry_civil : (s.withBelfry x).civil = s.civil := rfl
@[simp] theorem withBelfry_free : (s.withBelfry x).free = s.free := rfl
@[simp] theorem withBelfry_rotunda : (s.withBelfry x).rotunda = s.rotunda := rfl
@[simp] theorem withBelfry_turret : (s.withBelfry x).turret = s.turret := rfl
@[simp] theorem withBelfry_steeple : (s.withBelfry x).steeple = s.steeple := rfl
@[simp] theorem withBelfry_dsp : (s.withBelfry x).dsp = s.dsp := rfl
@[simp] theorem withBelfry_keep : (s.withBelfry x).keep = s.keep := rfl
@[simp] theorem withBelfry_legal : (s.withBelfry x).legal = s.legal := rfl
@[simp] theorem withBelfry_belfry : (s.withBelfry x).belfry = x := rfl
@[simp] theorem withBelfry_oculus : (s.withBelfry x).oculus = s.oculus := rfl
@[simp] theorem withBelfry_cupola : (s.withBelfry x).cupola = s.cupola := rfl
@[simp] theorem withBelfry_memory : (s.withBelfry x).memory = s.memory := rfl
@[simp] theorem withBelfry_update : (s.withBelfry x).update = s.update := rfl
@[simp] theorem withBelfry_power : (s.withBelfry x).power = s.power := rfl
@[simp] theorem withBelfry_lantern : (s.withBelfry x).lantern = s.lantern := rfl
@[simp] theorem withBelfry_pending : (s.withBelfry x).pending = s.pending := rfl
@[simp] theorem withBelfry_box (b : Box) : (s.withBelfry x).box b = s.box b := rfl
@[simp] theorem withBelfry_lane (p : Port) : (s.withBelfry x).lane p = s.lane p := rfl
@[simp] theorem withBelfry_time : (s.withBelfry x).time = s.time := rfl
@[simp] theorem withBelfry_serves : (s.withBelfry x).serves = s.serves := rfl
@[simp] theorem withBelfry_turretUp : (s.withBelfry x).turretUp = s.turretUp := rfl
@[simp] theorem withBelfry_steepleUp : (s.withBelfry x).steepleUp = s.steepleUp := rfl
@[simp] theorem withBelfry_up (c : Clock) : (s.withBelfry x).up c = s.up c := rfl
end

section
variable (s : State) (x : Oculus)
@[simp] theorem withOculus_now : (s.withOculus x).now = s.now := rfl
@[simp] theorem withOculus_civil : (s.withOculus x).civil = s.civil := rfl
@[simp] theorem withOculus_free : (s.withOculus x).free = s.free := rfl
@[simp] theorem withOculus_rotunda : (s.withOculus x).rotunda = s.rotunda := rfl
@[simp] theorem withOculus_turret : (s.withOculus x).turret = s.turret := rfl
@[simp] theorem withOculus_steeple : (s.withOculus x).steeple = s.steeple := rfl
@[simp] theorem withOculus_dsp : (s.withOculus x).dsp = s.dsp := rfl
@[simp] theorem withOculus_keep : (s.withOculus x).keep = s.keep := rfl
@[simp] theorem withOculus_legal : (s.withOculus x).legal = s.legal := rfl
@[simp] theorem withOculus_belfry : (s.withOculus x).belfry = s.belfry := rfl
@[simp] theorem withOculus_oculus : (s.withOculus x).oculus = x := rfl
@[simp] theorem withOculus_cupola : (s.withOculus x).cupola = s.cupola := rfl
@[simp] theorem withOculus_memory : (s.withOculus x).memory = s.memory := rfl
@[simp] theorem withOculus_update : (s.withOculus x).update = s.update := rfl
@[simp] theorem withOculus_power : (s.withOculus x).power = s.power := rfl
@[simp] theorem withOculus_lantern : (s.withOculus x).lantern = s.lantern := rfl
@[simp] theorem withOculus_pending : (s.withOculus x).pending = s.pending := rfl
@[simp] theorem withOculus_box (b : Box) : (s.withOculus x).box b = s.box b := rfl
@[simp] theorem withOculus_lane (p : Port) : (s.withOculus x).lane p = s.lane p := rfl
@[simp] theorem withOculus_time : (s.withOculus x).time = s.time := rfl
@[simp] theorem withOculus_serves : (s.withOculus x).serves = s.serves := rfl
@[simp] theorem withOculus_turretUp : (s.withOculus x).turretUp = s.turretUp := rfl
@[simp] theorem withOculus_steepleUp : (s.withOculus x).steepleUp = s.steepleUp := rfl
@[simp] theorem withOculus_up (c : Clock) : (s.withOculus x).up c = s.up c := rfl
end

section
variable (s : State) (x : Cupola)
@[simp] theorem withCupola_now : (s.withCupola x).now = s.now := rfl
@[simp] theorem withCupola_civil : (s.withCupola x).civil = s.civil := rfl
@[simp] theorem withCupola_free : (s.withCupola x).free = s.free := rfl
@[simp] theorem withCupola_rotunda : (s.withCupola x).rotunda = s.rotunda := rfl
@[simp] theorem withCupola_turret : (s.withCupola x).turret = s.turret := rfl
@[simp] theorem withCupola_steeple : (s.withCupola x).steeple = s.steeple := rfl
@[simp] theorem withCupola_dsp : (s.withCupola x).dsp = s.dsp := rfl
@[simp] theorem withCupola_keep : (s.withCupola x).keep = s.keep := rfl
@[simp] theorem withCupola_legal : (s.withCupola x).legal = s.legal := rfl
@[simp] theorem withCupola_belfry : (s.withCupola x).belfry = s.belfry := rfl
@[simp] theorem withCupola_oculus : (s.withCupola x).oculus = s.oculus := rfl
@[simp] theorem withCupola_cupola : (s.withCupola x).cupola = x := rfl
@[simp] theorem withCupola_memory : (s.withCupola x).memory = s.memory := rfl
@[simp] theorem withCupola_update : (s.withCupola x).update = s.update := rfl
@[simp] theorem withCupola_power : (s.withCupola x).power = s.power := rfl
@[simp] theorem withCupola_lantern : (s.withCupola x).lantern = s.lantern := rfl
@[simp] theorem withCupola_pending : (s.withCupola x).pending = s.pending := rfl
@[simp] theorem withCupola_box (b : Box) : (s.withCupola x).box b = s.box b := rfl
@[simp] theorem withCupola_lane (p : Port) : (s.withCupola x).lane p = s.lane p := rfl
@[simp] theorem withCupola_time : (s.withCupola x).time = s.time := rfl
@[simp] theorem withCupola_serves : (s.withCupola x).serves = s.serves := rfl
@[simp] theorem withCupola_turretUp : (s.withCupola x).turretUp = s.turretUp := rfl
@[simp] theorem withCupola_steepleUp : (s.withCupola x).steepleUp = s.steepleUp := rfl
@[simp] theorem withCupola_up (c : Clock) : (s.withCupola x).up c = s.up c := rfl
end

section
variable (s : State) (x : Memory)
@[simp] theorem withMemory_now : (s.withMemory x).now = s.now := rfl
@[simp] theorem withMemory_civil : (s.withMemory x).civil = s.civil := rfl
@[simp] theorem withMemory_free : (s.withMemory x).free = s.free := rfl
@[simp] theorem withMemory_rotunda : (s.withMemory x).rotunda = s.rotunda := rfl
@[simp] theorem withMemory_turret : (s.withMemory x).turret = s.turret := rfl
@[simp] theorem withMemory_steeple : (s.withMemory x).steeple = s.steeple := rfl
@[simp] theorem withMemory_dsp : (s.withMemory x).dsp = s.dsp := rfl
@[simp] theorem withMemory_keep : (s.withMemory x).keep = s.keep := rfl
@[simp] theorem withMemory_legal : (s.withMemory x).legal = s.legal := rfl
@[simp] theorem withMemory_belfry : (s.withMemory x).belfry = s.belfry := rfl
@[simp] theorem withMemory_oculus : (s.withMemory x).oculus = s.oculus := rfl
@[simp] theorem withMemory_cupola : (s.withMemory x).cupola = s.cupola := rfl
@[simp] theorem withMemory_memory : (s.withMemory x).memory = x := rfl
@[simp] theorem withMemory_update : (s.withMemory x).update = s.update := rfl
@[simp] theorem withMemory_power : (s.withMemory x).power = s.power := rfl
@[simp] theorem withMemory_lantern : (s.withMemory x).lantern = s.lantern := rfl
@[simp] theorem withMemory_pending : (s.withMemory x).pending = s.pending := rfl
@[simp] theorem withMemory_box (b : Box) : (s.withMemory x).box b = s.box b := rfl
@[simp] theorem withMemory_lane (p : Port) : (s.withMemory x).lane p = s.lane p := rfl
@[simp] theorem withMemory_time : (s.withMemory x).time = s.time := rfl
@[simp] theorem withMemory_serves : (s.withMemory x).serves = s.serves := rfl
@[simp] theorem withMemory_turretUp : (s.withMemory x).turretUp = s.turretUp := rfl
@[simp] theorem withMemory_steepleUp : (s.withMemory x).steepleUp = s.steepleUp := rfl
@[simp] theorem withMemory_up (c : Clock) : (s.withMemory x).up c = s.up c := rfl
end

section
variable (s : State) (x : Update)
@[simp] theorem withUpdate_now : (s.withUpdate x).now = s.now := rfl
@[simp] theorem withUpdate_civil : (s.withUpdate x).civil = s.civil := rfl
@[simp] theorem withUpdate_free : (s.withUpdate x).free = s.free := rfl
@[simp] theorem withUpdate_rotunda : (s.withUpdate x).rotunda = s.rotunda := rfl
@[simp] theorem withUpdate_turret : (s.withUpdate x).turret = s.turret := rfl
@[simp] theorem withUpdate_steeple : (s.withUpdate x).steeple = s.steeple := rfl
@[simp] theorem withUpdate_dsp : (s.withUpdate x).dsp = s.dsp := rfl
@[simp] theorem withUpdate_keep : (s.withUpdate x).keep = s.keep := rfl
@[simp] theorem withUpdate_legal : (s.withUpdate x).legal = s.legal := rfl
@[simp] theorem withUpdate_belfry : (s.withUpdate x).belfry = s.belfry := rfl
@[simp] theorem withUpdate_oculus : (s.withUpdate x).oculus = s.oculus := rfl
@[simp] theorem withUpdate_cupola : (s.withUpdate x).cupola = s.cupola := rfl
@[simp] theorem withUpdate_memory : (s.withUpdate x).memory = s.memory := rfl
@[simp] theorem withUpdate_update : (s.withUpdate x).update = x := rfl
@[simp] theorem withUpdate_power : (s.withUpdate x).power = s.power := rfl
@[simp] theorem withUpdate_lantern : (s.withUpdate x).lantern = s.lantern := rfl
@[simp] theorem withUpdate_pending : (s.withUpdate x).pending = s.pending := rfl
@[simp] theorem withUpdate_box (b : Box) : (s.withUpdate x).box b = s.box b := rfl
@[simp] theorem withUpdate_lane (p : Port) : (s.withUpdate x).lane p = s.lane p := rfl
@[simp] theorem withUpdate_time : (s.withUpdate x).time = s.time := rfl
@[simp] theorem withUpdate_serves : (s.withUpdate x).serves = s.serves := rfl
@[simp] theorem withUpdate_turretUp : (s.withUpdate x).turretUp = s.turretUp := rfl
@[simp] theorem withUpdate_steepleUp : (s.withUpdate x).steepleUp = s.steepleUp := rfl
@[simp] theorem withUpdate_up (c : Clock) : (s.withUpdate x).up c = s.up c := rfl
end

section
variable (s : State) (x : Power)
@[simp] theorem withPower_now : (s.withPower x).now = s.now := rfl
@[simp] theorem withPower_civil : (s.withPower x).civil = s.civil := rfl
@[simp] theorem withPower_free : (s.withPower x).free = s.free := rfl
@[simp] theorem withPower_rotunda : (s.withPower x).rotunda = s.rotunda := rfl
@[simp] theorem withPower_turret : (s.withPower x).turret = s.turret := rfl
@[simp] theorem withPower_steeple : (s.withPower x).steeple = s.steeple := rfl
@[simp] theorem withPower_dsp : (s.withPower x).dsp = s.dsp := rfl
@[simp] theorem withPower_keep : (s.withPower x).keep = s.keep := rfl
@[simp] theorem withPower_legal : (s.withPower x).legal = s.legal := rfl
@[simp] theorem withPower_belfry : (s.withPower x).belfry = s.belfry := rfl
@[simp] theorem withPower_oculus : (s.withPower x).oculus = s.oculus := rfl
@[simp] theorem withPower_cupola : (s.withPower x).cupola = s.cupola := rfl
@[simp] theorem withPower_memory : (s.withPower x).memory = s.memory := rfl
@[simp] theorem withPower_update : (s.withPower x).update = s.update := rfl
@[simp] theorem withPower_power : (s.withPower x).power = x := rfl
@[simp] theorem withPower_lantern : (s.withPower x).lantern = s.lantern := rfl
@[simp] theorem withPower_pending : (s.withPower x).pending = s.pending := rfl
@[simp] theorem withPower_box (b : Box) : (s.withPower x).box b = s.box b := rfl
@[simp] theorem withPower_lane (p : Port) : (s.withPower x).lane p = s.lane p := rfl
@[simp] theorem withPower_time : (s.withPower x).time = s.time := rfl
end

section
variable (s : State) (x : Lantern)
@[simp] theorem withLantern_now : (s.withLantern x).now = s.now := rfl
@[simp] theorem withLantern_civil : (s.withLantern x).civil = s.civil := rfl
@[simp] theorem withLantern_free : (s.withLantern x).free = s.free := rfl
@[simp] theorem withLantern_rotunda : (s.withLantern x).rotunda = s.rotunda := rfl
@[simp] theorem withLantern_turret : (s.withLantern x).turret = s.turret := rfl
@[simp] theorem withLantern_steeple : (s.withLantern x).steeple = s.steeple := rfl
@[simp] theorem withLantern_dsp : (s.withLantern x).dsp = s.dsp := rfl
@[simp] theorem withLantern_keep : (s.withLantern x).keep = s.keep := rfl
@[simp] theorem withLantern_legal : (s.withLantern x).legal = s.legal := rfl
@[simp] theorem withLantern_belfry : (s.withLantern x).belfry = s.belfry := rfl
@[simp] theorem withLantern_oculus : (s.withLantern x).oculus = s.oculus := rfl
@[simp] theorem withLantern_cupola : (s.withLantern x).cupola = s.cupola := rfl
@[simp] theorem withLantern_memory : (s.withLantern x).memory = s.memory := rfl
@[simp] theorem withLantern_update : (s.withLantern x).update = s.update := rfl
@[simp] theorem withLantern_power : (s.withLantern x).power = s.power := rfl
@[simp] theorem withLantern_lantern : (s.withLantern x).lantern = x := rfl
@[simp] theorem withLantern_pending : (s.withLantern x).pending = s.pending := rfl
@[simp] theorem withLantern_box (b : Box) : (s.withLantern x).box b = s.box b := rfl
@[simp] theorem withLantern_lane (p : Port) : (s.withLantern x).lane p = s.lane p := rfl
@[simp] theorem withLantern_time : (s.withLantern x).time = s.time := rfl
@[simp] theorem withLantern_serves : (s.withLantern x).serves = s.serves := rfl
@[simp] theorem withLantern_turretUp : (s.withLantern x).turretUp = s.turretUp := rfl
@[simp] theorem withLantern_steepleUp : (s.withLantern x).steepleUp = s.steepleUp := rfl
@[simp] theorem withLantern_up (c : Clock) : (s.withLantern x).up c = s.up c := rfl
end

section
variable (s : State)
@[simp] theorem draw_now : s.draw.now = s.now := rfl
@[simp] theorem draw_civil : s.draw.civil = s.civil := rfl
@[simp] theorem draw_rotunda : s.draw.rotunda = s.rotunda := rfl
@[simp] theorem draw_turret : s.draw.turret = s.turret := rfl
@[simp] theorem draw_steeple : s.draw.steeple = s.steeple := rfl
@[simp] theorem draw_dsp : s.draw.dsp = s.dsp := rfl
@[simp] theorem draw_keep : s.draw.keep = s.keep := rfl
@[simp] theorem draw_legal : s.draw.legal = s.legal := rfl
@[simp] theorem draw_belfry : s.draw.belfry = s.belfry := rfl
@[simp] theorem draw_oculus : s.draw.oculus = s.oculus := rfl
@[simp] theorem draw_cupola : s.draw.cupola = s.cupola := rfl
@[simp] theorem draw_memory : s.draw.memory = s.memory := rfl
@[simp] theorem draw_update : s.draw.update = s.update := rfl
@[simp] theorem draw_power : s.draw.power = s.power := rfl
@[simp] theorem draw_lantern : s.draw.lantern = s.lantern := rfl
@[simp] theorem draw_pending : s.draw.pending = s.pending := rfl
@[simp] theorem draw_box (b : Box) : s.draw.box b = s.box b := rfl
@[simp] theorem draw_lane (p : Port) : s.draw.lane p = s.lane p := rfl
end

section
variable (s : State) (b : Box) (m : Mailbox)
@[simp] theorem setBox_now : (s.setBox b m).now = s.now := rfl
@[simp] theorem setBox_civil : (s.setBox b m).civil = s.civil := rfl
@[simp] theorem setBox_free : (s.setBox b m).free = s.free := rfl
@[simp] theorem setBox_turret : (s.setBox b m).turret = s.turret := rfl
@[simp] theorem setBox_steeple : (s.setBox b m).steeple = s.steeple := rfl
@[simp] theorem setBox_dsp : (s.setBox b m).dsp = s.dsp := rfl
@[simp] theorem setBox_keep : (s.setBox b m).keep = s.keep := rfl
@[simp] theorem setBox_legal : (s.setBox b m).legal = s.legal := rfl
@[simp] theorem setBox_belfry : (s.setBox b m).belfry = s.belfry := rfl
@[simp] theorem setBox_oculus : (s.setBox b m).oculus = s.oculus := rfl
@[simp] theorem setBox_cupola : (s.setBox b m).cupola = s.cupola := rfl
@[simp] theorem setBox_memory : (s.setBox b m).memory = s.memory := rfl
@[simp] theorem setBox_update : (s.setBox b m).update = s.update := rfl
@[simp] theorem setBox_power : (s.setBox b m).power = s.power := rfl
@[simp] theorem setBox_lantern : (s.setBox b m).lantern = s.lantern := rfl
@[simp] theorem setBox_pending : (s.setBox b m).pending = s.pending := rfl
@[simp] theorem setBox_lane (p : Port) : (s.setBox b m).lane p = s.lane p := rfl
end

section
variable (s : State) (b : Box) (f : Mailbox → Mailbox)
@[simp] theorem modBox_now : (s.modBox b f).now = s.now := rfl
@[simp] theorem modBox_civil : (s.modBox b f).civil = s.civil := rfl
@[simp] theorem modBox_free : (s.modBox b f).free = s.free := rfl
@[simp] theorem modBox_turret : (s.modBox b f).turret = s.turret := rfl
@[simp] theorem modBox_steeple : (s.modBox b f).steeple = s.steeple := rfl
@[simp] theorem modBox_dsp : (s.modBox b f).dsp = s.dsp := rfl
@[simp] theorem modBox_keep : (s.modBox b f).keep = s.keep := rfl
@[simp] theorem modBox_legal : (s.modBox b f).legal = s.legal := rfl
@[simp] theorem modBox_belfry : (s.modBox b f).belfry = s.belfry := rfl
@[simp] theorem modBox_oculus : (s.modBox b f).oculus = s.oculus := rfl
@[simp] theorem modBox_cupola : (s.modBox b f).cupola = s.cupola := rfl
@[simp] theorem modBox_memory : (s.modBox b f).memory = s.memory := rfl
@[simp] theorem modBox_update : (s.modBox b f).update = s.update := rfl
@[simp] theorem modBox_power : (s.modBox b f).power = s.power := rfl
@[simp] theorem modBox_lantern : (s.modBox b f).lantern = s.lantern := rfl
@[simp] theorem modBox_pending : (s.modBox b f).pending = s.pending := rfl
@[simp] theorem modBox_lane (p : Port) : (s.modBox b f).lane p = s.lane p := rfl
end

section
variable (s : State) (b : Box) (f : Mailbox → Mailbox)
@[simp] theorem modHost_now : (s.modHost b f).now = s.now := rfl
@[simp] theorem modHost_civil : (s.modHost b f).civil = s.civil := rfl
@[simp] theorem modHost_free : (s.modHost b f).free = s.free := rfl
@[simp] theorem modHost_turret : (s.modHost b f).turret = s.turret := rfl
@[simp] theorem modHost_steeple : (s.modHost b f).steeple = s.steeple := rfl
@[simp] theorem modHost_dsp : (s.modHost b f).dsp = s.dsp := rfl
@[simp] theorem modHost_keep : (s.modHost b f).keep = s.keep := rfl
@[simp] theorem modHost_legal : (s.modHost b f).legal = s.legal := rfl
@[simp] theorem modHost_belfry : (s.modHost b f).belfry = s.belfry := rfl
@[simp] theorem modHost_oculus : (s.modHost b f).oculus = s.oculus := rfl
@[simp] theorem modHost_cupola : (s.modHost b f).cupola = s.cupola := rfl
@[simp] theorem modHost_memory : (s.modHost b f).memory = s.memory := rfl
@[simp] theorem modHost_update : (s.modHost b f).update = s.update := rfl
@[simp] theorem modHost_power : (s.modHost b f).power = s.power := rfl
@[simp] theorem modHost_lantern : (s.modHost b f).lantern = s.lantern := rfl
@[simp] theorem modHost_pending : (s.modHost b f).pending = s.pending := rfl
@[simp] theorem modHost_lane (p : Port) : (s.modHost b f).lane p = s.lane p := rfl
end

section
variable (s : State) (cs : List Channel)
@[simp] theorem setChannels_now : (s.setChannels cs).now = s.now := rfl
@[simp] theorem setChannels_civil : (s.setChannels cs).civil = s.civil := rfl
@[simp] theorem setChannels_free : (s.setChannels cs).free = s.free := rfl
@[simp] theorem setChannels_turret : (s.setChannels cs).turret = s.turret := rfl
@[simp] theorem setChannels_steeple : (s.setChannels cs).steeple = s.steeple := rfl
@[simp] theorem setChannels_dsp : (s.setChannels cs).dsp = s.dsp := rfl
@[simp] theorem setChannels_keep : (s.setChannels cs).keep = s.keep := rfl
@[simp] theorem setChannels_legal : (s.setChannels cs).legal = s.legal := rfl
@[simp] theorem setChannels_belfry : (s.setChannels cs).belfry = s.belfry := rfl
@[simp] theorem setChannels_oculus : (s.setChannels cs).oculus = s.oculus := rfl
@[simp] theorem setChannels_cupola : (s.setChannels cs).cupola = s.cupola := rfl
@[simp] theorem setChannels_memory : (s.setChannels cs).memory = s.memory := rfl
@[simp] theorem setChannels_update : (s.setChannels cs).update = s.update := rfl
@[simp] theorem setChannels_power : (s.setChannels cs).power = s.power := rfl
@[simp] theorem setChannels_lantern : (s.setChannels cs).lantern = s.lantern := rfl
@[simp] theorem setChannels_pending : (s.setChannels cs).pending = s.pending := rfl
@[simp] theorem setChannels_lane (p : Port) : (s.setChannels cs).lane p = s.lane p := rfl
end

section
variable (s : State) (i : Fin 8) (f : Region → Region)
@[simp] theorem setRegion_now : (s.setRegion i f).now = s.now := rfl
@[simp] theorem setRegion_civil : (s.setRegion i f).civil = s.civil := rfl
@[simp] theorem setRegion_free : (s.setRegion i f).free = s.free := rfl
@[simp] theorem setRegion_rotunda : (s.setRegion i f).rotunda = s.rotunda := rfl
@[simp] theorem setRegion_turret : (s.setRegion i f).turret = s.turret := rfl
@[simp] theorem setRegion_steeple : (s.setRegion i f).steeple = s.steeple := rfl
@[simp] theorem setRegion_dsp : (s.setRegion i f).dsp = s.dsp := rfl
@[simp] theorem setRegion_keep : (s.setRegion i f).keep = s.keep := rfl
@[simp] theorem setRegion_legal : (s.setRegion i f).legal = s.legal := rfl
@[simp] theorem setRegion_belfry : (s.setRegion i f).belfry = s.belfry := rfl
@[simp] theorem setRegion_oculus : (s.setRegion i f).oculus = s.oculus := rfl
@[simp] theorem setRegion_cupola : (s.setRegion i f).cupola = s.cupola := rfl
@[simp] theorem setRegion_update : (s.setRegion i f).update = s.update := rfl
@[simp] theorem setRegion_power : (s.setRegion i f).power = s.power := rfl
@[simp] theorem setRegion_lantern : (s.setRegion i f).lantern = s.lantern := rfl
@[simp] theorem setRegion_pending : (s.setRegion i f).pending = s.pending := rfl
@[simp] theorem setRegion_box (b : Box) : (s.setRegion i f).box b = s.box b := rfl
@[simp] theorem setRegion_lane (p : Port) : (s.setRegion i f).lane p = s.lane p := rfl
end

section
variable (s : State) (p : Port) (l : Lane)
@[simp] theorem setLane_now : (s.setLane p l).now = s.now := rfl
@[simp] theorem setLane_civil : (s.setLane p l).civil = s.civil := rfl
@[simp] theorem setLane_free : (s.setLane p l).free = s.free := rfl
@[simp] theorem setLane_rotunda : (s.setLane p l).rotunda = s.rotunda := rfl
@[simp] theorem setLane_steeple : (s.setLane p l).steeple = s.steeple := rfl
@[simp] theorem setLane_dsp : (s.setLane p l).dsp = s.dsp := rfl
@[simp] theorem setLane_keep : (s.setLane p l).keep = s.keep := rfl
@[simp] theorem setLane_legal : (s.setLane p l).legal = s.legal := rfl
@[simp] theorem setLane_belfry : (s.setLane p l).belfry = s.belfry := rfl
@[simp] theorem setLane_oculus : (s.setLane p l).oculus = s.oculus := rfl
@[simp] theorem setLane_cupola : (s.setLane p l).cupola = s.cupola := rfl
@[simp] theorem setLane_memory : (s.setLane p l).memory = s.memory := rfl
@[simp] theorem setLane_update : (s.setLane p l).update = s.update := rfl
@[simp] theorem setLane_power : (s.setLane p l).power = s.power := rfl
@[simp] theorem setLane_lantern : (s.setLane p l).lantern = s.lantern := rfl
@[simp] theorem setLane_pending : (s.setLane p l).pending = s.pending := rfl
@[simp] theorem setLane_box (b : Box) : (s.setLane p l).box b = s.box b := rfl
end

section
variable (s : State) (p : Port) (f : Lane → Lane)
@[simp] theorem modLane_now : (s.modLane p f).now = s.now := rfl
@[simp] theorem modLane_civil : (s.modLane p f).civil = s.civil := rfl
@[simp] theorem modLane_free : (s.modLane p f).free = s.free := rfl
@[simp] theorem modLane_rotunda : (s.modLane p f).rotunda = s.rotunda := rfl
@[simp] theorem modLane_steeple : (s.modLane p f).steeple = s.steeple := rfl
@[simp] theorem modLane_dsp : (s.modLane p f).dsp = s.dsp := rfl
@[simp] theorem modLane_keep : (s.modLane p f).keep = s.keep := rfl
@[simp] theorem modLane_legal : (s.modLane p f).legal = s.legal := rfl
@[simp] theorem modLane_belfry : (s.modLane p f).belfry = s.belfry := rfl
@[simp] theorem modLane_oculus : (s.modLane p f).oculus = s.oculus := rfl
@[simp] theorem modLane_cupola : (s.modLane p f).cupola = s.cupola := rfl
@[simp] theorem modLane_memory : (s.modLane p f).memory = s.memory := rfl
@[simp] theorem modLane_update : (s.modLane p f).update = s.update := rfl
@[simp] theorem modLane_power : (s.modLane p f).power = s.power := rfl
@[simp] theorem modLane_lantern : (s.modLane p f).lantern = s.lantern := rfl
@[simp] theorem modLane_pending : (s.modLane p f).pending = s.pending := rfl
@[simp] theorem modLane_box (b : Box) : (s.modLane p f).box b = s.box b := rfl
end

section
variable (s : State) (p : Phase) (f : GuardPhase → GuardPhase)
@[simp] theorem modGuard_now : (s.modGuard p f).now = s.now := rfl
@[simp] theorem modGuard_civil : (s.modGuard p f).civil = s.civil := rfl
@[simp] theorem modGuard_free : (s.modGuard p f).free = s.free := rfl
@[simp] theorem modGuard_rotunda : (s.modGuard p f).rotunda = s.rotunda := rfl
@[simp] theorem modGuard_steeple : (s.modGuard p f).steeple = s.steeple := rfl
@[simp] theorem modGuard_dsp : (s.modGuard p f).dsp = s.dsp := rfl
@[simp] theorem modGuard_keep : (s.modGuard p f).keep = s.keep := rfl
@[simp] theorem modGuard_legal : (s.modGuard p f).legal = s.legal := rfl
@[simp] theorem modGuard_belfry : (s.modGuard p f).belfry = s.belfry := rfl
@[simp] theorem modGuard_oculus : (s.modGuard p f).oculus = s.oculus := rfl
@[simp] theorem modGuard_cupola : (s.modGuard p f).cupola = s.cupola := rfl
@[simp] theorem modGuard_memory : (s.modGuard p f).memory = s.memory := rfl
@[simp] theorem modGuard_update : (s.modGuard p f).update = s.update := rfl
@[simp] theorem modGuard_power : (s.modGuard p f).power = s.power := rfl
@[simp] theorem modGuard_lantern : (s.modGuard p f).lantern = s.lantern := rfl
@[simp] theorem modGuard_pending : (s.modGuard p f).pending = s.pending := rfl
@[simp] theorem modGuard_box (b : Box) : (s.modGuard p f).box b = s.box b := rfl
end

section
variable (s : State) (d : Band) (f : BandState → BandState)
@[simp] theorem modBand_now : (s.modBand d f).now = s.now := by cases d <;> rfl
@[simp] theorem modBand_civil : (s.modBand d f).civil = s.civil := by cases d <;> rfl
@[simp] theorem modBand_free : (s.modBand d f).free = s.free := by cases d <;> rfl
@[simp] theorem modBand_rotunda : (s.modBand d f).rotunda = s.rotunda := by cases d <;> rfl
@[simp] theorem modBand_turret : (s.modBand d f).turret = s.turret := by cases d <;> rfl
@[simp] theorem modBand_steeple : (s.modBand d f).steeple = s.steeple := by cases d <;> rfl
@[simp] theorem modBand_dsp : (s.modBand d f).dsp = s.dsp := by cases d <;> rfl
@[simp] theorem modBand_keep : (s.modBand d f).keep = s.keep := by cases d <;> rfl
@[simp] theorem modBand_legal : (s.modBand d f).legal = s.legal := by cases d <;> rfl
@[simp] theorem modBand_oculus : (s.modBand d f).oculus = s.oculus := by cases d <;> rfl
@[simp] theorem modBand_cupola : (s.modBand d f).cupola = s.cupola := by cases d <;> rfl
@[simp] theorem modBand_memory : (s.modBand d f).memory = s.memory := by cases d <;> rfl
@[simp] theorem modBand_update : (s.modBand d f).update = s.update := by cases d <;> rfl
@[simp] theorem modBand_power : (s.modBand d f).power = s.power := by cases d <;> rfl
@[simp] theorem modBand_lantern : (s.modBand d f).lantern = s.lantern := by cases d <;> rfl
@[simp] theorem modBand_pending : (s.modBand d f).pending = s.pending := by cases d <;> rfl
@[simp] theorem modBand_box (b : Box) : (s.modBand d f).box b = s.box b := by cases d <;> rfl
@[simp] theorem modBand_lane (p : Port) : (s.modBand d f).lane p = s.lane p := by cases d <;> rfl
end

section
variable (s : State) (a : Fin 2) (f : Antenna → Antenna)
@[simp] theorem modAntenna_now : (s.modAntenna a f).now = s.now := by unfold State.modAntenna; split <;> rfl
@[simp] theorem modAntenna_civil : (s.modAntenna a f).civil = s.civil := by unfold State.modAntenna; split <;> rfl
@[simp] theorem modAntenna_free : (s.modAntenna a f).free = s.free := by unfold State.modAntenna; split <;> rfl
@[simp] theorem modAntenna_rotunda : (s.modAntenna a f).rotunda = s.rotunda := by unfold State.modAntenna; split <;> rfl
@[simp] theorem modAntenna_turret : (s.modAntenna a f).turret = s.turret := by unfold State.modAntenna; split <;> rfl
@[simp] theorem modAntenna_steeple : (s.modAntenna a f).steeple = s.steeple := by unfold State.modAntenna; split <;> rfl
@[simp] theorem modAntenna_dsp : (s.modAntenna a f).dsp = s.dsp := by unfold State.modAntenna; split <;> rfl
@[simp] theorem modAntenna_keep : (s.modAntenna a f).keep = s.keep := by unfold State.modAntenna; split <;> rfl
@[simp] theorem modAntenna_legal : (s.modAntenna a f).legal = s.legal := by unfold State.modAntenna; split <;> rfl
@[simp] theorem modAntenna_belfry : (s.modAntenna a f).belfry = s.belfry := by unfold State.modAntenna; split <;> rfl
@[simp] theorem modAntenna_cupola : (s.modAntenna a f).cupola = s.cupola := by unfold State.modAntenna; split <;> rfl
@[simp] theorem modAntenna_memory : (s.modAntenna a f).memory = s.memory := by unfold State.modAntenna; split <;> rfl
@[simp] theorem modAntenna_update : (s.modAntenna a f).update = s.update := by unfold State.modAntenna; split <;> rfl
@[simp] theorem modAntenna_power : (s.modAntenna a f).power = s.power := by unfold State.modAntenna; split <;> rfl
@[simp] theorem modAntenna_lantern : (s.modAntenna a f).lantern = s.lantern := by unfold State.modAntenna; split <;> rfl
@[simp] theorem modAntenna_pending : (s.modAntenna a f).pending = s.pending := by unfold State.modAntenna; split <;> rfl
@[simp] theorem modAntenna_box (b : Box) : (s.modAntenna a f).box b = s.box b := by unfold State.modAntenna; split <;> rfl
@[simp] theorem modAntenna_lane (p : Port) : (s.modAntenna a f).lane p = s.lane p := by unfold State.modAntenna; split <;> rfl
end

section
variable (s : State) (i : Fin 2) (k : Bank)
@[simp] theorem setBank_now : (s.setBank i k).now = s.now := rfl
@[simp] theorem setBank_civil : (s.setBank i k).civil = s.civil := rfl
@[simp] theorem setBank_free : (s.setBank i k).free = s.free := rfl
@[simp] theorem setBank_rotunda : (s.setBank i k).rotunda = s.rotunda := rfl
@[simp] theorem setBank_turret : (s.setBank i k).turret = s.turret := rfl
@[simp] theorem setBank_steeple : (s.setBank i k).steeple = s.steeple := rfl
@[simp] theorem setBank_dsp : (s.setBank i k).dsp = s.dsp := rfl
@[simp] theorem setBank_keep : (s.setBank i k).keep = s.keep := rfl
@[simp] theorem setBank_legal : (s.setBank i k).legal = s.legal := rfl
@[simp] theorem setBank_belfry : (s.setBank i k).belfry = s.belfry := rfl
@[simp] theorem setBank_oculus : (s.setBank i k).oculus = s.oculus := rfl
@[simp] theorem setBank_cupola : (s.setBank i k).cupola = s.cupola := rfl
@[simp] theorem setBank_memory : (s.setBank i k).memory = s.memory := rfl
@[simp] theorem setBank_power : (s.setBank i k).power = s.power := rfl
@[simp] theorem setBank_lantern : (s.setBank i k).lantern = s.lantern := rfl
@[simp] theorem setBank_pending : (s.setBank i k).pending = s.pending := rfl
@[simp] theorem setBank_box (b : Box) : (s.setBank i k).box b = s.box b := rfl
@[simp] theorem setBank_lane (p : Port) : (s.setBank i k).lane p = s.lane p := rfl
end

section
variable (s : State) (t : Telegram)
@[simp] theorem withTelegram_now : (s.withTelegram t).now = s.now := rfl
@[simp] theorem withTelegram_civil : (s.withTelegram t).civil = s.civil := rfl
@[simp] theorem withTelegram_free : (s.withTelegram t).free = s.free := rfl
@[simp] theorem withTelegram_rotunda : (s.withTelegram t).rotunda = s.rotunda := rfl
@[simp] theorem withTelegram_turret : (s.withTelegram t).turret = s.turret := rfl
@[simp] theorem withTelegram_dsp : (s.withTelegram t).dsp = s.dsp := rfl
@[simp] theorem withTelegram_keep : (s.withTelegram t).keep = s.keep := rfl
@[simp] theorem withTelegram_legal : (s.withTelegram t).legal = s.legal := rfl
@[simp] theorem withTelegram_belfry : (s.withTelegram t).belfry = s.belfry := rfl
@[simp] theorem withTelegram_oculus : (s.withTelegram t).oculus = s.oculus := rfl
@[simp] theorem withTelegram_cupola : (s.withTelegram t).cupola = s.cupola := rfl
@[simp] theorem withTelegram_memory : (s.withTelegram t).memory = s.memory := rfl
@[simp] theorem withTelegram_update : (s.withTelegram t).update = s.update := rfl
@[simp] theorem withTelegram_power : (s.withTelegram t).power = s.power := rfl
@[simp] theorem withTelegram_lantern : (s.withTelegram t).lantern = s.lantern := rfl
@[simp] theorem withTelegram_pending : (s.withTelegram t).pending = s.pending := rfl
@[simp] theorem withTelegram_box (b : Box) : (s.withTelegram t).box b = s.box b := rfl
@[simp] theorem withTelegram_lane (p : Port) : (s.withTelegram t).lane p = s.lane p := rfl
end

section
variable (s : State) (x : SafetyPath) (f : SafetyLink → SafetyLink)
@[simp] theorem modLink_now : (s.modLink x f).now = s.now := rfl
@[simp] theorem modLink_civil : (s.modLink x f).civil = s.civil := rfl
@[simp] theorem modLink_free : (s.modLink x f).free = s.free := rfl
@[simp] theorem modLink_rotunda : (s.modLink x f).rotunda = s.rotunda := rfl
@[simp] theorem modLink_turret : (s.modLink x f).turret = s.turret := rfl
@[simp] theorem modLink_dsp : (s.modLink x f).dsp = s.dsp := rfl
@[simp] theorem modLink_keep : (s.modLink x f).keep = s.keep := rfl
@[simp] theorem modLink_legal : (s.modLink x f).legal = s.legal := rfl
@[simp] theorem modLink_belfry : (s.modLink x f).belfry = s.belfry := rfl
@[simp] theorem modLink_oculus : (s.modLink x f).oculus = s.oculus := rfl
@[simp] theorem modLink_cupola : (s.modLink x f).cupola = s.cupola := rfl
@[simp] theorem modLink_memory : (s.modLink x f).memory = s.memory := rfl
@[simp] theorem modLink_update : (s.modLink x f).update = s.update := rfl
@[simp] theorem modLink_power : (s.modLink x f).power = s.power := rfl
@[simp] theorem modLink_lantern : (s.modLink x f).lantern = s.lantern := rfl
@[simp] theorem modLink_pending : (s.modLink x f).pending = s.pending := rfl
@[simp] theorem modLink_box (b : Box) : (s.modLink x f).box b = s.box b := rfl
@[simp] theorem modLink_lane (p : Port) : (s.modLink x f).lane p = s.lane p := rfl
end

/-! ## Elements -/

@[simp] theorem box_setBox (s : State) (b : Box) (m : Mailbox) : (s.setBox b m).box b = m := by
  simp [State.setBox, State.box]
theorem box_setBox_ne (s : State) {b c : Box} (m : Mailbox) (h : b ≠ c) : (s.setBox b m).box c = s.box c := by
  have : ¬ b.val = c.val := fun x => h (Fin.ext x)
  simp [State.setBox, State.box, this]
@[simp] theorem box_modBox (s : State) (b : Box) (f : Mailbox → Mailbox) : (s.modBox b f).box b = f (s.box b) := box_setBox ..
@[simp] theorem box_modHost (s : State) (b : Box) (f : Mailbox → Mailbox) :
    (s.modHost b f).box b = (f (s.box b)).touch s.civil := box_setBox ..
@[simp] theorem channels_setBox (s : State) (b : Box) (m : Mailbox) : (s.setBox b m).rotunda.channels = s.rotunda.channels := rfl
@[simp] theorem supervisor_setBox (s : State) (b : Box) (m : Mailbox) :
    (s.setBox b m).rotunda.supervisor = s.rotunda.supervisor := rfl

@[simp] theorem lane_setLane (s : State) (p : Port) (l : Lane) : (s.setLane p l).lane p = (s.lane p).stamp l s.civil := by
  simp [State.setLane, State.lane]
theorem lane_setLane_ne (s : State) {p q : Port} (l : Lane) (h : p ≠ q) : (s.setLane p l).lane q = s.lane q := by
  have : ¬ p.val = q.val := fun x => h (Fin.ext x)
  simp [State.setLane, State.lane, this]
@[simp] theorem lane_modLane (s : State) (p : Port) (f : Lane → Lane) :
    (s.modLane p f).lane p = (s.lane p).stamp (f (s.lane p)) s.civil := lane_setLane ..
theorem lane_modLane_ne (s : State) {p q : Port} (f : Lane → Lane) (h : p ≠ q) : (s.modLane p f).lane q = s.lane q :=
  lane_setLane_ne s _ h

/-! ## A lane's stamp leaves its registers -/

@[simp] theorem stamp_state (a b : Lane) (c : Nat) : (a.stamp b c).state = b.state := by unfold Lane.stamp; split <;> rfl
@[simp] theorem stamp_enabled (a b : Lane) (c : Nat) : (a.stamp b c).enabled = b.enabled := by unfold Lane.stamp; split <;> rfl
@[simp] theorem stamp_ignored (a b : Lane) (c : Nat) : (a.stamp b c).ignored = b.ignored := by unfold Lane.stamp; split <;> rfl
@[simp] theorem stamp_stopped (a b : Lane) (c : Nat) : (a.stamp b c).stopped = b.stopped := by unfold Lane.stamp; split <;> rfl
@[simp] theorem stamp_drive (a b : Lane) (c : Nat) : (a.stamp b c).drive = b.drive := by unfold Lane.stamp; split <;> rfl
@[simp] theorem stamp_duty (a b : Lane) (c : Nat) : (a.stamp b c).duty = b.duty := by unfold Lane.stamp; split <;> rfl
@[simp] theorem stamp_highMv (a b : Lane) (c : Nat) : (a.stamp b c).highMv = b.highMv := by unfold Lane.stamp; split <;> rfl
@[simp] theorem stamp_lowMv (a b : Lane) (c : Nat) : (a.stamp b c).lowMv = b.lowMv := by unfold Lane.stamp; split <;> rfl
@[simp] theorem stamp_settleUsed (a b : Lane) (c : Nat) : (a.stamp b c).settleUsed = b.settleUsed := by unfold Lane.stamp; split <;> rfl
@[simp] theorem stamp_window (a b : Lane) (c : Nat) : (a.stamp b c).window = b.window := by unfold Lane.stamp; split <;> rfl
@[simp] theorem stamp_lastClass (a b : Lane) (c : Nat) : (a.stamp b c).lastClass = b.lastClass := by unfold Lane.stamp; split <;> rfl
@[simp] theorem stamp_classRun (a b : Lane) (c : Nat) : (a.stamp b c).classRun = b.classRun := by unfold Lane.stamp; split <;> rfl
@[simp] theorem stamp_confirmed (a b : Lane) (c : Nat) : (a.stamp b c).confirmed = b.confirmed := by unfold Lane.stamp; split <;> rfl
@[simp] theorem stamp_bandChanged (a b : Lane) (c : Nat) : (a.stamp b c).bandChanged = b.bandChanged := by unfold Lane.stamp; split <;> rfl
@[simp] theorem stamp_ppOhm (a b : Lane) (c : Nat) : (a.stamp b c).ppOhm = b.ppOhm := by unfold Lane.stamp; split <;> rfl
@[simp] theorem stamp_ppBand (a b : Lane) (c : Nat) : (a.stamp b c).ppBand = b.ppBand := by unfold Lane.stamp; split <;> rfl
@[simp] theorem stamp_ppRun (a b : Lane) (c : Nat) : (a.stamp b c).ppRun = b.ppRun := by unfold Lane.stamp; split <;> rfl
@[simp] theorem stamp_cable (a b : Lane) (c : Nat) : (a.stamp b c).cable = b.cable := by unfold Lane.stamp; split <;> rfl
@[simp] theorem stamp_cableChanged (a b : Lane) (c : Nat) : (a.stamp b c).cableChanged = b.cableChanged := by unfold Lane.stamp; split <;> rfl
@[simp] theorem stamp_vehicleAt (a b : Lane) (c : Nat) : (a.stamp b c).vehicleAt = b.vehicleAt := by unfold Lane.stamp; split <;> rfl
@[simp] theorem stamp_blind (a b : Lane) (c : Nat) : (a.stamp b c).blind = b.blind := by unfold Lane.stamp; split <;> rfl
@[simp] theorem stamp_timed (a b : Lane) (c : Nat) : (a.stamp b c).timed = b.timed := by unfold Lane.stamp; split <;> rfl
@[simp] theorem stamp_transition (a b : Lane) (c : Nat) : (a.stamp b c).transition = b.transition := by unfold Lane.stamp; split <;> rfl
@[simp] theorem stamp_allowance (a b : Lane) (c : Nat) : (a.stamp b c).allowance = b.allowance := by unfold Lane.stamp; split <;> rfl
@[simp] theorem stamp_limit (a b : Lane) (c : Nat) : (a.stamp b c).limit = b.limit := by unfold Lane.stamp; split <;> rfl
@[simp] theorem stamp_stateTime (a b : Lane) (c : Nat) : (a.stamp b c).stateTime = b.stateTime := by unfold Lane.stamp; split <;> rfl
@[simp] theorem stamp_session (a b : Lane) (c : Nat) : (a.stamp b c).session = b.session := by unfold Lane.stamp; split <;> rfl
@[simp] theorem stamp_closings (a b : Lane) (c : Nat) : (a.stamp b c).closings = b.closings := by unfold Lane.stamp; split <;> rfl
@[simp] theorem stamp_faultOpenings (a b : Lane) (c : Nat) : (a.stamp b c).faultOpenings = b.faultOpenings := by unfold Lane.stamp; split <;> rfl
@[simp] theorem stamp_weldProbes (a b : Lane) (c : Nat) : (a.stamp b c).weldProbes = b.weldProbes := by unfold Lane.stamp; split <;> rfl
@[simp] theorem stamp_sheds (a b : Lane) (c : Nat) : (a.stamp b c).sheds = b.sheds := by unfold Lane.stamp; split <;> rfl
@[simp] theorem stamp_ctd (a b : Lane) (c : Nat) : (a.stamp b c).ctd = b.ctd := by unfold Lane.stamp; split <;> rfl
@[simp] theorem stamp_pbd (a b : Lane) (c : Nat) : (a.stamp b c).pbd = b.pbd := by unfold Lane.stamp; split <;> rfl
@[simp] theorem stamp_rct (a b : Lane) (c : Nat) : (a.stamp b c).rct = b.rct := by unfold Lane.stamp; split <;> rfl
@[simp] theorem stamp_ctf (a b : Lane) (c : Nat) : (a.stamp b c).ctf = b.ctf := by unfold Lane.stamp; split <;> rfl
@[simp] theorem stamp_pbf (a b : Lane) (c : Nat) : (a.stamp b c).pbf = b.pbf := by unfold Lane.stamp; split <;> rfl
@[simp] theorem stamp_ovs (a b : Lane) (c : Nat) : (a.stamp b c).ovs = b.ovs := by unfold Lane.stamp; split <;> rfl
@[simp] theorem stamp_ovsAt (a b : Lane) (c : Nat) : (a.stamp b c).ovsAt = b.ovsAt := by unfold Lane.stamp; split <;> rfl
@[simp] theorem stamp_ctdChangedAt (a b : Lane) (c : Nat) : (a.stamp b c).ctdChangedAt = b.ctdChangedAt := by unfold Lane.stamp; split <;> rfl
@[simp] theorem stamp_testPassed (a b : Lane) (c : Nat) : (a.stamp b c).testPassed = b.testPassed := by unfold Lane.stamp; split <;> rfl
@[simp] theorem stamp_testStep (a b : Lane) (c : Nat) : (a.stamp b c).testStep = b.testStep := by unfold Lane.stamp; split <;> rfl
@[simp] theorem stamp_testStart (a b : Lane) (c : Nat) : (a.stamp b c).testStart = b.testStart := by unfold Lane.stamp; split <;> rfl
@[simp] theorem stamp_testForReset (a b : Lane) (c : Nat) : (a.stamp b c).testForReset = b.testForReset := by unfold Lane.stamp; split <;> rfl
@[simp] theorem stamp_testResult (a b : Lane) (c : Nat) : (a.stamp b c).testResult = b.testResult := by unfold Lane.stamp; split <;> rfl
@[simp] theorem stamp_testDc (a b : Lane) (c : Nat) : (a.stamp b c).testDc = b.testDc := by unfold Lane.stamp; split <;> rfl
@[simp] theorem stamp_testAc (a b : Lane) (c : Nat) : (a.stamp b c).testAc = b.testAc := by unfold Lane.stamp; split <;> rfl
@[simp] theorem stamp_seq (a b : Lane) (c : Nat) : (a.stamp b c).seq = b.seq := by unfold Lane.stamp; split <;> rfl
@[simp] theorem stamp_afterClosing (a b : Lane) (c : Nat) : (a.stamp b c).afterClosing = b.afterClosing := by unfold Lane.stamp; split <;> rfl
@[simp] theorem stamp_disableRequest (a b : Lane) (c : Nat) : (a.stamp b c).disableRequest = b.disableRequest := by unfold Lane.stamp; split <;> rfl
@[simp] theorem stamp_stopRequest (a b : Lane) (c : Nat) : (a.stamp b c).stopRequest = b.stopRequest := by unfold Lane.stamp; split <;> rfl
@[simp] theorem stamp_stopReason (a b : Lane) (c : Nat) : (a.stamp b c).stopReason = b.stopReason := by unfold Lane.stamp; split <;> rfl
@[simp] theorem stamp_denied (a b : Lane) (c : Nat) : (a.stamp b c).denied = b.denied := by unfold Lane.stamp; split <;> rfl
@[simp] theorem stamp_shedActive (a b : Lane) (c : Nat) : (a.stamp b c).shedActive = b.shedActive := by unfold Lane.stamp; split <;> rfl
@[simp] theorem stamp_shedAt (a b : Lane) (c : Nat) : (a.stamp b c).shedAt = b.shedAt := by unfold Lane.stamp; split <;> rfl
@[simp] theorem stamp_closeDuration (a b : Lane) (c : Nat) : (a.stamp b c).closeDuration = b.closeDuration := by unfold Lane.stamp; split <;> rfl
@[simp] theorem stamp_openDuration (a b : Lane) (c : Nat) : (a.stamp b c).openDuration = b.openDuration := by unfold Lane.stamp; split <;> rfl
@[simp] theorem stamp_rcsDc (a b : Lane) (c : Nat) : (a.stamp b c).rcsDc = b.rcsDc := by unfold Lane.stamp; split <;> rfl
@[simp] theorem stamp_rcsAc (a b : Lane) (c : Nat) : (a.stamp b c).rcsAc = b.rcsAc := by unfold Lane.stamp; split <;> rfl
@[simp] theorem stamp_rcsRms (a b : Lane) (c : Nat) : (a.stamp b c).rcsRms = b.rcsRms := by unfold Lane.stamp; split <;> rfl
@[simp] theorem stamp_portMode (a b : Lane) (c : Nat) : (a.stamp b c).portMode = b.portMode := by unfold Lane.stamp; split <;> rfl
@[simp] theorem stamp_phaseMap (a b : Lane) (c : Nat) : (a.stamp b c).phaseMap = b.phaseMap := by unfold Lane.stamp; split <;> rfl
@[simp] theorem stamp_interrupted (a b : Lane) (c : Nat) : (a.stamp b c).interrupted = b.interrupted := by unfold Lane.stamp; split <;> rfl
@[simp] theorem stamp_connectedTime (a b : Lane) (c : Nat) : (a.stamp b c).connectedTime = b.connectedTime := by unfold Lane.stamp; split <;> rfl
@[simp] theorem stamp_unbroken (a b : Lane) (c : Nat) : (a.stamp b c).unbroken = b.unbroken := by unfold Lane.stamp; split <;> rfl
@[simp] theorem stamp_quietSince (a b : Lane) (c : Nat) : (a.stamp b c).quietSince = b.quietSince := by unfold Lane.stamp; split <;> rfl
@[simp] theorem stamp_lowResidualSince (a b : Lane) (c : Nat) : (a.stamp b c).lowResidualSince = b.lowResidualSince := by unfold Lane.stamp; split <;> rfl
@[simp] theorem stamp_closeStep5Ok (a b : Lane) (c : Nat) : (a.stamp b c).closeStep5Ok = b.closeStep5Ok := by unfold Lane.stamp; split <;> rfl
@[simp] theorem stamp_openStep3Ok (a b : Lane) (c : Nat) : (a.stamp b c).openStep3Ok = b.openStep3Ok := by unfold Lane.stamp; split <;> rfl
@[simp] theorem stamp_preBreakClean (a b : Lane) (c : Nat) : (a.stamp b c).preBreakClean = b.preBreakClean := by unfold Lane.stamp; split <;> rfl
@[simp] theorem stamp_energisedAt (a b : Lane) (c : Nat) : (a.stamp b c).energisedAt = b.energisedAt := by unfold Lane.stamp; split <;> rfl
@[simp] theorem stamp_nextDrive (a b : Lane) (c : Nat) : (a.stamp b c).nextDrive = b.nextDrive := by unfold Lane.stamp; split <;> rfl
@[simp] theorem stamp_ctfRun (a b : Lane) (c : Nat) : (a.stamp b c).ctfRun = b.ctfRun := by unfold Lane.stamp; split <;> rfl
@[simp] theorem stamp_ctfOdd (a b : Lane) (c : Nat) : (a.stamp b c).ctfOdd = b.ctfOdd := by unfold Lane.stamp; split <;> rfl
@[simp] theorem stamp_comparator (a b : Lane) (c : Nat) : (a.stamp b c).comparator = b.comparator := by unfold Lane.stamp; split <;> rfl

/-! ## Rotunda beside its mailboxes -/

@[simp] theorem setBox_rotunda_published (s : State) (b : Box) (m : Mailbox) : (s.setBox b m).rotunda.published = s.rotunda.published := rfl
@[simp] theorem setBox_rotunda_waiting (s : State) (b : Box) (m : Mailbox) : (s.setBox b m).rotunda.waiting = s.rotunda.waiting := rfl
@[simp] theorem setBox_rotunda_nextRequest (s : State) (b : Box) (m : Mailbox) : (s.setBox b m).rotunda.nextRequest = s.rotunda.nextRequest := rfl
@[simp] theorem setBox_rotunda_silent (s : State) (b : Box) (m : Mailbox) : (s.setBox b m).rotunda.silent = s.rotunda.silent := rfl
@[simp] theorem setBox_rotunda_committed (s : State) (b : Box) (m : Mailbox) : (s.setBox b m).rotunda.committed = s.rotunda.committed := rfl
@[simp] theorem setBox_rotunda_channels (s : State) (b : Box) (m : Mailbox) : (s.setBox b m).rotunda.channels = s.rotunda.channels := rfl
@[simp] theorem setBox_rotunda_supervisor (s : State) (b : Box) (m : Mailbox) : (s.setBox b m).rotunda.supervisor = s.rotunda.supervisor := rfl
@[simp] theorem setBox_rotunda_commits (s : State) (b : Box) (m : Mailbox) : (s.setBox b m).rotunda.commits = s.rotunda.commits := rfl
@[simp] theorem setBox_rotunda_ranks (s : State) (b : Box) (m : Mailbox) : (s.setBox b m).rotunda.ranks = s.rotunda.ranks := rfl
@[simp] theorem setBox_rotunda_lastSlot (s : State) (b : Box) (m : Mailbox) : (s.setBox b m).rotunda.lastSlot = s.rotunda.lastSlot := rfl
@[simp] theorem setBox_rotunda_generations (s : State) (b : Box) (m : Mailbox) : (s.setBox b m).rotunda.generations = s.rotunda.generations := rfl
@[simp] theorem modBox_rotunda_published (s : State) (b : Box) (f : Mailbox → Mailbox) : (s.modBox b f).rotunda.published = s.rotunda.published := rfl
@[simp] theorem modBox_rotunda_waiting (s : State) (b : Box) (f : Mailbox → Mailbox) : (s.modBox b f).rotunda.waiting = s.rotunda.waiting := rfl
@[simp] theorem modBox_rotunda_nextRequest (s : State) (b : Box) (f : Mailbox → Mailbox) : (s.modBox b f).rotunda.nextRequest = s.rotunda.nextRequest := rfl
@[simp] theorem modBox_rotunda_silent (s : State) (b : Box) (f : Mailbox → Mailbox) : (s.modBox b f).rotunda.silent = s.rotunda.silent := rfl
@[simp] theorem modBox_rotunda_committed (s : State) (b : Box) (f : Mailbox → Mailbox) : (s.modBox b f).rotunda.committed = s.rotunda.committed := rfl
@[simp] theorem modBox_rotunda_channels (s : State) (b : Box) (f : Mailbox → Mailbox) : (s.modBox b f).rotunda.channels = s.rotunda.channels := rfl
@[simp] theorem modBox_rotunda_supervisor (s : State) (b : Box) (f : Mailbox → Mailbox) : (s.modBox b f).rotunda.supervisor = s.rotunda.supervisor := rfl
@[simp] theorem modBox_rotunda_commits (s : State) (b : Box) (f : Mailbox → Mailbox) : (s.modBox b f).rotunda.commits = s.rotunda.commits := rfl
@[simp] theorem modBox_rotunda_ranks (s : State) (b : Box) (f : Mailbox → Mailbox) : (s.modBox b f).rotunda.ranks = s.rotunda.ranks := rfl
@[simp] theorem modBox_rotunda_lastSlot (s : State) (b : Box) (f : Mailbox → Mailbox) : (s.modBox b f).rotunda.lastSlot = s.rotunda.lastSlot := rfl
@[simp] theorem modBox_rotunda_generations (s : State) (b : Box) (f : Mailbox → Mailbox) : (s.modBox b f).rotunda.generations = s.rotunda.generations := rfl
@[simp] theorem modHost_rotunda_published (s : State) (b : Box) (f : Mailbox → Mailbox) : (s.modHost b f).rotunda.published = s.rotunda.published := rfl
@[simp] theorem modHost_rotunda_waiting (s : State) (b : Box) (f : Mailbox → Mailbox) : (s.modHost b f).rotunda.waiting = s.rotunda.waiting := rfl
@[simp] theorem modHost_rotunda_nextRequest (s : State) (b : Box) (f : Mailbox → Mailbox) : (s.modHost b f).rotunda.nextRequest = s.rotunda.nextRequest := rfl
@[simp] theorem modHost_rotunda_silent (s : State) (b : Box) (f : Mailbox → Mailbox) : (s.modHost b f).rotunda.silent = s.rotunda.silent := rfl
@[simp] theorem modHost_rotunda_committed (s : State) (b : Box) (f : Mailbox → Mailbox) : (s.modHost b f).rotunda.committed = s.rotunda.committed := rfl
@[simp] theorem modHost_rotunda_channels (s : State) (b : Box) (f : Mailbox → Mailbox) : (s.modHost b f).rotunda.channels = s.rotunda.channels := rfl
@[simp] theorem modHost_rotunda_supervisor (s : State) (b : Box) (f : Mailbox → Mailbox) : (s.modHost b f).rotunda.supervisor = s.rotunda.supervisor := rfl
@[simp] theorem modHost_rotunda_commits (s : State) (b : Box) (f : Mailbox → Mailbox) : (s.modHost b f).rotunda.commits = s.rotunda.commits := rfl
@[simp] theorem modHost_rotunda_ranks (s : State) (b : Box) (f : Mailbox → Mailbox) : (s.modHost b f).rotunda.ranks = s.rotunda.ranks := rfl
@[simp] theorem modHost_rotunda_lastSlot (s : State) (b : Box) (f : Mailbox → Mailbox) : (s.modHost b f).rotunda.lastSlot = s.rotunda.lastSlot := rfl
@[simp] theorem modHost_rotunda_generations (s : State) (b : Box) (f : Mailbox → Mailbox) : (s.modHost b f).rotunda.generations = s.rotunda.generations := rfl

end Sys2Proof.Machine
end

