-- ==== Sys2Proof/Machine/Balls.lean ====
section
/-! DEFINITION. The ball map of the package (R529 to R536): what each of its 841 balls carries, and the kind and the supply domain of each
signal. A ball is named by its row's number, A = 1 to AK = 29, and its column. -/

namespace Sys2Proof.Machine

/-- The 17 signals of an outlet port (R532). -/
inductive PortSignal where
  | iap | ian | ibp | ibn | icp | icn | ton | rcs | cps | pps | rct | ovs | ctf | pbf | ctd | pbd | cpd
  deriving DecidableEq, Repr

/-- The signals of a host port on SPI. -/
inductive SpiSignal where
  | sck | csN | mosi | miso | irqN
  deriving DecidableEq, Repr

/-- Lines of a voltage or site input: L1 to L3 and N. -/
inductive MeterLine where
  | l1 | l2 | l3 | n
  deriving DecidableEq, Repr

/-- The signals (R531 to R534). A pair's negative input bears `true`. -/
inductive Signal where
  | port (p : Port) (x : PortSignal)
  | vb (bus : Fin 2) (line : MeterLine) (negative : Bool)
  | sc (line : MeterLine) (negative : Bool)
  | ax (feeder : Fin 4) (negative : Bool)
  | spi (p : Fin 3) (x : SpiSignal)
  | hp3Txd | hp3Rxd | hp3IrqN
  | svcDp | svcDm | svcVbus | svcTxd | svcRxd
  | trcClk | trcD (lane : Fin 4)
  | antTx1 (a : Fin 2) | antTx2 (a : Fin 2) | antRx (a : Fin 2)
  | plcTxp | plcTxn | plcRxp | plcRxn | plcPs (n : Fin 3)
  | snaTxd | snaRxd | snaDe | snbTxd | snbRxd
  | estopA | estopB | estopT | srstN | shtN | faultN | peMon
  | resetN | wakeN | tmode | xi | xo | tmpCoverN | tmpTermN | calen | tmpMso | tmpMsi | x32i | x32o
  deriving DecidableEq, Repr

/-- What a ball carries. -/
inductive BallUse where
  | signal (x : Signal)
  | vddc | vdda | vddm | vddio | vddtx | vbak | vss | vssa
  deriving DecidableEq, Repr

/-- A port's block at a depth, in its first or second column (R532). -/
def portBlock (depth : Nat) (second : Bool) : Option PortSignal :=
  (if second then [some .ian, some .ibn, some .icn, some .ton, some .cps, some .rct, some .ctf, some .ctd, some .cpd]
   else [some .iap, some .ibp, some .icp, none, some .rcs, some .pps, some .ovs, some .pbf, some .pbd]).getD depth none

/-- A ball of the port regions: `first` is 0 for P00 to P11 and 12 for P12 to P23. -/
def portBall (first depth column : Nat) : BallUse :=
  match portBlock depth (column % 2 == 0) with
  | some x => .signal (.port ⟨(first + (column - 1) / 2) % 24, Nat.mod_lt _ (by decide)⟩ x)
  | none => .vssa

/-- The metering block's rows, K to AA (R533). -/
def meteringRows : List (List BallUse) := [
  [.signal (.vb 0 .l1 false), .signal (.vb 0 .l1 true), .signal (.sc .n false)],
  [.signal (.vb 0 .l2 false), .signal (.vb 0 .l2 true), .signal (.sc .n true)],
  [.signal (.vb 0 .l3 false), .signal (.vb 0 .l3 true), .signal (.ax 0 false)],
  [.signal (.vb 0 .n false), .signal (.vb 0 .n true), .signal (.ax 0 true)],
  [.signal (.vb 1 .l1 false), .signal (.vb 1 .l1 true), .signal (.ax 1 false)],
  [.signal (.vb 1 .l2 false), .signal (.vb 1 .l2 true), .signal (.ax 1 true)],
  [.signal (.vb 1 .l3 false), .signal (.vb 1 .l3 true), .signal (.ax 2 false)],
  [.signal (.vb 1 .n false), .signal (.vb 1 .n true), .signal (.ax 2 true)],
  [.signal (.sc .l1 false), .signal (.sc .l1 true), .signal (.ax 3 false)],
  [.signal (.sc .l2 false), .signal (.sc .l2 true), .signal (.ax 3 true)],
  [.signal (.sc .l3 false), .signal (.sc .l3 true), .vssa]]

def spiRow (p : Fin 3) : List BallUse := [.sck, .csN, .mosi, .miso, .irqN].map (fun x => .signal (.spi p x))

/-- The host and service block's rows, A to J (R534). -/
def hostRows : List (List BallUse) := [
  spiRow 0,
  [.vss, .vddio, .vss, .vddio, .vss],
  spiRow 1,
  spiRow 2,
  [.vddio, .vss, .vddio, .vss, .vddio],
  [.signal .hp3Txd, .signal .hp3Rxd, .signal .hp3IrqN, .vss, .vddio],
  [.signal .svcDp, .signal .svcDm, .signal .svcVbus, .signal .svcTxd, .signal .svcRxd],
  [.signal .trcClk, .signal (.trcD 0), .signal (.trcD 1), .signal (.trcD 2), .signal (.trcD 3)],
  [.vss, .vddio, .vss, .vddio, .vss]]

/-- The reader and powerline block's rows, AB to AK (R534). -/
def readerRows : List (List BallUse) := [
  [.vssa, .vdda, .vssa, .vdda, .vssa],
  [.vss, .vddio, .vss, .vddio, .vss],
  [.signal (.plcPs 0), .signal (.plcPs 1), .signal (.plcPs 2), .vddio, .vss],
  [.vssa, .vdda, .vssa, .vdda, .vssa],
  [.signal .plcTxp, .signal .plcTxn, .vssa, .signal .plcRxp, .signal .plcRxn],
  [.vss, .vddtx, .vss, .vddtx, .vssa],
  [.signal (.antTx1 1), .vddtx, .signal (.antTx2 1), .vss, .signal (.antRx 1)],
  [.vddtx, .vss, .vddtx, .vss, .vssa],
  [.signal (.antTx1 0), .vddtx, .signal (.antTx2 0), .vss, .signal (.antRx 0)]]

/-- The safety and control block's rows, K to AA (R534). -/
def safetyRows : List (List BallUse) := [
  [.signal .snaTxd, .signal .snaRxd, .signal .snaDe],
  [.signal .snbTxd, .signal .snbRxd, .vss],
  [.signal .estopA, .signal .estopB, .signal .estopT],
  [.signal .srstN, .signal .shtN, .signal .faultN],
  [.signal .peMon, .vddio, .vss],
  [.signal .resetN, .signal .wakeN, .signal .tmode],
  [.vss, .signal .xi, .signal .xo],
  [.vss, .vddio, .vss],
  [.signal .tmpCoverN, .signal .tmpTermN, .signal .calen],
  [.signal .tmpMso, .signal .tmpMsi, .vbak],
  [.vss, .signal .x32i, .signal .x32o]]

def cell (rows : List (List BallUse)) (row column : Nat) : BallUse := (rows.getD row []).getD column .vss

/-- A ball of the core supply region (R535). -/
def coreBall (row column : Nat) : BallUse :=
  if column ≤ 6 then (if row % 2 = 0 then .vdda else .vssa)
  else if (row + column) % 2 = 1 then .vss
  else if column ≤ 22 then .vddc else .vddm

/-- What the ball in a row and column carries (R531). -/
def ball (row column : Nat) : BallUse :=
  if row ≤ 9 then (if column ≤ 24 then portBall 0 (row - 1) column else cell hostRows (row - 1) (column - 25))
  else if 21 ≤ row then (if column ≤ 24 then portBall 12 (29 - row) column else cell readerRows (row - 21) (column - 25))
  else if column ≤ 3 then cell meteringRows (row - 10) (column - 1)
  else if column ≤ 26 then coreBall row column
  else cell safetyRows (row - 10) (column - 27)

/-- All balls of the grid, 29 rows by 29 columns (R529). -/
def balls : List (Nat × Nat) := (List.range 29).flatMap (fun r => (List.range 29).map (fun c => (r + 1, c + 1)))

/-- Kinds of signal (R536). -/
inductive SignalKind where
  | analogIn | analogOut | digitalIn | pushPull | openDrain | usb
  deriving DecidableEq, Repr

/-- Supply domains of signals (R536). -/
inductive SignalDomain where
  | vdda | vddio | vddtx | vbak
  deriving DecidableEq, Repr

def PortSignal.group : PortSignal → SignalKind × SignalDomain
  | .iap => (.analogIn, .vdda)
  | .ian => (.analogIn, .vdda)
  | .ibp => (.analogIn, .vdda)
  | .ibn => (.analogIn, .vdda)
  | .icp => (.analogIn, .vdda)
  | .icn => (.analogIn, .vdda)
  | .ton => (.analogOut, .vdda)
  | .rcs => (.analogIn, .vdda)
  | .cps => (.analogIn, .vdda)
  | .pps => (.analogIn, .vdda)
  | .rct => (.pushPull, .vddio)
  | .ovs => (.digitalIn, .vddio)
  | .ctf => (.digitalIn, .vddio)
  | .pbf => (.digitalIn, .vddio)
  | .ctd => (.pushPull, .vddio)
  | .pbd => (.pushPull, .vddio)
  | .cpd => (.pushPull, .vddio)

def SpiSignal.kind : SpiSignal → SignalKind
  | .sck => .digitalIn
  | .csN => .digitalIn
  | .mosi => .digitalIn
  | .miso => .pushPull
  | .irqN => .openDrain

/-- Table: signal groups (R536). -/
def Signal.group : Signal → SignalKind × SignalDomain
  | .port _ x => x.group
  | .vb _ _ _ => (.analogIn, .vdda)
  | .sc _ _ => (.analogIn, .vdda)
  | .ax _ _ => (.analogIn, .vdda)
  | .spi _ x => (x.kind, .vddio)
  | .hp3Txd => (.pushPull, .vddio)
  | .hp3Rxd => (.digitalIn, .vddio)
  | .hp3IrqN => (.openDrain, .vddio)
  | .svcDp => (.usb, .vddio)
  | .svcDm => (.usb, .vddio)
  | .svcVbus => (.digitalIn, .vddio)
  | .svcTxd => (.pushPull, .vddio)
  | .svcRxd => (.digitalIn, .vddio)
  | .trcClk => (.pushPull, .vddio)
  | .trcD _ => (.pushPull, .vddio)
  | .antTx1 _ => (.analogOut, .vddtx)
  | .antTx2 _ => (.analogOut, .vddtx)
  | .antRx _ => (.analogIn, .vdda)
  | .plcTxp => (.analogOut, .vdda)
  | .plcTxn => (.analogOut, .vdda)
  | .plcRxp => (.analogIn, .vdda)
  | .plcRxn => (.analogIn, .vdda)
  | .plcPs _ => (.pushPull, .vddio)
  | .snaTxd => (.pushPull, .vddio)
  | .snaRxd => (.digitalIn, .vddio)
  | .snaDe => (.pushPull, .vddio)
  | .snbTxd => (.pushPull, .vddio)
  | .snbRxd => (.digitalIn, .vddio)
  | .estopA => (.digitalIn, .vddio)
  | .estopB => (.digitalIn, .vddio)
  | .estopT => (.pushPull, .vddio)
  | .srstN => (.digitalIn, .vddio)
  | .shtN => (.openDrain, .vddio)
  | .faultN => (.openDrain, .vddio)
  | .peMon => (.digitalIn, .vddio)
  | .resetN => (.digitalIn, .vddio)
  | .wakeN => (.digitalIn, .vbak)
  | .tmode => (.digitalIn, .vbak)
  | .xi => (.analogIn, .vdda)
  | .xo => (.analogOut, .vdda)
  | .tmpCoverN => (.digitalIn, .vbak)
  | .tmpTermN => (.digitalIn, .vbak)
  | .calen => (.digitalIn, .vddio)
  | .tmpMso => (.pushPull, .vbak)
  | .tmpMsi => (.digitalIn, .vbak)
  | .x32i => (.analogIn, .vbak)
  | .x32o => (.analogOut, .vbak)

end Sys2Proof.Machine
end

