-- ==== Sys2Proof/WellFormed.lean ====
section
/-! DEFINITION. Which commands can be: the ranges that a pin, a converter, a received frame or a counter of the hardware admits. The
machine itself is total; no statement needs a command to be well formed. -/

namespace Sys2Proof

/-- Values that the width of their field holds. -/
def u8 (n : Nat) : Bool := decide (n < 256)
def u16 (n : Nat) : Bool := decide (n < 65536)
def u32 (n : Nat) : Bool := decide (n < 4294967296)
def s16 (n : Int) : Bool := decide (-32768 ≤ n ∧ n < 32768)
def s32 (n : Int) : Bool := decide (-2147483648 ≤ n ∧ n < 2147483648)
def u32s (l : List Nat) : Bool := l.all u32

/-- A dynamic slot of the channel table (R76). -/
def slotOk (n : Nat) : Bool := decide (0x1F ≤ n ∧ n ≤ 0xFF)

def ModSamples.wf (x : ModSamples) : Bool := x.samples.all s32

/-- A publication holds each modulator at most once (R31). -/
def MirrorPub.wf (x : MirrorPub) : Bool :=
  x.fast.all ModSamples.wf && decide (x.fast.length ≤ 160) && u32 x.start && u32 x.count && decide (x.comparators.length ≤ 72)

/-- A period has 1000 pilot samples and ten of the contactor feedback (R108, R120). -/
def LaneSample.wf (x : LaneSample) : Bool :=
  decide (x.cps.length = 1000) && x.cps.all (fun c => decide (c < 4096)) && u32 x.pps && u32 x.vdda && decide (x.ctf.length = 10) && s32 x.rcsDc && u32 x.rcsAc
    && u32 x.rcsRms

def ResidualReading.wf (x : ResidualReading) : Bool := s32 x.dc && u32 x.ac && u32 x.rms

def ZeroCrossing.wf (x : ZeroCrossing) : Bool := u32 x.before && u32 x.after

def CycleData.wf (x : CycleData) : Bool :=
  decide (x.modulators.length ≤ 160) && x.modulators.all ModSamples.wf && decide (x.crossings.length ≤ 3)
    && x.crossings.all (fun c => c.2.wf)

def PathStrobe.wf (x : PathStrobe) : Bool := u32 x.x1 && u32 x.peak

/-- A tone window has 80 000 samples (R163). -/
def toneSamplesOk (xs : List Int) : Bool := decide (xs.length ≤ 80000) && xs.all s32

/-- Field widths of the header and payload of a powerline frame (R368, R372). -/
def PlcFrame.wf (f : PlcFrame) : Bool :=
  u16 f.source && u16 f.destination && u16 f.originator && u16 f.final && u8 f.hopsLeft && decide (f.type < 128) && decide (f.priority < 4)
    && decide (f.sequence < 64) && u32 f.counter && decide (f.zcOffset < 4096) && decide (f.ownOffset < 4096)
    && decide (f.data.length < 1024) && f.symbols.all s16

/-- The SNR of at most 8 frames of a band, of each carrier (R377). -/
def snrsOk (d : Band) (snrs : List (List Int)) : Bool :=
  decide (snrs.length ≤ 8) && snrs.all (fun x => x.all s16 && decide (x.length = match d with
    | .low => 36
    | .upper => 216))

/-- A response with other data has no more than a block and its generation. -/
def Fate.wf : Fate → Bool
  | .altered d => decide (d.length ≤ 34)
  | _ => true

/-- A tag as the anticollision and the inventory give it (R409 to R413). -/
def Tag.wf (t : Tag) : Bool :=
  [4, 7, 8, 10].contains t.uid.length && u8 t.attemptsLeft && decide (t.rates ≤ 3) && decide (t.password.length = 4 ∧ t.key.length = 16)
    && decide (t.rt.length = 8) && t.fates.all Fate.wf
    && t.blocks.all (fun b => decide (b.index < 64) && u16 b.generation && decide (b.data.length = 32))

/-- Who met a line: a clock domain, 0xFE for the scrubber, 0xFF for none (R473). -/
def LineRequester.wf (x : LineRequester) : Bool := decide (x.code ≤ 11 ∨ x.code = 0xFE ∨ x.code = 0xFF)

/-- A window of the PUF array has 2048 cells (R440). -/
def windowOk (x : Nat) : Bool := decide (x < 2 ^ 2048)

/-- The PUF array has 32 windows (R440). -/
def StartFacts.wf (f : StartFacts) : Bool := decide (f.array.length ≤ 32) && f.array.all windowOk

/-- Five readings of a window and the sixth (R443). -/
def ReanchorTry.wf (t : ReanchorTry) : Bool := decide (t.readings.length = 5) && t.readings.all windowOk && windowOk t.check

/-- Six AES keys, the hash of slot 11 or none, and the three certificates (R443, R454). -/
def Provisioning.wf (x : Provisioning) : Bool :=
  decide (x.keys.length = 6) && x.keys.all (fun k => decide (k.length = 16)) && (x.oemHash.isEmpty || decide (x.oemHash.length = 32))
    && decide (x.certificates.length = 3) && windowOk x.reference

/-- The command's operands lie within what the hardware can bring. -/
def Instr.wf : Instr → Bool
  | .status _ => true
  | .writeFrame _ _ => true
  | .readFrame _ _ => true
  | .readAgain _ => true
  | .spiUnknownCommandByte _ _ => true
  | .uartMailboxUnit _ _ => true
  | .uartUnitAbort _ => true
  | .linkControlResend _ => true
  | .linkStatusUnit _ => true
  | .uartFrameSent _ => true
  | .eventGap _ => true
  | .hostAttach _ => true
  | .hostAttachConfirm _ => true
  | .attachTimeout _ => true
  | .attachBarEnd _ => true
  | .hostDetach _ => true
  | .hostStatus _ => true
  | .keepaliveExpiry _ => true
  | .deviceInfo _ => true
  | .timeGet _ => true
  | .timeSet _ => true
  | .softReset _ => true
  | .dormant _ => true
  | .blockReset _ => true
  | .resetCause _ => true
  | .optionRead _ => true
  | .optionWrite _ => true
  | .channelCreate _ => true
  | .channelDestroy _ => true
  | .channelRead _ => true
  | .channelModify _ => true
  | .channelList _ => true
  | .cfgBegin _ => true
  | .cfgWrite _ => true
  | .cfgCommit _ => true
  | .cfgAbort _ => true
  | .cfgRead _ => true
  | .cfgStatus _ => true
  | .stageTimeout _ => true
  | .commitApplyTimeout _ => true
  | .allocSet _ => true
  | .allocRead _ => true
  | .mirrorPublish _ pub => pub.wf
  | .mirrorPublishUnsync pub => pub.wf
  | .mirrorEntryStale _ => true
  | .zoneTimerRestart _ => true
  | .softShedding _ => true
  | .hardShedding _ => true
  | .guardBlindFault _ => true
  | .clockLost _ => true
  | .clockGood _ => true
  | .islandReleaseTimeout _ => true
  | .evaluationPeriod _ x => x.wf
  | .pilotConfirmed _ => true
  | .pilotFault _ => true
  | .proximityCodeAccepted _ => true
  | .cableRefused _ => true
  | .reservationExpired _ => true
  | .allowanceOpeningTimeout _ => true
  | .residualTestStep _ r => r.wf
  | .closingContactorSettled _ _ _ => true
  | .closingPreBreakStart _ => true
  | .closingPbfCheck _ _ => true
  | .ovsEdge _ => true
  | .ovsAbsent _ => true
  | .ovsPresenceTimeout _ => true
  | .openingCurrentZero _ => true
  | .openingPbfCheck _ _ => true
  | .openingContactorRelease _ => true
  | .openingCtfCheck _ _ => true
  | .weldProbe _ => true
  | .weldProbeEnd _ _ => true
  | .contactorFeedbackDiscrepancy _ _ => true
  | .preBreakDiscrepancy _ _ => true
  | .faultOpeningChecks _ _ => true
  | .portEnable _ => true
  | .portDisable _ => true
  | .sessionOpen _ => true
  | .sessionAuthorise _ => true
  | .sessionStop _ => true
  | .portStatus _ => true
  | .sessionStatus _ => true
  | .portDiag _ => true
  | .sessionEnded _ => true
  | .lineCycleEnd d => d.wf
  | .pathChange _ first rest => (first :: rest).all PathStrobe.wf
  | .frequencyDetected found => decide (found.crossings.length = 5) && found.crossings.all ZeroCrossing.wf
  | .toneWindowEnd _ xs => toneSamplesOk xs
  | .toneObscured _ => true
  | .regRead _ => true
  | .regReadSet _ => true
  | .snapshotRead _ => true
  | .billingClose _ => true
  | .tariffActivate _ => true
  | .readSigned _ => true
  | .legalLogRead _ => true
  | .certRead _ => true
  | .calRead _ => true
  | .calWrite _ => true
  | .calSeal _ => true
  | .sealPulseEnd _ => true
  | .toneStatus _ => true
  | .calenChange _ => true
  | .tamperInputChange _ _ => true
  | .supplyExcursion _ mv => u16 mv
  | .residualCurrentDetected _ _ reading => s32 reading
  | .residualSensorFault _ mv => u16 mv
  | .fastTrip _ _ _ _ => true
  | .comparatorSelfTest _ _ _ => true
  | .peMonWindow edges => u16 edges
  | .estopTestPulse _ _ => true
  | .estopInputChange _ _ => true
  | .lockoutReset _ => true
  | .clearProbeEnd _ => true
  | .srstNPulse lowMs => u32 lowMs
  | .degradedOvercurrent _ => true
  | .safetyStatus _ => true
  | .faultRecordRead _ => true
  | .safetyParamRead _ => true
  | .safetyParamStage _ => true
  | .safetyCommit _ => true
  | .telegramStatus _ => true
  | .telegramCopyReceived _ framing arrivalUs _ => decide (framing.canId < 2048) && u32 arrivalUs
  | .plcStatus _ => true
  | .plcNeighbours _ => true
  | .plcSend _ => true
  | .plcPairingOpen _ => true
  | .plcRouteRead _ => true
  | .plcTonemapRead _ => true
  | .plcNodeRemove _ => true
  | .contentionPeriod _ => true
  | .plcTransmitStart _ => true
  | .plcTransmitEnd _ => true
  | .plcAckSend _ => true
  | .plcAckTimeout _ => true
  | .acknowledgement _ => true
  | .plcFrameCheckFailed d source x snrs => u16 source && x.energies.all s16 && snrsOk d snrs
  | .toneMapUpdate _ f => f.wf
  | .toneMapRefresh d slot snrs => slotOk slot && snrsOk d snrs
  | .toneMapLapse _ slot _ _ => slotOk slot
  | .routeReq _ f => f.wf
  | .routeRep _ f => f.wf
  | .routeReplyDue requestId => u16 requestId
  | .routeRequestTimeout target => u16 target
  | .routeErr _ f => f.wf
  | .routeEntryLapse destination => u16 destination
  | .neighbourTimeout slot => slotOk slot
  | .gatewayReport _ f => f.wf
  | .nodeStatus _ f => f.wf
  | .hostData _ f => f.wf
  | .portIndication _ => true
  | .joinReq _ f => f.wf
  | .joinConfirm _ f => f.wf
  | .joinConfirmTimeout address => u16 address
  | .readerPing _ _ _ field => decide (field.length ≤ 255) && field.all Tag.wf
  | .presentationCheck _ _ => true
  | .heldTapExpiry tap => u32 tap
  | .proofExpiry id => u32 id
  | .keytagReachAgain _ fates => fates.all (fun fs => fs.all Fate.wf)
  | .tagTxnTimeout _ => true
  | .readerStatus _ => true
  | .tagRead _ => true
  | .tagWrite _ => true
  | .tagProvision _ => true
  | .authlistRead _ => true
  | .authlistWrite _ => true
  | .bindPort _ => true
  | .keyStatus _ => true
  | .keyStage _ => true
  | .keyVerify _ => true
  | .keyCommit _ => true
  | .keyAbort _ => true
  | .reanchoring tries => decide (tries.length ≤ 4) && tries.all (·.wf)
  | .meshCheck _ => true
  | .temperatureCheck celsius => s16 celsius
  | .destruction _ => true
  | .scrubLine _ line _ by_ => u32 line && by_.wf
  | .mramRefresh page _ => u16 page
  | .pageRetire _ => true
  | .errorLogRead _ => true
  | .memStatus _ => true
  | .updateStatus _ => true
  | .updateConfirm _ => true
  | .ownerLock _ => true
  | .ownerUnlock _ => true
  | .updateClaim _ => true
  | .updateBlock _ => true
  | .updateActivate _ => true
  | .updateRelease _ => true
  | .svcVbusChange mv => u16 mv
  | .counterRead _ => true
  | .traceLost _ => true
  | .brownOut _ => true
  | .resetNLow us => u32 us
  | .watchdogReset _ => true
  | .deviceStart facts => facts.wf
  | .vbakLow _ => true
  | .bulkOutTransfer _ => true
  | .reProvisioning r => r.wf
  | .preambleDetected _ => true
  | .plcHeaderCheckFailed _ => true
  | .slewComplete => true
  | .holdEnd => true
  | .softResetExecute => true
  | .dormantEntry => true
  | .shutdownOpeningsTimeout => true
  | .blockResetComplete => true
  | .allocInputHeartbeat => true
  | .allocInputStale => true
  | .hostSurplusExpiry => true
  | .allocationBoundary => true
  | .sessionEventQueueHeartbeat => true
  | .controlLost => true
  | .gapEntry => true
  | .sessionEventDeliver => true
  | .clockDeviation => true
  | .frequencyLost => true
  | .toneStateSave => true
  | .latch => true
  | .saveComplete => true
  | .signatureComplete => true
  | .tamperBufferMove => true
  | .lockstepMismatch => true
  | .turretAliveTimeout => true
  | .cd1Loss => true
  | .reactionEnd => true
  | .escalationWindowEnd => true
  | .shuntTripPulseEnd => true
  | .lockoutResetTimeout => true
  | .confirmationWindowExpired => true
  | .srstNStuck => true
  | .degradedTimeEnd => true
  | .degradedEarlyEnd => true
  | .telegramTransmit => true
  | .skewAllowanceEnd => true
  | .telegramTimeout => true
  | .energyReport => true
  | .beacon => true
  | .pairingWindowClose => true
  | .vddtxLow => true
  | .vddtxRestored => true
  | .retiringKeyErase => true
  | .rngHealthFailure => true
  | .rngHealthRestored => true
  | .bucketLeak => true
  | .bankEraseComplete => true
  | .activationSaveComplete => true
  | .activationReset => true
  | .claimTimeout => true
  | .trialExpiry => true
  | .fallbackReset => true
  | .fallbackForcedStop => true
  | .traceSync => true
  | .powerOn => true
  | .resetNStuck => true
  | .steepleFatalReset => true
  | .suppliesGood => true
  | .holdUpEntry => true
  | .holdUpEnd => true
  | .permitsRestored => true
  | .wakeN => true
  | .clearConditionsMet => true
  | .srstNRearm => true
  | .resetNRearm => true
  | .aonDomainStop => true
  | .bulkInTransfer => true
  | .calCaptureTimeout => true
  | .busOffRecovery => true
  | .commitWordWritten => true

end Sys2Proof
end

