-- ==== Sys2Proof/Tests/Slice0.lean ====
section
/-! SUPPORT. Tests: single steps on small states against the manual's numbers, an ill-formed term for each check of well-formedness,
and, for each statement, states that meet the hypotheses of its clauses, at the bounds of their ranges. -/

namespace Sys2Proof.Tests

open Sys2Proof.Machine

set_option Elab.async false

/-! ## Small states -/

/-- The device in service, with a supervisor's unkeyed session on host port 0. -/
def running : State :=
  { State.reset with
    power := { Power.reset with phase := .running, inForce := { OptionBlock.safe with roles := #v[3, 3, 3, 3] } }
    rotunda := { Rotunda.reset with boxes := Rotunda.reset.boxes.set 0 { Mailbox.reset with session := some ⟨3, false, [], 0, 0, 0, 0, 0⟩ } } }

/-- The same at another time of the model's clock and of civil time. -/
def State.at_ (s : State) (now : Nat) : State := { s with now := now, civil := now }

/-- A request frame of sequence 7. -/
def frameOf (op handle : Nat) (payload : List Byte) : Frame := ⟨1, 0, 7, op, 0, handle, payload, [], 0, 1⟩

/-- The same frame as bytes, with its check sequence. -/
def wireOf (op handle : Nat) (payload : List Byte) : List Byte :=
  (frameOf op handle payload).body ++ le 4 (crc32c (frameOf op handle payload).body)

/-- The request it makes on host port 0 under a role. -/
def reqOf (op handle : Nat) (payload : List Byte) : Req := ⟨0, op, tagOf 7 1, handle, payload, 0, 3, 0xFFFF⟩

/-- A request waits in the inbound ring of host port 0. -/
def asking (op handle : Nat) (payload : List Byte) (s : State) : State :=
  s.modBox 0 (fun m => { m with inRing := [frameOf op handle payload] })

/-- The request is asked in that state, and it, the state and the state that taking it leaves meet a condition. -/
abbrev Met (op handle : Nat) (payload : List Byte) (s : State) (cond : Req → State → State → Prop) : Prop :=
  ready (asking op handle payload s) 0 op = some (frameOf op handle payload, reqOf op handle payload) ∧
    ((asking op handle payload s).box 0).segments.all (·.matches (frameOf op handle payload)) = true ∧
    cond (reqOf op handle payload) (asking op handle payload s)
      (taken 0 (frameOf op handle payload) (asking op handle payload s))

/-- What `Met` shows is the hypothesis of the statements. -/
theorem test_met_is_asked {op handle payload s cond} (h : Met op handle payload s cond) :
    ∃ f r, Asked 0 op f r (asking op handle payload s) ∧
      cond r (asking op handle payload s) (taken 0 f (asking op handle payload s)) :=
  ⟨_, _, ⟨h.1, h.2.1⟩, h.2.2⟩

/-- What a command leaves, read through a function. -/
def after {α : Type} (c : Instr) (s : State) (f : State → α) : Option α :=
  match exec c s with
  | .next t => some (f t)
  | .fault _ => none
  | .refused _ => none

/-! ## Hypotheses met: the block and its host ports -/

theorem test_IdleStepIsOneMillisecond_met : running.pending = [] ∧ running.aon = true ∧ running.keep.slewLeft = 0 ∧
    { running with power := { running.power with phase := .off } }.aon = false := by decide +kernel

theorem test_StepsKeepCapacities_met : running.Within where
  rotunda := by unfold Rotunda.Within; decide
  turret := by unfold Turret.Within; decide
  steeple := by unfold Steeple.Within; decide
  legal := by unfold Legal.Within; decide
  keep := by unfold Keep.Within; decide
  oculus := by unfold Oculus.Within; decide
  memory := by unfold Memory.Within; decide
  update := by unfold Update.Within; decide

/-- One frame waits to leave host port 0 and one is kept there. -/
def sending : State := running.modBox 0 (fun m => { m with
  outRing := [frameOf 0x8001 0 []], kept := some (frameOf 0x8001 0 []), slotFreed := true })

theorem test_SpiTransactions_met : sending.linkUp = true ∧ sending.isSpi 0 = true ∧ 
    (running.box (hostBox 0)).outRing = [] ∧ (sending.box (hostBox 0)).outRing = [frameOf 0x8001 0 []] ∧
    (frameOf 0x8001 0 []).bytes.length = 20 ∧ ¬ (0x3D : Byte) ∈ [0x3C, 0x5A, 0xA5, 0xC3] := by
  decide +kernel

theorem test_FramesArrive_met : parseFrame 1 (zeros 19) = none ∧
    parseFrame 1 (wireOf 0x0111 0 []) = some { frameOf 0x0111 0 [] with crc := crc32c (frameOf 0x0111 0 []).body } ∧
    (parseFrame 1 (unescapeUnit (escapeUnit (wireOf 0x0111 0 [0x7E])))).isSome = true ∧ running.uartUp .svc = true ∧
    running.servesBox (uartBox .svc) = true ∧ running.servesBox 4 = true ∧ (running.box 4).inRing.length < 8 ∧
    { running with update := { running.update with vbus := true } }.update.vbus = true ∧
    (running.modBox 0 (fun m => { m with inRing := List.replicate 7 (frameOf 0 0 []) }) |>.box 0).inRing.length < 8 := by
  decide +kernel

/-- The same on lane 1 of the service port and on its USB lane, with events lost on host port 0. -/
def lines : State := { ((running.modBox 5 (fun m => { m with
    outRing := [frameOf 0x8001 0 []], kept := some (frameOf 0x8001 0 []), slotFreed := true })).modBox 4 (fun m => { m with
    outRing := [frameOf 0x8001 0 []] })).modBox 0 (fun m => { m with lost := some ⟨3, 4, 6⟩ }) with
  update := { running.update with vbus := true } }

theorem test_LinesOutbound_met : lines.uartUp .svc = true ∧ (lines.box (uartBox .svc)).kept = some (frameOf 0x8001 0 []) ∧
    (lines.box (uartBox .svc)).slotFreed = true ∧ ((State.at_ running 100).box 5).lastTxAt + 100 ≤ (State.at_ running 100).now ∧
    (lines.box (uartBox .svc)).outRing = [frameOf 0x8001 0 []] ∧ lines.linkUp = true ∧ lines.update.vbus = true ∧
    (lines.box 4).outRing = [frameOf 0x8001 0 []] ∧ lines.servesBox 0 = true ∧ (lines.box 0).lost = some ⟨3, 4, 6⟩ ∧
    (lines.box 0).session = some ⟨3, false, [], 0, 0, 0, 0, 0⟩ ∧ 0 < (lines.box 0).outFree ∧
    (⟨3, false, [], 0, 0, 0, 0xFFFFFFFE, 0⟩ : Session).seqOut < 0xFFFFFFFF := by
  decide +kernel

/-- Host port 0 has role OBSERVER and nobody attached. -/
def unattached : State :=
  { running with
    power := { running.power with inForce := { running.power.inForce with roles := #v[0, 3, 3, 3] } }
    rotunda := { running.rotunda with boxes := Rotunda.reset.boxes } }

/-- The frame of step 4 of an attach: sequence 7, role OBSERVER. -/
def confirming (proof : List Byte) : Frame := ⟨1, 0, 7, 0x0102, 0, 0, proof, [], 0, 1⟩

theorem test_Attaching_met :
    ready (asking 0x0101 0 (zeros 20) unattached) 0 0x0101 =
      some (frameOf 0x0101 0 (zeros 20), { reqOf 0x0101 0 (zeros 20) with role := 0 }) ∧
    (taken 0 (frameOf 0x0101 0 (zeros 20)) (asking 0x0101 0 (zeros 20) unattached)).roleOf 0 = 0 ∧
    (taken 0 (frameOf 0x0101 0 (zeros 20)) (asking 0x0101 0 (zeros 20) unattached)).barred 0 = false ∧
    (let s := (asking 0x0102 0 (zeros 16) running).modBox 0 (fun m => { m with attach := some ⟨3, zeros 16, zeros 16, 6, 0⟩ })
     ready s 0 0x0102 = some (frameOf 0x0102 0 (zeros 16), reqOf 0x0102 0 (zeros 16)) ∧
      ((taken 0 (frameOf 0x0102 0 (zeros 16)) s).box 0).attach = some ⟨3, zeros 16, zeros 16, 6, 0⟩ ∧ s.now ≤ 0 ∧
      (taken 0 (frameOf 0x0102 0 (zeros 16)) s).rotunda.supervisor ≠ .reserved 0 ∧
      (State.at_ s 0).serves = true ∧ (s.box (hostBox 0)).attach = some ⟨3, zeros 16, zeros 16, 6, 0⟩) ∧
    (let s := (State.at_ running 5).modBox 0 (fun m => { m with barUntil := some 5 })
     s.serves = true ∧ (s.box (hostBox 0)).barUntil = some 5 ∧ 5 ≤ s.now) ∧
    Met 0x0103 0 [] running (fun r _ _ => r.payload = [] ∧ r.handle = 0) ∧
    Met 0x0104 0 [] running (fun r s _ => r.payload = [] ∧ r.handle = 0 ∧ s.rotunda.rebuilding.contains 0x19 = false) ∧
    (let s := State.at_ running 60000
     s.serves = true ∧ (s.box (hostBox 0)).session.isSome = true ∧
       (s.box (hostBox 0)).lastRxAt + 1000 * s.power.inForce.keepalive ≤ s.now) := by
  decide +kernel

theorem test_FailedAttachesBar_met :
    (let s := (State.at_ unattached 10000).modBox 0 (fun m => { m with failedAttaches := [1, 9000] })
     (s.box (hostBox 0)).failedAttaches = [1, 9000] ∧ s.now < 1 + 10000 ∧ s.now < 9000 + 10000) ∧
    (let s := (asking 0x0101 0 (zeros 20) (State.at_ unattached 9999)).modBox 0 (fun m => { m with barUntil := some 10000 })
     ready s 0 0x0101 = some (frameOf 0x0101 0 (zeros 20), { reqOf 0x0101 0 (zeros 20) with role := 0 }) ∧
      field (zeros 20) 0 1 = (taken 0 (frameOf 0x0101 0 (zeros 20)) s).roleOf 0 ∧ modeSuits 0 0 = true ∧
      ((taken 0 (frameOf 0x0101 0 (zeros 20)) s).box 0).barUntil = some 10000 ∧ s.now < 10000) := by
  decide +kernel

theorem test_SessionEnd_met : (running.box 0).session.isSome = true ∧
    (⟨0, 0x0401, 1, 0, 0, 0, []⟩ : Waiting).epoch = (running.box 0).epoch := by decide +kernel

/-- OPTION_WRITE of keepalive 61 s, of the region, and of the mesh. -/
def writeKeepalive : List Byte := [14, 2, 0, 0, 0, 0, 0, 0, 61, 0]
def writeRegion : List Byte := [20, 1, 0, 0, 0, 0, 0, 0, 1]
def writeMesh : List Byte := [18, 1, 0, 0, 9, 0, 0, 0, 1]

/-- An INSTALLER's proof and an OWNER's, 119.999 s old. -/
def proven : State := { State.at_ running 119999 with oculus := { running.oculus with
  proofs := [⟨9, 2, 0, [1, 2, 3, 4], 0, 0, false⟩, ⟨10, 3, 0, [1, 2, 3, 4], 0, 0, false⟩] } }

/-- The options stored, and as a request would leave them. -/
def stored (s : State) : OptionBlock := s.power.newest.getD OptionBlock.safe
def patched (s : State) (r : Req) : OptionBlock := (stored s).patch (field r.payload 0 1) (r.payload.drop 8)

theorem test_DeviceQueries_met :
    Met 0x0110 0 [] running (fun r _ _ => r.payload = [] ∧ r.handle = 0) ∧
    Met 0x0116 0 [] running (fun r _ _ => r.payload = [] ∧ r.handle = 0) ∧
    Met 0x0117 0 [1, 0, 0, 0] running (fun r _ _ => r.payload.length = 4 ∧ r.handle = 0 ∧ field r.payload 0 1 ≤ 1) ∧
    Met 0x0118 0 writeKeepalive running (fun r s t => s.power.holdUp = false ∧ 8 ≤ field r.payload 0 1 ∧ 1 ≤ field r.payload 1 1 ∧
      field r.payload 0 1 + field r.payload 1 1 ≤ 22 ∧ r.payload.length = 8 + field r.payload 1 1 ∧
      (patched t r).ok = true ∧ (patched t r).region = (stored t).region ∧ (stored t).uryan = (patched t r).uryan ∧
      (stored t).mesh = (patched t r).mesh) ∧
    Met 0x0118 0 writeMesh proven (fun r _ t => (stored t).mesh ≠ (patched t r).mesh ∧ t.installerProof (field r.payload 4 4) = true) ∧
    running.power.newest = some OptionBlock.factory ∧
    Met 0x0118 0 [22, 1, 0, 0, 0, 0, 0, 0, 1] running (fun r _ _ => r.handle = 0 ∧ r.payload.length = 8 + field r.payload 1 1 ∧
      22 < field r.payload 0 1 + field r.payload 1 1) ∧
    Met 0x0118 0 [7, 1, 0, 0, 0, 0, 0, 0, 1] running (fun r _ _ => r.payload.length = 8 + field r.payload 1 1 ∧ field r.payload 0 1 < 8) ∧
    Met 0x0118 0 writeRegion running (fun r _ t => field r.payload 0 1 + field r.payload 1 1 ≤ 22 ∧
      (patched t r).region ≠ (stored t).region) ∧
    Met 0x0118 0 writeMesh (State.at_ proven 120000) (fun r _ t => t.installerProof (field r.payload 4 4) = false ∧
      (patched t r).ok = true ∧ (patched t r).region = (stored t).region ∧ (stored t).mesh ≠ (patched t r).mesh) := by
  (repeat' apply And.intro) <;> decide +kernel

/-! ## Hypotheses met: time, metering, billing and the legal log -/

/-- TIME_SET to a time, with its flags byte. -/
def setTo (t flags : Nat) : List Byte := le 6 t ++ le 1 flags ++ [0]

/-- Ten million milliseconds after the start. -/
def late : State := State.at_ running 10000000

theorem test_TimeCommands_met :
    Met 0x0111 0 [] running (fun r s _ => r.payload = [] ∧ r.handle = 0 ∧ s.keepUp = true) ∧
    Met 0x0112 0 (setTo 10000001 0) late (fun r s _ => r.payload.length = 8 ∧ s.keepUp = true ∧ s.keep.writing = none ∧
      s.time < field r.payload 0 6) ∧
    Met 0x0112 0 (setTo 9999999 0) late (fun r s _ => field r.payload 0 6 < s.time ∧ s.time ≤ field r.payload 0 6 + 2000) ∧
    Met 0x0112 0 (setTo 9998000 0) late (fun r s _ => field r.payload 0 6 < s.time ∧ s.time ≤ field r.payload 0 6 + 2000) ∧
    Met 0x0112 0 (setTo 9997999 0) late (fun r s _ => field r.payload 0 6 + 2000 < s.time ∧ s.time ≤ field r.payload 0 6 + 3600000) ∧
    Met 0x0112 0 (setTo 6400000 0) late (fun r s _ => field r.payload 0 6 + 2000 < s.time ∧ s.time ≤ field r.payload 0 6 + 3600000) ∧
    Met 0x0112 0 (setTo 6399999 1) late (fun r s _ => field r.payload 0 6 + 2000 < s.time ∧ field r.payload 6 1 ≠ 0) ∧
    Met 0x0112 0 (setTo 6399999 0) late (fun r s _ => r.payload.length = 8 ∧ r.handle = 0 ∧ s.keepUp = true ∧ s.keep.writing = none ∧
      field r.payload 0 6 + 3600000 < s.time ∧ field r.payload 6 1 = 0) ∧
    running.aon = true ∧ running.keep.slewLeft = 0 ∧ running.keep.billing ≤ running.civil := by
  (repeat' apply And.intro) <;> decide +kernel

/-- A snapshot has been closed. -/
def snapped : State := running.withKeep { running.keep with
  snapshots := [⟨1, 0, 0, 0, 0, 0, 0, running.keep.latched.sets, running.keep.demand.maxImport, running.keep.demand.maxExport⟩] }

theorem test_MeterReads_met :
    Met 0x0501 0 [28, 0, 0, 0] running (fun r s _ => r.payload.length = 4 ∧ r.handle = 0 ∧ field r.payload 0 1 ≤ 28 ∧
      field r.payload 1 1 = 0 ∧ s.keepUp = true) ∧
    Met 0x0501 0 [28, 1, 0, 0] running (fun r s _ => field r.payload 0 1 ≤ 28 ∧ field r.payload 1 1 = 1 ∧ s.keepUp = true) ∧
    Met 0x0502 0 [11, 18, 0, 0] running (fun r s _ => r.payload.length = 4 ∧ r.handle = 0 ∧ 1 ≤ field r.payload 1 1 ∧
      field r.payload 1 1 ≤ 18 ∧ field r.payload 0 1 + field r.payload 1 1 ≤ 29 ∧ s.keepUp = true) ∧
    Met 0x0502 0 [0, 0, 0, 0] running (fun r _ _ => field r.payload 1 1 = 0) ∧
    Met 0x0502 0 [0, 19, 0, 0] running (fun r _ _ => 18 < field r.payload 1 1) ∧
    Met 0x0502 0 [12, 18, 0, 0] running (fun r _ _ => 29 < field r.payload 0 1 + field r.payload 1 1) ∧
    Met 0x0504 0 [28, 0, 0, 0] running (fun r s _ => r.payload.length = 4 ∧ field r.payload 0 1 = (28 : Fin 29).val ∧
      field r.payload 1 1 = 0 ∧ s.keepUp = true) ∧
    Met 0x0504 0 [28, 1, 0, 0] snapped (fun r s _ => 1 ≤ field r.payload 1 1 ∧ field r.payload 1 1 ≤ 24 ∧
      (s.keep.snapshots[field r.payload 1 1 - 1]?).isSome = true ∧ s.keepUp = true) ∧
    Met 0x0509 0 [138, 22, 0, 0] running (fun r s _ => r.payload.length = 4 ∧ 1 ≤ field r.payload 1 1 ∧ field r.payload 1 1 ≤ 22 ∧
      field r.payload 0 1 + field r.payload 1 1 ≤ 160 ∧ s.keepUp = true) ∧
    Met 0x050C 0x01000117 [] running (fun r s t => r.payload = [] ∧ t.current r.handle = true ∧ portOfHandle r.handle = some 23 ∧
      s.keepUp = true) := by
  (repeat' apply And.intro) <;> decide +kernel

/-- The line frequency is 50 Hz and L1 is present; its last positive crossing was at 100 ms. -/
def lined : State := (State.at_ running 130).withDsp { running.dsp with
  frequency := some 50000, lastCrossing := 100000000, strobe := 826, volts := #v[true, false, false, false, false, false, false, false] }

/-- Crossings at the given input instants: 46.875 µs later in the second branch, at one of its samples. -/
def at120 : ZeroCrossing := ⟨7683, 0, 1⟩
def at100 : ZeroCrossing := ⟨6403, 0, 1⟩

theorem test_LineCycles_met : at120.instant = 120000000 ∧ at100.instant = 100000000 ∧ lined.dspUp = true ∧
    (lined.cycleEnd ⟨[(0, at120)], []⟩).isSome = true ∧
    lined.dsp.settingsPending = none ∧ lined.cycleEnd ⟨[(0, ⟨6402, 0, 1⟩)], []⟩ = none ∧ lined.cycleEnd ⟨[], []⟩ = none ∧
    running.dsp.frequency = none ∧ (⟨0, 36751⟩ : PathStrobe).overload = true ∧
    (let d := { lined.dsp with holds := Vector.replicate 72 47, clears := Vector.replicate 72 160 }
     (⟨0, 36750⟩ : PathStrobe).overload = false ∧ d.holds[(71 : Fin 72)] ≠ 0 ∧ lined.dsp.holds[(71 : Fin 72)] = 0 ∧
       d.window ≤ d.clears[(71 : Fin 72)] ∧ ¬ lined.dsp.window ≤ lined.dsp.clears[(71 : Fin 72)]) ∧
    (let s := lined.withDsp { lined.dsp with frequency := none }
     s.sourcePhase = some 0 ∧ s.dsp.frequency = none ∧
       periodsOk (getRaw s.dsp.settings 0x0309 0) (⟨[⟨1283, 0, 1⟩, ⟨2563, 0, 1⟩, ⟨3843, 0, 1⟩, ⟨5123, 0, 1⟩, at100]⟩ : FrequencyFound).periods = true) ∧
    (lined.dsp.frequency = some 50000 ∧ 2 * lined.dsp.lastCrossing + 3 * periodNs 50000 ≤ 2 * lined.inputNow ∧
      (lined.withDsp { lined.dsp with volts := Vector.replicate 8 false }).sourcePhase = none ∧
      (lined.cycleEnd ⟨[(0, ⟨7825, 272, 728⟩)], []⟩).map (·.1) = some 122223000 ∧ lined.dsp.lastCrossing < 122223000 ∧
      frequencyOk (getRaw lined.dsp.settings 0x0309 0) (frequencyOf [122223000 - lined.dsp.lastCrossing]) = false) := by
  (repeat' apply And.intro) <;> decide +kernel

/-- Modulator 0 has a reference tone of 2.000 mV, and has been without a valid window for a day. -/
def toned : State := (State.at_ running 86400000).withDsp { running.dsp with
  cal := running.dsp.cal.set 0 { running.dsp.cal[0] with toneAmp := 2000000 }
  tones := running.dsp.tones.set 0 { running.dsp.tones[0] with state := .tracking } }

/-- Two samples 100 ms apart in phase with the tone and in antiphase with both side bands, equal under their Hann weights. -/
def toneSamples : List Int :=
  [0, 42949672960000000000] ++ List.replicate 799 0 ++ [42949672960000000000 / 1062041]

theorem test_ToneTracking_met :
    windowValid (toned.dsp.tones[(0 : Fin 144)]) (measureTone (toned.windowStrobe 0) toneSamples) (toned.dsp.cal[(0 : Fin 160)]) = true ∧
    windowValid (toned.dsp.tones[(0 : Fin 144)]) (measureTone (toned.windowStrobe 0) []) (toned.dsp.cal[(0 : Fin 160)]) = false ∧
    toned.dspUp = true ∧ toned.dsp.capture = none ∧ (toned.dsp.cal[(0 : Fin 160)]).toneAmp = 2000000 ∧
    (toned.dsp.tones[(0 : Fin 144)]).windowAt + 10000 ≤ toned.now ∧
    windowValid (toned.dsp.tones[(0 : Fin 144)]) ⟨99999, 99999, 1000000, 0⟩ (toned.dsp.cal[(0 : Fin 160)]) = true ∧
    windowValid (toned.dsp.tones[(0 : Fin 144)]) ⟨0, 0, 3000000, 0⟩ (toned.dsp.cal[(0 : Fin 160)]) = true ∧
    windowValid (toned.dsp.tones[(0 : Fin 144)]) ⟨100000, 0, 2000000, 0⟩ (toned.dsp.cal[(0 : Fin 160)]) = false ∧
    windowValid { toned.dsp.tones[(0 : Fin 144)] with spoiled := true } ⟨0, 0, 2000000, 0⟩ (toned.dsp.cal[(0 : Fin 160)]) = false ∧
    (State.at_ toned 9999).now < (toned.dsp.tones[(0 : Fin 144)]).windowAt + 10000 ∧ (toned.dsp.tones[(0 : Fin 144)]).state ≠ .lost ∧
    (let t := { toned.dsp.tones[(0 : Fin 144)] with amplitudeFails := 2 }
     t.spoiled = false ∧ sideBandsOk ⟨0, 0, 0, 0⟩ (toned.dsp.cal[(0 : Fin 160)]) = true ∧ t.amplitudeFails = 2) ∧
    (toned.dsp.tones[(0 : Fin 144)]).lastValidAt + 86400000 ≤ toned.now ∧ (toned.dsp.tones[(0 : Fin 144)]).state ≠ .notReferenced ∧
    toned.keepUp = true ∧ (State.at_ toned 600000).dsp.tonesStoredAt + 600000 ≤ (State.at_ toned 600000).now := by
  (repeat' apply And.intro) <;> decide +kernel

theorem test_LatchTakesThePeriod_met :
    (let s := running.withKeep { running.keep with cycles := 10 }
     s.keepUp = true ∧ s.dspUp = true ∧ s.keep.latchN ≤ s.keep.cycles ∧ ¬ s.keep.latchN ≤ 9 ∧ s.keep.writing = none ∧ s.keep.saving = none) ∧
    (running.withKeep { running.keep with closeNow := true }).keep.closeNow = true := by
  (repeat' apply And.intro) <;> decide +kernel

/-- What a save of the reset state holds. -/
def aSave : Save := ⟨running.keep.latched, running.keep.demand, running.keep.tariff, 5⟩

theorem test_SavesComplete_met : (let s := running.withKeep { running.keep with saving := some (aSave, []) }
    s.keepUp = true ∧ s.keep.saving = some (aSave, [])) ∧
    (running.withKeep { running.keep with saving := some (aSave, [.dormant]) }).keep.saving = some (aSave, [.dormant]) :=
  ⟨⟨by decide +kernel, rfl⟩, rfl⟩

/-- A tariff program of one rate, in slot 0x1F, inactive. -/
def aProgram : List Byte := [1, 1, 1, 0, 1, 1] ++ zeros 22 ++ [16, 0] ++ zeros 322
def programChannel : Channel := ⟨0x1F, 1, some 0, 3, 0, 0, 0, .program .inactive aProgram⟩
def programmed : State := running.withRotunda { running.rotunda with channels := [programChannel] }

/-- A boundary write in progress. -/
def aWrite : BoundaryWrite := ⟨aSave, ⟨1, 1, 0, 0, 0, 0, 0, 0, 0, 0, 0, 0, 0, 0, 0⟩, none, none, [], 0, []⟩

theorem test_BillingCommands_met :
    Met 0x0505 0 [0, 0, 0, 0] running (fun r s _ => r.payload.length = 4 ∧ r.handle = 0 ∧ s.keepUp = true ∧ s.keep.writing = none ∧
      s.keep.closeRequest = false ∧ s.keep.tariff.lastCloseAt = none) ∧
    Met 0x0505 0 [0, 0, 0, 0] (running.withKeep { running.keep with tariff := { running.keep.tariff with lastCloseAt := some 0 } })
      (fun r s _ => r.payload.length = 4 ∧ r.handle = 0 ∧ s.keepUp = true ∧ s.keep.writing = none ∧
        s.keep.tariff.lastCloseAt = some s.now) ∧
    Met 0x0506 programChannel.handle (zeros 8) programmed (fun r s t => r.payload.length = 8 ∧ t.current r.handle = true ∧
      (t.channelOf r.handle).bind Channel.program? = some (.inactive, aProgram) ∧ s.keepUp = true ∧ s.keep.writing = none ∧
      field r.payload 0 1 = 0 ∧ field r.payload 2 6 = 0 ∧ t.activationFault aProgram = 0) ∧
    (let s := running.withKeep { running.keep with writing := some aWrite }
     s.keepUp = true ∧ s.keep.writing.isSome = true) := by
  (repeat' apply And.intro) <;> decide +kernel

/-- READ_SIGNED of kind 1 of set 28. -/
def signedReading : List Byte := [1, 28, 0, 0] ++ zeros 8

/-- Cupola serves, with its root. -/
def keyed : State := running.withCupola { running.cupola with rootOk := true }

theorem test_SignedReadings_met :
    Met 0x0503 0 signedReading (keyed.withLegal { keyed.legal with signing := List.replicate 15 ⟨1, 0, 0, 0, [], none, none⟩ })
      (fun r s _ => r.payload.length = 12 ∧ r.handle = 0 ∧ field r.payload 0 1 = 1 ∧ field r.payload 1 1 ≤ 28 ∧
        field r.payload 2 1 = 0 ∧ s.keepUp = true ∧ s.up .cd7 = true ∧ s.cupola.zeroized = false ∧ s.cupola.rootOk = true ∧
        s.cupola.rngHealthy = true ∧ s.legal.signing.length < 16) ∧
    (let s := keyed.withLegal { keyed.legal with signing := [⟨1, 0, 0, 0, [], none, none⟩] }
     s.legal.signing = [⟨1, 0, 0, 0, [], none, none⟩] ∧ s.legal.waitingRecords = [] ∧ s.signs = true ∧
       (s.recordCore ⟨1, 0, 0, 0, [], none, none⟩).isSome = true) := by
  (repeat' apply And.intro) <;> decide +kernel

theorem test_LegalReads_met :
    Met 0x0507 0 [1, 0, 0, 0, 14, 0, 0, 0] running (fun r s _ => r.payload.length = 8 ∧ r.handle = 0 ∧ 1 ≤ field r.payload 4 1 ∧
      field r.payload 4 1 ≤ 14 ∧ s.keepUp = true) ∧
    Met 0x0508 0 [2, 0, 0, 0] running (fun r s _ => r.payload.length = 4 ∧ r.handle = 0 ∧ field r.payload 0 1 ≤ 2 ∧
      s.cupola.zeroized = false) := by
  (repeat' apply And.intro) <;> decide +kernel

/-- CAL_WRITE of one tone reference, modulator 143. -/
def oneTone : List Byte := [1, 1, 0, 0, 143] ++ zeros 11

/-- The seal open, CALEN high; sealing waits for its first pulse in `pulsing`. -/
def unsealed : State := running.withLegal { running.legal with calen := true, fuse := .intact }
def pulsing : State := unsealed.withLegal { unsealed.legal with sealing := some (1, 5, ⟨0, 0x050B, 7, 0, 0, 0, []⟩) }

theorem test_crcShift_word (k r : Nat) (h : r < 2 ^ 32) : crcShift 0x82F63B78 k r < 2 ^ 32 := by
  induction k generalizing r with
  | zero => exact h
  | succ k ih =>
    unfold crcShift
    apply ih
    split
    · exact Nat.xor_lt_two_pow (by omega) (by decide)
    · omega

theorem test_crc_word (bs : List Byte) : crc32c bs < 2 ^ 32 := by
  unfold crc32c
  refine Nat.xor_lt_two_pow ?_ (by decide)
  suffices h : ∀ r, r < 2 ^ 32 → bs.foldl (fun r b => crcShift 0x82F63B78 8 (r ^^^ b.toNat)) r < 2 ^ 32 from h _ (by decide)
  induction bs with
  | nil => exact fun r h => h
  | cons b bs ih =>
    intro r h
    exact ih _ (test_crcShift_word _ _ (Nat.xor_lt_two_pow h (Nat.lt_of_lt_of_le b.isLt (by decide))))

theorem test_field_le (n : Nat) (h : n < 2 ^ 32) : field (le 4 n) 0 4 = n := by
  simp only [field, slice, le, List.drop_zero, List.take, fromLe, BitVec.toNat_ofNat]
  omega

/-- A request of CAL_SEAL passes its checks whatever check value it carries. -/
theorem test_CAL_SEAL_judged (n : Nat) : judge (asking 0x050B 0 (le 4 n) unsealed) 0 (frameOf 0x050B 0 (le 4 n)) = .execute (reqOf 0x050B 0 (le 4 n)) := by
  have h0 : reservedOk (frameOf 0x050B 0 (le 4 n)).opcode (frameOf 0x050B 0 (le 4 n)).handle
    (wholePayload ((asking 0x050B 0 (le 4 n) unsealed).box 0) (frameOf 0x050B 0 (le 4 n))) = true := rfl
  have h1 : (frameOf 0x050B 0 (le 4 n)).isMore = false := by
    show ((0 : Byte) &&& flagMore != 0) = false
    decide
  have h2 : (frameOf 0x050B 0 (le 4 n)).isAuth = false := by
    show ((0 : Byte) &&& flagAuth != 0) = false
    decide
  have h3 : (frameOf 0x050B 0 (le 4 n)).flags &&& 0x6F = 0 := by
    show (0 : Byte) &&& 0x6F = 0
    decide
  have h4 : ((asking 0x050B 0 (le 4 n) unsealed).box 0).session = some ⟨3, false, [], 0, 0, 0, 0, 0⟩ := rfl
  have h5 : ((asking 0x050B 0 (le 4 n) unsealed).box 0).lastRequest = none := rfl
  have h6 : refusedByRole (asking 0x050B 0 (le 4 n) unsealed) 0 (frameOf 0x050B 0 (le 4 n)).opcode = none := rfl
  have h7 : (frameOf 0x050B 0 (le 4 n)).status = 0 := rfl
  have h8 : (frameOf 0x050B 0 (le 4 n)).version = 1 := rfl
  have h9 : (decide (0xFFFFFFFF ≤ extendedIn (some ⟨3, false, [], 0, 0, 0, 0, 0⟩) (frameOf 0x050B 0 (le 4 n)))
    || (⟨3, false, [], 0, 0, 0, 0, 0⟩ : Session).spent) = false := rfl
  simp [judge, h0, h1, h2, h4, h5, h6, h7, h8, h9]
  split
  · rfl
  · exact absurd h3 ‹_›
theorem test_CAL_SEAL_turn (n : Nat) : inTurn (asking 0x050B 0 (le 4 n) unsealed) 0 (frameOf 0x050B 0 (le 4 n)) = true := by rfl
theorem test_CAL_SEAL_executable (n : Nat) : executable (asking 0x050B 0 (le 4 n) unsealed) 0 = some (frameOf 0x050B 0 (le 4 n), reqOf 0x050B 0 (le 4 n)) := by
  unfold executable
  rw [show ((asking 0x050B 0 (le 4 n) unsealed).box 0).inRing = [frameOf 0x050B 0 (le 4 n)] from rfl]
  dsimp only
  rw [test_CAL_SEAL_judged, show (asking 0x050B 0 (le 4 n) unsealed).otherSegments 0 (frameOf 0x050B 0 (le 4 n)) = false from rfl]
  rfl
theorem test_CAL_SEAL_ready (n : Nat) : ready (asking 0x050B 0 (le 4 n) unsealed) 0 0x050B = some (frameOf 0x050B 0 (le 4 n), reqOf 0x050B 0 (le 4 n)) := by
  unfold ready
  rw [test_CAL_SEAL_executable]
  rfl

theorem test_CAL_SEAL_met : Met 0x050B 0 (le 4 unsealed.calCheck) unsealed (fun r s _ => r.payload.length = 4 ∧ r.handle = 0 ∧
    s.keepUp = true ∧ s.legal.fuse = .intact ∧ s.legal.calen = true ∧ s.dsp.capture = none ∧ s.dsp.calPending = [] ∧
    s.legal.sealing = none ∧ field r.payload 0 4 = unsealed.calCheck) := by
  have h : ∀ n, n < 2 ^ 32 → Met 0x050B 0 (le 4 n) unsealed (fun r s _ => r.payload.length = 4 ∧ r.handle = 0 ∧
      s.keepUp = true ∧ s.legal.fuse = .intact ∧ s.legal.calen = true ∧ s.dsp.capture = none ∧ s.dsp.calPending = [] ∧
      s.legal.sealing = none ∧ field r.payload 0 4 = n) :=
    fun n h => ⟨test_CAL_SEAL_ready n, rfl, rfl, rfl, rfl, rfl, rfl, rfl, rfl, rfl, test_field_le n h⟩
  exact h _ (test_crc_word _)

theorem test_CalibrationAndSeal_met :
    Met 0x050A 0 oneTone unsealed (fun r s _ => r.handle = 0 ∧ field r.payload 0 1 = 1 ∧ 1 ≤ field r.payload 1 1 ∧
      field r.payload 1 1 ≤ 32 ∧ r.payload.length = 4 + 12 * field r.payload 1 1 ∧ s.keepUp = true ∧ s.legal.fuse = .intact ∧
      s.legal.calen = true ∧ ((List.range (field r.payload 1 1)).map (calEntry r.payload)).all (calEntryOk 1) = true ∧
      s.dsp.capture = none ∧ s.legal.sealing = none) ∧
    Met 0x050A 0 oneTone pulsing (fun r s _ => s.legal.fuse = .intact ∧ s.legal.calen = true ∧ field r.payload 0 1 = 1 ∧
      ((List.range (field r.payload 1 1)).map (calEntry r.payload)).all (calEntryOk 1) = true ∧ s.legal.sealing.isSome = true) ∧
    Met 0x050A 0 oneTone (running.withLegal { running.legal with fuse := .blown }) (fun r s _ =>
      r.payload.length = 4 + 12 * field r.payload 1 1 ∧ r.handle = 0 ∧ s.keepUp = true ∧ s.legal.fuse = .blown) ∧
    Met 0x050A 0 oneTone running (fun r s _ => r.payload.length = 4 + 12 * field r.payload 1 1 ∧ r.handle = 0 ∧ s.keepUp = true ∧
      s.legal.fuse = .intact ∧ s.legal.calen = false) ∧
    (let s := (State.at_ running 60000).withDsp { running.dsp with capture := some ⟨[(0, [])], 0, 7, 0, 60000⟩ }
     s.keepUp = true ∧ s.dsp.capture = some ⟨[(0, [])], 0, 7, 0, 60000⟩ ∧ 60000 ≤ s.now) ∧
    pulsing.keepUp = true ∧ pulsing.legal.sealing = some (1, 5, ⟨0, 0x050B, 7, 0, 0, 0, []⟩) ∧ pulsing.legal.fuse = .intact ∧
    running.legal.calen ≠ true ∧ running.dsp.capture = none := by
  (repeat' apply And.intro) <;> decide +kernel

/-- The always-on buffer with a number of entries. -/
def buffered (n : Nat) : State := running.withLegal { running.legal with aonBuffer := List.replicate n ⟨5, 1, 0, 0⟩ }

theorem test_TamperInputs_met : (buffered 63).aon = true ∧ (buffered 63).legal.coverOpen ≠ true ∧
    (buffered 63).legal.terminalOpen ≠ true ∧ (buffered 63).legal.aonBuffer.length < 64 ∧ 64 ≤ (buffered 64).legal.aonBuffer.length ∧
    (buffered 1).keepUp = true ∧ (buffered 1).legal.aonBuffer = [⟨5, 1, 0, 0⟩] ∧ (buffered 1).legal.aonLost = 0 ∧ (buffered 1).legal.log = [] ∧
    (⟨1, 5, 1, 5, false, true, [0, 0]⟩ : LogEntry).aonSeq = some 0 := by
  (repeat' apply And.intro) <;> decide +kernel

/-! ## Hypotheses met: outlet ports and safety -/

/-- Port 23's lane changed. -/
def laneAs (f : Lane → Lane) (s : State) : State := s.modLane 23 f

/-- The handle of port 23's channel. -/
def port23 : Nat := 0x01000117

theorem test_LaneEvaluation_met : running.turretUp = true ∧
    (let s := laneAs (fun l => { l with classRun := 3, lastClass := some .b }) running
     3 ≤ (s.lane 23).classRun ∧ (s.lane 23).lastClass ≠ (s.lane 23).confirmed) ∧
    (let s := laneAs (fun l => { l with ppRun := 50, ppBand := 4 }) running
     (s.lane 23).portMode ≠ 1 ∧ 50 ≤ (s.lane 23).ppRun ∧ (s.lane 23).ppBand ≠ (s.lane 23).cable ∧ s.portSession 23 = none) ∧
    (let s := laneAs (fun l => { l with state := .connected, vehicleAt := some 0 }) (State.at_ running 200)
     (s.lane 23).state = .connected ∧ s.cableOk 23 = false ∧ (s.lane 23).vehicleAt = some 0 ∧ 0 + 200 ≤ s.now) ∧
    (running.lane 23).nextDrive ≠ .pwm ∧ (laneAs (fun l => { l with lastClass := some .b }) running |>.lane 23).lastClass = some .b ∧
    (State.at_ running 1).steeple.aliveAt ≠ (State.at_ running 1).now ∧ running.steeple.aliveAt = running.now := by
  (repeat' apply And.intro) <;> decide +kernel

theorem test_PilotAndProximityBands_met : (-13000 : Int) ≤ -13000 ∧ classify 8000 none = .b ∧ classify 4000 none = .d ∧
    (-11000 : Int) < -10999 ∧ classify 13000 none = .a ∧ (-13001 : Int) < -13000 ∧ classify (-1000) none = .e ∧
    classify 13001 none = .out ∧ proximityCode 110 310 = 1 ∧ proximityCode 123 223 = 1 ∧ proximityCode 20 120 = 2 ∧
    proximityCode 468 1468 = 2 ∧ proximityCode 82 1082 = 3 ∧ proximityCode 154 1154 = 3 ∧ proximityCode 75 2075 = 4 ∧
    proximityCode 7 107 = 4 ∧ proximityCode 2 3 = 6 ∧ proximityCode 2001 3001 = 5 ∧ proximityCode 1 1 = 5 := by
  (repeat' apply And.intro) <;> decide +kernel

/-- Port 23 in a step of a closing that began at 0, of an opening, or of a fault opening, at a time of the model's clock. -/
def inClosing (step stepAt now : Nat) : State := laneAs (fun l => { l with seq := .closing step 0 stepAt }) (State.at_ running now)
def inOpening (step stepAt now : Nat) : State := laneAs (fun l => { l with seq := .opening false step 0 stepAt .offered }) (State.at_ running now)

/-- Every drive permit stands. -/
def permitted (s : State) : State := s.withSteeple { s.steeple with permits := Vector.replicate 24 true }

theorem test_ClosingSteps_met :
    (let s := inClosing 1 0 30
     s.turretUp = true ∧ (s.lane 23).seq = .closing 1 0 0 ∧ 0 + 30 ≤ s.now ∧ (s.lane 23).ovs = false ∧ (s.lane 23).shedActive = false) ∧
    (let s := permitted (inClosing 3 30 30)
     s.permit 23 = true ∧ (s.lane 23).seq = .closing 3 0 30) ∧
    (true && false) = false ∧ ((inClosing 4 30 31).lane 23).seq = .closing 4 0 30 ∧ ((inClosing 5 30 55).lane 23).seq = .closing 5 0 30 ∧
    30 + 25 ≤ (inClosing 5 30 55).now ∧ ((inClosing 5 30 55).lane 23).ovs = false ∧ (running.lane 23).seq = .none ∧
    (let s := laneAs (fun l => { l with ovs := true, ovsAt := 0 }) (State.at_ running 25)
     (s.lane 23).ovs = true ∧ (s.lane 23).ovsAt + 25 ≤ s.now) := by
  (repeat' apply And.intro) <;> decide +kernel

/-- Port 23's outlet channels as stale entries, or as entries below 100 mA since 10 ms after the step. -/
def mirrored (stale : Bool) (s : State) : State := s.withTurret { s.turret with
  mirror := s.turret.mirror.map (fun e => { e with stale := stale, updatedAt := s.now }) }

/-- The first current zero after a request, and 200 µs, lies within one half of the period, whatever the power factor. -/
theorem test_current_zero_bounds (s : State) (p : Port) (r : Nat) (h : 0 < s.periodUs / 2) :
    ((r * 1000 + 200 : Nat) : Int) ≤ s.currentZeroUs p r ∧ s.currentZeroUs p r < ((r * 1000 + 200 + s.periodUs / 2 : Nat) : Int) := by
  have hh : (0 : Int) < (s.periodUs : Int) / 2 := by omega
  unfold State.currentZeroUs
  generalize (s.crossingUs _ + _ : Int) = first
  have e := Int.mul_ediv_add_emod (first - (r * 1000 + 200)) ((s.periodUs : Int) / 2)
  have l := Int.emod_nonneg (first - (r * 1000 + 200)) (Int.ne_of_gt hh)
  have u := Int.emod_lt_of_pos (first - (r * 1000 + 200)) hh
  rw [Int.mul_comm] at e
  dsimp only
  omega

/-- Port 23's opening requested at 1, with its crossings in the mirror and the voltage channels enabled. -/
def crossed (now : Nat) : State :=
  let s := mirrored false (laneAs (fun l => { l with seq := .opening false 1 1 1 .offered }) (State.at_ running now))
  s.withRotunda { s.rotunda with applied := setRaw s.rotunda.applied 0x0308 0 255 }

theorem test_OpeningSteps_zero_met : (crossed 11).turretUp = true ∧ ((crossed 11).lane 23).seq = .opening false 1 1 1 .offered ∧
    (crossed 11).timedNow 23 = false ∧ (crossed 11).currentZeroUs 23 1 < ((((crossed 11).now + 1) * 1000 : Nat) : Int) ∧
    ((((crossed 0).now + 1) * 1000 : Nat) : Int) ≤ (crossed 0).currentZeroUs 23 1 := by
  have h1 := (test_current_zero_bounds (crossed 11) 23 1 (by decide +kernel)).2
  have h0 := (test_current_zero_bounds (crossed 0) 23 1 (by decide +kernel)).1
  have e1 : (crossed 11).periodUs / 2 = 10000 := by decide +kernel
  have n1 : (crossed 11).now = 11 := rfl
  have n0 : (crossed 0).now = 0 := rfl
  rw [e1] at h1
  rw [n1, n0]
  exact ⟨by decide +kernel, by decide +kernel, by decide +kernel, by omega, by omega⟩

theorem test_OpeningSteps_met :
    (mirrored true (inOpening 1 0 5)).timedNow 23 = true ∧
    ((inOpening 1 0 5).lane 23).seq = .opening false 1 0 0 .offered ∧ ((inOpening 2 0 5).lane 23).seq = .opening false 2 0 0 .offered ∧
    (let s := mirrored false (inOpening 3 0 10)
     s.turretUp = true ∧ (s.lane 23).seq = .opening false 3 0 0 .offered ∧ s.outletStale 23 = false ∧ s.currentGone 23 0 = true ∧
       (s.lane 23).ovs = false) ∧
    (let s := mirrored true (inOpening 3 0 40)
     s.outletStale 23 = true ∧ 0 + 40 ≤ s.now ∧ (s.lane 23).ovs = false ∧ (s.lane 23).pbf = false) ∧
    (let s := inOpening 5 0 50
     (s.lane 23).seq = .opening false 5 0 0 .offered ∧ 0 + 50 ≤ s.now) ∧
    (let s := permitted (inOpening 6 0 0)
     s.turretUp = true ∧ s.steepleUp = true ∧ (s.lane 23).seq = .opening false 6 0 0 .offered ∧ (s.lane 23).ctd = false ∧
       (s.lane 23).ctf = false ∧ s.permit 23 = true) ∧
    ((inOpening 7 0 20).steepleUp = true ∧ ((inOpening 7 0 20).lane 23).seq = .opening false 7 0 0 .offered ∧ 0 + 20 ≤ (inOpening 7 0 20).now) ∧
    (let s := inOpening 8 0 25
     (s.lane 23).seq = .opening false 8 0 0 .offered ∧ 0 + 25 ≤ s.now ∧ (s.lane 23).ovs = false) ∧
    (let s := laneAs (fun l => { l with ovs := true, ovsAt := 0 }) (inOpening 8 0 25)
     (s.lane 23).ovs = true ∧ 0 ≤ (s.lane 23).ovsAt) ∧
    (let s := laneAs (fun l => { l with seq := .waitBandB 0 .offered }) (State.at_ running 3000)
     (s.lane 23).seq = .waitBandB 0 .offered ∧ 0 + 3000 ≤ s.now) := by
  (repeat' apply And.intro) <;> decide +kernel

/-- Port 23 in a step of the residual test that began at 0. -/
def testing (step now : Nat) : State := laneAs (fun l => { l with testStep := step, testStart := 0 }) (State.at_ running now)

theorem test_ResidualTest_met : running.steepleUp = true ∧
    (((testing 1 20).lane 23).testStep = 1 ∧ ((testing 1 20).lane 23).testStart + 20 ≤ (testing 1 20).now ∧
      (⟨0, 0, 29, false, false⟩ : ResidualReading).rms < 30) ∧
    (((testing 2 150).lane 23).testStart + 150 ≤ (testing 2 150).now ∧ (80 : Int) ≤ (⟨80, 0, 0, true, false⟩ : ResidualReading).dc ∧
      (⟨120, 0, 0, true, false⟩ : ResidualReading).dc ≤ 120) ∧
    (((testing 3 180).lane 23).testStart + 180 ≤ (testing 3 180).now ∧ 320 ≤ (⟨0, 320, 0, false, true⟩ : ResidualReading).ac ∧
      (⟨0, 480, 0, false, true⟩ : ResidualReading).ac ≤ 480) ∧
    (((testing 4 200).lane 23).testStep = 4 ∧ ((testing 4 200).lane 23).testStart + 200 ≤ (testing 4 200).now) ∧
    (let s := laneAs (fun l => { l with seq := .faultOpening 0 false none, state := .lockout }) (State.at_ running 50)
     (s.lane 23).seq = .faultOpening 0 false none ∧ (s.lane 23).state ≠ .disabled ∧ 0 + 50 ≤ s.now ∧ s.now < 0 + 100) ∧
    (let s := laneAs (fun l => { l with seq := .faultOpening 0 false (some true) }) (State.at_ running 100)
     (s.lane 23).seq = .faultOpening 0 false (some true) ∧ 0 + 100 ≤ s.now ∧ (s.lane 23).ovs = false) := by
  (repeat' apply And.intro) <;> decide +kernel

/-- Safety parameters have been committed, with every enable of hub inputs set. -/
def committed : State := running.withSteeple { running.steeple with committed := some { SafetyBlock.defaults with enables := 0x1F } }

/-- Port 23 has a session in a state, in slot 0x20. -/
def sessionChannel (st : SessionState) (f : SessionBody → SessionBody) : Channel :=
  ⟨0x20, 1, none, 0xFF, 0, 0, 0, .session (f { newSession 23 running with state := st })⟩
def inSession (st : SessionState) (f : SessionBody → SessionBody) : State :=
  laneAs (fun l => { l with session := (sessionChannel st f).handle, state := .connected })
    (running.withRotunda { running.rotunda with channels := [sessionChannel st f] })

/-- CABLE_REFUSED from SUSPENDED, the clause of LaneEvaluation beside CONNECTED: a session without a code, 200 ms after its vehicle. -/
theorem test_LaneEvaluation_suspended_met :
    (let s := laneAs (fun l => { l with state := .suspended, vehicleAt := some 0 }) (State.at_ (inSession .authorised id) 200)
     s.turretUp = true ∧ s.cableOk 23 = false ∧ (s.lane 23).vehicleAt = some 0 ∧ 0 + 200 ≤ s.now ∧ (s.lane 23).state = .suspended ∧
       (s.portSession 23).map (fun x => x.2.cable) = some 0) := by
  (repeat' apply And.intro) <;> decide +kernel

theorem test_PortCommands_met :
    Met 0x0401 port23 [0, 0, 0, 0] committed (fun r s t => r.payload.length = 4 ∧ r.handle ≠ 0 ∧ t.current r.handle = true ∧
      portOfHandle r.handle = some 23 ∧ s.rotunda.silent = false ∧ s.confirmed = true ∧ s.steeple.hub.active = false ∧
      (s.portLock 23).active = false ∧ (s.lane 23).enabled = false) ∧
    Met 0x0401 port23 [0, 0, 0, 0] running (fun r s t => t.current r.handle = true ∧ portOfHandle r.handle = some 23 ∧
      s.rotunda.silent = false ∧ s.confirmed = false) ∧
    Met 0x0402 port23 [1, 0, 0, 0] (laneAs (fun l => { l with state := .idle }) running) (fun r s t => r.payload.length = 4 ∧
      t.current r.handle = true ∧ portOfHandle r.handle = some 23 ∧ field r.payload 0 1 ≤ 1 ∧ s.rotunda.silent = false ∧
      (s.lane 23).state ≠ .disabled ∧ (s.lane 23).state ≠ .lockout) ∧
    Met 0x0410 port23 [] running (fun r s t => r.payload = [] ∧ r.handle ≠ 0 ∧ t.current r.handle = true ∧
      portOfHandle r.handle = some 23 ∧ 23 ∉ s.rotunda.rebuilding) ∧
    Met 0x0412 port23 [] running (fun r _ t => r.payload = [] ∧ r.handle ≠ 0 ∧ t.current r.handle = true ∧
      portOfHandle r.handle = some 23) ∧
    Met 0x0411 (sessionChannel .opened id).handle [] (inSession .opened id) (fun r s t => r.payload = [] ∧ r.handle ≠ 0 ∧
      t.current r.handle = true ∧ t.channelOf r.handle = some (sessionChannel .opened id) ∧
      (sessionChannel .opened id).slot ∉ s.rotunda.rebuilding) := by
  (repeat' apply And.intro) <;> decide +kernel

/-- SESSION_OPEN held for a time, and SESSION_AUTHORISE with a cap. -/
def openFor (seconds : Nat) : List Byte := le 2 seconds ++ [1, 0] ++ le 4 63000 ++ zeros 16
def authoriseWith (cap : Nat) : List Byte := [0, 0, 0, 0] ++ le 4 cap ++ zeros 16

theorem test_SessionCommands_met :
    Met 0x0403 port23 (openFor 900) (laneAs (fun l => { l with state := .idle }) running) (fun r s t => r.payload.length = 24 ∧
      r.handle ≠ 0 ∧ t.current r.handle = true ∧ portOfHandle r.handle = some 23 ∧ 1 ≤ field r.payload 0 2 ∧
      field r.payload 0 2 ≤ 900 ∧ field r.payload 2 1 ≤ 1 ∧ capOk (field r.payload 4 4) = true ∧ s.rotunda.silent = false ∧
      (s.lane 23).state = .idle) ∧
    Met 0x0404 (sessionChannel .opened id).handle (authoriseWith 6000) (inSession .opened id) (fun r s t => r.payload.length = 24 ∧
      t.current r.handle = true ∧ t.channelOf r.handle = some (sessionChannel .opened id) ∧ field r.payload 0 1 = 0 ∧
      capOk (field r.payload 4 4) = true ∧ s.rotunda.silent = false) ∧
    Met 0x0404 (sessionChannel .reserved id).handle (authoriseWith 6000) (inSession .reserved id) (fun r s t => r.payload.length = 24 ∧
      t.current r.handle = true ∧ t.channelOf r.handle = some (sessionChannel .reserved id) ∧ field r.payload 0 1 = 0 ∧
      capOk (field r.payload 4 4) = true ∧ s.rotunda.silent = false) ∧
    Met 0x0405 (sessionChannel .authorised id).handle [0, 0, 0, 0] (inSession .authorised id) (fun r s t => r.payload.length = 4 ∧
      t.current r.handle = true ∧ t.channelOf r.handle = some (sessionChannel .authorised id) ∧ s.rotunda.silent = false ∧
      SessionState.authorised.live = true ∧ SessionState.authorised ≠ .reserved) ∧
    (let s := State.at_ (inSession .reserved (fun x => { x with holdS := 900 })) 900000
     s.serves = true ∧ s.portSession 23 = some (sessionChannel .reserved (fun x => { x with holdS := 900 }),
       { newSession 23 running with state := .reserved, holdS := 900 }) ∧ 0 + 1000 * 900 ≤ s.now) ∧
    (let x : SessionBody := { newSession 23 running with state := .ended, endPending := true, endEai := some 5, startEai := some 0 }
     ((inSession .ended (fun x => { x with endPending := true, endEai := some 5, startEai := some 0 })).portSession 23).map (·.2) = some x ∧
       (inSession .ended id).rotunda.ending = [] ∧ x.endPending = true ∧ x.endEai.isSome = true ∧ x.startEai.isSome = true ∧ x.wasAuthorised = false) := by
  (repeat' apply And.intro) <;> decide +kernel

/-- Port 23 is enabled and idle. -/
def idling : State := laneAs (fun l => { l with state := .idle }) committed

theorem test_DetectorsDecide_met : running.steepleUp = true ∧ (State.at_ running 5).steeple.aliveAt + 5 ≤ (State.at_ running 5).now ∧
    (supplyWindow .vddio).2 < 3601 ∧ (2999 : Nat) < 3000 ∧ (idling.lane 23).state ≠ .disabled ∧ 1500 < (-1501 : Int).natAbs ∧
    30 < (31 : Int).natAbs ∧ 150 < (151 : Int).natAbs ∧ (idling.lane 23).testStep = 0 ∧
    ((laneAs (fun l => { l with testStep := 2 }) idling).lane 23).testStep = 2 ∧ ((149 : Nat) < 150 ∧ 1650 < (1651 : Nat)) ∧
    idling.steeple.committed.isSome = true ∧ (false || false || true) = true ∧ (true && false) = false ∧
    (let s := laneAs (fun l => { l with classRun := 3, lastClass := some .e }) idling
     3 ≤ (s.lane 23).classRun ∧ (s.lane 23).state ≠ .lockout ∧ (s.lane 23).lastClass = some .e ∧ (pilotFaultCode .e).isSome = true) ∧
    (let s := laneAs (fun l => { l with ctfOdd := some 0 }) (State.at_ idling 20)
     (s.lane 23).ctfOdd = some 0 ∧ 0 + 20 ≤ s.now) ∧
    .vddio ∉ running.steeple.suppliesOut ∧ committed.comparing 23 = false ∧
    (let s := laneAs (fun l => { l with comparator := some 0 }) (State.at_ committed 1)
     s.selfTestDue 23 = true ∧ s.comparing 23 = true) ∧
    (idling.lane 23).testForReset = false ∧ true ≠ (idling.lane 23).pbd ∧ State.reset.steepleUp = false := by
  (repeat' apply And.intro) <;> decide +kernel

/-- Steeple changed. -/
def steepleAs (f : Steeple → Steeple) (s : State) : State := s.withSteeple (f s.steeple)

theorem test_HubInputs_met : committed.steepleUp = true ∧ committed.peEnabled = true ∧ (17 : Nat) ≤ 17 ∧ (23 : Nat) ≤ 23 ∧
    (16 : Nat) < 17 ∧ 23 < (24 : Nat) ∧ (steepleAs (fun x => { x with peBad := 2 }) committed).steeple.peBad < 3 ∧
    (steepleAs (fun x => { x with peBad := 3 }) committed).steeple.peBad = 3 ∧ running.peEnabled = false ∧
    committed.estopEnabled = true ∧
    (State.at_ committed 100).steeple.estopTestAt + (State.at_ committed 100).estopPeriod ≤ (State.at_ committed 100).now ∧
    committed.steeple.estopA = true ∧ committed.steeple.estopB = true ∧
    ((State.at_ running 199).now < (⟨23, true, 200, false⟩ : Shunt).until_ ∧ (⟨23, true, 200, false⟩ : Shunt).until_ ≤ (State.at_ running 200).now) ∧
    (let s := laneAs (fun l => { l with ovs := true }) (State.at_ running 1200)
     (⟨23, false, 1200, false⟩ : Shunt).until_ ≤ s.now ∧ (s.lane 23).ovs = true ∧ (⟨23, false, 1200, true⟩ : Shunt).repeated = true ∧
       ((State.at_ running 1200).lane 23).ovs = false) ∧
    committed.shtEnabled = true := by
  (repeat' apply And.intro) <;> decide +kernel

/-- A reaction of port 23 to a welded contactor, open to the last millisecond of its window. -/
def reacting : State := steepleAs (fun x => { x with reactions := [⟨1, 0x0103, some 23, 0, some 100, false⟩] }) (State.at_ idling 10099)

theorem test_Faults_met : (idling.repeatOf 0x0103 (some 23) = none ∧ (∀ r ∈ idling.steeple.reactions, r.open_ idling.now = false) ∧
      idling.power.inForce.uryan ≠ 1) ∧
    (reacting.steepleUp = true ∧ reacting.repeatOf 0x0103 (some 22) = none ∧
      (⟨1, 0x0103, some 23, 0, some 100, false⟩ : Reaction) ∈ reacting.steeple.reactions ∧
      (⟨1, 0x0103, some 23, 0, some 100, false⟩ : Reaction).open_ reacting.now = true ∧
      dependsOn ⟨1, 0x0103, some 23, 0, some 100, false⟩ 0x0103 (some 22) false reacting.now = false ∧ (0x0103 : Nat) ≠ 0x0403) := by
  (repeat' apply And.intro) <;> decide +kernel

/-- Port 23 in D2, above 8000 mA for 5 s; the hub in D3 to its end. -/
def overloaded : State := steepleAs (fun x => { x with
  portDegraded := x.portDegraded.set 23 (some ⟨2, 0x0401, 1, 9000⟩), overSince := x.overSince.set 23 #v[some 0, none, none] }) (State.at_ running 5000)
def degradedHub : State := steepleAs (fun x => { x with hubDegraded := some ⟨3, 0x0901, 1, 61000⟩ }) (mirrored false (State.at_ running 61000))

theorem test_SafetyTimes_met :
    (let r : Reaction := ⟨1, 0x0103, some 23, 0, none, false⟩
     r ∈ (steepleAs (fun x => { x with reactions := [r] }) (State.at_ running 100)).steeple.reactions ∧ r.degraded = false ∧
       r.endsAt = none ∧ r.at_ + 100 ≤ (State.at_ running 100).now) ∧
    (overloaded.steepleUp = true ∧ overloaded.degradedOf 23 = some ⟨2, 0x0401, 1, 9000⟩ ∧
      overloaded.heldFor (overloaded.steeple.overSince[(23 : Port)])[(0 : Phase)] 5000 = true) ∧
    (degradedHub.steepleUp = true ∧ degradedHub.steeple.hubDegraded = some ⟨3, 0x0901, 1, 61000⟩ ∧
      (∀ p : Port, degradedHub.steeple.portDegraded[p] = none) ∧ 61000 ≤ degradedHub.now) ∧
    degradedHub.degradedCleared ⟨3, 0x0901, 1, 61000⟩ = true := by
  (repeat' apply And.intro) <;> decide +kernel

/-- LOCKOUT_RESET of port 23 and of the hub, under record 1. -/
def resetPort : List Byte := [0, 23, 0, 0, 1, 0, 0, 0]
def resetHub : List Byte := [1, 255, 0, 0, 1, 0, 0, 0]

/-- A lock-out of the hub under a fault, with a reset of it that began at 0. -/
def aReset (port : Option Port) (inWindow : Bool) (probing : List (Port × Nat)) : ResetRun := ⟨port, 1, 0, inWindow, [], [], probing, []⟩
def lockedHub (code : Nat) (r : ResetRun) (s : State) : State :=
  steepleAs (fun x => { x with hub := ⟨true, false, [⟨1, code, none, 0, 0⟩]⟩, resets := [r] }) s

theorem test_LockoutResets_met :
    Met 0x0803 0 resetPort running (fun r _ _ => r.payload.length = 8 ∧ r.handle = 0 ∧ field r.payload 0 1 = 0 ∧ field r.payload 1 1 < 24) ∧
    Met 0x0803 0 resetHub running (fun r _ _ => field r.payload 0 1 = 1 ∧ field r.payload 1 1 = 255) ∧
    (let s := steepleAs (fun x => { x with estopFollowed := 3 }) (lockedHub 0x0703 (aReset none false []) running)
     s.steepleUp = true ∧ s.steeple.resets = [aReset none false []] ∧ s.allClear (aReset none false []) = true ∧
       (s.lockOf none).needsConfirmation = false) ∧
    (let s := steepleAs (fun x => { x with peGoodSince := some 0 }) (lockedHub 0x0501 (aReset none false []) (State.at_ running 1000))
     s.allClear (aReset none false []) = true ∧ (s.lockOf none).needsConfirmation = true ∧ s.steeple.window = none) ∧
    (let s := lockedHub 0x0501 (aReset none false []) (State.at_ running 10000)
     s.allClear (aReset none false []) = false ∧ 0 + 10000 ≤ s.now) ∧
    (let s := steepleAs (fun x => { x with resets := [aReset (some 23) false [(23, 0)]] }) (State.at_ running 20)
     s.steeple.resets = [aReset (some 23) false [(23, 0)]] ∧ 0 + 20 ≤ s.now ∧ (s.lane 23).confirmed ≠ some .a) ∧
    (let s := steepleAs (fun x => { x with window := some ⟨none, 0, 120000, 0⟩ }) (lockedHub 0x0501 (aReset none true []) (State.at_ running 120000))
     s.steeple.window = some ⟨none, 0, 120000, 0⟩ ∧ s.windowRun = some (aReset none true []) ∧ 120000 ≤ s.now ∧
       s.steeple.srstStuck = false ∧ 0 + 500 ≤ s.now ∧ 0 + 4999 ≤ s.now ∧ s.now ≤ 120000 ∧ s.allClear (aReset none true []) = false) ∧
    (let s := steepleAs (fun x => { x with window := some ⟨none, 0, 120000, 0⟩, peGoodSince := some 0 })
       (lockedHub 0x0501 (aReset none true []) (State.at_ running 120000))
     s.windowRun = some (aReset none true []) ∧ s.allClear (aReset none true []) = true) ∧
    ((499 : Nat) < 500 ∧ running.steeple.window = none) := by
  (repeat' apply And.intro) <;> decide +kernel

/-! ## Hypotheses met: safety parameters, channels, configuration and allocation -/

/-- Three bytes of the block from offset 121, and the request that replaces the staged block by the committed one. -/
def stageBytes_ : List Byte := [0, 121, 3, 0, 1, 2, 3]

/-- A commit of the staged block under proof 9, as the request record carries it. -/
def commitData : List Byte := le 4 SafetyBlock.defaults.check ++ le 4 9 ++ (⟨9, 2, 0, [1, 2, 3, 4], 0, 0, false⟩ : Proof).bytes

/-- A commit is published and unacted. -/
def committing_ : State := running.withRotunda { running.rotunda with
  published := { running.rotunda.published with record := [⟨1, 3, some 0, 6, 0, 0, [], 0, false, false⟩] } }

theorem test_SafetyParameters_met :
    Met 0x0805 0 stageBytes_ running (fun r s _ => r.payload.length = 4 + field r.payload 2 1 ∧ r.handle = 0 ∧ field r.payload 0 1 = 0 ∧
      1 ≤ field r.payload 2 1 ∧ 1 ≤ field r.payload 1 1 ∧ field r.payload 1 1 + field r.payload 2 1 ≤ 124 ∧ s.commitPublished = false) ∧
    Met 0x0805 0 stageBytes_ committing_ (fun r s _ => r.payload.length = 4 + field r.payload 2 1 ∧ field r.payload 0 1 = 0 ∧
      s.rotunda.silent = false ∧ s.commitPublished = true) ∧
    Met 0x0806 0 (commitData.take 8) running (fun r _ _ => r.payload.length = 8 ∧ r.handle = 0) ∧
    State.commitStep (State.at_ running 120000) commitData = 0 ∧ State.commitStep (State.at_ running 120001) commitData ≠ 0 ∧
    (steepleAs (fun x => { x with committing := true }) running).steeple.committing = true ∧
    (running.withOculus { running.oculus with proofs := [⟨9, 2, 0, [1, 2, 3, 4], 0, 0, true⟩] }).proofSpent (field commitData 4 4) = true ∧
    (field stageBytes_ 0 1 = 0 ∧ field [1, 0, 0, 0] 0 1 = 1) ∧
    Met 0x0801 0 [] running (fun r _ _ => r.payload = [] ∧ r.handle = 0) ∧
    Met 0x0802 0 [1, 0, 0, 0, 14, 0, 0, 0] running (fun r _ _ => r.payload.length = 8 ∧ r.handle = 0 ∧ 1 ≤ field r.payload 4 1 ∧
      field r.payload 4 1 ≤ 14) ∧
    Met 0x0804 0 [1, 0, 0, 0] running (fun r _ _ => r.payload.length = 4 ∧ r.handle = 0 ∧ field r.payload 0 1 ≤ 1) ∧
    Met 0x0804 0 [2, 0, 0, 0] running (fun r _ _ => r.payload.length = 4 ∧ r.handle = 0 ∧ 2 ≤ field r.payload 0 1) ∧
    running.rotunda.silent = false ∧ running.recordFull = false ∧
    (running.withRotunda { running.rotunda with silent := true }).rotunda.silent = true ∧
    (running.withRotunda { running.rotunda with published := { running.rotunda.published with
      record := List.replicate 8 ⟨1, 3, some 0, 6, 0, 0, [], 0, false, false⟩ } }).recordFull = true := by
  (repeat' apply And.intro) <;> decide +kernel

/-- A partner of identifier 2 under pair 7; this device is 1. -/
def pairBlock : SafetyBlock := { SafetyBlock.defaults with enables := 0x18, pairId := 7, localId := 1, partnerId := 2 }

/-- The telegrams run, the last copy having been sent at 0. -/
def paired (f : Telegram → Telegram) : State := steepleAs (fun x => { x with
  committed := some pairBlock, telegram := f { x.telegram with running := true, nextTxAt := 10 } }) (State.at_ running 10)

/-- A copy of sequence 5 in normal mode. -/
def copyBytes : List Byte :=
  [5, 0, 2, 0, 1, 0, 4, 0, 0, 0, 0, 0] ++ le 4 (crc32cFrom 7 [5, 0, 2, 0, 1, 0, 4, 0, 0, 0, 0, 0])

/-- Its mate waits since 0 microseconds. -/
def mate : WaitingCopy := ⟨.snB, 5, copyBytes.take 12, 0, 15⟩

theorem test_Telegrams_met :
    (let s := paired id
     s.steepleUp = true ∧ s.steeple.committed = some pairBlock ∧ s.steeple.telegram.running = true ∧ s.steeple.telegram.nextTxAt ≤ s.now ∧
       s.inD1 = false ∧ s.copyCheck pairBlock .snA true copyBytes = 0 ∧ s.steeple.telegram.waiting = [] ∧
       s.steeple.telegram.ended.contains (otherPath .snA, field copyBytes 0 2) = false ∧ s.steeple.telegram.b.busState = 0 ∧
       s.copyCheck pairBlock .snB true copyBytes = 0 ∧ s.steeple.telegram.ended.contains (otherPath .snB, field copyBytes 0 2) = false) ∧
    (let s := paired (fun t => { t with b := { t.b with txErrors := 256 } })
     s.steeple.telegram.b.busState = 2 ∧ s.steepleUp = true ∧
       (paired (fun t => { t with b := { t.b with txErrors := 255 } })).steeple.telegram.b.busState = 1) ∧
    (let s := paired (fun t => { t with waiting := [mate] })
     s.copyCheck pairBlock .snA true copyBytes = 0 ∧ s.steeple.telegram.waiting = [mate] ∧ mate.path = otherPath .snA ∧
       mate.seq = field copyBytes 0 2 ∧ 5000 ≤ mate.arrivalUs + 5000 ∧ mate.head = copyBytes.take 12 ∧
       bit (field mate.head 6 1) 0 = false) ∧
    ((paired id).copyCheck pairBlock .snA true (copyBytes.take 12 ++ [0, 0, 0, 0]) = 2 ∧ CopyForm.malformed ≠ .error ∧
      pairBlock.canRx + 1 ≠ pairBlock.canRx) ∧
    (let s := State.at_ (paired (fun t => { t with waiting := [mate] })) 15
     s.steeple.telegram.waiting = [mate] ∧ mate.deadline ≤ s.now) ∧
    (let s := State.at_ (paired (fun t => { t with started := true, baseAt := 0 })) 30
     s.steeple.telegram.running = true ∧ s.steeple.telegram.timeoutDecided = false ∧ s.steeple.telegram.baseAt + s.tgLimit ≤ s.now ∧
       s.tgDelivered .snA = s.tgDelivered .snB) ∧
    (let s := State.at_ (paired (fun t => { t with started := true, baseAt := 0, b := { t.b with lastValidAt := some 29 } })) 30
     s.steeple.telegram.baseAt + s.tgLimit ≤ s.now ∧ s.inD1 = false ∧ s.tgDelivered .snB = true ∧ s.tgDelivered (otherPath .snB) = false) ∧
    Met 0x0807 0 [] running (fun r _ _ => r.payload = [] ∧ r.handle = 0) := by
  (repeat' apply And.intro) <;> decide +kernel

/-- A filter of every code, in slot 0x1F, owned by host port 0. -/
def filterChannel : Channel := ⟨0x1F, 1, some 0, 3, 0, 0, 0, .filter ⟨0, 0xFFFF, 0⟩⟩
def filtered : State := running.withRotunda { running.rotunda with channels := [filterChannel] }

/-- CHANNEL_CREATE of that filter, and CHANNEL_MODIFY of its upper code. -/
def createFilter : List Byte := [BitVec.ofNat 8 typeFilter, 0, 0, 0, 0, 0, 0xFF, 0xFF, 0, 0, 0, 0]
def modifyFilter : List Byte := [34, 0, 2, 0, 0x20, 0x80]

theorem test_ChannelCommands_met :
    Met 0x0201 0 createFilter running (fun r _ t => 5 ≤ r.payload.length ∧ r.payload.length ≤ 452 ∧ r.handle = 0 ∧
      field r.payload 0 1 = typeFilter ∧ bodyOf (field r.payload 0 1) (r.payload.drop 4) = some (.filter ⟨0, 0xFFFF, 0⟩) ∧
      (createChannel (.filter ⟨0, 0xFFFF, 0⟩) (some r.box) r.role (accept r t)).isSome = true) ∧
    (createChannel (.filter ⟨0, 0xFFFF, 0⟩) (some 0) 3 running).isSome = true ∧
    Met 0x0202 filterChannel.handle [] filtered (fun r _ t => r.payload = [] ∧ r.handle ≠ 0 ∧ t.current r.handle = true ∧
      t.channelOf r.handle = some filterChannel ∧ filterChannel.owner = some r.box ∧ filterChannel.body.typeCode = typeFilter ∧
      filterChannel.program? = none ∧ filterChannel.txn? = none) ∧
    Met 0x0203 filterChannel.handle [64, 0, 0xC0, 1] filtered (fun r s t => r.payload.length = 4 ∧ r.handle ≠ 0 ∧
      t.current r.handle = true ∧ 1 ≤ field r.payload 2 2 ∧ field r.payload 2 2 ≤ 448 ∧
      field r.payload 0 2 + field r.payload 2 2 ≤ 512 ∧ s.rotunda.rebuilding.contains (handleSlot r.handle) = false) ∧
    Met 0x0204 filterChannel.handle modifyFilter filtered (fun r _ t => 5 ≤ r.payload.length ∧ r.payload.length ≤ 452 ∧
      r.payload.length = 4 + field r.payload 2 2 ∧ r.handle ≠ 0 ∧ t.current r.handle = true ∧
      t.channelOf r.handle = some filterChannel ∧ 32 ≤ field r.payload 0 2 ∧ field r.payload 0 2 + field r.payload 2 2 ≤ 40 ∧
      (filterOf ((splice (fit 480 (⟨0, 0xFFFF, 0⟩ : FilterBody).bytes) (field r.payload 0 2 - 32) (r.payload.drop 4)).take 8)).isSome = true) ∧
    Met 0x0205 0 [0, 31, 0, 0] filtered (fun r _ _ => r.payload.length = 4 ∧ r.handle = 0 ∧ field r.payload 0 1 = 0) := by
  (repeat' apply And.intro) <;> decide +kernel

/-- A stage of one record: import limit of phase 1, 6000 mA and 5999 mA. -/
def limitRecord (v : Nat) : CfgRecord := ⟨0x0101, 1, 4, v⟩
def staged_ (recs : List CfgRecord) : State := running.modBox 0 (fun m => { m with stage := some recs })

/-- CFG_WRITE of that record. -/
def writeLimit : List Byte := [1, 0, 0, 0] ++ le 2 0x0101 ++ [1, 4] ++ le 4 6000

theorem test_ConfigurationTransactions_met :
    Met 0x0301 0 [] running (fun r s _ => r.payload = [] ∧ r.handle = 0 ∧ (s.box 0).stage = none ∧ s.committing 0 = false) ∧
    Met 0x0301 0 [] (staged_ []) (fun r s _ => r.payload = [] ∧ (s.box 0).stage.isSome = true) ∧
    Met 0x0302 0 writeLimit (staged_ []) (fun r s _ => 4 ≤ r.payload.length ∧ r.handle = 0 ∧
      parseRecords (field r.payload 0 1) (r.payload.drop 4) = some [limitRecord 6000] ∧ (s.box 0).stage = some [] ∧
      [limitRecord 6000].filterMap (recordRefusal r.role) = [] ∧ (∀ c ∈ [limitRecord 6000], sealRefusal s c = none) ∧
      ([limitRecord 6000].foldl stageRecord []).length ≤ 256 ∧ stageBytes ([limitRecord 6000].foldl stageRecord []) ≤ 4096) ∧
    Met 0x0304 0 [] (staged_ []) (fun r s _ => r.payload = [] ∧ r.handle = 0 ∧ (s.box 0).stage = some []) ∧
    Met 0x0305 0 [0, 1, 1, 1] running (fun r _ _ => r.payload.length = 4 ∧ r.handle = 0 ∧ field r.payload 0 1 = 0 ∧
      fieldKnown (field r.payload 2 2) (field r.payload 1 1) = true) ∧
    Met 0x0306 0 [] running (fun r s _ => r.payload = [] ∧ r.handle = 0 ∧ (s.box 0).stage = none ∧ s.committing 0 = false) ∧
    (let s := State.at_ (staged_ []) 300000
     (s.box (hostBox 0)).stage.isSome = true ∧ (s.box (hostBox 0)).stageTouched + 300000 ≤ s.now) := by
  (repeat' apply And.intro) <;> decide +kernel

theorem test_CFG_COMMIT_met :
    Met 0x0303 0 [] (staged_ [limitRecord 6000]) (fun r s _ => r.payload = [] ∧ r.handle = 0 ∧
      (s.box 0).stage = some [limitRecord 6000] ∧ sealedNow s [limitRecord 6000] = none ∧ rankDenied s r.role [limitRecord 6000] = none ∧
      conflict s [limitRecord 6000] (candidate s.rotunda.committed [limitRecord 6000]) = none ∧
      stateRefused s [limitRecord 6000] = none ∧ s.power.holdUp = false) ∧
    Met 0x0303 0 [] (staged_ [limitRecord 600000]) (fun r s _ => (s.box 0).stage = some [limitRecord 600000] ∧
      sealedNow s [limitRecord 600000] = none ∧
      rankDenied s r.role [limitRecord 600000] = none ∧
      (conflict s [limitRecord 600000] (candidate s.rotunda.committed [limitRecord 600000])).isSome = true) ∧
    Met 0x0303 0 [] (staged_ [⟨0x0308, 0, 1, 255⟩]) (fun r s _ => r.payload = [] ∧ r.handle = 0 ∧
      (s.box 0).stage = some [⟨0x0308, 0, 1, 255⟩] ∧ (sealedNow s [⟨0x0308, 0, 1, 255⟩]).isSome = true) ∧
    (let s := (State.at_ running 1000).withRotunda { running.rotunda with commits := [⟨0, 0x0303, 7, 0, 1, 0, false⟩] }
     s.rotunda.commits = [⟨0, 0x0303, 7, 0, 1, 0, false⟩] ∧ (0 : Box) = hostBox 0 ∧ 0 + 1000 ≤ s.now) := by
  (repeat' apply And.intro) <;> decide +kernel

/-- Host port 0 in role BILLING. -/
def billing : State := { running with power := { running.power with inForce := { running.power.inForce with roles := #v[2, 3, 3, 3] } } }

theorem test_ALLOC_SET_met :
    Met 0x0310 0 (le 2 0x0101 ++ [1, 0] ++ le 4 6000) running (fun r s _ => r.payload.length = 8 ∧ r.handle = 0 ∧
      fieldAlloc (field r.payload 0 2) = true ∧ fieldKnown (field r.payload 0 2) (field r.payload 2 1) = true ∧
      fieldWritable r.role (field r.payload 0 2) = true ∧ field r.payload 3 1 = 0 ∧
      allocValue (field r.payload 0 2) (field r.payload 4 4) = some 6000 ∧ s.rank (field r.payload 0 2) (field r.payload 2 1) ≤ r.role ∧
      conflict s [⟨0x0101, 1, fieldSize 0x0101, 6000⟩] (setRaw s.rotunda.committed 0x0101 1 6000) = none ∧
      stateRefused s [⟨0x0101, 1, fieldSize 0x0101, 6000⟩] = none ∧ s.power.holdUp = false) ∧
    (let pl := le 2 0x0101 ++ [1, 0] ++ le 4 6000
     ready (asking 0x0310 0 pl billing) 0 0x0310 = some (frameOf 0x0310 0 pl, { reqOf 0x0310 0 pl with role := 2 }) ∧
       fieldAlloc 0x0101 = true ∧ fieldKnown 0x0101 1 = true ∧ fieldWritable 2 0x0101 = false) ∧
    Met 0x0430 0 [] running (fun r s _ => r.payload = [] ∧ r.handle = 0 ∧ 0x18 ∉ s.rotunda.rebuilding) ∧
    (showSite running).turret.siteShown.isSome = true := by
  (repeat' apply And.intro) <;> decide +kernel

/-- Line frequency is detected; a channel's entry is one and a half periods old. -/
def detected : State := (State.at_ running 30).withDsp { running.dsp with frequency := some 50000 }

/-- A phase's guard as it stands, with ports 22 and 23 energised. -/
def guarded (f : GuardPhase → GuardPhase) : State :=
  (((State.at_ running 500).modGuard 0 f).modLane 23 (fun l => { l with state := .energised })).modLane 22 (fun l => { l with state := .energised })

theorem test_MirrorAndGuard_met :
    (detected.dspUp = true ∧ detected.turretUp = true ∧ detected.dsp.frequency.isSome = true ∧ running.dsp.frequency = none) ∧
    (detected.channelEnabled 71 = true ∧ (detected.turret.mirror[(71 : Channel88)]).stale = false ∧
      (detected.turret.mirror[(71 : Channel88)]).updatedAt + detected.staleLimit ≤ detected.now) ∧
    10 ≤ ((guarded (fun g => { g with zone0Run := 10 })).guard 0).zone0Run ∧
    (let s := guarded (fun g => { g with zone2Timer := 1000000 })
     1000000 ≤ (s.guard 0).zone2Timer ∧ (s.sheddingOrder 0).length = 2) ∧
    (let s := guarded (fun g => { g with zone2Timer := 999999, lsTimer := 5000000 })
     (s.guard 0).zone2Timer < 1000000 ∧ 5000000 ≤ (s.guard 0).lsTimer ∧ (s.sheddingOrder 0).length = 2) ∧
    (let s := running.modGuard 0 (fun g => { g with lsTimer := 5000000 })
     5000000 ≤ (s.guard 0).lsTimer ∧ s.sheddingOrder 0 = []) ∧
    (∀ g : Phase, ((guarded id).guard g).hard = none) ∧
    (let s := guarded (fun g => { g with zone3Run := 2 })
     2 ≤ (s.guard 0).zone3Run ∧ (s.guard 0).hard = none ∧ (s.sheddingOrder 0).length = 2) ∧
    ((guarded (fun g => { g with hard := some (90000, [23]) })).guard 0).hard = some (90000, 23 :: []) ∧
    ((guarded (fun g => { g with hard := some (90000, []) })).guard 0).hard = some (90000, []) ∧
    ((guarded id).lane 23).state = .energised ∧ (guarded id).stoppable 21 = false ∧
    ((32000 : Nat) < 32001 ∧ (32000 : Nat) ≤ 32000) ∧
    (let s := guarded (fun g => { g with blind := true, blindSince := 0 })
     s.steepleUp = true ∧ (s.guard 0).blind = true ∧ (s.guard 0).raised = false ∧ (s.guard 0).blindSince + 500 ≤ s.now) := by
  (repeat' apply And.intro) <;> decide +kernel

/-- Turret changed. -/
def turretAs (f : Turret → Turret) (s : State) : State := s.withTurret (f s.turret)

/-- A queue of gaps. -/
def queued (n : Nat) : List QEntry := List.replicate n ⟨1, 0, none, .gap 1 1 1⟩

theorem test_CrossingRows_met :
    (let s := turretAs (fun t => { t with crossings := 5 }) lined
     s.turretUp = true ∧ s.boundaryDue = true ∧ s.dsp.frequency.isSome = true ∧ (turretAs (fun t => { t with crossings := 4 }) s).boundaryDue = false) ∧
    (running.dsp.frequency = none ∧ (State.at_ running 99).boundaryDue = false ∧ (State.at_ running 100).boundaryDue = true) ∧
    (running.turretUp = true ∧ running.up .cd5 = true ∧ running.steeple.window = none ∧ running.serves = true ∧
      running.rotunda.silent = false) ∧
    (let s := State.at_ running 1000
     s.turret.inputStale = false ∧ s.turret.inputHeartbeatAt + 1000 ≤ s.now ∧ s.rotunda.queueHeartbeatAt + 1000 ≤ s.now ∧
       s.rotunda.published.record = []) ∧
    (let s := turretAs (fun t => { t with hostDiscarded := false, latched := { t.latched with surplusAt := some 0 } }) (State.at_ running 15000)
     s.turret.hostDiscarded = false ∧ s.turret.latched.surplusAt = some 0 ∧ 0 + 15000 ≤ s.now ∧ (14999 : Nat) < 0 + 15000) ∧
    (let s := turretAs (fun t => { t with queueLost := some ⟨1, 2, 2⟩, queue := queued 223 }) running
     s.turret.queueLost = some ⟨1, 2, 2⟩ ∧ s.turret.queue.length < 224) ∧
    (let s := turretAs (fun t => { t with queue := queued 223 }) running
     s.turret.queueLost = none ∧ s.turret.queue.length < 224 ∧ s.turret.queue = ⟨1, 0, none, .gap 1 1 1⟩ :: queued 222) ∧
    (let s := turretAs (fun t => { t with queueLost := some ⟨1, 2, 2⟩, queue := queued 224 }) running
     s.turret.queueLost = some ⟨1, 2, 2⟩ ∧ 224 ≤ s.turret.queue.length ∧ (QContent.readmitted 6000).urgent = false) ∧
    (let x : QEntry := ⟨5, 7, some 3, .readmitted 6000⟩
     (∀ y, (queued 1).getLast? = some y → y.time ≠ x.time) ∧ x.port = some 3 ∧ (2 : Port) < 3 ∧ ¬ (3 : Port) < 3) := by
  (repeat' apply And.intro) <;> decide +kernel

/-! ## Hypotheses met: powerline, reader and keys -/

/-- A link direction with a map in slot 0; carriers of band L all DBPSK. -/
def fullMap : ToneMap := ⟨0, List.replicate 9 0x55⟩
def mapped : LinkDir := ⟨[⟨some fullMap, 0, 0⟩, ⟨none, 0, 0⟩, ⟨none, 0, 0⟩, ⟨none, 0, 0⟩], some 0, false, false, 0, [], true, 0, 1⟩

/-- A neighbour of address 5 in slot 0x30, heard in both bands at 0. -/
def neighbour : NeighbourBody :=
  ⟨[1, 2, 3, 4, 5, 6, 7, 8], 5, 3, 0, true, true, 0, 0, (0, 0), 0, 0, 0, mapped, mapped, mapped, mapped, 0, 0, 0, 0, 0, [], false⟩
def neighbourChannel : Channel := ⟨0x30, 1, none, 0xFF, 0, 0, 0, .neighbour neighbour⟩

/-- Both bands run, the neighbour is joined, and Cupola holds the network key. -/
def linked (f : Belfry → Belfry) : State :=
  ({ keyed with rotunda := { keyed.rotunda with channels := [neighbourChannel] } }).withBelfry
    (f { keyed.belfry with low := { BandState.reset with running := true }, upper := { BandState.reset with running := true },
                           nodes := [⟨neighbour.eui, 5, 3, 0, 0⟩] })

/-- A message of the Drurus's own, with a slot drawn or not, and one of a host. -/
def ownMessage (slot : Option Nat) : PlcMessage :=
  ⟨0, 0x10, 1, 5, 0, 5, 7, .plain, false, true, 0, 0, 0, slot, [], .own⟩
def hostMessage (attempts : Nat) : PlcMessage :=
  { ownMessage none with security := .network, attempts := attempts, purpose := .host ⟨0, 0x0603, 7, 0, 0, 0, []⟩ 1 }

theorem test_PlcMediumAccess_met :
    ((linked id).listens .low = true ∧ ((linked id).band .low).medium = .idle) ∧
    (let s := linked (fun b => { b with low := { b.low with medium := .ackSlot, queue := [ownMessage none] } })
     s.up .cd8 = true ∧ (s.band .low).running = true ∧ (s.band .low).awaitingAck = false ∧ (s.band .low).medium = .ackSlot) ∧
    (let s := linked (fun b => { b with low := { b.low with medium := .contention, queue := [ownMessage (some 7)] } })
     (s.band .low).medium = .contention ∧ (s.band .low).current = none ∧ s.power.holdUp = false ∧
       firstSlot (s.band .low).queue = some (ownMessage (some 7)) ∧ (s.band (otherBand .low)).medium ≠ .receiving ∧
       s.canSecure (ownMessage (some 7)).security .low = true) ∧
    ((linked (fun b => { b with upper := { b.upper with medium := .receiving } })).band (otherBand .low)).medium = .receiving ∧
    (ownMessage none).security = .plain ∧ (hostMessage 0).security = .network ∧
    (let s := linked (fun b => { b with low := { b.low with medium := .sending, current := some (ownMessage none) } })
     (s.band .low).medium = .sending ∧ (s.band .low).current = some (ownMessage none) ∧ (ownMessage none).acked = true) ∧
    (let s := linked (fun b => { b with low := { b.low with medium := .ackSlot, ackDue := some 5 } })
     (s.band .low).ackDue = some 5 ∧ (s.band .low).running = true ∧ (s.band .low).medium = .ackSlot) ∧
    (let s := linked (fun b => { b with low := { b.low with awaitingAck := true, current := some (hostMessage 3) } })
     (s.band .low).awaitingAck = true ∧ (s.band .low).current = some (hostMessage 3) ∧ (hostMessage 3).attempts < 4 ∧
       (hostMessage 3).purpose = .host ⟨0, 0x0603, 7, 0, 0, 0, []⟩ 1) ∧
    (let s := linked (fun b => { b with low := { b.low with timedOut := true } })
     (s.band .low).awaitingAck = false ∧ (s.band .low).timedOut = true) ∧
    ((linked id).listens .upper = true ∧ (linked id).neighbourOf 9 = none ∧
      (linked id).checkPasses .upper 9 ⟨none, List.replicate 4 200⟩ [] = false) ∧
    (linked id).checkPasses .upper 9 ⟨none, []⟩ (List.replicate 216 250) = true := by
  (repeat' apply And.intro) <;> decide +kernel

/-- A secured frame of the neighbour, its counter above the last received. -/
def frame (type originator final : Nat) (data : List Byte) : PlcFrame :=
  ⟨5, 0, originator, final, 7, type, 1, 0, true, true, 1, false, false, false, 0, 0, 0, data, []⟩

/-- The frame is taken: what reception leaves. -/
def taken_ (frameType : Nat) (f : PlcFrame) (s : State) : Option State := acceptSecured .low f (endReception .low frameType f s)

theorem test_PlcMapsAndRoutes_met :
    (linked id).listens .low = true ∧ taken_ 2 { frame 0 0 0 [] with micOk := false } (linked id) = none ∧
    (let f := frame 0 0 0 ([0, 3, 0, 0] ++ fullMap.carriers)
     (taken_ 2 f (linked id)).isSome = true ∧ f.final = 0 ∧ updateOf f.data = some (.low, 3, fullMap)) ∧
    (let s := State.at_ (linked id) 60000
     s.neighbourAt 0x30 = some (neighbourChannel, neighbour) ∧ s.up .cd8 = true ∧ (s.band .low).running = true ∧
       (neighbour.dir .low .receive).traffic = true ∧ (neighbour.dir .low .receive).lastMapAt + 60000 ≤ s.now ∧
       (mapOf .low [List.replicate 36 250]).isSome = true) ∧
    (let s := State.at_ (linked id) 300000
     (neighbour.dir .low .send).maps[(0 : Fin 4).val]? = some ⟨some fullMap, 0, 0⟩ ∧ 0 + 300000 ≤ s.now) ∧
    (let f := frame 0x70 9 0xFFFF (le 2 0 ++ le 2 1 ++ le 2 10 ++ [7])
     (taken_ 0 f (linked id)).any (fun t => t.belfry.relayed.isEmpty) = true ∧ f.final = 0xFFFF ∧ f.originator ≠ 0 ∧
       field f.data 0 2 = 0 ∧ field f.data 6 1 < 8) ∧
    (let f := frame 0x71 9 0 (le 2 9 ++ le 2 1 ++ le 2 10 ++ [7])
     (taken_ 0 f (linked id)).any (fun t => t.belfry.discoveries.isEmpty) = true ∧ f.final = 0 ∧ field f.data 6 1 < 8) := by
  (repeat' apply And.intro) <;> decide +kernel

theorem test_PlcTimes_met :
    (let s := State.at_ (linked (fun b => { b with replies := [⟨9, 1, 10, 5, .low, 200⟩] })) 200
     s.up .cd8 = true ∧ s.belfry.replies = [⟨9, 1, 10, 5, .low, 200⟩] ∧ 200 ≤ s.now) ∧
    (let s := State.at_ (linked (fun b => { b with discoveries := [⟨9, 1, 0, 1, []⟩] })) 2000
     s.belfry.discoveries = [⟨9, 1, 0, 1, []⟩] ∧ 0 + 2000 ≤ s.now) ∧
    (let s := State.at_ (linked (fun b => { b with discoveries := [⟨9, 1, 0, 2, [hostMessage 0]⟩] })) 2000
     s.belfry.discoveries = [⟨9, 1, 0, 2, [hostMessage 0]⟩] ∧ (hostMessage 0).originator = 0 ∧ (hostMessage 0).prefer = 0) ∧
    (taken_ 0 (frame 0x72 5 0 (le 2 9)) (linked id)).isSome = true ∧
    (let s := State.at_ (linked (fun b => { b with routes := [⟨9, 5, .low, 2, 10, 0, 0⟩] })) 1800000
     s.belfry.routes = [⟨9, 5, .low, 2, 10, 0, 0⟩] ∧ 0 + 1800000 ≤ s.now) ∧
    (let s := State.at_ (linked id) 600000
     s.neighbourAt 0x30 = some (neighbourChannel, neighbour) ∧ neighbour.lastHeardAt + 600000 ≤ s.now) := by
  (repeat' apply And.intro) <;> decide +kernel

/-- A pairing window is open for one node. -/
def nodeEui : List Byte := [9, 9, 9, 9, 9, 9, 9, 9]
def pairing_ : Pairing := ⟨600000, [(nodeEui, zeros 16)], 0, 0⟩

theorem test_PlcMessagesAndJoining_met :
    ((taken_ 0 (frame 0x03 5 0 [1]) (linked id)).isSome = true ∧ (taken_ 0 (frame 0x04 5 0 [1]) (linked id)).isSome = true ∧
      (taken_ 0 (frame 0x1F 5 0 [1]) (linked id)).isSome = true ∧ (taken_ 0 (frame 0x20 5 0 [1]) (linked id)).isSome = true) ∧
    (running.networkKey = none ∧ { frame 0x10 5 0 [] with secured := false }.secured = false) ∧
    (let s := linked (fun b => { b with nodes := [⟨neighbour.eui, 5, 1, 23, 0⟩], indicationDue := Vector.replicate 24 true })
     s.up .cd8 = true ∧ s.belfry.indicationDue[(23 : Port)] = true ∧ s.belfry.nodes = [⟨neighbour.eui, 5, 1, 23, 0⟩]) ∧
    (let s := (State.at_ (linked (fun b => { b with nodes := [⟨neighbour.eui, 5, 2, 1, 0⟩] })) 300000).withRotunda
       { (linked id).rotunda with committed := setRaw running.rotunda.committed 0x0506 0 60, applied := setRaw running.rotunda.applied 0x0506 0 60 }
     s.cfg 0x0506 0 ≠ 0 ∧ s.belfry.reportAt + s.cfg 0x0506 0 * 1000 ≤ s.now ∧ s.belfry.nodes = [⟨neighbour.eui, 5, 2, 1, 0⟩]) ∧
    (let s := State.at_ (linked (fun b => { b with pairing := some pairing_ })) 5000
     s.belfry.pairing = some pairing_ ∧ pairing_.lastBeaconAt + 5000 ≤ s.now) ∧
    (let s := linked (fun b => { b with pairing := some pairing_ })
     let f : PlcFrame := { frame 0x79 0 0 (nodeEui ++ zeros 10) with secured := false }
     s.listens .low = true ∧ pairing_.nodes.find? (fun x => x.1 == f.data.take 8) = some (nodeEui, zeros 16) ∧
       s.addressFor (f.data.take 8) = some 1 ∧ f.type = 0x79 ∧ f.data.length = 18 ∧ s.belfry.nodes.length < 250 ∧
       s.networkKey.isSome = true ∧ s.cupola.rngHealthy = true ∧ s.belfry.joins = [] ∧ s.bandEnabled .low = true) ∧
    (let j : Join := ⟨nodeEui, 1, 3, 0, zeros 8, 10000⟩
     let s := State.at_ (linked (fun b => { b with joins := [j] })) 10000
     let f := { frame 0x7B 1 0 (nodeEui ++ zeros 8) with counter := 1 }
     s.belfry.joins = [j] ∧ j.eui = f.data.take 8 ∧ j.nd = slice f.data 8 8 ∧ s.now ≤ j.deadline ∧ f.type = 0x7B ∧
       f.secured = true ∧ f.micOk = true ∧ s.networkKey.isSome = true ∧ f.data.length = 16 ∧ j.deadline < 10001 ∧ f.destination = 0 ∧
       s.bandEnabled .low = true ∧ ¬ f.source ∈ (s.band .low).dropped ∧ s.neighbourOf f.source = some (neighbourChannel, neighbour) ∧
       neighbour.rxCounter < f.counter) ∧
    ((linked id).neighbourOf 5 = some (neighbourChannel, neighbour) ∧ 0 ≤ neighbour.rxCounter) ∧
    (5 ∈ ((linked (fun b => { b with low := { b.low with dropped := [5] } })).band .low).dropped) ∧
    pairing_.endsAt ≤ (State.at_ (linked id) 600000).now := by
  (repeat' apply And.intro) <;> decide +kernel

/-- PLC_SEND to node 5, band U, and PLC_PAIRING_OPEN of one node under proof 9. -/
def sendTo5 : List Byte := [5, 0, 2, 2, 0x1F, 0, 0, 0, 1]
def openPairing : List Byte := [0x58, 2, 1, 0, 9, 0, 0, 0] ++ zeros 24

/-- Host port 0 in role ENERGY. -/
def energy (s : State) : State := { s with power := { s.power with inForce := { s.power.inForce with roles := #v[1, 3, 3, 3] } } }

theorem test_PlcCommands_met :
    Met 0x0601 0 [] (linked id) (fun r s _ => r.payload = [] ∧ r.handle = 0 ∧ s.up .cd8 = true) ∧
    Met 0x0602 0 [0, 24, 0, 0] (linked id) (fun r _ _ => r.payload.length = 4 ∧ r.handle = 0 ∧ 1 ≤ field r.payload 1 1 ∧
      field r.payload 1 1 ≤ 24) ∧
    Met 0x0603 0 sendTo5 (linked id) (fun r s _ => 9 ≤ r.payload.length ∧ r.payload.length ≤ 402 ∧ r.handle = 0 ∧ s.maySend r = true ∧
      1 ≤ field r.payload 0 2 ∧ field r.payload 0 2 ≤ 0xFA ∧ 1 ≤ field r.payload 2 1 ∧ field r.payload 2 1 ≤ 2 ∧
      field r.payload 3 1 ≤ 2 ∧ 0x10 ≤ field r.payload 4 1 ∧ field r.payload 4 1 ≤ 0x1F ∧ s.up .cd8 = true ∧
      (s.nodeOf (field r.payload 0 2)).isSome = true) ∧
    (let s := energy (linked (fun b => { b with nodes := [] }))
     ready (asking 0x0603 0 sendTo5 s) 0 0x0603 = some (frameOf 0x0603 0 sendTo5, { reqOf 0x0603 0 sendTo5 with role := 1 }) ∧
       s.maySend { reqOf 0x0603 0 sendTo5 with role := 1 } = false) ∧
    Met 0x0604 0 openPairing ({ linked id with now := 119999, oculus := proven.oculus }) (fun r s _ =>
      r.payload.length = 8 + 24 * field r.payload 2 1 ∧ r.handle = 0 ∧ 60 ≤ field r.payload 0 2 ∧ field r.payload 0 2 ≤ 600 ∧
      1 ≤ field r.payload 2 1 ∧ field r.payload 2 1 ≤ 4 ∧ s.up .cd8 = true ∧ s.installerProof (field r.payload 4 4) = true) ∧
    Met 0x0605 0 [0, 24, 0, 0] (linked id) (fun r s _ => r.payload.length = 4 ∧ r.handle = 0 ∧ 1 ≤ field r.payload 1 1 ∧
      field r.payload 1 1 ≤ 24 ∧ s.up .cd8 = true) ∧
    Met 0x0606 neighbourChannel.handle [1, 1, 3, 0] (linked id) (fun r s t => r.payload.length = 4 ∧ r.handle ≠ 0 ∧
      t.current r.handle = true ∧ t.channelOf r.handle = some neighbourChannel ∧ field r.payload 0 1 ≤ 1 ∧
      field r.payload 1 1 ≤ 1 ∧ field r.payload 2 1 ≤ 3 ∧ s.up .cd8 = true) ∧
    Met 0x0607 0 [5, 0, 0, 0] (linked id) (fun r s _ => r.payload.length = 4 ∧ r.handle = 0 ∧
      s.nodeOf (field r.payload 0 2) = some ⟨neighbour.eui, 5, 3, 0, 0⟩ ∧ s.up .cd8 = true) := by
  (repeat' apply And.intro) <;> decide +kernel

/-- The reader runs on both antennas and admits both tag families. -/
def reading (f : Oculus → Oculus) : State :=
  let cfg := [(0x0601, 1), (0x0602, 3), (0x0606, 3), (0x0608, 3)].foldl (fun c x => setRaw c x.1 0 x.2) running.rotunda.committed
  ({ keyed with rotunda := { keyed.rotunda with committed := cfg, applied := cfg } }).withOculus (f keyed.oculus)

/-- A card, and a keytag of version 2 whose owner is an INSTALLER. -/
def card : Tag := ⟨.typeA, [1, 2, 3, 4], false, 3, zeros 4, zeros 16, false, 0, zeros 8, [], []⟩
def keytag : Tag := ⟨.keytagV2, [1, 2, 3, 4, 5, 6, 7], false, 3, [1, 1, 1, 1], zeros 16, false, 2, zeros 8,
  [⟨0, 1, [1, 2, 3, 4, 5, 6, 7, 0, 0, 0, 7, 2, 2] ++ zeros 19⟩], []⟩

/-- An antenna with a mean of 1000 and a presentation. -/
def measured (x : Option Presentation) (o : Oculus) : Oculus := { o with ant0 := { o.ant0 with amplitudes := [1000], phases := [0], presentation := x } }

/-- A reach of a keytag lost at 0. -/
def aTxn : TxnBody := ⟨0, 2, 0, false, zeros 7, 0, 0, 0, 0, 7, 0x0703, 0, []⟩
def aReach : ReachRun := ⟨0, keytag.uid, 1, 0, zeros 32, 0, false, [], [], 2, aTxn, 0x40⟩

/-- A card presented since 0, and a keytag that is SECURED and has passed its challenge. -/
def shown_ (fails : Nat) : Presentation := ⟨[PresentedTag.fresh card], 1, fails, 0, false⟩
def passing : PresentedTag := { PresentedTag.fresh keytag with secured := true, passed := true }
def secured_ (x : PresentedTag) : State := reading (measured (some ⟨[x], 1, 0, 0, true⟩))

theorem test_ReaderRows_met :
    (let s := reading (measured none)
     s.readerRuns = true ∧ s.antennaOn 0 = true ∧ (s.antenna 0).presentation = none ∧
       (s.antenna 0).triggers 1000 0 (s.cfg 0x0604 0) (s.cfg 0x0605 0) = false ∧
       (s.antenna 0).triggers 2000 0 (s.cfg 0x0604 0) (s.cfg 0x0605 0) = true ∧ (s.polled [card]).2 = [card] ∧ s.pingDue 0 = true ∧ (s.polled (List.replicate 9 card)).2.length ≤ 8) ∧
    (let s := State.at_ ((reading id).modAntenna 0 (fun x => { x with lastPing := some 0 })) 1
     (s.antenna 0).lastPing = some 0 ∧ s.now < 0 + s.cfg 0x0603 0) ∧
    (let s := State.at_ (reading (measured (some (shown_ 2)))) 100
     s.up .cd9 = true ∧ (s.antenna 0).presentation = some (shown_ 2) ∧ (shown_ 2).checkedAt + 100 ≤ s.now ∧ (shown_ 2).failedChecks = 2) ∧
    (State.at_ (reading (measured (some (shown_ 2)))) 99).now < (shown_ 2).checkedAt + 100 ∧
    ((reading (fun o => { o with driven := some 1 })).oculus.driven = some (1 - 0)) ∧
    (let s := State.at_ (reading (fun o => { o with held := [⟨1, 0, 0, 0, [1, 2, 3, 4]⟩] })) 120001
     s.oculus.held = [⟨1, 0, 0, 0, [1, 2, 3, 4]⟩] ∧ 0 + 120000 < s.now) ∧
    (let s := State.at_ (reading (fun o => { o with proofs := [⟨9, 2, 0, [], 0, 0, false⟩] })) 120000
     s.oculus.proofs = [⟨9, 2, 0, [], 0, 0, false⟩] ∧ 0 + 120000 ≤ s.now) ∧
    (let s := State.at_ (reading (fun o => { o with reach := some aReach })) 301
     s.oculus.reach = some aReach ∧ aReach.antenna = 0 ∧ aReach.lostAt + 300 < s.now) ∧
    (let s := State.at_ (reading (fun o => { o with reach := some aReach })) 300
     s.now ≤ aReach.lostAt + 300 ∧ s.mayAuthenticate aReach.uid = true) ∧
    (let c : Channel := ⟨0x40, 1, some 0, 3, 0, 0, 0, .txn aTxn⟩
     let s := (reading id).withRotunda { (reading id).rotunda with channels := [c] }
     s.txnOn 0 = some (c, aTxn) ∧ aTxn.state = 0 ∧ aTxn.deadlineAt ≤ s.now) ∧
    ((reading (fun o => { o with vddtxGood := false })).oculus.vddtxGood = false) := by
  (repeat' apply And.intro) <;> decide +kernel

/-- Port 23 has a session plugged at 0 that awaits authorisation. -/
def waiting_ : State :=
  let s := laneAs (fun l => { l with session := (sessionChannel .opened id).handle, state := .connected }) (reading id)
  s.withRotunda { s.rotunda with channels := [sessionChannel .opened id] }
def listed (deny : Bool) (s : State) : State := s.withOculus { s.oculus with list := [⟨0, card.uid, 0, deny, 16000, 0, 0, 0⟩] }

theorem test_Taps_met :
    (isKeytag keytag = true ∧ { keytag with attemptsLeft := 0 }.attemptsLeft = 0 ∧ keytag.blank = false) ∧
    (let x := PresentedTag.fresh keytag
     let s := secured_ x
     x.tag.attemptsLeft ≠ 0 ∧ x.tag.kind = .keytagV2 ∧ ((secureTag 0 x s).2.tagNow 0 x).passed = false) ∧
    (let s := secured_ passing
     ((secureTag 0 passing s).2.tagNow 0 passing).passed = true ∧ ((secureTag 0 passing s).2.tagNow 0 passing).tag.kind = .keytagV2 ∧
       roleIn ((secureTag 0 passing s).2.tagNow 0 passing).tag = 2) ∧
    (attempt 0 keytag ((reading id).withCupola { (reading id).cupola with zeroized := true })).1 = false ∧
    (let x := PresentedTag.fresh keytag
     x.secured = false ∧ field [0xB2] 0 1 ∈ [0xB2, 0xB3, 0xB4] ∧ 15 < field [0xB1, 16] 1 1 ∧ x.tag.blank = false ∧
       field [0xB6] 0 1 ∈ [0xB5, 0xB6] ∧ slice [0xB5, 2, 2, 2, 2] 1 4 ≠ x.tag.password ∧ x.tag.obliging = false) ∧
    (reading id).tagNow 0 (PresentedTag.fresh card) = PresentedTag.fresh card ∧
    waiting_.tagNow 0 (PresentedTag.fresh card) = PresentedTag.fresh card ∧
    (card.kind = .typeA ∧ (listed true (reading id)).listEntryFor card = some ⟨0, card.uid, 0, true, 16000, 0, 0, 0⟩) ∧
    ((reading id).listEntryFor card = none ∧ (reading id).tapCandidates 0 card.uid (reading id).time = []) ∧
    (State.at_ waiting_ 120000).tapCandidates 0 card.uid 120000 = [23] ∧
    (State.at_ waiting_ 120001).tapCandidates 0 card.uid 120001 = [] ∧ waiting_.listEntryFor card = none ∧
    ((listed false waiting_).listEntryFor card = some ⟨0, card.uid, 0, false, 16000, 0, 0, 0⟩ ∧
      (listed false waiting_).tapCandidates 0 card.uid 0 = [23] ∧ (listed false waiting_).canAuthorise = true) := by
  (repeat' apply And.intro) <;> decide +kernel

/-- TAG_READ of eight blocks from 56, TAG_WRITE of block 63, TAG_PROVISION, BIND_PORT of tap 1 to port 23. -/
def tagRead_ : List Byte := [0, 120, 0, 56] ++ zeros 10 ++ [8, 0]
def tagWrite_ : List Byte := [1, 120, 7, 1] ++ zeros 12 ++ [63] ++ zeros 35
def tagProvision_ : List Byte := [0, 120, 1, 3, 0, 0, 0, 0]
def bind23 : List Byte := [1, 0, 0, 0, 23, 0, 0, 0] ++ le 4 16000

theorem test_ReaderCommands_met :
    Met 0x0701 0 [] (reading id) (fun r s _ => r.payload = [] ∧ r.handle = 0 ∧ s.up .cd9 = true) ∧
    Met 0x0702 0 tagRead_ (reading id) (fun r s _ => r.payload.length = 16 ∧ r.handle = 0 ∧ field r.payload 0 1 = 0 ∧
      field r.payload 1 1 ≤ 120 ∧ field r.payload 2 1 = 0 ∧ field r.payload 3 1 + field r.payload 14 1 ≤ 64 ∧
      1 ≤ field r.payload 14 1 ∧ field r.payload 14 1 ≤ 8 ∧ bit (s.cfg 0x0602 0) 0 = true ∧ s.up .cd9 = true) ∧
    Met 0x0703 0 tagWrite_ (reading id) (fun r s _ => r.payload.length = 16 + 36 * field r.payload 3 1 ∧ r.handle = 0 ∧
      field r.payload 0 1 = 1 ∧ field r.payload 1 1 ≤ 120 ∧ field r.payload 2 1 = 7 ∧ 1 ≤ field r.payload 3 1 ∧
      field r.payload 3 1 ≤ 4 ∧ (∀ e ∈ writeEntries r.payload (field r.payload 3 1), 1 ≤ e.1 ∧ e.1 ≤ 63) ∧
      bit (s.cfg 0x0602 0) 1 = true ∧ s.up .cd9 = true) ∧
    Met 0x0707 0 tagProvision_ (reading id) (fun r s _ => r.payload.length = 8 ∧ r.handle = 0 ∧ field r.payload 0 1 = 0 ∧
      field r.payload 1 1 ≤ 120 ∧ field r.payload 2 1 ≤ 1 ∧ 1 ≤ field r.payload 3 1 ∧ field r.payload 3 1 ≤ 3 ∧
      bit (s.cfg 0x0602 0) 0 = true ∧ s.up .cd9 = true) ∧
    ((reading id).txnOn 0 = none ∧ ((reading id).antenna 0).presentation = none ∧ (1 : Nat) ≠ 0 ∧
      (createChannel (.txn aTxn) (some 0) 3 (reading id)).isSome = true) ∧
    Met 0x0704 0 [0xF3, 1, 13, 0] (reading id) (fun r s _ => r.payload.length = 4 ∧ r.handle = 0 ∧
      field r.payload 0 2 + field r.payload 2 1 ≤ 512 ∧ 1 ≤ field r.payload 2 1 ∧ field r.payload 2 1 ≤ 13 ∧ s.up .cd9 = true) ∧
    Met 0x0705 0 [2, 0, 0, 0] (reading id) (fun r s _ => r.payload.length = 4 ∧ r.handle = 0 ∧ field r.payload 0 1 = 2 ∧
      field r.payload 1 1 = 0 ∧ s.up .cd9 = true) := by
  (repeat' apply And.intro) <;> decide +kernel

theorem test_BIND_PORT_met :
    Met 0x0706 0 bind23 ((State.at_ waiting_ 120000).withOculus { waiting_.oculus with held := [⟨1, 0, 0, 0, card.uid⟩] }) (fun r s _ =>
      r.payload.length = 12 ∧ r.handle = 0 ∧ field r.payload 5 1 = 0 ∧ portOf (field r.payload 4 1) = some 23 ∧
      capOk (field r.payload 8 4) = true ∧ s.up .cd9 = true ∧ s.oculus.held = [⟨1, 0, 0, 0, card.uid⟩] ∧ 1 = field r.payload 0 4 ∧
      s.now ≤ 0 + 120000 ∧ s.rotunda.silent = false ∧ s.isTapCandidate 0 card.uid 0 23 = true) := by
  (repeat' apply And.intro) <;> decide +kernel

/-- The example of RFC 3394, section 4.1: key-encryption key, key, and the key wrapped. -/
def rfcKek : List Byte := [0, 1, 2, 3, 4, 5, 6, 7, 8, 9, 10, 11, 12, 13, 14, 15]
def rfcKey : List Byte := [0x00, 0x11, 0x22, 0x33, 0x44, 0x55, 0x66, 0x77, 0x88, 0x99, 0xAA, 0xBB, 0xCC, 0xDD, 0xEE, 0xFF]
def rfcWrapped : List Byte :=
  [0x1F, 0xA6, 0x8B, 0x0A, 0x81, 0x12, 0xB4, 0x47, 0xAE, 0xF3, 0x4B, 0xD8, 0xFB, 0x5A, 0x7B, 0x82, 0x9D, 0x3E, 0x86, 0x23, 0x71, 0xD2,
    0xCF, 0xE5]

/-- The session's key is that of the example; slot 3 holds a staged key, checked or not. -/
def wrapping : State := keyed.modBox 0 (fun m => { m with session := m.session.map (fun x => { x with key := rfcKek }) })
def stagedKey (verified : Bool) : State :=
  keyed.setKeySlot 1 { keyed.keySlot 1 with staged := some rfcKey, stagedCheck := 3003638099, verified := verified }

/-- FIPS 197, appendix C.1. -/
theorem test_aes : aesEncrypt rfcKek rfcKey =
    [0x69, 0xC4, 0xE0, 0xD8, 0x6A, 0x7B, 0x04, 0x30, 0xD8, 0xCD, 0xB7, 0x80, 0x70, 0xB4, 0xC5, 0x5A] := by decide +kernel

/-- RFC 4493, section 4, example 1. -/
theorem test_cmac : cmac [0x2B, 0x7E, 0x15, 0x16, 0x28, 0xAE, 0xD2, 0xA6, 0xAB, 0xF7, 0x15, 0x88, 0x09, 0xCF, 0x4F, 0x3C] [] =
    [0xBB, 0x1D, 0x69, 0x29, 0xE9, 0x59, 0x37, 0x28, 0x7F, 0xA3, 0x7D, 0x12, 0x9B, 0x75, 0x67, 0x46] := by decide +kernel

/-- FIPS 180, the message "abc". -/
theorem test_sha256 : (sha256 [0x61, 0x62, 0x63]).take 4 = [0xBA, 0x78, 0x16, 0xBF] := by decide +kernel

/-- The check value of CRC-32C: the digits 1 to 9. -/
theorem test_crc32c : crc32c [0x31, 0x32, 0x33, 0x34, 0x35, 0x36, 0x37, 0x38, 0x39] = 0xE3069283 := by decide +kernel

theorem test_KeyCommands_met :
    Met 0x0901 0 [] keyed (fun r _ _ => r.payload = [] ∧ r.handle = 0) ∧
    Met 0x0902 0 ([6, 0, 0, 0] ++ rfcWrapped) wrapping (fun r s t => r.payload.length = 28 ∧ r.handle = 0 ∧
      slotIx (field r.payload 0 1) = some 4 ∧ field r.payload 1 1 = 0 ∧ s.cupolaRefusal = none ∧
      keyUnwrap (t.sessionKey r.box) (slice r.payload 4 24) = some rfcKey) ∧
    Met 0x0903 0 ([3, 0, 0, 0] ++ zeros 32) (stagedKey false) (fun r s _ => r.payload.length = 36 ∧ r.handle = 0 ∧
      slotIx (field r.payload 0 1) = some 1 ∧ s.cupolaRefusal = none ∧ (s.keySlot 1).staged = some rfcKey ∧
      fromLe (keyCheck rfcKey) = (s.keySlot 1).stagedCheck ∧ isZero (slice r.payload 20 16) = true) ∧
    Met 0x0904 0 ([3, 0, 0, 0] ++ le 4 3003638099) (stagedKey true) (fun r s _ => r.payload.length = 8 ∧ r.handle = 0 ∧
      slotIx (field r.payload 0 1) = some 1 ∧ s.cupolaRefusal = none ∧ (s.keySlot 1).staged = some rfcKey ∧
      (s.keySlot 1).verified = true ∧ field r.payload 4 4 = (s.keySlot 1).stagedCheck) ∧
    Met 0x0904 0 (3 :: zeros 7) (stagedKey false) (fun r s _ => slotIx (field r.payload 0 1) = some 1 ∧ s.cupolaRefusal = none ∧
      (s.keySlot 1).staged = some rfcKey ∧ (s.keySlot 1).verified = false) ∧
    Met 0x0905 0 [3, 0, 0, 0] (stagedKey false) (fun r s _ => r.payload.length = 4 ∧ r.handle = 0 ∧
      slotIx (field r.payload 0 1) = some 1 ∧ s.cupolaRefusal = none ∧ (s.keySlot 1).staged = some rfcKey) := by
  (repeat' apply And.intro) <;> decide +kernel

/-- The mesh is fitted. -/
def meshed (f : Cupola → Cupola) : State :=
  ({ running with power := { running.power with inForce := { running.power.inForce with mesh := 1 } } }).withCupola (f keyed.cupola)

theorem test_EnclaveRows_met :
    (let s := (State.at_ keyed 5).withCupola { keyed.cupola with retiringUntil := some 5 }
     s.up .cd7 = true ∧ s.cupola.retiringUntil = some 5 ∧ 5 ≤ s.now) ∧
    (let s := keyed.withCupola { keyed.cupola with reanchorDue := true }
     s.up .cd7 = true ∧ s.cupola.rootOk = true ∧ s.cupola.zeroized = false ∧ s.reanchorDue = true ∧ s.cupola.reanchorAfter ≤ s.now ∧
       s.legal.signing = [] ∧ s.cupola.reanchorByBits = false ∧
       reanchorSearch s.cupola.secret 4 s.cupola.window [⟨[0, 0, 0, 1, 1], 2 ^ 511 - 1⟩, ⟨[1, 1, 1, 0, 0], 1⟩] = some (1, 1, 0) ∧
       reanchorSearch s.cupola.secret 4 s.cupola.window (List.replicate 4 ⟨List.replicate 5 0, 2 ^ 511 - 1⟩) = none) ∧
    ((meshed id).aon = true ∧ (meshed id).power.inForce.mesh = 1 ∧ (meshed id).cupola.meshFails = 0 ∧
      (meshed (fun c => { c with meshFails := 1 })).cupola.meshFails ≠ 0) ∧
    ((-50 : Int) ≤ -50 ∧ (125 : Int) ≤ 125 ∧ (-51 : Int) < -50 ∧ (125 : Int) < 126 ∧
      (meshed (fun c => { c with tempFails := 1 })).cupola.tempFails = 1) ∧
    (running.servesBox 4 = true ∧ running.power.phase = .running) := by
  (repeat' apply And.intro) <;> decide +kernel

/-! ## Hypotheses met: memory, updates, Lantern, clocks and power -/

theorem test_MemoryRows_met :
    ((0 : Fin 8) = 0 ∧ running.up (regionClock 7) = true ∧ 131071 < regionLines (7 : Fin 8).val ∧
      (running.memory.regions[(7 : Fin 8)]).poisoned.contains 131071 = false ∧ (⟨5, false, false, false⟩ : LineRequester).code ≠ 0xFE ∧
      (⟨0xFE, false, false, false⟩ : LineRequester).code = 0xFE ∧ isWalled 7 131071 ⟨5, false, false, false⟩ = false ∧
      isWalled 7 131071 ⟨11, true, false, false⟩ = true) ∧
    (running.up .cd5 = true ∧ running.power.holdUp = false ∧ 0 = running.memory.refreshPage ∧
      (1023 : Nat) = { running.memory with refreshPage := 1023 }.refreshPage) ∧
    (let x : Retirement := ⟨7, 5, 0, ⟨0, 0x0A05, 7, 0, 1, 0, []⟩⟩
     let at_ (n : Nat) : State := { State.at_ running n with memory := { running.memory with retiring := some x } }
     (at_ 44).now < x.startedAt + 45 ∧ x.startedAt + 45 ≤ (at_ 45).now) ∧
    Met 0x0A05 0 [7, 0, 0xEF, 3] running (fun r s _ => r.payload.length = 4 ∧ r.handle = 0 ∧ field r.payload 0 1 = (7 : Fin 8).val ∧
      s.retireRefusal 7 (field r.payload 2 2) = none) ∧
    Met 0x0A05 0 [2, 0, 29, 0] running (fun r s _ => r.payload.length = 4 ∧ r.handle = 0 ∧ field r.payload 0 1 = 2 ∧
      s.retireRefusal 2 (field r.payload 2 2) = none) ∧
    Met 0x0A06 0 [1, 0, 0, 0, 14, 0, 0, 0] running (fun r _ _ => r.payload.length = 8 ∧ r.handle = 0 ∧ 1 ≤ field r.payload 4 1 ∧
      field r.payload 4 1 ≤ 14) ∧
    Met 0x0A07 0 [] running (fun r _ _ => r.payload = [] ∧ r.handle = 0) := by
  (repeat' apply And.intro) <;> decide +kernel

/-- The same as `Met` on lane 0 of the service port. -/
def askingSvc (op : Nat) (payload : List Byte) (s : State) : State :=
  s.modBox 4 (fun m => { m with inRing := [frameOf op 0 payload] })
def reqSvc (op : Nat) (payload : List Byte) : Req := ⟨4, op, tagOf 7 1, 0, payload, 0, 4, 0xFFFF⟩
abbrev MetSvc (op : Nat) (payload : List Byte) (s : State) (cond : Req → State → Prop) : Prop :=
  ready (askingSvc op payload s) 4 op = some (frameOf op 0 payload, reqSvc op payload) ∧
    ((askingSvc op payload s).box 4).segments.all (·.matches (frameOf op 0 payload)) = true ∧
    cond (reqSvc op payload) (askingSvc op payload s)

theorem test_met_svc_is_asked {op payload s cond} (h : MetSvc op payload s cond) :
    ∃ f r, Asked 4 op f r (askingSvc op payload s) ∧ cond r (askingSvc op payload s) :=
  ⟨_, _, ⟨h.1, h.2.1⟩, h.2.2⟩

/-- Update's part changed. -/
def updateAs (f : Update → Update) (s : State) : State := s.withUpdate (f s.update)

/-- A claim of lane 0 for a bundle of two blocks, its first block present, or both. -/
def digest_ : List Byte := List.replicate 32 7
def claimed (blocks : List Nat) : State :=
  updateAs (fun u => { u with claim := some ⟨0, 0⟩, record := some ⟨digest_, 4096, 1, [1, 0, 0, 0], blocks⟩ }) running

/-- UPDATE_CLAIM of that bundle at a security version. -/
def claimAt (v : Nat) : List Byte := digest_ ++ [1, 0, 0, 0] ++ le 4 4096 ++ le 1 v ++ [0, 0, 0]

theorem test_UpdateCommands_met :
    Met 0x0A01 0 [] running (fun r _ _ => r.payload = [] ∧ r.handle = 0) ∧
    Met 0x0A02 0 digest_ (updateAs (fun u => { u with selector := { u.selector with state := 2, digest := digest_ } }) running)
      (fun r s _ => r.payload.length = 32 ∧ r.handle = 0 ∧ s.update.selector.state = 2 ∧ fit 32 s.update.selector.digest = r.payload ∧
        s.power.holdUp = false) ∧
    Met 0x0A03 0 [10, 0, 0, 0] proven (fun r s _ => r.payload.length = 4 ∧ r.handle = 0 ∧ s.ownerProof (field r.payload 0 4) = true ∧
      s.power.holdUp = false) ∧
    Met 0x0A04 0 [10, 0, 0, 0] proven (fun r s _ => r.payload.length = 4 ∧ r.handle = 0 ∧ s.ownerProof (field r.payload 0 4) = true ∧
      s.power.holdUp = false) ∧
    MetSvc 0x0A10 (claimAt 1) (updateAs (fun u => { u with fuses := 1 }) running) (fun r s => r.payload.length = 44 ∧ r.handle = 0 ∧
      s.update.ownerLock = false ∧ s.update.claim = none ∧ s.update.selector.state = 0 ∧ s.update.fuses ≤ field r.payload 40 1 ∧
      1 ≤ field r.payload 36 4 ∧ field r.payload 36 4 ≤ bankSize ∧ s.update.erasing = none ∧ s.update.record = none ∧
      s.power.holdUp = false) ∧
    MetSvc 0x0A10 (claimAt 1) (updateAs (fun u => { u with ownerLock := true }) running) (fun r s => r.payload.length = 44 ∧
      r.handle = 0 ∧ s.update.ownerLock = true) ∧
    MetSvc 0x0A10 (claimAt 1) (updateAs (fun u => { u with fuses := 2 }) running) (fun r s => r.payload.length = 44 ∧
      s.update.ownerLock = false ∧ s.update.claim = none ∧ s.update.selector.state = 0 ∧ field r.payload 40 1 < s.update.fuses) ∧
    MetSvc 0x0A13 [0, 0, 0, 0] (claimed [0]) (fun r s => r.payload.length = 4 ∧ r.handle = 0 ∧ s.update.claim = some ⟨0, 0⟩ ∧
      (0 : Fin 2) = laneOf r.box ∧ field r.payload 0 1 = 0) ∧
    MetSvc 0x0A12 digest_ (claimed [0, 1]) (fun r s => r.payload.length = 32 ∧ r.handle = 0 ∧
      s.activationRefusal (laneOf r.box) r.payload = none ∧ s.update.activating = none ∧ s.update.activationResetAt = none ∧
      s.power.phase = .running) := by
  (repeat' apply And.intro) <;> decide +kernel

/-- UPDATE_BLOCK of block 1, all 0xFF, under any check value. -/
def blockData : List Byte := List.replicate 2048 0xFF
def blockWith (n : Nat) : List Byte := [1, 0, 0, 0] ++ le 4 n ++ blockData

theorem test_UPDATE_BLOCK_judged (n : Nat) : judge (askingSvc 0x0A11 (blockWith n) (claimed [0])) 4 (frameOf 0x0A11 0 (blockWith n)) =
    .execute (reqSvc 0x0A11 (blockWith n)) := by
  have h0 : reservedOk (frameOf 0x0A11 0 (blockWith n)).opcode (frameOf 0x0A11 0 (blockWith n)).handle
      (wholePayload ((askingSvc 0x0A11 (blockWith n) (claimed [0])).box 4) (frameOf 0x0A11 0 (blockWith n))) = true := by
    show ((isZero [(0 : Byte), 0] && true) && true && true) = true
    decide
  have h1 : (frameOf 0x0A11 0 (blockWith n)).isMore = false := by
    show ((0 : Byte) &&& flagMore != 0) = false
    decide
  have h2 : (frameOf 0x0A11 0 (blockWith n)).isAuth = false := by
    show ((0 : Byte) &&& flagAuth != 0) = false
    decide
  have h3 : (frameOf 0x0A11 0 (blockWith n)).flags &&& 0x6F = 0 := by
    show (0 : Byte) &&& 0x6F = 0
    decide
  have h4 : ((askingSvc 0x0A11 (blockWith n) (claimed [0])).box 4).session = none := rfl
  have h5 : ((askingSvc 0x0A11 (blockWith n) (claimed [0])).box 4).lastRequest = none := rfl
  have h6 : refusedByRole (askingSvc 0x0A11 (blockWith n) (claimed [0])) 4 (frameOf 0x0A11 0 (blockWith n)).opcode = none := rfl
  have h7 : (frameOf 0x0A11 0 (blockWith n)).status = 0 := rfl
  have h8 : (frameOf 0x0A11 0 (blockWith n)).version = 1 := rfl
  have h9 : (decide (0xFFFFFFFF ≤ extendedIn none (frameOf 0x0A11 0 (blockWith n))) || (⟨0, false, [], 0, 0, 0, 0, 0⟩ : Session).spent)
    = false := rfl
  simp [judge, h0, h1, h2, h4, h5, h6, h7, h8, h9]
  split
  · rfl
  · exact absurd h3 ‹_›

theorem test_UPDATE_BLOCK_ready (n : Nat) : ready (askingSvc 0x0A11 (blockWith n) (claimed [0])) 4 0x0A11 =
    some (frameOf 0x0A11 0 (blockWith n), reqSvc 0x0A11 (blockWith n)) := by
  have h : executable (askingSvc 0x0A11 (blockWith n) (claimed [0])) 4 =
      some (frameOf 0x0A11 0 (blockWith n), reqSvc 0x0A11 (blockWith n)) := by
    unfold executable
    rw [show ((askingSvc 0x0A11 (blockWith n) (claimed [0])).box 4).inRing = [frameOf 0x0A11 0 (blockWith n)] from rfl]
    dsimp only
    rw [test_UPDATE_BLOCK_judged, show (askingSvc 0x0A11 (blockWith n) (claimed [0])).otherSegments 4 (frameOf 0x0A11 0 (blockWith n)) = false
      from rfl]
    rfl
  unfold ready
  rw [h]
  rfl

theorem test_UPDATE_BLOCK_met : MetSvc 0x0A11 (blockWith (crc32c blockData)) (claimed [0]) (fun r s => r.payload.length = 2056 ∧ r.handle = 0 ∧
    field r.payload 4 4 = crc32c blockData ∧ slice r.payload 8 2048 = blockData ∧
    s.update.record = some ⟨digest_, 4096, 1, [1, 0, 0, 0], [0]⟩ ∧ field r.payload 0 2 = 1 ∧ 1 < blocksOf 4096 ∧
    s.update.claim = some ⟨0, 0⟩ ∧ (0 : Fin 2) = laneOf r.box ∧ 1 ∉ [0] ∧ s.power.holdUp = false) := by
  have h : ∀ n, n < 2 ^ 32 → MetSvc 0x0A11 (blockWith n) (claimed [0]) (fun r s => r.payload.length = 2056 ∧ r.handle = 0 ∧
      field r.payload 4 4 = n ∧ slice r.payload 8 2048 = blockData ∧
      s.update.record = some ⟨digest_, 4096, 1, [1, 0, 0, 0], [0]⟩ ∧ field r.payload 0 2 = 1 ∧ 1 < blocksOf 4096 ∧
      s.update.claim = some ⟨0, 0⟩ ∧ (0 : Fin 2) = laneOf r.box ∧ 1 ∉ [0] ∧ s.power.holdUp = false) := by
    intro n h
    refine ⟨test_UPDATE_BLOCK_ready n, rfl, ?_, rfl, test_field_le n h, ?_, rfl, rfl, by decide, rfl, rfl, by decide, rfl⟩
    · show ([1, 0, 0, 0] ++ le 4 n ++ blockData).length = 2056
      simp only [List.length_append, List.length_cons, List.length_nil, le, blockData, List.length_replicate]
    · show (blockData).take 2048 = blockData
      simp only [blockData, List.take_replicate, Nat.min_self]
  exact h _ (test_crc_word _)

theorem test_UpdateRows_met :
    (let w : Waiting := ⟨4, 0x0A12, 7, 0, 0, 0, digest_⟩
     let s := updateAs (fun u => { u with activating := some w }) (claimed [0, 1])
     s.update.activating = some w ∧ s.servesBox 4 = true ∧ s.activationSaved = true ∧
       s.activationRefusal (laneOf w.box) w.extra = none) ∧
    (let e : Erasing := ⟨⟨digest_, 4096, 1, [1, 0, 0, 0], []⟩, 0, ⟨4, 0x0A10, 7, 0, 0, 0, []⟩⟩
     let s := updateAs (fun u => { u with erasing := some e }) running
     s.servesBox 4 = true ∧ s.update.erasing = some e ∧ s.power.holdUp = false) ∧
    (let s := updateAs (fun u => { u with activationResetAt := some 100, claim := some ⟨0, 0⟩ }) (State.at_ running 300000)
     s.update.activationResetAt = some 100 ∧ s.servesBox 4 = true ∧ 100 ≤ s.now ∧ s.update.claim = some ⟨0, 0⟩ ∧ 0 + 300000 ≤ s.now) ∧
    (let s := updateAs (fun u => { u with vbus := true, claim := some ⟨0, 0⟩ }) running
     s.update.vbus = true ∧ (3799 : Nat) < 3800 ∧ (3800 : Nat) ≤ 3800 ∧ s.update.claim = some ⟨0, 0⟩) ∧ running.update.vbus = false ∧
    (let s := updateAs (fun u => { u with trialUntil := some 1800000, selector := { u.selector with state := 2 } }) (State.at_ running 1800000)
     s.update.trialUntil = some 1800000 ∧ s.servesBox 4 = true ∧ s.update.selector.state = 2 ∧ 1800000 ≤ s.now ∧
       s.power.holdUp = false) ∧
    (let s := updateAs (fun u => { u with fallback := some 0 }) (State.at_ running 3600000)
     s.update.fallback = some 0 ∧ s.servesBox 4 = true ∧ s.switchClosed = false) ∧
    (let s := updateAs (fun u => { u with fallback := some 0 }) (laneAs (fun l => { l with ctf := true }) (State.at_ running 3600000))
     s.switchClosed = true ∧ s.update.forced = false ∧ 0 + 3600000 ≤ s.now) := by
  (repeat' apply And.intro) <;> decide +kernel

/-- Lantern runs, with a number of messages of source 5 waiting. -/
def tracing (n lost : Nat) : State := { running with lantern := { running.lantern with
  running := true, buffer := List.replicate n ⟨5, 1, 0, 0, []⟩, lost := running.lantern.lost.set 5 lost } }

theorem test_LanternRows_met :
    ((tracing 31 0).lanternUp = true ∧ (tracing 31 0).lantern.waiting (5 : Fin 12).val < 32 ∧
      (tracing 31 0).lantern.lost[(5 : Fin 12)] = 0) ∧ running.lanternUp = false ∧
    ((tracing 31 3).lantern.lost[(5 : Fin 12)] ≠ 0 ∧ (tracing 31 3).lantern.waiting 5 < 32) ∧
    (let s := tracing 0 0
     s.lanternUp = true ∧ s.lantern.syncDue = true ∧ s.lantern.lost[(11 : Fin 12)] = 0 ∧ s.lantern.waiting 11 < 32) ∧
    ((tracing 32 0xFFFF).lanternUp = true ∧ 32 ≤ (tracing 32 0xFFFF).lantern.waiting (5 : Fin 12).val ∧
      (tracing 31 0).lantern.waiting (5 : Fin 12).val = 31) ∧
    MetSvc 0x0A14 [63, 1, 0, 0] (tracing 0 0) (fun r s => r.payload.length = 4 ∧ r.handle = 0 ∧ 1 ≤ field r.payload 1 1 ∧
      field r.payload 0 1 + field r.payload 1 1 ≤ 64 ∧ s.lantern.running = true) ∧
    MetSvc 0x0A14 [63, 1, 0, 0] running (fun r s => r.payload.length = 4 ∧ r.handle = 0 ∧ 1 ≤ field r.payload 1 1 ∧
      field r.payload 0 1 + field r.payload 1 1 ≤ 64 ∧ s.lantern.running = false) ∧
    MetSvc 0x0A14 [63, 2, 0, 0] running (fun r _ => r.payload.length = 4 ∧ 64 < field r.payload 0 1 + field r.payload 1 1) ∧
    MetSvc 0x0A14 [0, 0, 0, 0] running (fun r _ => r.payload.length = 4 ∧ field r.payload 1 1 = 0) := by
  (repeat' apply And.intro) <;> decide +kernel

/-- Power's part changed. -/
def powerAs (f : Power → Power) (s : State) : State := s.withPower (f s.power)

/-- BLOCK_RESET of the lane of port 23. -/
def resetLane : List Byte := [2, 23, 0, 0]

theorem test_ClocksAndRestarts_met :
    (running.monitored .cd8 = true ∧ running.power.lostClocks.contains .cd8 = false ∧ running.aon = true ∧
      running.power.startupFaults = [] ∧ running.power.restarting = [] ∧ running.up .cd5 = true ∧ running.keepUp = true ∧
      running.up .cd8 = true ∧ running.up .cd9 = true ∧ running.steepleUp = true) ∧
    (powerAs (fun p => { p with lostClocks := [.cd8] }) running).power.lostClocks = [.cd8] ∧
    (powerAs (fun p => { p with lostClocks := [.cd2] }) running).power.lostClocks = [.cd2] ∧
    (let s := powerAs (fun p => { p with phase := .supplied, suppliedAt := 8 }) (State.at_ running 9)
     s.power.phase = .supplied ∧ s.now < s.power.suppliedAt + 2 ∧ s.power.suppliedAt + 2 ≤ (State.at_ s 10).now) ∧
    Met 0x0115 0 resetLane running (fun r s _ => r.payload.length = 4 ∧ r.handle = 0 ∧
      resetTarget (field r.payload 0 1) (field r.payload 1 1) = some (.cd2, some 23) ∧ s.resettable (.cd2, some 23) = true) ∧
    Met 0x0115 0 resetLane (laneAs (fun l => { l with state := .energised }) running) (fun r s _ =>
      resetTarget (field r.payload 0 1) (field r.payload 1 1) = some (.cd2, some 23) ∧ s.resettable (.cd2, some 23) = false) ∧
    (let w : Waiting := ⟨0, 0x0115, 7, 0, 0, 0, []⟩
     let s := powerAs (fun p => { p with restarting := [(.cd8, none, w)] }) running
     s.power.restarting = (.cd8, none, w) :: [] ∧ s.power.phase = .running ∧ s.power.lostClocks.contains .cd8 = false) := by
  (repeat' apply And.intro) <;> decide +kernel

theorem test_DeviceResetClearsAndKeeps_met : [1, 2, 3, 4, 15].all (fun c => decide ((assertReset c running).power.cause = c)) = true ∧
    [5, 6, 7, 8, 9, 10, 11, 12, 13, 14].all (fun c => c != 1 && c != 2 && c != 3 && c != 4 && c != 15) = true ∧
    running.oculus.reach = none := by
  (repeat' apply And.intro) <;> decide +kernel

theorem test_PowerRows_met :
    Met 0x0113 0 [0, 0, 0, 0] running (fun r s _ => r.payload.length = 4 ∧ r.handle = 0 ∧ field r.payload 0 1 = 0 ∧ s.anyBusy = false ∧
      s.shuttingDown = false) ∧
    Met 0x0113 0 [0, 0, 0, 0] (laneAs (fun l => { l with state := .energised }) running) (fun r s _ => field r.payload 0 1 = 0 ∧
      s.anyBusy = true) ∧
    Met 0x0114 0 [0, 0, 0, 0] running (fun r s _ => r.payload.length = 4 ∧ r.handle = 0 ∧ field r.payload 0 1 = 0 ∧ s.anyBusy = false ∧
      s.shuttingDown = false) ∧
    (let d : Shutdown := ⟨false, true, false, 0, ⟨0, 0x0113, 7, 0, 0, 0, []⟩⟩
     let s := powerAs (fun p => { p with shutdown := some d }) (State.at_ running 60000)
     s.power.shutdown = some d ∧ d.waitingOpenings = true ∧ d.startedAt + 60000 ≤ s.now) ∧
    (let s := powerAs (fun p => { p with pendingReset := some 100, pendingDormant := some 100 }) (State.at_ running 100)
     s.power.pendingReset = some 100 ∧ s.power.pendingDormant = some 100 ∧ s.aon = true ∧ 100 ≤ s.now ∧ s.power.holdUp = false ∧
       s.power.wakePending = false) ∧
    (running.powered = true ∧ (4 : Nat) < 5 ∧ running.power.resetNStuckLow = false ∧ (20 : Nat) ≤ 20 ∧
      (powerAs (fun p => { p with resetNStuckLow := true }) running).power.resetNStuckLow = true) ∧
    (let s := steepleAs (fun x => { x with fatalAt := some 100, supplyStop := true, suppliesOut := [], suppliesGoodAt := 0 }) (State.at_ running 1000)
     s.steeple.fatalAt = some 100 ∧ s.power.phase = .running ∧ 100 ≤ s.now ∧ s.steepleUp = true ∧ s.steeple.supplyStop = true ∧
       s.steeple.suppliesOut = [] ∧ s.power.holdUp = false ∧ s.steeple.suppliesGoodAt + 1000 ≤ s.now) ∧
    ((powerAs (fun p => { p with phase := .off }) running).power.phase = .off ∧ State.reset.power.phase = .heldReset ∧
      (powerAs (fun p => { p with phase := .commandedDormant }) running).power.phase = .commandedDormant ∧
      (powerAs (fun p => { p with phase := .dormant }) running).power.phase = .dormant ∧
      (powerAs (fun p => { p with holdUp := true }) running).power.holdUp = true) := by
  (repeat' apply And.intro) <;> decide +kernel

/-- A start that finds no bank whose bundle verifies. -/
def noBundle : StartFacts := ⟨[], .intact, true, .manifestInvalid, .manifestInvalid, false, false, []⟩
def fineStart : StartFacts := ⟨[], .intact, true, .ok, .ok, true, true, []⟩
def supplied : State := powerAs (fun p => { p with phase := .supplied }) State.reset

theorem test_DeviceStartReleases_met : supplied.power.phase = .supplied ∧ running.power.phase ≠ .supplied ∧
    (bootCheck noBundle (startCupola noBundle.array ((supplied.startFaults noBundle).contains .cd7)
      (logDuds (supplied.withPower supplied.power.loadOptions)))).isNone = true ∧
    (bootCheck fineStart (startCupola fineStart.array ((supplied.startFaults fineStart).contains .cd7)
      (logDuds (supplied.withPower supplied.power.loadOptions)))).isSome = true ∧ running.power.newest ≠ none ∧
    (powerAs (fun p => { p with option0 := none, option1 := none }) running).power.newest = none ∧
    Clock.cd8 ∈ allDomains ∧ Clock.cd8 ∈ derivedClocks ∧ Clock.cd8 ≠ .cd0 ∧
    (powerAs (fun p => { p with held := [.cd8] }) running).power.held.contains .cd8 = true ∧ supplied.steeple.fatalAt = none := by
  (repeat' apply And.intro) <;> decide +kernel

/-! ## Ill-formed terms: each check refuses one -/

/-- A well-formed frame, tag, sample, cycle, start and provisioning to break in one place each. -/
def fineFrame : PlcFrame := frame 0x10 5 0 []
def fineSample : LaneSample := ⟨List.replicate 1000 2010, 0, 3300000, List.replicate 10 false, false, 0, 0, 0⟩
def fineProvision : Provisioning := ⟨List.replicate 6 (zeros 16), [], [[], [], []], 0⟩

theorem test_wf_fine : Instr.wf (.hostData .low fineFrame) = true ∧ Instr.wf (.evaluationPeriod 0 fineSample) = true ∧
    Instr.wf (.deviceStart fineStart) = true ∧ Instr.wf (.reProvisioning fineProvision) = true ∧
    Instr.wf (.readerPing 0 0 0 [card, keytag]) = true ∧ Instr.wf (.toneMapRefresh .low 0x1F [List.replicate 36 250]) = true := by decide +kernel

theorem test_wf_mirror : Instr.wf (.mirrorPublishUnsync ⟨[⟨0, [2147483648]⟩], 0, 0, []⟩) = false ∧
    Instr.wf (.mirrorPublish 0 ⟨List.replicate 161 ⟨0, []⟩, 0, 0, []⟩) = false ∧
    Instr.wf (.mirrorPublish 0 ⟨[], 4294967296, 0, []⟩) = false ∧ Instr.wf (.mirrorPublish 0 ⟨[], 0, 4294967296, []⟩) = false ∧
    Instr.wf (.mirrorPublish 0 ⟨[], 0, 0, List.replicate 73 (0, 0)⟩) = false := by decide +kernel

theorem test_wf_lane : Instr.wf (.evaluationPeriod 0 { fineSample with cps := List.replicate 999 2010 }) = false ∧
    Instr.wf (.evaluationPeriod 0 { fineSample with cps := List.replicate 1000 4096 }) = false ∧
    Instr.wf (.evaluationPeriod 0 { fineSample with pps := 4294967296 }) = false ∧
    Instr.wf (.evaluationPeriod 0 { fineSample with vdda := 4294967296 }) = false ∧
    Instr.wf (.evaluationPeriod 0 { fineSample with ctf := List.replicate 11 false }) = false ∧
    Instr.wf (.evaluationPeriod 0 { fineSample with rcsDc := 2147483648 }) = false ∧
    Instr.wf (.evaluationPeriod 0 { fineSample with rcsAc := 4294967296 }) = false ∧
    Instr.wf (.evaluationPeriod 0 { fineSample with rcsRms := 4294967296 }) = false ∧
    Instr.wf (.residualTestStep 0 ⟨2147483648, 0, 0, false, false⟩) = false ∧
    Instr.wf (.residualCurrentDetected 0 .dc (-2147483649)) = false ∧ Instr.wf (.residualSensorFault 0 65536) = false ∧
    Instr.wf (.supplyExcursion .vddc 65536) = false ∧ Instr.wf (.peMonWindow 65536) = false ∧
    Instr.wf (.srstNPulse 4294967296) = false ∧ Instr.wf (.telegramCopyReceived .snA ⟨.good, 0⟩ 4294967296 []) = false ∧
    Instr.wf (.telegramCopyReceived .snB ⟨.good, 2048⟩ 0 []) = false := by decide +kernel

theorem test_wf_metering : Instr.wf (.lineCycleEnd ⟨List.replicate 4 (0, at120), []⟩) = false ∧
    Instr.wf (.lineCycleEnd ⟨[(0, ⟨0, 4294967296, 0⟩)], []⟩) = false ∧
    Instr.wf (.lineCycleEnd ⟨[], List.replicate 161 ⟨0, []⟩⟩) = false ∧ Instr.wf (.lineCycleEnd ⟨[], [⟨0, [-2147483649]⟩]⟩) = false ∧
    Instr.wf (.pathChange 0 ⟨4294967296, 0⟩ []) = false ∧ Instr.wf (.pathChange 0 ⟨0, 0⟩ [⟨0, 4294967296⟩]) = false ∧
    Instr.wf (.frequencyDetected ⟨List.replicate 4 at120⟩) = false ∧ Instr.wf (.frequencyDetected ⟨List.replicate 5 ⟨0, 0, 4294967296⟩⟩) = false ∧
    Instr.wf (.toneWindowEnd 0 [2147483648]) = false := by
  decide +kernel

theorem test_wf_powerline : Instr.wf (.hostData .low { fineFrame with source := 65536 }) = false ∧
    Instr.wf (.nodeStatus .low { fineFrame with hopsLeft := 256 }) = false ∧ Instr.wf (.gatewayReport .low { fineFrame with type := 128 }) = false ∧
    Instr.wf (.routeReq .low { fineFrame with priority := 4 }) = false ∧ Instr.wf (.routeRep .low { fineFrame with sequence := 64 }) = false ∧
    Instr.wf (.routeErr .low { fineFrame with counter := 4294967296 }) = false ∧
    Instr.wf (.joinReq .low { fineFrame with zcOffset := 4096 }) = false ∧ Instr.wf (.joinConfirm .low { fineFrame with ownOffset := 4096 }) = false ∧
    Instr.wf (.toneMapUpdate .low { fineFrame with data := zeros 1024 }) = false ∧
    Instr.wf (.hostData .low { fineFrame with symbols := [32768] }) = false ∧
    Instr.wf (.plcFrameCheckFailed .low 65536 ⟨none, []⟩ []) = false ∧ Instr.wf (.plcFrameCheckFailed .low 0 ⟨none, [32768]⟩ []) = false ∧
    Instr.wf (.toneMapRefresh .low 0x1E []) = false ∧ Instr.wf (.toneMapRefresh .upper 0x1F [List.replicate 36 250]) = false ∧ Instr.wf (.toneMapLapse .low 0x100 .send 0) = false ∧
    Instr.wf (.neighbourTimeout 0x1E) = false ∧ Instr.wf (.routeReplyDue 65536) = false ∧ Instr.wf (.routeRequestTimeout 65536) = false ∧
    Instr.wf (.routeEntryLapse 65536) = false ∧ Instr.wf (.joinConfirmTimeout 65536) = false := by decide +kernel

theorem test_wf_reader : Instr.wf (.readerPing 0 0 0 (List.replicate 256 card)) = false ∧ Instr.wf (.readerPing 0 0 0 [{ card with uid := [] }]) = false ∧
    Instr.wf (.readerPing 0 0 0 [{ keytag with rates := 4 }]) = false ∧
    Instr.wf (.readerPing 0 0 0 [{ keytag with password := [] }]) = false ∧ Instr.wf (.readerPing 0 0 0 [{ keytag with key := [] }]) = false ∧
    Instr.wf (.readerPing 0 0 0 [{ keytag with rt := [] }]) = false ∧ Instr.wf (.readerPing 0 0 0 [{ keytag with attemptsLeft := 256 }]) = false ∧
    Instr.wf (.readerPing 0 0 0 [{ keytag with blocks := [⟨64, 0, zeros 32⟩] }]) = false ∧ Instr.wf (.heldTapExpiry 4294967296) = false ∧
    Instr.wf (.proofExpiry 4294967296) = false ∧ Instr.wf (.keytagReachAgain 0 (some [.altered (zeros 35)])) = false := by decide +kernel

theorem test_wf_device : Instr.wf (.reanchoring (List.replicate 5 ⟨List.replicate 5 0, 0⟩)) = false ∧
    Instr.wf (.reanchoring [⟨[], 0⟩]) = false ∧ Instr.wf (.reanchoring [⟨List.replicate 5 0, 2 ^ 2048⟩]) = false ∧ Instr.wf (.temperatureCheck 32768) = false ∧
    Instr.wf (.scrubLine 0 4294967296 .good ⟨0, false, false, false⟩) = false ∧ Instr.wf (.scrubLine 0 0 .good ⟨12, false, false, false⟩) = false ∧
    Instr.wf (.mramRefresh 65536 .good) = false ∧ Instr.wf (.svcVbusChange 65536) = false ∧ Instr.wf (.resetNLow 4294967296) = false ∧
    Instr.wf (.deviceStart { fineStart with array := List.replicate 33 0 }) = false ∧
    Instr.wf (.deviceStart { fineStart with array := [2 ^ 2048] }) = false ∧ Instr.wf (.reProvisioning { fineProvision with reference := 2 ^ 2048 }) = false ∧ Instr.wf (.reProvisioning { fineProvision with keys := [] }) = false ∧
    Instr.wf (.reProvisioning { fineProvision with keys := List.replicate 6 [] }) = false ∧
    Instr.wf (.reProvisioning { fineProvision with oemHash := [1] }) = false ∧
    Instr.wf (.reProvisioning { fineProvision with certificates := [] }) = false := by decide +kernel

/-! ## Single steps against the manual -/

/-- The status, handle and payload of the newest frame that waits to leave a mailbox. -/
def answer (b : Box) (s : State) : Option (Nat × List Byte) := (s.box b).outRing.getLast?.map (fun f => (f.status, f.payload))

/-- R48: ATTACHED and IN_SPACE; 8 slots free, nothing to read, role SUPERVISOR (3), no frame error. -/
theorem test_STATUS : after (.status 0) running (fun t => (t.box 0).wire) = some [0x90, 0x90, 8, 0, 3, 0, 0, 0, 0] := by decide +kernel

/-- R47, R58: an unknown command byte is a frame error, and ERR shows it. -/
theorem test_SPI_unknown : after (.spiUnknownCommandByte 0 ⟨0x3D, 2⟩) running (fun t => ((t.box 0).frameErrors, (t.box 0).errFlag)) =
    some (1, true) := by decide +kernel

/-- R58, check 10: an opcode outside the index is answered `UNKNOWN_OPCODE` (0x0206) by the row that settles the ring. -/
theorem test_unknown_opcode : after (.hostStatus 0) (asking 0x0FFF 0 [] running) (fun t => (t.box 0).outRing.map (·.status)) =
    some [stUnknownOpcode] := by decide +kernel

/-- R49, R51: a frame with a wrong check sequence is discarded and counted. -/
theorem test_WRITE_FRAME_bad : after (.writeFrame 0 ((wireOf 0x0111 0 []).take 19 ++ [0])) running
    (fun t => ((t.box 0).inRing.length, (t.box 0).frameErrors)) = some (0, 1) := by decide +kernel

/-- R52: a frame on the UART, its flag byte escaped, reaches the ring. -/
theorem test_UART_frame : after (.uartMailboxUnit .svc (escapeUnit (wireOf 0x0110 0 []))) running (fun t => (t.box 5).inRing.length) =
    some 1 := by decide +kernel

/-- R66: the keepalive of 60 s ends the session at 60 000 ms and not before. -/
theorem test_KEEPALIVE : after (.keepaliveExpiry 0) (State.at_ running 59999) (fun t => (t.box 0).session.isSome) = some true ∧
    after (.keepaliveExpiry 0) (State.at_ running 60000) (fun t => (t.box 0).session.isSome) = some false := by decide +kernel

/-- R320, R321: 1 s back is a slew, which leaves civil and billing time; 1 s forward steps both. -/
theorem test_TIME_SET : after (.timeSet 0) (asking 0x0112 0 (setTo 9999000 0) late) (fun t => (t.civil, t.keep.slewLeft)) =
      some (10000000, 1000000) ∧
    after (.timeSet 0) (asking 0x0112 0 (setTo 10001000 0) late) (fun t => (t.civil, t.keep.billing)) = some (10001000, 10001000) := by
  decide +kernel

/-- R321: more than an hour back without its flag is refused `TIME_STEP_DENIED`. -/
theorem test_TIME_SET_denied : after (.timeSet 0) (asking 0x0112 0 (setTo 6399999 0) late) (fun t => ((answer 0 t).map (·.1), t.civil)) =
    some (some stTimeStepDenied, 10000000) := by decide +kernel

/-- R111: the edges of bands A and B without PWM, and a missing diode under PWM. -/
theorem test_bands : classify 11000 none = .a ∧ classify 10999 none = .out ∧ classify 10000 none = .b ∧ classify 9000 (some (-10999)) = .diode ∧
    classify 9000 (some (-11000)) = .b := by decide +kernel

/-- R113: proximity codes of 1.5 kOhm, 680, 220 and 100 Ohm. -/
theorem test_proximity : [(1500, 3500), (680, 2680), (220, 2220), (100, 2100)].map (fun x => proximityCode x.1 x.2) = [1, 2, 3, 4] := by decide +kernel

/-- R112: three periods confirm a classification, two do not. -/
theorem test_PILOT_CONFIRMED :
    after (.pilotConfirmed 23) (laneAs (fun l => { l with classRun := 2, lastClass := some .b }) running) (fun t => (t.lane 23).confirmed) = some none ∧
    after (.pilotConfirmed 23) (laneAs (fun l => { l with classRun := 3, lastClass := some .b }) running) (fun t => (t.lane 23).confirmed) =
      some (some .b) := by decide +kernel

/-- R244: 3.1 mA of DC trips the DC detector, 3.0 mA does not; the lane is locked out with both drives stopped. -/
theorem test_RESIDUAL : after (.residualCurrentDetected 23 .dc 30) idling (fun t => (t.lane 23).state) = some .idle ∧
    after (.residualCurrentDetected 23 .dc 31) idling (fun t => ((t.portLock 23).faults.map (·.code), (t.portLock 22).active)) =
      some ([0x0101], false) := by decide +kernel

/-- R249: the fourth bad window in a row decides F-SF5-01. -/
theorem test_PE_MON : after (.peMonWindow 16) (steepleAs (fun x => { x with peBad := 2 }) committed) (fun t => t.steeple.hub.active) = some false ∧
    after (.peMonWindow 16) (steepleAs (fun x => { x with peBad := 3 }) committed) (fun t => t.steeple.hub.faults.map (·.code)) =
      some [0x0501] := by decide +kernel

/-- R142: without committed safety parameters PORT_ENABLE is refused 0x0704. -/
theorem test_PORT_ENABLE : after (.portEnable 0) (asking 0x0401 port23 [0, 0, 0, 0] running) (fun t => (answer 0 t).map (·.1)) =
      some (some 0x0704) ∧
    after (.portEnable 0) (asking 0x0401 port23 [0, 0, 0, 0] committed) (fun t => (t.lane 23).enabled) = some true := by decide +kernel

/-- R92: CHANNEL_CREATE of a filter makes a channel in the first dynamic slot, 0x1F, of generation 1. -/
theorem test_CHANNEL_CREATE : after (.channelCreate 0) (asking 0x0201 0 createFilter running) (fun t => t.rotunda.channels.map (fun c => (c.slot, c.generation))) =
    some [(0x1F, 1)] := by decide +kernel

/-- R97: a commit publishes the record it holds, and the stage is gone. -/
theorem test_CFG_COMMIT : after (.cfgCommit 0) (asking 0x0303 0 [] (staged_ [limitRecord 6000]))
    (fun t => (getRaw t.rotunda.committed 0x0101 1, (t.box 0).stage)) = some (6000, none) := by decide +kernel

/-- R223: the port of the greater current is shed first, and the higher number where they are equal. -/
theorem test_shedding_order : (guarded id).sheddingOrder 0 = [23, 22] := by decide +kernel

/-- R410: of two cards that differ from the last byte's lowest bit on, the one with 0 there is followed first; its SELECT ends in BCC
1 ^ 2 ^ 3 ^ 4 = 4. -/
theorem test_anticollision :
    let five := { card with uid := [1, 2, 3, 5] }
    (fullPoll true false false [five, card]).2 = [card, five] ∧
    (fullPoll true false false [five, card]).1.filter (fun f => match f with
      | .select _ _ => true
      | _ => false) = [.select 1 [1, 2, 3, 4, 4], .select 1 [1, 2, 3, 5, 5]] := by decide +kernel

/-- R409: a 7-byte UID takes two cascade levels, the first of which begins with 0x88. -/
theorem test_cascade : checkFrames false keytag = [.wupa, .select 1 [0x88, 1, 2, 3, 0x88], .select 2 [4, 5, 6, 7, 0]] := by decide +kernel

/-- R411: two tags in one slot are told apart by four more bits of the mask. -/
theorem test_inventory :
    let a := { card with kind := .iso15693, uid := [0x35, 0, 0, 0, 0, 0, 4, 0xE0] }
    let b := { card with kind := .iso15693, uid := [0x15, 0, 0, 0, 0, 0, 4, 0xE0] }
    (fullPoll false true true [a, b]).2 = [b, a] := by decide +kernel

/-- R366: the phases of DQPSK and D8PSK in eighths of a turn; R367: 8 SYNC symbols and one inverted. -/
theorem test_PLC_phases : phaseStep [true, false] = 6 ∧ phaseStep [false, true, true] = 2 ∧ phaseStep [true, false, false] = 7 ∧
    (preamble .low).length = 9 ∧ (syncSymbol .low false).phases.take 3 = [some 0, some 4, some 16] ∧
    (syncSymbol .low true).phases.take 3 = [some 144, some 148, some 160] := by decide +kernel

/-- R369: a word of the code of rate 1/2 sums to zero in every row of its matrix. -/
theorem test_LDPC :
    let info := (List.range 324).map (fun i => decide (i % 5 = 0 ∨ i % 7 = 3))
    let word := blocks27 (encodeBlock 0 info)
    ((ldpcTable 0).zipIdx.map (fun r => rowSum (r.1 ++ pivot 12 r.2 ::
      (List.range 11).map (fun c => if c = r.2 ∨ c + 1 = r.2 then 0 else 27)) word)).all (·.all (!·)) = true := by decide +kernel

/-- R183, R186: 1 V and 1 A in phase over 160 strobes are 20 mJ, which is 0.0055556 mWh in units of 2^-32. -/
theorem test_energy : energyOf (sumProduct (List.replicate 160 1000) (List.replicate 160 1000000)) = 23860929 ∧
    rmsOf 160 (List.replicate 160 (-1000)) = 1000 := by decide +kernel

/-- R428: a held tap lasts through 120 000 ms. -/
theorem test_HELD_TAP : after (.heldTapExpiry 1) ((State.at_ running 120000).withOculus { running.oculus with held := [⟨1, 0, 0, 0, []⟩] })
      (fun t => t.oculus.held.length) = some 1 ∧
    after (.heldTapExpiry 1) ((State.at_ running 120001).withOculus { running.oculus with held := [⟨1, 0, 0, 0, []⟩] })
      (fun t => t.oculus.held.length) = some 0 := by decide +kernel

/-- R448: KEY_COMMIT puts the staged key in force and moves the generation by 1. -/
theorem test_KEY_COMMIT : after (.keyCommit 0) (asking 0x0904 0 ([3, 0, 0, 0] ++ le 4 3003638099) (stagedKey true))
    (fun t => ((t.keySlot 1).key, (t.keySlot 1).generation, (t.keySlot 1).staged)) = some (some rfcKey, 2, none) := by decide +kernel

/-- R451: the second reading in a row outside -50 to 125 degrees destroys the keys. -/
theorem test_TEMPERATURE : after (.temperatureCheck 126) (meshed id) (fun t => t.cupola.zeroized) = some false ∧
    after (.temperatureCheck 126) (meshed (fun c => { c with tempFails := 1 })) (fun t => t.cupola.zeroized) = some true := by decide +kernel

/-- R463: a bucket leaks one in ten minutes. -/
theorem test_BUCKET_LEAK : after .bucketLeak ((State.at_ running 600000).withMemory { running.memory with
    regions := running.memory.regions.set 0 { running.memory.regions[0] with bucket := 2 } }) (fun t => (t.memory.regions[(0 : Fin 8)]).bucket) =
    some 1 := by decide +kernel

/-- R486: a bundle below the fuses' security version is refused. -/
theorem test_UPDATE_CLAIM : after (.updateClaim 4) (askingSvc 0x0A10 (claimAt 1) (updateAs (fun u => { u with fuses := 2 }) running))
    (fun t => ((answer 4 t).map (·.1), t.update.claim)) = some (some stRollback, none) := by decide +kernel

/-- R525: RESET_N low for 20 microseconds resets the device with code 5; shorter than 5 it does nothing. -/
theorem test_RESET_N : after (.resetNLow 20) running (fun t => (t.serves, t.power.cause)) = some (false, 5) ∧
    after (.resetNLow 4) running (fun t => t.power.phase) = some .running := by decide +kernel

/-- R495: without a bundle that verifies the start ends in recovery, where only the service port serves. -/
theorem test_DEVICE_START : after (.deviceStart noBundle) supplied (fun t => (t.power.phase, t.serves, t.servesBox 4)) =
    some (.recovery, false, true) := by decide +kernel

/-- The first steps from reset: supplies good, then a start that finds everything in order brings the mailboxes into service. -/
theorem test_start : after .suppliesGood State.reset (fun t => t.power.phase) = some .supplied ∧
    after (.deviceStart fineStart) supplied (fun t => (t.power.phase, t.serves)) = some (.running, true) := by decide +kernel

/-- The queue: a step takes its front; on an empty one a millisecond passes (log entry 3). -/
theorem test_queue : (match step { running with pending := [.status 0, .hostStatus 0] } with
      | .next t => t.pending
      | .fault _ => []
      | .refused _ => []) = [.hostStatus 0] ∧
    (match step running with
      | .next t => t.now
      | .fault _ => 0
      | .refused _ => 0) = 1 := by decide +kernel

/-! ## The ball map: the worked example of R532 and the totals of R531 and R535 -/

theorem test_balls_of_port17 :
    ball 29 11 = .signal (.port 17 .iap) ∧ ball 29 12 = .signal (.port 17 .ian) ∧ ball 26 12 = .signal (.port 17 .ton) ∧
    ball 21 11 = .signal (.port 17 .pbd) ∧ ball 21 12 = .signal (.port 17 .cpd) ∧ ball 9 16 = .signal (.port 7 .cpd) := by
  decide +kernel

theorem test_ball_totals :
    (balls.filter (fun x => match ball x.1 x.2 with | .signal _ => true | _ => false)).length = 505 ∧
    (balls.filter (fun x => ball x.1 x.2 == .vss)).length = 135 ∧ (balls.filter (fun x => ball x.1 x.2 == .vddc)).length = 88 := by
  decide +kernel

end Sys2Proof.Tests
end

section
/-! The session event queue: where an entry is placed (R35), when it is posted (R36), and what posting leaves alone. -/

namespace Sys2Proof.Machine

/-! ## Placing an entry -/

/-- No entry at the end of the queue has the instant of a new one unless the last one has. -/
theorem takeWhile_time_eq_nil {q : List QEntry} {time : Nat} (h : ∀ x, q.getLast? = some x → x.time ≠ time) :
    q.reverse.takeWhile (fun x => x.time == time) = [] := by
  simp only [← List.head?_reverse] at h
  generalize q.reverse = l at h ⊢
  cases l with
  | nil => rfl
  | cons x xs => exact List.takeWhile_cons_of_neg (fun hx => h x rfl (beq_iff_eq.mp hx))

theorem placeEntry_of_new_time (q : List QEntry) (e : QEntry) (h : ∀ x, q.getLast? = some x → x.time ≠ e.time) :
    placeEntry q e = q ++ [e] := by
  simp [placeEntry, takeWhile_time_eq_nil h]

/-- With one entry of the same instant, the lower port comes first and takes the smaller sequence number (R35; that entries of one
millisecond count as simultaneous is the model's choice, log 191). -/
theorem placeEntry_of_same_time (q : List QEntry) (x e : QEntry) (r p : Port) (hq : ∀ y, q.getLast? = some y → y.time ≠ e.time)
    (hx : x.time = e.time) (hr : x.port = some r) (hp : e.port = some p) :
    placeEntry (q ++ [x]) e = if p < r then q ++ [{ e with seq := x.seq }, { x with seq := e.seq }] else q ++ [x, e] := by
  have hrun : (q ++ [x]).reverse.takeWhile (fun y => y.time == e.time) = [x] := by
    simp [hx, takeWhile_time_eq_nil hq]
  unfold placeEntry
  rw [hrun]
  cases x
  cases e
  cases hr
  cases hp
  by_cases hlt : p < r
  · simp [hlt]
  · simp [hlt]

/-! ## Posting an entry -/

theorem QContent.limit_ge (c : QContent) : 224 ≤ c.limit := by
  unfold QContent.limit
  split <;> decide

theorem postGap_of_none {s : State} (h : s.turret.queueLost = none) : postGap s = s := by
  simp [postGap, h]

theorem postGap_of_full {s : State} (h : 224 ≤ s.turret.queue.length) : postGap s = s := by
  unfold postGap
  split
  · rfl
  · exact if_neg (Nat.not_lt.mpr h)

theorem postGap_turret_of_room {s : State} {g : LostEvents} (hlost : s.turret.queueLost = some g)
    (hroom : s.turret.queue.length < 224) :
    (postGap s).turret = { s.turret with
      queue := s.turret.queue ++ [⟨s.turret.queueSeq, s.time, none, .gap g.count g.first g.last⟩]
      queueSeq := w32 (s.turret.queueSeq + 1), queueLost := none } := by
  simp [postGap, hlost, hroom]

theorem post_turret_of_room (p : Option Port) (c : QContent) {s : State} (hlost : s.turret.queueLost = none)
    (hroom : s.turret.queue.length < 224) :
    (post p c s).turret = { s.turret with
      queue := placeEntry s.turret.queue ⟨s.turret.queueSeq, s.time, p, c⟩, queueSeq := w32 (s.turret.queueSeq + 1) } := by
  have hlimit : s.turret.queue.length < c.limit := Nat.lt_of_lt_of_le hroom c.limit_ge
  simp [post, postGap_of_none hlost, hlost, hlimit]

theorem post_turret_of_full (p : Option Port) {c : QContent} {s : State} {g : LostEvents} (hlost : s.turret.queueLost = some g)
    (hfull : 224 ≤ s.turret.queue.length) (hc : c.urgent = false) :
    (post p c s).turret = { s.turret with
      queueSeq := w32 (s.turret.queueSeq + 1), queueLost := some ⟨g.count + 1, g.first, s.turret.queueSeq⟩ } := by
  simp [post, postGap_of_full hfull, hlost, hc]

/-! ## What posting leaves alone -/

/-- The state without what a post and the guard's blindness write: the session event queue, the guard's phases and its count of
blind spells, and Lantern. -/
def State.unposted (s : State) : State :=
  { s with
    turret := { s.turret with
      queue := [], queueSeq := 0, queueLost := none, guard := Vector.replicate 3 GuardPhase.reset, blindSpells := 0 }
    lantern := Lantern.reset }

section
variable {s t : State}

theorem unposted_rotunda (h : s.unposted = t.unposted) : s.rotunda = t.rotunda := by
  have e := congrArg (fun u : State => u.rotunda) h
  exact e

theorem unposted_period (h : s.unposted = t.unposted) : s.turret.period = t.turret.period := by
  have e := congrArg (fun u : State => u.turret.period) h
  exact e

theorem unposted_latched (h : s.unposted = t.unposted) : s.turret.latched = t.turret.latched := by
  have e := congrArg (fun u : State => u.turret.latched) h
  exact e

theorem unposted_boundaryTime (h : s.unposted = t.unposted) : s.turret.boundaryTime = t.turret.boundaryTime := by
  have e := congrArg (fun u : State => u.turret.boundaryTime) h
  exact e

theorem unposted_inputHeartbeat (h : s.unposted = t.unposted) : s.turret.inputHeartbeat = t.turret.inputHeartbeat := by
  have e := congrArg (fun u : State => u.turret.inputHeartbeat) h
  exact e

theorem unposted_inputHeartbeatAt (h : s.unposted = t.unposted) : s.turret.inputHeartbeatAt = t.turret.inputHeartbeatAt := by
  have e := congrArg (fun u : State => u.turret.inputHeartbeatAt) h
  exact e

theorem unposted_inputStale (h : s.unposted = t.unposted) : s.turret.inputStale = t.turret.inputStale := by
  have e := congrArg (fun u : State => u.turret.inputStale) h
  exact e

end

@[simp] theorem count_unposted (i : Fin 64) (n : Nat) (s : State) : (count i n s).unposted = s.unposted := by
  unfold count
  split <;> rfl

theorem postGap_unposted (s : State) : (postGap s).unposted = s.unposted := by
  unfold postGap
  split
  · rfl
  · split
    · rw [count_unposted, count_unposted]
      rfl
    · rfl

@[simp] theorem post_unposted (p : Option Port) (c : QContent) (s : State) : (post p c s).unposted = s.unposted := by
  unfold post
  dsimp only
  split
  · rw [count_unposted]
    exact postGap_unposted s
  · exact postGap_unposted s

theorem ite_post_unposted (b : Prop) [Decidable b] (p : Option Port) (c : QContent) (s : State) :
    (if b then post p c s else s).unposted = s.unposted := by
  split
  · exact post_unposted p c s
  · rfl

theorem updateBlind_unposted (f : Phase) (s : State) : (updateBlind f s).unposted = s.unposted := by
  unfold updateBlind
  dsimp only
  split
  · rfl
  · rw [post_unposted]
    split <;> rfl

theorem updateBlinds_unposted (s : State) : (updateBlinds s).unposted = s.unposted :=
  List.foldlRecOn (motive := fun t => t.unposted = s.unposted) allPhases _ rfl
    (fun t ht f _ => (updateBlind_unposted f t).trans ht)

end Sys2Proof.Machine
end

section
/-! The rows of the two crossings: the allocation boundary (R24, R208), the heartbeats (R27, R39), the host surplus (R28), and the
gap entry and delivery of the session event queue (R36, R38). -/

namespace Sys2Proof.Machine

/-! ## The allocation boundary -/

theorem exec_allocationBoundary_of_due (s : State) (hup : s.turretUp = true) (hdue : s.boundaryDue = true) :
    exec .allocationBoundary s = .next (boundary s) := by
  change execAllocationBoundary s = _
  simp [execAllocationBoundary, hup, hdue]

theorem exec_allocationBoundary_of_not_due (s : State) (hdue : s.boundaryDue = false) :
    exec .allocationBoundary s = .next s := by
  change execAllocationBoundary s = _
  simp [execAllocationBoundary, hdue]

theorem boundaryDue_iff_of_frequency (s : State) (h : s.dsp.frequency.isSome = true) :
    s.boundaryDue = true ↔ 5 ≤ s.turret.crossings := by
  simp [State.boundaryDue, h]

theorem boundaryDue_iff_of_no_frequency (s : State) (h : s.dsp.frequency = none) :
    s.boundaryDue = true ↔ s.turret.boundaryAt + 100 ≤ s.now := by
  simp [State.boundaryDue, State.due, h]

/-- Only what is posted on the way could touch what the latch sets, and `unposted` keeps all of it. -/
theorem latchInputs_puts_in_force (s : State) :
    (latchInputs s).turret.period = w32 (s.turret.period + 1) ∧ (latchInputs s).turret.latched = s.rotunda.published ∧
    (latchInputs s).rotunda.applied = s.rotunda.published.settings ∧ (latchInputs s).turret.boundaryTime = s.time := by
  unfold latchInputs
  dsimp only [withDsp_turret, withDsp_rotunda]
  rw [unposted_period (updateBlinds_unposted _), unposted_latched (updateBlinds_unposted _),
    unposted_rotunda (updateBlinds_unposted _), unposted_boundaryTime (updateBlinds_unposted _)]
  dsimp only [markDisabled, withTurret_turret, withTurret_rotunda, withRotunda_turret, withRotunda_rotunda]
  rw [unposted_period (ite_post_unposted ..), unposted_latched (ite_post_unposted ..),
    unposted_boundaryTime (ite_post_unposted ..)]
  exact ⟨rfl, rfl, rfl, rfl⟩

/-! ## Allocator input block -/

theorem forwardProof_of_no_window {s : State} (h : s.steeple.window = none) : forwardProof s = s := by
  simp [forwardProof, h]

theorem exec_allocInputHeartbeat (s : State) (hup : s.up .cd5 = true) (hturret : s.turretUp = true)
    (hwindow : s.steeple.window = none) : ∃ t, exec .allocInputHeartbeat s = .next t ∧
      t.rotunda.published.heartbeat = w32 (s.rotunda.published.heartbeat + 1) ∧
      t.turret.inputHeartbeat = t.rotunda.published.heartbeat ∧ t.turret.inputHeartbeatAt = s.now ∧
      t.turret.inputStale = false := by
  have hforward (r : Rotunda) : forwardProof (s.withRotunda r) = s.withRotunda r := forwardProof_of_no_window hwindow
  change ∃ t, execAllocInputHeartbeat s = .next t ∧ _
  unfold execAllocInputHeartbeat
  dsimp only
  rw [if_pos hup, if_pos hturret, hforward]
  refine ⟨_, rfl, ?_⟩
  rw [unposted_rotunda (ite_post_unposted ..), unposted_inputHeartbeat (ite_post_unposted ..),
    unposted_inputHeartbeatAt (ite_post_unposted ..), unposted_inputStale (ite_post_unposted ..)]
  exact ⟨rfl, rfl, rfl, rfl⟩

theorem exec_allocInputStale_of_due (s : State) (hup : s.turretUp = true) (hstale : s.turret.inputStale = false)
    (hdue : s.turret.inputHeartbeatAt + 1000 ≤ s.now) : exec .allocInputStale s =
      .next (post none (.allocInput 1) (s.withTurret { s.turret with inputStale := true, hostDiscarded := true })) := by
  change execAllocInputStale s = _
  simp [execAllocInputStale, State.due, hup, hstale, hdue]

theorem exec_hostSurplusExpiry_of_due (s : State) (a : Nat) (hup : s.turretUp = true) (hkept : s.turret.hostDiscarded = false)
    (hat : s.turret.latched.surplusAt = some a) (hdue : a + 15000 ≤ s.now) : exec .hostSurplusExpiry s =
      .next (post none (.allocInput 3) (s.withTurret { s.turret with hostDiscarded := true })) := by
  change execHostSurplusExpiry s = _
  simp [execHostSurplusExpiry, State.due, hup, hkept, hat, hdue]

theorem exec_hostSurplusExpiry_of_valid (s : State) (a : Nat) (hat : s.turret.latched.surplusAt = some a)
    (hvalid : s.now < a + 15000) : exec .hostSurplusExpiry s = .next s := by
  change execHostSurplusExpiry s = _
  simp [execHostSurplusExpiry, State.due, hat, Nat.not_le.mpr hvalid]

/-! ## Session event queue -/

theorem exec_sessionEventQueueHeartbeat (s : State) (hup : s.turretUp = true) (hserves : s.serves = true)
    (hsilent : s.rotunda.silent = false) : ∃ t, exec .sessionEventQueueHeartbeat s = .next t ∧
      t.turret.heartbeat = w32 (s.turret.heartbeat + 1) ∧ t.rotunda.queueHeartbeat = t.turret.heartbeat ∧
      t.rotunda.queueHeartbeatAt = s.now := by
  change ∃ t, execSessionEventQueueHeartbeat s = .next t ∧ _
  simp [execSessionEventQueueHeartbeat, hup, hserves, hsilent]

/-- With no request published, nothing completes CONTROL_SILENT: only the event goes out. -/
theorem exec_controlLost_of_due (s : State) (hserves : s.serves = true) (hsilent : s.rotunda.silent = false)
    (hdue : s.rotunda.queueHeartbeatAt + 1000 ≤ s.now) (hrecord : s.rotunda.published.record = []) :
    ∃ t, exec .controlLost s = .next t ∧ t.rotunda.silent = true ∧ t.turret = s.turret ∧ t.steeple = s.steeple := by
  change ∃ t, execControlLost s = .next t ∧ _
  simp [execControlLost, State.due, hserves, hsilent, hdue, hrecord]

theorem exec_gapEntry_of_room (s : State) (g : LostEvents) (hup : s.turretUp = true) (hlost : s.turret.queueLost = some g)
    (hroom : s.turret.queue.length < 224) : ∃ t, exec .gapEntry s = .next t ∧ t.turret.queueLost = none ∧
      t.turret.queue = s.turret.queue ++ [⟨s.turret.queueSeq, s.time, none, .gap g.count g.first g.last⟩] := by
  refine ⟨postGap s, ?_, ?_, ?_⟩
  · exact if_pos hup
  · rw [postGap_turret_of_room hlost hroom]
  · rw [postGap_turret_of_room hlost hroom]

theorem exec_sessionEventDeliver_of_cons (s : State) (e : QEntry) (rest : List QEntry) (hserves : s.serves = true)
    (hqueue : s.turret.queue = e :: rest) : exec .sessionEventDeliver s =
      .next (deliver e ((s.withTurret { s.turret with queue := rest }).withSteeple s.steeple.storeSafety)) := by
  change execSessionEventDeliver s = _
  simp [execSessionEventDeliver, hserves, hqueue]

/-- Settles O43: each clause is the lemma above on its row or operation; a posted entry is read off Turret's next state. -/
theorem crossingRows : Obligations.CrossingRows := by
  unfold Obligations.CrossingRows
  refine ⟨exec_allocationBoundary_of_due, exec_allocationBoundary_of_not_due, boundaryDue_iff_of_frequency,
    boundaryDue_iff_of_no_frequency, latchInputs_puts_in_force, exec_allocInputHeartbeat, exec_allocInputStale_of_due,
    exec_hostSurplusExpiry_of_due, exec_hostSurplusExpiry_of_valid, exec_sessionEventQueueHeartbeat, exec_controlLost_of_due,
    exec_gapEntry_of_room, exec_sessionEventDeliver_of_cons, ?posted, placeEntry_of_new_time, placeEntry_of_same_time, ?notPosted⟩
  case posted =>
    intro c s hlost hroom p
    refine ⟨_, rfl, ?_, ?_⟩ <;> rw [post_turret_of_room p c hlost hroom]
  case notPosted =>
    intro c s g p hlost hfull hc
    refine ⟨_, rfl, ?_, ?_⟩ <;> rw [post_turret_of_full p hlost hfull hc]

end Sys2Proof.Machine
end

section
/-! The bands of the pilot (R111) and the proximity codes (R113). -/

namespace Sys2Proof.Machine

/-! ## Pilot -/

/-- The high plateaus in mV that each classification without PWM stands for: R111's table. -/
def PilotClass.Covers : PilotClass → Int → Prop
  | .a, v => 11000 ≤ v ∧ v ≤ 13000
  | .b, v => 8000 ≤ v ∧ v ≤ 10000
  | .c, v => 5000 ≤ v ∧ v ≤ 7000
  | .d, v => 2000 ≤ v ∧ v ≤ 4000
  | .e, v => -1000 ≤ v ∧ v ≤ 1000
  | .f, v => -13000 ≤ v ∧ v ≤ -11000
  | .out, v => ¬ (11000 ≤ v ∧ v ≤ 13000) ∧ ¬ (8000 ≤ v ∧ v ≤ 10000) ∧ ¬ (5000 ≤ v ∧ v ≤ 7000) ∧
      ¬ (2000 ≤ v ∧ v ≤ 4000) ∧ ¬ (-1000 ≤ v ∧ v ≤ 1000) ∧ ¬ (-13000 ≤ v ∧ v ≤ -11000)
  | .diode, _ => False

/-- What the low plateau makes of a high plateau's class under PWM (R111). -/
def PilotClass.withLow (k : PilotClass) (lo : Int) : PilotClass :=
  if k ∈ [.e, .f, .out] then k
  else if -13000 ≤ lo ∧ lo ≤ -11000 then k
  else if -11000 < lo ∧ k ≠ .a then .diode
  else .out

/-- The seven ways a high plateau is classified, each with the limits that lead to it. -/
theorem highBand_cases (v : Int) :
    (∃ k ∈ [PilotClass.a, .b, .c, .d, .e, .f], highBand v = some k ∧ k.Covers v) ∨
      highBand v = none ∧ PilotClass.out.Covers v := by
  simp only [highBand, withinInt, decide_eq_true_eq]
  repeat' split
  all_goals simp [PilotClass.Covers, *]

/-- The limits of two classes share no value. -/
theorem covers_unique {k j : PilotClass} {v : Int} (hk : k.Covers v) (hj : j.Covers v) : k = j := by
  cases k <;> cases j <;> simp only [PilotClass.Covers, reduceCtorEq] at hk hj ⊢ <;> omega

theorem classify_none (v : Int) : classify v none = (highBand v).getD .out := by
  unfold classify
  rcases highBand v with _ | k
  · rfl
  · cases k <;> rfl

theorem classify_none_covers (v : Int) : (classify v none).Covers v := by
  rw [classify_none]
  obtain ⟨k, -, hband, hk⟩ | ⟨hband, hout⟩ := highBand_cases v
  · rwa [hband]
  · rwa [hband]

theorem classify_none_iff (k : PilotClass) (v : Int) : classify v none = k ↔ k.Covers v :=
  ⟨fun h => h ▸ classify_none_covers v, covers_unique (classify_none_covers v)⟩

theorem classify_some (v lo : Int) : classify v (some lo) = (classify v none).withLow lo := by
  rw [classify_none]
  unfold classify
  obtain ⟨k, hmem, hband, -⟩ | ⟨hband, -⟩ := highBand_cases v
  · rw [hband]
    simp only [List.mem_cons, List.not_mem_nil, or_false] at hmem
    rcases hmem with rfl | rfl | rfl | rfl | rfl | rfl <;> simp [PilotClass.withLow, withinInt]
  · rw [hband]
    rfl

theorem withLow_of_present (k : PilotClass) {lo : Int} (hlow : -13000 ≤ lo) (hhigh : lo ≤ -11000) : k.withLow lo = k := by
  simp [PilotClass.withLow, hlow, hhigh]

theorem withLow_of_unjudged {k : PilotClass} {lo : Int} (hk : k ∈ [PilotClass.e, .f, .out]) : k.withLow lo = k := if_pos hk

theorem withLow_of_above {k : PilotClass} {lo : Int} (hk : k ∈ [PilotClass.b, .c, .d]) (hlo : -11000 < lo) : k.withLow lo = .diode := by
  simp only [List.mem_cons, List.not_mem_nil, or_false] at hk
  rcases hk with rfl | rfl | rfl <;> simp [PilotClass.withLow, hlo, Int.not_le.mpr hlo]

theorem withLow_a_of_above {lo : Int} (hlo : -11000 < lo) : PilotClass.a.withLow lo = .out := by
  simp [PilotClass.withLow, Int.not_le.mpr hlo]

theorem withLow_of_below {k : PilotClass} {lo : Int} (hk : k ∈ [PilotClass.a, .b, .c, .d]) (hlo : lo < -13000) : k.withLow lo = .out := by
  have habove : ¬ -11000 < lo := by omega
  simp only [List.mem_cons, List.not_mem_nil, or_false] at hk
  rcases hk with rfl | rfl | rfl | rfl <;> simp [PilotClass.withLow, Int.not_le.mpr hlo, habove]

/-! ## Proximity -/

theorem proximityIn_iff (v vdda lo hi : Nat) :
    proximityIn v vdda lo hi = true ↔ v < vdda ∧ lo * (vdda - v) ≤ 2000 * v ∧ 2000 * v ≤ hi * (vdda - v) := by
  simp [proximityIn, within]

/-- The six codes, each with what leads to it. The first four ranges and the fifth's are apart, so their order decides nothing. -/
theorem proximityCode_cases (v vdda : Nat) :
    proximityCode v vdda = 1 ∧ proximityIn v vdda 1100 2460 ∨ proximityCode v vdda = 2 ∧ proximityIn v vdda 400 936 ∨
    proximityCode v vdda = 3 ∧ proximityIn v vdda 164 308 ∨ proximityCode v vdda = 4 ∧ proximityIn v vdda 75 140 ∨
    proximityCode v vdda = 5 ∧ 4000 * (vdda - v) < 2000 * v ∨
    proximityCode v vdda = 6 ∧ ¬ proximityIn v vdda 1100 2460 ∧ ¬ proximityIn v vdda 400 936 ∧ ¬ proximityIn v vdda 164 308 ∧
      ¬ proximityIn v vdda 75 140 ∧ ¬ 4000 * (vdda - v) < 2000 * v := by
  unfold proximityCode
  repeat' split
  all_goals simp [*]

/-- Settles O27: the classes by `classify_none_iff` and `classify_some`, the codes by `proximityCode_cases`. -/
theorem pilotAndProximityBands : Obligations.PilotAndProximityBands := by
  unfold Obligations.PilotAndProximityBands
  refine ⟨classify_none_iff .a, classify_none_iff .b, classify_none_iff .c, classify_none_iff .d, classify_none_iff .e,
    classify_none_iff .f, classify_none_iff .out, ?present, ?diode, ?bandA, ?below, ?unjudged, ?code1, ?code2, ?code3, ?code4,
    ?code5, ?range, by decide⟩
  case present => exact fun v lo hlow hhigh => (classify_some v lo).trans (withLow_of_present _ hlow hhigh)
  case diode => exact fun v lo hk hlo => (classify_some v lo).trans (withLow_of_above hk hlo)
  case bandA =>
    intro v lo hk hlo
    rw [classify_some, hk, withLow_a_of_above hlo]
  case below => exact fun v lo hk hlo => (classify_some v lo).trans (withLow_of_below hk hlo)
  case unjudged => exact fun v lo hk => (classify_some v lo).trans (withLow_of_unjudged hk)
  all_goals
    intro v vdda
    have hcases := proximityCode_cases v vdda
    simp only [proximityIn_iff] at hcases
    omega

end Sys2Proof.Machine
end

section
/-! The port commands (R142) and the queries of ports and sessions (R146). -/

namespace Sys2Proof.Machine

/-! ## What taking and accepting a request leave alone -/

theorem unlinked_rebuilding {s t : State} (h : s.unlinked = t.unlinked) : s.rotunda.rebuilding = t.rotunda.rebuilding := by
  have e := congrArg (fun u : State => u.rotunda.rebuilding) h
  exact e

@[simp] theorem taken_rebuilding (b : Box) (f : Frame) (s : State) : (taken b f s).rotunda.rebuilding = s.rotunda.rebuilding :=
  unlinked_rebuilding (taken_unlinked s b f)

@[simp] theorem taken_confirmed (b : Box) (f : Frame) (s : State) : (taken b f s).confirmed = s.confirmed := by
  simp [State.confirmed]

@[simp] theorem taken_portLock (b : Box) (f : Frame) (s : State) (p : Port) : (taken b f s).portLock p = s.portLock p := by
  simp [State.portLock]

@[simp] theorem taken_shownState (b : Box) (f : Frame) (s : State) (p : Port) : (taken b f s).shownState p = s.shownState p := by
  simp [State.shownState]

@[simp] theorem acceptWaiting_lane (r : Req) (argument : Nat) (extra : List Byte) (s : State) (p : Port) :
    (acceptWaiting r argument extra s).lane p = s.lane p := by
  simp [acceptWaiting]

@[simp] theorem acceptWaiting_waiting (r : Req) (argument : Nat) (extra : List Byte) (s : State) :
    (acceptWaiting r argument extra s).rotunda.waiting = s.rotunda.waiting ++ [r.wait argument extra] := by
  simp [acceptWaiting]

/-! ## The checks passed -/

section
variable {r : Req} {s : State}

theorem withLength_of_length {n : Nat} {k : State → State} (hlen : r.payload.length = n) :
    withLength (r.payload.length == n) r k s = k s := by
  simp [withLength, hlen]

theorem withLength_of_empty {k : State → State} (hempty : r.payload = []) : withLength r.payload.isEmpty r k s = k s := by
  simp [withLength, hempty]

theorem withHandle_of_current {k : State → State} (hhandle : r.handle ≠ 0) (hcurrent : s.current r.handle = true) :
    withHandle r k s = k s := by
  simp [withHandle, hhandle, hcurrent]

theorem withPort_of_current {k : Port → State → State} {p : Port} (hhandle : r.handle ≠ 0) (hcurrent : s.current r.handle = true)
    (hport : portOfHandle r.handle = some p) : withPort r k s = k p s := by
  simp [withPort, withHandle_of_current hhandle hcurrent, hport]

theorem withSession_of_current {k : Channel → SessionBody → State → State} {c : Channel} {x : SessionBody} (hhandle : r.handle ≠ 0)
    (hcurrent : s.current r.handle = true) (hchannel : s.channelOf r.handle = some c) (hbody : c.body = .session x) :
    withSession r k s = k c x s := by
  simp [withSession, withHandle_of_current hhandle hcurrent, hchannel, hbody]

theorem notSilent_of_heard {k : State → State} (hsilent : s.rotunda.silent = false) : notSilent r k s = k s := by
  simp [notSilent, hsilent]

theorem intact_of_kept {slot : Nat} {k : State → State} (hkept : slot ∉ s.rotunda.rebuilding) : intact slot r k s = k s := by
  simp [intact, hkept]

end

/-! ## The handlers once their checks pass -/

section
variable {r : Req} {s : State} {p : Port}

theorem portEnable_of_port (hlen : r.payload.length = 4) (hhandle : r.handle ≠ 0) (hcurrent : s.current r.handle = true)
    (hport : portOfHandle r.handle = some p) (hsilent : s.rotunda.silent = false) (hconfirmed : s.confirmed = true)
    (hhub : s.steeple.hub.active = false) (hlock : (s.portLock p).active = false) (hlane : (s.lane p).enabled = false) :
    portEnable r s = (acceptWaiting r 0 [] s).modLane p (fun l => { l with enabled := true, ignored := false }) := by
  unfold portEnable
  rw [withLength_of_length hlen, withPort_of_current hhandle hcurrent hport, notSilent_of_heard hsilent]
  simp [hconfirmed, hhub, hlock, hlane]

theorem portEnable_of_unconfirmed (hlen : r.payload.length = 4) (hhandle : r.handle ≠ 0) (hcurrent : s.current r.handle = true)
    (hport : portOfHandle r.handle = some p) (hsilent : s.rotunda.silent = false) (hconfirmed : s.confirmed = false) :
    portEnable r s = refuse r stSafetyUnconfirmed s := by
  unfold portEnable
  rw [withLength_of_length hlen, withPort_of_current hhandle hcurrent hport, notSilent_of_heard hsilent]
  simp [hconfirmed]

theorem portDisable_of_port (hlen : r.payload.length = 4) (hhandle : r.handle ≠ 0) (hcurrent : s.current r.handle = true)
    (hport : portOfHandle r.handle = some p) (hmode : field r.payload 0 1 ≤ 1) (hsilent : s.rotunda.silent = false)
    (hdisabled : (s.lane p).state ≠ .disabled) (hlockout : (s.lane p).state ≠ .lockout) :
    portDisable r s = (acceptWaiting r 0 [] s).modLane p (fun l => { l with
      enabled := false, disableRequest := some (max (field r.payload 0 1) (l.disableRequest.getD 0)) }) := by
  unfold portDisable
  rw [withLength_of_length hlen, withPort_of_current hhandle hcurrent hport, if_neg (Nat.not_lt.mpr hmode),
    notSilent_of_heard hsilent]
  simp [hdisabled, hlockout]

theorem portStatus_of_port (hempty : r.payload = []) (hhandle : r.handle ≠ 0) (hcurrent : s.current r.handle = true)
    (hport : portOfHandle r.handle = some p) (hkept : p.val ∉ s.rotunda.rebuilding) :
    portStatus r s = respond r stOk (le 1 (s.shownState p) ++ s.portBody p) s := by
  unfold portStatus
  rw [withLength_of_empty hempty, withPort_of_current hhandle hcurrent hport, intact_of_kept hkept]

theorem portDiag_of_port (hempty : r.payload = []) (hhandle : r.handle ≠ 0) (hcurrent : s.current r.handle = true)
    (hport : portOfHandle r.handle = some p) : portDiag r s = respond r stOk (s.lane p).diag s := by
  unfold portDiag
  rw [withLength_of_empty hempty, withPort_of_current hhandle hcurrent hport]

theorem sessionStatus_of_session {c : Channel} {x : SessionBody} (hempty : r.payload = []) (hhandle : r.handle ≠ 0)
    (hcurrent : s.current r.handle = true) (hchannel : s.channelOf r.handle = some c) (hbody : c.body = .session x)
    (hkept : c.slot ∉ s.rotunda.rebuilding) :
    sessionStatus r s = respond r stOk (le 1 x.state.code ++ (s.sessionNow c x).bytes) s := by
  unfold sessionStatus
  rw [withLength_of_empty hempty, withSession_of_current hhandle hcurrent hchannel hbody, intact_of_kept hkept]

end

/-! ## The rows -/

section
variable {b : Box} {f : Frame} {r : Req} {s : State}

theorem Asked.exec_portEnable (h : Asked b 0x0401 f r s) : exec (.portEnable b) s = .next (portEnable r (taken b f s)) :=
  h.request portEnable

theorem Asked.exec_portDisable (h : Asked b 0x0402 f r s) : exec (.portDisable b) s = .next (portDisable r (taken b f s)) :=
  h.request portDisable

theorem Asked.exec_portStatus (h : Asked b 0x0410 f r s) : exec (.portStatus b) s = .next (portStatus r (taken b f s)) :=
  h.request portStatus

theorem Asked.exec_portDiag (h : Asked b 0x0412 f r s) : exec (.portDiag b) s = .next (portDiag r (taken b f s)) :=
  h.request portDiag

theorem Asked.exec_sessionStatus (h : Asked b 0x0411 f r s) : exec (.sessionStatus b) s = .next (sessionStatus r (taken b f s)) :=
  h.request sessionStatus

end

/-- Settles O30: each row runs its handler on the state that taking the request leaves, where every check of the handler passes (or, for
the second clause, the one on the safety parameters fails). The 0xFF that PORT_STATUS shows while the control plane is silent is the
model's choice (log 176). -/
theorem portCommands : Obligations.PortCommands := by
  unfold Obligations.PortCommands
  refine ⟨?enable, ?unconfirmed, ?disable, ?status, ?diag, ?session⟩
  case enable =>
    intro b f r s p h hlen hhandle hcurrent hport hsilent hconfirmed hhub hlock hlane
    rw [h.exec_portEnable, portEnable_of_port hlen hhandle hcurrent hport (by simpa) (by simpa) (by simpa) (by simpa) (by simpa)]
    refine ⟨_, rfl, ?_, ?_, ?_⟩ <;> simp
  case unconfirmed =>
    intro b f r s p h hlen hhandle hcurrent hport hsilent hconfirmed
    rw [h.exec_portEnable, portEnable_of_unconfirmed hlen hhandle hcurrent hport (by simpa) (by simpa)]
    rfl
  case disable =>
    intro b f r s p h hlen hhandle hcurrent hport hmode hsilent hdisabled hlockout
    rw [h.exec_portDisable, portDisable_of_port hlen hhandle hcurrent hport hmode (by simpa) (by simpa) (by simpa)]
    refine ⟨_, rfl, ?_, ?_⟩ <;> simp
  case status =>
    intro b f r s p h hempty hhandle hcurrent hport hkept
    rw [h.exec_portStatus, portStatus_of_port hempty hhandle hcurrent hport (by simpa), taken_shownState]
    rfl
  case diag =>
    intro b f r s p h hempty hhandle hcurrent hport
    rw [h.exec_portDiag, portDiag_of_port hempty hhandle hcurrent hport, taken_lane]
    rfl
  case session =>
    intro b f r s c x h hempty hhandle hcurrent hchannel hbody hkept
    rw [h.exec_sessionStatus, sessionStatus_of_session hempty hhandle hcurrent hchannel hbody (by simpa)]

end Sys2Proof.Machine
end

section
/-! The reads of the metering: registers (R203, R204), snapshots (R333), calibration (R179) and reference tones (R180). -/

namespace Sys2Proof.Machine

/-! ## The checks passed and failed -/

section
variable {r : Req} {s : State} {k : State → State}

theorem noHandle_of_zero (hhandle : r.handle = 0) : noHandle r k s = k s := if_pos hhandle

theorem check_of_true {ok : Bool} {status : Nat} (hok : ok = true) : check ok status r k s = k s := if_pos hok

theorem check_of_false {ok : Bool} {status : Nat} (hok : ok = false) : check ok status r k s = refuse r status s := by
  simp [check, hok]

theorem keepServes_of_up (hup : s.keepUp = true) : keepServes r k s = k s := if_pos hup

/-- The range that a read of `n` entries from `first` on is checked against. -/
theorem range_check_iff {most first n all : Nat} :
    (within 1 most n && decide (first + n ≤ all)) = true ↔ 1 ≤ n ∧ n ≤ most ∧ first + n ≤ all := by
  simp [within, and_assoc]

theorem ne_zero_of_portOfHandle {h : Nat} {p : Port} (hport : portOfHandle h = some p) : h ≠ 0 := by
  rintro rfl
  simp [portOfHandle] at hport

end

/-! ## The handlers once their checks pass, or one fails -/

section
variable {r : Req} {s : State}

theorem regRead_of_set (hlen : r.payload.length = 4) (hhandle : r.handle = 0) (hset : field r.payload 0 1 ≤ 28)
    (hsource : field r.payload 1 1 ≤ 1) (hup : s.keepUp = true) :
    regRead r s = respond r stOk (regBytes
      (if field r.payload 1 1 = 0 then s.keep.latched else s.keep.saved.elim Latched.reset (·.latched))
      (field r.payload 0 1) (field r.payload 1 1) s.tariffCount) s := by
  unfold regRead
  rw [withLength_of_length hlen, noHandle_of_zero hhandle, check_of_true (decide_eq_true ⟨hset, hsource⟩), keepServes_of_up hup]

theorem regReadSet_of_sets (hlen : r.payload.length = 4) (hhandle : r.handle = 0) (hlow : 1 ≤ field r.payload 1 1)
    (hhigh : field r.payload 1 1 ≤ 18) (hend : field r.payload 0 1 + field r.payload 1 1 ≤ 29) (hup : s.keepUp = true) :
    regReadSet r s = respond r stOk
      (setsBytes s.keep.latched ((List.range (field r.payload 1 1)).map (· + field r.payload 0 1))) s := by
  unfold regReadSet
  rw [withLength_of_length hlen, noHandle_of_zero hhandle, check_of_true (range_check_iff.mpr ⟨hlow, hhigh, hend⟩),
    keepServes_of_up hup]

theorem regReadSet_of_range (hlen : r.payload.length = 4) (hhandle : r.handle = 0)
    (hrange : field r.payload 1 1 = 0 ∨ 18 < field r.payload 1 1 ∨ 29 < field r.payload 0 1 + field r.payload 1 1) :
    regReadSet r s = refuse r stParamRange s := by
  have hbad : (within 1 18 (field r.payload 1 1) && decide (field r.payload 0 1 + field r.payload 1 1 ≤ 29)) = false := by
    rw [Bool.eq_false_iff, ne_eq, range_check_iff]
    omega
  unfold regReadSet
  rw [withLength_of_length hlen, noHandle_of_zero hhandle, check_of_false hbad]

theorem snapshotRead_of_running (i : Fin 29) (hlen : r.payload.length = 4) (hhandle : r.handle = 0)
    (hset : field r.payload 0 1 = i.val) (hindex : field r.payload 1 1 = 0) (hup : s.keepUp = true) :
    snapshotRead r s = respond r stOk (s.runningSnapshot i) s := by
  unfold snapshotRead
  simp only [withLength_of_length hlen, noHandle_of_zero hhandle, hset, i.isLt, hindex, keepServes_of_up hup, dite_true, if_true]

theorem snapshotRead_of_closed (i : Fin 29) {n : Snapshot} (hlen : r.payload.length = 4) (hhandle : r.handle = 0)
    (hset : field r.payload 0 1 = i.val) (hlow : 1 ≤ field r.payload 1 1) (hhigh : field r.payload 1 1 ≤ 24)
    (hsnapshot : s.keep.snapshots[field r.payload 1 1 - 1]? = some n) (hup : s.keepUp = true) :
    snapshotRead r s = respond r stOk (n.bytes i (field r.payload 1 1)) s := by
  have hindex : field r.payload 1 1 ≠ 0 := Nat.one_le_iff_ne_zero.mp hlow
  unfold snapshotRead
  simp only [withLength_of_length hlen, noHandle_of_zero hhandle, hset, i.isLt, hindex, hsnapshot, hhigh, keepServes_of_up hup,
    dite_true, if_true, if_false]

theorem calRead_of_channels (hlen : r.payload.length = 4) (hhandle : r.handle = 0) (hlow : 1 ≤ field r.payload 1 1)
    (hhigh : field r.payload 1 1 ≤ 22) (hend : field r.payload 0 1 + field r.payload 1 1 ≤ 160) (hup : s.keepUp = true) :
    calRead r s = respond r stOk (le 1 (b1 (s.legal.fuse != .intact)) ++ le 1 (b1 s.legal.calen) ++ [0, 0] ++
      ((List.range (field r.payload 1 1)).flatMap (fun i =>
        let c := s.calStored.toList.getD (field r.payload 0 1 + i) (Cal.factory (field r.payload 0 1 + i))
        le 1 (field r.payload 0 1 + i) ++ le 1 (b1 c.written) ++ [0, 0] ++ c.bytes))) s := by
  unfold calRead
  rw [withLength_of_length hlen, noHandle_of_zero hhandle, check_of_true (range_check_iff.mpr ⟨hlow, hhigh, hend⟩),
    keepServes_of_up hup]

theorem toneStatus_of_port {p : Port} (hempty : r.payload = []) (hcurrent : s.current r.handle = true)
    (hport : portOfHandle r.handle = some p) (hup : s.keepUp = true) :
    toneStatus r s = respond r stOk ((portModulators p).flatMap (fun m => (s.dsp.tones[m]).bytes)) s := by
  unfold toneStatus
  rw [withLength_of_empty hempty, withHandle_of_current (ne_zero_of_portOfHandle hport) hcurrent]
  simp only [hport, keepServes_of_up hup]

end

/-! ## The rows -/

section
variable {b : Box} {f : Frame} {r : Req} {s : State}

theorem Asked.exec_regRead (h : Asked b 0x0501 f r s) : exec (.regRead b) s = .next (regRead r (taken b f s)) :=
  h.request regRead

theorem Asked.exec_regReadSet (h : Asked b 0x0502 f r s) : exec (.regReadSet b) s = .next (regReadSet r (taken b f s)) :=
  h.request regReadSet

theorem Asked.exec_snapshotRead (h : Asked b 0x0504 f r s) : exec (.snapshotRead b) s = .next (snapshotRead r (taken b f s)) :=
  h.request snapshotRead

theorem Asked.exec_calRead (h : Asked b 0x0509 f r s) : exec (.calRead b) s = .next (calRead r (taken b f s)) :=
  h.request calRead

theorem Asked.exec_toneStatus (h : Asked b 0x050C f r s) : exec (.toneStatus b) s = .next (toneStatus r (taken b f s)) :=
  h.request toneStatus

end

/-- Settles O16: each row runs its handler on the state that taking the request leaves, where every check of the handler passes (or, for
the fourth clause, the one on the range of R204 fails). -/
theorem meterReads : Obligations.MeterReads := by
  unfold Obligations.MeterReads
  refine ⟨?latched, ?saved, ?sets, ?range, ?running, ?closed, ?calibration, ?tones⟩
  case latched =>
    rintro b f r s h ⟨hlen, hhandle, hset, hsource, hup⟩
    rw [h.exec_regRead, regRead_of_set hlen hhandle hset (by omega) hup, hsource]
    rfl
  case saved =>
    rintro b f r s h ⟨hlen, hhandle, hset, hsource, hup⟩
    rw [h.exec_regRead, regRead_of_set hlen hhandle hset (by omega) hup, hsource]
    rfl
  case sets =>
    rintro b f r s h ⟨hlen, hhandle, hlow, hhigh, hend, hup⟩
    rw [h.exec_regReadSet, regReadSet_of_sets hlen hhandle hlow hhigh hend hup, setsBytes, List.length_map, List.length_range]
    rfl
  case range =>
    rintro b f r s h ⟨hlen, hhandle, hrange⟩
    rw [h.exec_regReadSet, regReadSet_of_range hlen hhandle hrange]
    rfl
  case running =>
    intro b f r s i h hlen hhandle hset hindex hup
    rw [h.exec_snapshotRead, snapshotRead_of_running i hlen hhandle hset hindex (by simpa)]
  case closed =>
    intro b f r s i n h hlen hhandle hset hlow hhigh hsnapshot hup
    rw [h.exec_snapshotRead, snapshotRead_of_closed i hlen hhandle hset hlow hhigh (by simpa) (by simpa)]
  case calibration =>
    rintro b f r s h ⟨hlen, hhandle, hlow, hhigh, hend, hup⟩
    rw [h.exec_calRead, calRead_of_channels hlen hhandle hlow hhigh hend hup]
  case tones =>
    intro b f r s p h hempty hcurrent hport hup
    rw [h.exec_toneStatus, toneStatus_of_port hempty hcurrent hport (by simpa), taken_dsp]

end Sys2Proof.Machine
end

section
/-! The hub's inputs and outputs: the protective-earth monitor (R249), the emergency stop (R250) and the shunt trip (R251). -/

namespace Sys2Proof.Machine

/-- A bound that is not passed leaves the count. -/
theorem sat_of_le {bound n : Nat} (h : n ≤ bound) : sat bound n = n := Nat.min_eq_right h

theorem due_of_le {s : State} {t : Nat} (h : t ≤ s.now) : s.due t = true := decide_eq_true h

theorem not_due_of_lt {s : State} {t : Nat} (h : s.now < t) : s.due t = false := decide_eq_false (Nat.not_le.mpr h)

/-! ## Protective-earth monitor -/

theorem exec_peMonWindow_of_good (n : Nat) (s : State) (hup : s.steepleUp = true) (henabled : s.peEnabled = true) (hlow : 17 ≤ n)
    (hhigh : n ≤ 23) : exec (.peMonWindow n) s =
      .next (s.withSteeple { s.steeple with peBad := 0, peGoodSince := some (s.steeple.peGoodSince.getD s.now) }) := by
  change execPeMonWindow n s = _
  simp [execPeMonWindow, within, hup, henabled, hlow, hhigh]

/-- A bad window is counted, and the fourth in a row is decided. -/
theorem exec_peMonWindow_of_bad {n : Nat} {s : State} (hup : s.steepleUp = true) (henabled : s.peEnabled = true)
    (hbad : n < 17 ∨ 23 < n) : exec (.peMonWindow n) s =
      (let s1 := s.withSteeple { s.steeple with peBad := sat 4 (s.steeple.peBad + 1), peGoodSince := none }
       if s.steeple.peBad = 3 then .next (decideFault 0x0501 none [] false s1) else .next s1) := by
  have hout : within 17 23 n = false := decide_eq_false (by omega)
  change execPeMonWindow n s = _
  unfold execPeMonWindow
  rw [if_pos (by rw [hup, henabled]; rfl), if_neg (by simp [hout])]
  rfl

theorem exec_peMonWindow_of_bad_before_fourth (n : Nat) (s : State) (hup : s.steepleUp = true) (henabled : s.peEnabled = true)
    (hbad : n < 17 ∨ 23 < n) (hcount : s.steeple.peBad < 3) : exec (.peMonWindow n) s =
      .next (s.withSteeple { s.steeple with peBad := s.steeple.peBad + 1, peGoodSince := none }) := by
  rw [exec_peMonWindow_of_bad hup henabled hbad, sat_of_le (by omega)]
  exact if_neg (Nat.ne_of_lt hcount)

theorem exec_peMonWindow_of_fourth_bad (n : Nat) (s : State) (hup : s.steepleUp = true) (henabled : s.peEnabled = true)
    (hbad : n < 17 ∨ 23 < n) (hcount : s.steeple.peBad = 3) : exec (.peMonWindow n) s =
      .next (decideFault 0x0501 none [] false (s.withSteeple { s.steeple with peBad := 4, peGoodSince := none })) := by
  rw [exec_peMonWindow_of_bad hup henabled hbad, hcount]
  rfl

theorem exec_peMonWindow_of_disabled (n : Nat) (s : State) (hdisabled : s.peEnabled = false) :
    exec (.peMonWindow n) s = .next s := by
  change execPeMonWindow n s = _
  simp [execPeMonWindow, hdisabled]

/-! ## Emergency stop -/

theorem exec_estopTestPulse_of_followed (s : State) (hup : s.steepleUp = true) (henabled : s.estopEnabled = true)
    (hdue : s.steeple.estopTestAt + s.estopPeriod ≤ s.now) : exec (.estopTestPulse true true) s =
      .next (s.withSteeple { s.steeple with
        estopTestAt := s.now, estopFollowed := sat 3 (s.steeple.estopFollowed + 1) }) := by
  change execEstopTestPulse true true s = _
  simp [execEstopTestPulse, hup, henabled, due_of_le hdue]

theorem exec_estopTestPulse_of_failed (a b : Bool) (s : State) (hup : s.steepleUp = true) (henabled : s.estopEnabled = true)
    (hdue : s.steeple.estopTestAt + s.estopPeriod ≤ s.now) (hfailed : (a && b) = false) : exec (.estopTestPulse a b) s =
      .next (decideFault 0x0703 none [] false (s.withSteeple { s.steeple with estopTestAt := s.now, estopFollowed := 0 })) := by
  change execEstopTestPulse a b s = _
  simp [execEstopTestPulse, hup, henabled, due_of_le hdue, hfailed, fEstopTest]

/-- Leaving the closed position is decided whether or not the hub holds the fault already. -/
theorem exec_estopInputChange_of_opened (a b : Bool) (s : State) (hup : s.steepleUp = true) (henabled : s.estopEnabled = true)
    (hA : s.steeple.estopA = true) (hB : s.steeple.estopB = true) (hopen : (a && b) = false) :
    exec (.estopInputChange a b) s = .next (decideFault 0x0701 none [] false (noteEstop a b s)) := by
  change execEstopInputChange a b s = _
  simp [execEstopInputChange, hup, henabled, hA, hB, hopen, fEstop]

theorem exec_estopInputChange_of_closed (s : State) (hup : s.steepleUp = true) (henabled : s.estopEnabled = true) :
    exec (.estopInputChange true true) s = .next (noteEstop true true s) := by
  change execEstopInputChange true true s = _
  simp [execEstopInputChange, hup, henabled]

/-! ## Shunt trip -/

theorem exec_shuntTripPulseEnd_of_up (s : State) (hup : s.steepleUp = true) : exec .shuntTripPulseEnd s =
    .next (s.withSteeple { s.steeple with shunt := s.steeple.shunt.filterMap (shuntNext s) }) :=
  if_pos hup

theorem shuntNext_of_not_due (s : State) (h : Shunt) (hwait : s.now < h.until_) : shuntNext s h = some h := by
  simp [shuntNext, not_due_of_lt hwait]

theorem shuntNext_of_pulse_end (s : State) (h : Shunt) (hdue : h.until_ ≤ s.now) (hlow : h.low = true) :
    shuntNext s h = some { h with low := false, until_ := s.now + 1000 } := by
  simp [shuntNext, due_of_le hdue, hlow]

theorem shuntNext_of_still_present (s : State) (h : Shunt) (hdue : h.until_ ≤ s.now) (hhigh : h.low = false)
    (hovs : (s.lane h.port).ovs = true) (hfirst : h.repeated = false) :
    shuntNext s h = some ⟨h.port, true, s.now + 200, true⟩ := by
  simp [shuntNext, due_of_le hdue, hhigh, hovs, hfirst]

theorem shuntNext_of_check_over (s : State) (h : Shunt) (hdue : h.until_ ≤ s.now) (hhigh : h.low = false)
    (hover : (s.lane h.port).ovs = false ∨ h.repeated = true) : shuntNext s h = none := by
  have hstop : ((s.lane h.port).ovs && !h.repeated) = false := by
    rcases hover with hgone | htwice
    · simp [hgone]
    · simp [htwice]
  simp [shuntNext, due_of_le hdue, hhigh, hstop]

theorem pulseSht_of_enabled (s : State) (p : Port) (henabled : s.shtEnabled = true) :
    pulseSht p s = s.withSteeple { s.steeple with shunt := s.steeple.shunt ++ [⟨p, true, s.now + 200, false⟩] } :=
  if_pos henabled

/-- Settles O33: each clause is the lemma above on its row or operation. That a run of bad windows is decided once, at its fourth, is
the model's reading (log 60). -/
theorem hubInputs : Obligations.HubInputs := by
  unfold Obligations.HubInputs
  exact ⟨exec_peMonWindow_of_good, exec_peMonWindow_of_bad_before_fourth, exec_peMonWindow_of_fourth_bad,
    exec_peMonWindow_of_disabled, exec_estopTestPulse_of_followed, exec_estopTestPulse_of_failed,
    fun a b s hup henabled hA hB hopen => ⟨exec_estopInputChange_of_opened a b s hup henabled hA hB hopen, rfl, rfl⟩,
    exec_estopInputChange_of_closed, exec_shuntTripPulseEnd_of_up, shuntNext_of_not_due, shuntNext_of_pulse_end,
    shuntNext_of_still_present, shuntNext_of_check_over, pulseSht_of_enabled⟩

end Sys2Proof.Machine
end

section
/-! Requests to Steeple (R29, R30), staging and committing the safety parameters (R281 to R284, R299, R300), and the safety queries
(R274, R275, R298). -/

namespace Sys2Proof.Machine

/-! ## What posting and granting leave of Steeple -/

theorem unposted_steeple {s t : State} (h : s.unposted = t.unposted) : s.steeple = t.steeple := by
  have e := congrArg (fun u : State => u.steeple) h
  exact e

@[simp] theorem post_steeple (p : Option Port) (c : QContent) (s : State) : (post p c s).steeple = s.steeple :=
  unposted_steeple (post_unposted p c s)

@[simp] theorem postOutcome_steeple (number status : Nat) (result : List Byte) (s : State) :
    (postOutcome number status result s).steeple = s.steeple :=
  post_steeple ..

/-- A permit that is set or removed changes nothing else of Steeple. -/
theorem setPermit_steeple (p : Port) (v : Bool) (s : State) :
    (setPermit p v s).steeple = { s.steeple with permits := (setPermit p v s).steeple.permits } := by
  unfold setPermit
  split
  · rfl
  · rw [trace_steeple]
    rfl

theorem grantPermits_steeple (s : State) :
    (grantPermits s).steeple = { s.steeple with permits := (grantPermits s).steeple.permits } := by
  unfold grantPermits
  refine List.foldlRecOn (motive := fun t : State => t.steeple = { s.steeple with permits := t.steeple.permits }) allPorts _ rfl
    fun t ht p _ => ?_
  dsimp only
  split
  · exact (setPermit_steeple p true t).trans
      (congrArg (fun u : Steeple => { u with permits := (setPermit p true t).steeple.permits }) ht)
  · exact ht

/-! ## The request record -/

section
variable (kind : Nat) (data : List Byte) (r : Req) (s : State)

theorem askSteeple_of_silent (hsilent : s.rotunda.silent = true) : askSteeple kind data r s = refuse r stControlSilent s :=
  if_pos hsilent

theorem askSteeple_of_full (hheard : s.rotunda.silent = false) (hfull : s.recordFull = true) :
    askSteeple kind data r s = refuse r stBusy s := by
  simp [askSteeple, hheard, hfull]

/-- With room in the record the request waits for its outcome, and its entry is published beside those without theirs. -/
theorem askSteeple_of_room (hheard : s.rotunda.silent = false) (hroom : s.recordFull = false) : ∃ t, askSteeple kind data r s = t ∧
    t.rotunda.waiting = s.rotunda.waiting ++ [r.wait s.rotunda.nextRequest] ∧
    t.rotunda.nextRequest = w32 (s.rotunda.nextRequest + 1) ∧
    t.rotunda.published.record = s.rotunda.published.record.filter (fun e => !e.done) ++
      [⟨s.rotunda.nextRequest, kind, some r.box, r.seq, r.epoch, s.time, data, s.now, false, false⟩] ∧
    t.steeple = s.steeple := by
  refine ⟨_, rfl, ?_⟩
  simp [askSteeple, hheard, hroom, makeRequest, publish]

end

/-! ## The handlers once their checks pass, or one fails -/

section
variable {r : Req} {s : State}

theorem safetyParamStage_of_bytes (hlen : r.payload.length = 4 + field r.payload 2 1) (hhandle : r.handle = 0)
    (hop : field r.payload 0 1 = 0) (hsome : 1 ≤ field r.payload 2 1) (hoff : 1 ≤ field r.payload 1 1)
    (hend : field r.payload 1 1 + field r.payload 2 1 ≤ 124) :
    safetyParamStage r s =
      if !s.rotunda.silent && s.commitPublished then refuse r stBusy s else askSteeple 2 r.payload r s := by
  have hlen' : within 1 124 (field r.payload 2 1) = true := decide_eq_true ⟨hsome, by omega⟩
  have hoff' : field r.payload 1 1 ≠ 0 := by omega
  unfold safetyParamStage
  rw [withLength_of_length hlen, noHandle_of_zero hhandle, check_of_true (by simp [hop, hlen', hend, hoff'])]

theorem safetyCommit_of_length (hlen : r.payload.length = 8) (hhandle : r.handle = 0) :
    safetyCommit r s = askSteeple 3 (r.payload ++ s.proofBytes (field r.payload 4 4)) r s := by
  unfold safetyCommit
  rw [withLength_of_length hlen, noHandle_of_zero hhandle]

theorem safetyStatus_of_empty (hempty : r.payload = []) (hhandle : r.handle = 0) :
    safetyStatus r s = respond r stOk (s.safetyStatus s.committedCheck) s := by
  unfold safetyStatus
  rw [withLength_of_empty hempty, noHandle_of_zero hhandle]

theorem faultRecordRead_of_count (hlen : r.payload.length = 8) (hhandle : r.handle = 0) (hlow : 1 ≤ field r.payload 4 1)
    (hhigh : field r.payload 4 1 ≤ 14) :
    faultRecordRead r s = respond r stOk (s.faultRecords (field r.payload 0 4) (field r.payload 4 1)) s := by
  have hcount : within 1 14 (field r.payload 4 1) = true := decide_eq_true ⟨hlow, hhigh⟩
  unfold faultRecordRead
  rw [withLength_of_length hlen, noHandle_of_zero hhandle, check_of_true hcount]

theorem safetyParamRead_of_source (hlen : r.payload.length = 4) (hhandle : r.handle = 0) (hsource : field r.payload 0 1 ≤ 1) :
    safetyParamRead r s = respond r stOk (s.paramRead (field r.payload 0 1)) s := by
  unfold safetyParamRead
  rw [withLength_of_length hlen, noHandle_of_zero hhandle, check_of_true (decide_eq_true hsource)]

theorem safetyParamRead_of_range (hlen : r.payload.length = 4) (hhandle : r.handle = 0) (hsource : 2 ≤ field r.payload 0 1) :
    safetyParamRead r s = refuse r stParamRange s := by
  unfold safetyParamRead
  rw [withLength_of_length hlen, noHandle_of_zero hhandle, check_of_false (decide_eq_false (Nat.not_le.mpr hsource))]

end

/-! ## The rows -/

section
variable {b : Box} {f : Frame} {r : Req} {s : State}

theorem Asked.exec_safetyParamStage (h : Asked b 0x0805 f r s) :
    exec (.safetyParamStage b) s = .next (safetyParamStage r (taken b f s)) :=
  h.request safetyParamStage

theorem Asked.exec_safetyCommit (h : Asked b 0x0806 f r s) : exec (.safetyCommit b) s = .next (safetyCommit r (taken b f s)) :=
  h.request safetyCommit

theorem Asked.exec_safetyStatus (h : Asked b 0x0801 f r s) : exec (.safetyStatus b) s = .next (safetyStatus r (taken b f s)) :=
  h.request safetyStatus

theorem Asked.exec_faultRecordRead (h : Asked b 0x0802 f r s) :
    exec (.faultRecordRead b) s = .next (faultRecordRead r (taken b f s)) :=
  h.request faultRecordRead

theorem Asked.exec_safetyParamRead (h : Asked b 0x0804 f r s) :
    exec (.safetyParamRead b) s = .next (safetyParamRead r (taken b f s)) :=
  h.request safetyParamRead

end

/-! ## A staging reaches Steeple -/

theorem arriveStage_staged_of_bytes (e : RequestEntry) (s : State) (hop : field e.data 0 1 = 0) :
    (arriveStage e s).steeple.staged =
      blockOf (splice s.steeple.staged.bytes (field e.data 1 1) (slice e.data 4 (field e.data 2 1))) := by
  simp [arriveStage, hop]

theorem arriveStage_staged_of_committed (e : RequestEntry) (s : State) (hop : field e.data 0 1 = 1) :
    (arriveStage e s).steeple.staged = s.steeple.committed.getD SafetyBlock.defaults := by
  simp [arriveStage, hop]

/-! ## A commit reaches Steeple -/

theorem commitStep_of_committing (s : State) (data : List Byte) (hwriting : s.steeple.committing = true) :
    s.commitStep data = 1 := by
  simp [State.commitStep, hwriting]

/-- A spent proof fails step 2, where step 1 has not failed before. -/
theorem commitStep_ne_zero_of_spent (s : State) (data : List Byte) (hspent : s.proofSpent (field data 4 4) = true) :
    s.commitStep data ≠ 0 := by
  unfold State.commitStep
  split
  · decide
  · rw [if_pos (.inr (.inr hspent))]
    decide

/-- The block in force is the staged one, from now on, and its writing to MRAM is under way. -/
theorem putInForce_commits (s : State) : (putInForce s).steeple.committed = some s.steeple.staged ∧
    (putInForce s).steeple.commitTime = s.time ∧ (putInForce s).steeple.committing = true := by
  unfold putInForce
  dsimp only
  rw [grantPermits_steeple]
  split
  · exact ⟨rfl, rfl, rfl⟩
  · exact ⟨rfl, rfl, rfl⟩

theorem arriveCommit_of_passed (e : RequestEntry) (s : State) (hpassed : s.commitStep e.data = 0) :
    (arriveCommit e s).steeple.committed = some s.steeple.staged ∧ (arriveCommit e s).steeple.commitTime = s.time ∧
    (arriveCommit e s).steeple.committing = true := by
  unfold arriveCommit
  dsimp only
  rw [if_pos hpassed, if_pos (Or.inl hpassed), post_steeple, postOutcome_steeple]
  exact putInForce_commits (markProofUsed (field e.data 4 4) (useProof (field e.data 4 4) s))

/-- A commit that fails may still use its proof, and changes nothing else of Steeple. -/
theorem arriveCommit_steeple_of_failed (e : RequestEntry) (s : State) (hfailed : s.commitStep e.data ≠ 0) :
    (arriveCommit e s).steeple = { s.steeple with usedProofs := (arriveCommit e s).steeple.usedProofs } := by
  unfold arriveCommit
  dsimp only
  rw [if_neg hfailed, postOutcome_steeple]
  split
  · rfl
  · rfl

theorem arriveCommit_of_failed (e : RequestEntry) (s : State) (hfailed : s.commitStep e.data ≠ 0) :
    (arriveCommit e s).steeple.committed = s.steeple.committed ∧ (arriveCommit e s).steeple.permits = s.steeple.permits := by
  rw [arriveCommit_steeple_of_failed e s hfailed]
  exact ⟨rfl, rfl⟩

/-- Settles O38: each row runs its handler on the state that taking the request leaves; what reaches Steeple and what the request record
takes are the lemmas above. That staging is BUSY while a commit waits is the model's reading (log 71), as is what a failed commit does
with its proof and that a first staging starts from the defaults (log 72). -/
theorem safetyParameters : Obligations.SafetyParameters := by
  unfold Obligations.SafetyParameters
  refine ⟨?stage, ?busy, arriveStage_staged_of_bytes, arriveStage_staged_of_committed, ?commit, arriveCommit_of_passed,
    commitStep_of_committing, commitStep_ne_zero_of_spent, arriveCommit_of_failed, ?status, ?record, ?param, ?range,
    askSteeple_of_room, askSteeple_of_silent, askSteeple_of_full⟩
  case stage =>
    rintro b f r s h ⟨hlen, hhandle, hop, hsome, hoff, hend, hfree⟩
    rw [h.exec_safetyParamStage, safetyParamStage_of_bytes hlen hhandle hop hsome hoff hend, hfree, Bool.and_false]
    rfl
  case busy =>
    rintro b f r s h ⟨hlen, hhandle, hop, hsome, hoff, hend, hheard, hcommit⟩
    rw [h.exec_safetyParamStage, safetyParamStage_of_bytes hlen hhandle hop hsome hoff hend, hheard, hcommit]
    rfl
  case commit =>
    rintro b f r s h ⟨hlen, hhandle⟩
    rw [h.exec_safetyCommit, safetyCommit_of_length hlen hhandle]
  case status =>
    rintro b f r s h ⟨hempty, hhandle⟩
    rw [h.exec_safetyStatus, safetyStatus_of_empty hempty hhandle]
  case record =>
    rintro b f r s h ⟨hlen, hhandle, hlow, hhigh⟩
    rw [h.exec_faultRecordRead, faultRecordRead_of_count hlen hhandle hlow hhigh]
    rfl
  case param =>
    rintro b f r s h ⟨hlen, hhandle, hsource⟩
    rw [h.exec_safetyParamRead, safetyParamRead_of_source hlen hhandle hsource]
  case range =>
    rintro b f r s h ⟨hlen, hhandle, hsource⟩
    rw [h.exec_safetyParamRead, safetyParamRead_of_range hlen hhandle hsource]
    rfl

end Sys2Proof.Machine
end

section
/-! Billing time: TIME_GET and TIME_SET (R320, R323, R331, R332), the end of a slew (R320) and of a hold (R319). -/

namespace Sys2Proof.Machine

/-! ## What logging and completing a time change leave alone -/

section
variable (s : State)

@[simp] theorem logAppend_civil (time type origin : Nat) (uncertain rtc : Bool) (data : List Byte) :
    (logAppend time type origin uncertain rtc data s).civil = s.civil := by
  simp [logAppend]

@[simp] theorem logAppend_keep (time type origin : Nat) (uncertain rtc : Bool) (data : List Byte) :
    (logAppend time type origin uncertain rtc data s).keep = s.keep := by
  simp [logAppend]

@[simp] theorem keepLog_civil (type origin : Nat) (data : List Byte) : (keepLog type origin data s).civil = s.civil :=
  logAppend_civil ..

@[simp] theorem keepLog_keep (type origin : Nat) (data : List Byte) : (keepLog type origin data s).keep = s.keep :=
  logAppend_keep ..

@[simp] theorem timeLog_civil (box kind c0 b0 after : Nat) : (timeLog box kind c0 b0 after s).civil = s.civil := by
  unfold timeLog
  split
  · rfl
  · simp

@[simp] theorem timeLog_keep (box kind c0 b0 after : Nat) : (timeLog box kind c0 b0 after s).keep = s.keep := by
  unfold timeLog
  split
  · rfl
  · simp

@[simp] theorem finishTimeSet_civil (n : Nat) (w : Waiting) : (finishTimeSet n s w).civil = s.civil := by
  simp [finishTimeSet]

@[simp] theorem finishTimeSet_keep (n : Nat) (w : Waiting) : (finishTimeSet n s w).keep = s.keep := by
  simp [finishTimeSet]

end

theorem commitWrite_of_idle {s : State} (hidle : s.keep.writing = none) : commitWrite s = s := by
  simp [commitWrite, hidle]

/-! ## The kinds of a time change (R320) -/

section
variable {c t : Nat}

theorem timeKind_of_forward (h : c < t) : timeKind c t = 1 := by
  have hne : t ≠ c := by omega
  simp [timeKind, hne, h]

theorem timeKind_of_slew (hback : t < c) (hnear : c ≤ t + 2000) : timeKind c t = 2 := by
  have hne : t ≠ c := by omega
  have hforward : ¬ c < t := by omega
  simp [timeKind, hne, hforward, hnear]

theorem timeKind_of_back (hfar : t + 2000 < c) (hhour : c ≤ t + 3600000) : timeKind c t = 3 := by
  have hne : t ≠ c := by omega
  have hforward : ¬ c < t := by omega
  simp [timeKind, hne, hforward, hfar, hhour]

theorem timeKind_of_largeBack (hhour : t + 3600000 < c) : timeKind c t = 4 := by
  have hne : t ≠ c := by omega
  have hforward : ¬ c < t := by omega
  have hfar : ¬ c ≤ t + 2000 := by omega
  simp [timeKind, hne, hforward, hfar, hhour]

end

/-! ## A time change -/

/-- Accepting the request and noting the RTC's clock come before the change and do not alter what it does. -/
theorem changeTime_accept (kind t : Nat) (r : Req) (rc : Bool) (s : State) :
    let u := changeTime kind t ((accept r s).withPower { s.power with rcTime := rc })
    u.civil = (changeTime kind t s).civil ∧ u.keep = (changeTime kind t s).keep := by
  by_cases hforward : kind = 1
  · simp [changeTime, hforward]
  · by_cases hslew : kind = 2
    · simp [changeTime, hslew]
    · by_cases hback : kind = 3 ∨ kind = 4
      · simp [changeTime, hforward, hslew, hback]
      · simp [changeTime, hforward, hslew, hback]

/-- The request completes at once, or waits for the boundaries it causes: nothing but the requests that wait changes in the Keep. -/
theorem finishTimeSet_or_wait (causes : Prop) [Decidable causes] (w : Waiting) {s u : State} (hcivil : u.civil = s.civil)
    (hkeep : u.keep = s.keep) :
    let v := if causes then u.withKeep { u.keep with waiting := u.keep.waiting ++ [w] } else finishTimeSet 0 u w
    v.civil = s.civil ∧ v.keep = { s.keep with waiting := v.keep.waiting } := by
  by_cases h : causes
  · simp [h, hcivil, hkeep]
  · simp [h, hcivil, hkeep]

theorem changeTime_back {kind t : Nat} {s : State} (hkind : kind = 3 ∨ kind = 4) :
    (changeTime kind t s).civil = t ∧ (changeTime kind t s).keep.billing = s.keep.billing := by
  rcases hkind with rfl | rfl <;> exact ⟨rfl, rfl⟩

/-! ## The handlers -/

theorem timeGet_of_empty {r : Req} {s : State} (hempty : r.payload = []) (hhandle : r.handle = 0) (hup : s.keepUp = true) :
    timeGet r s = respond r stOk s.timeBody s := by
  unfold timeGet
  rw [withLength_of_empty hempty, noHandle_of_zero hhandle, keepServes_of_up hup]

section
variable {r : Req} {s : State} (hlen : r.payload.length = 8) (hhandle : r.handle = 0) (hup : s.keepUp = true)
  (hidle : s.keep.writing = none)
include hlen hhandle hup hidle

theorem timeSet_of_denied (hhour : field r.payload 0 6 + 3600000 < s.time) (hflag : field r.payload 6 1 = 0) :
    timeSet r s = refuse r stTimeStepDenied s := by
  unfold timeSet
  dsimp only
  rw [withLength_of_length hlen, noHandle_of_zero hhandle, keepServes_of_up hup, commitWrite_of_idle hidle,
    if_pos ⟨timeKind_of_largeBack hhour, hflag⟩]

theorem timeSet_of_granted (hgranted : ¬ (timeKind s.time (field r.payload 0 6) = 4 ∧ field r.payload 6 1 = 0)) :
    let u := changeTime (timeKind s.time (field r.payload 0 6)) (field r.payload 0 6) s
    (timeSet r s).civil = u.civil ∧ (timeSet r s).keep = { u.keep with waiting := (timeSet r s).keep.waiting } := by
  obtain ⟨hcivil, hkeep⟩ := changeTime_accept (timeKind s.time (field r.payload 0 6)) (field r.payload 0 6) r
    (s.power.lostClocks.contains .cd0) s
  unfold timeSet
  dsimp only
  rw [withLength_of_length hlen, noHandle_of_zero hhandle, keepServes_of_up hup, commitWrite_of_idle hidle, if_neg hgranted]
  exact finishTimeSet_or_wait _ _ ((timeLog_civil ..).trans hcivil) ((timeLog_keep ..).trans hkeep)

theorem timeSet_of_forward (hforward : s.time < field r.payload 0 6) :
    (timeSet r s).civil = field r.payload 0 6 ∧ (timeSet r s).keep.billing = max s.keep.billing (field r.payload 0 6) ∧
    (timeSet r s).keep.slewLeft = 0 ∧ (timeSet r s).keep.lastSet = field r.payload 0 6 := by
  have hkind := timeKind_of_forward hforward
  obtain ⟨hcivil, hkeep⟩ := timeSet_of_granted hlen hhandle hup hidle (by simp [hkind])
  rw [hcivil, hkeep, hkind]
  exact ⟨rfl, rfl, rfl, rfl⟩

theorem timeSet_of_slew (hback : field r.payload 0 6 < s.time) (hnear : s.time ≤ field r.payload 0 6 + 2000) :
    (timeSet r s).civil = s.civil ∧ (timeSet r s).keep.billing = s.keep.billing ∧
    (timeSet r s).keep.slewLeft = (s.civil - field r.payload 0 6) * 1000 := by
  have hkind := timeKind_of_slew hback hnear
  obtain ⟨hcivil, hkeep⟩ := timeSet_of_granted hlen hhandle hup hidle (by simp [hkind])
  rw [hcivil, hkeep, hkind]
  exact ⟨rfl, rfl, rfl⟩

theorem timeSet_of_back (hfar : field r.payload 0 6 + 2000 < s.time)
    (hallowed : s.time ≤ field r.payload 0 6 + 3600000 ∨ field r.payload 6 1 ≠ 0) :
    (timeSet r s).civil = field r.payload 0 6 ∧ (timeSet r s).keep.billing = s.keep.billing := by
  have hkind : timeKind s.time (field r.payload 0 6) = 3 ∨
      timeKind s.time (field r.payload 0 6) = 4 ∧ field r.payload 6 1 ≠ 0 := by
    by_cases hhour : s.time ≤ field r.payload 0 6 + 3600000
    · exact .inl (timeKind_of_back hfar hhour)
    · exact .inr ⟨timeKind_of_largeBack (by omega), hallowed.resolve_left hhour⟩
  obtain ⟨hcivil, hkeep⟩ := timeSet_of_granted hlen hhandle hup hidle (by omega)
  rw [hcivil, hkeep]
  exact changeTime_back (hkind.imp_right And.left)

end

/-! ## The rows -/

section
variable {b : Box} {f : Frame} {r : Req} {s : State}

theorem Asked.exec_timeGet (h : Asked b 0x0111 f r s) : exec (.timeGet b) s = .next (timeGet r (taken b f s)) :=
  h.request timeGet

theorem Asked.exec_timeSet (h : Asked b 0x0112 f r s) : exec (.timeSet b) s = .next (timeSet r (taken b f s)) :=
  h.request timeSet

theorem exec_slewComplete_of_absorbed (haon : s.aon = true) (habsorbed : s.keep.slewLeft = 0) :
    exec .slewComplete s = .next (s.withKeep { s.keep with slewLeft := 0, slewPart := 0 }) := by
  change execSlewComplete s = _
  simp [execSlewComplete, haon, habsorbed]

theorem exec_holdEnd_of_reached (haon : s.aon = true) (hreached : s.keep.billing ≤ s.civil) :
    exec .holdEnd s = .next (s.withKeep { s.keep with billing := w48 s.civil }) := by
  change execHoldEnd s = _
  simp [execHoldEnd, State.inHold, haon, hreached]

end

/-- Settles O15: each row runs its handler on the state that taking the request leaves, whose times are those before it; the kind of
R320 decides what TIME_SET does to them. That last_set is civil time after the step, and slew_left is rounded down, is the model's
reading (log 96). -/
theorem timeCommands : Obligations.TimeCommands := by
  unfold Obligations.TimeCommands
  refine ⟨?get, ?forward, ?slew, ?back, ?denied, fun _ => exec_slewComplete_of_absorbed, fun _ => exec_holdEnd_of_reached⟩
  case get =>
    rintro b f r s h ⟨hempty, hhandle, hup⟩
    rw [h.exec_timeGet, timeGet_of_empty hempty hhandle hup]
    rfl
  case forward =>
    intro b f r s h hlen hhandle hup hidle hforward
    refine ⟨_, h.exec_timeSet, ?_⟩
    simpa using timeSet_of_forward (s := taken b f s) hlen hhandle (by simpa) (by simpa) (by simpa)
  case slew =>
    intro b f r s h hlen hhandle hup hidle hback hnear
    refine ⟨_, h.exec_timeSet, ?_⟩
    simpa using timeSet_of_slew (s := taken b f s) hlen hhandle (by simpa) (by simpa) (by simpa) (by simpa)
  case back =>
    intro b f r s h hlen hhandle hup hidle hfar hallowed
    refine ⟨_, h.exec_timeSet, ?_⟩
    simpa using timeSet_of_back (s := taken b f s) hlen hhandle (by simpa) (by simpa) (by simpa) (by simpa)
  case denied =>
    rintro b f r s h ⟨hlen, hhandle, hup, hidle, hhour, hflag⟩
    rw [h.exec_timeSet, timeSet_of_denied hlen hhandle hup hidle hhour hflag]
    rfl

end Sys2Proof.Machine
end

section
/-! The legal log and the certificates: LEGAL_LOG_READ (R359), CERT_READ (R360), and the log's next entry (R353). -/

namespace Sys2Proof.Machine

/-! ## The handlers once their checks pass -/

section
variable {r : Req} {s : State}

theorem legalLogRead_of_count (hlen : r.payload.length = 8) (hhandle : r.handle = 0) (hlow : 1 ≤ field r.payload 4 1)
    (hhigh : field r.payload 4 1 ≤ 14) (hup : s.keepUp = true) :
    legalLogRead r s =
      let es := (s.legal.log.filter (fun e => decide (field r.payload 0 4 ≤ e.index))).take (field r.payload 4 1)
      respond r stOk (le 1 es.length ++ zeros 3 ++ le 4 (s.legal.nextIndex - 1) ++ le 4 (s.legal.log.head?.elim 0 (·.index))
        ++ es.flatMap LogEntry.bytes) s := by
  have hcount : within 1 14 (field r.payload 4 1) = true := decide_eq_true ⟨hlow, hhigh⟩
  unfold legalLogRead
  rw [withLength_of_length hlen, noHandle_of_zero hhandle, check_of_true hcount, keepServes_of_up hup]

theorem certRead_of_cert (hlen : r.payload.length = 4) (hhandle : r.handle = 0) (hcert : field r.payload 0 1 ≤ 2)
    (hkeys : s.cupola.zeroized = false) :
    certRead r s =
      let der := s.legal.certs.getD (field r.payload 0 1) []
      let data := slice der (field r.payload 2 2) 448
      respond r stOk (le 2 der.length ++ le 2 (field r.payload 2 2) ++ le 2 data.length ++ [0, 0] ++ data) s := by
  unfold certRead
  rw [withLength_of_length hlen, noHandle_of_zero hhandle, check_of_true (decide_eq_true hcert), hkeys,
    if_neg Bool.false_ne_true]

end

/-! ## The rows -/

section
variable {b : Box} {f : Frame} {r : Req} {s : State}

theorem Asked.exec_legalLogRead (h : Asked b 0x0507 f r s) :
    exec (.legalLogRead b) s = .next (legalLogRead r (taken b f s)) :=
  h.request legalLogRead

theorem Asked.exec_certRead (h : Asked b 0x0508 f r s) : exec (.certRead b) s = .next (certRead r (taken b f s)) :=
  h.request certRead

end

/-! ## An entry joins the log -/

/-- The entry takes the next index, and its event changes nothing else of the Legal region. -/
theorem logAppend_legal (time type origin : Nat) (uncertain rtc : Bool) (data : List Byte) (s : State) :
    (logAppend time type origin uncertain rtc data s).legal =
      { s.legal with
        log := ringPush 1024 s.legal.log ⟨s.legal.nextIndex, time, type, origin, uncertain, rtc, data⟩
        nextIndex := w32 (s.legal.nextIndex + 1) } := by
  unfold logAppend
  rw [raise_legal, withLegal_legal]

theorem logAppend_log (time type origin : Nat) (uncertain rtc : Bool) (data : List Byte) (s : State) :
    (logAppend time type origin uncertain rtc data s).legal.log =
      ringPush 1024 s.legal.log ⟨s.legal.nextIndex, time, type, origin, uncertain, rtc, data⟩ := by
  rw [logAppend_legal]

theorem logAppend_nextIndex (time type origin : Nat) (uncertain rtc : Bool) (data : List Byte) (s : State) :
    (logAppend time type origin uncertain rtc data s).legal.nextIndex = w32 (s.legal.nextIndex + 1) := by
  rw [logAppend_legal]

/-- Settles O23: each row runs its handler on the state that taking the request leaves, where every check of the handler passes; what
an entry does to the log and its index are the two lemmas above. -/
theorem legalReads : Obligations.LegalReads := by
  unfold Obligations.LegalReads
  refine ⟨?log, ?cert, ?entry⟩
  case log =>
    rintro b f r s h ⟨hlen, hhandle, hlow, hhigh, hup⟩
    rw [h.exec_legalLogRead, legalLogRead_of_count hlen hhandle hlow hhigh hup]
  case cert =>
    rintro b f r s h ⟨hlen, hhandle, hcert, hkeys⟩
    rw [h.exec_certRead, certRead_of_cert hlen hhandle hcert hkeys]
  case entry =>
    intro time type origin uncertain rtc data s
    exact ⟨_, logAppend_log .., rfl, logAppend_nextIndex ..⟩

end Sys2Proof.Machine
end

section
/-! The powerline commands: the checks of R396, and the status, neighbours, sends, pairing windows, routes, tone maps and removals of
R398 to R403. -/

namespace Sys2Proof.Machine

/-! ## What taking a request leaves alone, and the checks passed -/

@[simp] theorem taken_nodeOf (b : Box) (f : Frame) (s : State) (a : Nat) : (taken b f s).nodeOf a = s.nodeOf a := by
  simp [State.nodeOf]

theorem neighbour?_of_body {c : Channel} {x : NeighbourBody} (hbody : c.body = .neighbour x) : c.neighbour? = some x := by
  simp [Channel.neighbour?, hbody]

section
variable {r : Req} {s : State} {k : State → State}

theorem needs_of_up {c : Clock} (hup : s.up c = true) : needs c r k s = k s := check_of_true hup

theorem within_of_le {lo hi v : Nat} (hlow : lo ≤ v) (hhigh : v ≤ hi) : within lo hi v = true := decide_eq_true ⟨hlow, hhigh⟩

end

/-! ## The handlers once their checks pass, or one fails -/

section
variable {r : Req} {s : State}

theorem plcStatus_of_empty (hempty : r.payload = []) (hhandle : r.handle = 0) (hup : s.up .cd8 = true) :
    plcStatus r s = respond r stOk s.plcStatus s.draw := by
  unfold plcStatus
  rw [withLength_of_empty hempty, noHandle_of_zero hhandle, needs_of_up hup]

theorem plcNeighbours_of_kept (hlen : r.payload.length = 4) (hhandle : r.handle = 0) (hlow : 1 ≤ field r.payload 1 1)
    (hhigh : field r.payload 1 1 ≤ 24) (hkept : s.rotunda.rebuilding = []) :
    plcNeighbours r s =
      let x := s.neighboursFrom (field r.payload 1 1) ((List.range 256).drop (field r.payload 0 1))
      respond r stOk (le 1 x.1.length ++ le 1 x.2 ++ [0, 0] ++ x.1.flatten) s := by
  unfold plcNeighbours
  rw [withLength_of_length hlen, noHandle_of_zero hhandle, check_of_true (within_of_le hlow hhigh), hkept]
  rfl

theorem plcSend_of_node (hshort : 9 ≤ r.payload.length) (hlong : r.payload.length ≤ 402) (hhandle : r.handle = 0)
    (hmay : s.maySend r = true) (hfirst : 1 ≤ field r.payload 0 2) (hlast : field r.payload 0 2 ≤ 0xFA)
    (hprio : within 1 2 (field r.payload 2 1) = true) (hband : field r.payload 3 1 ≤ 2)
    (htype : within 0x10 0x1F (field r.payload 4 1) = true) (hup : s.up .cd8 = true)
    (hnode : (s.nodeOf (field r.payload 0 2)).isSome = true) :
    plcSend r s = dispatch { plcMessage (field r.payload 4 1) (field r.payload 2 1) (field r.payload 0 2) .network
      (r.payload.drop 8) (.host r.wait 0) with prefer := field r.payload 3 1 } (accept r s) := by
  have hrange : ((within 0x0001 0x00FA (field r.payload 0 2) || field r.payload 0 2 == 0xFFFF) && within 1 2 (field r.payload 2 1)
      && decide (field r.payload 3 1 ≤ 2) && within 0x10 0x1F (field r.payload 4 1)) = true := by
    simp [within_of_le hfirst hlast, hprio, hband, htype]
  have hknown : ¬ (field r.payload 0 2 ≠ 0xFFFF ∧ (s.nodeOf (field r.payload 0 2)).isNone = true) := by
    simp [Option.isSome_iff_ne_none.mp hnode]
  unfold plcSend
  dsimp only
  rw [withLength, if_pos (within_of_le hshort hlong), noHandle_of_zero hhandle, check_of_true hmay, check_of_true hrange,
    needs_of_up hup, if_neg hknown]

theorem plcSend_of_denied (hshort : 9 ≤ r.payload.length) (hlong : r.payload.length ≤ 402) (hhandle : r.handle = 0)
    (hdenied : s.maySend r = false) : plcSend r s = refuse r stRoleDenied s := by
  unfold plcSend
  dsimp only
  rw [withLength, if_pos (within_of_le hshort hlong), noHandle_of_zero hhandle, check_of_false hdenied]

theorem plcPairingOpen_of_proof (hlen : r.payload.length = 8 + 24 * field r.payload 2 1) (hhandle : r.handle = 0)
    (hshort : 60 ≤ field r.payload 0 2) (hlong : field r.payload 0 2 ≤ 600) (hsome : 1 ≤ field r.payload 2 1)
    (hfew : field r.payload 2 1 ≤ 4) (hup : s.up .cd8 = true) (hproof : s.installerProof (field r.payload 4 4) = true) :
    plcPairingOpen r s = acceptDone r stOk (pairingState true (field r.payload 0 2))
      (raisePairing true 0 (markProofUsed (field r.payload 4 4) (s.withBelfry { s.belfry with
        pairing := some ⟨s.now + field r.payload 0 2 * 1000, pairingNodes r.payload (field r.payload 2 1), 0, 0⟩ }))) := by
  have hlength : (decide (8 ≤ r.payload.length) && r.payload.length == 8 + 24 * field r.payload 2 1
      && decide (field r.payload 2 1 ≤ 4)) = true := by
    simp [hlen, hfew]
  have hopen : field r.payload 0 2 ≠ 0 := by omega
  unfold plcPairingOpen
  dsimp only
  rw [withLength, if_pos hlength, noHandle_of_zero hhandle,
    check_of_true (by simp [within_of_le hshort hlong, within_of_le hsome hfew]), needs_of_up hup, if_neg hopen,
    check_of_true hproof]

theorem plcRouteRead_of_count (hlen : r.payload.length = 4) (hhandle : r.handle = 0) (hlow : 1 ≤ field r.payload 1 1)
    (hhigh : field r.payload 1 1 ≤ 24) (hup : s.up .cd8 = true) :
    plcRouteRead r s =
      let es := (s.belfry.routes.drop (field r.payload 0 1)).take (field r.payload 1 1)
      respond r stOk (le 1 es.length ++ le 1 s.belfry.routes.length ++ [0, 0] ++ es.flatMap routeEntry) s := by
  unfold plcRouteRead
  rw [withLength_of_length hlen, noHandle_of_zero hhandle, check_of_true (within_of_le hlow hhigh), needs_of_up hup]

theorem plcTonemapRead_of_neighbour {c : Channel} {x : NeighbourBody} (hlen : r.payload.length = 4) (hhandle : r.handle ≠ 0)
    (hcurrent : s.current r.handle = true) (hchannel : s.channelOf r.handle = some c) (hbody : c.body = .neighbour x)
    (hband : field r.payload 0 1 ≤ 1) (hdir : field r.payload 1 1 ≤ 1)
    (hindex : field r.payload 2 1 ≤ 3 ∨ field r.payload 2 1 = 0xFF) (hup : s.up .cd8 = true)
    (hkept : handleSlot r.handle ∉ s.rotunda.rebuilding) :
    plcTonemapRead r s =
      let d : Band := if field r.payload 0 1 = 0 then .low else .upper
      let v := (x.dir d (if field r.payload 1 1 = 0 then .send else .receive)).view d (field r.payload 2 1) s.now
      respond r stOk (r.payload.take 3 ++ le 1 v.1.rate ++ le 1 v.2.1 ++ [0] ++ le 2 v.2.2 ++ le 2 (mapActive d v.1)
        ++ le 2 (mapSymbolBits d v.1) ++ v.1.carriers) s := by
  have hneighbour : (s.channelOf r.handle).bind (·.neighbour?) = some x := by
    simp [hchannel, neighbour?_of_body hbody]
  unfold plcTonemapRead
  dsimp only
  rw [withLength_of_length hlen, check_of_true (by simpa using hhandle), check_of_true hcurrent,
    check_of_true (by simp [hchannel, neighbour?_of_body hbody]), check_of_true (by simp [hband, hdir, hindex]),
    needs_of_up hup, hneighbour]
  exact intact_of_kept hkept

theorem plcNodeRemove_of_node {n : Node} (hlen : r.payload.length = 4) (hhandle : r.handle = 0)
    (hnode : s.nodeOf (field r.payload 0 2) = some n) (hup : s.up .cd8 = true) :
    plcNodeRemove r s = dispatch (plcMessage 0x7C 1 (field r.payload 0 2) .network (fit 8 n.eui) (.leave r.wait n.eui))
      ((accept r s).withBelfry { s.belfry with joins := s.belfry.joins.filter (fun j => j.eui != n.eui) }) := by
  unfold plcNodeRemove
  dsimp only
  rw [withLength_of_length hlen, noHandle_of_zero hhandle, check_of_true (by simp [hnode]), needs_of_up hup, hnode]
  simp only [accept_belfry]

end

/-! ## The rows -/

section
variable {b : Box} {f : Frame} {r : Req} {s : State}

theorem Asked.exec_plcStatus (h : Asked b 0x0601 f r s) : exec (.plcStatus b) s = .next (plcStatus r (taken b f s)) :=
  h.request plcStatus

theorem Asked.exec_plcNeighbours (h : Asked b 0x0602 f r s) :
    exec (.plcNeighbours b) s = .next (plcNeighbours r (taken b f s)) :=
  h.request plcNeighbours

theorem Asked.exec_plcSend (h : Asked b 0x0603 f r s) : exec (.plcSend b) s = .next (plcSend r (taken b f s)) :=
  h.request plcSend

theorem Asked.exec_plcPairingOpen (h : Asked b 0x0604 f r s) :
    exec (.plcPairingOpen b) s = .next (plcPairingOpen r (taken b f s)) :=
  h.request plcPairingOpen

theorem Asked.exec_plcRouteRead (h : Asked b 0x0605 f r s) :
    exec (.plcRouteRead b) s = .next (plcRouteRead r (taken b f s)) :=
  h.request plcRouteRead

theorem Asked.exec_plcTonemapRead (h : Asked b 0x0606 f r s) :
    exec (.plcTonemapRead b) s = .next (plcTonemapRead r (taken b f s)) :=
  h.request plcTonemapRead

theorem Asked.exec_plcNodeRemove (h : Asked b 0x0607 f r s) :
    exec (.plcNodeRemove b) s = .next (plcNodeRemove r (taken b f s)) :=
  h.request plcNodeRemove

end

/-- Settles O47: each row runs its handler on the state that taking the request leaves, where every check of the handler passes (or, for
the fourth clause, the one on the role fails). That an ENERGY host may not send to a node not known is the model's reading of R396
(log 112), as are the robust mode shown as a map and the age of a map counted from its update (log 111); the noise floors of PLC_STATUS
are free values (log 49). -/
theorem plcCommands : Obligations.PlcCommands := by
  unfold Obligations.PlcCommands
  refine ⟨?status, ?neighbours, ?send, ?denied, ?pairing, ?routes, ?toneMap, ?remove⟩
  case status =>
    intro b f r s h hempty hhandle hup
    rw [h.exec_plcStatus, plcStatus_of_empty hempty hhandle (by simpa)]
  case neighbours =>
    rintro b f r s h ⟨hlen, hhandle, hlow, hhigh, hkept⟩
    rw [h.exec_plcNeighbours, plcNeighbours_of_kept hlen hhandle hlow hhigh hkept]
  case send =>
    rintro b f r s h ⟨hshort, hlong, hhandle, hmay, hfirst, hlast, hleast, hmost, hband, htypeLow, htypeHigh, hup, hnode⟩
    rw [h.exec_plcSend, plcSend_of_node hshort hlong hhandle hmay hfirst hlast (within_of_le hleast hmost) hband
      (within_of_le htypeLow htypeHigh) hup hnode]
  case denied =>
    rintro b f r s h ⟨hshort, hlong, hhandle, hdenied⟩
    rw [h.exec_plcSend, plcSend_of_denied hshort hlong hhandle hdenied]
    rfl
  case pairing =>
    rintro b f r s h ⟨hlen, hhandle, hshort, hlong, hsome, hfew, hup, hproof⟩
    rw [h.exec_plcPairingOpen, plcPairingOpen_of_proof hlen hhandle hshort hlong hsome hfew hup hproof]
  case routes =>
    rintro b f r s h ⟨hlen, hhandle, hlow, hhigh, hup⟩
    rw [h.exec_plcRouteRead, plcRouteRead_of_count hlen hhandle hlow hhigh hup]
    rfl
  case toneMap =>
    intro b f r s c x h hlen hhandle hcurrent hchannel hbody hband hdir hindex hup hkept
    rw [h.exec_plcTonemapRead, plcTonemapRead_of_neighbour hlen hhandle hcurrent hchannel hbody hband hdir hindex (by simpa)
      (by simpa), taken_now]
  case remove =>
    intro b f r s n h hlen hhandle hnode hup
    rw [h.exec_plcNodeRemove, plcNodeRemove_of_node hlen hhandle (by simpa) (by simpa)]
    refine ⟨_, rfl, ?_, ?_⟩ <;> simp

end Sys2Proof.Machine
end

section
/-! The reader's commands: READER_STATUS (R433), the keytag transactions made (R432, R434 to R436), the authorisation list (R437) and
BIND_PORT (R428, R438). -/

namespace Sys2Proof.Machine

/-! ## What making a channel and taking a request leave alone -/

theorem antenna_of_oculus {s t : State} (h : t.oculus = s.oculus) (a : Fin 2) : t.antenna a = s.antenna a := by
  simp [State.antenna, h]

@[simp] theorem logError_oculus (i : Fin 8) (kind offset requester cnt time : Nat) (counted : Bool) (s : State) :
    (logError i kind offset requester cnt time counted s).oculus = s.oculus := by
  unfold logError
  dsimp only
  split
  · rw [raise_oculus, withMemory_oculus]
  · rw [withMemory_oculus]

@[simp] theorem clearPoison_oculus (slot : Nat) (s : State) : (clearPoison slot s).oculus = s.oculus := by
  unfold clearPoison
  dsimp only
  exact List.foldlRecOn (motive := fun t : State => t.oculus = s.oculus) _ _ rfl (fun t ht _ _ => (logError_oculus ..).trans ht)

theorem createChannel_oculus {body : Body} {owner : Option Box} {role h : Nat} {s t : State}
    (hcreated : createChannel body owner role s = some (h, t)) : t.oculus = s.oculus := by
  unfold createChannel at hcreated
  split at hcreated
  · cases hcreated
  · split at hcreated
    · cases hcreated
    · cases hcreated
      simp [State.addChannel]

theorem unlinked_applied {s t : State} (h : s.unlinked = t.unlinked) : s.rotunda.applied = t.rotunda.applied := by
  have e := congrArg (fun u : State => u.rotunda.applied) h
  exact e

@[simp] theorem taken_cfg (b : Box) (f : Frame) (s : State) (fld index : Nat) : (taken b f s).cfg fld index = s.cfg fld index := by
  simp [State.cfg, unlinked_applied (taken_unlinked s b f)]

@[simp] theorem taken_portSession (b : Box) (f : Frame) (s : State) (p : Port) : (taken b f s).portSession p = s.portSession p := by
  simp [State.portSession, State.channelOf]

@[simp] theorem taken_isTapCandidate (b : Box) (f : Frame) (s : State) (a : Fin 2) (uid : List Byte) (time : Nat) (p : Port) :
    (taken b f s).isTapCandidate a uid time p = s.isTapCandidate a uid time p := by
  simp [State.isTapCandidate]

theorem portOf_lt {n : Nat} {p : Port} (hport : portOf n = some p) : n < 24 := by
  unfold portOf at hport
  split at hport
  · assumption
  · cases hport

/-! ## A transaction made (R432) -/

section
variable {r : Req} {s : State} {op wait : Nat} {uid : List Byte} {a : Fin 2}

theorem startTxn_of_txn {x : Channel × TxnBody} (htxn : s.txnOn a = some x) :
    startTxn r op wait uid a s = refuse r stBusy s := by
  simp [startTxn, htxn]

/-- Without a presentation on the antenna, and with time to wait, the transaction stands when its handle has been given. -/
theorem startTxn_of_no_presentation {h : Nat} {t : State} (hfree : s.txnOn a = none)
    (habsent : (s.antenna a).presentation = none) (hwait : wait ≠ 0)
    (hcreated : createChannel (.txn ⟨a, op, 0, false, uid, w48 (s.civil + wait * 1000), s.now + wait * 1000, 0, r.box, r.seq,
      r.opcode, r.epoch, r.payload⟩) (some r.box) r.role s = some (h, t)) :
    startTxn r op wait uid a s = (respond r stAccepted (le 4 h) t).modBox r.box (fun m => { m with owed := m.owed + 1 }) := by
  have hstill : (((respond r stAccepted (le 4 h) t).modBox r.box (fun m => { m with owed := m.owed + 1 })).antenna a).presentation
      = none := by
    rw [antenna_of_oculus (s := s) (by simp [createChannel_oculus hcreated]), habsent]
  unfold startTxn
  rw [hfree, if_neg (by simp)]
  dsimp only
  rw [hcreated]
  dsimp only
  rw [hstill, Option.bind_none]
  exact if_neg hwait

/-- The checks that the transactions share, passed. -/
theorem withTxn_of_range {ok : Bool} {uidLens : List Nat} (hhandle : r.handle = 0) (hantenna : field r.payload 0 1 ≤ 1)
    (hwait : field r.payload 1 1 ≤ 120) (huid : op = 3 ∨ field r.payload 2 1 ∈ uidLens) (hok : ok = true)
    (hon : bit (s.cfg 0x0602 0) (field r.payload 0 1) = true) (hup : s.up .cd9 = true) :
    withTxn ok uidLens r op s = startTxn r op (field r.payload 1 1)
      (if op = 3 then [] else slice r.payload 4 (field r.payload 2 1)) (if field r.payload 0 1 = 0 then 0 else 1) s := by
  have huidOk : (op == 3 || uidLens.contains (if op = 3 then 0 else field r.payload 2 1)) = true := by
    by_cases hop : op = 3
    · simp [hop]
    · simp [hop, huid.resolve_left hop]
  unfold withTxn
  rw [noHandle_of_zero hhandle, check_of_true (by rw [huidOk, hok, hon]; simp [hantenna, hwait]), needs_of_up hup]
  split <;> rfl

end

/-! ## The handlers once their checks pass -/

section
variable {r : Req} {s : State}

theorem readerStatus_of_empty (hempty : r.payload = []) (hhandle : r.handle = 0) (hup : s.up .cd9 = true) :
    readerStatus r s = respond r stOk s.readerStatus s := by
  unfold readerStatus
  rw [withLength_of_empty hempty, noHandle_of_zero hhandle, needs_of_up hup]

/-- Any keytag on antenna 0. -/
theorem tagRead_of_blocks (hlen : r.payload.length = 16) (hhandle : r.handle = 0) (hantenna : field r.payload 0 1 = 0)
    (hwait : field r.payload 1 1 ≤ 120) (huid : field r.payload 2 1 = 0)
    (hend : field r.payload 3 1 + field r.payload 14 1 ≤ 64) (hlow : 1 ≤ field r.payload 14 1) (hhigh : field r.payload 14 1 ≤ 8)
    (hon : bit (s.cfg 0x0602 0) 0 = true) (hup : s.up .cd9 = true) :
    tagRead r s = startTxn r 1 (field r.payload 1 1) [] 0 s := by
  have hblocks : (within 1 8 (field r.payload 14 1)
      && decide (field r.payload 3 1 ≤ 63 ∧ field r.payload 3 1 + field r.payload 14 1 ≤ 64)) = true := by
    rw [within_of_le hlow hhigh, Bool.true_and, decide_eq_true_iff]
    omega
  unfold tagRead
  rw [withLength_of_length hlen, withTxn_of_range hhandle (by omega) hwait (.inr (by simp [huid])) hblocks (by rwa [hantenna]) hup,
    huid, hantenna]
  rfl

/-- The keytag of a 7-byte UID on antenna 1. -/
theorem tagWrite_of_entries (hlen : r.payload.length = 16 + 36 * field r.payload 3 1) (hhandle : r.handle = 0)
    (hantenna : field r.payload 0 1 = 1) (hwait : field r.payload 1 1 ≤ 120) (huid : field r.payload 2 1 = 7)
    (hlow : 1 ≤ field r.payload 3 1) (hhigh : field r.payload 3 1 ≤ 4)
    (hblocks : ∀ e ∈ writeEntries r.payload (field r.payload 3 1), 1 ≤ e.1 ∧ e.1 ≤ 63)
    (hon : bit (s.cfg 0x0602 0) 1 = true) (hup : s.up .cd9 = true) :
    tagWrite r s = startTxn r 2 (field r.payload 1 1) (slice r.payload 4 7) 1 s := by
  have hlength : (decide (16 ≤ r.payload.length) && r.payload.length == 16 + 36 * field r.payload 3 1) = true := by
    simp [hlen]
  have hentries : (within 1 4 (field r.payload 3 1)
      && (writeEntries r.payload (field r.payload 3 1)).all (fun e => within 1 63 e.1)) = true := by
    rw [within_of_le hlow hhigh, Bool.true_and, List.all_eq_true]
    exact fun e he => within_of_le (hblocks e he).1 (hblocks e he).2
  unfold tagWrite
  rw [withLength, if_pos hlength,
    withTxn_of_range hhandle (by omega) hwait (.inr (by simp [huid])) hentries (by rwa [hantenna]) hup, huid, hantenna]
  rfl

theorem tagProvision_of_role (hlen : r.payload.length = 8) (hhandle : r.handle = 0) (hantenna : field r.payload 0 1 = 0)
    (hwait : field r.payload 1 1 ≤ 120) (hversion : field r.payload 2 1 ≤ 1) (hlow : 1 ≤ field r.payload 3 1)
    (hhigh : field r.payload 3 1 ≤ 3) (hon : bit (s.cfg 0x0602 0) 0 = true) (hup : s.up .cd9 = true) :
    tagProvision r s = startTxn r 3 (field r.payload 1 1) [] 0 s := by
  unfold tagProvision
  rw [withLength_of_length hlen, withTxn_of_range hhandle (by omega) hwait (.inl rfl)
    (by rw [within_of_le hlow hhigh, decide_eq_true hversion]; rfl) (by rwa [hantenna]) hup, hantenna]
  rfl

theorem authlistRead_of_count (hlen : r.payload.length = 4) (hhandle : r.handle = 0)
    (hend : field r.payload 0 2 + field r.payload 2 1 ≤ 512) (hlow : 1 ≤ field r.payload 2 1) (hhigh : field r.payload 2 1 ≤ 13)
    (hup : s.up .cd9 = true) :
    authlistRead r s = respond r stOk (le 1 (field r.payload 2 1) ++ [0, 0, 0] ++ le 2 s.oculus.list.length ++ [0, 0]
      ++ ((List.range (field r.payload 2 1)).map (· + field r.payload 0 2)).flatMap s.authAt) s := by
  have hrange : (decide (field r.payload 0 2 ≤ 511 ∧ field r.payload 0 2 + field r.payload 2 1 ≤ 512)
      && within 1 13 (field r.payload 2 1)) = true := by
    rw [within_of_le hlow hhigh, Bool.and_true, decide_eq_true_iff]
    omega
  unfold authlistRead
  rw [withLength_of_length hlen, noHandle_of_zero hhandle, check_of_true hrange, needs_of_up hup]

/-- The operation that clears the list. -/
theorem authlistWrite_of_clear (hlen : r.payload.length = 4) (hhandle : r.handle = 0) (hop : field r.payload 0 1 = 2)
    (hnone : field r.payload 1 1 = 0) (hup : s.up .cd9 = true) :
    authlistWrite r s = acceptDone r stOk (zeros 4)
      (s.withOculus { s.oculus with list := [], listTwin := s.oculus.listTwin.write s.oculus.list }) := by
  unfold authlistWrite
  dsimp only
  rw [hop, hnone, withLength, if_pos (by simp [hlen]), noHandle_of_zero hhandle, check_of_true (by simp), needs_of_up hup,
    if_pos rfl]
  rfl

/-- The one held tap bound to a candidate port. -/
theorem bindPort_of_candidate {h : HeldTap} {p : Port} (hlen : r.payload.length = 12) (hhandle : r.handle = 0)
    (hbind : field r.payload 5 1 = 0) (hport : portOf (field r.payload 4 1) = some p) (hcap : capOk (field r.payload 8 4) = true)
    (hup : s.up .cd9 = true) (hheld : s.oculus.held = [h]) (htap : h.tap = field r.payload 0 4) (hkept : s.now ≤ h.at_ + 120000)
    (hheard : s.rotunda.silent = false) (hcandidate : s.isTapCandidate h.antenna h.uid h.time p = true) :
    bindPort r s =
      let t := authorisePort p 3 (field r.payload 8 4) h.uid (accept r (dropHeld h.tap s))
      finish r.wait stOk (le 4 (t.lane p).session) t := by
  have hrange : (decide (field r.payload 5 1 ≤ 1)
      && (if field r.payload 5 1 = 0 then decide (field r.payload 4 1 < 24) else field r.payload 4 1 == 0xFF)
      && capOk (field r.payload 8 4)) = true := by
    simp [hbind, portOf_lt hport, hcap]
  have hfound : s.oculus.held.find? (fun x => x.tap == field r.payload 0 4 && decide (s.now ≤ x.at_ + 120000)) = some h := by
    simp [hheld, htap, hkept]
  unfold bindPort
  dsimp only
  rw [withLength_of_length hlen, noHandle_of_zero hhandle, check_of_true hrange, needs_of_up hup, hfound]
  dsimp only
  rw [if_neg (by omega), hport]
  dsimp only
  rw [hheard, if_neg Bool.false_ne_true, if_pos hcandidate, htap]

end

/-! ## The rows -/

section
variable {b : Box} {f : Frame} {r : Req} {s : State}

theorem Asked.exec_readerStatus (h : Asked b 0x0701 f r s) : exec (.readerStatus b) s = .next (readerStatus r (taken b f s)) :=
  h.request readerStatus

theorem Asked.exec_tagRead (h : Asked b 0x0702 f r s) : exec (.tagRead b) s = .next (tagRead r (taken b f s)) :=
  h.request tagRead

theorem Asked.exec_tagWrite (h : Asked b 0x0703 f r s) : exec (.tagWrite b) s = .next (tagWrite r (taken b f s)) :=
  h.request tagWrite

theorem Asked.exec_tagProvision (h : Asked b 0x0707 f r s) : exec (.tagProvision b) s = .next (tagProvision r (taken b f s)) :=
  h.request tagProvision

theorem Asked.exec_authlistRead (h : Asked b 0x0704 f r s) : exec (.authlistRead b) s = .next (authlistRead r (taken b f s)) :=
  h.request authlistRead

theorem Asked.exec_authlistWrite (h : Asked b 0x0705 f r s) : exec (.authlistWrite b) s = .next (authlistWrite r (taken b f s)) :=
  h.request authlistWrite

theorem Asked.exec_bindPort (h : Asked b 0x0706 f r s) : exec (.bindPort b) s = .next (bindPort r (taken b f s)) :=
  h.request bindPort

end

/-- Settles O49: each row runs its handler on the state that taking the request leaves, where every check of the handler passes; the
transaction that it makes, or that one in progress keeps it from making, is by the lemmas on `startTxn`. That a held tap serves through
120 000 ms and a proof for less, and that a used proof is no longer held, is the model's reading of R423 and R428 (log 119), as are the
free entries of AUTHLIST_READ shown as zeros (log 120). -/
theorem readerCommands : Obligations.ReaderCommands := by
  unfold Obligations.ReaderCommands
  refine ⟨?status, ?read, ?write, ?provision, ?busy, ?made, ?list, ?clear, ?bind⟩
  case status =>
    rintro b f r s h ⟨hempty, hhandle, hup⟩
    rw [h.exec_readerStatus, readerStatus_of_empty hempty hhandle hup]
    rfl
  case read =>
    rintro b f r s h ⟨hlen, hhandle, hantenna, hwait, huid, hend, hlow, hhigh, hon, hup⟩
    rw [h.exec_tagRead, tagRead_of_blocks hlen hhandle hantenna hwait huid hend hlow hhigh hon hup]
  case write =>
    rintro b f r s h ⟨hlen, hhandle, hantenna, hwait, huid, hlow, hhigh, hblocks, hon, hup⟩
    rw [h.exec_tagWrite, tagWrite_of_entries hlen hhandle hantenna hwait huid hlow hhigh hblocks hon hup]
  case provision =>
    rintro b f r s h ⟨hlen, hhandle, hantenna, hwait, hversion, hlow, hhigh, hon, hup⟩
    rw [h.exec_tagProvision, tagProvision_of_role hlen hhandle hantenna hwait hversion hlow hhigh hon hup]
  case busy =>
    intro r op wait uid a s x htxn
    exact startTxn_of_txn htxn
  case made =>
    intro r op wait uid a s h t hfree habsent hwait hcreated
    exact startTxn_of_no_presentation hfree habsent hwait hcreated
  case list =>
    rintro b f r s h ⟨hlen, hhandle, hend, hlow, hhigh, hup⟩
    rw [h.exec_authlistRead, authlistRead_of_count hlen hhandle hend hlow hhigh hup]
  case clear =>
    rintro b f r s h ⟨hlen, hhandle, hop, hnone, hup⟩
    rw [h.exec_authlistWrite, authlistWrite_of_clear hlen hhandle hop hnone hup]
  case bind =>
    intro b f r s h p hasked hlen hhandle hbind hport hcap hup hheld htap hkept hheard hcandidate
    refine ⟨_, ?_, rfl⟩
    rw [hasked.exec_bindPort, bindPort_of_candidate hlen hhandle hbind hport hcap (by simpa) (by simpa) htap (by simpa) (by simpa)
      (by simpa)]

end Sys2Proof.Machine
end

section
/-! What the device says of itself (R515, R516, R525), and the option block written (R517). -/

namespace Sys2Proof.Machine

/-! ## What accepting a request and using a proof leave of the power -/

section
variable (s : State)

@[simp] theorem trace_power (src : Fin 12) (type : Nat) (content : List Byte) : (trace src type content s).power = s.power := by
  unfold trace
  dsimp only
  repeat' split
  all_goals rfl

@[simp] theorem pushAll_power (s : State) (b : Box) (fs : List Frame) : (pushAll b fs s).power = s.power := by
  unfold pushAll
  induction fs generalizing s with
  | nil => rfl
  | cons f fs ih => rw [List.foldl_cons, ih, pushOut, traceFrame, trace_power, modHost_power]

@[simp] theorem accept_power (r : Req) : (accept r s).power = s.power := by
  simp [accept, respond, traceResult, reply]

@[simp] theorem markProofUsed_power (id : Nat) : (markProofUsed id s).power = s.power := withOculus_power ..

end

/-! ## The option block -/

/-- The bytes written lie in 8 to 21 (R517). -/
theorem option_range_iff {offset n : Nat} :
    (within 8 21 offset && within 1 14 n && decide (offset + n ≤ 22)) = true ↔ 8 ≤ offset ∧ 1 ≤ n ∧ offset + n ≤ 22 := by
  simp only [within, Bool.and_eq_true, decide_eq_true_eq]
  omega

theorem not_ok_of_no_supervisor {o : OptionBlock} (hnone : 3 ∉ o.roles.toList) : o.ok = false := by
  have hroles : o.roles.toList.contains 3 = false := by simpa using hnone
  unfold OptionBlock.ok
  rw [hroles]
  simp only [Bool.and_false, Bool.false_and]

@[simp] theorem writeOption_inForce (x : Power) (o : OptionBlock) : (x.writeOption o).inForce = x.inForce := by
  unfold Power.writeOption
  split <;> rfl

/-- A write goes to the copy that does not govern, and leaves the other as it is (R517). -/
theorem writeOption_older_copy {x : Power} {k : OptionBlock} (o : OptionBlock) (hnewest : x.newest = some k) :
    (x.writeOption o).option0 = some k ∧ (x.writeOption o).option1 = some o ∨
    (x.writeOption o).option1 = some k ∧ (x.writeOption o).option0 = some o := by
  cases hgoverns : x.copyOne with
  | false =>
    have hkept : x.option0 = some k := by simpa [Power.newest, hgoverns] using hnewest
    exact .inl (by simp [Power.writeOption, hnewest, hgoverns, hkept])
  | true =>
    have hkept : x.option1 = some k := by simpa [Power.newest, hgoverns] using hnewest
    exact .inr (by simp [Power.writeOption, hgoverns, hkept])

/-! ## The handlers once their checks pass, or one fails -/

section
variable {r : Req} {s : State}

theorem deviceInfo_of_empty (hempty : r.payload = []) (hhandle : r.handle = 0) :
    deviceInfo r s = respond r stOk s.deviceInfo s := by
  unfold deviceInfo
  rw [withLength_of_empty hempty, noHandle_of_zero hhandle]

theorem resetCause_of_empty (hempty : r.payload = []) (hhandle : r.handle = 0) :
    resetCause r s = respond r stOk s.resetCauseBody s := by
  unfold resetCause
  rw [withLength_of_empty hempty, noHandle_of_zero hhandle]

theorem optionRead_of_source (hlen : r.payload.length = 4) (hhandle : r.handle = 0) (hsource : field r.payload 0 1 ≤ 1) :
    optionRead r s = respond r stOk (s.optionBody (field r.payload 0 1)) s := by
  unfold optionRead
  rw [withLength_of_length hlen, noHandle_of_zero hhandle, check_of_true (decide_eq_true hsource)]

end

section
variable {r : Req} {s : State} {old new_ : OptionBlock} (hhandle : r.handle = 0)
  (hlen : r.payload.length = 8 + field r.payload 1 1)

include hlen in
theorem withLength_of_option_bytes {k : State → State} :
    withLength (decide (8 ≤ r.payload.length) && r.payload.length == 8 + field r.payload 1 1) r k s = k s := by
  simp [withLength, hlen]

include hhandle hlen

theorem optionWrite_of_outside
    (houtside : field r.payload 0 1 < 8 ∨ field r.payload 1 1 = 0 ∨ 22 < field r.payload 0 1 + field r.payload 1 1) :
    optionWrite r s = refuse r stParamRange s := by
  unfold optionWrite
  dsimp only
  rw [withLength_of_option_bytes hlen, noHandle_of_zero hhandle, check_of_false]
  rw [Bool.eq_false_iff, ne_eq, option_range_iff]
  omega

variable (hlow : 8 ≤ field r.payload 0 1) (hsome : 1 ≤ field r.payload 1 1)
  (hend : field r.payload 0 1 + field r.payload 1 1 ≤ 22) (hold : s.power.newest.getD OptionBlock.safe = old)
  (hnew : old.patch (field r.payload 0 1) (r.payload.drop 8) = new_)
include hlow hsome hend hold hnew

theorem optionWrite_of_unfit (hunfit : new_.region ≠ old.region ∨ 3 ∉ new_.roles.toList ∨ new_.ok = false) :
    optionWrite r s = refuse r stParamRange s := by
  have hbad : (new_.ok && new_.region == old.region) = false := by
    rcases hunfit with hregion | hnone | hvalue
    · simp [hregion]
    · simp [not_ok_of_no_supervisor hnone]
    · simp [hvalue]
  unfold optionWrite
  dsimp only
  rw [withLength_of_option_bytes hlen, noHandle_of_zero hhandle, check_of_true (option_range_iff.mpr ⟨hlow, hsome, hend⟩),
    hold, hnew, check_of_false hbad]

variable (hok : new_.ok = true) (hregion : new_.region = old.region)
include hok hregion

theorem optionWrite_of_unproved (hproof : s.installerProof (field r.payload 4 4) = false)
    (hchanged : old.uryan ≠ new_.uryan ∨ old.mesh ≠ new_.mesh) : optionWrite r s = refuse r stLocalConfirmMissing s := by
  have hasks : (old.uryan != new_.uryan || old.mesh != new_.mesh) = true := by simpa using hchanged
  unfold optionWrite
  dsimp only
  rw [withLength_of_option_bytes hlen, noHandle_of_zero hhandle, check_of_true (option_range_iff.mpr ⟨hlow, hsome, hend⟩),
    hold, hnew, check_of_true (by simp [hok, hregion]), check_of_false (by simp [hasks, hproof])]

theorem optionWrite_of_granted (hgranted : (old.uryan = new_.uryan ∧ old.mesh = new_.mesh) ∨
    s.installerProof (field r.payload 4 4) = true) (hholdUp : s.power.holdUp = false) :
    ∃ t, optionWrite r s = finish r.wait stOk (le 4 new_.seq) t ∧ t.power = s.power.writeOption new_ := by
  have hproved : (!(old.uryan != new_.uryan || old.mesh != new_.mesh) || s.installerProof (field r.payload 4 4)) = true := by
    simpa using hgranted
  unfold optionWrite
  dsimp only
  rw [withLength_of_option_bytes hlen, noHandle_of_zero hhandle, check_of_true (option_range_iff.mpr ⟨hlow, hsome, hend⟩),
    hold, hnew, check_of_true (by simp [hok, hregion]), check_of_true hproved, storing, check_of_true (by simp [hholdUp])]
  refine ⟨_, rfl, ?_⟩
  split <;> simp

end

/-! ## The rows -/

section
variable {b : Box} {f : Frame} {r : Req} {s : State}

theorem Asked.exec_deviceInfo (h : Asked b 0x0110 f r s) : exec (.deviceInfo b) s = .next (deviceInfo r (taken b f s)) :=
  h.request deviceInfo

theorem Asked.exec_resetCause (h : Asked b 0x0116 f r s) : exec (.resetCause b) s = .next (resetCause r (taken b f s)) :=
  h.request resetCause

theorem Asked.exec_optionRead (h : Asked b 0x0117 f r s) : exec (.optionRead b) s = .next (optionRead r (taken b f s)) :=
  h.request optionRead

theorem Asked.exec_optionWrite (h : Asked b 0x0118 f r s) : exec (.optionWrite b) s = .next (optionWrite r (taken b f s)) :=
  h.request optionWrite

end

/-- Settles O14: each row runs its handler on the state that taking the request leaves, where every check of the handler passes (or, for
the refusals of OPTION_WRITE, one fails). That the block patched is the safe defaults with sequence 0 where no stored copy is valid, and
that the newer copy is by serial arithmetic, is the model's reading of R515 (log 131); that a proof serves for less than 120 000 ms is
its reading of R423 (log 119). -/
theorem deviceQueries : Obligations.DeviceQueries := by
  unfold Obligations.DeviceQueries
  refine ⟨?info, ?cause, ?read, ?write, fun _ o _ => writeOption_older_copy o, ?outside, ?unfit, ?unproved⟩
  case info =>
    rintro b f r s h ⟨hempty, hhandle⟩
    rw [h.exec_deviceInfo, deviceInfo_of_empty hempty hhandle]
  case cause =>
    rintro b f r s h ⟨hempty, hhandle⟩
    rw [h.exec_resetCause, resetCause_of_empty hempty hhandle]
  case read =>
    rintro b f r s h ⟨hlen, hhandle, hsource⟩
    rw [h.exec_optionRead, optionRead_of_source hlen hhandle hsource]
  case write =>
    intro b f r s h hhandle hlow hsome hend hlen old new_ hok hregion hgranted hholdUp
    obtain ⟨t, hwritten, hpower⟩ :=
      optionWrite_of_granted hhandle hlen hlow hsome hend rfl rfl hok hregion hgranted (by simpa)
    exact ⟨t, by rw [h.exec_optionWrite, hwritten]; rfl, hpower, by rw [hpower, writeOption_inForce, taken_inForce]⟩
  case outside =>
    rintro b f r s h ⟨hhandle, hlen, houtside⟩
    rw [h.exec_optionWrite, optionWrite_of_outside hhandle hlen houtside]
    rfl
  case unfit =>
    rintro b f r s h ⟨hhandle, hlen, hlow, hsome, hend, hunfit⟩
    rw [h.exec_optionWrite, optionWrite_of_unfit hhandle hlen hlow hsome hend rfl rfl hunfit]
    rfl
  case unproved =>
    rintro b f r s h ⟨hhandle, hlen, hlow, hsome, hend, hproof, hok, hregion, hchanged⟩
    rw [h.exec_optionWrite, optionWrite_of_unproved hhandle hlen hlow hsome hend rfl rfl hok hregion hproof hchanged]
    rfl

end Sys2Proof.Machine
end

section
/-! The block as a whole: every command completes (R6 to R12), and every command and step keeps the queue, the clock and the
capacities. -/

namespace Sys2Proof.Machine

/-! ## Completion -/

/-- An outcome is a next state. -/
def Completes (o : Out) : Prop := ∃ t, o = .next t

theorem completes_next (s : State) : Completes (.next s) := ⟨s, rfl⟩

theorem completes_ite {c : Prop} [Decidable c] {a b : Out} (ha : Completes a) (hb : Completes b) :
    Completes (if c then a else b) := by
  split
  · exact ha
  · exact hb

theorem completes_request (b : Box) (op : Nat) (k : Req → State → State) (s : State) : Completes (request b op k s) := by
  unfold request
  dsimp only
  split
  · exact completes_next _
  · exact completes_next _

/-- Every row is a request, or branches that each end in a next state. -/
theorem exec_completes (c : Instr) (s : State) : Completes (exec c s) := by
  unfold exec
  split
  all_goals
    delta
      execStatus execWriteFrame execReadFrame execReadAgain execSpiUnknownCommandByte execUartMailboxUnit execUartUnitAbort
      execLinkControlResend execLinkStatusUnit execUartFrameSent execEventGap execHostAttach execHostAttachConfirm execAttachTimeout
      execAttachBarEnd execHostDetach execHostStatus execKeepaliveExpiry execDeviceInfo execTimeGet execTimeSet execSoftReset
      execDormant execBlockReset execResetCause execOptionRead execOptionWrite execChannelCreate execChannelDestroy execChannelRead
      execChannelModify execChannelList execCfgBegin execCfgWrite execCfgCommit execCfgAbort execCfgRead execCfgStatus
      execStageTimeout execCommitApplyTimeout execAllocSet execAllocRead execMirrorPublish execMirrorPublishUnsync
      execMirrorEntryStale execZoneTimerRestart execSoftShedding execHardShedding execGuardBlindFault execClockLost execClockGood
      execIslandReleaseTimeout execEvaluationPeriod execPilotConfirmed execPilotFault execProximityCodeAccepted execCableRefused
      execReservationExpired execAllowanceOpeningTimeout execResidualTestStep execClosingContactorSettled execClosingPreBreakStart
      execClosingPbfCheck execOvsEdge execOvsAbsent execOvsPresenceTimeout execOpeningCurrentZero execOpeningPbfCheck
      execOpeningContactorRelease execOpeningCtfCheck execWeldProbe execWeldProbeEnd execContactorFeedbackDiscrepancy
      execPreBreakDiscrepancy execFaultOpeningChecks execPortEnable execPortDisable execSessionOpen execSessionAuthorise
      execSessionStop execPortStatus execSessionStatus execPortDiag execSessionEnded execLineCycleEnd execPathChange
      execFrequencyDetected execToneWindowEnd execToneObscured execRegRead execRegReadSet execSnapshotRead execBillingClose
      execTariffActivate execReadSigned execLegalLogRead execCertRead execCalRead execCalWrite execCalSeal execSealPulseEnd
      execToneStatus execCalenChange execTamperInputChange execSupplyExcursion execResidualCurrentDetected execResidualSensorFault
      execFastTrip execComparatorSelfTest execPeMonWindow execEstopTestPulse execEstopInputChange execLockoutReset execClearProbeEnd
      execSrstNPulse execDegradedOvercurrent execSafetyStatus execFaultRecordRead execSafetyParamRead execSafetyParamStage
      execSafetyCommit execTelegramStatus execTelegramCopyReceived execPlcStatus execPlcNeighbours execPlcSend execPlcPairingOpen
      execPlcRouteRead execPlcTonemapRead execPlcNodeRemove execContentionPeriod execPlcTransmitStart execPlcTransmitEnd
      execPlcAckSend execPlcAckTimeout execAcknowledgement execPlcFrameCheckFailed execToneMapUpdate execToneMapRefresh
      execToneMapLapse execRouteReq execRouteRep execRouteReplyDue execRouteRequestTimeout execRouteErr execRouteEntryLapse
      execNeighbourTimeout execGatewayReport execNodeStatus execHostData execPortIndication execJoinReq execJoinConfirm
      execJoinConfirmTimeout execReaderPing execPresentationCheck execHeldTapExpiry execProofExpiry execKeytagReachAgain
      execTagTxnTimeout execReaderStatus execTagRead execTagWrite execTagProvision execAuthlistRead execAuthlistWrite execBindPort
      execKeyStatus execKeyStage execKeyVerify execKeyCommit execKeyAbort execReanchoring execMeshCheck execTemperatureCheck
      execDestruction execScrubLine execMramRefresh execPageRetire execErrorLogRead execMemStatus execUpdateStatus execUpdateConfirm
      execOwnerLock execOwnerUnlock execUpdateClaim execUpdateBlock execUpdateActivate execUpdateRelease execSvcVbusChange
      execCounterRead execTraceLost execBrownOut execResetNLow execWatchdogReset execDeviceStart execVbakLow execBulkOutTransfer
      execReProvisioning execPreambleDetected execPlcHeaderCheckFailed execSlewComplete execHoldEnd execSoftResetExecute
      execDormantEntry execShutdownOpeningsTimeout execBlockResetComplete execAllocInputHeartbeat execAllocInputStale
      execHostSurplusExpiry execAllocationBoundary execSessionEventQueueHeartbeat execControlLost execGapEntry
      execSessionEventDeliver execClockDeviation execFrequencyLost execToneStateSave execLatch execSaveComplete
      execSignatureComplete execTamperBufferMove execLockstepMismatch execTurretAliveTimeout execCd1Loss execReactionEnd
      execEscalationWindowEnd execShuntTripPulseEnd execLockoutResetTimeout execConfirmationWindowExpired execSrstNStuck
      execDegradedTimeEnd execDegradedEarlyEnd execTelegramTransmit execSkewAllowanceEnd execTelegramTimeout execEnergyReport
      execBeacon execPairingWindowClose execVddtxLow execVddtxRestored execRetiringKeyErase execRngHealthFailure
      execRngHealthRestored execBucketLeak execBankEraseComplete execActivationSaveComplete execActivationReset execClaimTimeout
      execTrialExpiry execFallbackReset execFallbackForcedStop execTraceSync execPowerOn execResetNStuck execSteepleFatalReset
      execSuppliesGood execHoldUpEntry execHoldUpEnd execPermitsRestored execWakeN execClearConditionsMet execSrstNRearm
      execResetNRearm execAonDomainStop execBulkInTransfer execCalCaptureTimeout execBusOffRecovery execCommitWordWritten
    repeat' with_reducible
      first | exact completes_next _ | exact completes_request .. | apply completes_ite | intro _ | split | dsimp only

/-- Settles O3. That a row answers a next state also where its event cannot come about, which then leaves the state as it was, is the
model's choice (log 4, with 2). -/
theorem everyCommandCompletes : Obligations.EveryCommandCompletes := exec_completes

/-! ## The invariant of every command and step -/

/-- Each row keeps the queue, the clock and the capacities. -/
theorem exec_kept {Q : List Instr} {N : Nat} (c : Instr) {s : State} (hs : Kept Q N s) : KeptOut Q N (exec c s) := by
  unfold exec
  split
  · exact execStatus_kept _ hs
  · exact execWriteFrame_kept _ _ hs
  · exact execReadFrame_kept _ _ hs
  · exact execReadAgain_kept _ hs
  · exact execSpiUnknownCommandByte_kept _ _ hs
  · exact execUartMailboxUnit_kept _ _ hs
  · exact execUartUnitAbort_kept _ hs
  · exact execLinkControlResend_kept _ hs
  · exact execLinkStatusUnit_kept _ hs
  · exact execUartFrameSent_kept _ hs
  · exact execEventGap_kept _ hs
  · exact execHostAttach_kept _ hs
  · exact execHostAttachConfirm_kept _ hs
  · exact execAttachTimeout_kept _ hs
  · exact execAttachBarEnd_kept _ hs
  · exact execHostDetach_kept _ hs
  · exact execHostStatus_kept _ hs
  · exact execKeepaliveExpiry_kept _ hs
  · exact execDeviceInfo_kept _ hs
  · exact execTimeGet_kept _ hs
  · exact execTimeSet_kept _ hs
  · exact execSoftReset_kept _ hs
  · exact execDormant_kept _ hs
  · exact execBlockReset_kept _ hs
  · exact execResetCause_kept _ hs
  · exact execOptionRead_kept _ hs
  · exact execOptionWrite_kept _ hs
  · exact execChannelCreate_kept _ hs
  · exact execChannelDestroy_kept _ hs
  · exact execChannelRead_kept _ hs
  · exact execChannelModify_kept _ hs
  · exact execChannelList_kept _ hs
  · exact execCfgBegin_kept _ hs
  · exact execCfgWrite_kept _ hs
  · exact execCfgCommit_kept _ hs
  · exact execCfgAbort_kept _ hs
  · exact execCfgRead_kept _ hs
  · exact execCfgStatus_kept _ hs
  · exact execStageTimeout_kept _ hs
  · exact execCommitApplyTimeout_kept _ hs
  · exact execAllocSet_kept _ hs
  · exact execAllocRead_kept _ hs
  · exact execMirrorPublish_kept _ _ hs
  · exact execMirrorPublishUnsync_kept _ hs
  · exact execMirrorEntryStale_kept _ hs
  · exact execZoneTimerRestart_kept _ hs
  · exact execSoftShedding_kept _ hs
  · exact execHardShedding_kept _ hs
  · exact execGuardBlindFault_kept _ hs
  · exact execClockLost_kept _ hs
  · exact execClockGood_kept _ hs
  · exact execIslandReleaseTimeout_kept _ hs
  · exact execEvaluationPeriod_kept _ _ hs
  · exact execPilotConfirmed_kept _ hs
  · exact execPilotFault_kept _ hs
  · exact execProximityCodeAccepted_kept _ hs
  · exact execCableRefused_kept _ hs
  · exact execReservationExpired_kept _ hs
  · exact execAllowanceOpeningTimeout_kept _ hs
  · exact execResidualTestStep_kept _ _ hs
  · exact execClosingContactorSettled_kept _ _ _ hs
  · exact execClosingPreBreakStart_kept _ hs
  · exact execClosingPbfCheck_kept _ _ hs
  · exact execOvsEdge_kept _ hs
  · exact execOvsAbsent_kept _ hs
  · exact execOvsPresenceTimeout_kept _ hs
  · exact execOpeningCurrentZero_kept _ hs
  · exact execOpeningPbfCheck_kept _ _ hs
  · exact execOpeningContactorRelease_kept _ hs
  · exact execOpeningCtfCheck_kept _ _ hs
  · exact execWeldProbe_kept _ hs
  · exact execWeldProbeEnd_kept _ _ hs
  · exact execContactorFeedbackDiscrepancy_kept _ _ hs
  · exact execPreBreakDiscrepancy_kept _ _ hs
  · exact execFaultOpeningChecks_kept _ _ hs
  · exact execPortEnable_kept _ hs
  · exact execPortDisable_kept _ hs
  · exact execSessionOpen_kept _ hs
  · exact execSessionAuthorise_kept _ hs
  · exact execSessionStop_kept _ hs
  · exact execPortStatus_kept _ hs
  · exact execSessionStatus_kept _ hs
  · exact execPortDiag_kept _ hs
  · exact execSessionEnded_kept _ hs
  · exact execLineCycleEnd_kept _ hs
  · exact execPathChange_kept _ _ _ hs
  · exact execFrequencyDetected_kept _ hs
  · exact execToneWindowEnd_kept _ _ hs
  · exact execToneObscured_kept _ hs
  · exact execRegRead_kept _ hs
  · exact execRegReadSet_kept _ hs
  · exact execSnapshotRead_kept _ hs
  · exact execBillingClose_kept _ hs
  · exact execTariffActivate_kept _ hs
  · exact execReadSigned_kept _ hs
  · exact execLegalLogRead_kept _ hs
  · exact execCertRead_kept _ hs
  · exact execCalRead_kept _ hs
  · exact execCalWrite_kept _ hs
  · exact execCalSeal_kept _ hs
  · exact execSealPulseEnd_kept _ hs
  · exact execToneStatus_kept _ hs
  · exact execCalenChange_kept _ hs
  · exact execTamperInputChange_kept _ _ hs
  · exact execSupplyExcursion_kept _ _ hs
  · exact execResidualCurrentDetected_kept _ _ _ hs
  · exact execResidualSensorFault_kept _ _ hs
  · exact execFastTrip_kept _ _ _ _ hs
  · exact execComparatorSelfTest_kept _ _ _ hs
  · exact execPeMonWindow_kept _ hs
  · exact execEstopTestPulse_kept _ _ hs
  · exact execEstopInputChange_kept _ _ hs
  · exact execLockoutReset_kept _ hs
  · exact execClearProbeEnd_kept _ hs
  · exact execSrstNPulse_kept _ hs
  · exact execDegradedOvercurrent_kept _ hs
  · exact execSafetyStatus_kept _ hs
  · exact execFaultRecordRead_kept _ hs
  · exact execSafetyParamRead_kept _ hs
  · exact execSafetyParamStage_kept _ hs
  · exact execSafetyCommit_kept _ hs
  · exact execTelegramStatus_kept _ hs
  · exact execTelegramCopyReceived_kept _ _ _ _ hs
  · exact execPlcStatus_kept _ hs
  · exact execPlcNeighbours_kept _ hs
  · exact execPlcSend_kept _ hs
  · exact execPlcPairingOpen_kept _ hs
  · exact execPlcRouteRead_kept _ hs
  · exact execPlcTonemapRead_kept _ hs
  · exact execPlcNodeRemove_kept _ hs
  · exact execContentionPeriod_kept _ hs
  · exact execPlcTransmitStart_kept _ hs
  · exact execPlcTransmitEnd_kept _ hs
  · exact execPlcAckSend_kept _ hs
  · exact execPlcAckTimeout_kept _ hs
  · exact execAcknowledgement_kept _ hs
  · exact execPlcFrameCheckFailed_kept _ _ _ _ hs
  · exact execToneMapUpdate_kept _ _ hs
  · exact execToneMapRefresh_kept _ _ _ hs
  · exact execToneMapLapse_kept _ _ _ _ hs
  · exact execRouteReq_kept _ _ hs
  · exact execRouteRep_kept _ _ hs
  · exact execRouteReplyDue_kept _ hs
  · exact execRouteRequestTimeout_kept _ hs
  · exact execRouteErr_kept _ _ hs
  · exact execRouteEntryLapse_kept _ hs
  · exact execNeighbourTimeout_kept _ hs
  · exact execGatewayReport_kept _ _ hs
  · exact execNodeStatus_kept _ _ hs
  · exact execHostData_kept _ _ hs
  · exact execPortIndication_kept _ hs
  · exact execJoinReq_kept _ _ hs
  · exact execJoinConfirm_kept _ _ hs
  · exact execJoinConfirmTimeout_kept _ hs
  · exact execReaderPing_kept _ _ _ _ hs
  · exact execPresentationCheck_kept _ _ hs
  · exact execHeldTapExpiry_kept _ hs
  · exact execProofExpiry_kept _ hs
  · exact execKeytagReachAgain_kept _ _ hs
  · exact execTagTxnTimeout_kept _ hs
  · exact execReaderStatus_kept _ hs
  · exact execTagRead_kept _ hs
  · exact execTagWrite_kept _ hs
  · exact execTagProvision_kept _ hs
  · exact execAuthlistRead_kept _ hs
  · exact execAuthlistWrite_kept _ hs
  · exact execBindPort_kept _ hs
  · exact execKeyStatus_kept _ hs
  · exact execKeyStage_kept _ hs
  · exact execKeyVerify_kept _ hs
  · exact execKeyCommit_kept _ hs
  · exact execKeyAbort_kept _ hs
  · exact execReanchoring_kept _ hs
  · exact execMeshCheck_kept _ hs
  · exact execTemperatureCheck_kept _ hs
  · exact execDestruction_kept _ hs
  · exact execScrubLine_kept _ _ _ _ hs
  · exact execMramRefresh_kept _ _ hs
  · exact execPageRetire_kept _ hs
  · exact execErrorLogRead_kept _ hs
  · exact execMemStatus_kept _ hs
  · exact execUpdateStatus_kept _ hs
  · exact execUpdateConfirm_kept _ hs
  · exact execOwnerLock_kept _ hs
  · exact execOwnerUnlock_kept _ hs
  · exact execUpdateClaim_kept _ hs
  · exact execUpdateBlock_kept _ hs
  · exact execUpdateActivate_kept _ hs
  · exact execUpdateRelease_kept _ hs
  · exact execSvcVbusChange_kept _ hs
  · exact execCounterRead_kept _ hs
  · exact execTraceLost_kept _ hs
  · exact execBrownOut_kept _ hs
  · exact execResetNLow_kept _ hs
  · exact execWatchdogReset_kept _ hs
  · exact execDeviceStart_kept _ hs
  · exact execVbakLow_kept _ hs
  · exact execBulkOutTransfer_kept _ hs
  · exact execReProvisioning_kept _ hs
  · exact execPreambleDetected_kept _ hs
  · exact execPlcHeaderCheckFailed_kept _ hs
  · exact execSlewComplete_kept hs
  · exact execHoldEnd_kept hs
  · exact execSoftResetExecute_kept hs
  · exact execDormantEntry_kept hs
  · exact execShutdownOpeningsTimeout_kept hs
  · exact execBlockResetComplete_kept hs
  · exact execAllocInputHeartbeat_kept hs
  · exact execAllocInputStale_kept hs
  · exact execHostSurplusExpiry_kept hs
  · exact execAllocationBoundary_kept hs
  · exact execSessionEventQueueHeartbeat_kept hs
  · exact execControlLost_kept hs
  · exact execGapEntry_kept hs
  · exact execSessionEventDeliver_kept hs
  · exact execClockDeviation_kept hs
  · exact execFrequencyLost_kept hs
  · exact execToneStateSave_kept hs
  · exact execLatch_kept hs
  · exact execSaveComplete_kept hs
  · exact execSignatureComplete_kept hs
  · exact execTamperBufferMove_kept hs
  · exact execLockstepMismatch_kept hs
  · exact execTurretAliveTimeout_kept hs
  · exact execCd1Loss_kept hs
  · exact execReactionEnd_kept hs
  · exact execEscalationWindowEnd_kept hs
  · exact execShuntTripPulseEnd_kept hs
  · exact execLockoutResetTimeout_kept hs
  · exact execConfirmationWindowExpired_kept hs
  · exact execSrstNStuck_kept hs
  · exact execDegradedTimeEnd_kept hs
  · exact execDegradedEarlyEnd_kept hs
  · exact execTelegramTransmit_kept hs
  · exact execSkewAllowanceEnd_kept hs
  · exact execTelegramTimeout_kept hs
  · exact execEnergyReport_kept hs
  · exact execBeacon_kept hs
  · exact execPairingWindowClose_kept hs
  · exact execVddtxLow_kept hs
  · exact execVddtxRestored_kept hs
  · exact execRetiringKeyErase_kept hs
  · exact execRngHealthFailure_kept hs
  · exact execRngHealthRestored_kept hs
  · exact execBucketLeak_kept hs
  · exact execBankEraseComplete_kept hs
  · exact execActivationSaveComplete_kept hs
  · exact execActivationReset_kept hs
  · exact execClaimTimeout_kept hs
  · exact execTrialExpiry_kept hs
  · exact execFallbackReset_kept hs
  · exact execFallbackForcedStop_kept hs
  · exact execTraceSync_kept hs
  · exact execPowerOn_kept hs
  · exact execResetNStuck_kept hs
  · exact execSteepleFatalReset_kept hs
  · exact execSuppliesGood_kept hs
  · exact execHoldUpEntry_kept hs
  · exact execHoldUpEnd_kept hs
  · exact execPermitsRestored_kept hs
  · exact execWakeN_kept hs
  · exact execClearConditionsMet_kept hs
  · exact execSrstNRearm_kept hs
  · exact execResetNRearm_kept hs
  · exact execAonDomainStop_kept hs
  · exact execBulkInTransfer_kept hs
  · exact execCalCaptureTimeout_kept hs
  · exact execBusOffRecovery_kept hs
  · exact execCommitWordWritten_kept hs

theorem kept_self {s : State} (hs : s.Within) : Kept s.pending s.now s := ⟨rfl, rfl, hs⟩

/-- Settles O4. -/
theorem commandsLeaveQueueAndClock : Obligations.CommandsLeaveQueueAndClock := by
  intro c s t hs ht
  have hkept := (exec_kept c (kept_self hs)).out t ht
  exact ⟨hkept.pending, hkept.now⟩

/-- Settles O5: a step is one millisecond or one command, and both keep the capacities. That pending write records are bounded by 16 in
either copy is the model's reading of R421 (log 138). -/
theorem stepsKeepCapacities : Obligations.StepsKeepCapacities := by
  intro s t hs ht
  unfold step at ht
  split at ht
  case h_1 =>
    exact ((keptOut_next (tick_kept (kept_self hs))).out t ht).within
  case h_2 c rest _ =>
    have hrest : ({ s with pending := rest } : State).Within := { hs with }
    exact ((exec_kept c (kept_self hrest)).out t ht).within

end Sys2Proof.Machine
end

section
/-! The idle step (log 3), the state after reset, and what replies and events touch. -/

namespace Sys2Proof.Machine

/-- Settles O1. -/
theorem stepRunsFront : Obligations.StepRunsFront := fun _ _ _ => rfl

/-! ## One millisecond -/

/-- The queue, the clock and civil time. -/
def State.timing (s : State) : List Instr × Nat × Nat := (s.pending, s.now, s.civil)

section
variable (s : State)
@[simp] theorem withRotunda_timing (x : Rotunda) : (s.withRotunda x).timing = s.timing := rfl
@[simp] theorem withDsp_timing (x : Dsp) : (s.withDsp x).timing = s.timing := rfl
@[simp] theorem withKeep_timing (x : Keep) : (s.withKeep x).timing = s.timing := rfl
@[simp] theorem withMemory_timing (x : Memory) : (s.withMemory x).timing = s.timing := rfl
@[simp] theorem withUpdate_timing (x : Update) : (s.withUpdate x).timing = s.timing := rfl
@[simp] theorem withPower_timing (x : Power) : (s.withPower x).timing = s.timing := rfl
@[simp] theorem withLantern_timing (x : Lantern) : (s.withLantern x).timing = s.timing := rfl
end

theorem unlinked_timing {s t : State} (h : s.unlinked = t.unlinked) : s.timing = t.timing := by
  simp only [State.timing, unlinked_pending h, unlinked_now h, unlinked_civil h]

theorem unposted_timing {s t : State} (h : s.unposted = t.unposted) : s.timing = t.timing := by
  have e := congrArg (fun u : State => (u.pending, u.now, u.civil)) h
  exact e

theorem foldl_timing {α : Type} {f : State → α → State} (hf : ∀ a s, (f s a).timing = s.timing) (l : List α) (s : State) :
    (l.foldl f s).timing = s.timing :=
  List.foldlRecOn (motive := fun t => t.timing = s.timing) l f rfl (fun t ht a _ => (hf a t).trans ht)

theorem logError_timing (i : Fin 8) (kind offset requester cnt time : Nat) (counted : Bool) (s : State) :
    (logError i kind offset requester cnt time counted s).timing = s.timing := by
  unfold logError
  dsimp only
  split
  · exact (unlinked_timing (raise_unlinked ..)).trans (withMemory_timing ..)
  · exact withMemory_timing ..

theorem memRecord_timing (i : Fin 8) (kind offset requester cnt : Nat) (counted : Bool) (s : State) :
    (memRecord i kind offset requester cnt counted s).timing = s.timing := by
  unfold memRecord
  split
  · exact unposted_timing (post_unposted ..)
  · exact logError_timing ..

theorem retirePage_timing (i : Fin 8) (page : Nat) (s : State) : (retirePage i page s).timing = s.timing :=
  (memRecord_timing ..).trans (foldl_timing (fun _ _ => memRecord_timing ..) _ _)

theorem settleRetirement_timing (s : State) : (settleRetirement s).timing = s.timing := by
  unfold settleRetirement
  split
  · split
    · exact (unlinked_timing (finish_unlinked ..)).trans (retirePage_timing ..)
    · rfl
  · rfl

theorem validateMark_timing (s : State) : (validateMark s).timing = s.timing := by
  unfold validateMark
  split
  · exact withKeep_timing ..
  · rfl

theorem settleMemory_timing (s : State) : (settleMemory s).timing = s.timing :=
  (settleRetirement_timing _).trans (validateMark_timing _)

theorem stampBodies_timing (s : State) : (stampBodies s).timing = s.timing := rfl

theorem destroyChannel_timing (c : Channel) (code reason : Nat) (s : State) :
    (destroyChannel c code reason s).timing = s.timing :=
  (unlinked_timing (raiseAlso_unlinked ..)).trans (withRotunda_timing ..)

theorem releaseSupervisor_timing (b : Box) (s : State) : (releaseSupervisor b s).timing = s.timing := by
  unfold releaseSupervisor
  split
  · split
    · exact (unlinked_timing (raise_unlinked ..)).trans (withRotunda_timing ..)
    · rfl
  · rfl

theorem endSession_timing (b : Box) (s : State) : (endSession b s).timing = s.timing := by
  unfold endSession
  split
  · rfl
  · exact (releaseSupervisor_timing ..).trans (foldl_timing (fun _ _ => destroyChannel_timing ..) _ _)

theorem endSpent_timing (s : State) : (endSpent s).timing = s.timing := by
  refine foldl_timing (fun b t => ?_) _ _
  split
  · exact endSession_timing ..
  · rfl

theorem serveAgain_timing (s : State) : (serveAgain s).timing = s.timing := by
  unfold serveAgain
  split
  · exact withPower_timing ..
  · rfl

theorem runLantern_timing (s : State) : (runLantern s).timing = s.timing := by
  unfold runLantern
  split
  · exact withLantern_timing ..
  · rfl

theorem runTone_timing (s : State) : (runTone s).timing = s.timing := by
  unfold runTone
  split
  · exact withDsp_timing ..
  · rfl

theorem proceedShutdown_timing (s : State) : (proceedShutdown s).timing = s.timing := by
  unfold proceedShutdown
  split
  · dsimp only
    split <;> simp [endClaim]
  · rfl

theorem shutdownStep_timing (s : State) : (shutdownStep s).timing = s.timing := by
  unfold shutdownStep
  split
  · exact proceedShutdown_timing s
  · rfl

/-- Of what a millisecond brings, only the passing of time itself moves the clock and civil time. -/
theorem tick_timing (s : State) : (tick s).timing =
    (if s.aon then passTime { s with now := s.now + 1 } else { s with now := s.now + 1 }).timing := by
  unfold tick
  dsimp only
  rw [shutdownStep_timing, runTone_timing, stampBodies_timing, settleMemory_timing, endSpent_timing, serveAgain_timing,
    runLantern_timing]

theorem passTime_pending_now (s : State) : (passTime s).pending = s.pending ∧ (passTime s).now = s.now := by
  unfold passTime
  dsimp only
  repeat' split
  all_goals exact ⟨rfl, rfl⟩

theorem passTime_civil_of_no_slew {s : State} (h : s.keep.slewLeft = 0) : (passTime s).civil = w48 (s.civil + 1) := by
  unfold passTime
  rw [if_pos h]

/-- Settles O2: the idle step is `tick`, whose clock and civil time are those of `passTime`. -/
theorem idleStepIsOneMillisecond : Obligations.IdleStepIsOneMillisecond := by
  intro s hidle
  have hstep : step s = .next (tick s) := by simp only [step, hidle]
  have htick := tick_timing s
  simp only [State.timing, Prod.mk.injEq] at htick
  obtain ⟨hpending, hnow, hcivil⟩ := htick
  refine ⟨tick s, hstep, ?_, ?_, fun haon hslew => ?_, fun haon => ?_⟩
  · rw [hpending]
    split
    · exact (passTime_pending_now _).1.trans hidle
    · exact hidle
  · rw [hnow]
    split
    · exact (passTime_pending_now _).2
    · rfl
  · rw [hcivil, if_pos haon]
    exact passTime_civil_of_no_slew hslew
  · rw [hcivil, if_neg (by simp [haon])]

/-! ## The link -/

/-- Settles O7. -/
theorem repliesTouchOnlyTheLink : Obligations.RepliesTouchOnlyTheLink :=
  ⟨fun r st pl s => respond_unlinked s r st pl, fun r s => accept_unlinked s r, fun w st pl s => finish_unlinked s w st pl,
    fun b f s => taken_unlinked s b f, fun o e s => raiseAlso_unlinked s o e, fun c p pl s => raise_unlinked s c p pl,
    fun src ty c s => trace_unlinked s src ty c⟩

/-! ## The state after reset -/

/-- Settles O6: every ring, queue and log is empty at reset. -/
theorem resetIsWithinCapacities : Obligations.ResetIsWithinCapacities where
  rotunda b := by revert b; decide
  turret := by unfold Turret.Within; decide
  steeple := by unfold Steeple.Within; decide
  legal := by unfold Legal.Within; decide
  keep := by unfold Keep.Within; decide
  oculus := by unfold Oculus.Within; decide
  memory := by unfold Memory.Within; decide
  update := by unfold Update.Within; decide

/-- Settles O60. -/
theorem resetState : Obligations.ResetState :=
  ⟨rfl, rfl, rfl, by decide, by decide, rfl, rfl, rfl, rfl, rfl, rfl⟩

end Sys2Proof.Machine
end

section
/-! Host ports: the SPI transactions (R47 to R50), the frames that arrive (R49, R58, R478, R479), and what the UART and USB lines send
(R52 to R55, R61). -/

namespace Sys2Proof.Machine

/-! ## Operations on a mailbox -/

section
variable (b : Box) (s : State)

@[simp] theorem setWire_unlinked (w : List Byte) : (setWire b w s).unlinked = s.unlinked := modBox_unlinked ..
@[simp] theorem setWire_box (w : List Byte) : (setWire b w s).box b = { s.box b with wire := w } := box_modBox ..
@[simp] theorem setWire_servesBox (w : List Byte) : (setWire b w s).servesBox b = s.servesBox b := rfl
@[simp] theorem setWire_arrivals (w : List Byte) : (setWire b w s).rotunda.arrivals = s.rotunda.arrivals := rfl

@[simp] theorem countError_unlinked : (countError b s).unlinked = s.unlinked := modHost_unlinked ..
@[simp] theorem countError_box :
    (countError b s).box b = Mailbox.touch { s.box b with frameErrors := w32 ((s.box b).frameErrors + 1), errFlag := true } s.civil :=
  box_modHost ..

@[simp] theorem discardFrame_unlinked : (discardFrame b s).unlinked = s.unlinked := by simp [discardFrame]

@[simp] theorem discardFrame_frameErrors :
    ((discardFrame b s).box b).frameErrors = w32 ((s.box b).frameErrors + 1) := by simp [discardFrame, Mailbox.touch]

@[simp] theorem discardFrame_inRing : ((discardFrame b s).box b).inRing = (s.box b).inRing := by simp [discardFrame, Mailbox.touch]

/-- Lantern's counters and messages leave Rotunda as it is. -/
@[simp] theorem count_rotunda (i : Fin 64) (n : Nat) : (count i n s).rotunda = s.rotunda := by
  unfold count
  split <;> rfl

@[simp] theorem countAt_rotunda (i n : Nat) : (countAt i n s).rotunda = s.rotunda := by
  unfold countAt
  split <;> simp

@[simp] theorem trace_rotunda (src : Fin 12) (type : Nat) (content : List Byte) :
    (trace src type content s).rotunda = s.rotunda := by
  unfold trace
  dsimp only
  repeat' split
  all_goals rfl

theorem box_of_rotunda {s t : State} (h : t.rotunda = s.rotunda) : t.box b = s.box b := by
  unfold State.box
  rw [h]

@[simp] theorem count_box (i : Fin 64) (n : Nat) (c : Box) : (count i n s).box c = s.box c := box_of_rotunda c (count_rotunda s i n)

@[simp] theorem countAt_box (i n : Nat) (c : Box) : (countAt i n s).box c = s.box c := box_of_rotunda c (countAt_rotunda s i n)

@[simp] theorem trace_box (src : Fin 12) (type : Nat) (content : List Byte) (c : Box) :
    (trace src type content s).box c = s.box c := box_of_rotunda c (trace_rotunda s src type content)

theorem placeFrame_inRing (f : Frame) : ((placeFrame b f s).box b).inRing = (s.box b).inRing ++ [f] := by
  unfold placeFrame traceFrame
  dsimp only
  rw [trace_box, box_modHost]
  rfl

end

/-! ## What a received frame comes to -/

section
variable {b : Box} {bytes : List Byte} {s : State}

theorem receiveFrame_of_bad (h : parseFrame (s.rotunda.arrivals + 1) bytes = none) : ∃ t, receiveFrame b bytes s = discardFrame b t ∧
    t.unlinked = s.unlinked ∧ t.rotunda = s.rotunda := by
  unfold receiveFrame
  rw [h]
  refine ⟨_, rfl, ?_, ?_⟩ <;> split <;> split <;> simp

theorem receiveFrame_of_room {f : Frame} (h : parseFrame (s.rotunda.arrivals + 1) bytes = some f) (hserves : s.servesBox b = true)
    (hroom : (s.box b).inRing.length < 8) :
    receiveFrame b bytes s = settleAll (placeFrame b f (if 4 ≤ b.val then countAt (24 + b.val) 1 s else s)) := by
  unfold receiveFrame
  rw [h]
  exact if_pos (by simp [hserves, hroom])

/-- The frame is placed before any waiting frame is taken off. -/
theorem receiveFrame_places {f : Frame} (h : parseFrame (s.rotunda.arrivals + 1) bytes = some f) (hserves : s.servesBox b = true)
    (hroom : (s.box b).inRing.length < 8) :
    ∃ t, receiveFrame b bytes s = settleAll t ∧ (t.box b).inRing = (s.box b).inRing ++ [f] := by
  refine ⟨_, receiveFrame_of_room h hserves hroom, ?_⟩
  rw [placeFrame_inRing]
  split <;> simp

end

/-! ## SPI -/

section
variable {p : HostPort} {s : State}

theorem exec_status_of_spi (hlink : s.linkUp = true) (hspi : s.isSpi p = true) : ∃ t, exec (.status p) s = .next t ∧
    t.unlinked = s.unlinked ∧
    (t.box (hostBox p)).wire = le 1 (s.statusByte (hostBox p)) ++ s.statusBlock (hostBox p) ∧ (t.box (hostBox p)).errFlag = false := by
  change ∃ t, execStatus p s = .next t ∧ _
  unfold execStatus
  rw [if_pos (by simp [hlink, hspi])]
  refine ⟨_, rfl, ?_⟩
  split <;> simp [Mailbox.touch]

theorem exec_readFrame_of_empty (hlink : s.linkUp = true) (hspi : s.isSpi p = true) (hempty : (s.box (hostBox p)).outRing = []) (n : Nat) :
    exec (.readFrame p n) s = .next (setWire (hostBox p) (le 1 (s.statusByte (hostBox p)) ++ [0]) s) := by
  change execReadFrame p n s = _
  simp [execReadFrame, hlink, hspi, hempty]

/-- Fewer bytes than the frame's clocked: nothing is consumed. -/
theorem exec_readFrame_of_part {f : Frame} {fs : List Frame} {n : Nat} (hlink : s.linkUp = true) (hspi : s.isSpi p = true)
    (hout : (s.box (hostBox p)).outRing = f :: fs) (hpart : n < f.bytes.length) :
    exec (.readFrame p n) s = .next (setWire (hostBox p) (le 1 (s.statusByte (hostBox p)) ++ [1] ++ f.bytes.take n) s) := by
  change execReadFrame p n s = _
  simp [execReadFrame, hlink, hspi, hout, Nat.not_le.mpr hpart]

theorem exec_readFrame_of_whole {f : Frame} {fs : List Frame} {n : Nat} (hlink : s.linkUp = true) (hspi : s.isSpi p = true)
    (hout : (s.box (hostBox p)).outRing = f :: fs) (hwhole : f.bytes.length ≤ n) :
    exec (.readFrame p n) s = .next (settleAll (consumeOut (hostBox p) f
      (setWire (hostBox p) (le 1 (s.statusByte (hostBox p)) ++ [1] ++ f.bytes) s))) := by
  change execReadFrame p n s = _
  simp [execReadFrame, hlink, hspi, hout, hwhole, List.take_of_length_le hwhole]

theorem exec_readAgain_of_spi (hlink : s.linkUp = true) (hspi : s.isSpi p = true) :
    exec (.readAgain p) s = .next (setWire (hostBox p) (le 1 (s.statusByte (hostBox p)) ++
      (match (s.box (hostBox p)).kept with
        | some f => [1] ++ f.bytes
        | none => [0])) s) :=
  if_pos (by simp [hlink, hspi])

theorem exec_spiUnknownCommandByte_of_unknown {c : Byte} (hlink : s.linkUp = true) (hspi : s.isSpi p = true)
    (hunknown : ¬ c ∈ [0x3C, 0x5A, 0xA5, 0xC3]) (n : Nat) : exec (.spiUnknownCommandByte p ⟨c, n⟩) s =
      .next (countError (hostBox p) (setWire (hostBox p) (le 1 (s.statusByte (hostBox p)) ++ zeros n) s)) :=
  if_pos (by
    have hnot : spiCommandBytes.contains c = false := by simpa [spiCommandBytes] using hunknown
    rw [hlink, hspi, hnot]
    rfl)

end

/-- Settles O8: one lemma above a transaction. -/
theorem spiTransactions : Obligations.SpiTransactions := by
  unfold Obligations.SpiTransactions
  refine ⟨fun p s hlink hspi => exec_status_of_spi hlink hspi, fun p s hlink hspi hempty n => exec_readFrame_of_empty hlink hspi hempty n,
    fun p s f fs n hlink hspi hout hpart => exec_readFrame_of_part hlink hspi hout hpart,
    fun p s f fs n hlink hspi hout hwhole => exec_readFrame_of_whole hlink hspi hout hwhole, ?again, ?unknown⟩
  case again =>
    intro p s hlink hspi
    exact ⟨_, exec_readAgain_of_spi hlink hspi, setWire_unlinked .., congrArg Mailbox.wire (setWire_box ..),
      (congrArg Mailbox.outRing (setWire_box ..)).trans rfl⟩
  case unknown =>
    intro p s c hlink hspi hunknown n
    refine ⟨_, exec_spiUnknownCommandByte_of_unknown hlink hspi hunknown n, ?_⟩
    simp [Mailbox.touch]

/-! ## Frames written by the host -/

/-- Settles O9: a written frame is `receiveFrame` of its bytes on every port. -/
theorem framesArrive : Obligations.FramesArrive := by
  unfold Obligations.FramesArrive
  have hwrite (p : HostPort) (s : State) (bytes : List Byte) (hlink : s.linkUp = true) (hspi : s.isSpi p = true) :
      exec (.writeFrame p bytes) s =
        .next (receiveFrame (hostBox p) bytes (setWire (hostBox p) (le 1 (s.statusByte (hostBox p)) ++ zeros bytes.length) s)) :=
    if_pos (by simp [hlink, hspi])
  refine ⟨?bad, ?good, ?uart, ?usb⟩
  case bad =>
    intro p s bytes hlink hspi hbad
    obtain ⟨t, hreceive, hunlinked, hrotunda⟩ := receiveFrame_of_bad (b := hostBox p)
      (s := setWire (hostBox p) (le 1 (s.statusByte (hostBox p)) ++ zeros bytes.length) s) hbad
    refine ⟨_, hwrite p s bytes hlink hspi, ?_⟩
    rw [hreceive, discardFrame_unlinked, discardFrame_frameErrors, discardFrame_inRing, hunlinked, box_of_rotunda _ hrotunda]
    simp
  case good =>
    intro p s bytes f hlink hspi hgood hserves hroom
    have hlow : ¬ 4 ≤ (hostBox p).val := Nat.not_le.mpr p.isLt
    rw [hwrite p s bytes hlink hspi, receiveFrame_of_room (s := setWire (hostBox p) _ s) hgood hserves (by simpa using hroom),
      if_neg hlow]
  case uart =>
    intro u s bytes f hup hgood hserves hroom
    obtain ⟨t, hreceive, hring⟩ := receiveFrame_places hgood hserves hroom
    refine ⟨t, (if_pos hup).trans (congrArg _ hreceive), hring⟩
  case usb =>
    intro s bytes f hlink hbus hgood hserves hroom
    obtain ⟨t, hreceive, hring⟩ := receiveFrame_places hgood hserves hroom
    refine ⟨t, (if_pos (by simp [hlink, hbus, hroom])).trans (congrArg _ hreceive), hring⟩

/-! ## The lines outbound -/

/-- The frame leaves its ring and is kept, before any lost events are announced. -/
theorem consumeOut_cases (b : Box) (f : Frame) (s : State) : ∃ t, consumeOut b f s = queueGap b t ∧ t.unlinked = s.unlinked ∧
    (t.box b).outRing = (s.box b).outRing.tail ∧ (t.box b).kept = some f ∧ (t.box b).wire = (s.box b).wire := by
  refine ⟨_, rfl, ?_⟩
  simp [Mailbox.touch]

theorem exec_uartFrameSent_of_cons {u : Uart} {s : State} {f : Frame} {fs : List Frame} (hup : s.uartUp u = true)
    (hout : (s.box (uartBox u)).outRing = f :: fs) : exec (.uartFrameSent u) s =
      .next (settleAll (consumeOut (uartBox u) f (setWire (uartBox u) (unitOnLine f.bytes) s))) := by
  change execUartFrameSent u s = _
  simp [execUartFrameSent, hup, hout]

theorem exec_bulkInTransfer_of_cons {s : State} {f : Frame} {fs : List Frame} (hlink : s.linkUp = true) (hbus : s.update.vbus = true)
    (hout : (s.box 4).outRing = f :: fs) : exec .bulkInTransfer s = .next (settleAll (consumeOut 4 f (setWire 4 f.bytes s))) := by
  change execBulkInTransfer s = _
  simp [execBulkInTransfer, hlink, hbus, hout]

theorem exec_linkControlResend_of_kept {u : Uart} {s : State} {f : Frame} (hup : s.uartUp u = true)
    (hkept : (s.box (uartBox u)).kept = some f) : exec (.linkControlResend u) s =
      .next (s.modBox (uartBox u) (fun m => { m with wire := unitOnLine f.bytes, lastTxAt := s.now })) := by
  change execLinkControlResend u s = _
  simp [execLinkControlResend, hup, hkept]

theorem linkStatusDue_of {u : Uart} {s : State}
    (h : (s.box (uartBox u)).slotFreed = true ∨ (s.box (uartBox u)).lastTxAt + 100 ≤ s.now) : s.linkStatusDue u = true := by
  simpa [State.linkStatusDue, State.due] using h

@[simp] theorem pushOut_outRing (b : Box) (f : Frame) (s : State) : ((pushOut b f s).box b).outRing = (s.box b).outRing ++ [f] := by
  simp [pushOut, traceFrame, Mailbox.touch]

@[simp] theorem pushOut_lost (b : Box) (f : Frame) (s : State) : ((pushOut b f s).box b).lost = (s.box b).lost := by
  simp [pushOut, traceFrame, Mailbox.touch]

/-- EVENT_GAP takes the next event sequence (R61). -/
theorem queueGap_of_room {b : Box} {s : State} {g : LostEvents} {ss : Session} (hlost : (s.box b).lost = some g)
    (hsession : (s.box b).session = some ss) (hleft : ss.seqOut < 0xFFFFFFFF) (hroom : 0 < (s.box b).outFree) :
    ((queueGap b s).box b).lost = none ∧ ((queueGap b s).box b).outRing = (s.box b).outRing ++
      [outFrame (some ss) 2 (ss.seqOut / 65536) flagEvent (w16 ss.seqOut) 0x8001 0 0
        (le 4 g.count ++ le 4 g.first ++ le 4 g.last)] := by
  have hspent : ss.spent = false := decide_eq_false (Nat.not_le.mpr hleft)
  unfold queueGap
  simp only [hlost, hsession]
  rw [if_neg (by simp [hspent, Nat.ne_of_gt hroom]), count_box, pushOut_outRing, pushOut_lost, box_setBox]
  exact ⟨rfl, rfl⟩

/-- Settles O10: one lemma above a row. -/
theorem linesOutbound : Obligations.LinesOutbound := by
  unfold Obligations.LinesOutbound
  refine ⟨?abort, ?resend, ?status, ?sent, ?usb, ?gap⟩
  case abort =>
    intro u s hup
    refine ⟨_, if_pos hup, countError_unlinked .., ?_⟩
    rw [countError_box]
    rfl
  case resend =>
    intro u s f hup hkept
    refine ⟨_, exec_linkControlResend_of_kept hup hkept, modBox_unlinked .., ?_, ?_⟩ <;> rw [box_modBox]
    rfl
  case status =>
    intro u s hup hdue
    refine ⟨_, if_pos (by simp [hup, linkStatusDue_of hdue]), modBox_unlinked .., ?_, ?_⟩ <;> rw [box_modBox]
    rfl
  case sent =>
    intro u s f fs hup hout
    obtain ⟨t, hconsume, hunlinked, hring, hkept, -⟩ := consumeOut_cases (uartBox u) f (setWire (uartBox u) (unitOnLine f.bytes) s)
    refine ⟨t, by rw [exec_uartFrameSent_of_cons hup hout, hconsume], by rw [hunlinked, setWire_unlinked], ?_, hkept⟩
    rw [hring, setWire_box, hout]
    rfl
  case usb =>
    intro s f fs hlink hbus hout
    obtain ⟨t, hconsume, hunlinked, hring, hkept, hwire⟩ := consumeOut_cases 4 f (setWire 4 f.bytes s)
    refine ⟨t, by rw [exec_bulkInTransfer_of_cons hlink hbus hout, hconsume], by rw [hunlinked, setWire_unlinked], ?_, ?_, hkept⟩
    · rw [hwire, setWire_box]
    · rw [hring, setWire_box, hout]
      rfl
  case gap =>
    intro b s g ss hserves hlost hsession hleft hroom
    exact ⟨_, if_pos hserves, queueGap_unlinked .., queueGap_of_room hlost hsession hleft hroom⟩

end Sys2Proof.Machine
end

section
/-! Attaching, the bar after failed attaches, and the end of a session (R62 to R67). -/

namespace Sys2Proof.Machine

/-! ## Another mailbox's frames leave a mailbox as it is -/

section
variable {b c : Box} (s : State)

theorem modHost_box_ne (f : Mailbox → Mailbox) (h : c ≠ b) : (s.modHost c f).box b = s.box b := box_setBox_ne s _ h

theorem pushOut_box_ne (f : Frame) (h : c ≠ b) : (pushOut c f s).box b = s.box b := by
  unfold pushOut traceFrame
  rw [trace_box, modHost_box_ne s _ h]

theorem pushAll_box_ne (fs : List Frame) (h : c ≠ b) : (pushAll c fs s).box b = s.box b :=
  List.foldlRecOn (motive := fun t : State => t.box b = s.box b) fs _ rfl (fun t ht f _ => (pushOut_box_ne t f h).trans ht)

theorem queueGap_box_ne (h : c ≠ b) : (queueGap c s).box b = s.box b := by
  unfold queueGap
  dsimp only
  split
  · split
    · rfl
    · rw [count_box, pushOut_box_ne _ _ h, box_setBox_ne s _ h]
  · rfl

theorem queueEvent_box_ne (e : Event) (h : c ≠ b) : (queueEvent c e s).box b = s.box b := by
  unfold queueEvent
  dsimp only
  split
  · exact queueGap_box_ne s h
  · split
    · exact queueGap_box_ne s h
    · split
      · rw [pushAll_box_ne _ _ h, box_setBox_ne _ _ h, queueGap_box_ne s h]
      · rw [modHost_box_ne _ _ h, queueGap_box_ne s h]

/-- An event goes to attached hosts only. -/
theorem raiseAlso_box_of_unattached (o : Option Box) (e : Event) (h : (s.box b).session = none) :
    (raiseAlso o e s).box b = s.box b := by
  refine List.foldlRecOn (motive := fun t : State => t.box b = s.box b) hostBoxes _ rfl fun t ht c _ => ?_
  by_cases hc : c = b
  · subst hc
    rw [if_neg (by simp [State.attached, ht, h])]
    exact ht
  · split
    · exact (queueEvent_box_ne t e hc).trans ht
    · exact ht

theorem destroyChannel_box_of_unattached (x : Channel) (code reason : Nat) (h : (s.box b).session = none) :
    (destroyChannel x code reason s).box b = s.box b := by
  unfold destroyChannel
  exact raiseAlso_box_of_unattached _ _ _ h

theorem destroyAll_box_of_unattached (cs : List Channel) (reason : Nat) (h : (s.box b).session = none) :
    (destroyAll cs reason s).box b = s.box b :=
  List.foldlRecOn (motive := fun t : State => t.box b = s.box b) cs _ rfl
    (fun t ht x _ => (destroyChannel_box_of_unattached t x _ _ (ht ▸ h)).trans ht)

theorem releaseSupervisor_box_of_unattached (h : (s.box b).session = none) : (releaseSupervisor c s).box b = s.box b := by
  unfold releaseSupervisor
  split
  · split
    · exact raiseAlso_box_of_unattached _ _ _ h
    · rfl
  · rfl

end

/-! ## The end of a session -/

/-- What the end of a session leaves of its mailbox. -/
def Mailbox.detached (m : Mailbox) (civil : Nat) : Mailbox :=
  { m with session := none, epoch := m.epoch + 1, owed := 0, lost := none, stage := none, segments := none }.touch civil

theorem endSession_box {b : Box} {s : State} (h : (s.box b).session.isSome = true) :
    (endSession b s).box b = (s.box b).detached s.civil := by
  obtain ⟨ss, hss⟩ := Option.isSome_iff_exists.mp h
  have hbox (t : State) (ht : t.box b = (s.box b).detached s.civil) (cs : List Channel) :
      (releaseSupervisor b (destroyAll cs 1 t)).box b = (s.box b).detached s.civil := by
    have hnone : (t.box b).session = none := by rw [ht]; rfl
    have hall := destroyAll_box_of_unattached t cs 1 hnone
    rw [releaseSupervisor_box_of_unattached _ (hall ▸ hnone), hall, ht]
  unfold endSession
  rw [hss]
  exact hbox _ (box_setBox ..) _

/-- A completion due in an earlier session is dropped. -/
theorem finish_of_dead {w : Waiting} {s : State} (st : Nat) (pl : List Byte) (h : s.alive w.box w.epoch = false) :
    finish w st pl s = s := by
  unfold finish
  rw [if_neg (by simp [h])]

/-- Settles O13. -/
theorem sessionEnd : Obligations.SessionEnd := by
  intro b s hsession
  have hbox := endSession_box hsession
  refine ⟨by rw [hbox]; rfl, by rw [hbox]; rfl, by rw [hbox]; rfl, fun w st pl hwbox hepoch => finish_of_dead st pl ?_⟩
  simp [State.alive, hwbox, hbox, hepoch, Mailbox.detached, Mailbox.touch]

/-! ## A pending attach dropped or failed -/

section
variable (p : HostPort) (s : State)

theorem dropAttach_box : (dropAttach p s).box (hostBox p) = { s.box (hostBox p) with attach := none } := by
  have hmod : ((s.modBox (hostBox p) (fun m => { m with attach := none })).box (hostBox p)) =
      { s.box (hostBox p) with attach := none } := box_modBox ..
  unfold dropAttach
  dsimp only
  split
  · exact hmod
  · exact hmod

theorem failAttach_attach : ((failAttach p s).box (hostBox p)).attach = none := by
  unfold failAttach
  rw [box_modBox, dropAttach_box]
  dsimp only
  split <;> rfl

/-- The third failure within 10 s. -/
theorem failAttach_barUntil {t1 t2 : Nat} (h : (s.box (hostBox p)).failedAttaches = [t1, t2]) (h1 : s.now < t1 + 10000)
    (h2 : s.now < t2 + 10000) : ((failAttach p s).box (hostBox p)).barUntil = some (s.now + 10000) := by
  unfold failAttach
  rw [box_modBox, dropAttach_box]
  simp [h, h1, h2]

end

/-! ## HOST_ATTACH, HOST_ATTACH_CONFIRM -/

section
variable {p : HostPort} {f : Frame} {r : Req} {s : State}

theorem Asked.exec_hostAttach (h : Asked (hostBox p) 0x0101 f r s) :
    exec (.hostAttach (hostBox p)) s = .next (hostAttach p r (taken (hostBox p) f s)) :=
  (dif_pos p.isLt).trans (h.request (hostAttach p))

theorem Asked.exec_hostAttachConfirm (h : Asked (hostBox p) 0x0102 f r s) :
    exec (.hostAttachConfirm (hostBox p)) s = .next (hostAttachConfirm p r (taken (hostBox p) f s)) :=
  (dif_pos p.isLt).trans (h.request (hostAttachConfirm p))

theorem Asked.exec_hostStatus (h : Asked (hostBox p) 0x0104 f r s) :
    exec (.hostStatus (hostBox p)) s = .next (hostStatus p r (taken (hostBox p) f s)) :=
  (dif_pos p.isLt).trans (h.request (hostStatus p))

/-- Past role and mode, the port's session and its pending attach end. -/
theorem hostAttach_of_role (hlen : r.payload.length = 20) (hhandle : r.handle = 0) (hrole : field r.payload 0 1 = s.roleOf (hostBox p))
    (hmode : modeSuits (field r.payload 0 1) (field r.payload 1 1) = true) :
    hostAttach p r s = attachAnew p r (field r.payload 0 1) (field r.payload 1 1) (slice r.payload 4 16) s := by
  unfold hostAttach
  rw [withLength_of_length hlen, noHandle_of_zero hhandle, if_neg (Classical.not_not.mpr hrole), if_neg (by simp [hmode])]

theorem modeSuits_of_unkeyed (hrole : field r.payload 0 1 = 0 ∨ field r.payload 0 1 = 1) (hmode : field r.payload 1 1 = 0) :
    modeSuits (field r.payload 0 1) (field r.payload 1 1) = true := by
  rw [hmode]
  rcases hrole with hrole | hrole <;> rw [hrole] <;> decide

/-- A barred port's attach fails whatever it asks for (R63). -/
theorem attachAnew_of_barred (role mode : Nat) (nh : List Byte) (hbar : s.barred (hostBox p) = true) :
    attachAnew p r role mode nh s = refuse r stAttachFailed (dropAttach p (endSession (hostBox p) s)) :=
  if_pos hbar

theorem attachAnew_of_unkeyed {role : Nat} (nh : List Byte) (hbox : r.box = hostBox p) (hrole : role = 0 ∨ role = 1)
    (hbar : s.barred (hostBox p) = false) : attachAnew p r role 0 nh s = respond r stOk
      (le 1 role ++ [0] ++ le 1 p.val ++ [0] ++ zeros 16 ++ zeros 16 ++ le 2 s.power.inForce.keepalive ++ le 2 r.before)
      (openSession (hostBox p) role false [] r.seq (dropAttach p (endSession (hostBox p) s))) := by
  have hnot : role ≠ roleSupervisor := by rcases hrole with h | h <;> rw [h] <;> decide
  unfold attachAnew
  dsimp only
  rw [if_neg (by simp [hbar]), if_neg (by simp [hnot]), if_pos rfl, attachResponse, hbox]
  rfl

theorem hostAttachConfirm_of_proof {a : PendingAttach} (hlen : r.payload.length = 16) (hhandle : r.handle = 0)
    (hattach : (s.box (hostBox p)).attach = some a) (hintime : s.now ≤ a.deadline) (hproof : r.payload = a.hostProof)
    (hfree : s.rotunda.supervisor ≠ .reserved p) : hostAttachConfirm p r s =
      respond r stOk [] (openSession (hostBox p) a.role true a.sessionKey r.seq s) := by
  have hkept : ¬ (openSession (hostBox p) a.role true a.sessionKey r.seq s).rotunda.supervisor = .reserved p := hfree
  unfold hostAttachConfirm
  rw [withLength_of_length hlen, noHandle_of_zero hhandle]
  simp only [hattach]
  rw [if_neg (Nat.not_lt.mpr hintime), if_pos hproof, if_neg hkept]

end

/-- Settles O11. -/
theorem attaching : Obligations.Attaching := by
  unfold Obligations.Attaching
  refine ⟨?attach, ?confirm, ?timeout, ?barEnd, ?detach, ?status, ?keepalive⟩
  case attach =>
    intro p f r s h hlen hhandle hrole hunkeyed hmode hbar
    rw [h.exec_hostAttach, hostAttach_of_role hlen hhandle hrole (modeSuits_of_unkeyed hunkeyed hmode), hmode,
      attachAnew_of_unkeyed _ h.box hunkeyed hbar]
  case confirm =>
    intro p f r s a h hlen hhandle hattach hintime hproof hfree
    rw [h.exec_hostAttachConfirm, hostAttachConfirm_of_proof hlen hhandle hattach (by simpa using hintime) hproof hfree]
  case timeout =>
    intro p s a hserves hattach hdue
    refine ⟨?_, failAttach_attach p s⟩
    change execAttachTimeout p s = _
    simp [execAttachTimeout, hattach, hserves, due_of_le hdue]
  case barEnd =>
    intro p s n hserves hbar hdue
    refine ⟨s.modBox (hostBox p) (fun m => { m with barUntil := none }), ?_, modBox_unlinked .., ?_⟩
    · change execAttachBarEnd p s = _
      simp [execAttachBarEnd, hbar, hserves, due_of_le hdue]
    · simp [State.barred]
  case detach =>
    rintro b f r s h ⟨hempty, hhandle⟩
    refine (h.request hostDetach).trans ?_
    rw [hostDetach, withLength_of_empty hempty, noHandle_of_zero hhandle]
  case status =>
    intro p f r s h hempty hhandle hkept
    have hkept : 0x19 + p.val ∉ (taken (hostBox p) f s).rotunda.rebuilding := by simpa using hkept
    rw [h.exec_hostStatus, hostStatus, withLength_of_empty hempty, noHandle_of_zero hhandle, intact_of_kept hkept]
  case keepalive =>
    intro p s hserves hattached hdue
    exact ⟨_, if_pos (by simp [hserves, State.attached, hattached, due_of_le hdue]), rfl⟩

/-- Settles O12. That the port's session and its pending attach end before the bar is judged is the model's reading of R62 and R63
(log 29). -/
theorem failedAttachesBar : Obligations.FailedAttachesBar := by
  unfold Obligations.FailedAttachesBar
  refine ⟨fun p s t1 t2 htimes h1 h2 => failAttach_barUntil p s htimes h1 h2, ?barred⟩
  intro p f r s n h hlen hhandle hrole hmode hbar hlater
  have hbarred : (taken (hostBox p) f s).barred (hostBox p) = true := by simp [State.barred, hbar, hlater]
  rw [h.exec_hostAttach, hostAttach_of_role hlen hhandle hrole hmode, attachAnew_of_barred _ _ _ hbarred]
  rfl

end Sys2Proof.Machine
end

section
/-! Line cycles, paths and the line frequency (R154, R156, R157, R159 to R161, R183 to R185, R191). -/

namespace Sys2Proof.Machine

/-! ## The delays that follow the frequency -/

section
variable (d : Dsp)

/-- The delays change nothing else of the DSP. -/
theorem followFrequency_cases : ∃ f v, d.followFrequency = { d with delayFrequency := f, delays := v } := by
  unfold Dsp.followFrequency
  dsimp only
  split
  · exact ⟨_, _, rfl⟩
  · exact ⟨d.delayFrequency, d.delays, rfl⟩

@[simp] theorem followFrequency_frequency : d.followFrequency.frequency = d.frequency := by
  obtain ⟨f, v, h⟩ := followFrequency_cases d
  rw [h]

@[simp] theorem followFrequency_source : d.followFrequency.source = d.source := by
  obtain ⟨f, v, h⟩ := followFrequency_cases d
  rw [h]

@[simp] theorem followFrequency_lastCrossing : d.followFrequency.lastCrossing = d.lastCrossing := by
  obtain ⟨f, v, h⟩ := followFrequency_cases d
  rw [h]

/-- What a line cycle leaves of its samples: where the next begins, the phases present and the feeds of the register sets. -/
def Dsp.sums (d : Dsp) : Nat × Vector Bool 8 × Vector SetFeed 29 := (d.strobe, d.volts, d.feed)

@[simp] theorem followFrequency_sums : d.followFrequency.sums = d.sums := by
  obtain ⟨f, v, h⟩ := followFrequency_cases d
  rw [h]
  rfl

end

theorem refreshDelays_cases (d : Dsp) : ∃ v, d.refreshDelays = { d with delays := v } := ⟨_, rfl⟩

theorem refreshDelays_keeps (d : Dsp) : d.refreshDelays.sums = d.sums ∧ d.refreshDelays.frequency = d.frequency := by
  obtain ⟨v, h⟩ := refreshDelays_cases d
  rw [h]
  exact ⟨rfl, rfl⟩

/-! ## What follows the sums of a cycle -/

section
variable (s : State)

theorem loseFrequency_sets : (loseFrequency s).dsp.frequency = none ∧ (loseFrequency s).keep.closeNow = false := by
  simp [loseFrequency]

theorem loseFrequency_keeps : (loseFrequency s).dsp.sums = s.dsp.sums ∧ (loseFrequency s).keep.cycles = s.keep.cycles := by
  unfold loseFrequency
  rw [withKeep_dsp, withKeep_keep, withDsp_dsp, followFrequency_sums]
  exact ⟨rfl, rfl⟩

theorem nextFrequency_keeps (t : Nat) (d : CycleData) :
    (nextFrequency t d s).dsp.sums = s.dsp.sums ∧ (nextFrequency t d s).keep.cycles = s.keep.cycles := by
  unfold nextFrequency
  dsimp only
  split
  · exact ⟨rfl, rfl⟩
  · split
    · exact ⟨rfl, rfl⟩
    · split
      · split
        · rw [withDsp_dsp, followFrequency_sums, withDsp_keep]
          exact ⟨rfl, rfl⟩
        · exact loseFrequency_keeps _
      · exact loseFrequency_keeps _

/-- A period out of range loses the frequency, whether or not a phase is still present (R159). -/
theorem nextFrequency_of_out_of_range {t f : Nat} (d : CycleData) (hf : s.dsp.frequency = some f) (hlater : s.dsp.lastCrossing < t)
    (hout : frequencyOk (getRaw s.dsp.settings 0x0309 0) (frequencyOf [t - s.dsp.lastCrossing]) = false) :
    (nextFrequency t d s).dsp.frequency = none ∧ (nextFrequency t d s).keep.closeNow = false := by
  unfold nextFrequency
  simp only [hf]
  rw [if_neg (Nat.ne_of_gt hlater)]
  split
  · rw [if_neg (by simp [hout])]
    exact loseFrequency_sets _
  · exact loseFrequency_sets _

theorem finishes_dsp_keep (l : List (List (Nat × Cal) × Waiting × Bool)) :
    (l.foldl (fun s p => finish p.2.1 stOk [] s) s).dsp = s.dsp ∧ (l.foldl (fun s p => finish p.2.1 stOk [] s) s).keep = s.keep := by
  refine List.foldlRecOn (motive := fun t : State => t.dsp = s.dsp ∧ t.keep = s.keep) l _ ⟨rfl, rfl⟩ fun t ht p _ => ?_
  rw [finish_dsp, finish_keep]
  exact ht

theorem calCycle_keeps : (calCycle s).dsp.sums = s.dsp.sums ∧ (calCycle s).dsp.frequency = s.dsp.frequency ∧
    (calCycle s).keep = s.keep := by
  unfold calCycle
  dsimp only
  obtain ⟨hdsp, hkeep⟩ := finishes_dsp_keep (s.withDsp _) (s.dsp.calPending.filter (fun p => p.2.2))
  rw [hdsp, hkeep, withDsp_dsp, withDsp_keep, (refreshDelays_keeps _).1, (refreshDelays_keeps _).2]
  exact ⟨rfl, rfl, rfl⟩

theorem takeSettings_keeps (start : Nat) : (takeSettings start s).dsp.sums = s.dsp.sums ∧
    (takeSettings start s).dsp.frequency = s.dsp.frequency ∧ (takeSettings start s).keep = s.keep := by
  unfold takeSettings
  split
  · split <;> exact ⟨rfl, rfl, rfl⟩
  · exact ⟨rfl, rfl, rfl⟩

theorem takeSettings_of_none {s : State} (start : Nat) (h : s.dsp.settingsPending = none) : takeSettings start s = s := by
  unfold takeSettings
  rw [h]

theorem countCycle_keeps : (countCycle s).dsp = s.dsp ∧ (countCycle s).keep.cycles = sat 65535 (s.keep.cycles + 1) ∧
    (countCycle s).keep.closeNow = s.keep.closeNow := by
  unfold countCycle
  rw [withKeep_keep, withKeep_dsp]
  exact ⟨rfl, rfl, rfl⟩

theorem countCrossing_dsp_keep : (countCrossing s).dsp = s.dsp ∧ (countCrossing s).keep = s.keep := by
  unfold countCrossing
  split <;> exact ⟨rfl, rfl⟩

end

/-! ## A line cycle -/

/-- The state once a cycle's samples are summed: what `lineCycle` makes before the frequency, the counts and the calibration follow. -/
def summed (n strobe : Nat) (d : CycleData) (s : State) : State :=
  let y := s.cycleSamples n d
  let s1 := cycleWords n d y (s.presence n y) s
  s1.withDsp { s1.dsp.afterCycle n d y with
    volts := s.presence n y
    feed := Vector.ofFn (fun (i : Fin 29) => (s.dsp.feed[i]).cycle (s.sharesOf n y (s.presence n y) i))
    strobe := strobe }

@[simp] theorem summed_keep (n strobe : Nat) (d : CycleData) (s : State) : (summed n strobe d s).keep = s.keep := by
  unfold summed cycleWords
  dsimp only
  rw [withDsp_keep, withDsp_keep]

@[simp] theorem afterCycle_frequency (d : Dsp) (n : Nat) (x : CycleData) (y : CycleSamples) :
    (d.afterCycle n x y).frequency = d.frequency := rfl
@[simp] theorem afterCycle_lastCrossing (d : Dsp) (n : Nat) (x : CycleData) (y : CycleSamples) :
    (d.afterCycle n x y).lastCrossing = d.lastCrossing := rfl
@[simp] theorem afterCycle_settings (d : Dsp) (n : Nat) (x : CycleData) (y : CycleSamples) :
    (d.afterCycle n x y).settings = d.settings := rfl

/-- The frequency follows the samples' sums with the crossing, the frequency and the settings as they were. -/
theorem summed_dsp (n strobe : Nat) (d : CycleData) (s : State) : (summed n strobe d s).dsp.frequency = s.dsp.frequency ∧
    (summed n strobe d s).dsp.lastCrossing = s.dsp.lastCrossing ∧ (summed n strobe d s).dsp.settings = s.dsp.settings := by
  unfold summed cycleWords
  dsimp only
  simp only [withDsp_dsp, afterCycle_frequency, afterCycle_lastCrossing, afterCycle_settings, and_self]

theorem lineCycle_eq_summed (t strobe : Nat) (d : CycleData) (s : State) : lineCycle t strobe d s =
    let s0 := takeSettings (s.now - strobesSince s.dsp.strobe strobe / 8) s
    takeSettings s0.now (calCycle (countCycle (nextFrequency t d (countCrossing (summed (strobesSince s.dsp.strobe strobe) strobe d
      s0))))) := rfl

theorem lineCycle_keeps (t strobe : Nat) (d : CycleData) (s : State) :
    (lineCycle t strobe d s).keep.cycles = sat 65535 (s.keep.cycles + 1) ∧ (lineCycle t strobe d s).dsp.sums =
      (summed (strobesSince s.dsp.strobe strobe) strobe d (takeSettings (s.now - strobesSince s.dsp.strobe strobe / 8) s)).dsp.sums := by
  rw [lineCycle_eq_summed]
  dsimp only
  generalize hu : summed _ _ _ _ = u
  have hcycles : u.keep.cycles = s.keep.cycles := by
    rw [← hu, summed_keep, (takeSettings_keeps s _).2.2]
  obtain ⟨hdsp, hkeep⟩ := countCrossing_dsp_keep u
  obtain ⟨hsums, hcount⟩ := nextFrequency_keeps (countCrossing u) t d
  obtain ⟨hcounted, hcounts, -⟩ := countCycle_keeps (nextFrequency t d (countCrossing u))
  rw [(takeSettings_keeps _ _).2.2, (calCycle_keeps _).2.2, (takeSettings_keeps _ _).1, (calCycle_keeps _).1, hcounts, hcounted,
    hcount, hkeep, hcycles, hsums, hdsp]
  exact ⟨rfl, rfl⟩

/-- Each set's feed takes its shares of the cycle's samples. -/
theorem lineCycle_sums_of_settled (t strobe : Nat) (d : CycleData) {s : State} (h : s.dsp.settingsPending = none) :
    let n := strobesSince s.dsp.strobe strobe
    (lineCycle t strobe d s).dsp.volts = s.presence n (s.cycleSamples n d) ∧ ∀ i : Fin 29, (lineCycle t strobe d s).dsp.feed[i] =
      (s.dsp.feed[i]).cycle (s.sharesOf n (s.cycleSamples n d) (s.presence n (s.cycleSamples n d)) i) := by
  have hsums := (lineCycle_keeps t strobe d s).2
  rw [takeSettings_of_none _ h] at hsums
  simp only [Dsp.sums, Prod.mk.injEq] at hsums
  obtain ⟨-, hvolts, hfeed⟩ := hsums
  refine ⟨hvolts, fun i => ?_⟩
  rw [hfeed]
  exact Vector.getElem_ofFn _

theorem lineCycle_strobe (t strobe : Nat) (d : CycleData) (s : State) : (lineCycle t strobe d s).dsp.strobe = strobe :=
  congrArg Prod.fst (lineCycle_keeps t strobe d s).2

theorem lineCycle_loses_frequency {t f : Nat} (strobe : Nat) (d : CycleData) {s : State} (hf : s.dsp.frequency = some f)
    (hsettled : s.dsp.settingsPending = none) (hlater : s.dsp.lastCrossing < t)
    (hout : frequencyOk (getRaw s.dsp.settings 0x0309 0) (frequencyOf [t - s.dsp.lastCrossing]) = false) :
    (lineCycle t strobe d s).dsp.frequency = none ∧ (lineCycle t strobe d s).keep.closeNow = false := by
  rw [lineCycle_eq_summed, takeSettings_of_none _ hsettled]
  dsimp only
  obtain ⟨hfrequency, hcrossing, hsettings⟩ := summed_dsp (strobesSince s.dsp.strobe strobe) strobe d s
  obtain ⟨hdsp, -⟩ := countCrossing_dsp_keep (summed (strobesSince s.dsp.strobe strobe) strobe d s)
  obtain ⟨hnone, hclose⟩ := nextFrequency_of_out_of_range (countCrossing (summed (strobesSince s.dsp.strobe strobe) strobe d s)) d
    (by rw [hdsp, hfrequency, hf]) (by rwa [hdsp, hcrossing]) (by rwa [hdsp, hcrossing, hsettings])
  obtain ⟨hcounted, -, hclosed⟩ := countCycle_keeps (nextFrequency t d (countCrossing (summed (strobesSince s.dsp.strobe strobe) strobe d s)))
  rw [(takeSettings_keeps _ _).2.1, (takeSettings_keeps _ _).2.2, (calCycle_keeps _).2.1, (calCycle_keeps _).2.2, hcounted, hclosed]
  exact ⟨hnone, hclose⟩

theorem exec_lineCycleEnd_of_end {d : CycleData} {s : State} {x : Nat × Nat} (hup : s.dspUp = true) (hend : s.cycleEnd d = some x) :
    exec (.lineCycleEnd d) s = .next (lineCycle x.1 x.2 d s) := by
  change execLineCycleEnd d s = _
  simp only [execLineCycleEnd, hup, hend, if_true]

theorem exec_lineCycleEnd_of_no_end {d : CycleData} {s : State} (hend : s.cycleEnd d = none) : exec (.lineCycleEnd d) s = .next s := by
  change execLineCycleEnd d s = _
  simp only [execLineCycleEnd, hend, ite_self]

/-! ## Paths (R156, R157) -/

section
variable (c : Fin 72) (d : Dsp) (x : PathStrobe)

theorem pathStrobe_of_overload (h : x.overload = true) : (pathStrobe c d x).x16[c] = false ∧ (pathStrobe c d x).holds[c] = 47 := by
  simp [pathStrobe, h]

theorem pathStrobe_of_hold (h : x.overload = false) (hheld : d.holds[c] ≠ 0) :
    (pathStrobe c d x).x16[c] = false ∧ (pathStrobe c d x).holds[c] = d.holds[c] - 1 := by
  have hpos : d.holds[c.val] ≠ 0 := hheld
  simp [pathStrobe, h, hpos]

theorem pathStrobe_of_clear (h : x.overload = false) (hclear : d.holds[c] = 0) :
    (pathStrobe c d x).x16[c] = (d.x16[c] || decide (d.window ≤ d.clears[c])) := by
  simp [pathStrobe, h, hclear]

end

theorem exec_pathChange_of_up (c : Fin 72) (x : PathStrobe) (xs : List PathStrobe) {s : State} (hup : s.dspUp = true) :
    ∃ t, exec (.pathChange c x xs) s = .next t ∧ t.dsp = (x :: xs).foldl (pathStrobe c) s.dsp ∧ t.keep = s.keep := by
  refine ⟨_, if_pos hup, ?_⟩
  split
  · exact ⟨rfl, rfl⟩
  · exact ⟨trace_dsp .., trace_keep ..⟩

/-! ## Frequency found and lost (R159) -/

theorem exec_frequencyDetected_of_periods {x : FrequencyFound} {f : Phase} {s : State} (hup : s.dspUp = true)
    (hsource : s.sourcePhase = some f) (hnone : s.dsp.frequency = none)
    (hok : periodsOk (getRaw s.dsp.settings 0x0309 0) x.periods = true) :
    ∃ t, exec (.frequencyDetected x) s = .next t ∧ t.dsp.source = f ∧ t.dsp.frequency = some (frequencyOf x.periods) ∧
      t.keep.closeNow = true ∧ (f = 0 → t.dsp.lastCrossing = x.crossing) := by
  change ∃ t, execFrequencyDetected x s = .next t ∧ _
  unfold execFrequencyDetected
  simp only [hsource, hnone, hup, hok, Bool.and_self, if_true]
  refine ⟨_, rfl, ?_⟩
  simp only [withKeep_dsp, withKeep_keep, withDsp_dsp, followFrequency_source, followFrequency_frequency, followFrequency_lastCrossing]
  exact ⟨rfl, rfl, trivial, fun h => if_pos h⟩

theorem exec_frequencyLost_of_due {f : Nat} {s : State} (hup : s.dspUp = true) (hf : s.dsp.frequency = some f)
    (hdue : 2 * s.dsp.lastCrossing + 3 * periodNs f ≤ 2 * s.inputNow ∨ s.sourcePhase = none) :
    exec .frequencyLost s = .next (loseFrequency s) := by
  change execFrequencyLost s = _
  unfold execFrequencyLost
  simp only [hf]
  refine if_pos ?_
  simpa [hup] using hdue

/-- Settles O17. That a cycle's shares are decided by that cycle's own presence is the model's choice (log 89), and so is the frequency
as the mean of the four periods (log 91). -/
theorem lineCycles : Obligations.LineCycles := by
  unfold Obligations.LineCycles
  refine ⟨?cycle, fun d s hend => exec_lineCycleEnd_of_no_end hend, ?free, fun c x xs s hup => exec_pathChange_of_up c x xs hup,
    pathStrobe_of_overload, pathStrobe_of_hold, pathStrobe_of_clear,
    fun x f s hup hsource hnone hok => exec_frequencyDetected_of_periods hup hsource hnone hok, ?lost, ?range, ?idle⟩
  case cycle =>
    intro d s x hup hend
    exact ⟨_, exec_lineCycleEnd_of_end hup hend, (lineCycle_keeps ..).1, lineCycle_strobe .., lineCycle_sums_of_settled x.1 x.2 d⟩
  case free =>
    intro d s hnone
    simp only [State.cycleEnd, hnone]
  case lost =>
    intro f s hup hf hdue
    exact ⟨_, exec_frequencyLost_of_due hup hf hdue, loseFrequency_sets s⟩
  case range =>
    intro d s f x hup hf hend hsettled hlater hout
    exact ⟨_, exec_lineCycleEnd_of_end hup hend, lineCycle_loses_frequency x.2 d hf hsettled hlater hout⟩
  case idle =>
    intro s hnone
    change execFrequencyLost s = _
    simp only [execFrequencyLost, hnone]

end Sys2Proof.Machine
end

section
/-! What replies, events, channels and sessions leave alone: everything but Rotunda, Lantern and the link's copies. -/

namespace Sys2Proof.Machine

/-- The state without Rotunda and what frames and messages go through: every other island as it is. -/
def State.unhosted (s : State) : State :=
  { s with
    free := 0
    rotunda := Rotunda.reset
    power := { s.power with aonExecuted := Vector.replicate 4 0xFFFF }
    lantern := Lantern.reset }

section
variable {s t : State}

theorem unhosted_of_unlinked (h : s.unlinked = t.unlinked) : s.unhosted = t.unhosted := by
  have e := congrArg State.unhosted h
  exact e

theorem unhosted_pending (h : s.unhosted = t.unhosted) : s.pending = t.pending := by
  have e := congrArg (fun u : State => u.pending) h
  exact e
theorem unhosted_now (h : s.unhosted = t.unhosted) : s.now = t.now := by
  have e := congrArg (fun u : State => u.now) h
  exact e
theorem unhosted_civil (h : s.unhosted = t.unhosted) : s.civil = t.civil := by
  have e := congrArg (fun u : State => u.civil) h
  exact e
theorem unhosted_turret (h : s.unhosted = t.unhosted) : s.turret = t.turret := by
  have e := congrArg (fun u : State => u.turret) h
  exact e
theorem unhosted_steeple (h : s.unhosted = t.unhosted) : s.steeple = t.steeple := by
  have e := congrArg (fun u : State => u.steeple) h
  exact e
theorem unhosted_dsp (h : s.unhosted = t.unhosted) : s.dsp = t.dsp := by
  have e := congrArg (fun u : State => u.dsp) h
  exact e
theorem unhosted_keep (h : s.unhosted = t.unhosted) : s.keep = t.keep := by
  have e := congrArg (fun u : State => u.keep) h
  exact e
theorem unhosted_legal (h : s.unhosted = t.unhosted) : s.legal = t.legal := by
  have e := congrArg (fun u : State => u.legal) h
  exact e
theorem unhosted_belfry (h : s.unhosted = t.unhosted) : s.belfry = t.belfry := by
  have e := congrArg (fun u : State => u.belfry) h
  exact e
theorem unhosted_oculus (h : s.unhosted = t.unhosted) : s.oculus = t.oculus := by
  have e := congrArg (fun u : State => u.oculus) h
  exact e
theorem unhosted_cupola (h : s.unhosted = t.unhosted) : s.cupola = t.cupola := by
  have e := congrArg (fun u : State => u.cupola) h
  exact e
theorem unhosted_memory (h : s.unhosted = t.unhosted) : s.memory = t.memory := by
  have e := congrArg (fun u : State => u.memory) h
  exact e
theorem unhosted_update (h : s.unhosted = t.unhosted) : s.update = t.update := by
  have e := congrArg (fun u : State => u.update) h
  exact e
theorem unhosted_phase (h : s.unhosted = t.unhosted) : s.power.phase = t.power.phase := by
  have e := congrArg (fun u : State => u.power.phase) h
  exact e

theorem foldl_unhosted {α : Type} {f : State → α → State} (hf : ∀ a s, (f s a).unhosted = s.unhosted) (l : List α) (s : State) :
    (l.foldl f s).unhosted = s.unhosted :=
  List.foldlRecOn (motive := fun t => t.unhosted = s.unhosted) l f rfl (fun t ht a _ => (hf a t).trans ht)

end

section
variable (s : State)

@[simp] theorem withRotunda_unhosted (x : Rotunda) : (s.withRotunda x).unhosted = s.unhosted := rfl
@[simp] theorem setBox_unhosted (b : Box) (m : Mailbox) : (s.setBox b m).unhosted = s.unhosted := rfl
@[simp] theorem modBox_unhosted (b : Box) (f : Mailbox → Mailbox) : (s.modBox b f).unhosted = s.unhosted := rfl
@[simp] theorem modHost_unhosted (b : Box) (f : Mailbox → Mailbox) : (s.modHost b f).unhosted = s.unhosted := rfl
@[simp] theorem setChannels_unhosted (cs : List Channel) : (s.setChannels cs).unhosted = s.unhosted := rfl
@[simp] theorem addChannel_unhosted (c : Channel) : (s.addChannel c).unhosted = s.unhosted := rfl

@[simp] theorem finish_unhosted (w : Waiting) (st : Nat) (pl : List Byte) : (finish w st pl s).unhosted = s.unhosted :=
  unhosted_of_unlinked (finish_unlinked ..)
@[simp] theorem raise_unhosted (code : Nat) (port : Option Port) (pl : List Byte) : (raise code port pl s).unhosted = s.unhosted :=
  unhosted_of_unlinked (raise_unlinked ..)
@[simp] theorem raiseAlso_unhosted (o : Option Box) (e : Event) : (raiseAlso o e s).unhosted = s.unhosted :=
  unhosted_of_unlinked (raiseAlso_unlinked ..)
@[simp] theorem raiseTo_unhosted (b : Box) (e : Event) : (raiseTo b e s).unhosted = s.unhosted :=
  unhosted_of_unlinked (raiseTo_unlinked ..)
@[simp] theorem trace_unhosted (src : Fin 12) (type : Nat) (content : List Byte) : (trace src type content s).unhosted = s.unhosted :=
  unhosted_of_unlinked (trace_unlinked ..)
@[simp] theorem accept_unhosted (r : Req) : (accept r s).unhosted = s.unhosted := unhosted_of_unlinked (accept_unlinked ..)
@[simp] theorem respond_unhosted (r : Req) (st : Nat) (pl : List Byte) : (respond r st pl s).unhosted = s.unhosted :=
  unhosted_of_unlinked (respond_unlinked ..)
@[simp] theorem taken_unhosted (b : Box) (f : Frame) : (taken b f s).unhosted = s.unhosted := unhosted_of_unlinked (taken_unlinked ..)

@[simp] theorem persist_unhosted (old : Body) (c : Channel) : (persist old c s).unhosted = s.unhosted := by
  unfold persist
  split <;> rfl

@[simp] theorem setBody_unhosted (slot : Nat) (body : Body) : (setBody slot body s).unhosted = s.unhosted := by
  unfold setBody
  dsimp only
  split
  · exact persist_unhosted ..
  · rfl

@[simp] theorem addChanges_unhosted (slot n : Nat) : (addChanges slot n s).unhosted = s.unhosted := rfl

@[simp] theorem destroyChannel_unhosted (c : Channel) (code reason : Nat) : (destroyChannel c code reason s).unhosted = s.unhosted := by
  unfold destroyChannel
  dsimp only
  rw [raiseAlso_unhosted, withRotunda_unhosted]

@[simp] theorem destroyAll_unhosted (cs : List Channel) (reason : Nat) : (destroyAll cs reason s).unhosted = s.unhosted :=
  foldl_unhosted (fun _ _ => destroyChannel_unhosted ..) _ _

@[simp] theorem releaseSupervisor_unhosted (b : Box) : (releaseSupervisor b s).unhosted = s.unhosted := by
  unfold releaseSupervisor
  split
  · split
    · rw [raise_unhosted, withRotunda_unhosted]
    · rfl
  · rfl

@[simp] theorem endSession_unhosted (b : Box) : (endSession b s).unhosted = s.unhosted := by
  unfold endSession
  split
  · rfl
  · dsimp only
    rw [releaseSupervisor_unhosted, destroyAll_unhosted, setBox_unhosted]

@[simp] theorem setProgram_unhosted (handle : Nat) (st : ProgramState) : (setProgram handle st s).unhosted = s.unhosted := by
  unfold setProgram
  split
  · split
    · exact setBody_unhosted ..
    · rfl
  · rfl

end

end Sys2Proof.Machine
end

section
/-! The reference tones (R163 to R168), the latch (R190 to R194) and the saves (R195 to R197). -/

namespace Sys2Proof.Machine

/-! ## What the Keep's log and programs leave of the metering -/

section
variable (s : State)

@[simp] theorem logAppend_dsp (time type origin : Nat) (uncertain rtc : Bool) (data : List Byte) :
    (logAppend time type origin uncertain rtc data s).dsp = s.dsp := by
  simp [logAppend]

@[simp] theorem keepLog_dsp (type origin : Nat) (data : List Byte) : (keepLog type origin data s).dsp = s.dsp := logAppend_dsp ..

end

/-! ## Tones -/

section
variable (m : Fin 144) (new_ : Tone) (s : State)

/-- A tone that is set, stored where its shown state changes, moves only its channel's word and the delays with it. -/
theorem setTone_dsp : ∃ t w v, (t = new_ ∨ t = new_.store) ∧
    (setTone m new_ s).dsp = { s.dsp with words := w, tones := s.dsp.tones.set m t, delays := v } := by
  have hdsp : (setTone m new_ s).dsp = Dsp.refreshDelays { (noteBits m s).dsp with
      tones := s.dsp.tones.set m (if new_.shown = (s.dsp.tones[m]).shown then new_ else new_.store) } := by
    simp only [setTone, apply_ite State.dsp, trace_dsp, keepLog_dsp, ite_self, withDsp_dsp]
    rfl
  obtain ⟨v, h⟩ := refreshDelays_cases { (noteBits m s).dsp with
    tones := s.dsp.tones.set m (if new_.shown = (s.dsp.tones[m]).shown then new_ else new_.store) }
  refine ⟨_, (noteBits m s).dsp.words, v, ?_, hdsp.trans h⟩
  split
  · exact Or.inl rfl
  · exact Or.inr rfl

/-- A tone set changes no capture in progress. -/
theorem setTone_capture : (setTone m new_ s).dsp.capture = s.dsp.capture := by
  obtain ⟨t, w, v, -, h⟩ := setTone_dsp m new_ s
  rw [h]

theorem setTone_tone : (setTone m new_ s).dsp.tones[m] = new_ ∨ (setTone m new_ s).dsp.tones[m] = new_.store := by
  obtain ⟨t, w, v, ht, h⟩ := setTone_dsp m new_ s
  rw [h]
  simpa only [Fin.getElem_fin, Vector.getElem_set_self] using ht

theorem withCapture_of_none (f : Capture → Capture) {s : State} (h : s.dsp.capture = none) :
    s.withDsp { s.dsp with capture := s.dsp.capture.map f } = s := by
  rw [h, Option.map_none, ← h]
  rfl

end

/-- A window that has run its 10 s is judged; no capture takes it. -/
theorem exec_toneWindowEnd_of_due (m : Fin 144) (samples : List Int) {s : State} (hup : s.dspUp = true) (hfree : s.dsp.capture = none)
    (hreferenced : (s.dsp.cal[m.val]).toneAmp ≠ 0) (hdue : (s.dsp.tones[m]).windowAt + 10000 ≤ s.now) :
    let w := measureTone (s.windowStrobe m) samples
    exec (.toneWindowEnd m samples) s = .next (settleCapture (setTone m
      ((if windowValid s.dsp.tones[m] w (s.dsp.cal[m.val]) then (s.dsp.tones[m]).onValid w (s.dsp.cal[m.val]) s.time s.now
        else (s.dsp.tones[m]).onInvalid w (s.dsp.cal[m.val])).nextWindow s.now) s)) := by
  intro w
  change execToneWindowEnd m samples s = _
  unfold execToneWindowEnd
  dsimp only
  rw [if_pos (by rw [hup, due_of_le hdue]; rfl), if_neg hreferenced, withCapture_of_none]
  rw [setTone_capture, hfree]

theorem exec_toneWindowEnd_of_early (m : Fin 144) (samples : List Int) {s : State} (hearly : s.now < (s.dsp.tones[m]).windowAt + 10000) :
    exec (.toneWindowEnd m samples) s = .next s :=
  if_neg (by rw [not_due_of_lt hearly]; simp)

theorem windowValid_iff {t : Tone} {w : ToneWindow} {c : Cal} (h : c.toneAmp ≠ 0) : windowValid t w c = true ↔ t.spoiled = false ∧
    20 * w.side3205 < c.toneAmp ∧ 20 * w.side3215 < c.toneAmp ∧ c.toneAmp ≤ 2 * w.amplitude ∧ 2 * w.amplitude ≤ 3 * c.toneAmp := by
  simp [windowValid, sideBandsOk, amplitudeOk, Cal.reference, h, and_assoc]

theorem onValid_of_not_lost {t : Tone} (w : ToneWindow) (c : Cal) (time now : Nat) (h : t.state ≠ .lost) :
    (t.onValid w c time now).gain = stepTo 20 t.gain (clampTo 5000 (gainTarget w c)) ∧
    (t.onValid w c time now).phase = stepTo 1 t.phase (clampTo 300 (phaseTarget w c)) := by
  simp [Tone.onValid, h]

theorem onInvalid_of_third_fail {t : Tone} {w : ToneWindow} {c : Cal} (hclean : t.spoiled = false) (hside : sideBandsOk w c = true)
    (htwo : t.amplitudeFails = 2) : (t.onInvalid w c).state = .lost := by
  simp [Tone.onInvalid, hclean, hside, htwo, sat]

theorem exec_toneObscured_of_due (m : Fin 144) {s : State} (hup : s.dspUp = true) (hdue : (s.dsp.tones[m]).lastValidAt + 86400000 ≤ s.now)
    (hreferenced : (s.dsp.tones[m]).state ≠ .notReferenced) : ∃ t, exec (.toneObscured m) s = .next t ∧
      (t.dsp.tones[m]).obscured = true ∧ (t.dsp.tones[m]).state = (s.dsp.tones[m]).state := by
  change ∃ t, execToneObscured m s = .next t ∧ _
  unfold execToneObscured
  dsimp only
  simp only [Fin.getElem_fin] at hdue hreferenced ⊢
  by_cases hobscured : (s.dsp.tones[m.val]).obscured = true
  · exact ⟨s, if_neg (by simp [hobscured]), hobscured, rfl⟩
  · refine ⟨_, if_pos (by simp [hup, due_of_le hdue, hreferenced, hobscured]), ?_⟩
    have htone := setTone_tone m { s.dsp.tones[m.val] with obscured := true } s
    simp only [Fin.getElem_fin] at htone
    rcases htone with h | h <;> rw [h] <;> exact ⟨rfl, rfl⟩

theorem exec_toneStateSave_of_due {s : State} (hup : s.dspUp = true) (hkeep : s.keepUp = true)
    (hdue : s.dsp.tonesStoredAt + 600000 ≤ s.now) : exec .toneStateSave s =
      .next (s.withDsp { s.dsp with tones := s.dsp.tones.map Tone.store, tonesStoredAt := s.now }) :=
  if_pos (by rw [hup, hkeep, due_of_le hdue]; rfl)

/-- Settles O18. -/
theorem toneTracking : Obligations.ToneTracking := by
  unfold Obligations.ToneTracking
  refine ⟨?valid, ?invalid, fun m w s hearly => exec_toneWindowEnd_of_early m w hearly, fun t w c h => windowValid_iff h,
    fun t w c time now h => onValid_of_not_lost w c time now h, fun t w c hclean hside htwo => onInvalid_of_third_fail hclean hside htwo,
    fun m s hup hdue hreferenced => exec_toneObscured_of_due m hup hdue hreferenced, ?save⟩
  case valid =>
    intro m samples s hup hfree hreferenced hdue w hvalid
    rw [exec_toneWindowEnd_of_due m samples hup hfree hreferenced hdue, if_pos hvalid]
  case invalid =>
    intro m samples s hup hfree hreferenced hdue w hinvalid
    rw [exec_toneWindowEnd_of_due m samples hup hfree hreferenced hdue, if_neg (Bool.eq_false_iff.mp hinvalid)]
  case save =>
    intro s hup hkeep hdue
    refine ⟨_, exec_toneStateSave_of_due hup hkeep hdue, rfl, fun m => ?_⟩
    simp only [withDsp_dsp, Fin.getElem_fin, Vector.getElem_map]
    exact ⟨rfl, rfl, rfl, rfl⟩

/-! ## Saves -/

theorem completeSave_of_idle {s : State} (h : s.keep.saving = none) : completeSave s = s := by
  unfold completeSave
  rw [h]

@[simp] theorem afterSave_keep (s : State) (w : SaveFor) : (afterSave s w).keep = s.keep := by
  unfold afterSave
  split
  · split
    · rw [finish_keep, withPower_keep]
    · rfl
  · split
    · rw [finish_keep, withPower_keep]
    · rfl
  · rfl
  · rfl

theorem completeSave_of_saving {s : State} {v : Save} {ws : List SaveFor} (h : s.keep.saving = some (v, ws)) :
    completeSave s = ws.foldl afterSave (s.withKeep ({ s.keep with saving := none }.writeSave v)) := by
  unfold completeSave
  rw [h]

theorem afterSaves_keep (ws : List SaveFor) (s : State) : (ws.foldl afterSave s).keep = s.keep :=
  List.foldlRecOn (motive := fun t : State => t.keep = s.keep) ws _ rfl (fun t ht w _ => (afterSave_keep t w).trans ht)

/-- Settles O20. -/
theorem savesComplete : Obligations.SavesComplete := by
  intro s v ws hup hsaving
  have hkeep := afterSaves_keep ws (s.withKeep ({ s.keep with saving := none }.writeSave v))
  refine ⟨_, if_pos hup, ?_⟩
  rw [completeSave_of_saving hsaving, hkeep]
  refine ⟨rfl, rfl, rfl, rfl, fun hnone => ?_⟩
  rw [hnone]
  rfl

/-! ## The latch -/

/-- What a latch takes and starts anew: the latched registers, the cycles of the period and the metering. -/
def State.period_ (s : State) : Latched × Nat × Dsp := (s.keep.latched, s.keep.cycles, s.dsp)

section
variable {s t : State}

theorem period_of_unhosted (h : s.unhosted = t.unhosted) : s.period_ = t.period_ := by
  rw [State.period_, State.period_, unhosted_keep h, unhosted_dsp h]

theorem foldl_period {α : Type} {f : State → α → State} (hf : ∀ a s, (f s a).period_ = s.period_) (l : List α) (s : State) :
    (l.foldl f s).period_ = s.period_ :=
  List.foldlRecOn (motive := fun t => t.period_ = s.period_) l f rfl (fun t ht a _ => (hf a t).trans ht)

theorem latchEvents_unhosted (old new_ : Latched) (s : State) (i : Fin 29) : (latchEvents old new_ s i).unhosted = s.unhosted := by
  unfold latchEvents
  dsimp only
  repeat' split
  all_goals simp only [raise_unhosted]

theorem latchSessions_period (l : Latched) (s : State) : (latchSessions l s).period_ = s.period_ := by
  unfold latchSessions
  dsimp only
  refine (foldl_period (fun c t => ?_) _ _).trans rfl
  split
  · split
    · rfl
    · exact period_of_unhosted (setBody_unhosted ..)
  · rfl

theorem keepLog_period (type origin : Nat) (data : List Byte) (s : State) : (keepLog type origin data s).period_ = s.period_ := by
  rw [State.period_, keepLog_keep, keepLog_dsp]
  rfl

theorem programChanged_period (s : State) (c : Nat × Nat × Nat) : (programChanged s c).period_ = s.period_ := by
  have hlog (a b d e : Nat) (u : State) : (programLog a b d e u).period_ = u.period_ := keepLog_period ..
  have hset (a : Nat) (st : ProgramState) (u : State) : (setProgram a st u).period_ = u.period_ :=
    period_of_unhosted (setProgram_unhosted ..)
  unfold programChanged
  dsimp only
  rw [period_of_unhosted (raise_unhosted ..), hlog]
  repeat' split
  all_goals simp only [hset, hlog]

theorem finishTimeSet_period (n : Nat) (s : State) (w : Waiting) : (finishTimeSet n s w).period_ = s.period_ := by
  unfold finishTimeSet
  dsimp only
  rw [period_of_unhosted (raise_unhosted ..), period_of_unhosted (finish_unhosted ..)]

theorem withKeep_period {k : Keep} (hlatched : k.latched = s.keep.latched) (hcycles : k.cycles = s.keep.cycles) :
    (s.withKeep k).period_ = s.period_ := by
  rw [State.period_, withKeep_keep, withKeep_dsp, hlatched, hcycles]
  rfl

theorem noteStrobe_period (n : Nat) (s : State) : (noteStrobe n s).period_ = s.period_ := withKeep_period rfl rfl

theorem notePrevious_period (l : Latched) (s : State) : (notePrevious l s).period_ = s.period_ := withKeep_period rfl rfl

theorem latchBoundaries_period (s : State) : (latchBoundaries s).period_ = s.period_ := by
  unfold latchBoundaries finishIdleTimeSets
  dsimp only
  split
  · rfl
  · split
    · exact withKeep_period rfl rfl
    · refine (foldl_period (fun w t => finishTimeSet_period 0 t w) _ _).trans ((withKeep_period rfl rfl).trans ?_)
      exact (foldl_period (fun c t => programChanged_period t c) _ _).trans (withKeep_period rfl rfl)

theorem latchSave_period (s : State) : (latchSave s).period_ = s.period_ := by
  unfold latchSave
  dsimp only
  split
  · exact withKeep_period rfl rfl
  · rfl

theorem traceLatch_period (l : Latched) (s : State) : (traceLatch l s).period_ = s.period_ := by
  unfold traceLatch
  split
  · rfl
  · exact period_of_unhosted (trace_unhosted ..)

theorem deliverStreams_period (l : Latched) (s : State) : (deliverStreams l s).period_ = s.period_ := by
  refine foldl_period (fun c t => ?_) _ _
  split
  · split
    · dsimp only
      split
      · exact period_of_unhosted ((raiseTo_unhosted ..).trans (setBody_unhosted ..))
      · exact period_of_unhosted (setBody_unhosted ..)
    · rfl
  · rfl

end

/-- Of what follows in a latch, nothing changes what `takeFeed` took. -/
theorem makeLatch_period {s : State} (hwriting : s.keep.writing = none) (hsaving : s.keep.saving = none) :
    (makeLatch s).period_ = (takeFeed s.nextLatch s).period_ := by
  unfold makeLatch
  rw [completeSave_of_idle hsaving, commitWrite_of_idle hwriting]
  dsimp only
  rw [deliverStreams_period, traceLatch_period, noteStrobe_period, latchSave_period, latchBoundaries_period, latchSessions_period,
    notePrevious_period, foldl_period (fun i t => period_of_unhosted (latchEvents_unhosted _ _ t i))]

/-- Settles O19. That the latch's time is the billing time at the row's command is the model's reading of R190 and R191 (log 87). -/
theorem latchTakesThePeriod : Obligations.LatchTakesThePeriod := by
  intro s hkeep hdsp hdue hwriting hsaving
  have hlatchDue : s.latchDue = true := by simpa [State.latchDue] using hdue
  have hperiod := makeLatch_period hwriting hsaving
  simp only [State.period_, Prod.mk.injEq] at hperiod
  obtain ⟨hlatched, hcycles, hmeter⟩ := hperiod
  refine ⟨makeLatch s, if_pos (by rw [hkeep, hdsp, hlatchDue]; rfl), ?_⟩
  rw [hlatched, hcycles, hmeter]
  refine ⟨rfl, rfl, rfl, rfl, rfl, rfl, fun i => ?_⟩
  change ((s.nextLatch).sets[i]).regs = _
  simp only [State.nextLatch, Fin.getElem_fin, Vector.getElem_ofFn]
  rfl

end Sys2Proof.Machine
end

section
/-! BILLING_CLOSE, TARIFF_ACTIVATE and the commit of a boundary write (R326, R334, R335); signed readings (R339, R358). -/

namespace Sys2Proof.Machine

/-! ## The rows -/

section
variable {b : Box} {f : Frame} {r : Req} {s : State}

theorem Asked.exec_billingClose (h : Asked b 0x0505 f r s) : exec (.billingClose b) s = .next (billingClose r (taken b f s)) :=
  h.request billingClose

theorem Asked.exec_tariffActivate (h : Asked b 0x0506 f r s) :
    exec (.tariffActivate b) s = .next (tariffActivate r (taken b f s)) :=
  h.request tariffActivate

theorem Asked.exec_readSigned (h : Asked b 0x0503 f r s) : exec (.readSigned b) s = .next (readSigned r (taken b f s)) :=
  h.request readSigned

end

/-! ## What a commit leaves in the Keep -/

section
variable (s : State)

@[simp] theorem setProgram_keep (handle : Nat) (st : ProgramState) : (setProgram handle st s).keep = s.keep :=
  unhosted_keep (setProgram_unhosted ..)

@[simp] theorem programLog_keep (origin handle old new_ : Nat) : (programLog origin handle old new_ s).keep = s.keep := keepLog_keep ..

theorem programChanged_keep (c : Nat × Nat × Nat) : (programChanged s c).keep = s.keep := by
  unfold programChanged
  dsimp only
  rw [raise_keep, programLog_keep]
  repeat' split
  all_goals simp only [setProgram_keep, programLog_keep]

theorem foldl_keep {α : Type} {f : State → α → State} (hf : ∀ a s, (f s a).keep = s.keep) (l : List α) (s : State) :
    (l.foldl f s).keep = s.keep :=
  List.foldlRecOn (motive := fun t : State => t.keep = s.keep) l f rfl (fun t ht a _ => (hf a t).trans ht)

/-- What a boundary write brings into force: the write in progress, the save, the demand, the tariff and the records. -/
def Keep.written (k : Keep) : Option BoundaryWrite × Option Save × Demand × Tariff × List BoundaryRecord :=
  (k.writing, k.saved, k.demand, k.tariff, k.boundaries)

/-- A commit's completions change only the list of what waits. -/
theorem finishKeepWaiting_written (b : BoundaryWrite) : (finishKeepWaiting b s).keep.written = s.keep.written := by
  unfold finishKeepWaiting
  dsimp only
  rw [foldl_keep (fun w t => by split <;> simp only [finishTimeSet_keep, finish_keep])]
  rfl

end

theorem commitWrite_written {s : State} {w : BoundaryWrite} (h : s.keep.writing = some w) : (commitWrite s).keep.written =
    (none, some w.save, w.save.demand, w.save.tariff, (w.record :: s.keep.boundaries).take 256) := by
  unfold commitWrite
  rw [h]
  dsimp only
  rw [afterSaves_keep, trace_keep, finishKeepWaiting_written, foldl_keep (fun c t => programChanged_keep t c)]
  split <;> simp only [raise_keep, withKeep_keep] <;> rfl

/-! ## BILLING_CLOSE and TARIFF_ACTIVATE -/

section
variable {r : Req} {s : State}

theorem billingClose_of_free (hlen : r.payload.length = 4) (hhandle : r.handle = 0) (hup : s.keepUp = true)
    (hwriting : s.keep.writing = none) (hfree : s.closeBusy = false) :
    billingClose r s =
      let s1 := keepLog 0x0061 r.box.val (le 4 s.keep.tariff.period ++ slice r.payload 0 2) (accept r s)
      s1.withKeep { s1.keep with closeRequest := true, waiting := s1.keep.waiting ++ [r.wait] } := by
  unfold billingClose
  rw [withLength_of_length hlen, noHandle_of_zero hhandle, keepServes_of_up hup, commitWrite_of_idle hwriting]
  exact if_neg (Bool.eq_false_iff.mp hfree)

theorem billingClose_of_busy (hlen : r.payload.length = 4) (hhandle : r.handle = 0) (hup : s.keepUp = true)
    (hwriting : s.keep.writing = none) (hbusy : s.closeBusy = true) : billingClose r s = refuse r stBusy s := by
  unfold billingClose
  rw [withLength_of_length hlen, noHandle_of_zero hhandle, keepServes_of_up hup, commitWrite_of_idle hwriting]
  exact if_pos hbusy

/-- A tariff program's handle holds its type, so it is not 0. -/
theorem handle_ne_zero_of_program {h : Nat} {x : ProgramState × List Byte}
    (hprogram : (s.channelOf h).bind Channel.program? = some x) : h ≠ 0 := by
  obtain ⟨c, hc, hx⟩ := Option.bind_eq_some_iff.mp hprogram
  have hhandle : c.handle = h := by simpa using List.find?_some hc
  unfold Channel.program? at hx
  split at hx
  · next hbody =>
    rw [← hhandle, Channel.handle, hbody, Body.typeCode, handleOf]
    omega
  · simp at hx

theorem tariffActivate_of_valid {st : ProgramState} {prog : List Byte} (hlen : r.payload.length = 8) (hcurrent : s.current r.handle = true)
    (hprogram : (s.channelOf r.handle).bind Channel.program? = some (st, prog)) (hup : s.keepUp = true) (hwriting : s.keep.writing = none)
    (hwhen : field r.payload 0 1 = 0) (hinstant : field r.payload 2 6 = 0) (hother : st ≠ .active) (hvalid : s.activationFault prog = 0) :
    tariffActivate r s = activate r r.handle 0 0 st.code s := by
  have hhandle := handle_ne_zero_of_program hprogram
  unfold tariffActivate
  dsimp only
  rw [withLength_of_length hlen, withHandle_of_current hhandle hcurrent, hprogram, hwhen, hinstant]
  dsimp only
  rw [check_of_true (by simp), keepServes_of_up hup, commitWrite_of_idle hwriting]
  simp only [hother, hvalid, if_false, ne_eq, not_true_eq_false]

/-- The program becomes the pending one; the program in force stays. -/
theorem activate_tariff (handle when_ instant old : Nat) :
    (activate r handle when_ instant old s).keep.tariff = { s.keep.tariff with pending := some ⟨handle, when_, instant⟩ } := by
  unfold activate
  dsimp only
  rw [finish_keep, programLog_keep, accept_keep, setProgram_keep, withKeep_keep]
  dsimp only
  repeat' split
  all_goals simp only [setProgram_keep, programLog_keep]

end

/-- Settles O21. -/
theorem billingCommands : Obligations.BillingCommands := by
  unfold Obligations.BillingCommands
  refine ⟨?close, ?again, ?activate, ?commit⟩
  case close =>
    intro b f r s hasked hlen hhandle hup hwriting hnone hnever
    refine ⟨_, hasked.exec_billingClose, ?_⟩
    rw [billingClose_of_free hlen hhandle (by simpa using hup) (by simpa using hwriting)
      (by simp [State.closeBusy, hnone, hnever])]
    simp [keepLog, logAppend_nextIndex]
  case again =>
    rintro b f r s hasked ⟨hlen, hhandle, hup, hwriting, hnow⟩
    rw [hasked.exec_billingClose, billingClose_of_busy hlen hhandle hup hwriting (by rw [State.closeBusy, hnow]; simp)]
    rfl
  case activate =>
    intro b f r s st prog hasked hlen hcurrent hprogram hup hwriting hwhen hinstant hother hvalid
    refine ⟨_, hasked.exec_tariffActivate, ?_⟩
    rw [tariffActivate_of_valid hlen hcurrent hprogram (by simpa using hup) (by simpa using hwriting) hwhen hinstant hother hvalid,
      activate_tariff, taken_keep]
    exact ⟨rfl, rfl⟩
  case commit =>
    intro s w hup hwriting
    have hwritten := commitWrite_written hwriting
    simp only [Keep.written, Prod.mk.injEq] at hwritten
    exact ⟨commitWrite s, if_pos hup, hwritten⟩

/-! ## Signed readings -/

theorem takeCounter_counter (s : State) : (takeCounter s).2.legal.counter = s.legal.counter + 1 := rfl

theorem takeCounter_reservedEnd (s : State) : (takeCounter s).2.legal.reservedEnd =
    if s.legal.reservedEnd ≤ s.legal.counter then s.legal.counter + 1024 else s.legal.reservedEnd := rfl

section
variable {r : Req} {s : State}

theorem queueSignature_of_room (j : SignJob) (hup : s.keepUp = true) (hcd7 : s.up .cd7 = true) (hlive : s.cupola.zeroized = false)
    (hroot : s.cupola.rootOk = true) (hrng : s.cupola.rngHealthy = true) (hroom : s.legal.signing.length < 16) :
    queueSignature r j s =
      (accept r s).withLegal { s.legal with signing := s.legal.signing ++ [{ j with request := some r.wait }] } := by
  unfold queueSignature
  rw [if_neg (by simp [hup, hcd7]), if_neg (by simp [hlive, hroot]), if_neg (by simp [hrng]; omega)]

theorem readSigned_of_register (hlen : r.payload.length = 12) (hhandle : r.handle = 0) (hkind : field r.payload 0 1 = 1)
    (hset : field r.payload 1 1 ≤ 28) (hindex : field r.payload 2 1 = 0) :
    readSigned r s = queueSignature r ⟨1, field r.payload 1 1, 0, 0, slice r.payload 4 6, none, none⟩ s := by
  unfold readSigned
  dsimp only
  rw [withLength_of_length hlen, hkind, hindex, if_neg (by decide), if_neg (by simp [hhandle]),
    if_neg (by simp [readSignedOk, hset, within])]
  rfl

end

/-- The job leaves the queue; what waited outside it moves in. -/
theorem requeue_legal (jobs : List SignJob) (s : State) : (requeue jobs s).legal = { s.legal with
    signing := (jobs ++ s.legal.waitingRecords).take 16, waitingRecords := (jobs ++ s.legal.waitingRecords).drop 16 } := rfl

theorem signHead_legal (j : SignJob) (c : RecordCore) (s : State) :
    (signHead j c s).legal = (takeCounter (requeue s.legal.signing.tail s)).2.legal := by
  unfold signHead deliverRecord traceEnclave
  dsimp only
  split <;> simp only [finish_legal, raise_legal, trace_legal, countAt_legal] <;> rfl

theorem signHead_keep (j : SignJob) (c : RecordCore) (s : State) : (signHead j c s).keep = s.keep := by
  unfold signHead deliverRecord traceEnclave
  dsimp only
  split <;> simp only [finish_keep, raise_keep, trace_keep, countAt_keep] <;> rfl

/-- Settles O22. -/
theorem signedReadings : Obligations.SignedReadings := by
  unfold Obligations.SignedReadings
  refine ⟨?queue, ?sign, ?counter⟩
  case queue =>
    intro b f r s hasked hlen hhandle hkind hset hindex hup hcd7 hlive hroot hrng hroom
    rw [hasked.exec_readSigned, readSigned_of_register hlen hhandle hkind hset hindex,
      queueSignature_of_room _ (by simpa using hup) (by simpa using hcd7) (by simpa using hlive) (by simpa using hroot)
        (by simpa using hrng) (by simpa using hroom)]
    rw [taken_legal]
  case sign =>
    intro j js s c hqueue hfew hwaiting hsigns hcore
    have hexec : exec .signatureComplete s = .next (signHead j c s) := by
      change execSignatureComplete s = _
      unfold execSignatureComplete
      simp only [hqueue, hsigns, hcore, if_true]
    refine ⟨_, hexec, ?_⟩
    rw [signHead_legal, signHead_keep, takeCounter_counter, requeue_legal]
    refine ⟨?_, rfl, ?_, rfl⟩
    · change ((s.legal.signing.tail ++ s.legal.waitingRecords).take 16) = js
      rw [hqueue, hwaiting, List.append_nil, List.tail_cons, List.take_of_length_le hfew]
    · exact Nat.le_trans (Nat.add_le_add_left (by decide) _) (Nat.le_max_right ..)
  case counter =>
    rintro s n t htake
    obtain ⟨rfl, rfl⟩ := Prod.mk.inj htake
    exact ⟨rfl, rfl, rfl⟩

end Sys2Proof.Machine
end

section
/-! Calibration writes, the seal and CALEN (R178, R345 to R348, R356); tamper inputs and the always-on buffer (R349 to R352). -/

namespace Sys2Proof.Machine

/-! ## The rows -/

section
variable {b : Box} {f : Frame} {r : Req} {s : State}

theorem Asked.exec_calWrite (h : Asked b 0x050A f r s) : exec (.calWrite b) s = .next (calWrite r (taken b f s)) := h.request calWrite

theorem Asked.exec_calSeal (h : Asked b 0x050B f r s) : exec (.calSeal b) s = .next (calSeal r (taken b f s)) := h.request calSeal

end

/-! ## CAL_WRITE and CAL_SEAL -/

section
variable {r : Req} {s : State}

theorem calRefusal_of_blown (h : s.legal.fuse = .blown) : s.calRefusal = some stSealed := by
  simp [State.calRefusal, h]

theorem calRefusal_of_low (hfuse : s.legal.fuse = .intact) (hlow : s.legal.calen = false) : s.calRefusal = some stCalenLow := by
  simp [State.calRefusal, hfuse, hlow]

theorem calRefusal_of_open (hfuse : s.legal.fuse = .intact) (hhigh : s.legal.calen = true) : s.calRefusal = none := by
  simp [State.calRefusal, hfuse, hhigh]

theorem calWrite_of_refusal {st : Nat} (hlen : r.payload.length = 4 + 12 * field r.payload 1 1) (hhandle : r.handle = 0)
    (hrefusal : s.calRefusal = some st) : calWrite r s = refuse r st s := by
  unfold calWrite
  dsimp only
  rw [withLength_of_length hlen, noHandle_of_zero hhandle, hrefusal]

section
variable (hlen : r.payload.length = 4 + 12 * field r.payload 1 1) (hhandle : r.handle = 0) (hop : field r.payload 0 1 = 1)
  (hlow : 1 ≤ field r.payload 1 1) (hhigh : field r.payload 1 1 ≤ 32) (hup : s.keepUp = true) (hopen : s.calRefusal = none)
  (hentries : ((List.range (field r.payload 1 1)).map (calEntry r.payload)).all (calEntryOk 1) = true)
include hlen hhandle hop hlow hhigh hup hopen hentries

/-- A capture asked for: the request waits for the windows of its modulators. -/
theorem calWrite_of_capture (hcapture : s.dsp.capture = none) (hsealing : s.legal.sealing = none) :
    calWrite r s = (accept r s).withDsp { s.dsp with
      capture := some ⟨((List.range (field r.payload 1 1)).map (calEntry r.payload)).map (fun e => (e.1, [])), r.box, r.seq, r.epoch,
        s.now + 60000⟩ } := by
  unfold calWrite
  dsimp only
  rw [withLength_of_length hlen, noHandle_of_zero hhandle, hopen, hop]
  dsimp only
  rw [if_neg (by simp [hentries, within_of_le hlow hhigh]), keepServes_of_up hup, if_neg (by simp [hcapture, hsealing]),
    if_neg (by decide), accept_dsp, accept_now]
  simp only [List.map_map, Function.comp_def]

theorem calWrite_of_sealing (hsealing : s.legal.sealing.isSome = true) : calWrite r s = refuse r stBusy s := by
  unfold calWrite
  dsimp only
  rw [withLength_of_length hlen, noHandle_of_zero hhandle, hopen, hop]
  dsimp only
  rw [if_neg (by simp [hentries, within_of_le hlow hhigh]), keepServes_of_up hup, if_pos (by simp [hsealing])]

end

theorem calSeal_of_open (hlen : r.payload.length = 4) (hhandle : r.handle = 0) (hup : s.keepUp = true) (hopen : s.calRefusal = none)
    (hcapture : s.dsp.capture = none) (hpending : s.dsp.calPending = []) (hsealing : s.legal.sealing = none)
    (hcheck : field r.payload 0 4 = s.calCheck) :
    calSeal r s = (accept r s).withLegal { s.legal with sealing := some (1, s.calCheck, r.wait) } := by
  have hnone : s.sealRefusal s.calCheck = none := by
    simp [State.sealRefusal, hopen, hcapture, hpending, hsealing]
  unfold calSeal
  dsimp only
  rw [withLength_of_length hlen, noHandle_of_zero hhandle, keepServes_of_up hup, hcheck, hnone]

end

/-! ## The pulses of the seal, the capture's limit and CALEN -/

section
variable {s : State} {c : Nat} {w : Waiting}

theorem exec_sealPulseEnd_of_first_intact (hup : s.keepUp = true) (hsealing : s.legal.sealing = some (1, c, w))
    (hfuse : s.legal.fuse = .intact) :
    exec (.sealPulseEnd .intact) s = .next (s.withLegal { s.legal with sealing := some (2, c, w) }) := by
  change execSealPulseEnd .intact s = _
  unfold execSealPulseEnd
  rw [hsealing]
  simp only [hup, hfuse, senseFuse, if_true]
  rw [if_pos (by decide), ← hfuse]

theorem senseFuse_blown (old : FuseSense) : senseFuse old .blown = .blown := by
  cases old <;> rfl

/-- A pulse after which the fuse reads blown ends the seal, whatever its number, with a log entry. -/
theorem exec_sealPulseEnd_of_blown {n : Nat} (hup : s.keepUp = true) (hsealing : s.legal.sealing = some (n, c, w)) :
    ∃ t, exec (.sealPulseEnd .blown) s = .next t ∧ t.legal.fuse = .blown ∧ t.legal.sealing = none ∧
      t.legal.nextIndex = w32 (s.legal.nextIndex + 1) := by
  change ∃ t, execSealPulseEnd .blown s = .next t ∧ _
  unfold execSealPulseEnd
  rw [hsealing]
  simp only [hup, if_true, senseFuse_blown]
  rw [if_neg (by simp), if_neg (by simp)]
  refine ⟨_, rfl, ?_⟩
  rw [finish_legal, sealLog, logAppend_legal]
  exact ⟨rfl, rfl, rfl⟩

theorem exec_calCaptureTimeout_of_due {c : Capture} (hup : s.keepUp = true) (hcapture : s.dsp.capture = some c) (hdue : c.deadline ≤ s.now) :
    exec .calCaptureTimeout s = .next (finish c.waiting stRefusedState [] (s.withDsp { s.dsp with capture := none })) := by
  change execCalCaptureTimeout s = _
  unfold execCalCaptureTimeout
  rw [hcapture]
  exact if_pos (by rw [hup, due_of_le hdue]; rfl)

theorem exec_calenChange_of_change {l : Bool} (hup : s.keepUp = true) (hchange : s.legal.calen ≠ l) (hcapture : s.dsp.capture = none) :
    exec (.calenChange l) s =
      .next (keepLog (if l then 0x0010 else 0x0011) originKeep [] (s.withLegal { s.legal with calen := l })) := by
  change execCalenChange l s = _
  unfold execCalenChange
  rw [if_pos (by simp [hup, hchange])]
  dsimp only
  rw [keepLog_dsp, withLegal_dsp, hcapture]

end

/-- Settles O24. -/
theorem calibrationAndSeal : Obligations.CalibrationAndSeal := by
  unfold Obligations.CalibrationAndSeal
  refine ⟨?capture, ?blown, ?low, ?sealing, fun s c hup hcapture hdue => exec_calCaptureTimeout_of_due hup hcapture hdue, ?sealed,
    fun s c w hup hsealing hfuse => exec_sealPulseEnd_of_first_intact hup hsealing hfuse,
    fun s n c w hup hsealing => exec_sealPulseEnd_of_blown hup hsealing, ?calen⟩
  case capture =>
    intro b f r s hasked hhandle hop hlow hhigh hlen hup hfuse hcalen hentries hcapture hsealing
    rw [hasked.exec_calWrite, calWrite_of_capture hlen hhandle hop hlow hhigh (by simpa using hup)
      (calRefusal_of_open (by simpa using hfuse) (by simpa using hcalen)) hentries (by simpa using hcapture) (by simpa using hsealing),
      taken_dsp, taken_now, hasked.box]
  case blown =>
    rintro b f r s hasked ⟨hlen, hhandle, hup, hfuse⟩
    rw [hasked.exec_calWrite, calWrite_of_refusal hlen hhandle (calRefusal_of_blown hfuse)]
    rfl
  case low =>
    rintro b f r s hasked ⟨hlen, hhandle, hup, hfuse, hcalen⟩
    rw [hasked.exec_calWrite, calWrite_of_refusal hlen hhandle (calRefusal_of_low hfuse hcalen)]
    rfl
  case sealing =>
    rintro b f r s hasked ⟨hlen, hhandle, hup, hfuse, hcalen, hop, hlow, hhigh, hentries, hsealing⟩
    rw [hasked.exec_calWrite, calWrite_of_sealing hlen hhandle hop hlow hhigh hup (calRefusal_of_open hfuse hcalen) hentries hsealing]
    rfl
  case sealed =>
    intro b f r s hasked hlen hhandle hup hfuse hcalen hcapture hpending hsealing hcheck
    have hsame : (taken b f s).calCheck = s.calCheck := by
      unfold State.calCheck State.calStored
      rw [taken_dsp]
    rw [hasked.exec_calSeal, calSeal_of_open hlen hhandle (by simpa using hup)
      (calRefusal_of_open (by simpa using hfuse) (by simpa using hcalen)) (by simpa using hcapture) (by simpa using hpending)
      (by simpa using hsealing) (hcheck.trans hsame.symm), taken_legal, hsame]
  case calen =>
    intro l s hup hchange hcapture
    refine ⟨_, exec_calenChange_of_change hup hchange hcapture, ?_⟩
    rw [keepLog_dsp, keepLog, logAppend_legal]
    exact ⟨rfl, rfl, rfl⟩

/-! ## Tamper inputs -/

theorem aonStore_of_room {s : State} {time type source : Nat} (hroom : s.legal.aonBuffer.length < 64) :
    aonStore time type source s = s.withLegal { s.legal with
      aonBuffer := s.legal.aonBuffer ++ [⟨time, type, s.legal.aonSeq, source⟩], aonSeq := w16 (s.legal.aonSeq + 1) } := if_pos hroom

theorem aonStore_of_full {s : State} {time type source : Nat} (hfull : 64 ≤ s.legal.aonBuffer.length) :
    aonStore time type source s = s.withLegal { s.legal with aonLost := sat 255 (s.legal.aonLost + 1), aonLostTime := time } :=
  if_neg (Nat.not_lt.mpr hfull)

theorem exec_cover_of_change {o : Bool} {s : State} (haon : s.aon = true) (hchange : s.legal.coverOpen ≠ o) :
    let s1 := aonStore (w48 (s.civil - 125)) (if o then 1 else 2) 0 s
    exec (.tamperInputChange .cover o) s = .next (s1.withLegal { s1.legal with coverOpen := o }) := by
  cases o <;> exact if_pos (by simp [haon, hchange])

theorem exec_terminal_of_change {o : Bool} {s : State} (haon : s.aon = true) (hchange : s.legal.terminalOpen ≠ o) :
    let s1 := aonStore (w48 (s.civil - 125)) (if o then 3 else 4) 0 s
    exec (.tamperInputChange .terminal o) s = .next (s1.withLegal { s1.legal with terminalOpen := o }) := by
  cases o <;> exact if_pos (by simp [haon, hchange])

theorem moveAonBuffer_of_one {s : State} {e : AonEntry} (hbuffer : s.legal.aonBuffer = [e]) (hlost : s.legal.aonLost = 0) :
    (moveAonBuffer s).legal.aonBuffer = [] ∧ (moveAonBuffer s).legal.log = (moveAon s e).legal.log := by
  unfold moveAonBuffer
  rw [hbuffer, hlost]
  exact ⟨rfl, rfl⟩

theorem moveAon_log_of_new {s : State} {e : AonEntry} (hnew : ∀ x ∈ s.legal.log, x.aonSeq ≠ some e.seq) :
    (moveAon s e).legal.log =
      ringPush 1024 s.legal.log ⟨s.legal.nextIndex, e.time, e.type, 5, s.keep.uncertain, true, e.data⟩ := by
  unfold moveAon
  rw [if_neg (by simpa using hnew), logAppend_log]
  rfl

theorem moveAon_of_moved {s : State} {e : AonEntry} {x : LogEntry} (hx : x ∈ s.legal.log) (hseq : x.aonSeq = some e.seq) :
    moveAon s e = s :=
  if_pos (List.any_eq_true.mpr ⟨x, hx, by simp [hseq]⟩)

/-- Settles O25. -/
theorem tamperInputs : Obligations.TamperInputs := by
  unfold Obligations.TamperInputs
  refine ⟨?cover, ?terminal, ?full, ?move, ?moved⟩
  case cover =>
    intro o s haon hchange hroom
    refine ⟨_, exec_cover_of_change haon hchange, ?_⟩
    rw [aonStore_of_room hroom]
    exact ⟨rfl, rfl, rfl⟩
  case terminal =>
    intro o s haon hchange hroom
    refine ⟨_, exec_terminal_of_change haon hchange, ?_⟩
    rw [aonStore_of_room hroom]
    exact ⟨rfl, rfl, rfl⟩
  case full =>
    intro o s haon hchange hfull
    refine ⟨_, exec_cover_of_change haon hchange, ?_⟩
    rw [aonStore_of_full hfull]
    exact ⟨rfl, rfl⟩
  case move =>
    intro e s hup hbuffer hlost hnew
    obtain ⟨hempty, hlog⟩ := moveAonBuffer_of_one hbuffer hlost
    exact ⟨moveAonBuffer s, if_pos hup, hempty, hlog.trans (moveAon_log_of_new hnew)⟩
  case moved =>
    intro e x s hup hbuffer hlost hx hseq
    obtain ⟨hempty, hlog⟩ := moveAonBuffer_of_one hbuffer hlost
    exact ⟨moveAonBuffer s, if_pos hup, hempty, by rw [hlog, moveAon_of_moved hx hseq]⟩

end Sys2Proof.Machine
end

section
/-! What posts, sessions and the credit of ENERGISED leave of the lanes and of Steeple. -/

namespace Sys2Proof.Machine

section
variable {s t : State}

theorem unposted_lane (h : s.unposted = t.unposted) (p : Port) : s.lane p = t.lane p := by
  have e := congrArg (fun u : State => u.turret.lanes) h
  exact congrArg (fun v : Vector Lane 24 => v[p.val]) e

theorem unposted_now (h : s.unposted = t.unposted) : s.now = t.now := by
  have e := congrArg (fun u : State => u.now) h
  exact e

theorem unposted_civil (h : s.unposted = t.unposted) : s.civil = t.civil := by
  have e := congrArg (fun u : State => u.civil) h
  exact e

theorem unhosted_lane (h : s.unhosted = t.unhosted) (p : Port) : s.lane p = t.lane p := by
  rw [State.lane, State.lane, unhosted_turret h]

end

section
variable (s : State)

@[simp] theorem post_lane (o : Option Port) (c : QContent) (p : Port) : (post o c s).lane p = s.lane p :=
  unposted_lane (post_unposted ..) p
@[simp] theorem post_now (o : Option Port) (c : QContent) : (post o c s).now = s.now := unposted_now (post_unposted ..)
@[simp] theorem post_civil (o : Option Port) (c : QContent) : (post o c s).civil = s.civil := unposted_civil (post_unposted ..)
@[simp] theorem post_rotunda (o : Option Port) (c : QContent) : (post o c s).rotunda = s.rotunda := unposted_rotunda (post_unposted ..)

@[simp] theorem setSession_unhosted (c : Channel) (b : SessionBody) : (setSession c b s).unhosted = s.unhosted := setBody_unhosted ..

@[simp] theorem settleStops_unhosted (handle : Nat) (pay : List Byte) : (settleStops handle pay s).unhosted = s.unhosted :=
  foldl_unhosted (fun _ _ => finish_unhosted ..) _ _

/-- The end of a port's session changes, of the islands, its two requests in the lane. -/
theorem endPortSession_unhosted (p : Port) (reason : Nat) : (endPortSession p reason s).unhosted =
    (s.modLane p (fun l => { l with stopRequest := false, stopped := false })).unhosted := by
  unfold endPortSession
  dsimp only
  split
  · rfl
  · split
    · split
      · rw [settleStops_unhosted, raise_unhosted, setSession_unhosted]
      · exact setSession_unhosted ..
    · rfl

theorem endPortSession_lane_ne {p q : Port} (reason : Nat) (h : p ≠ q) : (endPortSession p reason s).lane q = s.lane q :=
  (unhosted_lane (endPortSession_unhosted s p reason) q).trans (lane_modLane_ne s _ h)

/-- What a lane's time in ENERGISED is credited with leaves every island but the lane's mark of its start. -/
theorem creditEnergised_cases (p : Port) : (creditEnergised p s).unhosted = s.unhosted ∨
    (creditEnergised p s).unhosted = (s.modLane p (fun l => { l with energisedAt := none })).unhosted := by
  unfold creditEnergised
  split
  · next c b _ _ =>
    right
    have h := (setSession_unhosted (addChanges c.slot ((s.sessionNow c b).energisedMs / 1000 - b.energisedMs / 1000) s) c
      (s.sessionNow c b)).trans (addChanges_unhosted ..)
    exact congrArg (fun u : State => u.modLane p (fun l => { l with energisedAt := none })) h
  · exact Or.inr rfl
  · exact Or.inl rfl

theorem creditEnergised_lane (p : Port) : (creditEnergised p s).lane p = s.lane p ∨
    (creditEnergised p s).lane p = (s.lane p).stamp { s.lane p with energisedAt := none } s.civil := by
  rcases creditEnergised_cases s p with h | h
  · exact Or.inl (unhosted_lane h p)
  · exact Or.inr ((unhosted_lane h p).trans (lane_modLane ..))

theorem creditEnergised_lane_ne {p q : Port} (hne : p ≠ q) : (creditEnergised p s).lane q = s.lane q := by
  rcases creditEnergised_cases s p with h | h
  · exact unhosted_lane h q
  · exact (unhosted_lane h q).trans (lane_modLane_ne s _ hne)

@[simp] theorem creditEnergised_steeple (p : Port) : (creditEnergised p s).steeple = s.steeple := by
  rcases creditEnergised_cases s p with h | h
  · exact unhosted_steeple h
  · exact (unhosted_steeple h).trans (modLane_steeple ..)

@[simp] theorem creditEnergised_civil (p : Port) : (creditEnergised p s).civil = s.civil := by
  rcases creditEnergised_cases s p with h | h
  · exact unhosted_civil h
  · exact (unhosted_civil h).trans (modLane_civil ..)

end

/-! ## Transitions -/

section
variable (p : Port) (n : Nat) (st : PortState) (s : State)

/-- The state a transition starts from: ENERGISED's time is credited first. -/
def State.leaving (s : State) (p : Port) : State := if (s.lane p).state = .energised then creditEnergised p s else s

theorem leaving_civil : (s.leaving p).civil = s.civil := by
  unfold State.leaving
  split
  · exact creditEnergised_civil ..
  · rfl

theorem leaving_steeple : (s.leaving p).steeple = s.steeple := by
  unfold State.leaving
  split
  · exact creditEnergised_steeple ..
  · rfl

theorem leaving_drive : ((s.leaving p).lane p).drive = (s.lane p).drive := by
  unfold State.leaving
  split
  · rcases creditEnergised_lane s p with h | h <;> rw [h]
    exact stamp_drive ..
  · rfl

theorem leaving_lane_ne {q : Port} (h : p ≠ q) : (s.leaving p).lane q = s.lane q := by
  unfold State.leaving
  split
  · exact creditEnergised_lane_ne s h
  · rfl

theorem transit_lane : (transit p n st s).lane p =
    ((s.leaving p).lane p).stamp (((s.leaving p).lane p).enter st n s.time) s.civil := by
  unfold transit
  dsimp only
  rw [post_lane, trace_lane, lane_modLane]
  change ((s.leaving p).lane p).stamp (((s.leaving p).lane p).enter st n (s.leaving p).time) (s.leaving p).civil = _
  rw [State.time, leaving_civil]
  rfl

@[simp] theorem transit_steeple : (transit p n st s).steeple = s.steeple := by
  unfold transit
  dsimp only
  rw [post_steeple, trace_steeple, modLane_steeple]
  exact leaving_steeple p s

theorem transit_lane_ne {q : Port} (h : p ≠ q) : (transit p n st s).lane q = s.lane q := by
  unfold transit
  dsimp only
  rw [post_lane, trace_lane, lane_modLane_ne _ _ h]
  exact leaving_lane_ne p s h

end

section
variable (l : Lane) (st : PortState) (n time : Nat)

theorem enter_state : (l.enter st n time).state = st := by unfold Lane.enter; dsimp only; split <;> rfl
theorem enter_transition : (l.enter st n time).transition = n := by unfold Lane.enter; dsimp only; split <;> rfl
theorem enter_stateTime : (l.enter st n time).stateTime = time := by unfold Lane.enter; dsimp only; split <;> rfl
theorem enter_nextDrive : (l.enter st n time).nextDrive = st.drive := by unfold Lane.enter; dsimp only; split <;> rfl
theorem enter_drive : (l.enter st n time).drive = if st = .lockout then .low else l.drive := by
  unfold Lane.enter; dsimp only; split <;> rfl

end

end Sys2Proof.Machine
end

section
/-! Lane evaluation (R105 to R115, R132, R133). -/

namespace Sys2Proof.Machine

/-! ## What a lane takes from the samples of a period -/

section
variable (now : Nat) (l : Lane)

theorem filterCtf_cases (c : Bool) : ∃ f run odd, l.filterCtf now c = { l with ctf := f, ctfRun := run, ctfOdd := odd } := by
  unfold Lane.filterCtf
  split
  · exact ⟨l.ctf, _, _, rfl⟩
  · split <;> exact ⟨_, _, _, rfl⟩

theorem filterCtf_foldl_cases (cs : List Bool) :
    ∃ f run odd, cs.foldl (Lane.filterCtf now) l = { l with ctf := f, ctfRun := run, ctfOdd := odd } :=
  List.foldlRecOn (motive := fun m : Lane => ∃ f run odd, m = { l with ctf := f, ctfRun := run, ctfOdd := odd }) cs (Lane.filterCtf now)
    ⟨l.ctf, l.ctfRun, l.ctfOdd, rfl⟩ (fun m hm c _ => by
      obtain ⟨f, run, odd, rfl⟩ := hm
      exact filterCtf_cases now _ c)

/-- What Turret's part takes of the samples: the window's counts and the proximity. -/
theorem sampleTurret_cases (x : LaneSample) (mode map settle : Nat) : ∃ portMode phaseMap cable band run window used,
    sampleTurret x mode map settle l = { l with
      portMode := portMode, phaseMap := phaseMap, cable := cable, ppBand := band, ppRun := run, window := window, settleUsed := used
      ppOhm := proximityOhm x.pps x.vdda } := by
  unfold sampleTurret
  dsimp only
  repeat' split
  all_goals exact ⟨_, _, _, _, _, _, _, rfl⟩

end

/-- What an evaluation period's samples set, of the fields that R107 to R113 and R120 name. -/
structure Lane.Sampled (x : LaneSample) (settle now : Nat) (l m : Lane) : Prop where
  high : m.highMv = (plateau x.vdda (highWindow (l.drive == .pwm) settle l.duty x.cps)).getD l.highMv
  low : m.lowMv = plateau x.vdda (lowWindow (l.drive == .pwm) settle l.duty x.cps)
  cls : m.lastClass = some (classify m.highMv m.lowMv)
  ctf : m.ctf = (x.ctf.foldl (Lane.filterCtf now) l).ctf
  pbf : m.pbf = x.pbf
  rms : m.rcsRms = x.rcsRms
  ohm : m.ppOhm = proximityOhm x.pps x.vdda
  run : m.classRun = if l.lastClass = m.lastClass then sat 255 (l.classRun + 1) else 1
  next : m.nextDrive = l.nextDrive

theorem sampled_of_samples (x : LaneSample) (mode map settle now : Nat) (l : Lane) :
    l.Sampled x settle now (sampleTurret x mode map settle (sampleSteeple x settle now l)) := by
  obtain ⟨portMode, phaseMap, cable, band, run, window, used, hturret⟩ := sampleTurret_cases (sampleSteeple x settle now l) x mode map settle
  obtain ⟨f, ctfRun, odd, hfold⟩ := filterCtf_foldl_cases now l x.ctf
  rw [hturret]
  unfold sampleSteeple
  rw [hfold]
  constructor <;> first | rfl | rw [hfold]

namespace Lane.Sampled

variable {x : LaneSample} {settle now : Nat} {l m : Lane}

theorem stamp (h : l.Sampled x settle now m) (o : Lane) (civil : Nat) : l.Sampled x settle now (o.stamp m civil) := by
  obtain ⟨hhigh, hlow, hcls, hctf, hpbf, hrms, hohm, hrun, hnext⟩ := h
  constructor <;> simpa

theorem withDrive (h : l.Sampled x settle now m) (d : PilotDrive) (n : Nat) :
    l.Sampled x settle now { m with drive := d, duty := n } := by
  obtain ⟨hhigh, hlow, hcls, hctf, hpbf, hrms, hohm, hrun, hnext⟩ := h
  constructor <;> assumption

end Lane.Sampled

/-! ## The boundary -/

section
variable (p : Port) (s : State)

/-- At the boundary a lane takes the drive set for it; under PWM its duty as well. -/
theorem takeDuty_lane : ∃ d n, (takeDuty p s).lane p = (s.lane p).stamp { s.lane p with drive := d, duty := n } s.civil ∧
    ((s.lane p).nextDrive ≠ .pwm → d = (s.lane p).nextDrive ∧ n = 0) := by
  unfold takeDuty
  rw [lane_modLane]
  dsimp only
  split
  · exact ⟨_, _, rfl, fun _ => ⟨rfl, rfl⟩⟩
  · next hpwm =>
    split
    · exact ⟨(s.lane p).drive, (s.lane p).duty, rfl, fun h => absurd h hpwm⟩
    · exact ⟨_, _, rfl, fun h => absurd h hpwm⟩

@[simp] theorem takeDuty_steeple : (takeDuty p s).steeple = s.steeple := modLane_steeple ..

theorem takeDuty_lane_ne {q : Port} (h : p ≠ q) : (takeDuty p s).lane q = s.lane q := lane_modLane_ne s _ h

@[simp] theorem advanceAlive_lane (q : Port) : (advanceAlive s).lane q = s.lane q := by
  unfold advanceAlive
  split <;> rfl

@[simp] theorem advanceAlive_civil : (advanceAlive s).civil = s.civil := by
  unfold advanceAlive
  split <;> rfl

theorem advanceAlive_aliveAt : (advanceAlive s).steeple.aliveAt = s.now := by
  unfold advanceAlive
  split
  · assumption
  · rfl

theorem advanceAlive_aliveCount : (advanceAlive s).steeple.aliveCount =
    if s.steeple.aliveAt = s.now then s.steeple.aliveCount else w32 (s.steeple.aliveCount + 1) := by
  unfold advanceAlive
  split <;> rfl

/-- Turret and Steeple take a period's samples; a classification that differs and is not yet confirmed is counted. -/
def sampledLane (p : Port) (x : LaneSample) (s : State) : State :=
  let s1 := s.modLane p (fun l => sampleTurret x (s.cfg 0x0201 p.val) (s.cfg 0x0203 p.val) (s.cfg 0x0205 p.val)
    (sampleSteeple x (s.cfg 0x0205 p.val) s.now l))
  if (s1.lane p).lastClass ≠ (s1.lane p).confirmed ∧ (s1.lane p).classRun < 3 then countAt p.val 1 s1 else s1

variable (x : LaneSample)

theorem sampledLane_lane : (s.lane p).Sampled x (s.cfg 0x0205 p.val) s.now ((sampledLane p x s).lane p) := by
  have h := (sampled_of_samples x (s.cfg 0x0201 p.val) (s.cfg 0x0203 p.val) (s.cfg 0x0205 p.val) s.now (s.lane p)).stamp (s.lane p) s.civil
  unfold sampledLane
  dsimp only
  split
  · rw [countAt_lane, lane_modLane]
    exact h
  · rw [lane_modLane]
    exact h

theorem sampledLane_lane_ne {q : Port} (h : p ≠ q) : (sampledLane p x s).lane q = s.lane q := by
  unfold sampledLane
  dsimp only
  split
  · rw [countAt_lane, lane_modLane_ne _ _ h]
  · exact lane_modLane_ne _ _ h

theorem sampledLane_steeple : (sampledLane p x s).steeple = s.steeple := by
  unfold sampledLane
  dsimp only
  split
  · rw [countAt_steeple, modLane_steeple]
  · rfl

theorem sampledLane_now : (sampledLane p x s).now = s.now := by
  unfold sampledLane
  dsimp only
  split
  · rw [countAt_now, modLane_now]
  · rfl

end

section
variable {p : Port} {s : State}

theorem exec_evaluationPeriod_of_up (x : LaneSample) (hup : s.turretUp = true) :
    let t := takeDuty p (advanceAlive (sampledLane p x s))
    exec (.evaluationPeriod p x) s = .next (refreshLane p (if (t.lane p).confirms then t else evaluateInputs p t)) :=
  if_pos hup

/-- Three periods of a class that differs confirm it (R112). -/
theorem exec_pilotConfirmed_of_run (hup : s.turretUp = true) (hrun : 3 ≤ (s.lane p).classRun)
    (hother : (s.lane p).lastClass ≠ (s.lane p).confirmed) :
    ∃ v u, exec (.pilotConfirmed p) s = .next (refreshLane p (evaluateInputs p (s.modLane p (fun l => { l with
      confirmed := l.lastClass, bandChanged := true, vehicleAt := v, unbroken := l.unbroken && u })))) := by
  change ∃ v u, execPilotConfirmed p s = _
  unfold execPilotConfirmed
  dsimp only
  rw [if_pos (by simp [hup, hrun, hother])]
  exact ⟨_, _, rfl⟩

/-- Fifty samples of a proximity code that differs accept it (R114). -/
theorem exec_proximityCodeAccepted_of_run (hup : s.turretUp = true) (hmode : (s.lane p).portMode ≠ 1) (hrun : 50 ≤ (s.lane p).ppRun)
    (hother : (s.lane p).ppBand ≠ (s.lane p).cable) (hnone : s.portSession p = none) :
    let t := s.modLane p (fun l => { l with
      cable := l.ppBand
      cableChanged := l.state == .testing || l.state == .closing || l.state == .energised || l.state == .shed })
    exec (.proximityCodeAccepted p) s = .next (refreshLane p (evaluateInputs p (if (cableRating (s.lane p).ppBand).isSome then
      post (some p) (.cable (s.lane p).ppBand (s.lane p).ppOhm) t else t))) := by
  intro t
  have hsession : t.portSession p = none := by
    rw [← hnone]
    simp only [State.portSession, t, lane_modLane, stamp_session]
    rfl
  change execProximityCodeAccepted p s = _
  unfold execProximityCodeAccepted
  dsimp only
  rw [if_pos (by simp [hup, hmode, hrun, hother]), hsession]

theorem exec_cableRefused_of_late {v : Nat} (hup : s.turretUp = true) (hawaits : s.awaitsCable p = true)
    (hvehicle : (s.lane p).vehicleAt = some v) (hlate : v + 200 ≤ s.now) :
    exec (.cableRefused p) s = .next (refreshLane p (transit p 3 .cableRefused (endPortSession p 7 s))) := by
  change execCableRefused p s = _
  unfold execCableRefused
  rw [hvehicle]
  exact if_pos (by simp [hup, hawaits, due_of_le hlate])

theorem awaitsCable_of_connected (hcable : s.cableOk p = false) (hstate : (s.lane p).state = .connected) : s.awaitsCable p = true := by
  simp [State.awaitsCable, hcable, hstate]

theorem awaitsCable_of_suspended {x : Channel × SessionBody} (hcable : s.cableOk p = false) (hstate : (s.lane p).state = .suspended)
    (hsession : s.portSession p = some x) (hnone : x.2.cable = 0) : s.awaitsCable p = true := by
  simp [State.awaitsCable, hcable, hstate, hsession, hnone]

end

/-- Settles O26. Three of its clauses are the model's reading: a period in which a confirmation comes due leaves the inputs to the
confirmation's row (log 152), LOCKOUT takes the pilot low at once (log 168), and a cable is refused from SUSPENDED too (log 189). -/
theorem laneEvaluation : Obligations.LaneEvaluation := by
  unfold Obligations.LaneEvaluation
  refine ⟨?period, ?pilot, ?proximity, ?refused, ?transit⟩
  case period =>
    intro p x s hup
    refine ⟨_, exec_evaluationPeriod_of_up x hup, ?_⟩
    obtain ⟨d, n, hlane, hdrive⟩ := takeDuty_lane p (advanceAlive (sampledLane p x s))
    rw [advanceAlive_lane] at hlane hdrive
    have hsampled := ((sampledLane_lane p s x).withDrive d n).stamp ((sampledLane p x s).lane p) (advanceAlive (sampledLane p x s)).civil
    rw [← hlane] at hsampled
    obtain ⟨hhigh, hlow, hcls, hctf, hpbf, hrms, hohm, hrun, -⟩ := hsampled
    refine ⟨hhigh, hlow, hcls, hctf, hpbf, hrms, hohm, hrun, fun hnext => ?_, ?_, ?_, fun q hq => ?_⟩
    · rw [(sampledLane_lane p s x).next] at hdrive
      rw [hlane, stamp_drive, stamp_duty]
      exact hdrive hnext
    · rw [takeDuty_steeple, advanceAlive_aliveAt, sampledLane_now]
    · rw [takeDuty_steeple, advanceAlive_aliveCount, sampledLane_steeple, sampledLane_now]
    · rw [takeDuty_lane_ne p _ hq.symm, advanceAlive_lane, sampledLane_lane_ne p s x hq.symm]
  case pilot =>
    intro p s hup hrun hother
    obtain ⟨v, u, hexec⟩ := exec_pilotConfirmed_of_run hup hrun hother
    refine ⟨_, hexec, ?_, ?_, fun q hq => lane_modLane_ne s _ hq.symm⟩
    · rw [lane_modLane, stamp_confirmed]
    · rw [lane_modLane, stamp_bandChanged]
  case proximity =>
    intro p s hup hmode hrun hother hnone
    refine ⟨_, exec_proximityCodeAccepted_of_run hup hmode hrun hother hnone, ?_, fun q hq => lane_modLane_ne s _ hq.symm⟩
    rw [lane_modLane, stamp_cable]
  case refused =>
    intro p s v hup hcable hvehicle hlate hstate
    refine exec_cableRefused_of_late hup ?_ hvehicle hlate
    rcases hstate with h | ⟨h, x, hsession, hnone⟩
    · exact awaitsCable_of_connected hcable h
    · exact awaitsCable_of_suspended hcable h hsession hnone
  case transit =>
    intro p n st s
    refine ⟨?_, ?_, ?_, ?_, ?_, transit_steeple p n st s, fun q hq => transit_lane_ne p n st s hq.symm⟩ <;> rw [transit_lane]
    · rw [stamp_state, enter_state]
    · rw [stamp_transition, enter_transition]
    · rw [stamp_stateTime, enter_stateTime]
    · rw [stamp_nextDrive, enter_nextDrive]
    · rw [stamp_drive, enter_drive, leaving_drive]

end Sys2Proof.Machine
end

section
/-! Closing and opening sequences (R124 to R128), the outlet voltage (R122) and the residual test (R130). -/

namespace Sys2Proof.Machine

/-! ## Closing -/

section
variable {p : Port} {s : State} {st a : Nat}

section
variable (hup : s.turretUp = true) (hseq : (s.lane p).seq = .closing 1 st a) (hdue : st + 30 ≤ s.now)
include hup hseq hdue

/-- The contactor settled as it should, with no voltage and no stop: the closing goes on with step 3. -/
theorem exec_closingContactorSettled_of_closed (hovs : (s.lane p).ovs = false) (hshed : (s.lane p).shedActive = false) :
    exec (.closingContactorSettled p true true) s =
      .next ((s.modLane p (fun l => l.seeCtf true)).modLane p (fun l => { l with seq := .closing 3 st s.now })) := by
  change execClosingContactorSettled p true true s = _
  unfold execClosingContactorSettled
  rw [hseq]
  refine (if_pos (by rw [hup, due_of_le hdue]; rfl)).trans ((if_neg (by decide)).trans ((if_neg ?_).trans (if_neg ?_)))
  · simp [Lane.seeCtf, hovs]
  · simp [Lane.seeCtf, hshed]

theorem exec_closingContactorSettled_of_not_closed {c u : Bool} (hbad : (c && u) = false) :
    exec (.closingContactorSettled p c u) s =
      .next (failSequence p 0 3 st 0x0401 (setCtd p false (s.modLane p (fun l => l.seeCtf c)))) := by
  change execClosingContactorSettled p c u s = _
  unfold execClosingContactorSettled
  rw [hseq]
  exact (if_pos (by rw [hup, due_of_le hdue]; rfl)).trans (if_pos (by rw [hbad]; rfl))

end

theorem exec_closingPreBreakStart_of_closing (hup : s.turretUp = true) (hpermit : s.permit p = true)
    (hseq : (s.lane p).seq = .closing 3 st a) :
    exec (.closingPreBreakStart p) s =
      .next (setPbd p true ((noteTimed p s).modLane p (fun l => { l with seq := .closing 4 st s.now }))) := by
  change execClosingPreBreakStart p s = _
  unfold execClosingPreBreakStart
  rw [if_pos (by rw [hup, hpermit]; rfl), hseq]
  rfl

theorem exec_closingPbfCheck_of_step (pbf : Bool) (hup : s.turretUp = true) (hseq : (s.lane p).seq = .closing 4 st a) :
    exec (.closingPbfCheck p pbf) s =
      let s1 := s.modLane p (fun l => { l with pbf := pbf, closeStep5Ok := pbf })
      if pbf then .next (s1.modLane p (fun l => { l with seq := .closing 5 st a }))
      else .next (failSequence p 0 5 st 0x0402 s1) := by
  change execClosingPbfCheck p pbf s = _
  unfold execClosingPbfCheck
  rw [hseq]
  exact if_pos hup

/-- The lane with the edge of its outlet voltage. -/
theorem ovsEdge_lane : ((s.modLane p (fun l => { l with ovs := true, ovsAt := s.now, quietSince := none })).lane p).seq = (s.lane p).seq := by
  rw [lane_modLane, stamp_seq]

theorem exec_ovsEdge_of_closing (hup : s.turretUp = true) (hseq : (s.lane p).seq = .closing 5 st a) :
    exec (.ovsEdge p) s = .next (energise p st (s.modLane p (fun l => { l with ovs := true, ovsAt := s.now, quietSince := none }))) := by
  change execOvsEdge p s = _
  unfold execOvsEdge
  dsimp only
  rw [if_pos hup, ovsEdge_lane, hseq]
  rfl

theorem exec_ovsEdge_of_none (hup : s.turretUp = true) (hseq : (s.lane p).seq = .none) :
    exec (.ovsEdge p) s = .next (s.modLane p (fun l => { l with ovs := true, ovsAt := s.now, quietSince := none })) := by
  change execOvsEdge p s = _
  unfold execOvsEdge
  dsimp only
  rw [if_pos hup, ovsEdge_lane, hseq]

theorem exec_ovsAbsent_of_quiet (hup : s.turretUp = true) (hovs : (s.lane p).ovs = true) (hdue : (s.lane p).ovsAt + 25 ≤ s.now) :
    exec (.ovsAbsent p) s = .next (s.modLane p (fun l => { l with ovs := false })) :=
  if_pos (by rw [hup, hovs, due_of_le hdue]; rfl)

theorem exec_ovsPresenceTimeout_of_closing (hup : s.turretUp = true) (hseq : (s.lane p).seq = .closing 5 st a) (hdue : a + 25 ≤ s.now)
    (hovs : (s.lane p).ovs = false) : exec (.ovsPresenceTimeout p) s = .next (failSequence p 0 6 st 0x0401 s) := by
  change execOvsPresenceTimeout p s = _
  unfold execOvsPresenceTimeout
  rw [hseq]
  exact if_pos (by rw [hup, hovs, due_of_le hdue]; rfl)

end

/-- Settles O28. That a contactor whose feedback is not high decides the feedback discrepancy alone, whatever the outlet voltage, is the
model's choice (log 195). -/
theorem closingSteps : Obligations.ClosingSteps := by
  unfold Obligations.ClosingSteps
  refine ⟨?settled, fun p s a st c u hup hseq hdue hbad => exec_closingContactorSettled_of_not_closed hup hseq hdue hbad, ?start, ?checked,
    fun p s a st hup hseq => exec_closingPbfCheck_of_step false hup hseq, fun p s a st hup hseq => exec_ovsEdge_of_closing hup hseq, ?edge,
    fun p s hup hovs hdue => exec_ovsAbsent_of_quiet hup hovs hdue,
    fun p s a st hup hseq hdue hovs => exec_ovsPresenceTimeout_of_closing hup hseq hdue hovs⟩
  case settled =>
    intro p s a st hup hseq hdue hovs hshed
    refine ⟨_, exec_closingContactorSettled_of_closed hup hseq hdue hovs hshed, ?_, ?_, fun q hq => ?_⟩
    · simp only [lane_modLane, stamp_seq]
    · simp only [lane_modLane, stamp_ctf, Lane.seeCtf]
    · rw [lane_modLane_ne _ _ hq.symm, lane_modLane_ne _ _ hq.symm]
  case start =>
    intro p s a st hup hpermit hseq
    refine ⟨_, exec_closingPreBreakStart_of_closing hup hpermit hseq, ?_, ?_, fun q hq => ?_⟩ <;> unfold setPbd noteTimed
    · simp only [lane_modLane, stamp_pbd]
    · simp only [lane_modLane, stamp_seq]
    · rw [lane_modLane_ne _ _ hq.symm, lane_modLane_ne _ _ hq.symm, lane_modLane_ne _ _ hq.symm]
  case checked =>
    intro p s a st hup hseq
    refine ⟨_, exec_closingPbfCheck_of_step true hup hseq, ?_⟩
    simp only [lane_modLane, stamp_seq, stamp_closeStep5Ok, true_and]
  case edge =>
    intro p s hup hseq
    refine ⟨_, exec_ovsEdge_of_none hup hseq, ?_⟩
    simp only [lane_modLane, stamp_ovs, stamp_ovsAt, true_and]

/-! ## Opening -/

section
variable {p : Port} {s : State} {u : Bool} {st a : Nat} {tg : Target}

/-- The end of a millisecond in microseconds. -/
theorem cast_millisecondEnd (n : Nat) : (((n + 1) * 1000 : Nat) : Int) = ((n : Int) + 1) * 1000 := by omega

section
variable (hup : s.turretUp = true)
include hup

theorem exec_openingCurrentZero_of_zero (hseq : (s.lane p).seq = .opening u 1 st a tg)
    (hzero : s.timedNow p = true ∨ s.currentZeroUs p st < (((s.now + 1) * 1000 : Nat) : Int)) :
    exec (.openingCurrentZero p) s =
      .next (setPbd p false ((noteTimed p s).modLane p (fun l => { l with seq := .opening u 2 st s.now tg }))) := by
  change execOpeningCurrentZero p s = _
  unfold execOpeningCurrentZero
  rw [cast_millisecondEnd] at hzero
  rw [hseq]
  exact if_pos (by rw [hup, Bool.true_and, Bool.or_eq_true, decide_eq_true_iff]; exact hzero)

theorem exec_openingPbfCheck_of_step (pbf : Bool) (hseq : (s.lane p).seq = .opening u 2 st a tg) :
    exec (.openingPbfCheck p pbf) s =
      let s1 := s.modLane p (fun l => { l with pbf := pbf, openStep3Ok := !pbf })
      if pbf then .next (failSequence p (if u then 2 else 1) 3 st 0x0404 s1)
      else .next (s1.modLane p (fun l => { l with seq := .opening u 3 st a tg })) := by
  change execOpeningPbfCheck p pbf s = _
  unfold execOpeningPbfCheck
  rw [hseq]
  exact if_pos hup

theorem exec_openingContactorRelease_of_gone (hseq : (s.lane p).seq = .opening u 3 st a tg) (hfresh : s.outletStale p = false)
    (hgone : s.currentGone p a = true) (hovs : (s.lane p).ovs = false) :
    exec (.openingContactorRelease p) s = .next (releaseContactor p u st tg false s) := by
  change execOpeningContactorRelease p s = _
  unfold execOpeningContactorRelease
  dsimp only
  rw [hseq]
  exact (if_pos hup).trans ((if_neg (Bool.eq_false_iff.mp hfresh)).trans (if_pos (by rw [hgone, hovs]; rfl)))

/-- Without readings of the outlet the contactor is released blind after 40 ms. -/
theorem exec_openingContactorRelease_of_stale (hseq : (s.lane p).seq = .opening u 3 st a tg) (hstale : s.outletStale p = true)
    (hlate : a + 40 ≤ s.now) (hovs : (s.lane p).ovs = false) (hpbf : (s.lane p).pbf = false) :
    exec (.openingContactorRelease p) s = .next (releaseContactor p u st tg true s) := by
  change execOpeningContactorRelease p s = _
  unfold execOpeningContactorRelease
  dsimp only
  rw [hseq]
  exact (if_pos hup).trans ((if_pos hstale).trans ((if_pos (due_of_le hlate)).trans (if_neg (by simp [hovs, hpbf]))))

theorem exec_openingCtfCheck_of_open (hseq : (s.lane p).seq = .opening u 5 st a tg) :
    exec (.openingCtfCheck p false) s =
      .next ((s.modLane p (fun l => l.seeCtf false)).modLane p (fun l => { l with seq := .opening u 6 st s.now tg })) := by
  change execOpeningCtfCheck p false s = _
  unfold execOpeningCtfCheck
  rw [hseq]
  exact if_pos hup

theorem exec_openingCtfCheck_of_late (hseq : (s.lane p).seq = .opening u 5 st a tg) (hlate : a + 50 ≤ s.now) :
    exec (.openingCtfCheck p true) s =
      .next (failSequence p (if u then 2 else 1) 6 st 0x0401 (s.modLane p (fun l => l.seeCtf true))) := by
  change execOpeningCtfCheck p true s = _
  unfold execOpeningCtfCheck
  rw [hseq]
  exact (if_pos hup).trans ((if_neg (by decide)).trans (if_pos (due_of_le hlate)))

theorem exec_allowanceOpeningTimeout_of_late (hseq : (s.lane p).seq = .waitBandB a tg) (hlate : a + 3000 ≤ s.now) :
    exec (.allowanceOpeningTimeout p) s = .next (startWaiting p tg s) := by
  change execAllowanceOpeningTimeout p s = _
  unfold execAllowanceOpeningTimeout
  rw [hseq]
  exact if_pos (by rw [hup, due_of_le hlate]; rfl)

section
variable (hsteeple : s.steepleUp = true)
include hsteeple

theorem exec_weldProbe_of_permit (hseq : (s.lane p).seq = .opening u 6 st a tg) (hctd : (s.lane p).ctd = false)
    (hctf : (s.lane p).ctf = false) (hpermit : s.permit p = true) :
    exec (.weldProbe p) s = .next (setPbd p true (setProbe p true ((noteTimed p s).modLane p (fun x => { x with
      seq := .opening u 7 st s.now tg, weldProbes := w32 (x.weldProbes + 1) })))) := by
  change execWeldProbe p s = _
  unfold execWeldProbe
  dsimp only
  rw [hseq]
  exact (if_pos (by rw [hup, hsteeple, hctd, hctf]; rfl)).trans (if_pos hpermit)

theorem exec_weldProbeEnd_of_checked (x : Bool) (hseq : (s.lane p).seq = .opening u 8 st a tg) (hdue : a + 25 ≤ s.now) :
    exec (.weldProbeEnd p x) s =
      let s1 := s.modLane p (fun l => { l with openStep3Ok := !l.pbf })
      if (s.lane p).ovs && decide (a ≤ (s.lane p).ovsAt) then .next (failSequence p (if u then 2 else 1) 7 st 0x0403 s1)
      else .next (finishOpening p u st tg s1) := by
  change execWeldProbeEnd p x s = _
  unfold execWeldProbeEnd
  dsimp only
  rw [hseq]
  exact if_pos (by rw [hup, hsteeple, due_of_le hdue]; rfl)

end

end

theorem exec_openingCurrentZero_of_early (hseq : (s.lane p).seq = .opening u 1 st a tg) (htimed : s.timedNow p = false)
    (hearly : (((s.now + 1) * 1000 : Nat) : Int) ≤ s.currentZeroUs p st) : exec (.openingCurrentZero p) s = .next s := by
  have hearly' : ¬ s.currentZeroUs p st < ((s.now : Int) + 1) * 1000 := by rw [cast_millisecondEnd] at hearly; omega
  change execOpeningCurrentZero p s = _
  unfold execOpeningCurrentZero
  rw [hseq]
  exact if_neg (by rw [htimed, decide_eq_false hearly']; simp)

theorem exec_weldProbeEnd_of_probed (x : Bool) (hsteeple : s.steepleUp = true) (hseq : (s.lane p).seq = .opening u 7 st a tg)
    (hdue : a + 20 ≤ s.now) :
    exec (.weldProbeEnd p x) s =
      if x then .next ((endWeldProbe p s).modLane p (fun x => { x with seq := .opening u 8 st a tg }))
      else .next (failSequence p (if u then 2 else 1) 7 st 0x0402 (endWeldProbe p s)) := by
  change execWeldProbeEnd p x s = _
  unfold execWeldProbeEnd
  dsimp only
  rw [hseq]
  exact if_pos (by rw [hsteeple, due_of_le hdue]; rfl)

end

section
variable (p : Port) (s : State)

@[simp] theorem setProbe_lane (v : Bool) (q : Port) : (setProbe p v s).lane q = s.lane q := by
  unfold setProbe
  dsimp only
  split
  · rw [trace_lane, withSteeple_lane]
  · rfl

@[simp] theorem setProbe_civil (v : Bool) : (setProbe p v s).civil = s.civil := by
  unfold setProbe
  dsimp only
  split
  · rw [trace_civil, withSteeple_civil]
  · rfl

theorem setProbe_probes (v : Bool) : (setProbe p v s).steeple.probes = s.steeple.probes.set p v := by
  unfold setProbe
  dsimp only
  split
  · rw [trace_steeple, withSteeple_steeple]
  · rfl

/-- The contactor's drive stops and the opening waits for its feedback. -/
theorem releaseContactor_lane (u : Bool) (start : Nat) (t : Target) (blind : Bool) :
    ((releaseContactor p u start t blind s).lane p).ctd = false ∧ ((releaseContactor p u start t blind s).lane p).blind = blind ∧
    ((releaseContactor p u start t blind s).lane p).seq = .opening u 5 start s.now t := by
  have hctd (v : State) : ((setCtd p false v).lane p).ctd = false ∧ ((setCtd p false v).lane p).blind = (v.lane p).blind ∧
      ((setCtd p false v).lane p).seq = (v.lane p).seq := by
    unfold setCtd
    rw [lane_modLane, stamp_ctd, stamp_blind, stamp_seq]
    split
    · next h => exact ⟨h, rfl, rfl⟩
    · exact ⟨rfl, rfl, rfl⟩
  obtain ⟨hoff, hblind, hseq⟩ := hctd (s.modLane p (fun l => { l with seq := .opening u 5 start s.now t, blind := blind }))
  refine ⟨hoff, hblind.trans ?_, hseq.trans ?_⟩
  · rw [lane_modLane, stamp_blind]
  · rw [lane_modLane, stamp_seq]

end

/-! ## The residual test and the checks after a fault opening -/

section
variable {p : Port} {s : State} (hsteeple : s.steepleUp = true)
include hsteeple

section
variable (r : ResidualReading)

theorem exec_residualTestStep_of_zero (hstep : (s.lane p).testStep = 1) (hdue : (s.lane p).testStart + 20 ≤ s.now) (hrms : r.rms < 30) :
    exec (.residualTestStep p r) s = .next (s.modLane p (fun x => { x with testStep := 2, rct := .dc55 })) := by
  change execResidualTestStep p r s = _
  unfold execResidualTestStep
  dsimp only
  rw [if_pos hsteeple, hstep]
  exact (if_pos (due_of_le hdue)).trans (if_pos hrms)

theorem exec_residualTestStep_of_dc (hstep : (s.lane p).testStep = 2) (hdue : (s.lane p).testStart + 150 ≤ s.now)
    (hflag : r.dcFlag = true) (hlow : 80 ≤ r.dc) (hhigh : r.dc ≤ 120) :
    exec (.residualTestStep p r) s = .next ((s.modLane p (fun x => { x with testDc := r.dc.natAbs })).modLane p
      (fun x => { x with testStep := 3, rct := .sine s.testFrequency })) := by
  change execResidualTestStep p r s = _
  unfold execResidualTestStep
  dsimp only
  rw [if_pos hsteeple, hstep]
  exact (if_pos (due_of_le hdue)).trans (if_pos (by simp [hflag, withinInt, hlow, hhigh]))

theorem exec_residualTestStep_of_ac (hstep : (s.lane p).testStep = 3) (hdue : (s.lane p).testStart + 180 ≤ s.now)
    (hflag : r.acFlag = true) (hlow : 320 ≤ r.ac) (hhigh : r.ac ≤ 480) :
    exec (.residualTestStep p r) s = .next ((s.modLane p (fun x => { x with testAc := r.ac })).modLane p
      (fun x => { x with testStep := 4, rct := .static })) := by
  change execResidualTestStep p r s = _
  unfold execResidualTestStep
  dsimp only
  rw [if_pos hsteeple, hstep]
  exact (if_pos (due_of_le hdue)).trans (if_pos (by rw [hflag, within_of_le hlow hhigh]; rfl))

theorem exec_residualTestStep_of_end (hstep : (s.lane p).testStep = 4) (hdue : (s.lane p).testStart + 200 ≤ s.now) (hrms : r.rms < 30) :
    exec (.residualTestStep p r) s = .next (endTest p 0 [] s) := by
  change execResidualTestStep p r s = _
  unfold execResidualTestStep
  dsimp only
  rw [if_pos hsteeple, hstep]
  exact (if_pos (due_of_le hdue)).trans (if_pos hrms)

end

variable {st : Nat} {own : Bool}

theorem exec_faultOpeningChecks_of_welded (hseq : (s.lane p).seq = .faultOpening st own none) (hstate : (s.lane p).state ≠ .disabled)
    (hdue : st + 50 ≤ s.now) (hearly : s.now < st + 100) :
    exec (.faultOpeningChecks p true) s = .next (decideFault 0x0403 (some p) [1] true
      (s.modLane p (fun l => { l.seeCtf true with seq := .faultOpening st own (some false) }))) := by
  have hchecks : (s.steepleUp && s.due (st + 50)) = true := by rw [hsteeple, due_of_le hdue]; rfl
  have hweld : ((none : Option Bool).isNone && true && (s.lane p).state != .disabled) = true := by simp [hstate]
  have hwaits : ¬ s.due (st + 100) = true := by rw [not_due_of_lt hearly]; decide
  change execFaultOpeningChecks p true s = _
  unfold execFaultOpeningChecks
  rw [hseq]
  dsimp only
  rw [if_pos hchecks, if_pos hweld, if_neg hwaits]
  rfl

theorem exec_faultOpeningChecks_of_end (x : Bool) {ok : Bool} (hseq : (s.lane p).seq = .faultOpening st own (some ok))
    (hdue : st + 100 ≤ s.now) (hovs : (s.lane p).ovs = false) :
    exec (.faultOpeningChecks p x) s = .next (faultOutcome p own (if ok then 0 else 1) st
      (s.modLane p (fun l => { l.seeCtf x with seq := .faultOpening st own (some ok) }))) := by
  have hfirst : st + 50 ≤ s.now := by omega
  have hchecks : (s.steepleUp && s.due (st + 50)) = true := by rw [hsteeple, due_of_le hfirst]; rfl
  have hseen : ¬ ((some ok).isNone && x && (s.lane p).state != .disabled) = true := by simp
  change execFaultOpeningChecks p x s = _
  unfold execFaultOpeningChecks
  rw [hseq]
  dsimp only
  rw [if_pos hchecks, if_neg hseen, if_pos (due_of_le hdue)]
  cases ok
  · exact if_pos rfl
  · refine (if_neg (by simp)).trans ((if_neg ?_).trans rfl)
    simp [Lane.seeCtf, hovs]

end

/-- Settles O29. That a probe is judged by PBF as last sampled (log 192), and that a fault opening decides its weld as the check fails and
names the first failed check at its end (log 153), are the model's readings. -/
theorem openingSteps : Obligations.OpeningSteps := by
  unfold Obligations.OpeningSteps
  refine ⟨?zero, fun p s u st a tg hseq htimed hearly => exec_openingCurrentZero_of_early hseq htimed hearly, ?pbf,
    fun p s u st a tg hup hseq => exec_openingPbfCheck_of_step hup true hseq, ?gone, ?stale, ?ctf,
    fun p s u st a tg hup hseq hlate => exec_openingCtfCheck_of_late hup hseq hlate, ?probe, ?probed,
    fun p s u st a tg hsteeple hseq hdue => exec_weldProbeEnd_of_probed false hsteeple hseq hdue, ?finished, ?welded, ?waited, ?zeroTest,
    ?dcTest, ?acTest, fun p r s hsteeple hstep hdue hrms => exec_residualTestStep_of_end hsteeple r hstep hdue hrms,
    fun p s st own hsteeple hseq hstate hdue hearly => exec_faultOpeningChecks_of_welded hsteeple hseq hstate hdue hearly,
    fun p s st own ok hsteeple hseq hdue hovs x => exec_faultOpeningChecks_of_end hsteeple x hseq hdue hovs⟩
  case zero =>
    intro p s u st a tg hup hseq hzero
    refine ⟨_, exec_openingCurrentZero_of_zero hup hseq hzero, ?_⟩
    simp only [setPbd, lane_modLane, stamp_pbd, stamp_seq, true_and]
  case pbf =>
    intro p s u st a tg hup hseq
    refine ⟨_, exec_openingPbfCheck_of_step hup false hseq, ?_⟩
    simp only [lane_modLane, stamp_openStep3Ok, stamp_seq, Bool.not_false, true_and]
  case gone =>
    intro p s u st a tg hup hseq hfresh hgone hovs
    exact ⟨_, exec_openingContactorRelease_of_gone hup hseq hfresh hgone hovs, releaseContactor_lane ..⟩
  case stale =>
    intro p s u st a tg hup hseq hstale hlate hovs hpbf
    obtain ⟨hctd, hblind, -⟩ := releaseContactor_lane p s u st tg true
    exact ⟨_, exec_openingContactorRelease_of_stale hup hseq hstale hlate hovs hpbf, hctd, hblind⟩
  case ctf =>
    intro p s u st a tg hup hseq
    refine ⟨_, exec_openingCtfCheck_of_open hup hseq, ?_⟩
    simp only [lane_modLane, stamp_seq, stamp_ctf, Lane.seeCtf, true_and]
  case probe =>
    intro p s u st a tg hup hsteeple hseq hctd hctf hpermit
    refine ⟨_, exec_weldProbe_of_permit hup hsteeple hseq hctd hctf hpermit, ?_, ?_, ?_, ?_⟩ <;> unfold setPbd noteTimed
    · simp only [lane_modLane, stamp_pbd]
    · simp only [lane_modLane, setProbe_lane, stamp_seq]
    · simp only [lane_modLane, setProbe_lane, stamp_weldProbes]
    · rw [modLane_steeple, setProbe_probes, modLane_steeple, modLane_steeple]
  case probed =>
    intro p s u st a tg hsteeple hseq hdue
    refine ⟨_, exec_weldProbeEnd_of_probed true hsteeple hseq hdue, ?_⟩
    unfold endWeldProbe setPbd
    simp only [lane_modLane, setProbe_lane, stamp_pbd, stamp_seq, modLane_steeple, setProbe_probes, true_and]
  case finished =>
    intro p s u st a tg hup hsteeple hseq hdue hovs x
    rw [exec_weldProbeEnd_of_checked hup hsteeple x hseq hdue]
    exact if_neg (by simp [hovs])
  case welded =>
    intro p s u st a tg hup hsteeple hseq hdue hovs hfresh x
    rw [exec_weldProbeEnd_of_checked hup hsteeple x hseq hdue]
    exact if_pos (by simp [hovs, hfresh])
  case waited =>
    intro p s a tg hup hseq hlate
    refine ⟨_, exec_allowanceOpeningTimeout_of_late hup hseq hlate, ?_⟩
    unfold startWaiting clearFallbacks
    simp only [lane_modLane, stamp_seq]
  case zeroTest =>
    intro p r s hsteeple hstep hdue hrms
    refine ⟨_, exec_residualTestStep_of_zero hsteeple r hstep hdue hrms, ?_⟩
    simp only [lane_modLane, stamp_testStep, stamp_rct, true_and]
  case dcTest =>
    intro p r s hsteeple hstep hdue hflag hlow hhigh
    refine ⟨_, exec_residualTestStep_of_dc hsteeple r hstep hdue hflag hlow hhigh, ?_⟩
    simp only [lane_modLane, stamp_testStep, stamp_rct, true_and]
  case acTest =>
    intro p r s hsteeple hstep hdue hflag hlow hhigh
    refine ⟨_, exec_residualTestStep_of_ac hsteeple r hstep hdue hflag hlow hhigh, ?_⟩
    simp only [lane_modLane, stamp_testStep, stamp_rct, true_and]

end Sys2Proof.Machine
end

section
/-! SESSION_OPEN, SESSION_AUTHORISE, SESSION_STOP and the ends of sessions (R136, R143 to R147). -/

namespace Sys2Proof.Machine

section
variable {b : Box} {f : Frame} {r : Req} {s : State}

theorem Asked.exec_sessionOpen (h : Asked b 0x0403 f r s) : exec (.sessionOpen b) s = .next (sessionOpen r (taken b f s)) :=
  h.request sessionOpen

theorem Asked.exec_sessionAuthorise (h : Asked b 0x0404 f r s) :
    exec (.sessionAuthorise b) s = .next (sessionAuthorise r (taken b f s)) :=
  h.request sessionAuthorise

theorem Asked.exec_sessionStop (h : Asked b 0x0405 f r s) : exec (.sessionStop b) s = .next (sessionStop r (taken b f s)) :=
  h.request sessionStop

end

section
variable {r : Req} {s : State} (hhandle : r.handle ≠ 0) (hcurrent : s.current r.handle = true) (hsilent : s.rotunda.silent = false)
include hhandle hcurrent hsilent

theorem sessionOpen_of_idle {p : Port} (hlen : r.payload.length = 24) (hport : portOfHandle r.handle = some p)
    (hlow : 1 ≤ field r.payload 0 2) (hhigh : field r.payload 0 2 ≤ 900) (hflag : field r.payload 2 1 ≤ 1)
    (hcap : capOk (field r.payload 4 4) = true) (hidle : (s.lane p).state = .idle) :
    sessionOpen r s =
      let s1 := replaceSession p { newSession p s with
        state := .reserved, cable := 0, plugTime := 0, capMa := field r.payload 4 4, holdS := field r.payload 0 2
        identity := slice r.payload 8 16, preAuthorised := field r.payload 2 1 == 1 } (accept r s)
      finish r.wait stOk (le 4 (s1.lane p).session) (postBegun p s1) := by
  unfold sessionOpen
  dsimp only
  rw [withLength_of_length hlen, withPort_of_current hhandle hcurrent hport,
    if_neg (by simp [within_of_le hlow hhigh, hflag, hcap]), notSilent_of_heard hsilent, if_neg (by simp [hidle])]

section
variable {c : Channel} {x : SessionBody} (hchannel : s.channelOf r.handle = some c) (hbody : c.body = .session x)
include hchannel hbody

section
variable (hlen : r.payload.length = 24) (hop : field r.payload 0 1 = 0) (hcap : capOk (field r.payload 4 4) = true)
include hlen hop hcap

theorem sessionAuthorise_of_opened (hstate : x.state = .opened) :
    sessionAuthorise r s = finish r.wait stOk (le 4 c.handle)
      (authoriseSession x.port 1 (field r.payload 4 4) (slice r.payload 8 16) (accept r s)) := by
  unfold sessionAuthorise
  dsimp only
  rw [withLength_of_length hlen, withSession_of_current hhandle hcurrent hchannel hbody, if_neg (by simp [hop, hcap]),
    notSilent_of_heard hsilent, if_neg (by simp [hstate]), if_neg (by simp [hop]), if_neg (by simp [hstate]),
    if_neg (by simp [hstate])]

/-- A RESERVED session stays so, pre-authorised. -/
theorem sessionAuthorise_of_reserved (hstate : x.state = .reserved) :
    sessionAuthorise r s = finish r.wait stOk (le 4 c.handle) (setSession c
      { x with preAuthorised := true, capMa := field r.payload 4 4, identity := slice r.payload 8 16 } (accept r s)) := by
  unfold sessionAuthorise
  dsimp only
  rw [withLength_of_length hlen, withSession_of_current hhandle hcurrent hchannel hbody, if_neg (by simp [hop, hcap]),
    notSilent_of_heard hsilent, if_neg (by simp [hstate]), if_neg (by simp [hop]), if_neg (by simp [hstate]), if_pos hstate]

end

theorem sessionStop_of_live (hlen : r.payload.length = 4) (hlive : x.state.live = true) (hstate : x.state ≠ .reserved) :
    sessionStop r s = (keepLog 0x0060 r.box.val (stopData x.port c.handle (field r.payload 0 2)) (acceptWaiting r 0 [] s)).modLane x.port
      (fun l => { l with stopRequest := true, stopReason := 3 }) := by
  unfold sessionStop
  dsimp only
  rw [withLength_of_length hlen, withSession_of_current hhandle hcurrent hchannel hbody, notSilent_of_heard hsilent,
    if_neg (by simp [hlive]), if_neg hstate]

end

end

section
variable {p : Port} {s : State} {c : Channel} {x : SessionBody} (hserves : s.serves = true) (hsession : s.portSession p = some (c, x))
include hserves hsession

theorem exec_reservationExpired_of_due (hstate : x.state = .reserved) (hdue : x.openedAt + 1000 * x.holdS ≤ s.now) :
    exec (.reservationExpired p) s = .next (endPortSession p 6 s) := by
  change execReservationExpired p s = _
  unfold execReservationExpired
  rw [hsession]
  exact if_pos (by rw [hserves, hstate, due_of_le hdue]; rfl)

theorem exec_sessionEnded_of_ready (hending : s.rotunda.ending = []) (hready : x.endReady = true) :
    exec (.sessionEnded p) s = .next (raiseEnded p c x (setSession c { x with endPending := false } s)) := by
  have hgone : s.endedGone p = none := by simp [State.endedGone, hending]
  change execSessionEnded p s = _
  unfold execSessionEnded
  rw [if_pos hserves, hgone, hsession]
  exact if_pos hready

end

theorem raiseEnded_of_unauthorised (p : Port) (c : Channel) {x : SessionBody} (s : State) (h : x.wasAuthorised = false) :
    raiseEnded p c x s = settleStops c.handle (sessionEndPayload c.handle x) (raise 0x8043 (some p) (sessionEndPayload c.handle x) s) :=
  if_neg (by simp [h])

/-- Settles O31. What SESSION_AUTHORISE does to a RESERVED session is the model's choice (log 175). -/
theorem sessionCommands : Obligations.SessionCommands := by
  unfold Obligations.SessionCommands
  refine ⟨?opened, ?authorise, ?reserved, ?stop, fun p s c x hserves hsession hstate hdue =>
    exec_reservationExpired_of_due hserves hsession hstate hdue, ?ended⟩
  case opened =>
    intro b f r s p hasked hlen hhandle hcurrent hport hlow hhigh hflag hcap hsilent hidle body
    rw [hasked.exec_sessionOpen, sessionOpen_of_idle hhandle hcurrent (by simpa using hsilent) hlen hport hlow hhigh hflag hcap
      (by simpa using hidle)]
  case authorise =>
    intro b f r s c x hasked hlen hhandle hcurrent hchannel hbody hop hcap hsilent hstate
    rw [hasked.exec_sessionAuthorise, sessionAuthorise_of_opened hhandle hcurrent (by simpa using hsilent) hchannel hbody hlen hop hcap
      hstate]
  case reserved =>
    intro b f r s c x hasked hlen hhandle hcurrent hchannel hbody hop hcap hsilent hstate
    rw [hasked.exec_sessionAuthorise, sessionAuthorise_of_reserved hhandle hcurrent (by simpa using hsilent) hchannel hbody hlen hop hcap
      hstate]
  case stop =>
    intro b f r s c x hasked hlen hhandle hcurrent hchannel hbody hsilent hlive hstate
    refine ⟨_, hasked.exec_sessionStop, ?_⟩
    rw [sessionStop_of_live hhandle hcurrent (by simpa using hsilent) hchannel hbody hlen hlive hstate]
    refine ⟨?_, ?_, ?_, ?_⟩
    · rw [lane_modLane, stamp_stopRequest]
    · rw [lane_modLane, stamp_stopReason]
    · rw [modLane_legal, keepLog, logAppend_nextIndex]
      simp [acceptWaiting]
    · rw [modLane_rotunda]
      simp [keepLog, logAppend]
  case ended =>
    intro p s c x hserves hending hsession hpending hend hstart hunauthorised
    rw [exec_sessionEnded_of_ready hserves hsession hending (by simp [SessionBody.endReady, hpending, hend, hstart]),
      raiseEnded_of_unauthorised p c _ hunauthorised]

end Sys2Proof.Machine
end

section
/-! What a fault's reaction changes: the lock-outs, the permits, SHT_N, and of each lane its drives and its state. Every operation of
Steeple's reactions is described once by what it does to these (R238, R255 to R268). -/

namespace Sys2Proof.Machine

/-- The lock-outs of the ports and the hub, the permits, and the pulses of SHT_N. -/
def State.locks (s : State) : Vector Lockout 24 × Lockout × Vector Bool 24 × List Shunt :=
  (s.steeple.ports, s.steeple.hub, s.steeple.permits, s.steeple.shunt)

/-- Each lane's two drives and its state. -/
def State.drives (s : State) (p : Port) : Bool × Bool × PortState := ((s.lane p).ctd, (s.lane p).pbd, (s.lane p).state)

/-- What is said of every port, with one port's part replaced. -/
def setAtPort {α : Type} (f : Port → α) (p : Port) (x : α) : Port → α := fun q => if q = p then x else f q

section
variable {α : Type} (f : Port → α) (p : Port) (x y : α)

theorem setAtPort_self : setAtPort f p x p = x := if_pos rfl

theorem setAtPort_of_ne {q : Port} (h : q ≠ p) : setAtPort f p x q = f q := if_neg h

theorem setAtPort_idem : setAtPort (setAtPort f p x) p y = setAtPort f p y := by
  funext q
  by_cases h : q = p
  · rw [h, setAtPort_self, setAtPort_self]
  · rw [setAtPort_of_ne _ _ _ h, setAtPort_of_ne _ _ _ h, setAtPort_of_ne _ _ _ h]

theorem setAtPort_eq_self : setAtPort f p (f p) = f := by
  funext q
  by_cases h : q = p
  · rw [h, setAtPort_self]
  · exact setAtPort_of_ne _ _ _ h

end

/-- What a fault's reaction works on. -/
abbrev FaultView := (Vector Lockout 24 × Lockout × Vector Bool 24 × List Shunt) × (Port → Bool × Bool × PortState)

def State.guarded (s : State) : FaultView :=
  (s.locks, s.drives)

section
variable {s t : State}

theorem guarded_of_eq (hsteeple : s.steeple = t.steeple) (hlane : ∀ p, s.lane p = t.lane p) : s.guarded = t.guarded := by
  have hdrives : s.drives = t.drives := funext fun p => by rw [State.drives, State.drives, hlane]
  rw [State.guarded, State.guarded, hdrives, State.locks, State.locks, hsteeple]

theorem guarded_of_unhosted (h : s.unhosted = t.unhosted) : s.guarded = t.guarded :=
  guarded_of_eq (unhosted_steeple h) (unhosted_lane h)

theorem guarded_of_unposted (h : s.unposted = t.unposted) : s.guarded = t.guarded :=
  guarded_of_eq (unposted_steeple h) (unposted_lane h)

theorem foldl_guarded {α : Type} {f : State → α → State} (hf : ∀ a s, (f s a).guarded = s.guarded) (l : List α) (s : State) :
    (l.foldl f s).guarded = s.guarded :=
  List.foldlRecOn (motive := fun t => t.guarded = s.guarded) l f rfl (fun t ht a _ => (hf a t).trans ht)

theorem drives_of_guarded (h : s.guarded = t.guarded) : s.drives = t.drives := congrArg Prod.snd h

/-- A lane's update that leaves its drives and its state. -/
theorem modLane_guarded {p : Port} {f : Lane → Lane} (hctd : ∀ l, (f l).ctd = l.ctd) (hpbd : ∀ l, (f l).pbd = l.pbd)
    (hstate : ∀ l, (f l).state = l.state) : (s.modLane p f).guarded = s.guarded := by
  have hdrives : (s.modLane p f).drives = s.drives := funext fun q => by
    by_cases h : p = q
    · subst h
      rw [State.drives, State.drives, lane_modLane, stamp_ctd, stamp_pbd, stamp_state, hctd, hpbd, hstate]
    · rw [State.drives, State.drives, lane_modLane_ne _ _ h]
  rw [State.guarded, State.guarded, hdrives, State.locks, State.locks, modLane_steeple]

/-- An update of Steeple beside its lock-outs, permits and SHT_N. -/
theorem withSteeple_guarded {k : Steeple} (hports : k.ports = s.steeple.ports) (hhub : k.hub = s.steeple.hub)
    (hpermits : k.permits = s.steeple.permits) (hshunt : k.shunt = s.steeple.shunt) : (s.withSteeple k).guarded = s.guarded := by
  rw [State.guarded, State.guarded, State.locks, State.locks, withSteeple_steeple, hports, hhub, hpermits, hshunt]
  rfl

/-- A lane's update, by what it makes of the lane's drives and state. -/
theorem modLane_drives {p : Port} {f : Lane → Lane} :
    (s.modLane p f).drives = setAtPort s.drives p ((f (s.lane p)).ctd, (f (s.lane p)).pbd, (f (s.lane p)).state) := by
  funext q
  by_cases h : p = q
  · subst h
    rw [setAtPort_self, State.drives, lane_modLane, stamp_ctd, stamp_pbd, stamp_state]
  · rw [setAtPort_of_ne _ _ _ (Ne.symm h), State.drives, State.drives, lane_modLane_ne _ _ h]

end

section
variable (s : State)

@[simp] theorem trace_guarded (src : Fin 12) (type : Nat) (content : List Byte) : (trace src type content s).guarded = s.guarded :=
  guarded_of_eq (trace_steeple ..) (trace_lane s src type content)

@[simp] theorem post_guarded (o : Option Port) (c : QContent) : (post o c s).guarded = s.guarded :=
  guarded_of_unposted (post_unposted ..)

@[simp] theorem addRecord_guarded (kind code : Nat) (port : Option Port) (related : Nat) (detail : List Byte) (m : Marks) :
    (addRecord kind code port related detail m s).guarded = s.guarded := by
  unfold addRecord
  dsimp only
  rw [post_guarded, trace_guarded]
  exact withSteeple_guarded rfl rfl rfl rfl

@[simp] theorem startReaction_guarded (code : Nat) (port : Option Port) (degraded : Bool) :
    (startReaction code port degraded s).guarded = s.guarded := withSteeple_guarded rfl rfl rfl rfl

@[simp] theorem noteFatal_guarded (code : Nat) : (noteFatal code s).guarded = s.guarded := by
  unfold noteFatal
  split
  · exact withSteeple_guarded rfl rfl rfl rfl
  · rfl

@[simp] theorem noteDirty_guarded (code : Nat) (port : Option Port) : (noteDirty code port s).guarded = s.guarded := by
  unfold noteDirty
  split
  · split
    · exact modLane_guarded (fun _ => rfl) (fun _ => rfl) (fun _ => rfl)
    · rfl
  · rfl

@[simp] theorem postOutcomeAt_guarded (p : Port) (kind result start end_ : Nat) :
    (postOutcomeAt p kind result start end_ s).guarded = s.guarded := by
  have hlasted (l : Lane) (n : Nat) : (l.lasted kind n).ctd = l.ctd ∧ (l.lasted kind n).pbd = l.pbd ∧
      (l.lasted kind n).state = l.state := by
    unfold Lane.lasted
    repeat' split
    all_goals exact ⟨rfl, rfl, rfl⟩
  unfold postOutcomeAt
  rw [post_guarded]
  exact modLane_guarded (fun l => (hlasted l _).1) (fun l => (hlasted l _).2.1) (fun l => (hlasted l _).2.2)

@[simp] theorem settlePort_unhosted (op : Nat) (p : Port) (status : Nat) : (settlePort op p status s).unhosted = s.unhosted :=
  foldl_unhosted (fun _ _ => finish_unhosted ..) _ _

/-! ## The end of a reset -/

theorem endResetTest_guarded (p : Port) : (endResetTest s p).guarded = s.guarded := by
  have h (l : Lane) : (if l.testForReset then l.abandonTest else l).ctd = l.ctd ∧
      (if l.testForReset then l.abandonTest else l).pbd = l.pbd ∧ (if l.testForReset then l.abandonTest else l).state = l.state := by
    split <;> exact ⟨rfl, rfl, rfl⟩
  exact modLane_guarded (fun l => (h l).1) (fun l => (h l).2.1) (fun l => (h l).2.2)

theorem endProbe_guarded (p : Port) : (endProbe s p).guarded = s.guarded := by
  unfold endProbe
  split
  · exact modLane_guarded (fun _ => rfl) (fun _ => rfl) (fun _ => rfl)
  · rfl

@[simp] theorem endReset_guarded (r : ResetRun) (status record code : Nat) : (endReset r status record code s).guarded = s.guarded := by
  unfold endReset postOutcome
  dsimp only
  rw [post_guarded, foldl_guarded (fun p t => endProbe_guarded t p), foldl_guarded (fun p t => endResetTest_guarded t p)]
  exact withSteeple_guarded rfl rfl rfl rfl

@[simp] theorem endResetsOf_guarded (code : Nat) (hit : ResetRun → Bool) : (endResetsOf code hit s).guarded = s.guarded :=
  foldl_guarded (fun _ _ => endReset_guarded ..) _ _

end

/-! ## Opening a port by a fault -/

/-- The state of a port whose permit a fault removes: LOCKOUT, but DISABLED stays (T19 of R133). -/
def PortState.locked (st : PortState) : PortState := if st = .disabled then .disabled else .lockout

theorem locked_eq_disabled {st : PortState} : st.locked = .disabled ↔ st = .disabled := by
  unfold PortState.locked
  split
  · simpa
  · next h => simp [h]

/-- What opening a port by a fault does to the view. -/
def openedView (p : Port) (g : FaultView) : FaultView :=
  ((g.1.1, g.1.2.1, g.1.2.2.1.set p false, g.1.2.2.2), setAtPort g.2 p (false, false, (g.2 p).2.2.locked))

section
variable (p : Port) (s : State)

theorem setPermit_permits (v : Bool) : (setPermit p v s).steeple.permits = s.steeple.permits.set p v := by
  unfold setPermit
  split
  · next h =>
    rw [← h]
    exact (Vector.set_getElem_self p.isLt).symm
  · rw [trace_steeple]
    rfl

@[simp] theorem setPermit_lane (v : Bool) (q : Port) : (setPermit p v s).lane q = s.lane q := by
  unfold setPermit
  split
  · rfl
  · rw [trace_lane, withSteeple_lane]

theorem setPermit_locks (v : Bool) :
    (setPermit p v s).locks = (s.steeple.ports, s.steeple.hub, s.steeple.permits.set p v, s.steeple.shunt) := by
  have h := setPermit_steeple p v s
  rw [State.locks, setPermit_permits, h]

theorem setProbe_guarded (v : Bool) : (setProbe p v s).guarded = s.guarded := by
  unfold setProbe
  dsimp only
  split
  · rw [trace_guarded]
    exact withSteeple_guarded rfl rfl rfl rfl
  · exact withSteeple_guarded rfl rfl rfl rfl

theorem setCtd_off_drives : (setCtd p false s).drives = setAtPort s.drives p (false, (s.lane p).pbd, (s.lane p).state) := by
  unfold setCtd
  rw [modLane_drives]
  congr 1
  split
  · next h => rw [h]
  · rfl

/-- Both drives of a port stop and its permit is removed. -/
theorem stopDrives_guarded : (setProbe p false (setPermit p false (setPbd p false (setCtd p false s)))).guarded =
    ((s.steeple.ports, s.steeple.hub, s.steeple.permits.set p false, s.steeple.shunt),
      setAtPort s.drives p (false, false, (s.lane p).state)) := by
  have hlane : (setPermit p false (setPbd p false (setCtd p false s))).drives = (setPbd p false (setCtd p false s)).drives :=
    funext fun q => by rw [State.drives, State.drives, setPermit_lane]
  have hctd := congrFun (setCtd_off_drives p s) p
  rw [setAtPort_self] at hctd
  simp only [State.drives, Prod.mk.injEq] at hctd
  obtain ⟨hoff, -, hstate⟩ := hctd
  rw [setProbe_guarded, State.guarded, setPermit_locks, hlane, setPbd, modLane_drives, setCtd_off_drives, setAtPort_idem, hoff,
    hstate]
  rfl

theorem removePermit_guarded : (removePermit p s).guarded =
    ((s.steeple.ports, s.steeple.hub, s.steeple.permits.set p false, s.steeple.shunt),
      setAtPort s.drives p (false, false, (s.lane p).state)) := by
  have hstop (t : State) (h : t.guarded = s.guarded) : (setProbe p false (setPermit p false (setPbd p false (setCtd p false t)))).guarded =
      ((s.steeple.ports, s.steeple.hub, s.steeple.permits.set p false, s.steeple.shunt),
        setAtPort s.drives p (false, false, (s.lane p).state)) := by
    have hlocks : t.locks = s.locks := congrArg Prod.fst h
    have hdrives : t.drives = s.drives := congrArg Prod.snd h
    have hstate : (t.lane p).state = (s.lane p).state := congrArg (fun d => d.2.2) (congrFun hdrives p)
    simp only [State.locks, Prod.mk.injEq] at hlocks
    obtain ⟨hports, hhub, hpermits, hshunt⟩ := hlocks
    rw [stopDrives_guarded, hports, hhub, hpermits, hshunt, hdrives, hstate]
  unfold removePermit
  dsimp only
  split
  · rw [modLane_guarded]
    · split
      · exact hstop _ (postOutcomeAt_guarded ..)
      · exact hstop _ rfl
    all_goals exact fun _ => rfl
  · split
    · exact hstop _ (postOutcomeAt_guarded ..)
    · exact hstop _ rfl

/-- The end of a port's session leaves the lane's drives and state. -/
theorem endPortSession_guarded (reason : Nat) : (endPortSession p reason s).guarded = s.guarded :=
  (guarded_of_unhosted (endPortSession_unhosted s p reason)).trans (modLane_guarded (fun _ => rfl) (fun _ => rfl) (fun _ => rfl))

theorem leaving_guarded : (s.leaving p).guarded = s.guarded := by
  unfold State.leaving
  split
  · rcases creditEnergised_cases s p with h | h
    · exact guarded_of_unhosted h
    · exact (guarded_of_unhosted h).trans (modLane_guarded (fun _ => rfl) (fun _ => rfl) (fun _ => rfl))
  · rfl

/-- A transition changes of the view the lane's state. -/
theorem transit_guarded (n : Nat) (st : PortState) : (transit p n st s).guarded =
    (s.locks, setAtPort s.drives p ((s.lane p).ctd, (s.lane p).pbd, st)) := by
  have hdrives := drives_of_guarded (leaving_guarded p s)
  have henter (l : Lane) (m : Nat) : (l.enter st n m).ctd = l.ctd ∧ (l.enter st n m).pbd = l.pbd := by
    unfold Lane.enter
    dsimp only
    split <;> exact ⟨rfl, rfl⟩
  refine Prod.ext ?_ (funext fun q => ?_)
  · change (transit p n st s).locks = s.locks
    rw [State.locks, State.locks, transit_steeple]
  · change (transit p n st s).drives q = setAtPort s.drives p _ q
    by_cases h : p = q
    · subst h
      have hlane := congrFun hdrives p
      simp only [State.drives, Prod.mk.injEq] at hlane
      obtain ⟨hctd, hpbd, -⟩ := hlane
      rw [State.drives, transit_lane, stamp_ctd, stamp_pbd, stamp_state, (henter _ _).1, (henter _ _).2, enter_state, hctd, hpbd,
        setAtPort_self]
    · rw [State.drives, transit_lane_ne _ _ _ _ h, setAtPort_of_ne _ _ _ (Ne.symm h)]
      rfl

theorem enterLockout_guarded : (enterLockout p s).guarded =
    (s.locks, setAtPort s.drives p ((s.lane p).ctd, (s.lane p).pbd, (s.lane p).state.locked)) := by
  unfold enterLockout
  dsimp only
  split
  · next h =>
    have hstate : (s.lane p).state.locked = (s.lane p).state := by
      rcases h with h | h <;> rw [h] <;> rfl
    rw [hstate]
    exact Prod.ext rfl (setAtPort_eq_self s.drives p).symm
  · next h =>
    have hlocked : (s.lane p).state.locked = .lockout := if_neg fun hd => h (Or.inl hd)
    have hsession := endPortSession_guarded p s 5
    have hlocks : (endPortSession p 5 s).locks = s.locks := congrArg Prod.fst hsession
    have hdrives := drives_of_guarded hsession
    have hlane := congrFun hdrives p
    simp only [State.drives, Prod.mk.injEq] at hlane
    obtain ⟨hctd, hpbd, -⟩ := hlane
    rw [guarded_of_unhosted (settlePort_unhosted ..), guarded_of_unhosted (settlePort_unhosted ..)]
    rw [modLane_guarded]
    · rw [transit_guarded, hlocks, hdrives, hctd, hpbd, hlocked]
    all_goals exact fun _ => rfl

/-- Opening a port by a fault: its permit and its drives are off, and it is in LOCKOUT unless it is DISABLED. -/
theorem openByFault_guarded : (openByFault p s).guarded = openedView p s.guarded := by
  have h := removePermit_guarded p s
  have hlocks : (removePermit p s).locks = (s.steeple.ports, s.steeple.hub, s.steeple.permits.set p false, s.steeple.shunt) :=
    congrArg Prod.fst h
  have hdrives : (removePermit p s).drives = setAtPort s.drives p (false, false, (s.lane p).state) := congrArg Prod.snd h
  have hlane := congrFun hdrives p
  rw [setAtPort_self] at hlane
  simp only [State.drives, Prod.mk.injEq] at hlane
  obtain ⟨hctd, hpbd, hstate⟩ := hlane
  unfold openByFault
  rw [enterLockout_guarded, hlocks, hdrives, hctd, hpbd, hstate, setAtPort_idem]
  rfl

end

end Sys2Proof.Machine
end

section
/-! The first fault of a port and the hub safe state (R255, R263 to R266). -/

namespace Sys2Proof.Machine

/-! ## Opening every port -/

section
variable (g : FaultView)

theorem locked_locked (st : PortState) : st.locked.locked = st.locked := by
  cases st <;> rfl

theorem openedView_self (p : Port) : (openedView p g).2 p = (false, false, (g.2 p).2.2.locked) ∧ (openedView p g).1.2.2.1[p] = false := by
  refine ⟨setAtPort_self .., ?_⟩
  simp only [openedView, Fin.getElem_fin, Vector.getElem_set_self]

theorem openedView_ne {p q : Port} (h : p ≠ q) : (openedView p g).2 q = g.2 q ∧ (openedView p g).1.2.2.1[q] = g.1.2.2.1[q] := by
  have hval : p.val ≠ q.val := fun e => h (Fin.ext e)
  refine ⟨setAtPort_of_ne _ _ _ (Ne.symm h), ?_⟩
  simp only [openedView, Fin.getElem_fin, Vector.getElem_set_ne _ _ hval]

/-- A port that opens by a fault keeps off and locked whatever other ports open after it. -/
theorem foldl_openedView (l : List Port) (p : Port) (hp : p ∈ l) :
    (l.foldl (fun g q => openedView q g) g).2 p = (false, false, (g.2 p).2.2.locked) ∧
    (l.foldl (fun g q => openedView q g) g).1.2.2.1[p] = false := by
  have hkeep (m : List Port) : ∀ g : FaultView,
      g.2 p = (false, false, (g.2 p).2.2.locked) → g.1.2.2.1[p] = false →
      (m.foldl (fun g q => openedView q g) g).2 p = g.2 p ∧ (m.foldl (fun g q => openedView q g) g).1.2.2.1[p] = false := by
    induction m with
    | nil => exact fun g _ hpermit => ⟨rfl, hpermit⟩
    | cons q m ih =>
      intro g hdrives hpermit
      by_cases h : q = p
      · subst h
        obtain ⟨hself, hoff⟩ := openedView_self g q
        have hsame : (openedView q g).2 q = g.2 q := hself.trans hdrives.symm
        rw [List.foldl_cons, ← hsame]
        exact ih _ (by rw [hsame]; exact hdrives) hoff
      · obtain ⟨hother, hoff⟩ := openedView_ne g h
        rw [List.foldl_cons, ← hother]
        exact ih _ (by rw [hother]; exact hdrives) (hoff.trans hpermit)
  induction l generalizing g with
  | nil => simp at hp
  | cons q m ih =>
    by_cases h : q = p
    · subst h
      obtain ⟨hself, hoff⟩ := openedView_self g q
      rw [List.foldl_cons, ← hself]
      exact hkeep m _ (by rw [hself, locked_locked]) hoff
    · have hmem : p ∈ m := (List.mem_cons.mp hp).resolve_left (Ne.symm h)
      obtain ⟨hother, -⟩ := openedView_ne g h
      rw [List.foldl_cons, ← hother]
      exact ih _ hmem

theorem foldl_openedView_locks (l : List Port) : (l.foldl (fun g q => openedView q g) g).1.2.1 = g.1.2.1 ∧
    (l.foldl (fun g q => openedView q g) g).1.2.2.2 = g.1.2.2.2 :=
  List.foldlRecOn (motive := fun v : FaultView => v.1.2.1 = g.1.2.1 ∧ v.1.2.2.2 = g.1.2.2.2) l _ ⟨rfl, rfl⟩ (fun _ h _ _ => h)

end

theorem openAll_guarded (s : State) : (openAll s).guarded = allPorts.foldl (fun g q => openedView q g) s.guarded :=
  (List.foldl_hom State.guarded (fun t p => (openByFault_guarded p t).symm)).symm

/-- In the hub safe state every permit and drive is off and every port that is not DISABLED is in LOCKOUT. -/
theorem openAll_port (s : State) (p : Port) : (openAll s).permit p = false ∧ ((openAll s).lane p).ctd = false ∧
    ((openAll s).lane p).pbd = false ∧ ((openAll s).lane p).state = (s.lane p).state.locked := by
  obtain ⟨hdrives, hpermit⟩ := foldl_openedView s.guarded allPorts p (List.mem_finRange p)
  rw [← openAll_guarded] at hdrives hpermit
  generalize openAll s = t at hdrives hpermit ⊢
  simp only [State.guarded, State.drives, Prod.mk.injEq] at hdrives
  obtain ⟨hctd, hpbd, hstate⟩ := hdrives
  exact ⟨hpermit, hctd, hpbd, hstate⟩

theorem openAll_hub (s : State) : (openAll s).steeple.hub = s.steeple.hub ∧ (openAll s).steeple.shunt = s.steeple.shunt := by
  have h := foldl_openedView_locks s.guarded allPorts
  rw [← openAll_guarded] at h
  generalize openAll s = t at h ⊢
  exact h

/-! ## What the end of degraded modes keeps -/

/-- The hub's lock-out and SHT_N as they were, and the same ports DISABLED. -/
structure State.SameHub (s t : State) : Prop where
  hub : t.steeple.hub = s.steeple.hub
  shunt : t.steeple.shunt = s.steeple.shunt
  disabled : ∀ p, (t.lane p).state = .disabled ↔ (s.lane p).state = .disabled

namespace State.SameHub

variable {s t u : State}

theorem refl (s : State) : s.SameHub s := ⟨rfl, rfl, fun _ => Iff.rfl⟩

theorem trans (h : s.SameHub t) (k : t.SameHub u) : s.SameHub u :=
  ⟨k.hub.trans h.hub, k.shunt.trans h.shunt, fun p => (k.disabled p).trans (h.disabled p)⟩

theorem of_guarded (h : t.guarded = s.guarded) : s.SameHub t := by
  have hlocks : t.locks = s.locks := congrArg Prod.fst h
  simp only [State.locks, Prod.mk.injEq] at hlocks
  obtain ⟨-, hhub, -, hshunt⟩ := hlocks
  refine ⟨hhub, hshunt, fun p => ?_⟩
  have hstate : (t.lane p).state = (s.lane p).state := congrArg (fun d => d.2.2) (congrFun (drives_of_guarded h) p)
  rw [hstate]

theorem of_eq (hhub : t.steeple.hub = s.steeple.hub) (hshunt : t.steeple.shunt = s.steeple.shunt) (hlane : ∀ p, t.lane p = s.lane p) :
    s.SameHub t :=
  ⟨hhub, hshunt, fun p => by rw [hlane]⟩

end State.SameHub

theorem openByFault_sameHub (p : Port) (s : State) : s.SameHub (openByFault p s) := by
  have h := openByFault_guarded p s
  have hlocks : (openByFault p s).locks = (s.steeple.ports, s.steeple.hub, s.steeple.permits.set p false, s.steeple.shunt) :=
    congrArg Prod.fst h
  simp only [State.locks, Prod.mk.injEq] at hlocks
  obtain ⟨-, hhub, -, hshunt⟩ := hlocks
  refine ⟨hhub, hshunt, fun q => ?_⟩
  have hdrives : (openByFault p s).drives q = (openedView p s.guarded).2 q := congrFun (congrArg Prod.snd h) q
  have hstate : ((openByFault p s).lane q).state = ((openedView p s.guarded).2 q).2.2 :=
    congrArg (fun d : Bool × Bool × PortState => d.2.2) hdrives
  rw [hstate]
  by_cases hq : p = q
  · subst hq
    rw [(openedView_self s.guarded p).1]
    exact locked_eq_disabled
  · rw [(openedView_ne s.guarded hq).1]
    rfl

theorem lockDegradedPort_sameHub (p : Port) (code first : Nat) (s : State) : s.SameHub (lockDegradedPort p code first s) := by
  have hrecord := State.SameHub.of_guarded (addRecord_guarded s kDegradedEnd code (some p) first [] {})
  unfold lockDegradedPort setPortLock
  dsimp only
  generalize addRecord kDegradedEnd code (some p) first [] {} s = s1 at hrecord ⊢
  refine (hrecord.trans (State.SameHub.of_eq ?_ ?_ fun _ => ?_)).trans (openByFault_sameHub ..)
  · rw [withSteeple_steeple, withSteeple_steeple]
  · rw [withSteeple_steeple, withSteeple_steeple]
  · rw [withSteeple_lane, withSteeple_lane]

/-- Dropping every degraded mode puts a pending hub lock-out in force and changes nothing else of the hub's. -/
theorem dropDegraded_hub (s : State) : (dropDegraded s).steeple.hub.faults = s.steeple.hub.faults ∧
    (s.steeple.hub.active = true → (dropDegraded s).steeple.hub.active = true) ∧ (dropDegraded s).steeple.shunt = s.steeple.shunt ∧
    ∀ p, ((dropDegraded s).lane p).state = .disabled ↔ (s.lane p).state = .disabled := by
  unfold dropDegraded
  dsimp only
  generalize hports : allPorts.foldl _ s = s1
  have h1 : s.SameHub s1 := by
    rw [← hports]
    refine List.foldlRecOn (motive := fun t => s.SameHub t) allPorts _ (.refl s) (fun t ht p _ => ?_)
    split
    · exact ht.trans (lockDegradedPort_sameHub ..)
    · exact ht
  generalize hhub : s1.steeple.hubDegraded.elim s1 (fun d => endHubMode d s1) = s2
  have h2 : s.SameHub s2 := by
    rw [← hhub]
    cases s1.steeple.hubDegraded with
    | none => exact h1
    | some d => exact h1.trans (State.SameHub.of_eq rfl rfl fun _ => rfl)
  obtain ⟨hh, hshunt, hdisabled⟩ := h2
  rw [withSteeple_steeple, ← hh, ← hshunt]
  refine ⟨?_, ?_, rfl, hdisabled⟩
  · split <;> rfl
  · intro hactive
    split
    · rfl
    · exact hactive

/-! ## Deciding -/

section
variable {code : Nat} {port : Option Port} {detail : List Byte} {own : Bool} {s : State}

theorem noteDirty_cases (code : Nat) (port : Option Port) (s : State) : noteDirty code port s = s ∨
    ∃ p, noteDirty code port s = s.modLane p (fun l => { l with preBreakClean := false }) := by
  unfold noteDirty
  split
  · split
    · exact Or.inr ⟨_, rfl⟩
    · exact Or.inl rfl
  · exact Or.inl rfl

theorem noteDirty_steeple (code : Nat) (port : Option Port) (s : State) : (noteDirty code port s).steeple = s.steeple := by
  rcases noteDirty_cases code port s with h | ⟨p, h⟩ <;> rw [h]
  rfl

theorem noteDirty_now (code : Nat) (port : Option Port) (s : State) : (noteDirty code port s).now = s.now := by
  rcases noteDirty_cases code port s with h | ⟨p, h⟩ <;> rw [h]
  rfl

theorem noteDirty_power (code : Nat) (port : Option Port) (s : State) : (noteDirty code port s).power = s.power := by
  rcases noteDirty_cases code port s with h | ⟨p, h⟩ <;> rw [h]
  rfl

/-- A fault that is no repeat is treated as new; what it ends besides changes nothing of the view. -/
theorem decideFault_guarded_of_new (hup : s.steepleUp = true) (hnew : s.repeatOf code port = none) :
    (decideFault code port detail own s).guarded = (decideNew code port detail own (noteDirty code port s)).guarded := by
  have hrepeat : (noteDirty code port s).repeatOf code port = none := by
    rw [← hnew]
    unfold State.repeatOf State.portLock
    rw [noteDirty_steeple, noteDirty_now]
  unfold decideFault
  rw [if_pos hup]
  dsimp only
  rw [hrepeat]
  dsimp only
  rw [endResetsOf_guarded, noteFatal_guarded]

theorem decideNew_of_first (hnone : ∀ r ∈ s.steeple.reactions, r.open_ s.now = false) (hclass : s.degradedClass code port = 0) :
    decideNew code port detail own s = nativeReaction code port detail s := by
  have hcounted : s.steeple.reactions.filter (fun r => r.open_ s.now) = [] := by
    simpa [List.filter_eq_nil_iff] using hnone
  unfold decideNew
  dsimp only
  rw [hcounted, hclass]
  exact if_neg fun h => h.1 rfl

theorem decideNew_of_independent {r : Reaction} (hr : r ∈ s.steeple.reactions) (hopen : r.open_ s.now = true)
    (hindependent : dependsOn r code port own s.now = false) :
    ∃ first, decideNew code port detail own s = escalate code port first detail s := by
  have hsome : ((s.steeple.reactions.filter (fun r => r.open_ s.now)).find? (fun r => !dependsOn r code port own s.now)).isSome = true := by
    rw [List.find?_isSome]
    exact ⟨r, List.mem_filter.mpr ⟨hr, hopen⟩, by simp [hindependent]⟩
  obtain ⟨first, hfirst⟩ := Option.isSome_iff_exists.mp hsome
  refine ⟨first, ?_⟩
  unfold decideNew
  dsimp only
  rw [hfirst]

/-- Outside the degraded classes of R265: without Uryan, or by another code. -/
theorem degradedClass_of_other (h : s.power.inForce.uryan ≠ 1 ∨ (code ≠ 0x0401 ∧ code ≠ 0x0604 ∧ code ≠ 0x0901)) :
    s.degradedClass code port = 0 := by
  unfold State.degradedClass
  rcases h with h | ⟨hfeedback, hpath, hguard⟩
  · exact if_neg h
  · split
    · rw [if_neg (by simpa [fTgPath] using hpath), if_neg (by simpa [fGuard] using hguard), if_neg (by simpa [fFeedback] using hfeedback)]
    · rfl

/-- SHT_N is pulsed for a weld alone, and the rest of the view stays. -/
theorem weldReaction_view (code : Nat) (port : Option Port) (s : State) : (weldReaction code port s).steeple.ports = s.steeple.ports ∧
    (weldReaction code port s).steeple.hub = s.steeple.hub ∧ (weldReaction code port s).steeple.permits = s.steeple.permits ∧
    (code ≠ 0x0403 → (weldReaction code port s).steeple.shunt = s.steeple.shunt) ∧ ∀ p, (weldReaction code port s).lane p = s.lane p := by
  unfold weldReaction
  split
  · split
    · next hweld =>
      unfold pulseSht
      split
      · exact ⟨rfl, rfl, rfl, fun h => absurd hweld h, fun _ => rfl⟩
      · exact ⟨rfl, rfl, rfl, fun _ => rfl, fun _ => rfl⟩
    · exact ⟨rfl, rfl, rfl, fun _ => rfl, fun _ => rfl⟩
  · exact ⟨rfl, rfl, rfl, fun _ => rfl, fun _ => rfl⟩

/-! ## The first fault of a port -/

/-- The view after a first fault of a port, before SHT_N: its lock-out holds the fault, and it has opened. -/
theorem firstFault_guarded (code : Nat) (p : Port) (detail : List Byte) (s : State) : ∃ f : HeldFault, f.code = code ∧ f.port = some p ∧
    (openByFault p (startReaction code (some p) false (holdPort p code false
      (addRecord kPortLock code (some p) 0 detail (weldMarks code s) s)))).guarded =
    openedView p ((s.steeple.ports.set p ((s.portLock p).hold f false), s.steeple.hub, s.steeple.permits, s.steeple.shunt), s.drives) := by
  have hrecord := addRecord_guarded s kPortLock code (some p) 0 detail (weldMarks code s)
  generalize addRecord kPortLock code (some p) 0 detail (weldMarks code s) s = s1 at hrecord ⊢
  have hlocks : s1.locks = s.locks := congrArg Prod.fst hrecord
  have hdrives := drives_of_guarded hrecord
  simp only [State.locks, Prod.mk.injEq] at hlocks
  obtain ⟨hports, hhub, hpermits, hshunt⟩ := hlocks
  refine ⟨⟨s1.lastIndex, code, some p, s1.now, s1.power.boots⟩, rfl, rfl, ?_⟩
  rw [openByFault_guarded, startReaction_guarded]
  congr 1
  change ((s1.steeple.ports.set p ((s1.portLock p).hold _ false), s1.steeple.hub, s1.steeple.permits, s1.steeple.shunt), s1.drives) = _
  rw [State.portLock, State.portLock, hports, hhub, hpermits, hshunt, hdrives]

end

/-- Settles O34. -/
theorem firstPortFaultLocksThePort : Obligations.FirstPortFaultLocksThePort := by
  intro code p detail own s hup hnew hnone hclass t
  have ht := decideFault_guarded_of_new (detail := detail) (own := own) hup hnew
  rw [decideNew_of_first (by rw [noteDirty_steeple, noteDirty_now]; exact hnone)
    (degradedClass_of_other (by rw [noteDirty_power]; exact hclass))] at ht
  have hdirty := noteDirty_guarded s code (some p)
  generalize noteDirty code (some p) s = s0 at ht hdirty
  obtain ⟨f, hcode, hport, hview⟩ := firstFault_guarded code p detail s0
  have hnative : nativeReaction code (some p) detail s0 = weldReaction code (some p) (openByFault p (startReaction code (some p) false
    (holdPort p code false (addRecord kPortLock code (some p) 0 detail (weldMarks code s0) s0)))) := rfl
  rw [hnative] at ht
  generalize openByFault p _ = u at ht hview
  obtain ⟨hports, hhub, hpermits, -, hlane⟩ := weldReaction_view code (some p) u
  have htLocks : t.locks = (weldReaction code (some p) u).locks := congrArg Prod.fst ht
  have htDrives : t.drives = u.drives := (drives_of_guarded ht).trans (funext fun q => by rw [State.drives, State.drives, hlane])
  have huLocks : u.locks = _ := congrArg Prod.fst hview
  have huDrives : u.drives = _ := congrArg Prod.snd hview
  have hsLocks : s0.locks = s.locks := congrArg Prod.fst hdirty
  simp only [State.locks, openedView, Prod.mk.injEq, hports, hhub, hpermits] at htLocks huLocks hsLocks
  obtain ⟨htPorts, htHub, htPermits, -⟩ := htLocks
  obtain ⟨huPorts, huHub, huPermits, -⟩ := huLocks
  obtain ⟨hsPorts, hsHub, hsPermits, -⟩ := hsLocks
  have hlock : t.portLock p = (s0.portLock p).hold f false := by
    rw [State.portLock, htPorts, huPorts]
    simp only [Fin.getElem_fin, Vector.getElem_set_self]
  have hdrives := congrFun htDrives p
  rw [huDrives, (openedView_self _ p).1] at hdrives
  simp only [State.drives, Prod.mk.injEq] at hdrives
  obtain ⟨hctd, hpbd, -⟩ := hdrives
  refine ⟨by rw [hlock]; simp [Lockout.hold], ⟨f, by rw [hlock]; simp [Lockout.hold], hcode, hport⟩, ?_, hctd, hpbd, ?_, fun q hq => ?_⟩
  · rw [State.permit, htPermits, huPermits]
    simp only [Fin.getElem_fin, Vector.getElem_set_self]
  · rw [htHub, huHub, hsHub]
  · have hval : p.val ≠ q.val := fun e => hq (Fin.ext e.symm)
    rw [State.permit, State.permit, State.portLock, State.portLock, htPermits, huPermits, hsPermits, htPorts, huPorts, hsPorts]
    simp only [Fin.getElem_fin, Vector.getElem_set_ne _ _ hval, and_self]

/-! ## The hub safe state -/

/-- The hub's lock-out takes the first fault, unless it has it, and the second. -/
theorem escalate_hub (code : Nat) (port : Option Port) (first : Reaction) (detail : List Byte) (s : State) :
    ∃ u : State, escalate code port first detail s = weldReaction code port (openAll (dropDegraded u)) ∧ u.steeple.hub.active = true ∧
    (∃ h ∈ u.steeple.hub.faults, h.code = code ∧ h.port = port) ∧ u.steeple.shunt = s.steeple.shunt ∧
    ∀ p, (u.lane p).state = (s.lane p).state := by
  unfold escalate
  dsimp only
  refine ⟨_, rfl, ?_⟩
  have hrecord := addRecord_guarded s kEscalation code port first.index detail (weldMarks code s)
  generalize addRecord kEscalation code port first.index detail (weldMarks code s) s = s1 at hrecord ⊢
  generalize hs2 : (if s1.steeple.hub.faults.any (·.index == first.index) then s1
    else setHubLock (s1.steeple.hub.hold ⟨first.index, first.code, first.port, first.at_, s.power.boots⟩ false) s1) = s2
  have hshunt2 : s2.steeple.shunt = s1.steeple.shunt := by
    rw [← hs2]
    split <;> rfl
  have hlane2 (p : Port) : s2.lane p = s1.lane p := by
    rw [← hs2]
    split <;> rfl
  have hstate (p : Port) : (s1.lane p).state = (s.lane p).state := congrArg (fun d => d.2.2) (congrFun (drives_of_guarded hrecord) p)
  have hshunt : s1.steeple.shunt = s.steeple.shunt := congrArg (fun g => g.1.2.2.2) hrecord
  have hheld : (startReaction code port false (holdHub code port false s2)).steeple.hub.active = true ∧
      ∃ h ∈ (startReaction code port false (holdHub code port false s2)).steeple.hub.faults, h.code = code ∧ h.port = port := by
    refine ⟨?_, ⟨s2.lastIndex, code, port, s2.now, s2.power.boots⟩, ?_, rfl, rfl⟩
    · simp [startReaction, holdHub, setHubLock, Lockout.hold]
    · simp [startReaction, holdHub, setHubLock, Lockout.hold]
  obtain ⟨hactive, hfault⟩ := hheld
  split
  · split
    · exact ⟨hactive, hfault, hshunt2.trans hshunt, fun p => (congrArg Lane.state (hlane2 p)).trans (hstate p)⟩
    · exact ⟨hactive, hfault, hshunt2.trans hshunt, fun p => (congrArg Lane.state (hlane2 p)).trans (hstate p)⟩
  · exact ⟨hactive, hfault, hshunt2.trans hshunt, fun p => (congrArg Lane.state (hlane2 p)).trans (hstate p)⟩

/-- Settles O35. -/
theorem secondFaultIsTheHubSafeState : Obligations.SecondFaultIsTheHubSafeState := by
  intro code port detail own s r hup hnew hr hopen hindependent t
  have ht := decideFault_guarded_of_new (detail := detail) (own := own) hup hnew
  have hdirty := noteDirty_guarded s code port
  obtain ⟨first, hescalate⟩ := decideNew_of_independent (code := code) (port := port) (detail := detail) (own := own)
    (s := noteDirty code port s) (r := r) (by rw [noteDirty_steeple]; exact hr) (by rw [noteDirty_now]; exact hopen)
    (by rw [noteDirty_now]; exact hindependent)
  rw [hescalate] at ht
  generalize noteDirty code port s = s0 at ht hdirty
  obtain ⟨u, hu, hactive, hfault, hshunt, hstate⟩ := escalate_hub code port first detail s0
  rw [hu] at ht
  obtain ⟨hfaults, hforce, hdropShunt, hdisabled⟩ := dropDegraded_hub u
  obtain ⟨hopenHub, hopenShunt⟩ := openAll_hub (dropDegraded u)
  obtain ⟨-, hhub, hpermits, hweldShunt, hlane⟩ := weldReaction_view code port (openAll (dropDegraded u))
  have htLocks : t.locks = (weldReaction code port (openAll (dropDegraded u))).locks := congrArg Prod.fst ht
  have htDrives : t.drives = (weldReaction code port (openAll (dropDegraded u))).drives := drives_of_guarded ht
  simp only [State.locks, Prod.mk.injEq] at htLocks
  obtain ⟨-, htHub, htPermits, htShunt⟩ := htLocks
  have hthub : t.steeple.hub = (dropDegraded u).steeple.hub := htHub.trans (hhub.trans hopenHub)
  refine ⟨?_, ?_, fun hweld => ?_, fun p => ?_⟩
  · rw [hthub]
    exact hforce hactive
  · rw [hthub, hfaults]
    exact hfault
  · rw [htShunt, hweldShunt hweld, hopenShunt, hdropShunt, hshunt]
    exact congrArg (fun g => g.1.2.2.2) hdirty
  · obtain ⟨hpermit, hctd, hpbd, hlocked⟩ := openAll_port (dropDegraded u) p
    have hdrives := congrFun htDrives p
    simp only [State.drives, Prod.mk.injEq, hlane] at hdrives
    obtain ⟨htCtd, htPbd, htState⟩ := hdrives
    refine ⟨?_, htCtd.trans hctd, htPbd.trans hpbd, fun hs => ?_⟩
    · rw [State.permit, htPermits, hpermits]
      exact hpermit
    · have hsame : (s0.lane p).state = (s.lane p).state := congrArg (fun d => d.2.2) (congrFun (drives_of_guarded hdirty) p)
      have hon : ((dropDegraded u).lane p).state ≠ .disabled := by
        rw [Ne, hdisabled, hstate, hsame]
        exact hs
      rw [htState, hlocked]
      exact if_neg hon

end Sys2Proof.Machine
end

section
/-! Steeple's detectors (R233 to R249). -/

namespace Sys2Proof.Machine

/-! ## What the removal of the permits leaves -/

section
variable (s : State)

/-- Dropping the permits changes of Steeple the permits and the probes. -/
theorem dropPermits_steeple : ∃ permits probes, (dropPermits s).steeple = { s.steeple with permits := permits, probes := probes } := by
  have hprobe (p : Port) (t : State) : (setProbe p false t).steeple = { t.steeple with probes := t.steeple.probes.set p false } := by
    unfold setProbe
    dsimp only
    rw [if_neg (by decide), withSteeple_steeple]
  unfold dropPermits
  refine List.foldlRecOn (motive := fun t : State => ∃ permits probes, t.steeple = { s.steeple with permits := permits, probes := probes })
    allPorts _ ⟨_, _, rfl⟩ fun t ht p _ => ?_
  obtain ⟨permits, probes, ht⟩ := ht
  rw [hprobe, setPermit_steeple, setPbd, modLane_steeple, setCtd, modLane_steeple, ht]
  exact ⟨_, _, rfl⟩

theorem addRecord_steeple (kind code : Nat) (port : Option Port) (related : Nat) (detail : List Byte) (m : Marks) :
    (addRecord kind code port related detail m s).steeple = { s.steeple with
      record := evict s.recordHeld s.steeple.record ++ [⟨s.steeple.nextIndex, s.steeple.cd1Lost.getD s.time, code, port, kind, related, detail,
        m.pulsed, m.disabled, m.keytag, m.srst, decide (s.turret.queue.length < 256)⟩]
      nextIndex := w32 (s.steeple.nextIndex + 1) } := by
  unfold addRecord
  dsimp only
  rw [post_steeple, trace_steeple, withSteeple_steeple]

/-- A record added is in the record, under the next index. -/
theorem exists_mem_addRecord (kind code : Nat) (port : Option Port) (related : Nat) (detail : List Byte) (m : Marks) :
    ∃ e ∈ (addRecord kind code port related detail m s).steeple.record, e.kind = kind ∧ e.index = s.steeple.nextIndex := by
  rw [addRecord_steeple]
  exact ⟨_, List.mem_append_right _ (List.mem_singleton.mpr rfl), rfl, rfl⟩

end

/-! ## Supplies -/

section
variable {s : State} (hup : s.steepleUp = true)
include hup

theorem exec_supplyExcursion_of_above (x : Supply) {mv : Nat} (habove : (supplyWindow x).2 < mv) : exec (.supplyExcursion x mv) s =
    .next (decideFault 0x0804 none (le 1 (supplyCode x) ++ le 2 mv) false (noteSupply x true (decide (mv < 3100)) s)) := by
  have hout : within (supplyWindow x).1 (supplyWindow x).2 mv = false := by
    simp [within]
    omega
  change execSupplyExcursion x mv s = _
  unfold execSupplyExcursion
  dsimp only
  rw [if_pos hup, if_pos habove, hout]
  rfl

theorem exec_supplyExcursion_of_vddio_low {mv : Nat} (hlow : mv < 3000) : exec (.supplyExcursion .vddio mv) s =
    .next (supplyStop (s.steeple.suppliesOut.contains .vddio) (noteSupply .vddio true (decide (mv < 3100)) s)) := by
  have hbelow : ¬ (3000 ≤ mv ∧ mv ≤ 3600) := by omega
  have hout : within (supplyWindow .vddio).1 (supplyWindow .vddio).2 mv = false := decide_eq_false hbelow
  have habove : ¬ (supplyWindow .vddio).2 < mv := by
    simp only [supplyWindow]
    omega
  change execSupplyExcursion .vddio mv s = _
  unfold execSupplyExcursion
  dsimp only
  rw [if_pos hup, if_neg habove, if_pos (show mv < (supplyWindow .vddio).1 from hlow), if_pos (Or.inl rfl), hout]
  rfl

end

theorem supplyStop_stops (again : Bool) (s : State) : (supplyStop again s).steeple.supplyStop = true ∧
    (again = false → ∃ e ∈ (supplyStop again s).steeple.record, e.kind = 11 ∧ e.index = s.steeple.nextIndex) := by
  unfold supplyStop
  split
  · next h =>
    rw [Bool.and_eq_true] at h
    exact ⟨h.2, fun hfirst => absurd (h.1.symm.trans hfirst) (by decide)⟩
  · obtain ⟨permits, probes, hdrop⟩ := dropPermits_steeple
      (addRecord kSupplyStop 0 none 0 [] {} (s.withSteeple { s.steeple with supplyStop := true }))
    have hmem := exists_mem_addRecord (s.withSteeple { s.steeple with supplyStop := true }) kSupplyStop 0 none 0 [] {}
    rw [hdrop]
    refine ⟨?_, fun _ => hmem⟩
    dsimp only
    rw [addRecord_steeple, withSteeple_steeple]

/-! ## Residual currents and fast trips -/

section
variable {p : Port} {s : State}

theorem exec_residualCurrentDetected_of_injecting {d : Detector} (v : Int) (hd : d ≠ .high) (hinjecting : (s.lane p).injecting = true) :
    exec (.residualCurrentDetected p d v) s = .next s :=
  if_neg (by simp [hd, hinjecting])

section
variable (hup : s.steepleUp = true) (hstate : (s.lane p).state ≠ .disabled)
include hup hstate

/-- A reading above the level at which a detector never decides is decided, while the residual test injects nothing. -/
theorem exec_residualCurrentDetected_of_above (d : Detector) {v : Int} (habove : detectorQuiet d < v.natAbs)
    (hclear : d = .high ∨ (s.lane p).injecting = false) : exec (.residualCurrentDetected p d v) s =
      .next (decideFault (detectorCode d) (some p) (residualDetail v (detectorNumber d)) false s) := by
  refine if_pos ?_
  rcases hclear with rfl | h
  · simp [State.watchesResidual, hup, hstate, habove]
  · simp [State.watchesResidual, hup, hstate, habove, h]

theorem exec_residualSensorFault_of_out {mv : Nat} (hout : mv < 150 ∨ 1650 < mv) : exec (.residualSensorFault p mv) s =
    .next (decideFault 0x0105 (some p) (leInt 4 (5 * ((mv : Int) - 900)) ++ [5]) false s) := by
  refine if_pos ?_
  have : within 150 1650 mv = false := by
    simp [within]
    omega
  simp [State.watchesResidual, hup, hstate, this]

theorem exec_preBreakDiscrepancy_of_other {x : Bool} (hother : x ≠ (s.lane p).pbd) : exec (.preBreakDiscrepancy p x) s =
    .next (decideFault (if (s.lane p).pbd then 0x0402 else 0x0404) (some p) [0] false (s.modLane p (fun l => { l with pbf := x }))) :=
  if_pos (by simp [hup, hstate, hother])

theorem exec_contactorFeedbackDiscrepancy_of_held {at_ : Nat} (hodd : (s.lane p).ctfOdd = some at_) (hheld : at_ + 20 ≤ s.now) :
    exec (.contactorFeedbackDiscrepancy p (s.lane p).ctf) s =
      .next (decideFault 0x0401 (some p) [0] false (s.modLane p (fun l => { l with ctfOdd := none }))) :=
  if_pos (by simp [hup, hstate, hodd, State.heldFor, due_of_le hheld])

theorem exec_pilotFault_of_run {cls : PilotClass} {k : Nat} (hrun : 3 ≤ (s.lane p).classRun) (hopen : (s.lane p).state ≠ .lockout)
    (hcls : (s.lane p).lastClass = some cls) (hcode : pilotFaultCode cls = some k) : exec (.pilotFault p) s =
      .next (decideFault k (some p) (leInt 2 (s.lane p).highMv ++ leInt 2 ((s.lane p).lowMv.getD (-32768))) false s) := by
  change execPilotFault p s = _
  unfold execPilotFault
  dsimp only
  rw [if_pos (by simp [hup, hrun, hstate, hopen]), hcls, Option.bind_some, hcode]

end

theorem exec_fastTrip_of_comparing (a b c : Bool) (hcomparing : s.comparing p = true) : exec (.fastTrip p a b c) s = .next s :=
  if_neg (by simp [hcomparing])

theorem exec_fastTrip_of_trip {a b c : Bool} {blk : SafetyBlock} (hup : s.steepleUp = true) (hcommitted : s.steeple.committed = some blk)
    (hcomparing : s.comparing p = false) (htrip : (a || b || c) = true) : exec (.fastTrip p a b c) s =
      .next (decideFault 0x0201 (some p) (le 1 (b1 a + 2 * b1 b + 4 * b1 c) ++ le 2 (blk.trip[p])) false
        (s.withSteeple { s.steeple with
          above := s.steeple.above.set p #v[a, b, c]
          trips := s.steeple.trips.set p
            #v[(s.steeple.trips[p])[0] || a, (s.steeple.trips[p])[1] || b, (s.steeple.trips[p])[2] || c] })) := by
  have hconfirmed : s.confirmed = true := by simp [State.confirmed, hcommitted]
  have hlimit : s.tripOf p = blk.trip[p] := by simp [State.tripOf, hcommitted]
  change execFastTrip p a b c s = _
  unfold execFastTrip
  dsimp only
  rw [if_pos (by rw [hup, hconfirmed, hcomparing]; rfl), if_pos htrip, hlimit]
  rfl

/-! ## The comparators' self-test -/

theorem selfTestDue_iff : s.selfTestDue p = true ↔
    ((s.lane p).comparator.isSome = true ∨ ∃ x ∈ s.steeple.resets, p ∈ (s.lockOf x.port).ports) ∧
    (s.lane p).ctd = false ∧ (s.lane p).pbd = false := by
  simp [State.selfTestDue, and_assoc]

theorem exec_comparatorSelfTest_of_failed {x y : Bool} (hup : s.steepleUp = true) (hdue : s.selfTestDue p = true) (hbad : (x && y) = false) :
    exec (.comparatorSelfTest p x y) s = .next (failSelfTest p (s.modLane p (fun l => { l with comparator := none }))) := by
  change execComparatorSelfTest p x y s = _
  unfold execComparatorSelfTest
  rw [if_pos (by rw [hup, hdue]; rfl)]
  exact if_neg (by rw [hbad]; decide)

theorem exec_comparatorSelfTest_of_passed (hup : s.steepleUp = true) (hdue : s.selfTestDue p = true) :
    exec (.comparatorSelfTest p true true) s = .next (passSelfTest p (s.modLane p (fun l => { l with comparator := none }))) := by
  change execComparatorSelfTest p true true s = _
  unfold execComparatorSelfTest
  exact if_pos (by rw [hup, hdue]; rfl)

theorem failSelfTest_of_no_reset (hreset : (s.lane p).testForReset = false) : failSelfTest p s =
    decideFault 0x0203 (some p) [] false (s.modLane p (fun l => if l.testStep = 0 then l else l.abandonTest)) :=
  if_neg (by rw [hreset]; decide)

end

section
variable (p : Port) (s : State)

/-- A lane set to what it holds. -/
theorem setLane_self : s.setLane p (s.lane p) = s := by
  have hstamp : (s.lane p).stamp (s.lane p) s.civil = s.lane p := if_pos rfl
  unfold State.setLane
  rw [hstamp, State.lane]
  simp only [Fin.getElem_fin, Vector.set_getElem_self]
  rfl

/-- A self-test passed is marked in the resets that wait for it; a PORT_ENABLE that waits for it completes. -/
theorem passSelfTest_effect : (passSelfTest p s).steeple.record = s.steeple.record ∧
    ((passSelfTest p s).lane p).comparator = (s.lane p).comparator ∧
    (passSelfTest p s).steeple.resets = s.steeple.resets.map (fun r =>
      if (s.lockOf r.port).ports.contains p then { r with selfTests := p :: r.selfTests.filter (fun q => q != p) } else r) := by
  unfold passSelfTest
  dsimp only
  split
  · rw [unhosted_steeple (settlePort_unhosted ..), unhosted_lane (settlePort_unhosted ..), modLane_steeple, lane_modLane, stamp_comparator]
    exact ⟨rfl, rfl, rfl⟩
  · exact ⟨rfl, rfl, rfl⟩

end

/-- Settles O32. That a reading in a detector's grey zone decides is the model's reading (log 142). -/
theorem detectorsDecide : Obligations.DetectorsDecide := by
  unfold Obligations.DetectorsDecide
  refine ⟨fun s hup => if_pos hup, fun s hup hdue => if_pos (by rw [hup, due_of_le hdue]; rfl),
    fun x mv s hup habove => exec_supplyExcursion_of_above hup x habove, ?supplyLow, ?high, ?dc, ?ac, ?injecting,
    fun p mv s hup hstate hout => exec_residualSensorFault_of_out hup hstate hout, ?trip,
    fun p a b c s hcomparing => exec_fastTrip_of_comparing a b c hcomparing,
    fun p x y s hup hdue hbad => exec_comparatorSelfTest_of_failed hup hdue hbad, ?idleFail, ?runningFail, ?pass,
    fun s p => selfTestDue_iff, fun p s cls k hup hrun hstate hopen hcls hcode => exec_pilotFault_of_run hup hstate hrun hopen hcls hcode,
    fun p s at_ hup hstate hodd hheld => exec_contactorFeedbackDiscrepancy_of_held hup hstate hodd hheld,
    fun p x s hup hstate hother => exec_preBreakDiscrepancy_of_other hup hstate hother, ?down⟩
  case supplyLow =>
    intro mv s hup hlow
    obtain ⟨hstop, hrecord⟩ := supplyStop_stops (s.steeple.suppliesOut.contains .vddio) (noteSupply .vddio true (decide (mv < 3100)) s)
    exact ⟨_, exec_supplyExcursion_of_vddio_low hup hlow, hstop, fun hfirst => hrecord (by simpa using hfirst)⟩
  case high =>
    intro p v s hup hstate habove
    exact exec_residualCurrentDetected_of_above hup hstate .high habove (Or.inl rfl)
  case dc =>
    intro p v s hup hstate habove hidle
    exact exec_residualCurrentDetected_of_above hup hstate .dc habove (Or.inr (by simp [Lane.injecting, hidle]))
  case ac =>
    intro p v s hup hstate habove hidle
    exact exec_residualCurrentDetected_of_above hup hstate .ac habove (Or.inr (by simp [Lane.injecting, hidle]))
  case injecting =>
    intro p v s hup hstate hstep
    have hinjecting : (s.lane p).injecting = true := by simpa [Lane.injecting] using hstep
    exact ⟨exec_residualCurrentDetected_of_injecting v (by decide) hinjecting,
      exec_residualCurrentDetected_of_injecting v (by decide) hinjecting⟩
  case trip =>
    intro p a b c s blk hup hcommitted hcomparing htrip
    refine ⟨_, exec_fastTrip_of_trip hup hcommitted hcomparing htrip, ?_⟩
    simp only [withSteeple_steeple, Fin.getElem_fin, Vector.getElem_set_self]
  case idleFail =>
    intro p s hidle hreset
    rw [failSelfTest_of_no_reset hreset, State.modLane, if_pos hidle, setLane_self]
  case runningFail =>
    intro p s hrunning hreset
    rw [failSelfTest_of_no_reset hreset, State.modLane, if_neg hrunning]
    rfl
  case pass =>
    intro p s hup hdue
    obtain ⟨hrecord, hcomparator, hresets⟩ := passSelfTest_effect p (s.modLane p (fun l => { l with comparator := none }))
    refine ⟨_, exec_comparatorSelfTest_of_passed hup hdue, hrecord, ?_, fun x hx hp => ?_⟩
    · rw [hcomparator, lane_modLane, stamp_comparator]
    · rw [hresets] at hx
      obtain ⟨r, -, rfl⟩ := List.mem_map.mp hx
      have hlock (o : Option Port) : (s.modLane p (fun l => { l with comparator := none })).lockOf o = s.lockOf o := rfl
      rw [hlock] at hp ⊢
      split at hp
      · next h =>
        rw [if_pos h]
        exact List.mem_cons_self
      · next h => exact absurd (by simpa using hp) h
  case down =>
    intro code port detail own s hdown
    exact if_neg (by rw [hdown]; decide)

end Sys2Proof.Machine
end

section
/-! The times of reactions, of CD1 and of degraded mode (R19, R255, R265 to R269), and the resets of lock-outs (R258 to R262, R274, R276). -/

namespace Sys2Proof.Machine

/-! ## The loss of CD1 -/

section
variable (s : State)

theorem stopDrives_permits (p : Port) : (setProbe p false (setPermit p false (setPbd p false (setCtd p false s)))).steeple.permits =
    s.steeple.permits.set p false := congrArg (fun g : FaultView => g.1.2.2.1) (stopDrives_guarded p s)

theorem dropPermits_permit (p : Port) : (dropPermits s).permit p = false := by
  have hfold (l : List Port) : ∀ s : State, p ∈ l ∨ s.permit p = false →
      (l.foldl (fun s p => setProbe p false (setPermit p false (setPbd p false (setCtd p false s)))) s).permit p = false := by
    induction l with
    | nil => exact fun s h => h.resolve_left (by simp)
    | cons q l ih =>
      intro s h
      refine ih _ ?_
      by_cases hq : q = p
      · subst hq
        right
        rw [State.permit, stopDrives_permits]
        simp only [Fin.getElem_fin, Vector.getElem_set_self]
      · refine h.imp (fun hmem => (List.mem_cons.mp hmem).resolve_left (Ne.symm hq)) fun hoff => ?_
        have hval : q.val ≠ p.val := fun e => hq (Fin.ext e)
        rw [State.permit, stopDrives_permits]
        simp only [Fin.getElem_fin, Vector.getElem_set_ne _ _ hval]
        exact hoff
  exact hfold allPorts s (Or.inl (List.mem_finRange p))

theorem dropPermits_power : (dropPermits s).power = s.power := by
  have hpermit (p : Port) (t : State) : (setPermit p false t).power = t.power := by
    unfold setPermit
    split
    · rfl
    · rw [trace_power, withSteeple_power]
  have hprobe (p : Port) (t : State) : (setProbe p false t).power = t.power := by
    unfold setProbe
    dsimp only
    rw [if_neg (by decide), withSteeple_power]
  unfold dropPermits
  refine List.foldlRecOn (motive := fun t : State => t.power = s.power) allPorts _ rfl fun t ht p _ => ?_
  rw [hprobe, hpermit, setPbd, modLane_power, setCtd, modLane_power, ht]

theorem dropPermits_cd1Lost : (dropPermits s).steeple.cd1Lost = s.steeple.cd1Lost := by
  obtain ⟨permits, probes, hdrop⟩ := dropPermits_steeple s
  rw [hdrop]

theorem loseCd1_effect : (∀ p, (loseCd1 s).permit p = false) ∧ (loseCd1 s).steepleUp = false ∧
    (loseCd1 s).steeple.cd1Lost.isSome = true := by
  unfold loseCd1
  dsimp only
  refine ⟨fun p => dropPermits_permit _ p, ?_, ?_⟩
  · simp [State.steepleUp, State.up, State.clocked, dropPermits_power]
  · rw [dropPermits_cd1Lost, withSteeple_steeple]
    rfl

end

/-! ## Degraded mode -/

section
variable {s : State} (hup : s.steepleUp = true)
include hup

theorem exec_degradedOvercurrent_of_held {p : Port} {d : Degraded} (f : Phase) (hdegraded : s.degradedOf p = some d)
    (hheld : s.heldFor (s.steeple.overSince[p])[f] 5000 = true) :
    exec (.degradedOvercurrent p) s = .next (lockDegradedPort p d.code d.index s) := by
  have hany : s.steeple.overSince[p].toList.any (fun t => s.heldFor t 5000) = true :=
    List.any_eq_true.mpr ⟨_, Vector.mem_toList_iff.mpr (Vector.getElem_mem f.isLt), hheld⟩
  change execDegradedOvercurrent p s = _
  unfold execDegradedOvercurrent
  rw [hdegraded]
  exact if_pos (by rw [hup, hany]; rfl)

theorem exec_degradedTimeEnd_of_hub {d : Degraded} (hhub : s.steeple.hubDegraded = some d)
    (hports : ∀ p : Port, s.steeple.portDegraded[p] = none) (hdue : d.endsAt ≤ s.now) :
    exec .degradedTimeEnd s = .next (endHubDegraded d s) := by
  have hnone : allPorts.foldl endPortDegraded s = s := by
    refine List.foldlRecOn (motive := fun t => t = s) allPorts _ rfl fun t ht p _ => ?_
    unfold endPortDegraded
    rw [ht, hports p]
  change execDegradedTimeEnd s = _
  unfold execDegradedTimeEnd
  rw [if_pos hup, hnone]
  dsimp only
  rw [hhub]
  exact if_pos (due_of_le hdue)

theorem exec_degradedEarlyEnd_of_cleared {d : Degraded} (hhub : s.steeple.hubDegraded = some d) (hcleared : s.degradedCleared d = true) :
    ∃ t, exec .degradedEarlyEnd s = .next t ∧ t.steeple.hubDegraded = none ∧ t.steeple.hub.pending = false ∧
      t.steeple.permits = s.steeple.permits := by
  have hpermits : (addRecord kEarlyEnd 0 none d.index [] {} s).steeple.permits = s.steeple.permits :=
    congrArg (fun g : FaultView => g.1.2.2.1) (addRecord_guarded ..)
  change ∃ t, execDegradedEarlyEnd s = .next t ∧ _
  unfold execDegradedEarlyEnd
  rw [hhub]
  dsimp only
  rw [if_pos (by rw [hup, hcleared]; rfl)]
  generalize addRecord kEarlyEnd 0 none d.index [] {} s = s1 at hpermits ⊢
  refine ⟨_, rfl, ?_⟩
  unfold endHubMode
  dsimp only
  rw [withSteeple_steeple, withSteeple_steeple]
  exact ⟨rfl, rfl, hpermits⟩

end

/-- Settles O36. -/
theorem safetyTimes : Obligations.SafetyTimes := by
  unfold Obligations.SafetyTimes
  refine ⟨?reaction, fun s => rfl, fun s hup => ⟨if_pos hup, loseCd1_effect s⟩,
    fun p d s f hup hdegraded hheld => exec_degradedOvercurrent_of_held hup f hdegraded hheld,
    fun d s hup hhub hports hdue => exec_degradedTimeEnd_of_hub hup hhub hports hdue,
    fun d s hup hhub hcleared => exec_degradedEarlyEnd_of_cleared hup hhub hcleared⟩
  intro s
  refine ⟨_, rfl, rfl, fun r hr hnative hrunning hdue => List.mem_map.mpr ⟨r, hr, ?_⟩⟩
  rw [if_pos (by rw [hnative, hrunning, due_of_le hdue]; rfl)]

/-! ## Resets of lock-outs -/

theorem Asked.exec_lockoutReset {b : Box} {f : Frame} {r : Req} {s : State} (h : Asked b 0x0803 f r s) :
    exec (.lockoutReset b) s = .next (lockoutReset r (taken b f s)) := h.request lockoutReset

theorem lockoutReset_of_scope {r : Req} {s : State} (hlen : r.payload.length = 8) (hhandle : r.handle = 0)
    (hscope : (field r.payload 0 1 = 0 ∧ field r.payload 1 1 < 24) ∨ (field r.payload 0 1 = 1 ∧ field r.payload 1 1 = 255)) :
    lockoutReset r s = askSteeple 1 r.payload r s := by
  unfold lockoutReset
  rw [withLength_of_length hlen, noHandle_of_zero hhandle, check_of_true]
  rcases hscope with ⟨hkind, hport⟩ | ⟨hkind, hport⟩ <;> simp [hkind, hport]

section
variable {s : State} {r : ResetRun} (hup : s.steepleUp = true)
include hup

section
variable (hresets : s.steeple.resets = [r])
include hresets

section
variable (hwaits : r.inWindow = false) (hclear : s.allClear r = true)
include hwaits hclear

theorem exec_clearConditionsMet_of_plain (hplain : (s.lockOf r.port).needsConfirmation = false) :
    exec .clearConditionsMet s = .next (completeReset r {} s) := by
  refine (if_pos hup).trans ?_
  rw [hresets, List.foldl_cons, List.foldl_nil, clearReset, if_pos (by simp [hresets, hwaits, hclear]), if_pos (by simp [hplain])]

theorem exec_clearConditionsMet_of_confirmed (hconfirm : (s.lockOf r.port).needsConfirmation = true) (hfree : s.steeple.window = none) :
    exec .clearConditionsMet s = .next (openWindow r s) := by
  refine (if_pos hup).trans ?_
  rw [hresets, List.foldl_cons, List.foldl_nil, clearReset, if_pos (by simp [hresets, hwaits, hclear]), if_neg (by simp [hconfirm]),
    if_neg (by simp [hfree])]

end

theorem exec_lockoutResetTimeout_of_uncleared (hwaits : r.inWindow = false) (hunclear : s.allClear r = false)
    (hdue : r.startedAt + 10000 ≤ s.now) :
    exec .lockoutResetTimeout s = .next (endReset r stFaultPresent 0 (s.firstUncleared r) s) := by
  refine (if_pos hup).trans ?_
  rw [hresets, List.foldl_cons, List.foldl_nil, if_pos (by rw [hwaits, hunclear, due_of_le hdue]; rfl)]

theorem exec_clearProbeEnd_of_not_a {p : Port} {t0 : Nat} (hprobing : r.probing = [(p, t0)]) (hdue : t0 + 20 ≤ s.now)
    (hother : (s.lane p).confirmed ≠ some .a) :
    exec (.clearProbeEnd p) s = .next (endReset r stFaultPresent 0 (s.firstUncleared r) (endProbe s p)) := by
  refine (if_pos hup).trans ?_
  rw [hresets, List.foldl_cons, List.foldl_nil, endPilotProbe, if_pos (by simp [hprobing, due_of_le hdue])]
  dsimp only
  rw [if_neg hother]

end

section
variable {w : ConfirmWindow} (hwindow : s.steeple.window = some w) (hrun : s.windowRun = some r)
include hwindow hrun

theorem exec_confirmationWindowExpired_of_due (hdue : w.deadline ≤ s.now) : exec .confirmationWindowExpired s =
    .next (endReset r stLocalConfirmMissing 0 0 (addRecord 12 0 w.port (s.lockOf w.port).latest [] {} s)) := by
  change execConfirmationWindowExpired s = _
  unfold execConfirmationWindowExpired
  rw [hwindow, hrun]
  exact if_pos (by rw [hup, due_of_le hdue]; rfl)

/-- A pulse of 0.5 s to 5 s inside the window decides the reset. -/
theorem exec_srstNPulse_of_pulse {n : Nat} (hfree : s.steeple.srstStuck = false) (hlow : 500 ≤ n) (hhigh : n < 5000)
    (hopened : w.openedAt + n ≤ s.now) (hdeadline : s.now ≤ w.deadline) : exec (.srstNPulse n) s =
      .next (if s.allClear r then completeReset r { srst := true } s else endReset r stFaultPresent 0 (s.firstUncleared r) s) := by
  change execSrstNPulse n s = _
  unfold execSrstNPulse
  rw [hwindow]
  dsimp only
  rw [if_pos (by simp [hup, hfree, hlow, hhigh, hopened, hdeadline]), confirmReset, hrun]

end

theorem exec_srstNStuck_of_free (hfree : s.steeple.srstStuck = false) :
    ∃ t, exec .srstNStuck s = .next t ∧ t.steeple.srstStuck = true ∧ (∃ e ∈ t.steeple.record, e.kind = 10 ∧ e.index = s.steeple.nextIndex) ∧
      t.steeple.resets = s.steeple.resets ∧ t.steeple.permits = s.steeple.permits := by
  have hmem := exists_mem_addRecord (s.withSteeple { s.steeple with srstStuck := true }) kSrstStuck 0 none 0 [] {}
  refine ⟨_, if_pos (by rw [hup, hfree]; rfl), ?_, hmem, ?_, ?_⟩ <;> rw [addRecord_steeple, withSteeple_steeple]

end

theorem exec_srstNPulse_of_ignored {n : Nat} {s : State} (h : n < 500 ∨ s.steeple.window = none ∨ s.steeple.srstStuck = true) :
    exec (.srstNPulse n) s = .next s := by
  change execSrstNPulse n s = _
  unfold execSrstNPulse
  split
  · next w hwindow =>
    refine if_neg fun hall => ?_
    simp only [Bool.and_eq_true, Bool.not_eq_true', decide_eq_true_eq] at hall
    obtain ⟨⟨-, hfree⟩, hlow, -⟩ := hall
    rcases h with hshort | hnone | hstuck
    · omega
    · exact absurd (hwindow.symm.trans hnone) (by simp)
    · exact absurd (hfree.symm.trans hstuck) (by decide)
  · rfl

/-- Settles O37. That a failed probe and a condition unmet after 10 s end the reset with `FAULT_PRESENT` is the model's reading of R276
(log 62). -/
theorem lockoutResets : Obligations.LockoutResets := by
  unfold Obligations.LockoutResets
  refine ⟨?ask, fun s r hup hresets hwaits hclear hplain => exec_clearConditionsMet_of_plain hup hresets hwaits hclear hplain,
    fun s r hup hresets hwaits hclear hconfirm hfree => exec_clearConditionsMet_of_confirmed hup hresets hwaits hclear hconfirm hfree,
    fun s r hup hresets hwaits hunclear hdue => exec_lockoutResetTimeout_of_uncleared hup hresets hwaits hunclear hdue,
    fun p s r t0 hup hresets hprobing hdue hother => exec_clearProbeEnd_of_not_a hup hresets hprobing hdue hother,
    fun s w r hup hwindow hrun hdue => exec_confirmationWindowExpired_of_due hup hwindow hrun hdue, ?pulse, ?pulseUnclear,
    fun n s h => exec_srstNPulse_of_ignored h, fun s hup hfree => exec_srstNStuck_of_free hup hfree, fun s hup => if_pos hup⟩
  case ask =>
    intro b f r s hasked hlen hhandle hscope
    rw [hasked.exec_lockoutReset, lockoutReset_of_scope hlen hhandle hscope]
  case pulse =>
    intro n s w r hup hwindow hrun hfree hlow hhigh hopened hdeadline hclear
    rw [exec_srstNPulse_of_pulse hup hwindow hrun hfree hlow hhigh hopened hdeadline, if_pos hclear]
  case pulseUnclear =>
    intro n s w r hup hwindow hrun hfree hlow hhigh hopened hdeadline hunclear
    rw [exec_srstNPulse_of_pulse hup hwindow hrun hfree hlow hhigh hopened hdeadline, if_neg (by rw [hunclear]; decide)]

end Sys2Proof.Machine
end

section
/-! Telegram supervision (R287, R289, R301): what a PDU sent leaves of the SN-B link. -/

namespace Sys2Proof.Machine

/-- What becomes of a frame on the bus changes of a link its error counts. -/
theorem canSent_changes (l : SafetyLink) (x : CanSend) : (l.canSent x).changes = l.changes := by
  cases x <;> rfl

theorem modLink_snB (s : State) (f : SafetyLink → SafetyLink) : (s.modLink .snB f).steeple.telegram.b =
    { f s.steeple.telegram.b with modified := w48 s.civil, changes := w32 ((f s.steeple.telegram.b).changes + 1) } := rfl

/-- A PDU sent on SN-B counts as a change of the link's body (R75, R301). -/
theorem telegramTransmit_changes {s t : State} {b : SafetyBlock} (hup : s.steepleUp = true) (hcommitted : s.steeple.committed = some b)
    (hrunning : s.steeple.telegram.running = true) (hdue : s.steeple.telegram.nextTxAt ≤ s.now)
    (hbus : s.steeple.telegram.b.busState ≠ 2) (hexec : exec .telegramTransmit s = .next t) :
    t.steeple.telegram.b.changes = w32 (s.steeple.telegram.b.changes + 1) := by
  change execTelegramTransmit s = _ at hexec
  unfold execTelegramTransmit at hexec
  rw [hcommitted] at hexec
  dsimp only at hexec
  rw [if_pos (by rw [hup, hrunning, due_of_le hdue]; rfl), if_neg hbus] at hexec
  rw [← Host.Outcome.next.inj hexec, draw_steeple, modLink_snB]
  dsimp only
  rw [canSent_changes]
  rfl

/-- The device in service with the default safety parameters in force and a PDU due at once. -/
def transmitting : State :=
  { State.reset with
    power := { Power.reset with phase := .running }
    steeple := { Steeple.reset with committed := some SafetyBlock.defaults, telegram := { Telegram.reset with running := true } } }

/-- Refutes O39: the frame sent on SN-B is a change of the link's body, which the link counts (R75, R301), so the link's count of changes does
not stay as the first clause has it. In the state above it goes from 0 to 1. What becomes of the frame is the model's choice (logs 181 and
188), and no choice of it mends the count. -/
theorem not_telegrams : ¬ Obligations.Telegrams := by
  unfold Obligations.Telegrams
  rintro ⟨htransmit, -⟩
  have hup : transmitting.steepleUp = true := by decide +kernel
  have hbus : transmitting.steeple.telegram.b.busState ≠ 2 := by decide +kernel
  obtain ⟨t, hexec, -, -, -, -, -, hb, -⟩ := htransmit transmitting SafetyBlock.defaults hup rfl rfl (Nat.le_refl _)
  have hcounted := telegramTransmit_changes hup rfl rfl (Nat.le_refl _) hbus hexec
  rw [hb hbus, canSent_changes] at hcounted
  exact absurd hcounted (by decide +kernel)

end Sys2Proof.Machine
end

section
/-! The channel commands (R79 to R92). -/

namespace Sys2Proof.Machine

/-! ## The channel table -/

section
variable (s : State)

/-- The channels and the generations of the slots. -/
def State.table (s : State) : List Channel × Vector Nat 256 := (s.rotunda.channels, s.rotunda.generations)

theorem table_of_unlinked {s t : State} (h : s.unlinked = t.unlinked) : s.table = t.table := by
  rw [State.table, State.table, unlinked_generations h, unlinked_channels h]

theorem table_of_rotunda {s t : State} (h : s.rotunda = t.rotunda) : s.table = t.table := by
  rw [State.table, State.table, h]

theorem logError_table (i : Fin 8) (kind offset requester cnt time : Nat) (counted : Bool) :
    (logError i kind offset requester cnt time counted s).table = s.table := by
  unfold logError
  dsimp only
  split
  · rw [table_of_unlinked (raise_unlinked ..)]
    exact table_of_rotunda (withMemory_rotunda ..)
  · exact table_of_rotunda (withMemory_rotunda ..)

theorem clearPoison_table (slot : Nat) : (clearPoison slot s).table = s.table :=
  List.foldlRecOn (motive := fun t : State => t.table = s.table) _ _ rfl (fun t ht _ _ => (logError_table t ..).trans ht)

/-- A channel created takes the free slot at its present generation. -/
theorem createChannel_cases {body : Body} {owner : Option Box} {role h : Nat} {t : State}
    (hcreated : createChannel body owner role s = some (h, t)) : ∃ slot, s.freeSlot? = some slot ∧
    t.table = (s.rotunda.channels ++ [⟨slot, s.generation slot, owner, role, w48 s.civil, w48 s.civil, 0, body⟩],
      s.rotunda.generations) := by
  unfold createChannel at hcreated
  split at hcreated
  · cases hcreated
  · split at hcreated
    · cases hcreated
    · next slot hslot =>
      obtain ⟨rfl, rfl⟩ := Prod.mk.inj (Option.some.inj hcreated)
      refine ⟨slot, hslot, ?_⟩
      rw [table_of_unlinked (raiseAlso_unlinked ..), clearPoison_table]
      rfl

/-- A channel destroyed leaves the table, and its slot moves to the next generation. -/
theorem destroyChannel_table (c : Channel) (code reason : Nat) : (destroyChannel c code reason s).table =
    (s.rotunda.channels.filter (fun d => d.slot ≠ c.slot), if h : c.slot < 256 then
      s.rotunda.generations.set c.slot (if s.generation c.slot = 0xFFFF then 1 else s.generation c.slot + 1)
      else s.rotunda.generations) := by
  unfold destroyChannel
  dsimp only
  rw [table_of_unlinked (raiseAlso_unlinked ..)]
  rfl

theorem abortSignatures_of_none {h : Nat} (hnone : ∀ j ∈ s.legal.signing, j.request.any (fun w => w.handle == h) = false)
    (hwaiting : s.legal.waitingRecords = []) (hroom : s.legal.signing.length ≤ 16) : abortSignatures h s = s := by
  have hothers : s.legal.signing.filter (fun j => !j.request.any (fun w => w.handle == h)) = s.legal.signing :=
    List.filter_eq_self.mpr fun j hj => by rw [hnone j hj]; rfl
  have hmine : s.legal.signing.filter (fun j => j.request.any (fun w => w.handle == h)) = [] :=
    List.filter_eq_nil_iff.mpr fun j hj => by rw [hnone j hj]; decide
  have hqueue : requeue s.legal.signing s = s := by
    unfold requeue
    rw [hwaiting, List.append_nil, List.take_of_length_le hroom, List.drop_eq_nil_of_le hroom, ← hwaiting]
    rfl
  unfold abortSignatures
  dsimp only
  rw [hothers, hmine, hqueue]
  rfl

end

/-! ## The commands -/

section
variable {b : Box} {f : Frame} {r : Req} {s : State}

theorem Asked.exec_channelCreate (h : Asked b 0x0201 f r s) : exec (.channelCreate b) s = .next (channelCreate r (taken b f s)) :=
  h.request channelCreate
theorem Asked.exec_channelDestroy (h : Asked b 0x0202 f r s) : exec (.channelDestroy b) s = .next (channelDestroy r (taken b f s)) :=
  h.request channelDestroy
theorem Asked.exec_channelRead (h : Asked b 0x0203 f r s) : exec (.channelRead b) s = .next (channelRead r (taken b f s)) :=
  h.request channelRead
theorem Asked.exec_channelModify (h : Asked b 0x0204 f r s) : exec (.channelModify b) s = .next (channelModify r (taken b f s)) :=
  h.request channelModify
theorem Asked.exec_channelList (h : Asked b 0x0205 f r s) : exec (.channelList b) s = .next (channelList r (taken b f s)) :=
  h.request channelList

end

section
variable {r : Req} {s : State}

theorem channelCreate_of_slot {body : Body} {h : Nat} {t : State} (hshort : 5 ≤ r.payload.length) (hlong : r.payload.length ≤ 452)
    (hhandle : r.handle = 0) (htype : field r.payload 0 1 = typeStream ∨ field r.payload 0 1 = typeFilter)
    (hbody : bodyOf (field r.payload 0 1) (r.payload.drop 4) = some body)
    (hcreated : createChannel body (some r.box) r.role (accept r s) = some (h, t)) :
    channelCreate r s = finish r.wait stOk (le 4 h) t := by
  have hother : field r.payload 0 1 ≠ typeProgram := by rcases htype with h | h <;> rw [h] <;> decide
  have hcreatable : creatable (field r.payload 0 1) = true := by rcases htype with h | h <;> rw [h] <;> rfl
  have howns : roleOwns r.role (field r.payload 0 1) = true := by rcases htype with h | h <;> simp [roleOwns, h]
  unfold channelCreate
  dsimp only
  rw [withLength, if_pos (within_of_le hshort hlong), noHandle_of_zero hhandle, check_of_true hcreatable,
    check_of_true (by simp [howns]), hbody]
  dsimp only
  rw [programServes, if_neg hother, hcreated]
  dsimp only
  rw [if_neg hother]

/-- The owner's own channel of a type that every role owns passes the ownership rules (R84). -/
theorem withOwned_of_owner {destroy : Bool} {k : Channel → State → State} {c : Channel} (hhandle : r.handle ≠ 0)
    (hcurrent : s.current r.handle = true) (hchannel : s.channelOf r.handle = some c) (howner : c.owner = some r.box)
    (htype : c.body.typeCode = typeStream ∨ c.body.typeCode = typeFilter) : withOwned destroy r k s = k c s := by
  have howns : roleOwns r.role c.body.typeCode = true := by rcases htype with h | h <;> simp [roleOwns, h]
  unfold withOwned
  rw [withHandle_of_current hhandle hcurrent, hchannel]
  dsimp only
  rw [howner]
  dsimp only
  rw [if_neg (by simp), if_neg (by simp [howns])]

theorem channelDestroy_of_owner {c : Channel} (hempty : r.payload = []) (hhandle : r.handle ≠ 0) (hcurrent : s.current r.handle = true)
    (hchannel : s.channelOf r.handle = some c) (howner : c.owner = some r.box)
    (htype : c.body.typeCode = typeStream ∨ c.body.typeCode = typeFilter) (hprogram : c.program? = none) (htxn : c.txn? = none) :
    channelDestroy r s = finish r.wait stOk []
      (destroyChannel c 0x8021 0 (abortSignatures c.handle (settleHandle c.handle stAborted (accept r s)))) := by
  unfold channelDestroy
  rw [withLength_of_empty hempty, withOwned_of_owner hhandle hcurrent hchannel howner htype, hprogram]
  dsimp only
  rw [check_of_true (by simp [htxn]), destroyBy, hprogram, htxn]
  simp only [Option.isSome_none, Bool.false_eq_true, if_false]

theorem channelRead_of_kept (hlen : r.payload.length = 4) (hhandle : r.handle ≠ 0) (hcurrent : s.current r.handle = true)
    (hsome : 1 ≤ field r.payload 2 2) (hfew : field r.payload 2 2 ≤ 448) (hend : field r.payload 0 2 + field r.payload 2 2 ≤ 512)
    (hkept : s.rotunda.rebuilding.contains (handleSlot r.handle) = false) :
    channelRead r s = respond r stOk (slice (s.slotImage r.handle) (field r.payload 0 2) (field r.payload 2 2)) s.draw := by
  unfold channelRead
  rw [withLength_of_length hlen, withHandle_of_current hhandle hcurrent, check_of_true (by simp [within_of_le hsome hfew, hend]),
    intact_of_kept (by simpa using hkept)]

theorem channelModify_of_filter {c : Channel} {x y : FilterBody} (hshort : 5 ≤ r.payload.length) (hlong : r.payload.length ≤ 452)
    (hlen : r.payload.length = 4 + field r.payload 2 2) (hhandle : r.handle ≠ 0) (hcurrent : s.current r.handle = true)
    (hchannel : s.channelOf r.handle = some c) (howner : c.owner = some r.box) (hbody : c.body = .filter x)
    (hstart : 32 ≤ field r.payload 0 2) (hend : field r.payload 0 2 + field r.payload 2 2 ≤ 40)
    (hnew : filterOf ((splice (fit 480 x.bytes) (field r.payload 0 2 - 32) (r.payload.drop 4)).take 8) = some y) :
    channelModify r s = finish r.wait stOk [] (setBody c.slot (.filter y) (accept r s)) := by
  have hwritable : writableBytes c.body (field r.payload 0 2) (field r.payload 2 2) = true := by simp [hbody, writableBytes, hstart, hend]
  have hmodified : modifiedBody c.body (field r.payload 0 2) (r.payload.drop 4) = some (.filter y) := by
    simp [hbody, modifiedBody, Body.bytes, hnew]
  have hprogram : c.program? = none := by simp [Channel.program?, hbody]
  unfold channelModify
  rw [withLength, if_pos (by rw [within_of_le hshort hlong, hlen]; simp),
    withOwned_of_owner hhandle hcurrent hchannel howner (Or.inr (by rw [hbody]; rfl)), hwritable, hmodified]
  dsimp only
  rw [hprogram]
  rfl

theorem channelList_of_all (hlen : r.payload.length = 4) (hhandle : r.handle = 0) (hall : field r.payload 0 1 = 0) :
    channelList r s =
      let x := s.listFrom 0 64 ((List.range 256).drop (field r.payload 1 1))
      respond r stOk (le 1 x.1.length ++ le 1 x.2 ++ [0, 0] ++ x.1.flatten) s := by
  unfold channelList
  dsimp only
  rw [withLength_of_length hlen, noHandle_of_zero hhandle, check_of_true (by simp [hall]), hall]

end

/-- Settles O40. -/
theorem channelCommands : Obligations.ChannelCommands := by
  unfold Obligations.ChannelCommands
  refine ⟨?create, ?created, ?destroy, fun h s hnone hwaiting hroom => abortSignatures_of_none s hnone hwaiting hroom, ?destroyed, ?read,
    ?modify, ?list⟩
  case create =>
    intro b f r s body h t hasked hshort hlong hhandle htype hbody hcreated
    rw [hasked.exec_channelCreate, channelCreate_of_slot hshort hlong hhandle htype hbody hcreated]
  case created =>
    intro body owner role s h t hcreated
    obtain ⟨slot, hslot, htable⟩ := createChannel_cases s hcreated
    obtain ⟨hchannels, hgenerations⟩ := Prod.mk.inj htable
    exact ⟨slot, hslot, hchannels, hgenerations⟩
  case destroy =>
    intro b f r s c hasked hempty hhandle hcurrent hchannel howner htype hprogram htxn
    rw [hasked.exec_channelDestroy, channelDestroy_of_owner hempty hhandle hcurrent hchannel howner htype hprogram htxn]
  case destroyed =>
    intro c code reason s
    obtain ⟨hchannels, hgenerations⟩ := Prod.mk.inj (destroyChannel_table s c code reason)
    refine ⟨_, rfl, hchannels, ?_⟩
    rw [State.generation, hgenerations]
    by_cases hslot : c.slot < 256
    · simp [hslot]
    · have hout : s.rotunda.generations.toList.length ≤ c.slot := by simpa using hslot
      rw [dif_neg hslot, if_neg hslot, List.getD_eq_getElem?_getD, List.getElem?_eq_none hout, Option.getD_none]
  case read =>
    intro b f r s hasked hlen hhandle hcurrent hsome hfew hend hkept
    rw [hasked.exec_channelRead, channelRead_of_kept hlen hhandle hcurrent hsome hfew hend (by simpa using hkept)]
  case modify =>
    intro b f r s c x y hasked hshort hlong hlen hhandle hcurrent hchannel howner hbody hstart hend hnew
    rw [hasked.exec_channelModify,
      channelModify_of_filter hshort hlong hlen hhandle hcurrent hchannel howner hbody hstart hend hnew]
  case list =>
    rintro b f r s hasked ⟨hlen, hhandle, hall⟩
    rw [hasked.exec_channelList, channelList_of_all hlen hhandle hall]

end Sys2Proof.Machine
end

section
/-! What frames and events leave of a mailbox's stage and of the checks of a commit (R74, R95 to R98). -/

namespace Sys2Proof.Machine

/-- What a mailbox keeps between requests: its stage, with the time of its last transaction command and its last commit, and whether its
session is keyed. -/
structure Staging where
  stage : Option (List CfgRecord)
  touched : Nat
  lastPeriod : Nat
  lastCommitTime : Nat
  keyed : Bool

def Mailbox.staging (m : Mailbox) : Staging := ⟨m.stage, m.stageTouched, m.lastPeriod, m.lastCommitTime, m.session.any (·.keyed)⟩

def State.staging (s : State) (b : Box) : Staging := (s.box b).staging

section
variable {s t : State}

theorem stage_of_staging (h : s.staging = t.staging) (b : Box) : (s.box b).stage = (t.box b).stage := congrArg Staging.stage (congrFun h b)

theorem staging_of_rotunda (h : s.rotunda = t.rotunda) : s.staging = t.staging :=
  funext fun b => congrArg Mailbox.staging (box_of_rotunda b h)

theorem setBox_staging {b : Box} {m : Mailbox} (h : m.staging = (s.box b).staging) : (s.setBox b m).staging = s.staging := by
  funext c
  by_cases hc : b = c
  · subst hc
    rw [State.staging, State.staging, box_setBox, h]
  · rw [State.staging, State.staging, box_setBox_ne s m hc]

theorem modBox_staging {b : Box} {f : Mailbox → Mailbox} (h : ∀ m, (f m).staging = m.staging) : (s.modBox b f).staging = s.staging :=
  setBox_staging (h _)

theorem modHost_staging_at {b : Box} {f : Mailbox → Mailbox} (h : (f (s.box b)).staging = (s.box b).staging) :
    (s.modHost b f).staging = s.staging := setBox_staging h

theorem modHost_staging {b : Box} {f : Mailbox → Mailbox} (h : ∀ m, (f m).staging = m.staging) : (s.modHost b f).staging = s.staging :=
  setBox_staging (h _)

theorem mapSession_staging {g : Session → Session} (hg : ∀ ss, (g ss).keyed = ss.keyed) (m : Mailbox) :
    ({ m with session := m.session.map g } : Mailbox).staging = m.staging := by
  unfold Mailbox.staging
  cases m.session with
  | none => rfl
  | some ss => exact congrArg (Staging.mk m.stage m.stageTouched m.lastPeriod m.lastCommitTime) (hg ss)

theorem foldl_staging {α : Type} {f : State → α → State} (hf : ∀ a s, (f s a).staging = s.staging) (l : List α) (s : State) :
    (l.foldl f s).staging = s.staging :=
  List.foldlRecOn (motive := fun t => t.staging = s.staging) l f rfl (fun t ht a _ => (hf a t).trans ht)

end

section
variable (s : State)

theorem pushOut_staging (b : Box) (f : Frame) : (pushOut b f s).staging = s.staging := by
  unfold pushOut traceFrame
  rw [staging_of_rotunda (trace_rotunda ..), modHost_staging]
  exact fun _ => rfl

theorem pushAll_staging (b : Box) (fs : List Frame) : (pushAll b fs s).staging = s.staging :=
  foldl_staging (fun _ _ => pushOut_staging ..) _ _

theorem queueGap_staging (b : Box) : (queueGap b s).staging = s.staging := by
  unfold queueGap
  dsimp only
  split
  · next g ss _ hsession =>
    split
    · rfl
    · rw [staging_of_rotunda (count_rotunda ..), pushOut_staging]
      exact setBox_staging (by rw [Mailbox.staging, Mailbox.staging, hsession]; rfl)
  · rfl

theorem queueEvent_staging (b : Box) (e : Event) : (queueEvent b e s).staging = s.staging := by
  unfold queueEvent
  dsimp only
  split
  · exact queueGap_staging ..
  · next ss hsession =>
    split
    · exact queueGap_staging ..
    · split
      · rw [pushAll_staging, setBox_staging, queueGap_staging]
        rw [Mailbox.staging, Mailbox.staging, hsession]
        rfl
      · rw [modHost_staging_at, queueGap_staging]
        rw [Mailbox.staging, Mailbox.staging, hsession]
        rfl

theorem raiseAlso_staging (o : Option Box) (e : Event) : (raiseAlso o e s).staging = s.staging := by
  refine foldl_staging (fun b t => ?_) _ _
  split
  · exact queueEvent_staging ..
  · rfl

@[simp] theorem raise_staging (code : Nat) (port : Option Port) (pl : List Byte) : (raise code port pl s).staging = s.staging :=
  raiseAlso_staging ..

@[simp] theorem logAppend_staging (time type origin : Nat) (uncertain rtc : Bool) (data : List Byte) :
    (logAppend time type origin uncertain rtc data s).staging = s.staging := by
  rw [logAppend, raise_staging]
  exact staging_of_rotunda (withLegal_rotunda ..)

@[simp] theorem keepLog_staging (type origin : Nat) (data : List Byte) : (keepLog type origin data s).staging = s.staging :=
  logAppend_staging ..

theorem reply_staging (b : Box) (tag opcode status handle : Nat) (pl : List Byte) :
    (reply b tag opcode status handle pl s).staging = s.staging := by
  unfold reply
  dsimp only
  rw [pushAll_staging]
  exact setBox_staging rfl

@[simp] theorem respond_staging (r : Req) (status : Nat) (pl : List Byte) : (respond r status pl s).staging = s.staging := by
  rw [respond, traceResult, staging_of_rotunda (trace_rotunda ..), reply_staging]

@[simp] theorem accept_staging (r : Req) : (accept r s).staging = s.staging := by
  rw [accept, modBox_staging, respond_staging]
  exact fun _ => rfl

@[simp] theorem finish_staging (w : Waiting) (status : Nat) (pl : List Byte) : (finish w status pl s).staging = s.staging := by
  unfold finish traceResult
  split
  · rw [staging_of_rotunda (trace_rotunda ..), reply_staging, modBox_staging]
    exact fun _ => rfl
  · rfl

@[simp] theorem taken_staging (b : Box) (f : Frame) : (taken b f s).staging = s.staging := by
  have huse : (useSeq b f (markValid b (popIn b s))).staging = s.staging := by
    unfold useSeq markValid popIn
    split
    · rw [modHost_staging, modHost_staging] <;> exact fun _ => rfl
    · rw [modBox_staging, modHost_staging, modHost_staging]
      · exact fun _ => rfl
      · exact fun _ => rfl
      · exact mapSession_staging (fun _ => rfl)
  have hexecuted : (noteExecuted b f (useSeq b f (markValid b (popIn b s)))).staging = s.staging := by
    unfold noteExecuted
    split
    · exact huse
    · rw [modBox_staging, huse]
      exact mapSession_staging (fun _ => rfl)
  unfold taken
  dsimp only
  split
  · rw [staging_of_rotunda (withPower_rotunda ..), modHost_staging, hexecuted]
    exact fun _ => rfl
  · rw [modHost_staging, hexecuted]
    exact fun _ => rfl

@[simp] theorem touchStage_unlinked (b : Box) : (touchStage b s).unlinked = s.unlinked := modBox_unlinked ..

theorem touchStage_stage (b c : Box) : ((touchStage b s).box c).stage = (s.box c).stage := by
  unfold touchStage
  by_cases h : b = c
  · subst h
    rw [box_modBox]
  · exact congrArg Mailbox.stage (box_setBox_ne s _ h)

end

/-! ## The checks of a commit read nothing of the mailboxes -/

section
variable {s t : State} (h : s.unlinked = t.unlinked)
include h

theorem committing_of_unlinked (b : Box) : s.committing b = t.committing b := by
  rw [State.committing, State.committing, unlinked_commits h]

theorem sealRefusal_of_unlinked (c : CfgRecord) : sealRefusal s c = sealRefusal t c := by
  rw [sealRefusal, sealRefusal, unlinked_legal h]

theorem sealedNow_of_unlinked (recs : List CfgRecord) : sealedNow s recs = sealedNow t recs := by
  have hrefusal : sealRefusal s = sealRefusal t := funext (sealRefusal_of_unlinked h)
  rw [sealedNow, sealedNow, hrefusal]

theorem rank_of_unlinked (fld index : Nat) : s.rank fld index = t.rank fld index := by
  rw [State.rank, State.rank, unlinked_ranks h]

theorem rankDenied_of_unlinked (role : Nat) (recs : List CfgRecord) : rankDenied s role recs = rankDenied t role recs := by
  simp only [rankDenied, rank_of_unlinked h]

theorem stateRefused_of_unlinked (recs : List CfgRecord) : stateRefused s recs = stateRefused t recs := by
  simp only [stateRefused, unlinked_committed h, unlinked_lane h]

theorem conflict_of_unlinked (recs : List CfgRecord) (cand : List Setting) : conflict s recs cand = conflict t recs cand := by
  have e := congrArg (fun u : State => conflict u recs cand) h
  exact e

end

end Sys2Proof.Machine
end

section
/-! Configuration transactions and single allocator writes (R93 to R102, R230, R233). -/

namespace Sys2Proof.Machine

/-! ## The rows -/

section
variable {b : Box} {f : Frame} {r : Req} {s : State}

theorem Asked.exec_cfgBegin (h : Asked b 0x0301 f r s) : exec (.cfgBegin b) s = .next (cfgBegin r (taken b f s)) := h.request cfgBegin
theorem Asked.exec_cfgWrite (h : Asked b 0x0302 f r s) : exec (.cfgWrite b) s = .next (cfgWrite r (taken b f s)) := h.request cfgWrite
theorem Asked.exec_cfgCommit (h : Asked b 0x0303 f r s) : exec (.cfgCommit b) s = .next (cfgCommit r (taken b f s)) := h.request cfgCommit
theorem Asked.exec_cfgAbort (h : Asked b 0x0304 f r s) : exec (.cfgAbort b) s = .next (cfgAbort r (taken b f s)) := h.request cfgAbort
theorem Asked.exec_cfgRead (h : Asked b 0x0305 f r s) : exec (.cfgRead b) s = .next (cfgRead r (taken b f s)) := h.request cfgRead
theorem Asked.exec_cfgStatus (h : Asked b 0x0306 f r s) : exec (.cfgStatus b) s = .next (cfgStatus r (taken b f s)) := h.request cfgStatus
theorem Asked.exec_allocSet (h : Asked b 0x0310 f r s) : exec (.allocSet b) s = .next (allocSet r (taken b f s)) := h.request allocSet
theorem Asked.exec_allocRead (h : Asked b 0x0430 f r s) : exec (.allocRead b) s = .next (allocRead r (taken b f s)) := h.request allocRead

end

theorem taken_stage (b c : Box) (f : Frame) (s : State) : ((taken b f s).box c).stage = (s.box c).stage :=
  stage_of_staging (taken_staging s b f) c

/-! ## Stages -/

section
variable {r : Req} {s : State}

theorem cfgBegin_of_free (hempty : r.payload = []) (hhandle : r.handle = 0) (hnone : (s.box r.box).stage = none)
    (hfree : s.committing r.box = false) :
    cfgBegin r s = finish r.wait stOk [] (setStage r.box (some []) (accept r (touchStage r.box s))) := by
  have hstage : ((touchStage r.box s).box r.box).stage = none := (touchStage_stage ..).trans hnone
  have hcommit : (touchStage r.box s).committing r.box = false := (committing_of_unlinked (touchStage_unlinked ..) _).trans hfree
  unfold cfgBegin
  rw [withLength_of_empty hempty, noHandle_of_zero hhandle, if_neg (by simp [hstage]), if_neg (by simp [hcommit])]

theorem cfgBegin_of_open (hempty : r.payload = []) (hhandle : r.handle = 0) (hopen : (s.box r.box).stage.isSome = true) :
    cfgBegin r s = respond r stCfgStageOpen [] (touchStage r.box s) := by
  unfold cfgBegin
  rw [withLength_of_empty hempty, noHandle_of_zero hhandle, if_pos (by rw [touchStage_stage]; exact hopen)]
  rfl

theorem cfgWrite_of_valid {recs stage : List CfgRecord} (hlen : 4 ≤ r.payload.length) (hhandle : r.handle = 0)
    (hparse : parseRecords (field r.payload 0 1) (r.payload.drop 4) = some recs) (hsome : 1 ≤ recs.length) (hfew : recs.length ≤ 64)
    (hstage : (s.box r.box).stage = some stage) (hfields : recs.filterMap (recordRefusal r.role) = [])
    (hsealed : ∀ c ∈ recs, sealRefusal s c = none) (hroom : (recs.foldl stageRecord stage).length ≤ 256)
    (hbytes : stageBytes (recs.foldl stageRecord stage) ≤ 4096) :
    cfgWrite r s = finish r.wait stOk [] (setStage r.box (some (recs.foldl stageRecord stage)) (accept r (touchStage r.box s))) := by
  have hunsealed : recs.filterMap (sealRefusal (touchStage r.box s)) = [] := List.filterMap_eq_nil_iff.mpr fun c hc =>
    (sealRefusal_of_unlinked (touchStage_unlinked ..) c).trans (hsealed c hc)
  unfold cfgWrite
  rw [withLength, if_pos (by simpa using hlen), hparse]
  dsimp only
  rw [noHandle_of_zero hhandle, check_of_true (within_of_le hsome hfew), writeStage, hfields, touchStage_stage, hstage, hunsealed]
  exact if_pos ⟨hroom, hbytes⟩

theorem cfgAbort_of_open {stage : List CfgRecord} (hempty : r.payload = []) (hhandle : r.handle = 0)
    (hopen : (s.box r.box).stage = some stage) :
    cfgAbort r s = finish r.wait stOk [] (setStage r.box none (accept r (touchStage r.box s))) := by
  unfold cfgAbort
  rw [withLength_of_empty hempty, noHandle_of_zero hhandle, if_neg (by rw [touchStage_stage, hopen]; simp)]

theorem cfgRead_of_committed (hlen : r.payload.length = 4) (hhandle : r.handle = 0) (hsource : field r.payload 0 1 = 0)
    (hknown : fieldKnown (field r.payload 2 2) (field r.payload 1 1) = true) :
    cfgRead r s = respond r stOk (le 1 (fieldSize (field r.payload 2 2)) ++ zeros 3 ++ le (fieldSize (field r.payload 2 2))
      (getRaw s.rotunda.committed (field r.payload 2 2) (field r.payload 1 1))) (touchStage r.box s) := by
  have hcommitted : (touchStage r.box s).rotunda.committed = s.rotunda.committed := unlinked_committed (touchStage_unlinked ..)
  unfold cfgRead
  dsimp only
  rw [withLength_of_length hlen, noHandle_of_zero hhandle, hsource, check_of_true (by decide), check_of_true hknown, hcommitted]
  split <;> rfl

theorem cfgStatus_of_none (hempty : r.payload = []) (hhandle : r.handle = 0) (hnone : (s.box r.box).stage = none)
    (hfree : s.committing r.box = false) :
    cfgStatus r s = respond r stOk (zeros 6 ++ le 4 (s.box r.box).lastPeriod ++ le 6 (s.box r.box).lastCommitTime)
      (touchStage r.box s) := by
  have hbox : (touchStage r.box s).box r.box = { s.box r.box with stageTouched := s.now } := box_modBox ..
  have hcommit : (touchStage r.box s).committing r.box = false := (committing_of_unlinked (touchStage_unlinked ..) _).trans hfree
  unfold cfgStatus
  rw [withLength_of_empty hempty, noHandle_of_zero hhandle, hcommit, hbox]
  dsimp only
  rw [hnone]
  rfl

end

section
variable (b : Box) (st : Option (List CfgRecord)) (s : State)

theorem setStage_stage : ((setStage b st s).box b).stage = st := by
  unfold setStage
  split
  · rw [box_modBox]
  · exact congrArg Mailbox.stage (box_setBox ..)

theorem setStage_unlinked : (setStage b st s).unlinked = s.unlinked := by
  unfold setStage
  split
  · exact modBox_unlinked ..
  · exact modHost_unlinked ..

end

/-! ## A commit -/

section
variable (s : State)

/-- The committed settings and the allocator's input block. -/
def State.settled (s : State) : List Setting × InputBlock := (s.rotunda.committed, s.rotunda.published)

theorem settled_of_unlinked {s t : State} (h : s.unlinked = t.unlinked) : s.settled = t.settled := by
  rw [State.settled, State.settled, unlinked_committed h, unlinked_published h]

theorem keepLog_settled (type origin : Nat) (data : List Byte) : (keepLog type origin data s).settled = s.settled := by
  rw [keepLog, logAppend, settled_of_unlinked (raise_unlinked ..), State.settled, withLegal_rotunda]
  rfl

theorem logSetting_settled (b : Box) (old : List Setting) (c : CfgRecord) : (logSetting b old s c).settled = s.settled := by
  unfold logSetting
  dsimp only
  split
  · rfl
  · split
    · exact keepLog_settled ..
    · split
      · exact keepLog_settled ..
      · rfl

/-- A commit's records come into force and are published together, as one publication. -/
theorem commitRecords_settled (r : Req) (recs : List CfgRecord) (ranks : List RankEntry) (n : Nat) :
    (commitRecords r recs ranks n s).rotunda.committed = candidate s.rotunda.committed recs ∧
    (commitRecords r recs ranks n s).rotunda.published.settings = candidate s.rotunda.committed recs ∧
    (commitRecords r recs ranks n s).rotunda.published.seq = w32 (s.rotunda.published.seq + 1) := by
  have hlogs : (recs.foldl (logSetting r.box s.rotunda.committed) s).settled = s.settled :=
    List.foldlRecOn (motive := fun t : State => t.settled = s.settled) recs _ rfl
      (fun t ht c _ => (logSetting_settled t ..).trans ht)
  have hpublished : (recs.foldl (logSetting r.box s.rotunda.committed) s).rotunda.published = s.rotunda.published :=
    congrArg Prod.snd hlogs
  unfold commitRecords publish
  dsimp only
  rw [count_rotunda, ← hpublished]
  exact ⟨rfl, rfl, rfl⟩

end

section
variable {r : Req} {recs : List CfgRecord} {ok : State → State} {s : State}

theorem transact_of_passed (hsealed : sealedNow s recs = none) (hrank : rankDenied s r.role recs = none)
    (hconflict : conflict s recs (candidate s.rotunda.committed recs) = none) (hstate : stateRefused s recs = none)
    (hpower : s.power.holdUp = false) : transact r recs ok s = ok s := by
  unfold transact
  dsimp only
  rw [hsealed, hrank, hconflict, hstate]
  exact if_neg (by rw [hpower]; decide)

theorem transact_of_conflict {x : Nat × Nat × Nat} (hsealed : sealedNow s recs = none) (hrank : rankDenied s r.role recs = none)
    (hconflict : conflict s recs (candidate s.rotunda.committed recs) = some x) :
    transact r recs ok s = finish r.wait stCfgConflict (commitPayload 0 0 0 x.1 x.2.1 x.2.2) s := by
  unfold transact
  dsimp only
  rw [hsealed, hrank, hconflict]

theorem transact_of_sealed {x : Nat × Nat × Nat} (hsealed : sealedNow s recs = some x) :
    transact r recs ok s = finish r.wait x.1 (commitPayload 0 0 0 0 x.2.1 x.2.2) s := by
  unfold transact
  dsimp only
  rw [hsealed]

theorem cfgCommit_of_stage (hempty : r.payload = []) (hhandle : r.handle = 0) (hstage : (s.box r.box).stage = some recs) :
    cfgCommit r s = transact r recs (fun s => setStage r.box none
      (commitRecords r recs (recordRanks r.role s.rotunda.ranks recs) recs.length s)) (accept r (touchStage r.box s)) := by
  unfold cfgCommit
  rw [withLength_of_empty hempty, noHandle_of_zero hhandle, touchStage_stage, hstage]

end

/-- The request taken and accepted, and the stage's time restarted, change nothing that a commit reads. -/
theorem accepted_unlinked (r : Req) (b c : Box) (f : Frame) (s : State) :
    (accept r (touchStage c (taken b f s))).unlinked = s.unlinked := by
  rw [accept_unlinked, touchStage_unlinked, taken_unlinked]

/-! ## Single allocator writes -/

/-- No field of the allocator is of the sealed legal partition (R93). -/
theorem fieldSealed_of_alloc {fld : Nat} (h : fieldAlloc fld = true) : fieldSealed fld = false := by
  have hrange : 0x0101 ≤ fld ∧ fld ≤ 0x010A := of_decide_eq_true h
  refine Bool.eq_false_iff.mpr fun hsealed => ?_
  have hmem : fld ∈ [0x0302, 0x0303, 0x0304, 0x0306, 0x0307, 0x0308] := List.contains_iff_mem.mp hsealed
  simp only [List.mem_cons, List.not_mem_nil, or_false] at hmem
  omega

section
variable {r : Req} {s : State} (hlen : r.payload.length = 8) (hhandle : r.handle = 0) (halloc : fieldAlloc (field r.payload 0 2) = true)
  (hknown : fieldKnown (field r.payload 0 2) (field r.payload 2 1) = true)
include hlen hhandle halloc hknown

theorem allocSet_of_value {v : Nat} (hwriter : fieldWritable r.role (field r.payload 0 2) = true) (hflags : field r.payload 3 1 = 0)
    (hvalue : allocValue (field r.payload 0 2) (field r.payload 4 4) = some v) :
    allocSet r s = allocWrite r (field r.payload 0 2) (field r.payload 2 1) v false s := by
  unfold allocSet
  rw [withLength_of_length hlen, noHandle_of_zero hhandle, check_of_true (by rw [halloc, hknown]; rfl), check_of_true hwriter, hflags,
    if_neg (by decide), hvalue]

theorem allocSet_of_foreign (hwriter : fieldWritable r.role (field r.payload 0 2) = false) :
    allocSet r s = refuse r stRoleDenied s := by
  unfold allocSet
  rw [withLength_of_length hlen, noHandle_of_zero hhandle, check_of_true (by rw [halloc, hknown]; rfl), check_of_false hwriter]

end

theorem sealedNow_of_alloc {c : CfgRecord} (s : State) (h : fieldAlloc c.field = true) : sealedNow s [c] = none := by
  simp [sealedNow, sortRecords, sortBy, insertBy, sealRefusal, fieldSealed_of_alloc h]

theorem rankDenied_of_rank {c : CfgRecord} {role : Nat} (s : State) (h : s.rank c.field c.index ≤ role) : rankDenied s role [c] = none := by
  simp [rankDenied, sortRecords, sortBy, insertBy, Nat.not_lt.mpr h]

/-! ## The times of stages and commits -/

theorem exec_stageTimeout_of_due {p : HostPort} {s : State} (hopen : (s.box (hostBox p)).stage.isSome = true)
    (hdue : (s.box (hostBox p)).stageTouched + 300000 ≤ s.now) : exec (.stageTimeout p) s = .next (setStage (hostBox p) none s) :=
  if_pos (by rw [hopen, due_of_le hdue]; rfl)

theorem exec_commitApplyTimeout_of_one {p : HostPort} {s : State} {c : Commit} (hcommits : s.rotunda.commits = [c])
    (hbox : c.box = hostBox p) (hheard : c.silent = false) (hdue : c.since + 1000 ≤ s.now) :
    exec (.commitApplyTimeout p) s = .next (finish c.wait stControlSilent (commitPayload 0xFFFFFFFF 0 c.records 0 0 0)
      (s.withRotunda { s.rotunda with commits := [{ c with silent := true }] })) := by
  have hlate : (c.box == hostBox p && !c.silent && s.due (c.since + 1000)) = true := by
    rw [hbox, hheard, due_of_le hdue]
    simp
  change execCommitApplyTimeout p s = _
  unfold execCommitApplyTimeout
  dsimp only
  have hfilter : [c].filter (fun c => c.box == hostBox p && !c.silent && s.due (c.since + 1000)) = [c] := List.filter_cons_of_pos hlate
  rw [hcommits, hfilter, List.foldl_cons, List.foldl_nil, List.map_cons, List.map_nil, if_pos hlate]

theorem allocBody_of_shown {s : State} {old : List Byte} (h : s.turret.siteShown = some old) :
    s.allocBody = old.take 16 ++ allPhases.flatMap (s.shownPhase old) ++ old.drop 64 := by
  unfold State.allocBody
  rw [h]

/-- Settles O41. That a sealed field staged before the seal is refused at its commit (log 161), which commands restart a stage's 300 s
(log 42), and the order of ALLOC_SET's refusals (log 203) are the model's choices. -/
theorem configurationTransactions : Obligations.ConfigurationTransactions := by
  unfold Obligations.ConfigurationTransactions
  refine ⟨?begin_, ?beginOpen, ?write, ?commit, ?conflict, ?sealed, ?abort, ?read, ?status, ?stageEnd,
    fun p s c hcommits hbox hheard hdue => exec_commitApplyTimeout_of_one hcommits hbox hheard hdue, ?alloc, ?foreign, ?allocRead,
    fun s old h => allocBody_of_shown h⟩
  case begin_ =>
    intro b f r s hasked hempty hhandle hnone hfree
    obtain rfl := hasked.box
    rw [hasked.exec_cfgBegin, cfgBegin_of_free hempty hhandle ((taken_stage ..).trans hnone)
      ((committing_of_unlinked (taken_unlinked ..) _).trans hfree)]
  case beginOpen =>
    intro b f r s hasked hempty hhandle hopen
    obtain rfl := hasked.box
    rw [hasked.exec_cfgBegin, cfgBegin_of_open hempty hhandle (by rw [taken_stage]; exact hopen)]
  case write =>
    intro b f r s recs stage hasked hlen hhandle hparse hsome hfew hstage hfields hsealed hroom hbytes
    obtain rfl := hasked.box
    rw [hasked.exec_cfgWrite, cfgWrite_of_valid hlen hhandle hparse hsome hfew ((taken_stage ..).trans hstage) hfields
      (fun c hc => (sealRefusal_of_unlinked (taken_unlinked ..) c).trans (hsealed c hc)) hroom hbytes]
  case commit =>
    intro b f r s recs hasked hempty hhandle hstage hsealed hrank hconflict hstate hpower
    obtain rfl := hasked.box
    have hread := accepted_unlinked r r.box r.box f s
    have hsettled := settled_of_unlinked hread
    obtain ⟨hcommitted, hpublished⟩ := Prod.mk.inj hsettled
    refine ⟨_, hasked.exec_cfgCommit, ?_⟩
    rw [cfgCommit_of_stage hempty hhandle ((taken_stage ..).trans hstage),
      transact_of_passed ((sealedNow_of_unlinked hread recs).trans hsealed) ((rankDenied_of_unlinked hread r.role recs).trans hrank)
        (by rw [hcommitted, conflict_of_unlinked hread]; exact hconflict) ((stateRefused_of_unlinked hread recs).trans hstate)
        ((unlinked_holdUp hread).trans hpower),
      unlinked_committed (setStage_unlinked ..), unlinked_published (setStage_unlinked ..), setStage_stage]
    obtain ⟨hnew, hsettings, hseq⟩ := commitRecords_settled (accept r (touchStage r.box (taken r.box f s))) r recs
      (recordRanks r.role (accept r (touchStage r.box (taken r.box f s))).rotunda.ranks recs) recs.length
    rw [hnew, hsettings, hseq, hcommitted, hpublished]
    exact ⟨rfl, rfl, rfl, rfl⟩
  case conflict =>
    intro b f r s recs x hasked hempty hhandle hstage hsealed hrank hconflict
    obtain rfl := hasked.box
    have hread := accepted_unlinked r r.box r.box f s
    refine ⟨_, hasked.exec_cfgCommit, ?_⟩
    rw [cfgCommit_of_stage hempty hhandle ((taken_stage ..).trans hstage),
      transact_of_conflict ((sealedNow_of_unlinked hread recs).trans hsealed) ((rankDenied_of_unlinked hread r.role recs).trans hrank)
        (by rw [unlinked_committed hread, conflict_of_unlinked hread]; exact hconflict),
      finish_committed, finish_published, unlinked_committed hread, unlinked_published hread,
      stage_of_staging ((finish_staging ..).trans (accept_staging ..)), touchStage_stage, taken_stage]
    exact ⟨rfl, rfl, hstage⟩
  case sealed =>
    intro b f r s recs x hasked hempty hhandle hstage hsealed
    obtain rfl := hasked.box
    rw [hasked.exec_cfgCommit, cfgCommit_of_stage hempty hhandle ((taken_stage ..).trans hstage),
      transact_of_sealed ((sealedNow_of_unlinked (accepted_unlinked r r.box r.box f s) recs).trans hsealed)]
  case abort =>
    intro b f r s stage hasked hempty hhandle hopen
    obtain rfl := hasked.box
    rw [hasked.exec_cfgAbort, cfgAbort_of_open hempty hhandle ((taken_stage ..).trans hopen)]
  case read =>
    intro b f r s hasked hlen hhandle hsource hknown
    obtain rfl := hasked.box
    rw [hasked.exec_cfgRead, cfgRead_of_committed hlen hhandle hsource hknown, taken_committed]
  case status =>
    intro b f r s hasked hempty hhandle hnone hfree
    obtain rfl := hasked.box
    have hstaging := congrFun (taken_staging s r.box f) r.box
    simp only [State.staging, Mailbox.staging, Staging.mk.injEq] at hstaging
    obtain ⟨hstage, -, hperiod, htime, -⟩ := hstaging
    rw [hasked.exec_cfgStatus, cfgStatus_of_none hempty hhandle (hstage.trans hnone)
      ((committing_of_unlinked (taken_unlinked ..) _).trans hfree), hperiod, htime]
  case stageEnd =>
    intro p s hopen hdue
    exact ⟨_, exec_stageTimeout_of_due hopen hdue, setStage_stage .., unlinked_committed (setStage_unlinked ..)⟩
  case alloc =>
    intro b f r s v hasked hlen hhandle halloc hknown hwriter hflags hvalue hrank hconflict hstate hpower
    have hread : (accept r (taken b f s)).unlinked = s.unlinked := (accept_unlinked ..).trans (taken_unlinked ..)
    refine ⟨_, hasked.exec_allocSet, ?_⟩
    rw [allocSet_of_value hlen hhandle halloc hknown hwriter hflags hvalue, allocWrite, if_neg (by decide)]
    dsimp only
    rw [transact_of_passed (sealedNow_of_alloc _ halloc)
      (rankDenied_of_rank _ (Nat.le_trans (Nat.le_of_eq (rank_of_unlinked hread _ _)) hrank))
      (by rw [unlinked_committed hread, conflict_of_unlinked hread]; exact hconflict)
      ((stateRefused_of_unlinked hread _).trans hstate) ((unlinked_holdUp hread).trans hpower)]
    obtain ⟨hnew, hsettings, -⟩ := commitRecords_settled (accept r (taken b f s)) r
      [⟨field r.payload 0 2, field r.payload 2 1, fieldSize (field r.payload 0 2), v⟩]
      (recordRanks r.role (accept r (taken b f s)).rotunda.ranks
        [⟨field r.payload 0 2, field r.payload 2 1, fieldSize (field r.payload 0 2), v⟩]) 1
    rw [hsettings, hnew, unlinked_committed hread]
    exact ⟨rfl, rfl⟩
  case foreign =>
    intro b f r s hasked hlen hhandle halloc hknown hwriter
    rw [hasked.exec_allocSet, allocSet_of_foreign hlen hhandle halloc hknown hwriter]
    rfl
  case allocRead =>
    rintro b f r s hasked ⟨hempty, hhandle, hkept⟩
    rw [hasked.exec_allocRead, allocRead, withLength_of_empty hempty, noHandle_of_zero hhandle, intact_of_kept hkept]

end Sys2Proof.Machine
end

section
/-! The mirror, the fuse guard and shedding (R31 to R33, R220 to R228, R242). -/

namespace Sys2Proof.Machine

/-! ## The mirror -/

section
variable (s : State)

theorem takeValue_mirror (f : Phase) (x : Bool) (strobe us : Nat) (v : MirrorValue) :
    ((takeValue f x strobe us s v).turret.mirror[v.channel]).rms = w32 v.rms ∧
    ((takeValue f x strobe us s v).turret.mirror[v.channel]).power = v.power ∧
    ((takeValue f x strobe us s v).turret.mirror[v.channel]).stale = false ∧
    ((takeValue f x strobe us s v).turret.mirror[v.channel]).updatedAt = s.now ∧
    ((takeValue f x strobe us s v).turret.mirror[v.channel]).seq = w32 ((s.turret.mirror[v.channel]).seq + 1) := by
  unfold takeValue
  dsimp only
  simp only [State.withTurret, Fin.getElem_fin, Vector.getElem_set_self]
  split <;> exact ⟨rfl, rfl, rfl, rfl, rfl⟩

theorem takeValue_mirror_ne (f : Phase) (x : Bool) (strobe us : Nat) (v : MirrorValue) {c : Channel88} (h : c ≠ v.channel) :
    (takeValue f x strobe us s v).turret.mirror[c] = s.turret.mirror[c] := by
  have hne : v.channel.val ≠ c.val := fun e => h (Fin.ext e.symm)
  simp only [takeValue, State.withTurret, Fin.getElem_fin, Vector.getElem_set_ne _ _ hne]

theorem unposted_mirror {s t : State} (h : s.unposted = t.unposted) : s.turret.mirror = t.turret.mirror := by
  have e := congrArg (fun u : State => u.turret.mirror) h
  exact e

theorem unposted_turretPorts {s t : State} (h : s.unposted = t.unposted) : s.turret.ports = t.turret.ports := by
  have e := congrArg (fun u : State => u.turret.ports) h
  exact e

end

/-- A mirror entry marked stale. -/
def State.staled (s : State) (c : Channel88) : State :=
  s.withTurret { s.turret with mirror := s.turret.mirror.set c { s.turret.mirror[c] with stale := true } }

theorem staled_mirror (s : State) (c : Channel88) :
    (s.staled c).turret.mirror[c] = { s.turret.mirror[c] with stale := true } := by
  simp only [State.staled, State.withTurret, Fin.getElem_fin, Vector.getElem_set_self]

theorem noteOver_turret (s : State) : (noteOver s).turret = s.turret := by
  unfold noteOver
  exact withSteeple_turret ..

theorem noteOver_steeple (s : State) : (noteOver s).steeple.permits = s.steeple.permits ∧ (noteOver s).steeple.record = s.steeple.record := by
  unfold noteOver
  generalize (Vector.ofFn _ : Vector (Vector (Option Nat) 3) 24) = since
  exact ⟨rfl, rfl⟩

/-- An entry that goes stale keeps its values, and no permit and no record is touched. -/
theorem exec_mirrorEntryStale_of_due {c : Channel88} {s : State} (hup : s.turretUp = true) (henabled : s.channelEnabled c = true)
    (hfresh : (s.turret.mirror[c]).stale = false) (hdue : (s.turret.mirror[c]).updatedAt + s.staleLimit ≤ s.now) :
    ∃ t, exec (.mirrorEntryStale c) s = .next t ∧ (t.turret.mirror[c]).stale = true ∧
      (t.turret.mirror[c]).rms = (s.turret.mirror[c]).rms ∧ t.steeple.permits = s.steeple.permits ∧
      t.steeple.record = s.steeple.record := by
  have hexec : exec (.mirrorEntryStale c) s = .next (updateBlinds (post none (.mirrorStale c.val) (noteOver (count 49 1 (s.staled c))))) :=
    if_pos (by rw [hup, henabled, hfresh, due_of_le hdue]; rfl)
  have hframe : (updateBlinds (post none (.mirrorStale c.val) (noteOver (count 49 1 (s.staled c))))).unposted =
      (noteOver (count 49 1 (s.staled c))).unposted := (updateBlinds_unposted _).trans (post_unposted ..)
  have hmirror : (noteOver (count 49 1 (s.staled c))).turret.mirror[c] = { s.turret.mirror[c] with stale := true } := by
    rw [noteOver_turret, count_turret, staled_mirror]
  obtain ⟨hpermits, hrecord⟩ := noteOver_steeple (count 49 1 (s.staled c))
  refine ⟨_, hexec, ?_, ?_, ?_, ?_⟩
  · rw [unposted_mirror hframe, hmirror]
  · rw [unposted_mirror hframe, hmirror]
  · rw [unposted_steeple hframe, hpermits, count_steeple]
    rfl
  · rw [unposted_steeple hframe, hrecord, count_steeple]
    rfl

/-! ## The guard of a phase -/

section
variable (s : State) (f : Phase) (g : GuardPhase → GuardPhase)

@[simp] theorem guard_modGuard : (s.modGuard f g).guard f = g (s.guard f) := by
  simp [State.guard, State.modGuard, State.withTurret]

theorem guard_modGuard_ne {f h : Phase} (hne : f ≠ h) : (s.modGuard f g).guard h = s.guard h := by
  have hval : f.val ≠ h.val := fun e => hne (Fin.ext e)
  simp [State.guard, State.modGuard, State.withTurret, hval]

@[simp] theorem modGuard_unposted_lane (p : Port) : (s.modGuard f g).lane p = s.lane p := rfl

end

/-- A guard whose timers were restarted. -/
def GuardPhase.Restarted (g : GuardPhase) : Prop := g.lsTimer = 0 ∧ g.zone2Timer = 0

theorem restart_restarted (g : GuardPhase) : g.restart.Restarted := ⟨rfl, rfl⟩

theorem foldl_restart_keeps {f : Phase} (fs : List Phase) {s : State} (h : (s.guard f).Restarted) :
    ((fs.foldl (fun s g => s.modGuard g GuardPhase.restart) s).guard f).Restarted :=
  List.foldlRecOn (motive := fun t : State => (t.guard f).Restarted) fs _ h (fun t ht g _ => by
    by_cases heq : g = f
    · rw [heq, guard_modGuard]
      exact restart_restarted _
    · rw [guard_modGuard_ne t _ heq]
      exact ht)

theorem foldl_restart_guard {f : Phase} (fs : List Phase) (s : State) (h : f ∈ fs) :
    ((fs.foldl (fun s g => s.modGuard g GuardPhase.restart) s).guard f).Restarted := by
  induction fs generalizing s with
  | nil => exact absurd h List.not_mem_nil
  | cons g fs ih =>
    rcases List.mem_cons.mp h with heq | hmem
    · rw [List.foldl_cons, heq]
      exact foldl_restart_keeps fs (by rw [guard_modGuard]; exact restart_restarted _)
    · exact ih _ hmem

/-- Restarting timers changes nothing but the guard. -/
theorem foldl_restart_unposted (fs : List Phase) (s : State) :
    (fs.foldl (fun s g => s.modGuard g GuardPhase.restart) s).unposted = s.unposted :=
  List.foldlRecOn (motive := fun t : State => t.unposted = s.unposted) fs _ rfl (fun _ ht _ _ => ht)

/-! ## The decision of hard shedding -/

section
variable {s : State} (f : Phase)

theorem shedHard_of_none (h : (s.guard f).hard = none) : shedHard f s = s := by
  unfold shedHard
  rw [h]

theorem shedHard_of_ports {site : Nat} {p : Port} {ps : List Port} (h : (s.guard f).hard = some (site, p :: ps)) :
    shedHard f s = shedPorts (p :: ps) f 1 site (s.modGuard f (fun g => { g with hard := none })) := by
  unfold shedHard
  rw [h]
  rfl

theorem shedHard_of_nil {site : Nat} (h : (s.guard f).hard = some (site, [])) :
    shedHard f s = shedNothing f 3 (s.modGuard f (fun g => { g with hard := none })) := by
  unfold shedHard
  rw [h]
  rfl

theorem exec_hardShedding_of_up (h : s.turretUp = true) : exec (.hardShedding f) s = .next (shedHard f s) := if_pos h

theorem shedDue_of_none (h : ∀ g : Phase, (s.guard g).hard = none) : shedDue s = s :=
  List.foldlRecOn (motive := fun t : State => t = s) allPhases _ rfl (fun t ht g _ => by rw [ht, shedHard_of_none g (h g)])

theorem exec_softShedding_of_none (hup : s.turretUp = true) (h : ∀ g : Phase, (s.guard g).hard = none) :
    exec (.softShedding f) s = .next (softShed f s) := by
  change execSoftShedding f s = _
  rw [execSoftShedding, if_pos hup, shedDue_of_none h]

theorem softShed_of_port {cause : Nat} {p : Port} {ps : List Port}
    (hcause : (if 1000000 ≤ (s.guard f).zone2Timer then 3 else if 5000000 ≤ (s.guard f).lsTimer then 2 else 0) = cause) (hdue : cause ≠ 0)
    (horder : s.sheddingOrder f = p :: ps) : softShed f s = shedPort p f cause (s.guard f).siteMa s := by
  unfold softShed
  dsimp only
  rw [hcause, if_neg hdue, horder]

theorem softShed_of_nothing (htimer : 5000000 ≤ (s.guard f).lsTimer) (horder : s.sheddingOrder f = []) :
    softShed f s = shedNothing f (s.guard f).zone s := by
  have hdue : ¬ (if 1000000 ≤ (s.guard f).zone2Timer then 3 else if 5000000 ≤ (s.guard f).lsTimer then 2 else 0) = 0 := by
    rw [if_pos htimer]
    split <;> decide
  unfold softShed
  dsimp only
  rw [if_neg hdue, horder]

theorem decideHard_of_run (hrun : 2 ≤ (s.guard f).zone3Run) (hnone : (s.guard f).hard = none) :
    decideHard f s = s.modGuard f (fun g => { g with
      zone3Run := 0
      hard := some (g.siteMa, shedUntil s f (s.allocIn 0x0101 (f.val + 1)) (s.sheddingOrder f) (s.guard f).siteMa) }) := by
  unfold decideHard
  dsimp only
  rw [if_neg (by rw [hnone]; simp; omega)]

end

/-! ## What a stop leaves of a lane -/

/-- What shedding sets of a lane. -/
def Lane.shedView (l : Lane) : Bool × Bool × Nat × Nat := (l.pbd, l.shedActive, l.shedAt, l.allowance)

section
variable (p : Port) (n : Nat) (st : PortState) (s : State)

theorem stamp_shedView (a b : Lane) (c : Nat) : (a.stamp b c).shedView = b.shedView := by
  unfold Lane.stamp
  split <;> rfl

theorem enter_shedView (l : Lane) (time : Nat) : (l.enter st n time).shedView = l.shedView := by
  unfold Lane.enter
  dsimp only
  split <;> rfl

theorem leaving_shedView : ((s.leaving p).lane p).shedView = (s.lane p).shedView := by
  unfold State.leaving
  split
  · rcases creditEnergised_lane s p with h | h <;> rw [h]
    exact stamp_shedView ..
  · rfl

theorem transit_shedView : ((transit p n st s).lane p).shedView = (s.lane p).shedView := by
  rw [transit_lane, stamp_shedView, enter_shedView, leaving_shedView]

theorem modLane_turretPorts (f : Lane → Lane) : (s.modLane p f).turret.ports = s.turret.ports := rfl

theorem leaving_turretPorts : (s.leaving p).turret.ports = s.turret.ports := by
  unfold State.leaving
  split
  · rcases creditEnergised_cases s p with h | h
    · exact congrArg Turret.ports (unhosted_turret h)
    · exact (congrArg Turret.ports (unhosted_turret h)).trans (modLane_turretPorts ..)
  · rfl

theorem transit_turretPorts : (transit p n st s).turret.ports = s.turret.ports := by
  unfold transit
  dsimp only
  rw [unposted_turretPorts (post_unposted ..), trace_turret]
  exact leaving_turretPorts p s

end

/-! ## A port that is stopped -/

section
variable {p : Port} {s : State}

/-- The allowance of a port that is stopped: 6000 mA, in the lane and in its record. -/
def State.minAllowance (s : State) (p : Port) : State :=
  if s.turret.ports[p].allowance = 6000 then s.modLane p (fun l => { l with allowance := 6000 }) else setAllowance p 6000 2 s

theorem minAllowance_lane : ((s.minAllowance p).lane p).allowance = 6000 ∧ ((s.minAllowance p).lane p).state = (s.lane p).state := by
  unfold State.minAllowance
  split
  · rw [lane_modLane, stamp_allowance, stamp_state]
    exact ⟨rfl, rfl⟩
  · unfold setAllowance
    dsimp only
    rw [trace_lane, lane_modLane, stamp_allowance, stamp_state]
    exact ⟨rfl, rfl⟩

theorem minAllowance_lane_ne {q : Port} (h : p ≠ q) : (s.minAllowance p).lane q = s.lane q := by
  unfold State.minAllowance
  split
  · exact lane_modLane_ne _ _ h
  · unfold setAllowance
    dsimp only
    rw [trace_lane, lane_modLane_ne _ _ h]
    rfl

theorem setAllowance_turretPorts (ma reason : Nat) :
    (setAllowance p ma reason s).turret.ports = s.turret.ports.set p { s.turret.ports[p] with allowance := ma, reason := reason } := by
  unfold setAllowance
  dsimp only
  rw [trace_turret]
  rfl

theorem minAllowance_ports : (s.minAllowance p).turret.ports[p].allowance = 6000 := by
  rw [State.minAllowance]
  by_cases h : s.turret.ports[p].allowance = 6000
  · rw [congrArg (fun u : State => u.turret.ports[p].allowance) (if_pos h)]
    exact h
  · rw [congrArg (fun u : State => u.turret.ports[p].allowance) (if_neg h), setAllowance_turretPorts, Fin.getElem_fin,
      Vector.getElem_set_self]

theorem minAllowance_rest : (s.minAllowance p).steeple = s.steeple ∧ (s.minAllowance p).now = s.now := by
  unfold State.minAllowance
  split
  · exact ⟨rfl, rfl⟩
  · unfold setAllowance
    dsimp only
    rw [trace_steeple, trace_now]
    exact ⟨rfl, rfl⟩

/-- The stop of a port in ENERGISED: its lane goes to SHED with the pre-break switch off. -/
def State.stopEnergised (s : State) (p : Port) : State :=
  transit p 10 .shed (setPbd p false (s.modLane p (fun l => { l with
    shedActive := true, shedAt := s.now, sheds := w32 (l.sheds + 1) })))

theorem stopPreBreak_of_energised (h : (s.lane p).state = .energised) : stopPreBreak p s = s.stopEnergised p := by
  unfold stopPreBreak
  dsimp only
  rw [h]
  rfl

theorem stopEnergised_lane : ((s.stopEnergised p).lane p).state = .shed ∧ ((s.stopEnergised p).lane p).transition = 10 ∧
    ((s.stopEnergised p).lane p).shedView = (false, true, s.now, (s.lane p).allowance) := by
  refine ⟨?_, ?_, ?_⟩
  · rw [State.stopEnergised, transit_lane, stamp_state, enter_state]
  · rw [State.stopEnergised, transit_lane, stamp_transition, enter_transition]
  · rw [State.stopEnergised, transit_shedView, setPbd, lane_modLane, stamp_shedView, lane_modLane]
    simp [Lane.shedView]

theorem stopEnergised_rest : (s.stopEnergised p).steeple = s.steeple ∧ (s.stopEnergised p).turret.ports = s.turret.ports := by
  rw [State.stopEnergised, transit_steeple, transit_turretPorts]
  exact ⟨rfl, rfl⟩

theorem stopEnergised_lane_ne {q : Port} (h : p ≠ q) : (s.stopEnergised p).lane q = s.lane q := by
  rw [State.stopEnergised, transit_lane_ne _ _ _ _ h, setPbd, lane_modLane_ne _ _ h, lane_modLane_ne _ _ h]

end

section
variable {p : Port} {f : Phase} {cause site : Nat} {s : State}

theorem shedPort_of_not_stoppable (h : s.stoppable p = false) : shedPort p f cause site s = s := by
  unfold shedPort
  rw [h]
  rfl

/-- The event and the trace message of a stop. -/
def State.announced (s : State) (p : Port) (f : Phase) (cause site : Nat) : State :=
  post (some p) (.shed cause (f.val + 1) site (s.portRms p f) (w48 (s.civil + 10000)))
    (trace 2 0x03 (le 1 p.val ++ le 1 cause ++ le 1 (f.val + 1) ++ [0] ++ le 4 site) s)

theorem announced_lane (q : Port) : (s.announced p f cause site).lane q = s.lane q := by rw [State.announced, post_lane, trace_lane]

theorem announced_rest : (s.announced p f cause site).steeple = s.steeple ∧ (s.announced p f cause site).now = s.now ∧
    (s.announced p f cause site).turret.ports = s.turret.ports := by
  rw [State.announced, post_steeple, post_now, unposted_turretPorts (post_unposted ..), trace_steeple, trace_now, trace_turret]
  exact ⟨rfl, rfl, rfl⟩

/-- The lanes, the allowances, the guard and Steeple. -/
def State.shedFrame (s : State) : (Port → Lane) × Vector AllocPort 24 × (Phase → GuardPhase) × Steeple :=
  (s.lane, s.turret.ports, s.guard, s.steeple)

/-- A stop of an energised port, up to its counter. -/
theorem shedPort_of_energised (h : (s.lane p).state = .energised) : (shedPort p f cause site s).shedFrame =
    ((s.portPhases p).foldl (fun s g => s.modGuard g GuardPhase.restart)
      (cutMeans p (((s.announced p f cause site).minAllowance p).stopEnergised p))).shedFrame := by
  have hports : s.turret.ports = (s.announced p f cause site).turret.ports := announced_rest.2.2.symm
  have hstate : (((s.announced p f cause site).minAllowance p).lane p).state = .energised := by
    rw [minAllowance_lane.2, announced_lane, h]
  have hstop : s.stoppable p = true := by
    unfold State.stoppable
    rw [h]
  rw [← stopPreBreak_of_energised hstate, State.minAllowance, ← hports]
  unfold shedPort
  dsimp only
  rw [hstop]
  change State.shedFrame (if cause = 1 then _ else _) = _
  split <;> rfl

theorem cutMeans_rest (s : State) (p : Port) :
    (cutMeans p s).lane = s.lane ∧ (cutMeans p s).turret.ports = s.turret.ports ∧ (cutMeans p s).steeple = s.steeple := by
  unfold cutMeans
  dsimp only
  generalize (Vector.ofFn _ : Vector MirrorEntry 88) = mirror
  exact ⟨rfl, rfl, rfl⟩

/-- Restarting timers leaves the lanes, the allowances and Steeple. -/
theorem foldl_restart_rest (fs : List Phase) (s : State) :
    (fs.foldl (fun s g => s.modGuard g GuardPhase.restart) s).lane = s.lane ∧
    (fs.foldl (fun s g => s.modGuard g GuardPhase.restart) s).turret.ports = s.turret.ports ∧
    (fs.foldl (fun s g => s.modGuard g GuardPhase.restart) s).steeple = s.steeple := by
  have h := foldl_restart_unposted fs s
  exact ⟨funext (unposted_lane h), unposted_turretPorts h, unposted_steeple h⟩

/-- What a stop of an energised port does, and what it leaves. -/
theorem shedPort_effect (h : (s.lane p).state = .energised) : let t := shedPort p f cause site s
    (t.lane p).state = .shed ∧ (t.lane p).transition = 10 ∧ (t.lane p).pbd = false ∧ (t.lane p).shedActive = true ∧
    (t.lane p).shedAt = s.now ∧ (t.lane p).allowance = 6000 ∧ (t.turret.ports[p]).allowance = 6000 ∧
    (∀ q, q ≠ p → t.lane q = s.lane q) ∧ t.steeple = s.steeple ∧
    (∀ g ∈ s.portPhases p, (t.guard g).lsTimer = 0 ∧ (t.guard g).zone2Timer = 0) := by
  intro t
  let a := (s.announced p f cause site).minAllowance p
  let u := cutMeans p (a.stopEnergised p)
  obtain ⟨hasteeple, hanow, _⟩ := announced_rest (p := p) (f := f) (cause := cause) (site := site) (s := s)
  obtain ⟨hsteeple, hnow⟩ := minAllowance_rest (p := p) (s := s.announced p f cause site)
  obtain ⟨hallow, _⟩ := minAllowance_lane (p := p) (s := s.announced p f cause site)
  obtain ⟨hstate, htrans, hview⟩ := stopEnergised_lane (p := p) (s := a)
  obtain ⟨hrest, hports⟩ := stopEnergised_rest (p := p) (s := a)
  obtain ⟨hflane, hfports, hfsteeple⟩ := foldl_restart_rest (s.portPhases p) u
  obtain ⟨hclane, hcports, hcsteeple⟩ := cutMeans_rest (a.stopEnergised p) p
  have hframe : t.shedFrame = ((s.portPhases p).foldl (fun s g => s.modGuard g GuardPhase.restart) u).shedFrame := shedPort_of_energised h
  have hlane : t.lane = (a.stopEnergised p).lane := ((congrArg Prod.fst hframe).trans hflane).trans hclane
  have htports : t.turret.ports = a.turret.ports := (((congrArg (fun x => x.2.1) hframe).trans hfports).trans hcports).trans hports
  have hguard : t.guard = ((s.portPhases p).foldl (fun s g => s.modGuard g GuardPhase.restart) u).guard :=
    congrArg (fun x => x.2.2.1) hframe
  have htsteeple : t.steeple = (a.stopEnergised p).steeple := ((congrArg (fun x => x.2.2.2) hframe).trans hfsteeple).trans hcsteeple
  simp only [Lane.shedView, Prod.mk.injEq] at hview
  obtain ⟨hpbd, hactive, hat, hamount⟩ := hview
  rw [hlane]
  refine ⟨hstate, htrans, hpbd, hactive, hat.trans (hnow.trans hanow), hamount.trans hallow, ?_, ?_, ?_, ?_⟩
  · rw [htports]
    exact minAllowance_ports
  · intro q hne
    rw [stopEnergised_lane_ne hne.symm, minAllowance_lane_ne hne.symm, announced_lane]
  · rw [htsteeple, hrest, hsteeple, hasteeple]
  · intro g hg
    rw [hguard]
    exact foldl_restart_guard _ u hg

end

/-- Settles O42. That the guard keeps its decision of hard shedding until the row that carries it out (log 149), and that a SITE_ZONE raised with nothing to shed holds
the present zone twice (log 202), are the model's choices. -/
theorem mirrorAndGuard : Obligations.MirrorAndGuard := by
  unfold Obligations.MirrorAndGuard
  refine ⟨?publish, ?unsync, ?value, fun c s hup henabled hfresh hdue => exec_mirrorEntryStale_of_due hup henabled hfresh hdue, ?zone,
    ?soft3, ?soft2, ?softNone, ?decide_, ?until_, ?untilEnd, ?hard, ?hardNone, ?hardIdle, ?blind,
    fun p f cause site s h => shedPort_effect h, fun p f cause site s h => shedPort_of_not_stoppable h⟩
  case publish =>
    intro f pub s hdsp hturret hfreq
    exact if_pos (by rw [hdsp, hturret, hfreq]; rfl)
  case unsync =>
    intro pub s hdsp hturret hfreq
    exact if_pos (by rw [hdsp, hturret, hfreq]; rfl)
  case value =>
    intro f x strobe us v s
    obtain ⟨hrms, hpower, hstale, hat, hseq⟩ := takeValue_mirror s f x strobe us v
    exact ⟨_, rfl, hrms, hpower, hstale, hat, hseq, fun c hne => takeValue_mirror_ne s f x strobe us v hne⟩
  case zone =>
    intro f s hup hrun
    refine ⟨_, if_pos (by rw [hup, decide_eq_true hrun]; rfl), ?_, ?_, rfl⟩
    · rw [guard_modGuard]
      rfl
    · rw [guard_modGuard]
      rfl
  case soft3 =>
    intro f s p ps hup hnone htimer horder
    rw [exec_softShedding_of_none f hup hnone, softShed_of_port f (if_pos htimer) (by decide) horder]
  case soft2 =>
    intro f s p ps hup hnone hshort htimer horder
    rw [exec_softShedding_of_none f hup hnone,
      softShed_of_port f ((if_neg (Nat.not_le.mpr hshort)).trans (if_pos htimer)) (by decide) horder]
  case softNone =>
    intro f s hup hnone htimer horder
    rw [exec_softShedding_of_none f hup hnone, softShed_of_nothing f htimer horder]
  case decide_ =>
    intro f s hrun hnone
    refine ⟨_, rfl, ?_, ?_⟩
    · rw [decideHard_of_run f hrun hnone, guard_modGuard]
    · rw [decideHard_of_run f hrun hnone, guard_modGuard]
  case until_ =>
    intro s f ls p ps rest h
    exact if_neg (Nat.not_le.mpr h)
  case untilEnd =>
    intro s f ls ps rest h
    cases ps with
    | nil => rfl
    | cons p ps => exact if_pos h
  case hard =>
    intro f s site p ps hup hsome
    rw [exec_hardShedding_of_up f hup, shedHard_of_ports f hsome]
  case hardNone =>
    intro f s site hup hsome
    rw [exec_hardShedding_of_up f hup, shedHard_of_nil f hsome]
  case hardIdle =>
    intro f s hnone
    change execHardShedding f s = _
    rw [execHardShedding, shedHard_of_none f hnone, ite_self]
  case blind =>
    intro f s hup hblind hraised hdue
    exact if_pos (by rw [hup, hblind, hraised, due_of_le hdue]; rfl)

end Sys2Proof.Machine
end

section
/-! The bands, the links and what the powerline's operations leave (R373 to R392). -/

namespace Sys2Proof.Machine

/-! ## The bands -/

section
variable (s : State) (d : Band) (f : BandState → BandState)

@[simp] theorem band_modBand : (s.modBand d f).band d = f (s.band d) := by cases d <;> rfl
@[simp] theorem band_modBand_other : (s.modBand d f).band (otherBand d) = s.band (otherBand d) := by cases d <;> rfl
@[simp] theorem band_modBand_of_other : (s.modBand (otherBand d) f).band d = s.band d := by cases d <;> rfl
@[simp] theorem modBand_nodes : (s.modBand d f).belfry.nodes = s.belfry.nodes := by cases d <;> rfl
@[simp] theorem modBand_routes : (s.modBand d f).belfry.routes = s.belfry.routes := by cases d <;> rfl
@[simp] theorem modBand_joins : (s.modBand d f).belfry.joins = s.belfry.joins := by cases d <;> rfl
@[simp] theorem modBand_pairing : (s.modBand d f).belfry.pairing = s.belfry.pairing := by cases d <;> rfl
@[simp] theorem modBand_framesSent : (s.modBand d f).belfry.framesSent = s.belfry.framesSent := by cases d <;> rfl
@[simp] theorem modBand_acksLate : (s.modBand d f).belfry.acksLate = s.belfry.acksLate := by cases d <;> rfl
@[simp] theorem modBand_headersFailed : (s.modBand d f).belfry.headersFailed = s.belfry.headersFailed := by cases d <;> rfl
@[simp] theorem modBand_symbolsErased : (s.modBand d f).belfry.symbolsErased = s.belfry.symbolsErased := by cases d <;> rfl
@[simp] theorem modBand_counter : (s.modBand d f).belfry.counter = s.belfry.counter := by cases d <;> rfl
@[simp] theorem modBand_reservedEnd : (s.modBand d f).belfry.reservedEnd = s.belfry.reservedEnd := by cases d <;> rfl
@[simp] theorem modBand_up (c : Clock) : (s.modBand d f).up c = s.up c := by cases d <;> rfl

/-- A change of Belfry that leaves the bands. -/
theorem band_withBelfry {b : Belfry} (hlow : b.low = s.belfry.low) (hupper : b.upper = s.belfry.upper) :
    (s.withBelfry b).band d = s.band d := by
  cases d
  · exact hlow
  · exact hupper

@[simp] theorem draw_band : s.draw.band d = s.band d := by cases d <;> rfl

end

theorem band_of_belfry {s t : State} (h : s.belfry = t.belfry) (d : Band) : s.band d = t.band d := by
  cases d
  · exact congrArg Belfry.low h
  · exact congrArg Belfry.upper h

section
variable (s : State) (d : Band)

@[simp] theorem countAt_band (i n : Nat) : (countAt i n s).band d = s.band d := band_of_belfry (countAt_belfry ..) d
@[simp] theorem finish_band (w : Waiting) (st : Nat) (pl : List Byte) : (finish w st pl s).band d = s.band d :=
  band_of_belfry (finish_belfry ..) d
@[simp] theorem tracePlc_belfry (e : Band) (n : Nat) (h : List Byte) : (tracePlc e n h s).belfry = s.belfry := trace_belfry ..
@[simp] theorem tracePlc_band (e : Band) (n : Nat) (h : List Byte) : (tracePlc e n h s).band d = s.band d :=
  band_of_belfry (tracePlc_belfry ..) d
@[simp] theorem tracePlc_rotunda (e : Band) (n : Nat) (h : List Byte) : (tracePlc e n h s).rotunda = s.rotunda := trace_rotunda ..
@[simp] theorem tracePlc_civil (e : Band) (n : Nat) (h : List Byte) : (tracePlc e n h s).civil = s.civil := trace_civil ..
@[simp] theorem tracePlc_now (e : Band) (n : Nat) (h : List Byte) : (tracePlc e n h s).now = s.now := trace_now ..
@[simp] theorem tracePlc_cupola (e : Band) (n : Nat) (h : List Byte) : (tracePlc e n h s).cupola = s.cupola := trace_cupola ..
@[simp] theorem tracePlc_up (e : Band) (n : Nat) (h : List Byte) (c : Clock) : (tracePlc e n h s).up c = s.up c :=
  unlinked_up (trace_unlinked ..) c
@[simp] theorem traceEnclave_belfry (op slot result : Nat) : (traceEnclave op slot result s).belfry = s.belfry := trace_belfry ..
@[simp] theorem traceEnclave_band (op slot result : Nat) : (traceEnclave op slot result s).band d = s.band d :=
  band_of_belfry (traceEnclave_belfry ..) d

end

/-! ## The queue of a band -/

section
variable (s : State) (d : Band) (m : PlcMessage)

theorem enqueue_band : (enqueue d m s).band d = { s.band d with queue := (s.band d).queue ++ [m] } := band_modBand ..

theorem settleBand_of_enabled (henabled : s.bandEnabled d = true) (hrunning : (s.band d).running = true) : settleBand s d = s := by
  unfold settleBand
  dsimp only
  rw [if_pos (Or.inl (hrunning.trans henabled.symm))]

end

/-! ## The channels of neighbours -/

section
variable (s : State)

@[simp] theorem setNeighbour_unhosted (c : Channel) (b : NeighbourBody) : (setNeighbour c b s).unhosted = s.unhosted := setBody_unhosted ..

theorem modLinkDir_unhosted (address : Nat) (d : Band) (x : Direction) (f : LinkDir → LinkDir) :
    (modLinkDir address d x f s).unhosted = s.unhosted := by
  unfold modLinkDir
  split
  · exact setNeighbour_unhosted ..
  · rfl

@[simp] theorem raiseLink_unhosted (address : Nat) (d : Band) (x : Direction) (change index : Nat) :
    (raiseLink address d x change index s).unhosted = s.unhosted := by
  unfold raiseLink
  split
  · exact raise_unhosted ..
  · rfl

@[simp] theorem failAttempt_unhosted (d : Band) (address : Nat) : (failAttempt d address s).unhosted = s.unhosted := by
  unfold failAttempt
  split
  · rfl
  · dsimp only
    split
    · exact (raiseLink_unhosted ..).trans (setNeighbour_unhosted ..)
    · exact setNeighbour_unhosted ..

end

theorem unhosted_band {s t : State} (h : s.unhosted = t.unhosted) (d : Band) : s.band d = t.band d := band_of_belfry (unhosted_belfry h) d

theorem neighbourOf_of_rotunda {s t : State} (h : s.rotunda = t.rotunda) (address : Nat) : s.neighbourOf address = t.neighbourOf address := by
  unfold State.neighbourOf State.neighbours
  rw [h]

theorem neighbourOf_of_channels {s t : State} (h : s.rotunda.channels = t.rotunda.channels) (address : Nat) :
    s.neighbourOf address = t.neighbourOf address := by
  unfold State.neighbourOf State.neighbours
  rw [h]

end Sys2Proof.Machine
end

section
/-! Medium access (R373 to R376, R380). -/

namespace Sys2Proof.Machine

section
variable {d : Band} {s : State}

theorem exec_preambleDetected_of_idle (hlistens : s.listens d = true) (hidle : (s.band d).medium = .idle) :
    ∃ t, exec (.preambleDetected d) s = .next t ∧ (t.band d).medium = .receiving ∧ (t.band d).queue = (s.band d).queue ∧
      t.band (otherBand d) = s.band (otherBand d) := by
  have hgain : ∀ e, (setGain s).band e = s.band e := fun e => band_withBelfry s e rfl rfl
  refine ⟨_, if_pos hlistens, ?_, ?_, ?_⟩
  · rw [countAt_band, band_modBand, hidle, if_pos (Or.inl rfl)]
  · rw [countAt_band, band_modBand, hgain]
  · rw [countAt_band, band_modBand_other, hgain]

/-! ## Contention -/

/-- A slot that a message may hold after a contention period opened: none, one of 8, or the one it held. -/
def SlotIn (q : List PlcMessage) (m : PlcMessage) : Prop := m.slot = none ∨ (∃ k, m.slot = some k ∧ k < 8) ∨ m.slot ∈ q.map (·.slot)

theorem contend_slots {q : List PlcMessage} {x : List PlcMessage × State} {m : PlcMessage} (hx : ∀ n ∈ x.1, SlotIn q n) (hm : m ∈ q) :
    (contend x m).1.length = x.1.length + 1 ∧ (contend x m).2.belfry = x.2.belfry ∧ ∀ n ∈ (contend x m).1, SlotIn q n := by
  have hslot : m.slot ∈ q.map (·.slot) := List.mem_map_of_mem hm
  unfold contend
  split
  · refine ⟨List.length_append, rfl, fun n hn => (List.mem_append.mp hn).elim (hx n) fun h => ?_⟩
    rw [List.mem_singleton.mp h]
    exact Or.inr (Or.inr hslot)
  · split
    · refine ⟨List.length_append, rfl, fun n hn => (List.mem_append.mp hn).elim (hx n) fun h => ?_⟩
      rw [List.mem_singleton.mp h]
      exact Or.inr (Or.inr hslot)
    · refine ⟨List.length_append, rfl, fun n hn => (List.mem_append.mp hn).elim (hx n) fun h => ?_⟩
      rw [List.mem_singleton.mp h]
      exact Or.inr (Or.inl ⟨_, rfl, Nat.mod_lt _ (by decide)⟩)

theorem foldl_contend {q : List PlcMessage} (l : List PlcMessage) (hl : ∀ m ∈ l, m ∈ q) (x : List PlcMessage × State)
    (hx : ∀ n ∈ x.1, SlotIn q n) : (l.foldl contend x).1.length = x.1.length + l.length ∧
      (l.foldl contend x).2.belfry = x.2.belfry ∧ ∀ n ∈ (l.foldl contend x).1, SlotIn q n := by
  induction l generalizing x with
  | nil => exact ⟨rfl, rfl, hx⟩
  | cons m l ih =>
    obtain ⟨hlen, hbelfry, hslots⟩ := contend_slots hx (hl m List.mem_cons_self)
    obtain ⟨hlen', hbelfry', hslots'⟩ := ih (fun n hn => hl n (List.mem_cons_of_mem _ hn)) _ hslots
    refine ⟨?_, hbelfry'.trans hbelfry, hslots'⟩
    rw [List.foldl_cons, hlen', hlen, List.length_cons]
    omega

theorem exec_contentionPeriod_of_ackSlot (hup : s.up .cd8 = true) (hruns : (s.band d).running = true)
    (hack : (s.band d).awaitingAck = false) (hslot : (s.band d).medium = .ackSlot) :
    ∃ t, exec (.contentionPeriod d) s = .next t ∧ (t.band d).medium = .contention ∧
      (t.band d).queue.length = (s.band d).queue.length ∧ ∀ m ∈ (t.band d).queue, SlotIn (s.band d).queue m := by
  obtain ⟨hlen, _, hslots⟩ := foldl_contend (s.band d).queue (fun _ hm => hm) ([], s) (fun n hn => absurd hn List.not_mem_nil)
  refine ⟨_, if_pos (by rw [hup, hruns, hack, hslot]; rfl), ?_, ?_, ?_⟩
  · rw [band_modBand]
  · rw [band_modBand]
    exact hlen.trans (Nat.zero_add _)
  · rw [band_modBand]
    exact hslots

/-! ## A frame that starts -/

section
variable {m : PlcMessage} (hup : s.up .cd8 = true) (hruns : (s.band d).running = true) (hmedium : (s.band d).medium = .contention)
  (hfree : (s.band d).current = none) (hheld : s.power.holdUp = false) (hfirst : firstSlot (s.band d).queue = some m)
include hup hruns hmedium hfree hheld hfirst

theorem exec_plcTransmitStart_of_first : exec (.plcTransmitStart d) s =
    if (s.band (otherBand d)).medium = .receiving then
      .next (s.modBand d (fun b => { b with queue := b.queue.map (fun x => if x = m then { x with slot := none } else x) }))
    else if s.canSecure m.security d then .next (startFrame d m s)
    else .next (settleMessage m d 1 m.attempts (s.modBand d (fun b => { b with queue := b.queue.erase m }))) := by
  change execPlcTransmitStart d s = _
  unfold execPlcTransmitStart
  dsimp only
  rw [if_pos (by rw [hup, hruns, hmedium, hfree, hheld]; rfl), hfirst]

theorem exec_plcTransmitStart_of_clear (hother : (s.band (otherBand d)).medium ≠ .receiving) (hsecure : s.canSecure m.security d = true) :
    exec (.plcTransmitStart d) s = .next (startFrame d m s) := by
  rw [exec_plcTransmitStart_of_first hup hruns hmedium hfree hheld hfirst, if_neg hother, if_pos hsecure]

theorem exec_plcTransmitStart_of_busy (hother : (s.band (otherBand d)).medium = .receiving) :
    ∃ t, exec (.plcTransmitStart d) s = .next t ∧ (t.band d).medium = .contention ∧ (t.band d).current = none ∧
      t.belfry.framesSent = s.belfry.framesSent := by
  rw [exec_plcTransmitStart_of_first hup hruns hmedium hfree hheld hfirst, if_pos hother]
  refine ⟨_, rfl, ?_, ?_, modBand_framesSent ..⟩
  · rw [band_modBand, hmedium]
  · rw [band_modBand, hfree]

end

/-- The frame counter a frame takes. -/
def State.counted (s : State) (m : PlcMessage) : Nat × State := if m.security = .plain then (0, s) else takePlcCounter s

/-- A band that starts a frame of a message. -/
def BandState.started (b : BandState) (m : PlcMessage) (f : List Byte) (map : Option ToneMap) : BandState :=
  { b with
    medium := .sending, queue := b.queue.erase m, current := some { m with slot := none }, sequence := (b.sequence + 1) % 64
    sent := f, sentMap := map, timedOut := false }

/-- One more frame sent. -/
def State.framed (s : State) : State := s.withBelfry { s.belfry with framesSent := w32 (s.belfry.framesSent + 1) }

theorem framed_band (s : State) (d : Band) : s.framed.band d = s.band d := band_withBelfry s d rfl rfl

/-- A started frame takes its counter, its band, and counts as sent; nothing else of Belfry changes. -/
theorem startFrame_belfry (m : PlcMessage) : ∃ f map, (startFrame d m s).belfry =
    ((s.counted m).2.draw.modBand d (fun b => b.started m f map)).framed.belfry := by
  refine ⟨(s.counted m).2.plcFrame d m (s.counted m).1 (s.sendIndex d m)
    ((s.neighbourOf m.nextHop).any (fun x => (x.2.dir d .send).requestRefresh)), s.sendMap d m.nextHop (s.sendIndex d m), ?_⟩
  unfold startFrame
  dsimp only
  rw [tracePlc_belfry]
  split
  · exact unhosted_belfry (setNeighbour_unhosted ..)
  · rfl

theorem startFrame_band (m : PlcMessage) : ∃ f map, (startFrame d m s).band d = ((s.counted m).2.band d).started m f map := by
  obtain ⟨f, map, h⟩ := startFrame_belfry (d := d) (s := s) m
  refine ⟨f, map, ?_⟩
  rw [band_of_belfry h d, framed_band, band_modBand, draw_band]

theorem counted_of_plain {m : PlcMessage} (h : m.security = .plain) : s.counted m = (0, s) := if_pos h

theorem startFrame_of_plain {m : PlcMessage} (h : m.security = .plain) : ((startFrame d m s).band d).medium = .sending ∧
    ((startFrame d m s).band d).queue = (s.band d).queue.erase m ∧
    (startFrame d m s).belfry.framesSent = w32 (s.belfry.framesSent + 1) ∧ (startFrame d m s).belfry.counter = s.belfry.counter := by
  obtain ⟨f, map, hbelfry⟩ := startFrame_belfry (d := d) (s := s) m
  obtain ⟨g, map', hband⟩ := startFrame_band (d := d) (s := s) m
  rw [counted_of_plain h] at hbelfry hband
  refine ⟨?_, ?_, ?_, ?_⟩
  · rw [hband]
    rfl
  · rw [hband]
    rfl
  · rw [hbelfry]
    exact congrArg (fun n => w32 (n + 1)) (modBand_framesSent s.draw d _)
  · rw [hbelfry]
    exact modBand_counter s.draw d _

theorem takePlcCounter_belfry : (takePlcCounter s).2.belfry.counter = s.belfry.counter + 1 ∧
    s.belfry.counter < (takePlcCounter s).2.belfry.reservedEnd := by
  unfold takePlcCounter
  dsimp only
  rw [traceEnclave_belfry]
  refine ⟨rfl, ?_⟩
  change s.belfry.counter < if s.belfry.counter < s.belfry.reservedEnd then s.belfry.reservedEnd else s.belfry.counter + 4096
  split
  next h => exact h
  · exact Nat.lt_add_of_pos_right (by decide)

theorem startFrame_of_network {m : PlcMessage} (h : m.security = .network) :
    (startFrame d m s).belfry.counter = s.belfry.counter + 1 ∧ s.belfry.counter < (startFrame d m s).belfry.reservedEnd := by
  obtain ⟨f, map, hbelfry⟩ := startFrame_belfry (d := d) (s := s) m
  have hcounted : s.counted m = takePlcCounter s := if_neg (by rw [h]; decide)
  obtain ⟨hcounter, hend⟩ := takePlcCounter_belfry (s := s)
  rw [hbelfry, hcounted]
  constructor
  · exact (modBand_counter (takePlcCounter s).2.draw d _).trans hcounter
  · have hsame : (((takePlcCounter s).2.draw.modBand d (fun b => b.started m f map)).framed).belfry.reservedEnd =
        (takePlcCounter s).2.belfry.reservedEnd := modBand_reservedEnd ..
    rw [hsame]
    exact hend

/-! ## The end of a frame, acknowledgement and timeout -/

theorem exec_plcTransmitEnd_of_acked {m : PlcMessage} (hup : s.up .cd8 = true) (hsending : (s.band d).medium = .sending)
    (hcurrent : (s.band d).current = some m) (hacked : m.acked = true) : exec (.plcTransmitEnd d) s =
      .next (settleBand (s.modBand d (fun b => { b with medium := .ackSlot, awaitingAck := true })) d) := by
  change execPlcTransmitEnd d s = _
  unfold execPlcTransmitEnd
  dsimp only
  rw [if_pos (by rw [hup, hsending]; rfl), hcurrent]
  exact if_pos hacked

theorem exec_plcAckSend_of_due {a : Nat} (hup : s.up .cd8 = true) (hdue : (s.band d).ackDue = some a) (hruns : (s.band d).running = true)
    (hslot : (s.band d).medium = .ackSlot) (hheld : s.power.holdUp = false) : ∃ t, exec (.plcAckSend d) s = .next t ∧
      (t.band d).ackDue = none ∧ (t.band d).sequence = ((s.band d).sequence + 1) % 64 ∧
      t.belfry.framesSent = s.belfry.framesSent := by
  change ∃ t, execPlcAckSend d s = _ ∧ _
  unfold execPlcAckSend
  dsimp only
  rw [hdue]
  refine ⟨_, if_pos (by rw [hup, hruns, hslot, hheld]; rfl), ?_, ?_, ?_⟩
  · rw [tracePlc_band, band_modBand]
  · rw [tracePlc_band, band_modBand, draw_band]
  · rw [tracePlc_belfry, modBand_framesSent, draw_belfry]

theorem exec_acknowledgement_of_host {m : PlcMessage} {w : Waiting} {hops : Nat} (hup : s.up .cd8 = true)
    (hawait : (s.band d).awaitingAck = true) (hcurrent : (s.band d).current = some m) (hpurpose : m.purpose = .host w hops) :
    ∃ t, exec (.acknowledgement d) s = .next (finish w stOk
      (le 1 0 ++ le 1 (m.attempts + 1) ++ le 1 hops ++ le 1 (bandNo d) ++ le 6 s.time) t) ∧
      (t.band d).awaitingAck = false ∧ (t.band d).current = none := by
  let s1 := tracePlc d 0 (s.drawnBytes 12) (s.draw.modBand d (fun b => { b with awaitingAck := false, current := none }))
  let t := modLinkDir m.nextHop d .send (fun v => { v.attempt false with consecutiveFails := 0 }) s1
  have hlink : t.unhosted = s1.unhosted := modLinkDir_unhosted ..
  have htime : t.time = s.time := by
    rw [State.time, unhosted_civil hlink, tracePlc_civil, modBand_civil]
    rfl
  have hband : t.band d = { s.band d with awaitingAck := false, current := none } := by
    rw [unhosted_band hlink, tracePlc_band, band_modBand, draw_band]
  have hexec : exec (.acknowledgement d) s = .next (settleMessage m d 0 (m.attempts + 1) t) := by
    change execAcknowledgement d s = _
    unfold execAcknowledgement
    dsimp only
    rw [if_pos (by rw [hup, hawait]; rfl), hcurrent]
  refine ⟨t, ?_, ?_, ?_⟩
  · rw [hexec]
    unfold settleMessage
    rw [hpurpose, htime]
  · rw [hband]
  · rw [hband]

theorem exec_plcAckTimeout_of_attempts {m : PlcMessage} (hup : s.up .cd8 = true) (hawait : (s.band d).awaitingAck = true)
    (hcurrent : (s.band d).current = some m) (hfew : m.attempts < 4) :
    ∃ t n, exec (.plcAckTimeout d) s = .next t ∧ n < 2 ^ (m.attempts + 1) ∧ (t.band d).awaitingAck = false ∧
      (t.band d).queue = (s.band d).queue ++ [{ m with attempts := m.attempts + 1, waitPeriods := n, slot := none }] ∧
      (t.band d).timedOut = true ∧ t.belfry.acksLate = s.belfry.acksLate := by
  let s1 := countAt (38 + bandNo d) 1 (s.modBand d (fun b => { b with awaitingAck := false, current := none, timedOut := true }))
  let s2 := failAttempt d m.nextHop s1
  let n := s2.drawn % 2 ^ (m.attempts + 1)
  have hlink : s2.unhosted = s1.unhosted := failAttempt_unhosted ..
  have hband : (enqueue d { m with attempts := m.attempts + 1, waitPeriods := n, slot := none } s2.draw).band d =
      { s.band d with
        awaitingAck := false, current := none, timedOut := true
        queue := (s.band d).queue ++ [{ m with attempts := m.attempts + 1, waitPeriods := n, slot := none }] } := by
    rw [enqueue_band, draw_band, unhosted_band hlink, countAt_band, band_modBand]
  refine ⟨enqueue d { m with attempts := m.attempts + 1, waitPeriods := n, slot := none } s2.draw, n, ?_,
    Nat.mod_lt _ (Nat.two_pow_pos _), ?_, ?_, ?_, ?_⟩
  · change execPlcAckTimeout d s = _
    unfold execPlcAckTimeout
    dsimp only
    rw [if_pos (by rw [hup, hawait]; rfl), hcurrent]
    exact if_neg (by omega)
  · rw [hband]
  · rw [hband]
  · rw [hband]
  · rw [enqueue, modBand_acksLate, draw_belfry, unhosted_belfry hlink, countAt_belfry, modBand_acksLate]

theorem exec_acknowledgement_of_late (hup : s.up .cd8 = true) (hawait : (s.band d).awaitingAck = false)
    (htimed : (s.band d).timedOut = true) : ∃ t, exec (.acknowledgement d) s = .next t ∧
      t.belfry.acksLate = w32 (s.belfry.acksLate + 1) ∧ (t.band d).timedOut = false ∧ (t.band d).queue = (s.band d).queue := by
  have hband : (s.withBelfry { s.belfry with acksLate := w32 (s.belfry.acksLate + 1) }).band d = s.band d := band_withBelfry s d rfl rfl
  refine ⟨_, (if_neg (by rw [hup, hawait]; decide)).trans (if_pos (by rw [hup, htimed]; rfl)), ?_, ?_, ?_⟩
  · rw [modBand_acksLate, withBelfry_belfry]
  · rw [band_modBand]
  · rw [band_modBand, hband]

/-! ## Failed checks -/

theorem exec_plcHeaderCheckFailed_of_listens (hlistens : s.listens d = true) : ∃ t, exec (.plcHeaderCheckFailed d) s = .next (settleBand t d) ∧
    (t.band d).medium = .ackSlot ∧ (t.band d).ackDue = none ∧ t.belfry.headersFailed = w32 (s.belfry.headersFailed + 1) := by
  let s1 := s.modBand d (fun b => { b with medium := .ackSlot, ackDue := none })
  let u := s1.withBelfry { s1.belfry with headersFailed := w32 (s1.belfry.headersFailed + 1) }
  have hband : (countAt (34 + bandNo d) 1 u).band d = { s.band d with medium := .ackSlot, ackDue := none } := by
    have hu : u.band d = s1.band d := band_withBelfry s1 d rfl rfl
    rw [countAt_band, hu, band_modBand]
  refine ⟨countAt (34 + bandNo d) 1 u, if_pos hlistens, ?_, ?_, ?_⟩
  · rw [hband]
  · rw [hband]
  · rw [countAt_belfry]
    exact congrArg (fun n => w32 (n + 1)) (modBand_headersFailed s d _)

theorem exec_plcFrameCheckFailed_of_passed {source : Nat} {x : FailedSymbols} {snrs : List (List Int)}
    (h : s.checkPasses d source x (snrs.headD []) = true) : exec (.plcFrameCheckFailed d source x snrs) s = .next s :=
  if_neg (by rw [h, Bool.not_true, Bool.and_false]; exact Bool.false_ne_true)

theorem exec_plcFrameCheckFailed_of_stranger {source : Nat} {x : FailedSymbols} {snrs : List (List Int)} (hlistens : s.listens d = true)
    (hfails : s.checkPasses d source x (snrs.headD []) = false) (hnone : s.neighbourOf source = none) :
    ∃ t, exec (.plcFrameCheckFailed d source x snrs) s = .next (settleBand t d) ∧ (t.band d).medium = .ackSlot ∧
      (t.band d).ackDue = none ∧ t.belfry.symbolsErased = w32 (s.belfry.symbolsErased + erasedIn x.energies) := by
  let s1 := s.modBand d (fun b => { b with medium := .ackSlot, ackDue := none })
  let u := s1.draw.withBelfry { s1.belfry with symbolsErased := w32 (s1.belfry.symbolsErased + erasedIn x.energies) }
  let t := tracePlc d 0 (s1.drawnBytes 12) (countAt (36 + bandNo d) (erasedIn x.energies) u)
  have hband : t.band d = { s.band d with medium := .ackSlot, ackDue := none } := by
    have hu : u.band d = s1.band d := (band_withBelfry s1.draw d rfl rfl).trans (draw_band ..)
    rw [tracePlc_band, countAt_band, hu, band_modBand]
  have hstranger : t.neighbourOf source = none := by
    rw [neighbourOf_of_rotunda (t := s) (by rw [tracePlc_rotunda, countAt_rotunda]; exact modBand_rotunda ..), hnone]
  refine ⟨t, ?_, ?_, ?_, ?_⟩
  · change execPlcFrameCheckFailed d source x snrs s = _
    unfold execPlcFrameCheckFailed
    dsimp only
    rw [if_pos (by rw [hlistens, hfails]; rfl)]
    rw [hstranger]
  · rw [hband]
  · rw [hband]
  · rw [tracePlc_belfry, countAt_belfry]
    exact congrArg (fun n => w32 (n + erasedIn x.energies)) (modBand_symbolsErased s d _)

theorem checkPasses_robust_iff {source : Nat} {x : FailedSymbols} {snr : List Int} (h : x.mapIndex = none) :
    s.checkPasses d source x snr = true ↔
      100 * erasedIn x.energies ≤ 15 * x.energies.length ∧ mapMet d (robustMap d) snr = true := by
  unfold State.checkPasses
  rw [h]
  simp

end

/-- Settles O44. That acknowledgements take a sequence number of the band and are not counted as frames sent (log 104), and that a secured
frame is not sent after the counter's last value (log 206), are the model's choices. -/
theorem plcMediumAccess : Obligations.PlcMediumAccess := by
  unfold Obligations.PlcMediumAccess
  exact ⟨fun d s => exec_preambleDetected_of_idle, fun d s => exec_contentionPeriod_of_ackSlot,
    fun d s m => exec_plcTransmitStart_of_clear, fun d s m => exec_plcTransmitStart_of_busy,
    fun d m s h => ⟨_, rfl, startFrame_of_plain h⟩, fun d m s => startFrame_of_network, fun d s m => exec_plcTransmitEnd_of_acked,
    fun d s a => exec_plcAckSend_of_due, fun d s m w hops => exec_acknowledgement_of_host,
    fun d s m => exec_plcAckTimeout_of_attempts, fun d s => exec_acknowledgement_of_late,
    fun d s => exec_plcHeaderCheckFailed_of_listens, fun d source x snrs s => exec_plcFrameCheckFailed_of_stranger,
    fun d source x snrs s => exec_plcFrameCheckFailed_of_passed, fun s d source x snr => checkPasses_robust_iff⟩

end Sys2Proof.Machine
end

section
/-! Tone maps, routes and neighbours (R377, R378, R383 to R385). -/

namespace Sys2Proof.Machine

/-! ## A frame received -/

section
variable {d : Band} {f : PlcFrame} {s t : State} {n : Nat} {k : State → State}

theorem receiveSecured_of_accepted (hlistens : s.listens d = true) (haccepted : acceptSecured d f (endReception d n f s) = some t) :
    receiveSecured d n f k s = settleBand (k t) d := by
  unfold receiveSecured hearFrame
  rw [if_pos hlistens]
  dsimp only
  rw [haccepted]

theorem receiveSecured_of_rejected (hlistens : s.listens d = true) (hrejected : acceptSecured d f (endReception d n f s) = none) :
    receiveSecured d n f k s = settleBand (endReception d n f s) d := by
  unfold receiveSecured hearFrame
  rw [if_pos hlistens]
  dsimp only
  rw [hrejected]

theorem receivePlc_of_accepted (hlistens : s.listens d = true) (haccepted : acceptSecured d f (endReception d n f s) = some t)
    (hfinal : f.final = 0 ∨ f.final = 0xFFFF) : receivePlc d n f k s = settleBand (k t) d := by
  unfold receivePlc
  rw [receiveSecured_of_accepted hlistens haccepted]
  exact congrArg (settleBand · d) (if_pos hfinal)

theorem receivePlc_of_rejected (hlistens : s.listens d = true) (hrejected : acceptSecured d f (endReception d n f s) = none) :
    receivePlc d n f k s = settleBand (endReception d n f s) d := receiveSecured_of_rejected hlistens hrejected

end

/-! ## Tone maps -/

theorem install_current (i now : Nat) (m : ToneMap) (x : LinkDir) :
    (LinkDir.install i now m x).current = some i ∧ (LinkDir.install i now m x).forcedRobust = false := ⟨rfl, rfl⟩

theorem mapOf_usable {d : Band} {snrs : List (List Int)} {m : ToneMap} (h : mapOf d snrs = some m) : mapUsable d m = true := by
  unfold mapOf at h
  dsimp only at h
  obtain ⟨hor, heq⟩ := Option.ite_none_left_eq_some.mp h
  obtain ⟨_, husable⟩ := not_or.mp hor
  rw [← Option.some.inj heq]
  simpa using husable

theorem mapOf_active {d : Band} {snrs : List (List Int)} {m : ToneMap} (h : mapOf d snrs = some m) : 8 ≤ mapActive d m :=
  (of_decide_eq_true (mapOf_usable h)).2.2

section
variable {d : Band} {s : State} {slot : Nat} {c : Channel} {b : NeighbourBody} (hslot : s.neighbourAt slot = some (c, b))
  (hup : s.up .cd8 = true)
include hslot hup

theorem exec_toneMapRefresh_of_due {snrs : List (List Int)} {m : ToneMap} (hruns : (s.band d).running = true)
    (htraffic : (b.dir d .receive).traffic = true) (hdue : (b.dir d .receive).lastMapAt + 60000 ≤ s.now) (hmap : mapOf d snrs = some m) :
    exec (.toneMapRefresh d slot snrs) s = .next (sendMap b.address d m s) := by
  change execToneMapRefresh d slot snrs s = _
  unfold execToneMapRefresh
  rw [hslot]
  dsimp only
  rw [if_pos (by rw [hup, hruns, htraffic, due_of_le hdue, Bool.and_true, Bool.or_true]; rfl), hmap]

theorem exec_toneMapLapse_of_unused {x : Direction} {i : Fin 4} {k : MapSlot} (hmaps : (b.dir d x).maps[i.val]? = some k)
    (hmap : k.map.isSome = true) (hdue : k.used + 300000 ≤ s.now) : exec (.toneMapLapse d slot x i) s =
      .next (raiseLink b.address d x 3 i.val (modLinkDir b.address d x (fun v => { v with
        maps := v.maps.set i.val MapSlot.empty, current := if v.current = some i.val then none else v.current }) s)) := by
  change execToneMapLapse d slot x i s = _
  unfold execToneMapLapse
  rw [hslot]
  dsimp only
  rw [hmaps, if_pos (by rw [hup, Option.any_some, hmap, due_of_le hdue]; rfl)]

theorem exec_neighbourTimeout_of_unheard (hdue : b.lastHeardAt + 600000 ≤ s.now) :
    exec (.neighbourTimeout slot) s = .next (dropNeighbour c b s) := by
  change execNeighbourTimeout slot s = _
  unfold execNeighbourTimeout
  rw [hslot]
  dsimp only
  rw [if_pos (by rw [hup, due_of_le hdue]; rfl)]

end

theorem missFrame_nodes (d : Band) (address : Nat) (s : State) : (missFrame d address s).belfry.nodes = s.belfry.nodes := by
  unfold missFrame
  split
  · exact modBand_nodes ..
  · rfl

theorem dropNeighbour_nodes (c : Channel) (b : NeighbourBody) (s : State) : (dropNeighbour c b s).belfry.nodes = s.belfry.nodes := by
  unfold dropNeighbour raiseLeft
  rw [raise_belfry, unhosted_belfry (destroyChannel_unhosted ..), missFrame_nodes, missFrame_nodes]

/-! ## Routes -/

theorem dropOldest_subset (rs : List Route) : ∀ x ∈ dropOldest rs, x ∈ rs := by
  unfold dropOldest
  split
  · exact fun x hx => (List.mem_filter.mp hx).1
  · exact fun x hx => hx

theorem addRoute_routes (r : Route) (s : State) : r ∈ (addRoute r s).belfry.routes ∧
    ∀ x ∈ (addRoute r s).belfry.routes, x = r ∨ (x ∈ s.belfry.routes ∧ x.destination ≠ r.destination) := by
  have hrest : ∀ x, x ∈ (if 128 ≤ (s.belfry.routes.filter (fun x => x.destination != r.destination)).length
      then dropOldest (s.belfry.routes.filter (fun x => x.destination != r.destination))
      else s.belfry.routes.filter (fun x => x.destination != r.destination)) →
      x ∈ s.belfry.routes ∧ x.destination ≠ r.destination := by
    intro x hx
    have hin : x ∈ s.belfry.routes.filter (fun x => x.destination != r.destination) := by
      split at hx
      · exact dropOldest_subset _ x hx
      · exact hx
    obtain ⟨hmem, hne⟩ := List.mem_filter.mp hin
    exact ⟨hmem, by simpa using hne⟩
  refine ⟨List.mem_append_right _ List.mem_cons_self, fun x hx => ?_⟩
  rcases List.mem_append.mp hx with hold | hnew
  · exact Or.inr (hrest x hold)
  · exact Or.inl (List.mem_singleton.mp hnew)

theorem dropRoute_ne (destination : Nat) (s : State) : ∀ x ∈ (dropRoute destination s).belfry.routes, x.destination ≠ destination := by
  intro x hx
  obtain ⟨_, hne⟩ := List.mem_filter.mp hx
  simpa using hne

theorem exec_routeReplyDue_of_one {id : Nat} {s : State} {r : ReplyDue} (hup : s.up .cd8 = true) (hreplies : s.belfry.replies = [r])
    (hid : r.id = id) (hdue : r.dueAt ≤ s.now) : exec (.routeReplyDue id) s =
      .next (enqueue r.band { plcMessage 0x71 1 r.origin .network (routeData 0 r.id 0 0) .own with nextHop := r.via }
        (s.withBelfry { s.belfry with replies := [] })) := by
  have hfind : s.belfry.replies.find? (fun r => r.id == id && s.due r.dueAt) = some r := by
    rw [hreplies, List.find?_cons_of_pos (by rw [hid, due_of_le hdue]; simp)]
  have hrest : [r].filter (fun x => x != r) = [] := by simp
  change execRouteReplyDue id s = _
  unfold execRouteReplyDue
  rw [hfind]
  dsimp only
  rw [if_pos hup, hreplies, hrest]

section
variable {target : Nat} {s : State} {x : Discovery} (hup : s.up .cd8 = true) (hone : s.belfry.discoveries = [x]) (htarget : x.target = target)
  (hdue : x.startedAt + 2000 ≤ s.now)
include hup hone htarget hdue

theorem exec_routeRequestTimeout_of_first (hfloods : x.floods = 1) : exec (.routeRequestTimeout target) s =
    .next (flood (routeRequest target x.id) (s.withBelfry { s.belfry with
      discoveries := [{ x with floods := 2, startedAt := s.now }] })) := by
  have hfind : s.belfry.discoveries.find? (fun x => x.target == target && s.due (x.startedAt + 2000)) = some x := by
    rw [hone, List.find?_cons_of_pos (by rw [htarget, due_of_le hdue]; simp)]
  change execRouteRequestTimeout target s = _
  unfold execRouteRequestTimeout
  rw [hfind]
  dsimp only
  rw [if_neg (by rw [hup]; decide), if_pos (by rw [hfloods]; decide), hone, List.map_cons, List.map_nil, if_pos htarget, hfloods]

theorem exec_routeRequestTimeout_of_second {m : PlcMessage} {w : Waiting} {h : Nat} (hfloods : x.floods = 2) (hmessages : x.messages = [m])
    (horigin : m.originator = 0) (hpurpose : m.purpose = .host w h) (hprefer : m.prefer = 0) : exec (.routeRequestTimeout target) s =
      .next (finish w stOk (le 1 1 ++ le 1 m.attempts ++ le 1 h ++ le 1 0 ++ le 6 s.time)
        (dropRoute m.final (s.withBelfry { s.belfry with discoveries := [] }))) := by
  have hfind : s.belfry.discoveries.find? (fun x => x.target == target && s.due (x.startedAt + 2000)) = some x := by
    rw [hone, List.find?_cons_of_pos (by rw [htarget, due_of_le hdue]; simp)]
  have hrest : [x].filter (fun y => y.target != target) = [] := by simp [htarget]
  change execRouteRequestTimeout target s = _
  unfold execRouteRequestTimeout
  rw [hfind]
  dsimp only
  rw [if_neg (by rw [hup]; decide), if_neg (by rw [hfloods]; decide), hone, hrest, hmessages, List.foldl_cons, List.foldl_nil]
  unfold settleMessage reportDrop
  rw [hpurpose, if_pos horigin, if_neg (by rw [hprefer]; decide)]
  rfl

end

theorem exec_routeEntryLapse_of_one {destination : Nat} {s : State} {r : Route} (hup : s.up .cd8 = true) (hone : s.belfry.routes = [r])
    (hdest : r.destination = destination) (hdue : r.lastUsedAt + 1800000 ≤ s.now) :
    exec (.routeEntryLapse destination) s = .next (s.withBelfry { s.belfry with routes := [] }) := by
  have hrest : [r].filter (fun r => r.destination != destination) = [] := by simp [hdest]
  change execRouteEntryLapse destination s = _
  unfold execRouteEntryLapse dropRoute
  rw [hone, hrest, if_pos (by simp [hup, hdest, due_of_le hdue])]

/-- Settles O45. Where the rules of the powerline leave a case open (log 206), and that a request's cost adds the receiving direction and a
reply's the sending direction at each hop (log 107), are the model's choices. -/
theorem plcMapsAndRoutes : Obligations.PlcMapsAndRoutes := by
  unfold Obligations.PlcMapsAndRoutes
  refine ⟨?rejected, ?update, install_current, fun d slot snrs m s c b hslot hup hruns => exec_toneMapRefresh_of_due hslot hup hruns,
    fun d snrs m => mapOf_active, fun d slot x i s c b k hslot hup => exec_toneMapLapse_of_unused hslot hup, ?request, ?reply,
    addRoute_routes, fun id s r => exec_routeReplyDue_of_one, ?first, ?second, ?error, fun dest s r => exec_routeEntryLapse_of_one,
    fun slot s c b hslot hup hdue => ⟨exec_neighbourTimeout_of_unheard hslot hup hdue, dropNeighbour_nodes c b s⟩⟩
  case rejected =>
    intro d f s hlistens hrejected
    exact congrArg Host.Outcome.next (receivePlc_of_rejected hlistens hrejected)
  case update =>
    intro d f s t e i m hlistens haccepted hfinal hupdate
    refine congrArg Host.Outcome.next ((receivePlc_of_accepted hlistens haccepted (Or.inl hfinal)).trans ?_)
    rw [hupdate]
  case request =>
    intro d f s t hlistens haccepted hfinal horigin htarget hhops hfresh
    refine congrArg Host.Outcome.next ((receivePlc_of_accepted hlistens haccepted (Or.inr hfinal)).trans (congrArg (settleBand · d) ?_))
    dsimp only
    rw [hfresh, List.find?_nil, List.filter_nil]
    refine (if_neg ?_).trans (if_pos htarget)
    rintro (hzero | hmany | hknown)
    · exact horigin hzero
    · omega
    · exact Bool.false_ne_true hknown
  case reply =>
    intro d f s t hlistens haccepted hfinal hhops hnone
    refine congrArg Host.Outcome.next ((receiveSecured_of_accepted hlistens haccepted).trans (congrArg (settleBand · d) ?_))
    dsimp only
    refine (if_neg (by omega)).trans ((if_pos hfinal).trans ?_)
    have hstill : ∀ r, (addRoute r t).belfry.discoveries = [] := fun _ => hnone
    rw [hstill, List.find?_nil]
  case first =>
    intro target s x hup hone htarget hdue hfloods
    exact exec_routeRequestTimeout_of_first hup hone htarget hdue hfloods
  case second =>
    intro target s x m w h hup hone htarget hdue hfloods hmessages horigin hpurpose hprefer
    exact exec_routeRequestTimeout_of_second hup hone htarget hdue hfloods hmessages horigin hpurpose hprefer
  case error =>
    intro d f s t hlistens haccepted hfinal
    exact ⟨congrArg Host.Outcome.next (receivePlc_of_accepted hlistens haccepted (Or.inl hfinal)), dropRoute_ne _ t⟩

end Sys2Proof.Machine
end

section
/-! Messages of nodes, own messages and joining (R388, R390 to R392, R404). -/

namespace Sys2Proof.Machine

/-! ## What a frame's reception leaves -/

/-- The state without Belfry and what frames and messages of the host go through. -/
def State.offLine (s : State) : State := (s.withBelfry Belfry.reset).unlinked

section
variable {s t : State}

theorem offLine_of_unlinked (h : s.unlinked = t.unlinked) : s.offLine = t.offLine :=
  congrArg (fun u : State => u.withBelfry Belfry.reset) h

theorem offLine_now (h : s.offLine = t.offLine) : s.now = t.now := by
  have e := congrArg State.now h
  exact e

theorem offLine_time (h : s.offLine = t.offLine) : s.time = t.time := by
  have e := congrArg State.time h
  exact e

theorem offLine_cupola (h : s.offLine = t.offLine) : s.cupola = t.cupola := by
  have e := congrArg State.cupola h
  exact e

theorem offLine_inForce (h : s.offLine = t.offLine) : s.power.inForce = t.power.inForce := by
  have e := congrArg (fun u : State => u.power.inForce) h
  exact e

theorem offLine_channels (h : s.offLine = t.offLine) : s.rotunda.channels = t.rotunda.channels := by
  have e := congrArg (fun u : State => u.rotunda.channels) h
  exact e

theorem offLine_up (h : s.offLine = t.offLine) (c : Clock) : s.up c = t.up c := by
  have e := congrArg (fun u : State => u.up c) h
  exact e

theorem offLine_neighbourOf (h : s.offLine = t.offLine) (address : Nat) : s.neighbourOf address = t.neighbourOf address :=
  neighbourOf_of_channels (offLine_channels h) address

theorem offLine_networkKey (h : s.offLine = t.offLine) : s.networkKey = t.networkKey := by
  unfold State.networkKey
  rw [offLine_up h, offLine_cupola h]

theorem bandEnabled_of {d : Band} (happlied : s.rotunda.applied = t.rotunda.applied) (hinForce : s.power.inForce = t.power.inForce) :
    s.bandEnabled d = t.bandEnabled d := by
  unfold State.bandEnabled State.cfg State.bandUPermitted
  rw [happlied, hinForce]

theorem offLine_bandEnabled (h : s.offLine = t.offLine) (d : Band) : s.bandEnabled d = t.bandEnabled d := by
  have happlied := congrArg (fun u : State => u.rotunda.applied) h
  exact bandEnabled_of happlied (offLine_inForce h)

end

section
variable (d : Band) (n : Nat) (f : PlcFrame) (s : State)

/-- The band after a frame's reception: it waits in its slot, with the acknowledgement it owes. -/
def State.slotted (s : State) (d : Band) (f : PlcFrame) : State := s.modBand d (fun b => { b with
  medium := .ackSlot, ackDue := if f.destination = 0 ∧ f.ackRequested then some f.source else none })

theorem slotted_band : (s.slotted d f).band d = { s.band d with
    medium := .ackSlot, ackDue := if f.destination = 0 ∧ f.ackRequested then some f.source else none } := band_modBand ..

theorem endReception_belfry : (endReception d n f s).belfry = { (s.slotted d f).belfry with
    framesReceived := w32 ((s.slotted d f).belfry.framesReceived + 1)
    symbolsErased := w32 ((s.slotted d f).belfry.symbolsErased + erasedIn f.symbols) } := by
  unfold endReception
  dsimp only
  split
  · rw [traceEnclave_belfry, tracePlc_belfry, countAt_belfry, withBelfry_belfry]
    rfl
  · rw [tracePlc_belfry, countAt_belfry, withBelfry_belfry]
    rfl

theorem endReception_offLine : (endReception d n f s).offLine = s.offLine := by
  have hband : ∀ g, (s.modBand d g).offLine = s.offLine := fun g => by cases d <;> rfl
  have htail : ∀ u : State, ∀ h, (tracePlc d 0 h (countAt (36 + bandNo d) (erasedIn f.symbols) u)).offLine = u.offLine :=
    fun u h => (offLine_of_unlinked (trace_unlinked ..)).trans (offLine_of_unlinked (countAt_unlinked ..))
  unfold endReception
  dsimp only
  split
  · exact (offLine_of_unlinked (trace_unlinked ..)).trans ((htail _ _).trans (hband _))
  · exact (htail _ _).trans (hband _)

theorem endReception_band : (endReception d n f s).band d = { s.band d with
    medium := .ackSlot, ackDue := if f.destination = 0 ∧ f.ackRequested then some f.source else none } := by
  rw [← slotted_band]
  have hbelfry := endReception_belfry d n f s
  generalize endReception d n f s = u at hbelfry ⊢
  generalize s.slotted d f = v at hbelfry ⊢
  cases d
  · have hlow := congrArg Belfry.low hbelfry
    exact hlow
  · have hupper := congrArg Belfry.upper hbelfry
    exact hupper

theorem endReception_nodes : (endReception d n f s).belfry.nodes = s.belfry.nodes := by
  rw [endReception_belfry]
  exact modBand_nodes ..

theorem endReception_joins : (endReception d n f s).belfry.joins = s.belfry.joins := by
  rw [endReception_belfry]
  exact modBand_joins ..

theorem endReception_pairing : (endReception d n f s).belfry.pairing = s.belfry.pairing := by
  rw [endReception_belfry]
  exact modBand_pairing ..

theorem endReception_addressFor (eui : List Byte) : (endReception d n f s).addressFor eui = s.addressFor eui := by
  unfold State.addressFor
  rw [endReception_nodes, endReception_joins]

end

/-! ## Secured frames -/

section
variable {d : Band} {f : PlcFrame} {s : State}

theorem acceptSecured_of_unsecured (h : f.secured = false ∨ f.micOk = false ∨ s.networkKey = none) : acceptSecured d f s = none := by
  refine if_pos ?_
  rcases h with h | h | h <;> simp [h]

theorem acceptSecured_of_dropped (h : f.source ∈ (s.band d).dropped) : acceptSecured d f s = none := by
  refine if_pos ?_
  simp [h]

theorem acceptSecured_of_replayed {c : Channel} {x : NeighbourBody} (hneighbour : s.neighbourOf f.source = some (c, x))
    (hold : f.counter ≤ x.rxCounter) : acceptSecured d f s = none := by
  unfold acceptSecured
  split
  · rfl
  · rw [hneighbour]
    dsimp only
    rw [hneighbour]
    exact if_pos hold

/-- A fresh frame of a neighbour is taken; what it changes is the neighbour's channel. -/
theorem acceptSecured_of_fresh {c : Channel} {x : NeighbourBody} (hsecured : f.secured = true) (hmic : f.micOk = true)
    (hkey : s.networkKey.isSome = true) (hdestination : f.destination = 0) (hheard : ¬ f.source ∈ (s.band d).dropped)
    (hneighbour : s.neighbourOf f.source = some (c, x)) (hfresh : x.rxCounter < f.counter) :
    acceptSecured d f s = some (raisePhase c x (s.heardFrom d x f) (setNeighbour c (s.heardFrom d x f) s)) := by
  have hkept : s.networkKey.isNone = false := by rw [← Option.not_isSome, hkey, Bool.not_true]
  have hguard : (!f.secured || !f.micOk || s.networkKey.isNone || !(f.destination == 0 || f.destination == 0xFFFF)
      || (s.band d).dropped.contains f.source) = false := by
    rw [hsecured, hmic, hkept, hdestination]
    simpa using hheard
  unfold acceptSecured
  rw [hguard, if_neg Bool.false_ne_true, hneighbour]
  dsimp only
  rw [hneighbour]
  exact if_neg (by omega)

theorem setNeighbour_applied (c : Channel) (b : NeighbourBody) (s : State) : (setNeighbour c b s).rotunda.applied = s.rotunda.applied := by
  unfold setNeighbour setBody
  dsimp only
  split
  · unfold persist
    split <;> rfl
  · rfl

theorem raisePhase_unlinked (c : Channel) (a b : NeighbourBody) (s : State) : (raisePhase c a b s).unlinked = s.unlinked := by
  unfold raisePhase
  split
  · rfl
  · exact raise_unlinked ..

end

section
variable {d : Band} {f : PlcFrame} {s : State} {c : Channel} {x : NeighbourBody}

/-- A neighbour's body renewed, with its event, leaves Belfry and the bands. -/
theorem raisePhase_setNeighbour (y : NeighbourBody) : (raisePhase c x y (setNeighbour c y s)).belfry = s.belfry ∧
    (raisePhase c x y (setNeighbour c y s)).bandEnabled d = s.bandEnabled d := by
  have hunlinked := raisePhase_unlinked c x y (setNeighbour c y s)
  have hunhosted := setNeighbour_unhosted s c y
  have happlied := setNeighbour_applied c y s
  generalize raisePhase c x y (setNeighbour c y s) = w at hunlinked ⊢
  generalize setNeighbour c y s = v at hunlinked hunhosted happlied ⊢
  have hw := congrArg (fun u : State => u.rotunda.applied) hunlinked
  have hv := congrArg (fun u : State => u.power.inForce) hunhosted
  exact ⟨(unlinked_belfry hunlinked).trans (unhosted_belfry hunhosted),
    bandEnabled_of (hw.trans happlied) ((unlinked_inForce hunlinked).trans hv)⟩

theorem acceptSecured_keeps_belfry (hsecured : f.secured = true) (hmic : f.micOk = true)
    (hkey : s.networkKey.isSome = true) (hdestination : f.destination = 0) (hheard : ¬ f.source ∈ (s.band d).dropped)
    (hneighbour : s.neighbourOf f.source = some (c, x)) (hfresh : x.rxCounter < f.counter) :
    ∃ w, acceptSecured d f s = some w ∧ w.belfry = s.belfry ∧ w.bandEnabled d = s.bandEnabled d :=
  ⟨_, acceptSecured_of_fresh hsecured hmic hkey hdestination hheard hneighbour hfresh, raisePhase_setNeighbour _⟩

end

/-! ## The messages received -/

section
variable {d : Band} {f : PlcFrame} {s t : State} (hlistens : s.listens d = true)
  (haccepted : acceptSecured d f (endReception d 0 f s) = some t) (hfinal : f.final = 0)
include hlistens haccepted hfinal

theorem exec_gatewayReport_of_report (htype : f.type = 0x03) :
    exec (.gatewayReport d f) s = .next (settleBand (raiseReceived d f t) d) := by
  change execGatewayReport d f s = _
  rw [execGatewayReport, if_pos htype, receivePlc_of_accepted hlistens haccepted (Or.inl hfinal)]

theorem exec_nodeStatus_of_status (htype : f.type = 0x04) : exec (.nodeStatus d f) s = .next (settleBand t d) := by
  change execNodeStatus d f s = _
  rw [execNodeStatus, if_pos htype, receivePlc_of_accepted hlistens haccepted (Or.inl hfinal)]
  rfl

theorem exec_hostData_of_host (hlow : 0x10 ≤ f.type) (hhigh : f.type ≤ 0x1F) :
    exec (.hostData d f) s = .next (settleBand (raiseReceived d f t) d) := by
  change execHostData d f s = _
  rw [execHostData, within_of_le hlow hhigh, if_pos rfl, receivePlc_of_accepted hlistens haccepted (Or.inl hfinal)]

theorem exec_hostData_of_unknown (hhigh : 0x20 ≤ f.type) : exec (.hostData d f) s =
    .next (settleBand (t.withBelfry { t.belfry with unknownTypes := w32 (t.belfry.unknownTypes + 1) }) d) := by
  have hout : ¬ within 0x10 0x1F f.type = true := by
    unfold within
    simp
    omega
  change execHostData d f s = _
  rw [execHostData, if_neg hout, receivePlc_of_accepted hlistens haccepted (Or.inl hfinal)]
  rfl

end

/-! ## Own messages -/

theorem exec_portIndication_of_head {p : Port} {s : State} {n : Node} (hup : s.up .cd8 = true) (hdue : s.belfry.indicationDue[p] = true)
    (hnodes : s.belfry.nodes = [n]) (hkind : n.kind = 1) (hattr : n.attr = p.val) :
    ∃ t, exec (.portIndication p) s = .next (dispatch (plcMessage 0x01 1 n.address .network (s.indication p) .own) t) ∧
      t.belfry.indicationDue[p] = false ∧ t.belfry.indicationAt[p] = s.now := by
  have hheads : [n].filter (fun n => n.kind == 1 && n.attr == p.val) = [n] := by simp [hkind, hattr]
  refine ⟨s.withBelfry { s.belfry with
    indicationDue := s.belfry.indicationDue.set p false, indicationAt := s.belfry.indicationAt.set p s.now }, ?_, ?_, ?_⟩
  · change execPortIndication p s = _
    unfold execPortIndication
    dsimp only
    rw [if_pos (by rw [hup, hdue]; rfl), hnodes, hheads]
    rfl
  · exact Vector.getElem_set_self ..
  · exact Vector.getElem_set_self ..

theorem exec_energyReport_of_show {s : State} {n : Node} (hup : s.up .cd8 = true) (hperiod : s.cfg 0x0506 0 ≠ 0)
    (hdue : s.belfry.reportAt + s.cfg 0x0506 0 * 1000 ≤ s.now) (hnodes : s.belfry.nodes = [n]) (hkind : n.kind = 2) :
    exec .energyReport s = .next (dispatch (plcMessage 0x02 1 n.address .network (s.energyData n.attr) .own)
      (s.withBelfry { s.belfry with reportAt := s.now })) := by
  have hshows : [n].filter (fun n => n.kind == 2) = [n] := by simp [hkind]
  change execEnergyReport s = _
  unfold execEnergyReport
  dsimp only
  rw [if_pos (by rw [hup, due_of_le hdue, bne_iff_ne.mpr hperiod]; rfl), hnodes, hshows]
  rfl

theorem exec_beacon_of_due {s : State} {p : Pairing} (hup : s.up .cd8 = true) (hpairing : s.belfry.pairing = some p)
    (hdue : p.lastBeaconAt + 5000 ≤ s.now) : exec .beacon s =
    .next (flood (plcMessage 0x78 1 0xFFFF .plain (le 2 s.belfry.networkId ++ le 2 s.pairingLeft ++ [0, 0]) .own)
      (s.withBelfry { s.belfry with pairing := some { p with lastBeaconAt := s.now } })) := by
  change execBeacon s = _
  unfold execBeacon
  rw [hpairing]
  exact if_pos (by rw [hup, due_of_le hdue]; rfl)

/-! ## Joining -/

theorem exec_joinReq_of_named {d : Band} {f : PlcFrame} {s : State} {p : Pairing} {n : List Byte × List Byte} {a : Nat}
    (hlistens : s.listens d = true) (hpairing : s.belfry.pairing = some p)
    (hnamed : p.nodes.find? (fun x => x.1 == f.data.take 8) = some n) (haddress : s.addressFor (f.data.take 8) = some a)
    (htype : f.type = 0x79) (hlen : f.data.length = 18) (hfew : s.belfry.nodes.length < 250) (hkey : s.networkKey.isSome = true)
    (hrng : s.cupola.rngHealthy = true) (hnone : s.belfry.joins = []) (henabled : s.bandEnabled d = true) :
    ∃ t nd, exec (.joinReq d f) s = .next t ∧
      t.belfry.joins = [⟨f.data.take 8, a, field f.data 8 1, field f.data 9 1, nd, s.now + 10000⟩] ∧
      t.belfry.nodes = s.belfry.nodes ∧ (t.band d).queue.length = (s.band d).queue.length + 1 := by
  have hruns : (s.band d).running = true := (Bool.and_eq_true_iff.mp (Bool.and_eq_true_iff.mp hlistens).1).2
  have hoff : (endReception d 0 f s).offLine = s.offLine := endReception_offLine ..
  have hkey' : (endReception d 0 f s).networkKey.isSome = true := by rw [offLine_networkKey hoff, hkey]
  have hrng' : (endReception d 0 f s).cupola.rngHealthy = true := by rw [offLine_cupola hoff, hrng]
  have hnow : (endReception d 0 f s).now = s.now := offLine_now hoff
  have hband := endReception_band d 0 f s
  have hnamed' : (endReception d 0 f s).belfry.pairing.bind (fun p => p.nodes.find? (fun n => n.1 == f.data.take 8)) = some n := by
    rw [endReception_pairing, hpairing]
    exact hnamed
  have haddress' : (endReception d 0 f s).addressFor (f.data.take 8) = some a := by rw [endReception_addressFor, haddress]
  have hnodes : (endReception d 0 f s).belfry.nodes = s.belfry.nodes := endReception_nodes ..
  have hjoins : (endReception d 0 f s).belfry.joins = [] := by rw [endReception_joins, hnone]
  have henabled' : (endReception d 0 f s).bandEnabled d = true := by rw [offLine_bandEnabled hoff, henabled]
  change ∃ t nd, execJoinReq d f s = _ ∧ _
  unfold execJoinReq hearFrame
  rw [if_pos hlistens]
  dsimp only
  generalize endReception d 0 f s = u at hkey' hrng' hnow hband hnamed' haddress' hnodes hjoins henabled' ⊢
  rw [hnamed', haddress']
  dsimp only
  rw [if_pos ⟨htype, hlen, by rw [hnodes]; exact hfew, hkey', hrng'⟩, hjoins, List.filter_nil, List.nil_append, hnow]
  let s2 := (countAt 53 1 u.draw).withBelfry { u.belfry with
    joins := [⟨f.data.take 8, a, field f.data 8 1, field f.data 9 1, u.drawnBytes 8, s.now + 10000⟩] }
  have hs2 : s2.band d = u.band d := by cases d <;> rfl
  have hstays : ∀ m, settleBand (enqueue d m s2) d = enqueue d m s2 := fun m => by
    refine settleBand_of_enabled _ d ?_ ?_
    · rw [← henabled']
      refine bandEnabled_of ?_ ?_
      · rw [enqueue, modBand_rotunda]
        exact congrArg Rotunda.applied (countAt_rotunda u.draw 53 1)
      · rw [enqueue, modBand_power]
        have hinForce := unlinked_inForce (countAt_unlinked u.draw 53 1)
        exact hinForce
    · rw [enqueue_band, hs2, hband]
      exact hruns
  refine ⟨_, u.drawnBytes 8, congrArg Host.Outcome.next (hstays _), ?_, ?_, ?_⟩
  · rw [enqueue, modBand_joins]
    rfl
  · rw [enqueue, modBand_nodes]
    exact hnodes
  · rw [enqueue_band, hs2, hband, List.length_append]
    rfl

/-- A join that is confirmed: the node in the table, the join done, and the node taken out of the pairing's list. -/
def State.admitted (s : State) (j : Join) : State :=
  s.withBelfry { s.belfry with
    nodes := s.belfry.nodes.filter (fun n => n.eui != j.eui) ++ [⟨j.eui, j.address, j.kind, j.attr, s.time⟩]
    joins := s.belfry.joins.filter (fun x => x.eui != j.eui)
    pairing := s.belfry.pairing.map (fun p => { p with
      nodes := p.nodes.filter (fun n => n.1 != j.eui)
      joined := if p.nodes.any (fun n => n.1 == j.eui) then p.joined + 1 else p.joined }) }

/-- Pairing at its end. -/
def State.unpaired (s : State) : State := s.withBelfry { s.belfry with pairing := none }

theorem closePairing_of_pairing {s : State} {p : Pairing} (h : s.belfry.pairing = some p) :
    closePairing s = raisePairing false p.joined s.unpaired := by
  unfold closePairing
  rw [h]
  rfl

theorem raisePairing_unlinked (x : Bool) (n : Nat) (s : State) : (raisePairing x n s).unlinked = s.unlinked := raise_unlinked ..

theorem closePairing_rest (s : State) : (closePairing s).belfry.nodes = s.belfry.nodes ∧ (closePairing s).belfry.joins = s.belfry.joins ∧
    (closePairing s).offLine = s.offLine ∧ (∀ d, (closePairing s).band d = s.band d) := by
  cases hpairing : s.belfry.pairing with
  | none =>
    unfold closePairing
    rw [hpairing]
    exact ⟨rfl, rfl, rfl, fun _ => rfl⟩
  | some p =>
    rw [closePairing_of_pairing hpairing]
    have hunlinked := raisePairing_unlinked false p.joined s.unpaired
    have hbelfry := unlinked_belfry hunlinked
    have hoff : s.unpaired.offLine = s.offLine := rfl
    have hband : ∀ d, s.unpaired.band d = s.band d := fun d => band_withBelfry s d rfl rfl
    refine ⟨?_, ?_, (offLine_of_unlinked hunlinked).trans hoff, fun d => (band_of_belfry hbelfry d).trans (hband d)⟩
    · rw [hbelfry]
      rfl
    · rw [hbelfry]
      rfl

/-- The state in which the confirming frame is checked: the join confirmed, its event raised, and the pairing closed after its last node. -/
def State.joined (s : State) (pl : List Byte) (j : Join) : State :=
  let s3 := raise 0x80A1 none pl (s.admitted j)
  if s3.belfry.pairing.any (fun p => p.nodes.isEmpty) then closePairing s3 else s3

theorem joined_rest (s : State) (pl : List Byte) (j : Join) : (s.joined pl j).belfry.nodes = (s.admitted j).belfry.nodes ∧
    (s.joined pl j).belfry.joins = (s.admitted j).belfry.joins ∧ (s.joined pl j).offLine = s.offLine ∧
    (∀ d, (s.joined pl j).band d = s.band d) := by
  have hunlinked := raise_unlinked (s.admitted j) 0x80A1 none pl
  have hbelfry := unlinked_belfry hunlinked
  have hoff : (s.admitted j).offLine = s.offLine := rfl
  have hband : ∀ d, (s.admitted j).band d = s.band d := fun d => band_withBelfry s d rfl rfl
  unfold State.joined
  dsimp only
  generalize raise 0x80A1 none pl (s.admitted j) = u at hunlinked hbelfry ⊢
  obtain ⟨hnodes, hjoins, hcoff, hcband⟩ := closePairing_rest u
  split
  · refine ⟨?_, ?_, hcoff.trans ((offLine_of_unlinked hunlinked).trans hoff), fun d => ?_⟩
    · rw [hnodes, hbelfry]
    · rw [hjoins, hbelfry]
    · rw [hcband, band_of_belfry hbelfry, hband]
  · exact ⟨congrArg Belfry.nodes hbelfry, congrArg Belfry.joins hbelfry, (offLine_of_unlinked hunlinked).trans hoff,
      fun d => (band_of_belfry hbelfry d).trans (hband d)⟩

theorem exec_joinConfirm_of_fresh {d : Band} {f : PlcFrame} {s : State} {j : Join} {c : Channel} {x : NeighbourBody}
    (hlistens : s.listens d = true) (hjoins : s.belfry.joins = [j]) (heui : j.eui = f.data.take 8) (hnd : j.nd = slice f.data 8 8)
    (hdeadline : s.now ≤ j.deadline) (htype : f.type = 0x7B) (hsecured : f.secured = true) (hmic : f.micOk = true)
    (hkey : s.networkKey.isSome = true) (hlen : f.data.length = 16) (hdestination : f.destination = 0) (henabled : s.bandEnabled d = true)
    (hheard : ¬ f.source ∈ (s.band d).dropped) (hneighbour : s.neighbourOf f.source = some (c, x)) (hfresh : x.rxCounter < f.counter) :
    ∃ t, exec (.joinConfirm d f) s = .next t ∧ ⟨j.eui, j.address, j.kind, j.attr, s.time⟩ ∈ t.belfry.nodes ∧ t.belfry.joins = [] := by
  have hruns : (s.band d).running = true := (Bool.and_eq_true_iff.mp (Bool.and_eq_true_iff.mp hlistens).1).2
  have hoff : (endReception d 0 f s).offLine = s.offLine := endReception_offLine ..
  have hband := endReception_band d 0 f s
  have hjoins' : (endReception d 0 f s).belfry.joins = [j] := by rw [endReception_joins, hjoins]
  change ∃ t, execJoinConfirm d f s = _ ∧ _
  unfold execJoinConfirm hearFrame
  rw [if_pos hlistens]
  dsimp only
  generalize endReception d 0 f s = u at hoff hband hjoins' ⊢
  have hkey' : u.networkKey.isSome = true := by rw [offLine_networkKey hoff, hkey]
  have hfind : u.belfry.joins.find? (fun j => j.eui == f.data.take 8 && j.nd == slice f.data 8 8 && decide (u.now ≤ j.deadline)) = some j := by
    rw [hjoins', offLine_now hoff]
    exact List.find?_cons_of_pos (by simp [heui, hnd, hdeadline])
  rw [hfind]
  dsimp only
  rw [if_pos ⟨htype, hsecured, hmic, hkey', hlen⟩]
  change ∃ t, Host.Outcome.next (settleBand ((acceptSecured d f
    (u.joined (fit 8 j.eui ++ le 2 j.address ++ le 1 j.kind ++ le 1 j.attr ++ le 6 s.time) j)).getD u) d) = .next t ∧ _
  obtain ⟨hvnodes, hvjoins, hvoff, hvband⟩ := joined_rest u (fit 8 j.eui ++ le 2 j.address ++ le 1 j.kind ++ le 1 j.attr ++ le 6 s.time) j
  generalize u.joined (fit 8 j.eui ++ le 2 j.address ++ le 1 j.kind ++ le 1 j.attr ++ le 6 s.time) j = v at hvnodes hvjoins hvoff hvband ⊢
  have hvkey : v.networkKey.isSome = true := by rw [offLine_networkKey hvoff, hkey']
  have hvheard : ¬ f.source ∈ (v.band d).dropped := by
    rw [hvband, hband]
    exact hheard
  have hvneighbour : v.neighbourOf f.source = some (c, x) := by
    rw [offLine_neighbourOf hvoff, offLine_neighbourOf hoff, hneighbour]
  obtain ⟨w, haccepted, hbelfry, hwenabled⟩ :=
    acceptSecured_keeps_belfry hsecured hmic hvkey hdestination hvheard hvneighbour hfresh
  have hstays : settleBand w d = w := by
    refine settleBand_of_enabled _ d ?_ ?_
    · rw [hwenabled, offLine_bandEnabled hvoff, offLine_bandEnabled hoff, henabled]
    · rw [band_of_belfry hbelfry, hvband, hband]
      exact hruns
  rw [haccepted, Option.getD_some, hstays]
  refine ⟨w, rfl, ?_, ?_⟩
  · rw [hbelfry, hvnodes, ← offLine_time hoff]
    exact List.mem_append_right _ List.mem_cons_self
  · rw [hbelfry, hvjoins]
    change u.belfry.joins.filter _ = []
    rw [hjoins']
    simp

theorem exec_joinConfirmTimeout_of_one {address : Nat} {s : State} {j : Join} (hup : s.up .cd8 = true) (hone : s.belfry.joins = [j])
    (haddress : j.address = address) (hlate : j.deadline < s.now) :
    exec (.joinConfirmTimeout address) s = .next (s.withBelfry { s.belfry with joins := [] }) := by
  have hrest : [j].filter (fun j => !(j.address == address && decide (j.deadline < s.now))) = [] := by simp [haddress, hlate]
  change execJoinConfirmTimeout address s = _
  rw [execJoinConfirmTimeout, if_pos hup, hone, hrest]

theorem exec_pairingWindowClose_of_due {s : State} {p : Pairing} (hup : s.up .cd8 = true) (hpairing : s.belfry.pairing = some p)
    (hdue : p.endsAt ≤ s.now) : exec .pairingWindowClose s =
    .next (raisePairing false p.joined (s.withBelfry { s.belfry with pairing := none })) := by
  change execPairingWindowClose s = _
  rw [execPairingWindowClose, if_pos (by rw [hup, hpairing, Option.any_some, due_of_le hdue]; rfl), closePairing_of_pairing hpairing]
  rfl

/-- Settles O46. That JOIN_ACCEPT goes back the way the request came, and that a JOIN_REQ is not answered while the random generator is
unhealthy (log 110), are the model's choices. -/
theorem plcMessagesAndJoining : Obligations.PlcMessagesAndJoining := by
  unfold Obligations.PlcMessagesAndJoining
  refine ⟨fun d f s t => exec_gatewayReport_of_report, fun d f s t => exec_nodeStatus_of_status, fun d f s t => exec_hostData_of_host,
    fun d f s t => exec_hostData_of_unknown, fun d f s => acceptSecured_of_unsecured, fun p s n => exec_portIndication_of_head,
    fun s n => exec_energyReport_of_show, fun s p => exec_beacon_of_due, fun d f s p n a => exec_joinReq_of_named, ?confirm,
    fun d f s c x => acceptSecured_of_replayed, fun d f s => acceptSecured_of_dropped,
    fun address s j => exec_joinConfirmTimeout_of_one, fun s p => exec_pairingWindowClose_of_due⟩
  case confirm =>
    intro d f s j hlistens hjoins heui hnd hdeadline htype hsecured hmic hkey hlen hdestination henabled hheard hknown
    obtain ⟨c, x, hneighbour, hfresh⟩ := hknown
    exact exec_joinConfirm_of_fresh hlistens hjoins heui hnd hdeadline htype hsecured hmic hkey hlen hdestination henabled hheard
      hneighbour hfresh

end Sys2Proof.Machine
end

section
/-! The antennas, their presentations and what the reader's operations leave (R405 to R420). -/

namespace Sys2Proof.Machine

/-! ## The antennas -/

section
variable (s : State) (a : Fin 2) (f : Antenna → Antenna)

/-- What the reader keeps besides its antennas. -/
def Oculus.rest (o : Oculus) : Oculus := { o with ant0 := Antenna.reset, ant1 := Antenna.reset }

@[simp] theorem antenna_modAntenna : (s.modAntenna a f).antenna a = f (s.antenna a) := by
  unfold State.modAntenna State.antenna
  split <;> rfl

theorem antenna_modAntenna_ne {b : Fin 2} (h : a ≠ b) : (s.modAntenna a f).antenna b = s.antenna b := by
  unfold State.modAntenna State.antenna
  by_cases ha : a = 0
  · have hb : b ≠ 0 := fun hb => h (ha.trans hb.symm)
    rw [if_pos ha, if_neg hb, if_neg hb]
    rfl
  · have hb : b = 0 := by omega
    rw [if_neg ha, if_pos hb, if_pos hb]
    rfl

theorem modAntenna_rest : (s.modAntenna a f).oculus.rest = s.oculus.rest := by
  unfold State.modAntenna
  split <;> rfl

theorem modPresentation_rest (g : Presentation → Presentation) : (modPresentation a g s).oculus.rest = s.oculus.rest := modAntenna_rest ..

theorem modPresentation_presentation (g : Presentation → Presentation) :
    ((modPresentation a g s).antenna a).presentation = (s.antenna a).presentation.map g := by
  unfold modPresentation
  rw [antenna_modAntenna]

theorem other_ne : 1 - a ≠ a := by omega

end

section
variable {o p : Oculus} (h : o.rest = p.rest)
include h

theorem rest_driven : o.driven = p.driven := by
  have e := congrArg Oculus.driven h
  exact e

theorem rest_sent : o.sent = p.sent := by
  have e := congrArg Oculus.sent h
  exact e

theorem rest_pings : o.pings = p.pings := by
  have e := congrArg Oculus.pings h
  exact e

theorem rest_polls : o.polls = p.polls := by
  have e := congrArg Oculus.polls h
  exact e

theorem rest_lastTap : o.lastTap = p.lastTap := by
  have e := congrArg Oculus.lastTap h
  exact e

theorem rest_held : o.held = p.held := by
  have e := congrArg Oculus.held h
  exact e

theorem rest_proofs : o.proofs = p.proofs := by
  have e := congrArg Oculus.proofs h
  exact e

theorem rest_authFailures : o.authFailures = p.authFailures := by
  have e := congrArg Oculus.authFailures h
  exact e

theorem rest_vddtxGood : o.vddtxGood = p.vddtxGood := by
  have e := congrArg Oculus.vddtxGood h
  exact e

end

/-! ## The carrier -/

section
variable (s : State) (a : Fin 2)

/-- An antenna that is not driven afresh keeps what it presents. -/
theorem drive_antenna : (drive a s).antenna a = s.antenna a := by
  unfold drive
  split
  · rfl
  · unfold modPresentation
    rw [antenna_modAntenna_ne _ _ _ (other_ne a)]
    rfl

@[simp] theorem antenna_carrierOff : (carrierOff s).antenna a = s.antenna a := rfl

theorem drive_rest : (drive a s).oculus.rest = { s.oculus.rest with driven := some a } := by
  unfold drive
  split
  next h =>
    rw [← h]
    rfl
  · rw [modPresentation_rest]
    rfl

theorem fieldOff_rest : (fieldOff s).oculus.rest = { s.oculus.rest with driven := none } := by
  have h : (modPresentation 1 (fun p => { p with tags := p.tags.map PresentedTag.select })
      (modPresentation 0 (fun p => { p with tags := p.tags.map PresentedTag.select }) s)).oculus.rest = s.oculus.rest :=
    (modPresentation_rest ..).trans (modPresentation_rest ..)
  exact congrArg (fun o : Oculus => { o with driven := none }) h

end

/-! ## Keytags -/

section
variable (s : State) (a : Fin 2)

theorem modTag_rest (uid : List Byte) (f : PresentedTag → PresentedTag) : (modTag a uid f s).oculus.rest = s.oculus.rest :=
  modPresentation_rest ..

theorem exchange_authFailures (uid req : List Byte) : (exchange a uid req s).2.oculus.authFailures = s.oculus.authFailures := by
  unfold exchange
  split
  · rfl
  · dsimp only
    rw [rest_authFailures (modTag_rest ..)]
    rfl

theorem runChallenge_authFailures (uid : List Byte) : (runChallenge a uid s).2.oculus.authFailures = s.oculus.authFailures := by
  unfold runChallenge
  dsimp only
  split
  · exact (exchange_authFailures ..).trans (exchange_authFailures ..)
  · exact exchange_authFailures ..

theorem runPasscode_authFailures (uid : List Byte) : (runPasscode a uid s).2.oculus.authFailures = s.oculus.authFailures :=
  exchange_authFailures ..

end

end Sys2Proof.Machine
end

section
/-! The reader's rows, what a tap of one tag comes to, and what a keytag answers (R405 to R433). -/

namespace Sys2Proof.Machine

/-! ## Pings -/

section
variable {a : Fin 2} {s : State} {amp : Nat} {ph : Int} {poll : List Tag}

theorem pingDue_of_early {l : Nat} (hlast : (s.antenna a).lastPing = some l) (hearly : s.now < l + s.cfg 0x0603 0) : s.pingDue a = false := by
  unfold State.pingDue
  dsimp only
  rw [hlast, Option.all_some, not_due_of_lt hearly, Bool.false_and]

theorem exec_readerPing_of_early {l : Nat} (hlast : (s.antenna a).lastPing = some l) (hearly : s.now < l + s.cfg 0x0603 0) :
    exec (.readerPing a amp ph poll) s = .next s :=
  if_neg (by rw [pingDue_of_early hlast hearly, Bool.and_false]; decide)

/-- The reader as a ping begins: counted, the antenna driven, and the time noted. -/
def State.pinged (s : State) (a : Fin 2) : State :=
  (drive a (countAt 54 1 (s.withOculus { s.oculus with pings := w32 (s.oculus.pings + 1) }))).modAntenna a
    (fun x => { x with lastPing := some s.now })

theorem pinged_antenna : (s.pinged a).antenna a = { s.antenna a with lastPing := some s.now } := by
  rw [State.pinged, antenna_modAntenna, drive_antenna, antenna_of_oculus (countAt_oculus ..)]
  rfl

theorem pinged_rest : (s.pinged a).oculus.rest =
    { s.oculus.rest with pings := w32 (s.oculus.pings + 1), driven := some a } := by
  rw [State.pinged, modAntenna_rest, drive_rest, countAt_oculus]
  rfl

section
variable (hruns : s.readerRuns = true) (hon : s.antennaOn a = true) (hnone : (s.antenna a).presentation = none) (hdue : s.pingDue a = true)
include hruns hon hnone hdue

theorem exec_readerPing_of_quiet (hquiet : (s.antenna a).triggers amp ph (s.cfg 0x0604 0) (s.cfg 0x0605 0) = false) :
    exec (.readerPing a amp ph poll) s = .next (carrierOff ((s.pinged a).modAntenna a (fun x => { x with
      amplitudes := (amp :: x.amplitudes).take 16, phases := (ph :: x.phases).take 16 }))) :=
  (if_pos (by rw [hruns, hon, hnone, hdue]; rfl)).trans (if_neg (by rw [hquiet]; decide))

/-- The reader after a poll, before what it found is looked at. -/
def State.polling (s : State) (a : Fin 2) (poll : List Tag) : State :=
  noteFrames (s.polled poll).1 (countAt 55 1 ((s.pinged a).withOculus { (s.pinged a).oculus with
    polls := w32 ((s.pinged a).oculus.polls + 1) }))

omit hruns hon hnone hdue in
theorem polling_rest : (s.polling a poll).oculus.rest = { s.oculus.rest with
    pings := w32 (s.oculus.pings + 1), driven := some a, polls := w32 ((s.pinged a).oculus.polls + 1), sent := (s.polled poll).1 } := by
  unfold State.polling noteFrames
  rw [countAt_oculus]
  exact congrArg (fun o : Oculus => { o with polls := w32 ((s.pinged a).oculus.polls + 1), sent := (s.polled poll).1 }) pinged_rest

/-- The reader after a poll that found tags, before their tap is treated. -/
def State.tapped (s : State) (a : Fin 2) (tags : List Tag) (now : Nat) : State :=
  (s.withOculus { s.oculus with lastTap := w32 (s.oculus.lastTap + 1) }).modAntenna a (fun x => { x with
    emptyPolls := 0, presentation := some ⟨tags.map PresentedTag.fresh, w32 (s.oculus.lastTap + 1), 0, now, false⟩ })

theorem exec_readerPing_of_found {tag : Tag} {tags : List Tag}
    (htriggers : (s.antenna a).triggers amp ph (s.cfg 0x0604 0) (s.cfg 0x0605 0) = true) (hfound : (s.polled poll).2 = tag :: tags) :
    exec (.readerPing a amp ph poll) s = .next (treatTap a (w32 ((s.polling a poll).oculus.lastTap + 1))
      ((tag :: tags).map PresentedTag.fresh) ((s.polling a poll).tapped a (tag :: tags) s.now)) := by
  change execReaderPing a amp ph poll s = _
  unfold execReaderPing
  dsimp only
  rw [if_pos (by rw [hruns, hon, hnone, hdue]; rfl), if_pos htriggers, hfound]
  rfl

end

theorem tapped_rest {tags : List Tag} {now : Nat} : (s.tapped a tags now).oculus.rest =
    { s.oculus.rest with lastTap := w32 (s.oculus.lastTap + 1) } := by
  rw [State.tapped, modAntenna_rest]
  rfl

end

/-! ## What a poll finds -/

theorem searchTypeA_found (fuel limit : Nat) (path : List ReaderFrame) (level : Nat) (known : List Bool) (tags : List Tag) :
    ∀ t ∈ (searchTypeA fuel limit path level known tags).2, t ∈ tags := by
  induction fuel generalizing limit path level known tags with
  | zero => exact fun t ht => absurd ht List.not_mem_nil
  | succ fuel ih =>
    unfold searchTypeA
    split
    · exact fun t ht => absurd ht List.not_mem_nil
    · next x xs =>
      split
      · exact fun t ht => absurd ht List.not_mem_nil
      · dsimp only
        split
        · intro t ht
          rcases List.mem_append.mp ht with hzero | hone
          · exact (List.mem_filter.mp (ih _ _ _ _ _ t hzero)).1
          · exact (List.mem_filter.mp (ih _ _ _ _ _ t hone)).1
        · split
          · intro t ht
            rw [List.mem_singleton.mp ht]
            exact List.mem_cons_self
          · exact ih _ _ _ _ _

theorem inventory_found (full : Bool) (fuel : Nat) (mask : List Bool) (tags : List Tag) :
    ∀ t ∈ (inventory full fuel mask tags).2, t ∈ tags := by
  induction fuel generalizing mask tags with
  | zero => exact fun t ht => absurd ht List.not_mem_nil
  | succ fuel ih =>
    unfold inventory
    dsimp only
    intro t ht
    rcases List.mem_append.mp ht with halone | hmore
    · obtain ⟨n, _, hn⟩ := List.mem_filterMap.mp halone
      split at hn
      next x hx =>
        have hmem : x ∈ tags.filter (fun t => slotOf mask t == some n) := by rw [hx]; exact List.mem_cons_self
        rw [← Option.some.inj hn]
        exact (List.mem_filter.mp hmem).1
      · cases hn
    · obtain ⟨x, hx, htx⟩ := List.mem_flatMap.mp hmore
      split at hx
      · exact absurd hx List.not_mem_nil
      · obtain ⟨n, _, rfl⟩ := List.mem_map.mp hx
        exact (List.mem_filter.mp (ih _ _ t htx)).1

theorem polled_found (s : State) (poll : List Tag) : (s.polled poll).2.length ≤ 8 ∧ ∀ t ∈ (s.polled poll).2, t ∈ poll := by
  unfold State.polled fullPoll
  dsimp only
  refine ⟨List.length_take_le 8 _, fun t ht => ?_⟩
  rcases List.mem_append.mp (List.mem_of_mem_take ht) with hA | hV
  · split at hA
    · exact (List.mem_filter.mp (searchTypeA_found _ _ _ _ _ _ t hA)).1
    · exact absurd hA List.not_mem_nil
  · split at hV
    · exact (List.mem_filter.mp (inventory_found _ _ _ _ t hV)).1
    · exact absurd hV List.not_mem_nil

/-! ## Presentations -/

section
variable {a : Fin 2} {s : State} {p : Presentation}

/-- The reader as it checks a presentation: the antenna driven and the check's frames sent. -/
def State.checking (s : State) (a : Fin 2) (p : Presentation) : State :=
  noteFrames (p.tags.flatMap (fun x => checkFrames s.fullModulation x.tag)) (drive a s)

theorem checking_antenna : (s.checking a p).antenna a = s.antenna a := drive_antenna s a

theorem checking_rest : (s.checking a p).oculus.rest = { s.oculus.rest with
    driven := some a, sent := p.tags.flatMap (fun x => checkFrames s.fullModulation x.tag) } :=
  
  congrArg (fun o : Oculus => { o with sent := p.tags.flatMap (fun x : PresentedTag => checkFrames s.fullModulation x.tag) }) (drive_rest s a)

theorem exec_presentationCheck_of_early {x : Bool} (hsome : (s.antenna a).presentation = some p) (hearly : s.now < p.checkedAt + 100) :
    exec (.presentationCheck a x) s = .next s := by
  change execPresentationCheck a x s = _
  unfold execPresentationCheck
  rw [hsome]
  exact if_neg (by rw [not_due_of_lt hearly, Bool.and_false]; decide)

theorem exec_presentationCheck_of_due {x : Bool} (hup : s.up .cd9 = true) (hsome : (s.antenna a).presentation = some p)
    (hdue : p.checkedAt + 100 ≤ s.now) : exec (.presentationCheck a x) s = .next (if 3 ≤ (p.check s.now x).failedChecks
      then carrierOff ((s.checking a p).modAntenna a (fun x => { x with presentation := none }))
      else modPresentation a (fun p => p.check s.now x) (s.checking a p)) := by
  change execPresentationCheck a x s = _
  unfold execPresentationCheck
  rw [hsome]
  exact if_pos (by rw [hup, due_of_le hdue]; rfl)

/-- The third check that fails ends the presentation. -/
theorem exec_presentationCheck_of_third (hup : s.up .cd9 = true) (hsome : (s.antenna a).presentation = some p)
    (hdue : p.checkedAt + 100 ≤ s.now) (hfailed : p.failedChecks = 2) :
    ∃ t, exec (.presentationCheck a false) s = .next t ∧ (t.antenna a).presentation = none ∧ t.oculus.driven = none ∧
      t.oculus.sent = p.tags.flatMap (fun x => checkFrames s.fullModulation x.tag) := by
  have hthird : 3 ≤ (p.check s.now false).failedChecks := by
    change 3 ≤ p.failedChecks + 1
    omega
  rw [exec_presentationCheck_of_due hup hsome hdue, if_pos hthird]
  refine ⟨_, rfl, ?_, rfl, ?_⟩
  · exact congrArg Antenna.presentation (antenna_modAntenna (s.checking a p) a _)
  · exact (rest_sent (modAntenna_rest (s.checking a p) a _)).trans (congrArg Oculus.sent (checking_rest (a := a)))

theorem exec_presentationCheck_of_answered (hup : s.up .cd9 = true) (hsome : (s.antenna a).presentation = some p)
    (hdue : p.checkedAt + 100 ≤ s.now) : ∃ t, exec (.presentationCheck a true) s = .next t ∧ (t.antenna a).presentation = some { p with
      failedChecks := 0, checkedAt := s.now, tags := p.tags.map PresentedTag.select } ∧ t.oculus.driven = some a := by
  have hfew : ¬ 3 ≤ (p.check s.now true).failedChecks := by
    change ¬ 3 ≤ 0
    decide
  rw [exec_presentationCheck_of_due hup hsome hdue, if_neg hfew]
  refine ⟨_, rfl, ?_, ?_⟩
  · rw [modPresentation_presentation, checking_antenna, hsome]
    rfl
  · exact (rest_driven (modPresentation_rest (s.checking a p) a _)).trans (congrArg Oculus.driven (checking_rest (p := p)))

end

/-! ## What expires, and the reach of a keytag -/

section
variable {s : State} (hup : s.up .cd9 = true)
include hup

theorem exec_heldTapExpiry_of_one {tap : Nat} {h : HeldTap} (hone : s.oculus.held = [h]) (htap : h.tap = tap)
    (hlate : h.at_ + 120000 < s.now) : exec (.heldTapExpiry tap) s = .next (s.withOculus { s.oculus with held := [] }) := by
  have hrest : [h].filter (fun h => !(h.tap == tap && decide (h.at_ + 120000 < s.now))) = [] := by simp [htap, hlate]
  change execHeldTapExpiry tap s = _
  rw [execHeldTapExpiry, if_pos hup, hone, hrest]

theorem exec_proofExpiry_of_one {id : Nat} {p : Proof} (hone : s.oculus.proofs = [p]) (hid : p.id = id)
    (hlate : p.at_ + 120000 ≤ s.now) : exec (.proofExpiry id) s = .next (s.withOculus { s.oculus with proofs := [] }) := by
  have hrest : [p].filter (fun p => !(p.id == id && s.due (p.at_ + 120000))) = [] := by simp [hid, due_of_le hlate]
  change execProofExpiry id s = _
  rw [execProofExpiry, if_pos hup, hone, hrest]

theorem exec_keytagReachAgain_of_late {a : Fin 2} {x : ReachRun} (hreach : s.oculus.reach = some x) (ha : x.antenna = a)
    (hlate : x.lostAt + 300 < s.now) (r : Option (List Fate)) : exec (.keytagReachAgain a r) s = .next (endReach x none s) := by
  change execKeytagReachAgain a r s = _
  unfold execKeytagReachAgain
  rw [hreach]
  exact (if_pos (by rw [hup, ha]; simp)).trans (if_pos (decide_eq_true hlate))

theorem exec_keytagReachAgain_of_reached {a : Fin 2} {x : ReachRun} {y : List Fate} (hreach : s.oculus.reach = some x)
    (ha : x.antenna = a) (hsoon : s.now ≤ x.lostAt + 300) (hspaced : s.mayAuthenticate x.uid = true) :
    exec (.keytagReachAgain a (some y)) s = .next (endReach x (some y) s) := by
  change execKeytagReachAgain a (some y) s = _
  unfold execKeytagReachAgain
  rw [hreach]
  exact (if_pos (by rw [hup, ha]; simp)).trans ((if_neg (by simpa using hsoon)).trans (if_pos (by rw [hspaced]; rfl)))

theorem exec_tagTxnTimeout_of_waiting {a : Fin 2} {c : Channel} {b : TxnBody} (htxn : s.txnOn a = some (c, b)) (hwaits : b.state = 0)
    (hdue : b.deadlineAt ≤ s.now) : exec (.tagTxnTimeout a) s =
      .next (destroyChannel c 0x8021 4 (finish b.wait stTagAbsent (zeros 16) s)) := by
  change execTagTxnTimeout a s = _
  unfold execTagTxnTimeout
  rw [htxn]
  exact if_pos (by rw [hup, hwaits, due_of_le hdue]; rfl)

end

/-! ## The transmit supply -/

theorem readerRuns_of_low {s : State} (h : s.oculus.vddtxGood = false) : s.readerRuns = false := by
  unfold State.readerRuns
  rw [h, Bool.and_false, Bool.false_and]

theorem exec_vddtxLow_rest (s : State) : ∃ t, exec .vddtxLow s = .next t ∧ t.oculus.vddtxGood = false ∧ t.oculus.driven = none ∧
    t.readerRuns = false ∧ t.oculus.held = s.oculus.held ∧ t.oculus.proofs = s.oculus.proofs := by
  have hrest := fieldOff_rest (s.withOculus { s.oculus with vddtxGood := false })
  have hgood := congrArg Oculus.vddtxGood hrest
  have hdriven := congrArg Oculus.driven hrest
  have hheld := congrArg Oculus.held hrest
  have hproofs := congrArg Oculus.proofs hrest
  exact ⟨_, rfl, hgood, hdriven, readerRuns_of_low hgood, hheld, hproofs⟩

theorem antennaLow_of_other {s : State} {a : Fin 2} (h : s.readerRuns = false ∨ s.oculus.driven = some (1 - a)) : s.antennaLow a = true := by
  unfold State.antennaLow
  rcases h with h | h
  · rw [h]
    rfl
  · have hne : (some (1 - a) : Option (Fin 2)) ≠ some a := fun e => other_ne a (Option.some.inj e)
    rw [h, bne_iff_ne.mpr hne, Bool.or_true]

/-! ## A tap of one tag -/

section
variable {a : Fin 2} {x : PresentedTag} {tap : Nat} {s : State}

theorem treatSingle_of_locked (hkeytag : isKeytag x.tag = true) (hnone : x.tag.attemptsLeft = 0) (hkept : x.tag.blank = false) :
    treatSingle a x tap s = (⟨8, none, 0⟩, s) :=
  if_pos (by rw [hkeytag, hnone, hkept]; rfl)

section
variable (hleft : x.tag.attemptsLeft ≠ 0) (hkind : x.tag.kind = .keytagV2)
include hleft hkind

theorem authenticateTap_of_v2 : ¬ (isKeytag x.tag && x.tag.attemptsLeft == 0 && !x.tag.blank) = true ∧
    authenticateTap a x s = (secureTag a x s).2 := by
  refine ⟨?_, if_pos hkind⟩
  simp [hleft]

theorem treatSingle_of_failed (hfailed : ((secureTag a x s).2.tagNow a x).passed = false) :
    treatSingle a x tap s = (⟨7, none, 0⟩, (secureTag a x s).2) := by
  obtain ⟨hopen, hauth⟩ := authenticateTap_of_v2 (a := a) (s := s) hleft hkind
  unfold treatSingle
  dsimp only
  rw [if_neg hopen, hauth, if_pos (by rw [hkind, hfailed]; rfl)]

theorem treatSingle_of_installer (hpassed : ((secureTag a x s).2.tagNow a x).passed = true)
    (hnow : ((secureTag a x s).2.tagNow a x).tag.kind = .keytagV2) (hrole : roleIn ((secureTag a x s).2.tagNow a x).tag = 2) :
    (treatSingle a x tap s).1.outcome = 5 ∧ (treatSingle a x tap s).1.port = none ∧ (treatSingle a x tap s).1.proof ≠ 0 := by
  obtain ⟨hopen, hauth⟩ := authenticateTap_of_v2 (a := a) (s := s) hleft hkind
  have htag : tagRole ((secureTag a x s).2.tagNow a x) = 2 := by
    unfold tagRole
    rw [if_pos hnow, if_pos hpassed, hrole]
  have heq : treatSingle a x tap s = (⟨5, none, (issueProof a x.tag.uid 2 (secureTag a x s).2).1⟩,
      (issueProof a x.tag.uid 2 (secureTag a x s).2).2) := by
    unfold treatSingle
    dsimp only
    rw [if_neg hopen, hauth, if_neg (by rw [hpassed]; simp), if_pos (Or.inl htag), htag]
  rw [heq]
  exact ⟨rfl, rfl, Nat.succ_ne_zero _⟩

end

section
variable (hkind : x.tag.kind = .typeA) (hsame : s.tagNow a x = x)
include hkind hsame

/-- A type A tag that is no keytag: the list and the candidates decide. -/
theorem treatSingle_of_typeA : treatSingle a x tap s =
    if (s.listEntryFor x.tag).any (·.deny) then (⟨9, none, 0⟩, s)
    else
      match s.tapCandidates a x.tag.uid s.time with
      | [] => (⟨4, none, 0⟩, s)
      | [p] =>
        match s.listEntryFor x.tag with
        | some e =>
          if s.canAuthorise then (⟨1, some p, 0⟩, authorisePort p 2 e.capMa x.tag.uid s)
          else (⟨2, none, 0⟩, holdTap a x.tag.uid tap s)
        | none => (⟨2, none, 0⟩, holdTap a x.tag.uid tap s)
      | _ => (⟨3, none, 0⟩, holdTap a x.tag.uid tap s) := by
  have hopen : ¬ (isKeytag x.tag && x.tag.attemptsLeft == 0 && !x.tag.blank) = true := by simp [isKeytag, hkind]
  have hauth : authenticateTap a x s = s := if_neg (by rw [hkind]; decide)
  have hrole : ¬ (tagRole x = 2 ∨ tagRole x = 3) := by
    unfold tagRole
    rw [if_neg (by rw [hkind]; decide)]
    decide
  unfold treatSingle
  dsimp only
  rw [if_neg hopen, hauth, hsame, if_neg (by rw [hkind]; simp), if_neg hrole] <;> rfl

theorem treatSingle_of_denied {e : AuthEntry} (hentry : s.listEntryFor x.tag = some e) (hdeny : e.deny = true) :
    treatSingle a x tap s = (⟨9, none, 0⟩, s) := by
  rw [treatSingle_of_typeA hkind hsame, hentry]
  exact if_pos hdeny

theorem treatSingle_of_no_port (hentry : s.listEntryFor x.tag = none) (hnone : s.tapCandidates a x.tag.uid s.time = []) :
    treatSingle a x tap s = (⟨4, none, 0⟩, s) := by
  rw [treatSingle_of_typeA hkind hsame, hentry, hnone]
  rfl

theorem treatSingle_of_unlisted {p : Port} (hentry : s.listEntryFor x.tag = none) (hone : s.tapCandidates a x.tag.uid s.time = [p]) :
    treatSingle a x tap s = (⟨2, none, 0⟩, holdTap a x.tag.uid tap s) := by
  rw [treatSingle_of_typeA hkind hsame, hentry, hone]
  rfl

theorem treatSingle_of_listed {p : Port} {e : AuthEntry} (hentry : s.listEntryFor x.tag = some e) (hallow : e.deny = false)
    (hone : s.tapCandidates a x.tag.uid s.time = [p]) (hcan : s.canAuthorise = true) :
    treatSingle a x tap s = (⟨1, some p, 0⟩, authorisePort p 2 e.capMa x.tag.uid s) := by
  rw [treatSingle_of_typeA hkind hsame, hentry, hone]
  exact (if_neg (by rw [Option.any_some, hallow]; decide)).trans (if_pos hcan)

end

theorem holdTap_mem (uid : List Byte) : ⟨tap, s.time, s.now, a, uid⟩ ∈ (holdTap a uid tap s).oculus.held := by
  unfold holdTap
  rw [withOculus_oculus, List.drop_append_of_le_length (by omega)]
  exact List.mem_append_right _ List.mem_cons_self

end

section
variable (a : Fin 2) (t : Tag) (s : State)

/-- Whether an authentication of the tag can be made. -/
def State.canAttempt (s : State) (t : Tag) : Bool := s.cupolaServes && (t.kind != .keytagV2 || s.cupola.rngHealthy)

/-- The exchange of an authentication. -/
def State.tried (s : State) (a : Fin 2) (t : Tag) : Bool × State :=
  let s1 := noteAuth t.uid (modPresentation a (fun p => { p with attempted := true }) s)
  if !s.canAttempt t then (false, s)
  else if t.kind = .keytagV2 then runChallenge a t.uid (countAt 53 1 s1)
  else runPasscode a t.uid s1

theorem tried_authFailures : (s.tried a t).2.oculus.authFailures = s.oculus.authFailures := by
  have hnoted : (noteAuth t.uid (modPresentation a (fun p => { p with attempted := true }) s)).oculus.authFailures =
      s.oculus.authFailures := by
    have hsame := rest_authFailures (modPresentation_rest s a (fun p => { p with attempted := true }))
    exact hsame
  unfold State.tried
  dsimp only
  split
  · rfl
  · split
    · rw [runChallenge_authFailures, countAt_oculus, hnoted]
    · rw [runPasscode_authFailures, hnoted]

/-- What Lantern is told of an authentication that was made. -/
def State.told (s : State) (a : Fin 2) (t : Tag) : State :=
  if s.canAttempt t then traceEnclave 2 2 (b1 !(s.tried a t).1) (s.tried a t).2 else (s.tried a t).2

theorem told_oculus : (s.told a t).oculus = (s.tried a t).2.oculus := by
  unfold State.told
  split
  · exact trace_oculus ..
  · rfl

theorem attempt_eq : attempt a t s = if (s.tried a t).1 then (true, modTag a t.uid (fun x => { x with passed := t.kind == .keytagV2 }) (s.told a t))
    else (false, (s.told a t).withOculus { (s.told a t).oculus with authFailures := w32 ((s.told a t).oculus.authFailures + 1) }) := rfl

/-- An authentication that fails is counted. -/
theorem attempt_of_failed (h : (attempt a t s).1 = false) :
    (attempt a t s).2.oculus.authFailures = w32 (s.oculus.authFailures + 1) := by
  rw [attempt_eq] at h ⊢
  split at h
  · cases h
  next hfailed =>
    rw [if_neg hfailed, withOculus_oculus, told_oculus, tried_authFailures]

end

/-! ## What a keytag answers without SECURED -/

section
variable {g : Nat} {x : PresentedTag} {req : List Byte} (hopen : x.secured = false)
include hopen

theorem answer_of_shadow (hcommand : field req 0 1 ∈ [0xB2, 0xB3, 0xB4]) : (x.answer g req).1 = le 1 1 ∧ (x.answer g req).2.tag = x.tag := by
  simp only [List.mem_cons, List.not_mem_nil, or_false] at hcommand
  unfold PresentedTag.answer
  dsimp only
  rcases hcommand with h | h | h
  · rw [h, hopen]
    exact ⟨rfl, rfl⟩
  · rw [h, hopen]
    exact ⟨rfl, rfl⟩
  · rw [h, hopen]
    exact ⟨rfl, rfl⟩

theorem answer_of_high_block (hcommand : field req 0 1 = 0xB1) (hhigh : 15 < field req 1 1) : (x.answer g req).1 = le 1 1 := by
  unfold PresentedTag.answer
  dsimp only
  rw [hcommand, hopen, decide_eq_false (Nat.not_le.mpr hhigh), Bool.or_false, Bool.and_false, Bool.false_and]
  rfl

theorem answer_of_spent (hkept : x.tag.blank = false) (hnone : x.tag.attemptsLeft = 0) (hkind : x.tag.kind = .keytagV2)
    (hcommand : field req 0 1 ∈ [0xB5, 0xB6]) : (x.answer g req).1 = le 1 4 ∧ (x.answer g req).2.secured = false := by
  simp only [List.mem_cons, List.not_mem_nil, or_false] at hcommand
  unfold PresentedTag.answer
  dsimp only
  rcases hcommand with h | h
  · rw [h, hopen, hkept, hnone]
    exact ⟨rfl, rfl⟩
  · rw [h, hopen, hkept, hnone, hkind]
    exact ⟨rfl, rfl⟩

theorem answer_of_wrong_password (hkept : x.tag.blank = false) (hleft : x.tag.attemptsLeft ≠ 0) (hstrict : x.tag.obliging = false)
    (hcommand : field req 0 1 = 0xB5) (hwrong : slice req 1 4 ≠ x.tag.password) : (x.answer g req).1 = le 1 3 ∧
      (x.answer g req).2.tag.attemptsLeft = x.tag.attemptsLeft - 1 ∧ (x.answer g req).2.secured = false := by
  have hright : (x.tag.obliging || slice req 1 4 == x.tag.password) = false := by rw [hstrict, Bool.false_or, beq_eq_false_iff_ne]; exact hwrong
  have heq : x.answer g req = (le 1 3, { x with challenge := none, secured := false }.spend) := by
    unfold PresentedTag.answer
    dsimp only
    rw [hcommand, hopen, hkept]
    refine (if_neg (by decide)).trans ((if_neg hleft).trans (if_neg ?_))
    rw [hright]
    decide
  rw [heq]
  exact ⟨rfl, rfl, rfl⟩

end

/-- Settles O48. How long a held tap and a proof serve and how authentications are spaced (log 119), that a blank keytag v2 and one met while
the Cupola or its generator does not serve fail authentication (log 115), and the ends of a transaction that the rules leave open (log 207), are
the model's choices. -/
theorem readerRowsHold : Obligations.ReaderRows := by
  unfold Obligations.ReaderRows
  refine ⟨?quiet, ?found, fun a amp ph poll s l => exec_readerPing_of_early, fun a s p => exec_presentationCheck_of_third,
    fun a s p x => exec_presentationCheck_of_early, polled_found, fun a s p => exec_presentationCheck_of_answered,
    fun tap s h hup => exec_heldTapExpiry_of_one hup, fun id s p hup => exec_proofExpiry_of_one hup,
    fun a s x hup => exec_keytagReachAgain_of_late hup, fun a s x y hup => exec_keytagReachAgain_of_reached hup,
    fun a s c b hup => exec_tagTxnTimeout_of_waiting hup, exec_vddtxLow_rest, fun _ => rfl, fun s => readerRuns_of_low,
    fun s a => antennaLow_of_other, fun a x tap s => treatSingle_of_locked, fun a x tap s hleft hkind => treatSingle_of_failed hleft hkind,
    attempt_of_failed, fun a x tap s hleft hkind => treatSingle_of_installer hleft hkind,
    fun a x tap s e hkind hsame => treatSingle_of_denied hkind hsame, fun a x tap s hkind hsame => treatSingle_of_no_port hkind hsame,
    ?unlisted, fun a x tap s p e hkind hsame => treatSingle_of_listed hkind hsame, fun g x req => answer_of_shadow,
    fun g x req => answer_of_high_block, fun g x req => answer_of_spent, ?wrong⟩
  case quiet =>
    intro a amp ph poll s hruns hon hnone hdue hquiet
    have hpolls := congrArg Oculus.polls (pinged_rest (s := s) (a := a))
    rw [exec_readerPing_of_quiet hruns hon hnone hdue hquiet]
    refine ⟨_, rfl, ?_, ?_, ?_, ?_, ?_, rfl⟩
    · rw [antenna_carrierOff, antenna_modAntenna, pinged_antenna]
    · rw [antenna_carrierOff, antenna_modAntenna, pinged_antenna]
    · exact (rest_pings (modAntenna_rest (s.pinged a) a _)).trans (congrArg Oculus.pings (pinged_rest (a := a)))
    · exact (rest_polls (modAntenna_rest (s.pinged a) a _)).trans hpolls
    · rw [antenna_carrierOff, antenna_modAntenna, pinged_antenna]
  case found =>
    intro a amp ph poll s tag tags hruns hon hnone hdue htriggers hfound
    have hlast := congrArg Oculus.lastTap (polling_rest (s := s) (a := a) (poll := poll))
    have hlast : (s.polling a poll).oculus.lastTap = s.oculus.lastTap := hlast
    have htap := congrArg Oculus.lastTap (tapped_rest (s := s.polling a poll) (a := a) (tags := tag :: tags) (now := s.now))
    rw [exec_readerPing_of_found hruns hon hnone hdue htriggers hfound, hlast]
    refine ⟨_, rfl, ?_, ?_, ?_, ?_⟩
    · refine htap.trans ?_
      rw [← hlast]
    · exact (congrArg Oculus.sent (tapped_rest (s := s.polling a poll) (a := a))).trans (congrArg Oculus.sent (polling_rest (a := a)))
    · exact (congrArg Oculus.driven (tapped_rest (s := s.polling a poll) (a := a))).trans (congrArg Oculus.driven (polling_rest (poll := poll)))
    · rw [State.tapped, antenna_modAntenna, hlast]
  case unlisted =>
    intro a x tap s p hkind hsame hentry hone
    rw [treatSingle_of_unlisted hkind hsame hentry hone]
    exact ⟨rfl, holdTap_mem _⟩
  case wrong =>
    intro g x req hopen hkept hleft hstrict hcommand hwrong
    exact answer_of_wrong_password hopen hkept hleft hstrict hcommand hwrong

end Sys2Proof.Machine
end

section
/-! The key commands (R445 to R449, R456). -/

namespace Sys2Proof.Machine

/-! ## The slots -/

section
variable {s t : State}

theorem keySlot_of_cupola (h : s.cupola = t.cupola) (i : Fin 6) : s.keySlot i = t.keySlot i := by
  unfold State.keySlot
  rw [h]

theorem cupolaRefusal_of_unlinked (h : s.unlinked = t.unlinked) : s.cupolaRefusal = t.cupolaRefusal := by
  unfold State.cupolaRefusal
  rw [unlinked_cupola h, unlinked_up h]

@[simp] theorem keySlot_setKeySlot (i : Fin 6) (k : KeySlot) : (s.setKeySlot i k).keySlot i = k := by
  simp [State.setKeySlot, State.keySlot]

theorem keySlot_setKeySlot_ne {i j : Fin 6} (k : KeySlot) (h : j ≠ i) : (s.setKeySlot i k).keySlot j = s.keySlot j := by
  have hne : i.val ≠ j.val := fun e => h (Fin.ext e.symm)
  simp [State.setKeySlot, State.keySlot, hne]

@[simp] theorem finish_keySlot (w : Waiting) (st : Nat) (pl : List Byte) (i : Fin 6) : (finish w st pl s).keySlot i = s.keySlot i :=
  keySlot_of_cupola (finish_cupola ..) i

@[simp] theorem raise_keySlot (code : Nat) (port : Option Port) (pl : List Byte) (i : Fin 6) :
    (raise code port pl s).keySlot i = s.keySlot i := keySlot_of_cupola (raise_cupola ..) i

@[simp] theorem traceEnclave_keySlot (op slot result : Nat) (i : Fin 6) : (traceEnclave op slot result s).keySlot i = s.keySlot i :=
  keySlot_of_cupola (trace_cupola ..) i

@[simp] theorem accept_keySlot (r : Req) (i : Fin 6) : (accept r s).keySlot i = s.keySlot i := keySlot_of_cupola (accept_cupola ..) i

theorem taken_keySlot (b : Box) (f : Frame) (i : Fin 6) : (taken b f s).keySlot i = s.keySlot i :=
  keySlot_of_cupola (unlinked_cupola (taken_unlinked ..)) i

end

/-! ## The requests -/

section
variable {b : Box} {f : Frame} {r : Req} {s : State}

theorem Asked.exec_keyStatus (h : Asked b 0x0901 f r s) : exec (.keyStatus b) s = .next (keyStatus r (taken b f s)) := h.request keyStatus
theorem Asked.exec_keyStage (h : Asked b 0x0902 f r s) : exec (.keyStage b) s = .next (keyStage r (taken b f s)) := h.request keyStage
theorem Asked.exec_keyVerify (h : Asked b 0x0903 f r s) : exec (.keyVerify b) s = .next (keyVerify r (taken b f s)) := h.request keyVerify
theorem Asked.exec_keyCommit (h : Asked b 0x0904 f r s) : exec (.keyCommit b) s = .next (keyCommit announceKey r (taken b f s)) :=
  h.request (keyCommit announceKey)
theorem Asked.exec_keyAbort (h : Asked b 0x0905 f r s) : exec (.keyAbort b) s = .next (keyAbort r (taken b f s)) := h.request keyAbort

end

/-! ## The handlers -/

section
variable {r : Req} {s : State} {i : Fin 6} (hhandle : r.handle = 0) (hslot : slotIx (field r.payload 0 1) = some i)
  (hserves : s.cupolaRefusal = none)
include hhandle hslot hserves

theorem keyCommand_of_slot {len : Nat} {k : Fin 6 → State → State} (hlen : r.payload.length = len) : keyCommand len true r k s = k i s := by
  unfold keyCommand
  rw [withLength_of_length hlen, noHandle_of_zero hhandle, hslot]
  dsimp only
  rw [Bool.not_true, if_neg Bool.false_ne_true, hserves]

theorem keyStage_of_wrapped {key : List Byte} (hlen : r.payload.length = 28) (hown : i.val ≠ 5) (hsource : field r.payload 1 1 = 0)
    (hunwrap : keyUnwrap (s.sessionKey r.box) (slice r.payload 4 24) = some key) : keyStage r s = stageKey r i key [] s := by
  unfold keyStage
  dsimp only
  rw [hsource]
  refine (keyCommand_of_slot hhandle hslot hserves hlen).trans ?_
  rw [if_neg (fun h => hown h.1), if_neg (by decide), hunwrap]

theorem keyVerify_of_staged {key : List Byte} (hlen : r.payload.length = 36) (hstaged : (s.keySlot i).staged = some key)
    (hcheck : fromLe (keyCheck key) = (s.keySlot i).stagedCheck) (hzero : isZero (slice r.payload 20 16) = true) :
    keyVerify r s = acceptDone r stOk (cmac key (slice r.payload 4 16)) (s.setKeySlot i { s.keySlot i with verified := true }) := by
  unfold keyVerify
  rw [keyCommand_of_slot hhandle hslot hserves hlen]
  dsimp only
  rw [hstaged]
  exact if_pos ⟨hcheck, Or.inl hzero⟩

theorem keyCommit_of_verified {key : List Byte} {after : State → State} (hlen : r.payload.length = 8) (hown : i.val ≠ 5)
    (hstaged : (s.keySlot i).staged = some key) (hverified : (s.keySlot i).verified = true)
    (hcheck : field r.payload 4 4 = (s.keySlot i).stagedCheck) : keyCommit after r s = commitKey r i key s := by
  unfold keyCommit
  rw [keyCommand_of_slot hhandle hslot hserves hlen]
  dsimp only
  rw [hstaged, hverified]
  exact (if_neg (by decide)).trans ((if_neg (not_not_intro hcheck)).trans (if_neg hown))

theorem keyCommit_of_unverified {key : List Byte} {after : State → State} (hlen : r.payload.length = 8)
    (hstaged : (s.keySlot i).staged = some key) (hverified : (s.keySlot i).verified = false) :
    keyCommit after r s = refuse r stRefusedState s := by
  unfold keyCommit
  rw [keyCommand_of_slot hhandle hslot hserves hlen]
  dsimp only
  rw [hstaged, hverified]
  exact if_pos rfl

theorem keyAbort_of_staged {key : List Byte} (hlen : r.payload.length = 4) (hstaged : (s.keySlot i).staged = some key) :
    keyAbort r s = acceptDone r stOk [] (s.setKeySlot i { s.keySlot i with staged := none, verified := false }) := by
  unfold keyAbort
  rw [keyCommand_of_slot hhandle hslot hserves hlen, hstaged]

end

section
variable (r : Req) (i : Fin 6) (key : List Byte) (s : State)

theorem stageKey_keySlot (wrapped : List Byte) : (stageKey r i key wrapped s).keySlot i =
    { s.keySlot i with staged := some key, stagedCheck := fromLe (keyCheck key), verified := false } := by
  unfold stageKey
  dsimp only
  rw [finish_keySlot, traceEnclave_keySlot, keySlot_setKeySlot]

/-- The slot of a committed key is set; the selector's copies are Cupola's own. -/
theorem commitKey_keySlot (hown : i.val ≠ 5) : (commitKey r i key s).keySlot i = (s.keySlot i).commit key false ∧
    ∀ j, j ≠ i → (commitKey r i key s).keySlot j = s.keySlot j := by
  have hnet : (i.val == 5) = false := beq_eq_false_iff_ne.mpr hown
  have hselect : ∀ (u : State) (x : Fin 7) (j : Fin 6), (u.withCupola (u.cupola.select x)).keySlot j = u.keySlot j := fun _ _ _ => rfl
  unfold commitKey
  dsimp only
  rw [hnet]
  constructor
  · rw [finish_keySlot, raise_keySlot, traceEnclave_keySlot, if_neg Bool.false_ne_true, keySlot_setKeySlot]
  · intro j hne
    rw [finish_keySlot, raise_keySlot, traceEnclave_keySlot, if_neg Bool.false_ne_true, keySlot_setKeySlot_ne _ hne, hselect, accept_keySlot]

end

/-- Settles O50. -/
theorem keyCommands : Obligations.KeyCommands := by
  unfold Obligations.KeyCommands
  refine ⟨?status, ?stage, ?verify, ?commit, ?unverified, ?abort⟩
  case status =>
    rintro b f r s hasked ⟨hempty, hhandle⟩
    rw [hasked.exec_keyStatus]
    unfold keyStatus
    rw [withLength_of_empty hempty, noHandle_of_zero hhandle]
  case stage =>
    intro b f r s i key hasked hlen hhandle hslot hown hsource hserves hunwrap
    have hserves' : (taken b f s).cupolaRefusal = none := (cupolaRefusal_of_unlinked (taken_unlinked ..)).trans hserves
    refine ⟨_, hasked.exec_keyStage, ?_⟩
    rw [keyStage_of_wrapped hhandle hslot hserves' hlen hown hsource hunwrap, stageKey_keySlot, taken_keySlot]
    exact ⟨rfl, rfl, rfl, rfl⟩
  case verify =>
    intro b f r s i key hasked hlen hhandle hslot hserves hstaged hcheck hzero
    have hserves' : (taken b f s).cupolaRefusal = none := (cupolaRefusal_of_unlinked (taken_unlinked ..)).trans hserves
    have hsame := taken_keySlot (s := s) b f i
    rw [hasked.exec_keyVerify, keyVerify_of_staged hhandle hslot hserves' hlen (by rw [hsame, hstaged]) (by rw [hsame, hcheck]) hzero, hsame]
  case commit =>
    intro b f r s i key hasked hlen hhandle hslot hown hserves hstaged hverified hcheck
    have hserves' : (taken b f s).cupolaRefusal = none := (cupolaRefusal_of_unlinked (taken_unlinked ..)).trans hserves
    have hsame := taken_keySlot (s := s) b f
    obtain ⟨hcommitted, hothers⟩ := commitKey_keySlot r i key (taken b f s) hown
    refine ⟨_, hasked.exec_keyCommit, ?_⟩
    rw [keyCommit_of_verified hhandle hslot hserves' hlen hown (by rw [hsame, hstaged]) (by rw [hsame, hverified]) (by rw [hsame, hcheck]),
      hcommitted, hsame]
    exact ⟨rfl, rfl, rfl, fun j hne => (hothers j hne).trans (hsame j)⟩
  case unverified =>
    intro b f r s i key hasked hlen hhandle hslot hserves hstaged hverified
    have hserves' : (taken b f s).cupolaRefusal = none := (cupolaRefusal_of_unlinked (taken_unlinked ..)).trans hserves
    have hsame := taken_keySlot (s := s) b f i
    rw [hasked.exec_keyCommit, keyCommit_of_unverified hhandle hslot hserves' hlen (by rw [hsame, hstaged]) (by rw [hsame, hverified])]
    rfl
  case abort =>
    intro b f r s i key hasked hlen hhandle hslot hserves hstaged
    have hserves' : (taken b f s).cupolaRefusal = none := (cupolaRefusal_of_unlinked (taken_unlinked ..)).trans hserves
    have hsame := taken_keySlot (s := s) b f i
    rw [hasked.exec_keyAbort, keyAbort_of_staged hhandle hslot hserves' hlen (by rw [hsame, hstaged]), hsame]

end Sys2Proof.Machine
end

section
/-! Cupola's own rows (R443, R449 to R454): re-anchoring, the random generator, destruction, and re-provisioning. -/

namespace Sys2Proof.Machine

/-! ## What the end of a session leaves of the other mailboxes -/

section
variable (s : State)

theorem destroyChannel_staging (c : Channel) (code reason : Nat) : (destroyChannel c code reason s).staging = s.staging := by
  unfold destroyChannel
  rw [raiseAlso_staging]
  rfl

theorem destroyAll_staging (cs : List Channel) (reason : Nat) : (destroyAll cs reason s).staging = s.staging :=
  foldl_staging (fun c t => destroyChannel_staging t c _ _) cs s

theorem releaseSupervisor_staging (b : Box) : (releaseSupervisor b s).staging = s.staging := by
  unfold releaseSupervisor
  split
  · split
    · rw [raise_staging]
      rfl
    · rfl
  · rfl

theorem endSession_staging_ne {b c : Box} (h : b ≠ c) : (endSession b s).staging c = s.staging c := by
  unfold endSession
  split
  · rfl
  · dsimp only
    rw [releaseSupervisor_staging, destroyAll_staging, State.staging, box_setBox_ne _ _ h]
    rfl

end

/-! ## Keyed sessions end with the keys -/

/-- A mailbox has no session that is keyed. -/
def State.Unkeyed (s : State) (b : Box) : Prop := (s.staging b).keyed = false

/-- What destruction does to one mailbox: its attach is abandoned and its keyed session ends. -/
def unkey (s : State) (b : Box) : State :=
  let s1 := s.modBox b (fun m => { m with attach := none })
  if (s1.box b).session.any (·.keyed) then endSession b s1 else s1

section
variable (s : State)

theorem modBox_attach_staging (b : Box) : (s.modBox b (fun m => { m with attach := none })).staging = s.staging :=
  modBox_staging (fun _ => rfl)

theorem unkey_self (b : Box) : (unkey s b).Unkeyed b := by
  unfold unkey
  dsimp only
  generalize s.modBox b (fun m => { m with attach := none }) = t
  split
  next hkeyed =>
    have hsome : (t.box b).session.isSome = true := by
      cases hsession : (t.box b).session with
      | none => rw [hsession] at hkeyed; cases hkeyed
      | some ss => rfl
    unfold State.Unkeyed State.staging
    rw [endSession_box hsome]
    rfl
  next hunkeyed => exact Bool.eq_false_iff.mpr hunkeyed

theorem unkey_ne {b c : Box} (h : b ≠ c) (hc : s.Unkeyed c) : (unkey s b).Unkeyed c := by
  unfold unkey
  dsimp only
  have hstaging := congrFun (modBox_attach_staging s b) c
  generalize s.modBox b (fun m => { m with attach := none }) = t at hstaging ⊢
  split
  · unfold State.Unkeyed
    rw [endSession_staging_ne t h, hstaging]
    exact hc
  · unfold State.Unkeyed
    rw [hstaging]
    exact hc

theorem foldl_unkey_keeps {c : Box} (bs : List Box) (hc : s.Unkeyed c) : (bs.foldl unkey s).Unkeyed c :=
  List.foldlRecOn (motive := fun t : State => t.Unkeyed c) bs _ hc (fun t ht b _ => by
    by_cases heq : b = c
    · rw [heq]
      exact unkey_self t c
    · exact unkey_ne t heq ht)

theorem foldl_unkey (bs : List Box) {c : Box} (h : c ∈ bs) : (bs.foldl unkey s).Unkeyed c := by
  induction bs generalizing s with
  | nil => exact absurd h List.not_mem_nil
  | cons b bs ih =>
    rcases List.mem_cons.mp h with heq | hmem
    · rw [List.foldl_cons, heq]
      exact foldl_unkey_keeps _ bs (unkey_self s b)
    · exact ih _ hmem

theorem hostBox_mem (p : HostPort) : hostBox p ∈ hostBoxes := by
  revert p
  decide

/-- The supervisor's reservation ends with the sessions that held it. -/
def State.unreserved (s : State) : State :=
  match s.rotunda.supervisor with
  | .reserved _ => s.withRotunda { s.rotunda with supervisor := .free }
  | _ => s

theorem unreserved_unhosted : s.unreserved.unhosted = s.unhosted := by
  unfold State.unreserved
  split <;> rfl

theorem endKeyedSessions_unkeyed (p : HostPort) : (endKeyedSessions s).Unkeyed (hostBox p) := foldl_unkey s.unreserved hostBoxes (hostBox_mem p)

theorem unkey_unhosted (b : Box) : (unkey s b).unhosted = s.unhosted := by
  unfold unkey
  dsimp only
  split
  · rw [endSession_unhosted]
    rfl
  · rfl

theorem endKeyedSessions_unhosted : (endKeyedSessions s).unhosted = s.unhosted :=
  (foldl_unhosted (fun b t => unkey_unhosted t b) hostBoxes s.unreserved).trans (unreserved_unhosted s)

theorem abandonSignatures_unhosted : (abandonSignatures s).unhosted =
    (s.withLegal { s.legal with signing := [], waitingRecords := [] }).unhosted :=
  List.foldlRecOn (motive := fun t : State => t.unhosted = (s.withLegal { s.legal with signing := [], waitingRecords := [] }).unhosted)
    s.legal.signing _ rfl (fun t ht j _ => by
      dsimp only
      split
      · rw [finish_unhosted, ht]
      · exact ht)

end

/-! ## Destruction -/

section
variable (src : DestroySource) (s : State)

/-- The state in which the sessions and the signatures that used a key have ended. -/
def State.erased (s : State) (src : DestroySource) : State :=
  endKeyedSessions (abandonSignatures (aonStore s.time 0x0071 (destroyCode src) (s.withCupola (s.cupola.erase (!s.mainSupply)))))

theorem aonStore_cupola (time type source : Nat) : (aonStore time type source s).cupola = s.cupola := by
  unfold aonStore
  split <;> rfl

theorem erased_cupola : (s.erased src).cupola = s.cupola.erase (!s.mainSupply) := by
  unfold State.erased
  rw [unhosted_cupola (endKeyedSessions_unhosted _), unhosted_cupola (abandonSignatures_unhosted _), withLegal_cupola, aonStore_cupola]
  rfl

theorem erased_signing : (s.erased src).legal.signing = [] := by
  unfold State.erased
  rw [unhosted_legal (endKeyedSessions_unhosted _), unhosted_legal (abandonSignatures_unhosted _)]
  rfl

theorem erase_slots (c : Cupola) (latch : Bool) (i : Fin 6) : (c.erase latch).slots[i] = ⟨none, 0, none, 0, false, none⟩ := by
  simp [Cupola.erase]

/-- The note of a destruction, raised or kept until the mailboxes serve. -/
def State.noted (u : State) (d : Nat × Nat × Nat) (serves : Bool) : State :=
  if serves then raiseDestroyed d u else u.withCupola { u.cupola with destroyed := some d }

theorem destroyKeys_eq : destroyKeys src s = (s.erased src).noted (destroyCode src, s.legal.aonSeq, s.time) s.serves := by
  unfold destroyKeys State.noted State.erased
  rfl

theorem noted_rest (u : State) (d : Nat × Nat × Nat) (serves : Bool) : (u.noted d serves).cupola.zeroized = u.cupola.zeroized ∧
    (u.noted d serves).cupola.slots = u.cupola.slots ∧ (u.noted d serves).legal = u.legal ∧ (u.noted d serves).staging = u.staging := by
  unfold State.noted
  split
  · rw [raiseDestroyed, raise_cupola, raise_legal, raise_staging]
    exact ⟨rfl, rfl, rfl, rfl⟩
  · exact ⟨rfl, rfl, rfl, rfl⟩

/-- Destruction leaves no key, no signature to make and no keyed session. -/
theorem destroyKeys_leaves : (destroyKeys src s).cupola.zeroized = true ∧ (∀ i, ((destroyKeys src s).keySlot i).key = none ∧
    ((destroyKeys src s).keySlot i).staged = none) ∧ (destroyKeys src s).legal.signing = [] ∧
    ∀ b : HostPort, ((destroyKeys src s).box (hostBox b)).session.any (·.keyed) = false := by
  have hunkeyed : ∀ b : HostPort, (s.erased src).Unkeyed (hostBox b) := fun b => endKeyedSessions_unkeyed _ b
  have hcupola := erased_cupola src s
  have hsigning := erased_signing src s
  rw [destroyKeys_eq]
  generalize s.erased src = u at hcupola hsigning hunkeyed ⊢
  obtain ⟨hzeroized, hslots, hlegal, hstaging⟩ := noted_rest u (destroyCode src, s.legal.aonSeq, s.time) s.serves
  generalize u.noted (destroyCode src, s.legal.aonSeq, s.time) s.serves = t at hzeroized hslots hlegal hstaging ⊢
  refine ⟨?_, fun i => ?_, ?_, fun b => ?_⟩
  · rw [hzeroized, hcupola]
    rfl
  · rw [State.keySlot, hslots, hcupola, erase_slots]
    exact ⟨rfl, rfl⟩
  · rw [hlegal, hsigning]
  · exact (congrArg Staging.keyed (congrFun hstaging (hostBox b))).trans (hunkeyed b)

end

/-! ## Re-anchoring and the retiring key -/

theorem exec_retiringKeyErase_of_due {s : State} {t0 : Nat} (hup : s.up .cd7 = true) (huntil : s.cupola.retiringUntil = some t0)
    (hdue : t0 ≤ s.now) : ∃ t, exec .retiringKeyErase s = .next t ∧
      (t.keySlot 5).retiring = none ∧ (t.keySlot 5).key = (s.keySlot 5).key ∧ t.cupola.retiringUntil = none := by
  have hslot : ∀ u : State, (u.withCupola { u.cupola with retiringUntil := none }).keySlot 5 = u.keySlot 5 := fun _ => rfl
  change ∃ t, execRetiringKeyErase s = _ ∧ _
  unfold execRetiringKeyErase
  rw [huntil]
  refine ⟨_, if_pos (by rw [hup, due_of_le hdue]; rfl), ?_, ?_, ?_⟩
  · rw [raise_keySlot, hslot, keySlot_setKeySlot]
  · rw [raise_keySlot, hslot, keySlot_setKeySlot]
  · rw [raise_cupola]
    rfl

section
variable {s : State} {tries : List ReanchorTry} (hup : s.up .cd7 = true) (hroot : s.cupola.rootOk = true) (hlive : s.cupola.zeroized = false)
  (hdue : s.reanchorDue = true) (hafter : s.cupola.reanchorAfter ≤ s.now) (hquiet : s.legal.signing = [])
  (hbits : s.cupola.reanchorByBits = false)
include hup hroot hlive hdue hafter hquiet hbits

theorem exec_reanchoring_of_found {w offset e : Nat} (hfound : reanchorSearch s.cupola.secret 4 s.cupola.window tries = some (w, offset, e)) :
    ∃ t, exec (.reanchoring tries) s = .next t ∧ t.cupola.window = w ∧
      t.cupola.anchorTime = s.time ∧ t.cupola.anchorSeq = w32 (s.cupola.anchorSeq + 2) ∧ t.cupola.reanchorDue = false ∧
      t.cupola.slots = s.cupola.slots := by
  change ∃ t, execReanchoring tries s = _ ∧ _
  unfold execReanchoring
  dsimp only
  rw [if_pos (by rw [hup, hroot, hlive, hdue, due_of_le hafter, hquiet]; rfl), hbits, if_neg Bool.false_ne_true, hfound]
  refine ⟨_, rfl, ?_⟩
  rw [raise_cupola, traceEnclave, trace_cupola]
  exact ⟨rfl, rfl, rfl, rfl, rfl⟩

theorem exec_reanchoring_of_failed (hfailed : reanchorSearch s.cupola.secret 4 s.cupola.window tries = none) :
    ∃ t, exec (.reanchoring tries) s = .next t ∧ t.cupola.reanchorDue = true ∧
      t.cupola.reanchorAfter = s.now + 86400000 ∧ t.cupola.anchorSeq = s.cupola.anchorSeq ∧ t.cupola.window = s.cupola.window := by
  change ∃ t, execReanchoring tries s = _ ∧ _
  unfold execReanchoring
  dsimp only
  rw [if_pos (by rw [hup, hroot, hlive, hdue, due_of_le hafter, hquiet]; rfl), hbits, if_neg Bool.false_ne_true, hfailed]
  refine ⟨_, rfl, ?_⟩
  rw [raise_cupola, traceEnclave, trace_cupola]
  exact ⟨rfl, rfl, rfl, rfl⟩

end

/-! ## The mesh, the temperature and re-provisioning -/

section
variable {s : State} (haon : s.aon = true)
include haon

theorem exec_meshCheck_of_missing (hmesh : s.power.inForce.mesh = 1) : exec (.meshCheck false) s =
    if s.cupola.meshFails = 0 then .next (s.withCupola { s.cupola with meshFails := 1 })
    else .next (destroyKeys .mesh (s.withCupola { s.cupola with meshFails := 0 })) :=
  (if_pos (by rw [haon, hmesh]; rfl)).trans (if_neg Bool.false_ne_true)

theorem exec_temperatureCheck_of_inside {c : Int} (hlow : -50 ≤ c) (hhigh : c ≤ 125) :
    exec (.temperatureCheck c) s = .next (s.withCupola { s.cupola with tempFails := 0 }) :=
  (if_pos haon).trans (if_pos ⟨hlow, hhigh⟩)

theorem exec_temperatureCheck_of_second {c : Int} (hout : c < -50 ∨ 125 < c) (hfails : s.cupola.tempFails = 1) :
    exec (.temperatureCheck c) s = .next (destroyKeys .temperature (s.withCupola { s.cupola with tempFails := 0 })) :=
  (if_pos haon).trans ((if_neg (by omega)).trans (if_neg (by rw [hfails]; decide)))

end

theorem exec_reProvisioning_of_service {p : Provisioning} {s : State} (hserves : s.servesBox 4 = true) (hphase : s.power.phase = .running) :
    ∃ t, exec (.reProvisioning p) s = .next t ∧ t.cupola.zeroized = false ∧
      t.cupola.rootOk = true ∧ (∀ i, (t.keySlot i).key = some (fit 16 (p.keys.getD i.val []))) ∧ t.legal.certs = p.certificates := by
  change ∃ t, execReProvisioning p s = _ ∧ _
  unfold execReProvisioning
  dsimp only
  refine ⟨_, if_pos (by rw [hserves, hphase]; rfl), ?_, ?_, fun i => ?_, ?_⟩
  · rw [keepLog, logAppend, raise_cupola]
    rfl
  · rw [keepLog, logAppend, raise_cupola]
    rfl
  · rw [keepLog, logAppend, raise_keySlot]
    change (provisionedSlots p.keys)[i].key = _
    simp [provisionedSlots]
  · rw [keepLog, logAppend, raise_legal]
    rfl

/-- Settles O51. -/
theorem enclaveRows : Obligations.EnclaveRows := by
  unfold Obligations.EnclaveRows
  refine ⟨fun s t0 => exec_retiringKeyErase_of_due, ?found, fun tries s => exec_reanchoring_of_failed, fun s hup => if_pos hup, fun s hup => if_pos hup, ?temperature, destroyKeys_leaves,
    ?meshFirst, ?meshSecond, fun c s haon => exec_temperatureCheck_of_inside haon, fun c s haon => exec_temperatureCheck_of_second haon,
    fun p s => exec_reProvisioning_of_service⟩
  case found =>
    intro tries s w offset e hup hroot hlive hdue hafter hquiet hbits hfound
    exact exec_reanchoring_of_found hup hroot hlive hdue hafter hquiet hbits hfound
  case temperature =>
    intro s haon
    exact if_pos (by rw [haon]; rfl)
  case meshFirst =>
    intro s haon hmesh hfails
    rw [exec_meshCheck_of_missing haon hmesh, if_pos hfails]
  case meshSecond =>
    intro s haon hmesh hfails
    rw [exec_meshCheck_of_missing haon hmesh, if_neg hfails]

end Sys2Proof.Machine
end

section
/-! Memory integrity (R459 to R475): lines read, buckets, the yearly refresh, retirement and the queries. -/

namespace Sys2Proof.Machine

/-! ## Reports leave the regions -/

section
variable {s t : State}

theorem region_setRegion (i : Fin 8) (f : Region → Region) : (s.setRegion i f).memory.regions[i] = f s.memory.regions[i] := by
  simp [State.setRegion]

theorem region_setRegion_ne {i j : Fin 8} (f : Region → Region) (h : i ≠ j) :
    (s.setRegion i f).memory.regions[j] = s.memory.regions[j] := by
  have hne : i.val ≠ j.val := fun e => h (Fin.ext e)
  simp [State.setRegion, hne]

theorem unposted_memory (h : s.unposted = t.unposted) : s.memory = t.memory := by
  have e := congrArg (fun u : State => u.memory) h
  exact e

/-- The regions and the retirement in progress. -/
def State.pages (s : State) : Vector Region 8 × Option Retirement := (s.memory.regions, s.memory.retiring)

theorem pages_of_memory (h : s.memory = t.memory) : s.pages = t.pages := by
  unfold State.pages
  rw [h]

theorem allRegions_of_pages (h : s.pages = t.pages) : s.memory.regions = t.memory.regions := congrArg Prod.fst h

theorem regions_of_pages (h : s.pages = t.pages) (i : Fin 8) : s.memory.regions[i] = t.memory.regions[i] := by
  rw [allRegions_of_pages h]

theorem setRegion_pages (h : s.pages = t.pages) (i : Fin 8) (f : Region → Region) : (s.setRegion i f).pages = (t.setRegion i f).pages := by
  have hregions : s.memory.regions = t.memory.regions := congrArg Prod.fst h
  have hretiring : s.memory.retiring = t.memory.retiring := congrArg Prod.snd h
  simp [State.pages, State.setRegion, hregions, hretiring]

theorem archived_pages (m : Memory) (es : List ArchiveEntry) :
    (m.archived es).regions = m.regions ∧ (m.archived es).retiring = m.retiring := by
  unfold Memory.archived
  generalize List.drop _ _ = archive
  exact ⟨rfl, rfl⟩

theorem logged_pages (s : State) (e : ErrorEntry) : (s.withMemory (s.memory.logged e)).pages = s.pages := by
  unfold State.pages Memory.logged
  rw [withMemory_memory]
  generalize s.memory.log.length + 1 - 256 = gone
  obtain ⟨hregions, hretiring⟩ := archived_pages s.memory ((s.memory.log.take gone).map .error)
  dsimp only
  rw [hregions, hretiring]

theorem toArchive_pages (s : State) (es : List ArchiveEntry) : (toArchive es s).pages = s.pages := by
  obtain ⟨hregions, hretiring⟩ := archived_pages s.memory es
  unfold State.pages toArchive
  rw [withMemory_memory, hregions, hretiring]

@[simp] theorem logError_pages (i : Fin 8) (kind offset requester cnt time : Nat) (counted : Bool) (s : State) :
    (logError i kind offset requester cnt time counted s).pages = s.pages := by
  unfold logError
  dsimp only
  split
  · rw [pages_of_memory (raise_memory ..), logged_pages]
  · exact logged_pages ..

@[simp] theorem memRecord_pages (i : Fin 8) (kind offset requester cnt : Nat) (counted : Bool) (s : State) :
    (memRecord i kind offset requester cnt counted s).pages = s.pages := by
  unfold memRecord
  split
  · exact pages_of_memory (unposted_memory (post_unposted ..))
  · exact logError_pages ..

theorem retireRefusal_of_pages (h : s.pages = t.pages) (i : Fin 8) (page : Nat) : s.retireRefusal i page = t.retireRefusal i page := by
  have hretiring : s.memory.retiring = t.memory.retiring := congrArg Prod.snd h
  unfold State.retireRefusal
  rw [regions_of_pages h, hretiring]

end

/-! ## Buckets -/

section
variable (i : Fin 8) (s : State)

/-- What a recovery counts and what it leaves of its region: the lines recovered and the poisoned lines. -/
def Region.counted (r : Region) : Nat × List Nat := (r.recovered, r.poisoned)

theorem copyPage_pages (page : Nat) : (copyPage i page s).pages = s.pages := by
  unfold copyPage
  exact List.foldlRecOn (motive := fun t : State => t.pages = s.pages) _ _ rfl (fun t ht _ _ => (memRecord_pages ..).trans ht)

theorem retirePage_pages (page : Nat) : (retirePage i page s).pages =
    (s.setRegion i (fun r => { r with retired := r.retired ++ [(page, r.nextSpare)] })).pages := by
  unfold retirePage
  rw [memRecord_pages]
  exact setRegion_pages (copyPage_pages i s page) ..

theorem setRegion_counted {j : Fin 8} {f : Region → Region} (hf : ∀ r, (f r).counted = r.counted) :
    (s.setRegion j f).memory.regions[i].counted = s.memory.regions[i].counted := by
  by_cases h : j = i
  · rw [h, region_setRegion, hf]
  · rw [region_setRegion_ne f h]

theorem bucketAdd_counted (requester : Nat) : (bucketAdd i requester s).memory.regions[i].counted = s.memory.regions[i].counted := by
  unfold bucketAdd
  dsimp only
  split
  · exact setRegion_counted i s (fun _ => rfl)
  · split
    · rfl
    · rw [regions_of_pages (memRecord_pages ..)]
      exact setRegion_counted i s (fun _ => rfl)

theorem dspMark_counted (page : Nat) : (dspMark page s).memory.regions[i].counted = s.memory.regions[i].counted := by
  unfold dspMark
  dsimp only
  split
  · rw [regions_of_pages (retirePage_pages ..)]
    exact setRegion_counted i _ (fun _ => rfl)
  · rfl

/-- A line that is found recovered is counted in its region, whose poisoned lines stay. -/
theorem recoverLine_counted (kind offset requester : Nat) : (recoverLine i kind offset requester s).memory.regions[i].counted =
    (w32 (s.memory.regions[i].recovered + 1), s.memory.regions[i].poisoned) := by
  have hself := congrArg Region.counted (region_setRegion (s := s) i (fun r => { r with recovered := w32 (r.recovered + 1) }))
  unfold recoverLine
  dsimp only
  rw [bucketAdd_counted]
  refine Eq.trans ?_ hself
  generalize s.setRegion i (fun r => { r with recovered := w32 (r.recovered + 1) }) = u
  generalize u.memory.recover i offset u.time u.now = recent
  have hrecent : (u.withMemory { u.memory with recent := recent }).memory.regions[i].counted = u.memory.regions[i].counted := rfl
  generalize u.withMemory { u.memory with recent := recent } = v at hrecent ⊢
  rw [← hrecent]
  have hfirst : ∀ c : Prop, [Decidable c] → (if c then memRecord i kind offset requester 1 false v else v).memory.regions[i].counted =
      v.memory.regions[i].counted := fun c _ => by
    split
    · rw [regions_of_pages (memRecord_pages ..)]
    · rfl
  split
  · split
    · rw [dspMark_counted, regions_of_pages (memRecord_pages ..), hfirst]
    · rw [regions_of_pages (memRecord_pages ..), hfirst]
  · exact hfirst _

/-- A line newly lost to a write: its bucket filled, and the line poisoned. -/
theorem loseLine_of_new {line : Nat} (requester : Nat) (hnew : line ∉ s.memory.regions[i].poisoned) :
    line ∈ (loseLine i line requester true s).memory.regions[i].poisoned ∧
    (loseLine i line requester true s).memory.regions[i].bucket = s.bucketDepth ∧
    (loseLine i line requester true s).memory.regions[i].uncorrectable = w32 (s.memory.regions[i].uncorrectable + 1) := by
  have hold : s.memory.regions[i].poisoned.contains line = false := by simpa using hnew
  have heq : (loseLine i line requester true s).memory.regions[i] = { s.memory.regions[i] with
      bucket := s.bucketDepth, overflowed := true, uncorrectable := w32 (s.memory.regions[i].uncorrectable + 1)
      poisoned := s.memory.regions[i].poisoned ++ [line] } := by
    unfold loseLine
    dsimp only
    rw [hold, if_pos rfl, if_neg Bool.false_ne_true, if_neg Bool.false_ne_true, regions_of_pages (memRecord_pages ..), region_setRegion,
      regions_of_pages (memRecord_pages ..), bucketFill, region_setRegion]
  rw [heq]
  exact ⟨List.mem_append_right _ List.mem_cons_self, rfl, rfl⟩

end

/-! ## Lines read -/

section
variable {region : Fin 8} {line : Nat} {by_ : LineRequester} {s : State}

theorem readLine_of_good {requester : Nat} {write inRequest : Bool} (hclean : s.memory.regions[region].poisoned.contains line = false) :
    readLine region line .good requester write inRequest s = s := by
  unfold readLine
  rw [hclean]
  rfl

theorem logEvent_pages (e : LoggedEvent) (s : State) : (logEvent e s).pages = s.pages := by
  unfold logEvent
  dsimp only
  generalize List.length _ - 256 = gone
  rw [toArchive_pages]
  rfl

theorem logEvent_eventLog (e : LoggedEvent) (s : State) : (logEvent e s).power.eventLog =
    (s.power.eventLog ++ [(s.time, e)]).drop (s.power.eventLog.length + 1 - 256) := by
  simp only [logEvent, toArchive, withMemory_power, withPower_power, List.length_append, List.length_cons, List.length_nil, Nat.zero_add]

section
variable (hup : s.up (regionClock region) = true) (hline : line < regionLines region.val)
include hup hline

theorem exec_scrubLine_of_up {found : LineResult} : exec (.scrubLine region line found by_) s =
    if isWalled region line by_ then .next (logEvent (.writeRefused line by_.code) s)
    else .next (notePass region line by_.code (readLine region line found by_.code by_.write by_.inRequest s)) :=
  if_pos (by rw [hup, decide_eq_true hline]; rfl)

theorem exec_scrubLine_of_good (hclean : s.memory.regions[region].poisoned.contains line = false) (hother : by_.code ≠ 0xFE)
    (hopen : isWalled region line by_ = false) : exec (.scrubLine region line .good by_) s = .next s := by
  rw [exec_scrubLine_of_up hup hline, hopen, if_neg Bool.false_ne_true, readLine_of_good hclean, notePass, if_neg (fun h => hother h.1)]

theorem exec_scrubLine_of_walled {found : LineResult} (hwalled : isWalled region line by_ = true) :
    ∃ t, exec (.scrubLine region line found by_) s = .next t ∧ t.memory.regions = s.memory.regions ∧
      t.power.eventLog = (s.power.eventLog ++ [(s.time, LoggedEvent.writeRefused line by_.code)]).drop (s.power.eventLog.length + 1 - 256) := by
  rw [exec_scrubLine_of_up hup hline, if_pos hwalled]
  refine ⟨_, rfl, ?_, ?_⟩
  · exact allRegions_of_pages (logEvent_pages _ s)
  · rw [logEvent_eventLog]

theorem exec_scrubLine_of_refetched (hclean : line ∉ s.memory.regions[region].poisoned) (hscrubber : by_.code = 0xFE) :
    exec (.scrubLine region line .refetched by_) s = .next (notePass region line 0xFE
      (recoverLine region 1 (line * 32) 0xFE (countAt (40 + region.val) 1 s))) := by
  have hopen : isWalled region line by_ = false := by
    unfold isWalled
    rw [hscrubber, decide_eq_false (by decide), Bool.and_false, Bool.false_and]
  have hkept : s.memory.regions[region].poisoned.contains line = false := by simpa using hclean
  rw [exec_scrubLine_of_up hup hline, hopen, if_neg Bool.false_ne_true, hscrubber]
  unfold readLine
  rw [hkept]
  rfl

end

theorem exec_mramRefresh_of_good {page : Nat} (hup : s.up .cd5 = true) (hheld : s.power.holdUp = false)
    (hpage : page = s.memory.refreshPage) (hclean : page * 128 ∉ s.memory.regions[(7 : Fin 8)].poisoned) :
    ∃ t, exec (.mramRefresh page .good) s = .next t ∧ t.memory.refreshPage = (if page + 1 = 1024 then 0 else page + 1) ∧
      t.memory.refreshDone = (if page + 1 = 1024 then s.time else s.memory.refreshDone) := by
  have hkept : s.memory.regions[(7 : Fin 8)].poisoned.contains (page * 128) = false := by simpa using hclean
  change ∃ t, execMramRefresh page .good s = _ ∧ _
  unfold execMramRefresh
  rw [if_pos (by rw [hup, hheld, hpage, beq_self_eq_true]; rfl), readLine_of_good hkept]
  exact ⟨_, rfl, rfl, rfl⟩

end

theorem exec_bucketLeak_regions (s : State) : ∃ t, exec .bucketLeak s = .next t ∧ ∀ i : Fin 8, (t.memory.regions[i]).bucket =
    if (s.memory.regions[i]).lastLeak + 600000 ≤ s.now then (s.memory.regions[i]).bucket - 1 else (s.memory.regions[i]).bucket := by
  refine ⟨_, rfl, fun i => ?_⟩
  simp only [withMemory_memory, Fin.getElem_fin, Vector.getElem_map, State.due, decide_eq_true_eq]
  split <;> rfl

/-! ## Retirement -/

section
variable {s : State} {x : Retirement} (hretiring : s.memory.retiring = some x)
include hretiring

theorem settleRetirement_of_early (hearly : s.now < x.startedAt + 45) : settleRetirement s = s := by
  unfold settleRetirement
  rw [hretiring]
  exact if_neg (by rw [not_due_of_lt hearly]; decide)

theorem settleRetirement_of_due (hdue : x.startedAt + 45 ≤ s.now) : (settleRetirement s).memory.retiring = none ∧
    (settleRetirement s).memory.regions[x.region].retired =
      s.memory.regions[x.region].retired ++ [(x.page, s.memory.regions[x.region].nextSpare)] := by
  let u := s.withMemory { s.memory with retiring := none }
  have hpages : (settleRetirement s).pages =
      (u.setRegion x.region (fun r => { r with retired := r.retired ++ [(x.page, r.nextSpare)] })).pages := by
    unfold settleRetirement
    rw [hretiring]
    dsimp only
    rw [if_pos (due_of_le hdue), pages_of_memory (finish_memory ..), retirePage_pages]
  have hdone := congrArg Prod.snd hpages
  refine ⟨hdone, ?_⟩
  rw [regions_of_pages hpages, region_setRegion]
  rfl

end

/-! ## The commands -/

section
variable {b : Box} {f : Frame} {r : Req} {s : State}

theorem Asked.exec_pageRetire (h : Asked b 0x0A05 f r s) : exec (.pageRetire b) s = .next (pageRetire r (taken b f s)) := h.request pageRetire
theorem Asked.exec_errorLogRead (h : Asked b 0x0A06 f r s) : exec (.errorLogRead b) s = .next (errorLogRead r (taken b f s)) :=
  h.request errorLogRead
theorem Asked.exec_memStatus (h : Asked b 0x0A07 f r s) : exec (.memStatus b) s = .next (memStatus r (taken b f s)) := h.request memStatus

theorem taken_pages (b : Box) (f : Frame) (s : State) : (taken b f s).pages = s.pages :=
  pages_of_memory (unlinked_memory (taken_unlinked ..))

theorem pageRetire_of_region {i : Fin 8} (hlen : r.payload.length = 4) (hhandle : r.handle = 0) (hregion : field r.payload 0 1 = i.val)
    (hown : i ≠ 4) (hfree : s.retireRefusal i (field r.payload 2 2) = none) : pageRetire r s =
      if i = 2 then askSteeple 5 r.payload r s else startRetirement i (field r.payload 2 2) r.wait (accept r s) := by
  unfold pageRetire
  rw [withLength_of_length hlen, noHandle_of_zero hhandle, hregion, dif_pos i.isLt]
  dsimp only
  rw [if_neg hown, hfree]

end

/-- Settles O52. That a write which R41's firewall refuses goes to the event log (log 129), and that a retirement takes its 45 ms in full
(log 210), are the model's choices. -/
theorem memoryRows : Obligations.MemoryRows := by
  unfold Obligations.MemoryRows
  refine ⟨fun region line by_ s => exec_scrubLine_of_good, fun region line found by_ s hup hline => exec_scrubLine_of_walled hup hline,
    fun region line by_ s => exec_scrubLine_of_refetched, ?recover, fun region line by_ s hnew => ⟨_, rfl, loseLine_of_new region s by_ hnew⟩,
    exec_bucketLeak_regions, fun page s => exec_mramRefresh_of_good, ?retire, fun s x => settleRetirement_of_early,
    fun s x => settleRetirement_of_due, ?retireSafety, ?log, ?status⟩
  case recover =>
    intro region kind offset by_ s
    have hcounted := recoverLine_counted region s kind offset by_
    exact ⟨_, rfl, congrArg Prod.fst hcounted, congrArg Prod.snd hcounted⟩
  case retire =>
    intro b f r s i hasked hlen hhandle hregion hdsp hsafety hfree
    rw [hasked.exec_pageRetire, pageRetire_of_region hlen hhandle hregion hdsp ((retireRefusal_of_pages (taken_pages ..) ..).trans hfree),
      if_neg hsafety]
  case retireSafety =>
    rintro b f r s hasked ⟨hlen, hhandle, hregion, hfree⟩
    rw [hasked.exec_pageRetire, pageRetire_of_region (i := 2) hlen hhandle hregion (by decide) hfree, if_pos rfl]
  case log =>
    rintro b f r s hasked ⟨hlen, hhandle, hlow, hhigh⟩
    rw [hasked.exec_errorLogRead]
    unfold errorLogRead
    dsimp only
    rw [withLength_of_length hlen, noHandle_of_zero hhandle, check_of_true (within_of_le hlow hhigh)]
  case status =>
    rintro b f r s hasked ⟨hempty, hhandle⟩
    rw [hasked.exec_memStatus]
    unfold memStatus
    rw [withLength_of_empty hempty, noHandle_of_zero hhandle]

end Sys2Proof.Machine
end

section
/-! The service commands of firmware update (R486 to R491, R499, R502). -/

namespace Sys2Proof.Machine

section
variable {b : Box} {f : Frame} {r : Req} {s : State}

theorem Asked.exec_updateStatus (h : Asked b 0x0A01 f r s) : exec (.updateStatus b) s = .next (updateStatus r (taken b f s)) :=
  h.request updateStatus
theorem Asked.exec_updateConfirm (h : Asked b 0x0A02 f r s) : exec (.updateConfirm b) s = .next (updateConfirm r (taken b f s)) :=
  h.request updateConfirm
theorem Asked.exec_ownerLock (h : Asked b 0x0A03 f r s) : exec (.ownerLock b) s = .next (ownerCommand true r (taken b f s)) :=
  h.request ownerLock
theorem Asked.exec_ownerUnlock (h : Asked b 0x0A04 f r s) : exec (.ownerUnlock b) s = .next (ownerCommand false r (taken b f s)) :=
  h.request ownerUnlock
theorem Asked.exec_updateClaim (h : Asked b 0x0A10 f r s) : exec (.updateClaim b) s = .next (updateClaim r (taken b f s)) :=
  h.request updateClaim
theorem Asked.exec_updateBlock (h : Asked b 0x0A11 f r s) : exec (.updateBlock b) s = .next (updateBlock r (taken b f s)) :=
  h.request updateBlock
theorem Asked.exec_updateActivate (h : Asked b 0x0A12 f r s) : exec (.updateActivate b) s = .next (updateActivate r (taken b f s)) :=
  h.request updateActivate
theorem Asked.exec_updateRelease (h : Asked b 0x0A13 f r s) : exec (.updateRelease b) s = .next (updateRelease r (taken b f s)) :=
  h.request updateRelease

end

/-! ## What the requests read -/

section
variable {s t : State}

theorem ownerProof_of_unlinked (h : s.unlinked = t.unlinked) (id : Nat) : s.ownerProof id = t.ownerProof id := by
  unfold State.ownerProof
  rw [unlinked_oculus h, unlinked_now h]

theorem activationRefusal_of_unlinked (h : s.unlinked = t.unlinked) (l : Fin 2) (digest : List Byte) :
    s.activationRefusal l digest = t.activationRefusal l digest := by
  have hvbak := congrArg (fun u : State => u.power.vbakLow) h
  have hlow : s.power.vbakLow = t.power.vbakLow := hvbak
  have hlanes : s.lane = t.lane := funext fun p => unlinked_lane h p
  unfold State.activationRefusal State.activatable State.switchClosed
  rw [unlinked_update h, hlanes, hlow, unlinked_holdUp h]

end

/-! ## The selector -/

theorem updateEvent_rest (code : Nat) (pl : List Byte) (s : State) : (updateEvent code pl s).update =
    { s.update with log := ((code, pl) :: s.update.log).take 64 } := by
  rw [updateEvent, raise_update]
  rfl

theorem writeSelector_update (f : Selector → Selector) (discarded : Bool) (s : State) : ∃ log, (writeSelector f discarded s).update =
    { s.update with
      selector := { f s.update.selector with seq := w32 (s.update.selector.seq + 1), time := s.time }
      selectorOlder := some s.update.selector, trialDiscarded := discarded, log := log } := by
  unfold writeSelector
  dsimp only
  rw [updateEvent_rest]
  exact ⟨_, rfl⟩

/-- A trial confirmed: the fuses at the bank's security version, and the selector idle. -/
theorem confirmTrial_update (s : State) : (confirmTrial s).update.selector.state = 0 ∧ (confirmTrial s).update.selector.previous = 0xFF ∧
    (confirmTrial s).update.fuses = max s.update.fuses s.activeBank.securityVersion ∧ (confirmTrial s).update.trialUntil = none ∧
    (confirmTrial s).update.selector.fuseTarget = 0 ∧ (confirmTrial s).rotunda.oldSettings = none := by
  obtain ⟨log, hupdate⟩ := writeSelector_update
    (fun x => { x with state := 0, previous := 0xFF, fuseTarget := s.activeBank.securityVersion, lastResult := 1 }) false s
  unfold confirmTrial finishConfirmation
  dsimp only
  rw [withRotunda_update, withUpdate_update, withUpdate_update, hupdate]
  exact ⟨rfl, rfl, rfl, rfl, rfl, rfl⟩

/-! ## The handlers -/

theorem storing_of_supplied {r : Req} {s : State} {k : State → State} (h : s.power.holdUp = false) : storing r k s = k s :=
  check_of_true (by rw [h]; rfl)

theorem heldByOther_of_none {u : Update} {l : Fin 2} (h : u.claim = none) : u.heldByOther l = false := by
  unfold Update.heldByOther
  rw [h]
  rfl

theorem held_of_lane {u : Update} {c : Claim} {l : Fin 2} (hclaim : u.claim = some c) (hlane : c.lane = l) :
    u.heldBy l = true ∧ u.heldByOther l = false := by
  unfold Update.heldBy Update.heldByOther
  rw [hclaim]
  simp [hlane]

section
variable {r : Req} {s : State} (hhandle : r.handle = 0)
include hhandle

theorem updateConfirm_of_trial (hlen : r.payload.length = 32) (htrial : s.update.selector.state = 2)
    (hdigest : fit 32 s.update.selector.digest = r.payload) (hheld : s.power.holdUp = false) :
    updateConfirm r s = finish r.wait stOk [] (confirmTrial (accept r s)) := by
  unfold updateConfirm
  rw [withLength_of_length hlen, noHandle_of_zero hhandle, check_of_true (by rw [htrial, hdigest]; simp), storing_of_supplied hheld]

/-- The owner lock set or cleared by a proof; locking ends the claim and leaves its record. -/
theorem ownerCommand_update {lock : Bool} (hlen : r.payload.length = 4) (hproof : s.ownerProof (field r.payload 0 4) = true)
    (hheld : s.power.holdUp = false) : (ownerCommand lock r s).update.ownerLock = lock ∧
      (ownerCommand lock r s).update.claim = (if lock then none else s.update.claim) ∧
      (ownerCommand lock r s).update.record = s.update.record := by
  have hmarked : (markProofUsed (field r.payload 0 4) (accept r s)).update = s.update := by
    rw [markProofUsed, withOculus_update, accept_update]
  unfold ownerCommand
  dsimp only
  rw [withLength_of_length hlen, noHandle_of_zero hhandle, check_of_true hproof, storing_of_supplied hheld, finish_update]
  split
  · rw [withUpdate_update, hmarked]
    exact ⟨rfl, rfl, rfl⟩
  · rw [updateEvent_rest, withUpdate_update, hmarked]
    exact ⟨rfl, rfl, rfl⟩

section
variable (hlen : r.payload.length = 44)
include hlen

theorem updateClaim_of_locked (hlocked : s.update.ownerLock = true) : updateClaim r s = refuse r stOwnerLocked s := by
  unfold updateClaim
  dsimp only
  rw [withLength_of_length hlen, noHandle_of_zero hhandle]
  exact if_pos hlocked

section
variable (hopen : s.update.ownerLock = false) (hnone : s.update.claim = none) (hidle : s.update.selector.state = 0)
include hopen hnone hidle

theorem updateClaim_of_rollback (hold : field r.payload 40 1 < s.update.fuses) : updateClaim r s = refuse r stRollback s := by
  unfold updateClaim
  dsimp only
  rw [withLength_of_length hlen, noHandle_of_zero hhandle]
  exact (if_neg (by rw [hopen]; decide)).trans ((if_neg (by rw [heldByOther_of_none hnone]; decide)).trans
    ((if_neg (not_not_intro hidle)).trans (if_pos hold)))

theorem updateClaim_of_fresh (hnew : s.update.fuses ≤ field r.payload 40 1) (hlow : 1 ≤ field r.payload 36 4)
    (hhigh : field r.payload 36 4 ≤ bankSize) (herased : s.update.erasing = none) (hrecord : s.update.record = none)
    (hheld : s.power.holdUp = false) : updateClaim r s = (accept r s).withUpdate { s.update.eraseRecord with
      claim := some ⟨laneOf r.box, s.now⟩
      erasing := some ⟨⟨slice r.payload 0 32, field r.payload 36 4, field r.payload 40 1, slice r.payload 32 4, []⟩, laneOf r.box, r.wait⟩ } := by
  unfold updateClaim
  dsimp only
  rw [withLength_of_length hlen, noHandle_of_zero hhandle]
  refine (if_neg (by rw [hopen]; decide)).trans ((if_neg (by rw [heldByOther_of_none hnone]; decide)).trans
    ((if_neg (not_not_intro hidle)).trans ((if_neg (Nat.not_lt.mpr hnew)).trans
    ((if_neg (by rw [within_of_le hlow hhigh]; decide)).trans ((if_neg (by rw [herased]; decide)).trans ?_)))))
  rw [hrecord, Option.filter_none]
  exact storing_of_supplied hheld

end
end

theorem updateBlock_of_claimed {x : ClaimRecord} {c : Claim} (hlen : r.payload.length = 2056)
    (hcheck : field r.payload 4 4 = crc32c (slice r.payload 8 2048)) (hrecord : s.update.record = some x)
    (hindex : field r.payload 0 2 < blocksOf x.length) (hclaim : s.update.claim = some c) (hlane : c.lane = laneOf r.box)
    (hheld : s.power.holdUp = false) : ∃ pl, updateBlock r s =
      finish r.wait stOk pl (writeUpdateBlock (field r.payload 0 2) (slice r.payload 8 2048) x (accept r s)) := by
  unfold updateBlock
  dsimp only
  rw [withLength_of_length hlen, noHandle_of_zero hhandle, check_of_true (beq_iff_eq.mpr hcheck), hrecord,
    check_of_true (by rw [Option.all_some, decide_eq_true hindex]), check_of_true (held_of_lane hclaim hlane).1,
    hrecord]
  exact ⟨_, storing_of_supplied hheld⟩

theorem updateRelease_of_kept {c : Claim} (hlen : r.payload.length = 4) (hclaim : s.update.claim = some c) (hlane : c.lane = laneOf r.box)
    (hkeep : field r.payload 0 1 = 0) : updateRelease r s = finish r.wait stOk [] (endClaim (accept r s)) := by
  have hmine : s.update.heldByOther (laneOf r.box) = false := (held_of_lane hclaim hlane).2
  have hbit : bit (field r.payload 0 1) 0 = false := by rw [hkeep]; decide
  unfold updateRelease
  rw [withLength_of_length hlen, noHandle_of_zero hhandle, hbit]
  dsimp only
  rw [if_neg (by rw [hmine]; decide), check_of_true (by rfl), if_neg Bool.false_ne_true]

theorem updateActivate_of_ready (hlen : r.payload.length = 32) (hready : s.activationRefusal (laneOf r.box) r.payload = none)
    (hidle : s.update.activating = none) (hsettled : s.update.activationResetAt = none) (hphase : s.power.phase = .running) :
    (updateActivate r s).update.activating = some (r.wait 0 r.payload) ∧
      (updateActivate r s).keep.saveWanted = s.keep.saveWanted ++ [.activation] := by
  have hfree : ¬ (s.update.activating.isSome = true ∨ s.update.activationResetAt.isSome = true) := by
    rw [hidle, hsettled]
    simp
  unfold updateActivate
  rw [withLength_of_length hlen, noHandle_of_zero hhandle, hready]
  dsimp only
  rw [if_neg hfree, if_pos hphase, withUpdate_keep, accept_keep]
  exact ⟨rfl, rfl⟩

end

/-- A block that the record lacks goes to the inactive bank and to the record. -/
theorem writeUpdateBlock_update {i : Nat} {data : List Byte} {x : ClaimRecord} {s : State} {u : Update} (hsame : s.update = u)
    (hnew : i ∉ x.blocks) : (writeUpdateBlock i data x s).update.record = some { x with blocks := x.blocks ++ [i] } ∧
    (writeUpdateBlock i data x s).update.banks[u.spareIx].content = putBlockAt i data u.banks[u.spareIx].content := by
  subst hsame
  have hlacks : ¬ x.blocks.contains i = true := by simpa using hnew
  unfold writeUpdateBlock
  dsimp only
  rw [if_neg hlacks]
  refine ⟨rfl, ?_⟩
  simp [State.setBank, Update.writeRecord]

/-- Settles O53. -/
theorem updateCommands : Obligations.UpdateCommands := by
  unfold Obligations.UpdateCommands
  refine ⟨?status, ?confirm, confirmTrial_update, ?lock, ?unlock, ?claim, ?locked, ?rollback, ?block, ?release, ?activate⟩
  case status =>
    rintro b f r s hasked ⟨hempty, hhandle⟩
    rw [hasked.exec_updateStatus]
    unfold updateStatus
    rw [withLength_of_empty hempty, noHandle_of_zero hhandle]
  case confirm =>
    rintro b f r s hasked ⟨hlen, hhandle, htrial, hdigest, hheld⟩
    rw [hasked.exec_updateConfirm, updateConfirm_of_trial hhandle hlen htrial hdigest hheld]
  case lock =>
    intro b f r s hasked hlen hhandle hproof hheld
    obtain ⟨hlock, hclaim, hrecord⟩ := ownerCommand_update (lock := true) hhandle hlen
      ((ownerProof_of_unlinked (taken_unlinked s b f) _).trans hproof) ((taken_holdUp s b f).trans hheld)
    exact ⟨_, hasked.exec_ownerLock, hlock, hclaim, hrecord.trans (by rw [taken_update])⟩
  case unlock =>
    intro b f r s hasked hlen hhandle hproof hheld
    obtain ⟨hlock, hclaim, -⟩ := ownerCommand_update (lock := false) hhandle hlen
      ((ownerProof_of_unlinked (taken_unlinked s b f) _).trans hproof) ((taken_holdUp s b f).trans hheld)
    exact ⟨_, hasked.exec_ownerUnlock, hlock, hclaim.trans (by rw [taken_update]; rfl)⟩
  case claim =>
    intro b f r s hasked hlen hhandle hopen hnone hidle hnew hlow hhigh herased hrecord hheld
    rw [← taken_update s b f] at hopen hnone hidle hnew herased hrecord
    refine ⟨_, hasked.exec_updateClaim, ?_⟩
    rw [updateClaim_of_fresh hhandle hlen hopen hnone hidle hnew hlow hhigh herased hrecord ((taken_holdUp s b f).trans hheld), taken_now]
    exact ⟨rfl, rfl, rfl⟩
  case locked =>
    rintro b f r s hasked ⟨hlen, hhandle, hlocked⟩
    rw [hasked.exec_updateClaim, updateClaim_of_locked hhandle hlen hlocked]
    rfl
  case rollback =>
    rintro b f r s hasked ⟨hlen, hhandle, hopen, hnone, hidle, hold⟩
    rw [hasked.exec_updateClaim, updateClaim_of_rollback hhandle hlen hopen hnone hidle hold]
    rfl
  case block =>
    intro b f r s x c hasked hlen hhandle hcheck hrecord hindex hclaim hlane hnew hheld
    have hsame : (accept r (taken b f s)).update = s.update := (accept_update ..).trans (taken_update ..)
    obtain ⟨pl, heq⟩ := updateBlock_of_claimed (s := taken b f s) hhandle hlen hcheck (by rw [taken_update, hrecord]) hindex
      (by rw [taken_update, hclaim]) hlane ((taken_holdUp s b f).trans hheld)
    obtain ⟨hblocks, hbank⟩ := writeUpdateBlock_update (data := slice r.payload 8 2048) hsame hnew
    rw [hasked.exec_updateBlock, heq]
    generalize writeUpdateBlock (field r.payload 0 2) (slice r.payload 8 2048) x (accept r (taken b f s)) = u at hblocks hbank ⊢
    refine ⟨_, rfl, ?_⟩
    rw [finish_update]
    exact ⟨hblocks, hbank⟩
  case release =>
    intro b f r s c hasked hlen hhandle hclaim hlane hkeep
    refine ⟨_, hasked.exec_updateRelease, ?_⟩
    rw [updateRelease_of_kept (c := c) hhandle hlen (by rw [taken_update, hclaim]) hlane hkeep, finish_update, endClaim, withUpdate_update,
      accept_update, taken_update]
    exact ⟨rfl, rfl⟩
  case activate =>
    intro b f r s hasked hlen hhandle hready hidle hsettled hphase
    obtain ⟨hactivating, hwanted⟩ := updateActivate_of_ready (s := taken b f s) hhandle hlen
      ((activationRefusal_of_unlinked (taken_unlinked s b f) ..).trans hready) (by rw [taken_update, hidle])
      (by rw [taken_update, hsettled]) ((taken_phase s b f).trans hphase)
    exact ⟨_, hasked.exec_updateActivate, hactivating, hwanted.trans (by rw [taken_keep])⟩

end Sys2Proof.Machine
end

section
/-! What follows the service commands of firmware update (R478, R486, R488, R492, R493, R496, R498). -/

namespace Sys2Proof.Machine

/-! ## The banks -/

theorem spareIx_ne (u : Update) : u.spareIx.val ≠ u.activeIx.val := by
  unfold Update.spareIx
  generalize u.activeIx = i
  revert i
  decide

theorem setBank_banks (s : State) (i : Fin 2) (b : Bank) : (s.setBank i b).update.banks[i] = b := by
  simp [State.setBank]

theorem setBank_banks_ne (s : State) {i j : Fin 2} (b : Bank) (h : i.val ≠ j.val) : (s.setBank i b).update.banks[j] = s.update.banks[j] := by
  simp [State.setBank, h]

section
variable {s : State} (hserves : s.servesBox 4 = true)
include hserves

theorem exec_bankEraseComplete_of_erasing {e : Erasing} (herasing : s.update.erasing = some e) (hheld : s.power.holdUp = false) :
    ∃ t, exec .bankEraseComplete s = .next t ∧ t.update.erasing = none ∧
      t.update.record = some e.record ∧ t.update.banks[s.update.spareIx] = Bank.reset false ∧
      t.update.banks[s.update.activeIx] = s.update.banks[s.update.activeIx] := by
  have hspare := setBank_banks s s.update.spareIx (Bank.reset false)
  have hactive := setBank_banks_ne s (Bank.reset false) (spareIx_ne s.update)
  change ∃ t, execBankEraseComplete s = _ ∧ _
  unfold execBankEraseComplete
  rw [herasing]
  dsimp only
  rw [if_pos (by rw [State.updateRuns, hserves, hheld]; rfl)]
  generalize s.setBank s.update.spareIx (Bank.reset false) = u at hspare hactive ⊢
  refine ⟨_, rfl, ?_⟩
  rw [finish_update, withUpdate_update]
  exact ⟨rfl, rfl, hspare, hactive⟩

theorem exec_activationSaveComplete_of_saved {w : Waiting} (hactivating : s.update.activating = some w) (hsaved : s.activationSaved = true)
    (hready : s.activationRefusal (laneOf w.box) w.extra = none) : exec .activationSaveComplete s = .next (switchBanks w s) := by
  change execActivationSaveComplete s = _
  unfold execActivationSaveComplete
  rw [hactivating]
  dsimp only
  rw [if_pos (by rw [State.updateRuns, hserves, hsaved]; rfl), hready]

theorem exec_activationReset_of_due {t : Nat} (hat : s.update.activationResetAt = some t) (hdue : t ≤ s.now) :
    exec .activationReset s = .next (assertReset 12 s) := by
  change execActivationReset s = _
  unfold execActivationReset
  rw [hat]
  exact if_pos (by rw [State.updateRuns, hserves, due_of_le hdue]; rfl)

theorem exec_claimTimeout_of_due {c : Claim} (hclaim : s.update.claim = some c) (hdue : c.lastBlockAt + 300000 ≤ s.now) :
    exec .claimTimeout s = .next (s.withUpdate { s.update with claim := none }) := by
  change execClaimTimeout s = _
  unfold execClaimTimeout
  rw [hclaim]
  exact if_pos (by rw [State.updateRuns, hserves, due_of_le hdue]; rfl)

end

theorem switchBanks_update (w : Waiting) (s : State) : (switchBanks w s).update.selector.state = 1 ∧
    (switchBanks w s).update.selector.active = s.update.spareIx.val ∧
    (switchBanks w s).update.claim = none ∧ (switchBanks w s).update.activationResetAt = some (s.now + 100) := by
  obtain ⟨log, hupdate⟩ := writeSelector_update (fun x => { x with
    state := 1, active := s.update.spareIx.val, previous := s.update.activeIx.val, trialBoots := 0, digest := w.extra, fuseTarget := 0 })
    false s
  unfold switchBanks
  dsimp only
  rw [withUpdate_update, finish_update, hupdate]
  exact ⟨rfl, rfl, rfl, rfl⟩

/-! ## The service line's supply -/

section
variable {s : State} {mv : Nat}

theorem exec_svcVbusChange_of_lost {c : Claim} (hon : s.update.vbus = true) (hlow : mv < 3800) (hclaim : s.update.claim = some c)
    (hlane : c.lane = 0) : exec (.svcVbusChange mv) s = .next (s.withUpdate { s.update with vbus := false, claim := none }) := by
  have hoff : (decide (4000 < mv) || (s.update.vbus && decide (3800 ≤ mv))) = false := by
    rw [decide_eq_false (show ¬ 4000 < mv by omega), decide_eq_false (show ¬ 3800 ≤ mv by omega), Bool.and_false, Bool.or_false]
  change execSvcVbusChange mv s = _
  unfold execSvcVbusChange
  dsimp only
  rw [hoff, if_pos (by rw [hon, (held_of_lane hclaim hlane).1]; rfl)]
  rfl

theorem exec_svcVbusChange_of_present (hon : s.update.vbus = true) (hhigh : 3800 ≤ mv) : exec (.svcVbusChange mv) s = .next s := by
  have hstill : (decide (4000 < mv) || (s.update.vbus && decide (3800 ≤ mv))) = true := by
    rw [hon, decide_eq_true hhigh, Bool.and_true, Bool.or_true]
  have hsame : s.withUpdate { s.update with vbus := true } = s := by
    rw [← hon]
    rfl
  change execSvcVbusChange mv s = _
  unfold execSvcVbusChange
  dsimp only
  rw [hstill, if_neg (by rw [Bool.not_true, Bool.and_false, Bool.false_and]; exact Bool.false_ne_true), hsame]

theorem exec_svcVbusChange_of_absent (hoff : s.update.vbus = false) :
    exec (.svcVbusChange mv) s = .next (s.withUpdate { s.update with vbus := decide (4000 < mv) }) := by
  change execSvcVbusChange mv s = _
  unfold execSvcVbusChange
  dsimp only
  rw [hoff, if_neg (by rw [Bool.false_and, Bool.false_and]; exact Bool.false_ne_true), Bool.false_and, Bool.or_false]

end

/-! ## Trials and fall-backs -/

theorem fallBack_update (result : Nat) (s : State) : (fallBack result s).update.selector.state = 0 ∧
    (fallBack result s).update.selector.active = s.update.spareIx.val ∧ (fallBack result s).update.selector.lastResult = result := by
  obtain ⟨log, hupdate⟩ := writeSelector_update (fun x => { x with
    state := 0, active := s.update.spareIx.val, previous := 0xFF, trialBoots := 0, digest := s.update.banks[s.update.spareIx].digest
    fuseTarget := 0, lastResult := result }) s.trialLost s
  unfold fallBack
  dsimp only
  rw [hupdate]
  exact ⟨rfl, rfl, rfl⟩

section
variable {s : State} {t : Nat} (hserves : s.servesBox 4 = true)
include hserves

theorem exec_trialExpiry_of_due (huntil : s.update.trialUntil = some t) (htrial : s.update.selector.state = 2) (hdue : t ≤ s.now)
    (hheld : s.power.holdUp = false) : ∃ u, exec .trialExpiry s = .next u ∧ u.update.selector.state = 0 ∧
      u.update.selector.active = s.update.spareIx.val ∧ u.update.selector.lastResult = 5 ∧ u.update.fallback = some s.now := by
  obtain ⟨hstate, hactive, hresult⟩ := fallBack_update 5 s
  change ∃ u, execTrialExpiry s = _ ∧ _
  unfold execTrialExpiry
  rw [huntil]
  dsimp only
  rw [if_pos (by rw [State.updateRuns, hserves, htrial, due_of_le hdue, hheld]; rfl)]
  exact ⟨_, rfl, hstate, hactive, hresult, rfl⟩

variable (hfallback : s.update.fallback = some t)
include hfallback

theorem exec_fallbackReset_of_open (hopen : s.switchClosed = false) : exec .fallbackReset s = .next (assertReset 12 s) :=
  if_pos (by rw [hfallback, State.updateRuns, hserves, hopen]; rfl)

theorem exec_fallbackForcedStop_of_late (hclosed : s.switchClosed = true) (hfirst : s.update.forced = false) (hdue : t + 3600000 ≤ s.now) :
    exec .fallbackForcedStop s = .next (stopAllSessions originService 0xFFF0 (s.withUpdate { s.update with forced := true })) := by
  change execFallbackForcedStop s = _
  unfold execFallbackForcedStop
  rw [hfallback]
  exact if_pos (by rw [State.updateRuns, hserves, hclosed, hfirst, due_of_le hdue]; rfl)

end

/-- Settles O54. That a fall-back decided in service resets with the cause of an update activation and stops sessions with origin 6 (log 127),
and the thresholds at which SVC_VBUS counts as present (log 213), are the model's choices. -/
theorem updateRows : Obligations.UpdateRows := by
  unfold Obligations.UpdateRows
  exact ⟨fun s e hserves herasing => exec_bankEraseComplete_of_erasing hserves herasing,
    fun s w hactivating hserves => exec_activationSaveComplete_of_saved hserves hactivating, switchBanks_update,
    fun s t hat hserves => exec_activationReset_of_due hserves hat, fun s c hclaim hserves => exec_claimTimeout_of_due hserves hclaim,
    fun s c mv => exec_svcVbusChange_of_lost, fun s mv => exec_svcVbusChange_of_present, fun s mv => exec_svcVbusChange_of_absent,
    fun s t huntil hserves => exec_trialExpiry_of_due hserves huntil, fun s t hfallback hserves => exec_fallbackReset_of_open hserves hfallback,
    fun s t hfallback hserves => exec_fallbackForcedStop_of_late hserves hfallback⟩

end Sys2Proof.Machine
end

section
/-! The trace messages and counters of Lantern (R563 to R568). -/

namespace Sys2Proof.Machine

section
variable {src : Fin 12} {type : Nat} {content : List Byte} {s : State}

theorem trace_of_down (h : s.lanternUp = false) : trace src type content s = s := if_neg (by rw [h]; decide)

/-- A message with room, when none was lost before it. -/
theorem trace_of_room (hup : s.lanternUp = true) (hroom : s.lantern.waiting src.val < 32) (hnone : s.lantern.lost[src] = 0) :
    trace src type content s = s.withLantern { s.lantern with
      buffer := s.lantern.buffer ++ [⟨src.val, type, s.lantern.seqs[src], w32 s.lantern.tick, content⟩]
      seqs := s.lantern.seqs.set src (w8 (s.lantern.seqs[src] + 1)) } := by
  unfold trace
  dsimp only
  rw [if_pos hup, if_pos hroom, if_pos hnone, if_pos hroom]

/-- A message without room is counted as lost. -/
theorem trace_of_full (hup : s.lanternUp = true) (hfull : 32 ≤ s.lantern.waiting src.val) :
    trace src type content s = s.withLantern { s.lantern with
      seqs := s.lantern.seqs.set src (w8 (s.lantern.seqs[src] + 1))
      lost := s.lantern.lost.set src (w16 (s.lantern.lost[src] + 1))
      counters := s.lantern.counters.set 57 (w32 (s.lantern.counters[57] + 1)) } := by
  unfold trace
  dsimp only
  rw [if_pos hup, if_neg (Nat.not_lt.mpr hfull)]

theorem set_self_source {α : Type} (v : Vector α 12) (x : α) : (v.set src x)[src] = x := by simp

theorem exec_traceLost_of_lost (hup : s.lanternUp = true) (hlost : s.lantern.lost[src] ≠ 0) (hroom : s.lantern.waiting src.val < 32) :
    exec (.traceLost src) s = .next (s.withLantern { s.lantern with
      buffer := s.lantern.buffer ++ [⟨src.val, 0x7F, s.lantern.seqs[src], w32 s.lantern.tick, le 2 s.lantern.lost[src]⟩]
      seqs := s.lantern.seqs.set src (w8 (s.lantern.seqs[src] + 1))
      lost := s.lantern.lost.set src 0 }) :=
  if_pos (by rw [hup, decide_eq_true hroom, bne_iff_ne.mpr hlost]; rfl)

end

theorem count_buffer (i : Fin 64) (n : Nat) (s : State) : (count i n s).lantern.buffer = s.lantern.buffer ∧
    (count i n s).lantern.tick = s.lantern.tick := by
  unfold count
  split <;> exact ⟨rfl, rfl⟩

theorem exec_traceSync_of_due {s : State} (hup : s.lanternUp = true) (hdue : s.lantern.syncDue = true)
    (hnone : s.lantern.lost[(11 : Fin 12)] = 0) (hroom : s.lantern.waiting 11 < 32) :
    ∃ t, exec .traceSync s = .next t ∧ t.lantern.tick = s.lantern.tick ∧
      ∃ m, t.lantern.buffer = s.lantern.buffer ++ [m] ∧ m.type = 0x7E ∧ m.source = 11 ∧ m.tick = w32 s.lantern.syncTick := by
  have htrace : ∀ content, trace 11 0x7E content (s.withLantern { s.lantern with tick := s.lantern.syncTick }) = _ :=
    fun content => trace_of_room (src := 11) (type := 0x7E) (content := content) hup hroom hnone
  change ∃ t, execTraceSync s = _ ∧ _
  unfold execTraceSync
  dsimp only
  rw [if_pos (by rw [hup, hdue]; rfl), htrace]
  refine ⟨_, rfl, ?_, ?_⟩
  · rw [(count_buffer ..).2, withLantern_lantern]
  · rw [(count_buffer ..).1, withLantern_lantern, withLantern_lantern]
    exact ⟨_, rfl, rfl, rfl, rfl⟩

/-! ## The counters -/

section
variable {b : Box} {f : Frame} {r : Req} {s : State}

theorem Asked.exec_counterRead (h : Asked b 0x0A14 f r s) : exec (.counterRead b) s = .next (counterRead r (taken b f s)) :=
  h.request counterRead

section
variable (hlen : r.payload.length = 4) (hhandle : r.handle = 0)
include hlen hhandle

theorem counterRead_of_outside (hout : field r.payload 1 1 = 0 ∨ 64 < field r.payload 0 1 + field r.payload 1 1) :
    counterRead r s = refuse r stParamRange s := by
  unfold counterRead
  rw [withLength_of_length hlen, noHandle_of_zero hhandle, check_of_false (decide_eq_false (by omega))]

theorem counterRead_of_range (hlow : 1 ≤ field r.payload 1 1) (hhigh : field r.payload 0 1 + field r.payload 1 1 ≤ 64) :
    counterRead r s = if s.lantern.running then
      respond r stOk (le 1 (field r.payload 0 1) ++ le 1 (field r.payload 1 1) ++ [0, 0] ++ le 8 s.lantern.tick
        ++ ((s.lantern.counters.toList.drop (field r.payload 0 1)).take (field r.payload 1 1)).flatMap (le 4)) s
      else refuse r stRefusedState s := by
  unfold counterRead
  rw [withLength_of_length hlen, noHandle_of_zero hhandle, check_of_true (decide_eq_true ⟨hlow, hhigh⟩)]

end

end

/-- Settles O55. That a sync message carries its exact multiple of 2^24 (log 137) is the model's choice. -/
theorem lanternRows : Obligations.LanternRows := by
  unfold Obligations.LanternRows
  refine ⟨?room, ?full, fun src type content s => trace_of_down, ?lost, fun s => exec_traceSync_of_due, ?read, ?stopped, ?outside⟩
  case room =>
    intro src type content s hup hroom hnone
    refine ⟨_, rfl, ?_⟩
    rw [trace_of_room hup hroom hnone]
    exact ⟨rfl, set_self_source ..⟩
  case full =>
    intro src type content s hup hfull
    refine ⟨_, rfl, ?_⟩
    rw [trace_of_full hup hfull]
    exact ⟨rfl, set_self_source .., set_self_source ..⟩
  case lost =>
    intro src s hup hlost hroom
    exact ⟨_, exec_traceLost_of_lost hup hlost hroom, set_self_source .., rfl⟩
  case read =>
    rintro b f r s hasked ⟨hlen, hhandle, hlow, hhigh, hruns⟩
    rw [hasked.exec_counterRead, counterRead_of_range hlen hhandle hlow hhigh, if_pos hruns]
  case stopped =>
    rintro b f r s hasked ⟨hlen, hhandle, hlow, hhigh, hstopped⟩
    rw [hasked.exec_counterRead, counterRead_of_range hlen hhandle hlow hhigh, if_neg (by rw [hstopped]; decide)]
    rfl
  case outside =>
    rintro b f r s hasked ⟨hlen, hhandle, hout⟩
    rw [hasked.exec_counterRead, counterRead_of_outside hlen hhandle hout]
    rfl

end Sys2Proof.Machine
end

section
/-! SUPPORT. The start of the device: what precedes the boot's check leaves everything but the memory and Cupola alone (R495, R523). -/

namespace Sys2Proof.Machine

/-- What the start's first steps leave alone: they write the error log and Cupola's keys. -/
def State.unkeyed (s : State) : Power × Rotunda × Steeple × Nat := (s.power, s.rotunda, s.steeple, s.now)

theorem withMemory_unkeyed (m : Memory) (s : State) : (s.withMemory m).unkeyed = s.unkeyed := rfl

theorem withCupola_unkeyed (c : Cupola) (s : State) : (s.withCupola c).unkeyed = s.unkeyed := rfl

section
variable {s t : State}

theorem power_of_unkeyed (h : t.unkeyed = s.unkeyed) : t.power = s.power := congrArg (·.1) h

theorem rotunda_of_unkeyed (h : t.unkeyed = s.unkeyed) : t.rotunda = s.rotunda := congrArg (·.2.1) h

theorem steeple_of_unkeyed (h : t.unkeyed = s.unkeyed) : t.steeple = s.steeple := congrArg (·.2.2.1) h

theorem now_of_unkeyed (h : t.unkeyed = s.unkeyed) : t.now = s.now := congrArg (·.2.2.2) h
end

/-- A dud is logged without an event (R485). -/
theorem logError_dud (i : Fin 8) (offset requester cnt time : Nat) (s : State) :
    (logError i 10 offset requester cnt time false s).unkeyed = s.unkeyed := by
  unfold logError
  exact withMemory_unkeyed _ s

theorem logDuds_unkeyed (s : State) : (logDuds s).unkeyed = s.unkeyed :=
  List.foldlRecOn (motive := fun t : State => t.unkeyed = s.unkeyed) _ _ rfl fun t ht i _ =>
    List.foldlRecOn (motive := fun u : State => u.unkeyed = s.unkeyed) t.memory.regions[i].duds _ ht
      fun u hu _ _ => (logError_dud ..).trans hu

theorem regenerateRoot_unkeyed (array : List Nat) (s : State) : (regenerateRoot array s).unkeyed = s.unkeyed := by
  unfold regenerateRoot
  dsimp only
  split <;> exact withCupola_unkeyed _ s

theorem startCupola_unkeyed (array : List Nat) (held : Bool) (s : State) : (startCupola array held s).unkeyed = s.unkeyed := by
  unfold startCupola
  split
  · exact withCupola_unkeyed _ s
  · exact regenerateRoot_unkeyed array s

/-- The state the boot's check finds: the option block in force, the duds logged, the keys regenerated. -/
def State.beforeBoot (f : StartFacts) (s : State) : State :=
  startCupola f.array ((s.startFaults f).contains .cd7) (logDuds (s.withPower s.power.loadOptions))

theorem beforeBoot_unkeyed (f : StartFacts) (s : State) : (s.beforeBoot f).unkeyed = (s.withPower s.power.loadOptions).unkeyed :=
  (startCupola_unkeyed ..).trans (logDuds_unkeyed _)

theorem beforeBoot_power (f : StartFacts) (s : State) : (s.beforeBoot f).power = s.power.loadOptions :=
  power_of_unkeyed (beforeBoot_unkeyed f s)

/-- A bundle the boot accepts: the islands are released. -/
theorem startDevice_of_some {f : StartFacts} {s u : State} (h : bootCheck f (s.beforeBoot f) = some u) :
    startDevice f s = startIslands f (s.startFaults f) u := by
  unfold startDevice
  dsimp only
  rw [show startCupola f.array ((s.startFaults f).contains .cd7) (logDuds (s.withPower s.power.loadOptions)) = s.beforeBoot f from rfl, h]

/-- What recovery sets of the power state (R495). -/
def Power.recovering (x : Power) (faults : List Clock) (time now : Nat) : Power :=
  { x with pullUps := x.pullUps.filter (fun p => p != .service), phase := .recovery, held := faults, startupFaults := faults
           bootTime := time, bootAt := now }

theorem startDevice_of_none {f : StartFacts} {s : State} (h : bootCheck f (s.beforeBoot f) = none) :
    startDevice f s = (s.beforeBoot f).withPower
      ((s.beforeBoot f).power.recovering (s.startFaults f) (s.beforeBoot f).time (s.beforeBoot f).now) := by
  unfold startDevice
  dsimp only
  rw [show startCupola f.array ((s.startFaults f).contains .cd7) (logDuds (s.withPower s.power.loadOptions)) = s.beforeBoot f from rfl, h]
  rfl

theorem bootCheck_inForce {f : StartFacts} {s u : State} (h : bootCheck f (s.beforeBoot f) = some u) :
    u.power.inForce = s.power.newest.getD OptionBlock.safe := by
  have hu := (bootCheck_started f (ph := ((s.beforeBoot f).power.phase, (s.beforeBoot f).power.held, (s.beforeBoot f).power.inForce,
    (s.beforeBoot f).power.bootAt)) ⟨rfl⟩ h).eq
  have hf : u.power.inForce = (s.beforeBoot f).power.inForce := congrArg (fun x => x.2.2.1) hu
  rw [hf, beforeBoot_power]
  rfl

theorem execDeviceStart_of_supplied (f : StartFacts) {s : State} (h : s.power.phase = .supplied) :
    exec (.deviceStart f) s = .next (startDevice f s) := if_pos h

theorem execDeviceStart_of_unsupplied (f : StartFacts) {s : State} (h : s.power.phase ≠ .supplied) :
    exec (.deviceStart f) s = .next s := if_neg h

/-- A released device runs with the islands it holds in reset (R495). -/
theorem startDevice_runs {f : StartFacts} {s u : State} (h : bootCheck f (s.beforeBoot f) = some u) :
    (startDevice f s).power.phase = .running ∧ (startDevice f s).power.held = s.startFaults f ∧
      (startDevice f s).power.inForce = s.power.newest.getD OptionBlock.safe ∧ (startDevice f s).power.bootAt = u.now := by
  have ht := (startIslands_started f (s.startFaults f) u).eq
  rw [bootCheck_inForce h, ← startDevice_of_some h] at ht
  exact ⟨congrArg (·.1) ht, congrArg (·.2.1) ht, congrArg (·.2.2.1) ht, congrArg (·.2.2.2) ht⟩

theorem serves_of_recovery {s : State} (h : s.power.phase = .recovery) : s.serves = false := by
  simp [State.serves, State.up, State.clocked, h]

/-- Without a bundle that verifies the device is in recovery and its other islands are as they were (R495). -/
theorem startDevice_recovers {f : StartFacts} {s : State} (h : bootCheck f (s.beforeBoot f) = none) :
    (startDevice f s).power.phase = .recovery ∧ (startDevice f s).serves = false ∧
      (startDevice f s).power.held = s.startFaults f ∧
      (startDevice f s).power.inForce = s.power.newest.getD OptionBlock.safe ∧ (startDevice f s).power.bootAt = s.now ∧
      (startDevice f s).rotunda = s.rotunda ∧ (startDevice f s).steeple = s.steeple := by
  have hu := beforeBoot_unkeyed f s
  have hrotunda : (s.beforeBoot f).rotunda = s.rotunda := (rotunda_of_unkeyed hu).trans rfl
  have hsteeple : (s.beforeBoot f).steeple = s.steeple := (steeple_of_unkeyed hu).trans rfl
  rw [startDevice_of_none h, beforeBoot_power, now_of_unkeyed hu]
  exact ⟨rfl, serves_of_recovery rfl, rfl, rfl, rfl, hrotunda, hsteeple⟩

theorem mem_startFaults (f : StartFacts) (s : State) (c : Clock) :
    c ∈ s.startFaults f ↔ c ∈ allDomains ∧ c ≠ .cd0 ∧
      (c ∈ f.faultedIslands ∨ c ∈ s.power.startupFaults ∨
        ((.crystal ∈ f.faultedIslands ∨ .crystal ∈ s.power.startupFaults) ∧ c ∈ derivedClocks)) := by
  unfold State.startFaults
  by_cases hx : Clock.crystal ∈ f.faultedIslands ∨ Clock.crystal ∈ s.power.startupFaults
  · simp [List.mem_filter, hx]
  · simp [List.mem_filter, hx]

theorem loadOptions_safeDefaults (x : Power) : x.loadOptions.safeDefaults = true ↔ x.newest = none :=
  Option.isNone_iff_eq_none

theorem release_of_held (c : Clock) (k : State → State) {s : State} (h : s.power.held.contains c = true) : s.release c k = s := if_pos h

/-- Settles O59: up to the boot's check only the memory's log and Cupola change, and the release order keeps what the start set of
the power state. -/
theorem deviceStartReleases : Obligations.DeviceStartReleases := by
  refine ⟨?running, ?recovery, fun f s h => execDeviceStart_of_supplied f h, fun f s h => execDeviceStart_of_unsupplied f h,
    ?faulted, ?crystal, fun x => ⟨rfl, loadOptions_safeDefaults x⟩, fun c k s h => release_of_held c k h⟩
  case running => exact fun f s u hs hu => ⟨_, execDeviceStart_of_supplied f hs, startDevice_runs hu⟩
  case recovery => exact fun f s hs hn => ⟨_, execDeviceStart_of_supplied f hs, startDevice_recovers hn⟩
  case faulted => exact fun f s c hc hf hd => (mem_startFaults f s c).2 ⟨hd, hc, .inl hf⟩
  case crystal => exact fun f s hf c hc hd h0 => (mem_startFaults f s c).2 ⟨hd, h0, .inr (.inr ⟨.inl hf, hc⟩)⟩

end Sys2Proof.Machine
end

section
/-! SUPPORT. The restart of Rotunda: an abandoned block write, the mailboxes that begin again, the volatile channels that go, and the work
of an update that ends (R421, R505). -/

namespace Sys2Proof.Machine

/-! ## An abandoned block write -/

/-- The state without Oculus and what frames and messages of the host go through. -/
def State.offReader (s : State) : State := (s.withOculus Oculus.reset).unlinked

section
variable {s t : State}

theorem offReader_of_unlinked (h : s.unlinked = t.unlinked) : s.offReader = t.offReader :=
  congrArg (fun u : State => u.withOculus Oculus.reset) h

theorem withOculus_offReader (s : State) (o : Oculus) : (s.withOculus o).offReader = s.offReader := rfl

theorem offReader_committed (h : s.offReader = t.offReader) : s.rotunda.committed = t.rotunda.committed := by
  have e := congrArg (fun u : State => u.rotunda.committed) h
  exact e

end

theorem raiseSettled_unlinked (w : PendingWrite) (result generation : Nat) (s : State) :
    (raiseSettled w result generation s).unlinked = s.unlinked := raise_unlinked ..

theorem writePending_offReader (l : List PendingWrite) (s : State) : (s.writePending l).offReader = s.offReader := rfl

theorem writePending_list (l : List PendingWrite) (s : State) : (s.writePending l).oculus.list = s.oculus.list := rfl

theorem keepPending_offReader (w : PendingWrite) (s : State) : (keepPending w s).offReader = s.offReader := by
  unfold keepPending
  split
  · split
    · exact (offReader_of_unlinked (raiseSettled_unlinked ..)).trans (writePending_offReader ..)
    · exact writePending_offReader ..
  · exact writePending_offReader ..

theorem keepPending_list (w : PendingWrite) (s : State) : (keepPending w s).oculus.list = s.oculus.list := by
  unfold keepPending
  split
  · split
    · exact (congrArg Oculus.list (unlinked_oculus (raiseSettled_unlinked ..))).trans (writePending_list ..)
    · exact writePending_list ..
  · exact writePending_list ..

theorem abandonReach_offReader (s : State) : (abandonReach s).offReader = s.offReader := by
  unfold abandonReach
  split
  · exact (keepPending_offReader ..).trans (withOculus_offReader ..)
  · rfl

theorem abandonReach_list (s : State) : (abandonReach s).oculus.list = s.oculus.list := by
  unfold abandonReach
  split
  · rw [keepPending_list, withOculus_oculus]
  · rfl

theorem abandonReach_of_none {s : State} (h : s.oculus.reach = none) : abandonReach s = s := by
  unfold abandonReach
  rw [h]

/-! ## The channels destroyed -/

theorem destroyChannel_committed (c : Channel) (code reason : Nat) (s : State) :
    (destroyChannel c code reason s).rotunda.committed = s.rotunda.committed := by
  unfold destroyChannel
  dsimp only
  rw [unlinked_committed (raiseAlso_unlinked ..)]
  rfl

theorem destroyAll_committed (cs : List Channel) (reason : Nat) (s : State) :
    (destroyAll cs reason s).rotunda.committed = s.rotunda.committed :=
  List.foldlRecOn (motive := fun t : State => t.rotunda.committed = s.rotunda.committed) cs _ rfl
    fun t ht c _ => (destroyChannel_committed c _ _ t).trans ht

theorem mem_channels_of_destroyChannel {c d : Channel} {code reason : Nat} {s : State}
    (h : d ∈ (destroyChannel c code reason s).rotunda.channels) : d ∈ s.rotunda.channels ∧ d.slot ≠ c.slot := by
  have htable : (destroyChannel c code reason s).rotunda.channels = s.rotunda.channels.filter (fun d => d.slot ≠ c.slot) :=
    congrArg Prod.fst (destroyChannel_table s c code reason)
  rw [htable, List.mem_filter] at h
  exact ⟨h.1, of_decide_eq_true h.2⟩

theorem mem_channels_of_destroyAll {cs : List Channel} {d : Channel} {reason : Nat} {s : State}
    (h : d ∈ (destroyAll cs reason s).rotunda.channels) : d ∈ s.rotunda.channels ∧ ∀ c ∈ cs, d.slot ≠ c.slot := by
  induction cs generalizing s with
  | nil => exact ⟨h, fun c hc => absurd hc List.not_mem_nil⟩
  | cons x cs ih =>
    obtain ⟨hd, hrest⟩ := ih (s := destroyChannel x 0x8021 reason s) h
    obtain ⟨hd, hx⟩ := mem_channels_of_destroyChannel hd
    exact ⟨hd, fun c hc => (List.mem_cons.1 hc).elim (fun e => e ▸ hx) (hrest c)⟩

/-- With the volatile channels destroyed only persistent ones are left (R78). -/
theorem persistent_of_destroyAll {d : Channel} {reason : Nat} {s : State}
    (h : d ∈ (destroyAll (s.rotunda.channels.filter (fun c => !c.body.persistent)) reason s).rotunda.channels) :
    d.body.persistent = true := by
  obtain ⟨hd, hslots⟩ := mem_channels_of_destroyAll h
  refine Classical.byContradiction fun hvolatile => ?_
  exact hslots d (List.mem_filter.2 ⟨hd, by simp [hvolatile]⟩) rfl

/-! ## The restart -/

/-- Rotunda at its restart, before the volatile channels go. -/
def restartedBoxes (device : Bool) (s : State) : State :=
  s.withRotunda { s.rotunda with
    boxes := Vector.ofFn (fun b : Fin 6 => (s.box b).restart device (s.executedAfter device b) s.civil)
    supervisor := .free, rebuilding := [], ranks := [], commits := [], waiting := [], silent := false, queueHeartbeatAt := s.now }

theorem restartRotunda_eq (device : Bool) (s : State) : restartRotunda device s =
    dropUpdateWork (destroyAll ((restartedBoxes device (abandonReach s)).rotunda.channels.filter (fun c => !c.body.persistent)) 3
      (restartedBoxes device (abandonReach s))) := rfl

theorem restartedBoxes_box (device : Bool) (s : State) (b : Box) :
    (restartedBoxes device s).box b = (s.box b).restart device (s.executedAfter device b) s.civil := by
  simp [restartedBoxes, State.box, State.withRotunda]

theorem restartedBoxes_committed (device : Bool) (s : State) :
    (restartedBoxes device s).rotunda.committed = s.rotunda.committed := rfl

theorem restartedBoxes_unhosted (device : Bool) (s : State) : (restartedBoxes device s).unhosted = s.unhosted := rfl

theorem dropUpdateWork_rotunda (s : State) : (dropUpdateWork s).rotunda = s.rotunda := rfl

theorem dropUpdateWork_box (s : State) (b : Box) : (dropUpdateWork s).box b = s.box b := rfl

/-- Every mailbox begins again. -/
theorem restartRotunda_box (device : Bool) (s : State) (b : Box) : (restartRotunda device s).box b =
    ((abandonReach s).box b).restart device ((abandonReach s).executedAfter device b) (abandonReach s).civil := by
  have hbox := restartedBoxes_box device (abandonReach s) b
  have hsession : ((restartedBoxes device (abandonReach s)).box b).session = none := by rw [hbox]; rfl
  rw [restartRotunda_eq, dropUpdateWork_box, destroyAll_box_of_unattached _ _ _ hsession, hbox]

/-- A mailbox that begins again is empty and has no session and no stage. -/
theorem restartRotunda_mailbox (device : Bool) (s : State) (b : Box) :
    ((restartRotunda device s).box b).session = none ∧ ((restartRotunda device s).box b).inRing = [] ∧
      ((restartRotunda device s).box b).outRing = [] ∧ ((restartRotunda device s).box b).stage = none := by
  rw [restartRotunda_box]
  exact ⟨rfl, rfl, rfl, rfl⟩

theorem restartRotunda_committed (device : Bool) (s : State) : (restartRotunda device s).rotunda.committed = s.rotunda.committed := by
  rw [restartRotunda_eq, dropUpdateWork_rotunda, destroyAll_committed, restartedBoxes_committed]
  exact offReader_committed (abandonReach_offReader s)

theorem restartRotunda_persistent {device : Bool} {s : State} {c : Channel} (h : c ∈ (restartRotunda device s).rotunda.channels) :
    c.body.persistent = true := by
  rw [restartRotunda_eq, dropUpdateWork_rotunda] at h
  exact persistent_of_destroyAll h

/-- The state without Rotunda, Oculus and what frames and messages go through. -/
def State.bare (s : State) : State := (s.withOculus Oculus.reset).unhosted

section
variable {s t : State}

theorem bare_of_unhosted (h : s.unhosted = t.unhosted) : s.bare = t.bare :=
  congrArg (fun u : State => u.withOculus Oculus.reset) h

theorem bare_of_offReader (h : s.offReader = t.offReader) : s.bare = t.bare := unhosted_of_unlinked h

theorem bare_turret (h : s.bare = t.bare) : s.turret = t.turret := by
  have e := congrArg State.turret h
  exact e

theorem bare_steeple (h : s.bare = t.bare) : s.steeple = t.steeple := by
  have e := congrArg State.steeple h
  exact e

theorem bare_keep (h : s.bare = t.bare) : s.keep = t.keep := by
  have e := congrArg State.keep h
  exact e

theorem bare_legal (h : s.bare = t.bare) : s.legal = t.legal := by
  have e := congrArg State.legal h
  exact e

theorem bare_belfry (h : s.bare = t.bare) : s.belfry = t.belfry := by
  have e := congrArg State.belfry h
  exact e

theorem bare_cupola (h : s.bare = t.bare) : s.cupola = t.cupola := by
  have e := congrArg State.cupola h
  exact e

theorem bare_update (h : s.bare = t.bare) : s.update = t.update := by
  have e := congrArg State.update h
  exact e

theorem bare_civil (h : s.bare = t.bare) : s.civil = t.civil := by
  have e := congrArg State.civil h
  exact e

theorem bare_now (h : s.bare = t.bare) : s.now = t.now := by
  have e := congrArg State.now h
  exact e

theorem bare_boots (h : s.bare = t.bare) : s.power.boots = t.power.boots := by
  have e := congrArg (fun u : State => u.power.boots) h
  exact e

theorem bare_dropUpdateWork (h : s.bare = t.bare) : (dropUpdateWork s).bare = (dropUpdateWork t).bare := by
  have e := congrArg dropUpdateWork h
  exact e

end

/-- The restart leaves every other island as it was, but for the update's work and the write that Oculus abandons. -/
theorem restartRotunda_bare (device : Bool) (s : State) : (restartRotunda device s).bare = (dropUpdateWork s).bare := by
  have hall := (destroyAll_unhosted (restartedBoxes device (abandonReach s))
    ((restartedBoxes device (abandonReach s)).rotunda.channels.filter (fun c => !c.body.persistent)) 3).trans
      (restartedBoxes_unhosted device (abandonReach s))
  rw [restartRotunda_eq]
  exact bare_dropUpdateWork ((bare_of_unhosted hall).trans (bare_of_offReader (abandonReach_offReader s)))

theorem restartRotunda_turret (device : Bool) (s : State) : (restartRotunda device s).turret = s.turret :=
  (bare_turret (restartRotunda_bare device s)).trans rfl

theorem restartRotunda_steeple (device : Bool) (s : State) : (restartRotunda device s).steeple = s.steeple :=
  (bare_steeple (restartRotunda_bare device s)).trans rfl

theorem restartRotunda_keep (device : Bool) (s : State) : (restartRotunda device s).keep = s.keep :=
  (bare_keep (restartRotunda_bare device s)).trans rfl

theorem restartRotunda_legal (device : Bool) (s : State) : (restartRotunda device s).legal = s.legal :=
  (bare_legal (restartRotunda_bare device s)).trans rfl

theorem restartRotunda_belfry (device : Bool) (s : State) : (restartRotunda device s).belfry = s.belfry :=
  (bare_belfry (restartRotunda_bare device s)).trans rfl

theorem restartRotunda_cupola (device : Bool) (s : State) : (restartRotunda device s).cupola = s.cupola :=
  (bare_cupola (restartRotunda_bare device s)).trans rfl

theorem restartRotunda_civil (device : Bool) (s : State) : (restartRotunda device s).civil = s.civil :=
  (bare_civil (restartRotunda_bare device s)).trans rfl

theorem restartRotunda_now (device : Bool) (s : State) : (restartRotunda device s).now = s.now :=
  (bare_now (restartRotunda_bare device s)).trans rfl

theorem restartRotunda_boots (device : Bool) (s : State) : (restartRotunda device s).power.boots = s.power.boots :=
  (bare_boots (restartRotunda_bare device s)).trans rfl

theorem restartRotunda_update (device : Bool) (s : State) : (restartRotunda device s).update =
    { s.update with claim := none, erasing := none, activating := none } := (bare_update (restartRotunda_bare device s)).trans rfl

/-- Of Oculus only the write it abandons changes. -/
theorem restartRotunda_oculus (device : Bool) (s : State) : (restartRotunda device s).oculus = (abandonReach s).oculus := by
  rw [restartRotunda_eq]
  exact (unhosted_oculus (destroyAll_unhosted ..)).trans rfl

end Sys2Proof.Machine
end

section
/-! What a device reset clears and keeps (R504 to R506, R511). -/

namespace Sys2Proof.Machine

/-- Rotunda at a device reset: restarted, with the channels its mirrors hold. -/
def State.reloaded (s : State) : State :=
  mapNeighbours (NeighbourBody.boot s.now) ((restartRotunda true s).withRotunda (restartRotunda true s).rotunda.reload)

section
variable (s : State)

theorem mapNeighbours_unhosted (f : NeighbourBody → NeighbourBody) : (mapNeighbours f s).unhosted = s.unhosted := rfl

theorem mapNeighbours_box (f : NeighbourBody → NeighbourBody) (b : Box) : (mapNeighbours f s).box b = s.box b := rfl

theorem mapNeighbours_committed (f : NeighbourBody → NeighbourBody) : (mapNeighbours f s).rotunda.committed = s.rotunda.committed := rfl

theorem mapNeighbours_persistent (f : NeighbourBody → NeighbourBody) (h : ∀ c ∈ s.rotunda.channels, c.body.persistent = true) :
    ∀ c ∈ (mapNeighbours f s).rotunda.channels, c.body.persistent = true := by
  intro c hc
  obtain ⟨d, hd, rfl⟩ := List.mem_map.1 hc
  split
  · rfl
  · exact h d hd

theorem reload_box (b : Box) : (s.withRotunda s.rotunda.reload).box b = s.box b := rfl

theorem reload_unhosted : (s.withRotunda s.rotunda.reload).unhosted = s.unhosted := rfl

theorem reload_committed : (s.withRotunda s.rotunda.reload).rotunda.committed = s.rotunda.committed := rfl

theorem reload_persistent : ∀ c ∈ (s.withRotunda s.rotunda.reload).rotunda.channels, c.body.persistent = true :=
  fun _ hc => (List.mem_filter.1 hc).2

theorem reloaded_unhosted : s.reloaded.unhosted = (restartRotunda true s).unhosted :=
  (mapNeighbours_unhosted ..).trans (reload_unhosted _)

theorem reloaded_box (b : Box) : s.reloaded.box b = (restartRotunda true s).box b := (mapNeighbours_box ..).trans (reload_box ..)

theorem reloaded_committed : s.reloaded.rotunda.committed = s.rotunda.committed :=
  ((mapNeighbours_committed ..).trans (reload_committed _)).trans (restartRotunda_committed true s)

theorem reloaded_persistent : ∀ c ∈ s.reloaded.rotunda.channels, c.body.persistent = true :=
  mapNeighbours_persistent _ _ (reload_persistent _)

theorem reloaded_bare : s.reloaded.bare = (dropUpdateWork s).bare :=
  (bare_of_unhosted (reloaded_unhosted s)).trans (restartRotunda_bare true s)

theorem reloaded_turret : s.reloaded.turret = s.turret := (bare_turret (reloaded_bare s)).trans rfl

theorem reloaded_steeple : s.reloaded.steeple = s.steeple := (bare_steeple (reloaded_bare s)).trans rfl

theorem reloaded_legal : s.reloaded.legal = s.legal := (bare_legal (reloaded_bare s)).trans rfl

theorem reloaded_keep : s.reloaded.keep = s.keep := (bare_keep (reloaded_bare s)).trans rfl

theorem reloaded_belfry : s.reloaded.belfry = s.belfry := (bare_belfry (reloaded_bare s)).trans rfl

theorem reloaded_cupola : s.reloaded.cupola = s.cupola := (bare_cupola (reloaded_bare s)).trans rfl

theorem reloaded_update : s.reloaded.update = { s.update with claim := none, erasing := none, activating := none } :=
  (bare_update (reloaded_bare s)).trans rfl

theorem reloaded_boots : s.reloaded.power.boots = s.power.boots := (bare_boots (reloaded_bare s)).trans rfl

theorem reloaded_time : s.reloaded.time = s.time := congrArg w48 ((bare_civil (reloaded_bare s)).trans rfl)

theorem reloaded_oculus : s.reloaded.oculus = (abandonReach s).oculus :=
  (unhosted_oculus (reloaded_unhosted s)).trans (restartRotunda_oculus true s)

end

section
variable (cause : Nat) (s : State)

theorem assertReset_power :
    (assertReset cause s).power = s.reloaded.power.assert_ cause s.reloaded.time s.reloaded.now := rfl

theorem assertReset_turret : (assertReset cause s).turret = s.reloaded.turret.boot s.reloaded.civil := rfl

theorem assertReset_steeple :
    (assertReset cause s).steeple = s.reloaded.steeple.boot s.reloaded.now (isBrownOut cause || cause == 1) := rfl

theorem assertReset_box (b : Box) : (assertReset cause s).box b = s.reloaded.box b := rfl

theorem assertReset_channels : (assertReset cause s).rotunda.channels = s.reloaded.rotunda.channels := rfl

theorem assertReset_committed : (assertReset cause s).rotunda.committed = s.rotunda.committed := reloaded_committed s

theorem assertReset_applied : (assertReset cause s).rotunda.applied = s.rotunda.committed := reloaded_committed s

theorem assertReset_lantern : (assertReset cause s).lantern = Lantern.reset := rfl

theorem assertReset_update : (assertReset cause s).update = s.reloaded.update.boot := rfl

theorem assertReset_belfry : (assertReset cause s).belfry = s.reloaded.belfry.restart false := rfl

theorem assertReset_oculus : (assertReset cause s).oculus = s.reloaded.oculus.restart := rfl

theorem assertReset_cupola : (assertReset cause s).cupola = s.reloaded.cupola.boot := rfl

theorem assertReset_legalLog : (assertReset cause s).legal.log = s.legal.log := by
  have hlog := congrArg Legal.log (reloaded_legal s)
  exact hlog

theorem assertReset_saved : (assertReset cause s).keep.saved = s.keep.saved := by
  have hsaved := congrArg Keep.saved (reloaded_keep s)
  exact hsaved

/-- Every mailbox is empty, without a session and without a stage. -/
theorem assertReset_mailbox (b : Box) : ((assertReset cause s).box b).session = none ∧ ((assertReset cause s).box b).inRing = [] ∧
    ((assertReset cause s).box b).outRing = [] ∧ ((assertReset cause s).box b).stage = none := by
  rw [assertReset_box, reloaded_box]
  exact restartRotunda_mailbox true s b

theorem assertReset_persistent : ∀ c ∈ (assertReset cause s).rotunda.channels, c.body.persistent = true := reloaded_persistent s

theorem assertReset_cause : (assertReset cause s).power.cause = cause := rfl

theorem assertReset_boots : (assertReset cause s).power.boots = w32 (s.power.boots + 1) := by
  rw [assertReset_power, ← reloaded_boots s]
  rfl

theorem assertReset_assertedTime : (assertReset cause s).power.assertedTime = s.time := reloaded_time s

theorem isBrownOut_iff : isBrownOut cause = true ↔ cause = 2 ∨ cause = 3 ∨ cause = 4 ∨ cause = 15 := by
  simp [isBrownOut, or_assoc]

theorem phaseAfter_dormant (wanting : Bool) : phaseAfter cause wanting = .dormant ↔ isBrownOut cause = true := by
  unfold phaseAfter
  split
  · simp [*]
  · split <;> simp [*]

theorem phaseAfter_ne_running (wanting : Bool) : phaseAfter cause wanting ≠ .running := by
  unfold phaseAfter
  split
  · decide
  · split <;> decide

theorem assertReset_phase : ∃ wanting, (assertReset cause s).power.phase = phaseAfter cause wanting :=
  ⟨s.reloaded.power.holdUp || s.reloaded.power.phase == .heldReset, rfl⟩

theorem assertReset_dormant :
    (assertReset cause s).power.phase = .dormant ↔ cause = 2 ∨ cause = 3 ∨ cause = 4 ∨ cause = 15 := by
  obtain ⟨wanting, hphase⟩ := assertReset_phase cause s
  rw [hphase, phaseAfter_dormant, isBrownOut_iff]

theorem assertReset_serves : (assertReset cause s).serves = false := by
  obtain ⟨wanting, hphase⟩ := assertReset_phase cause s
  have hrunning : (assertReset cause s).power.phase ≠ .running := hphase ▸ phaseAfter_ne_running cause wanting
  simp [State.serves, State.up, State.clocked, hrunning]

theorem assertReset_permit (p : Port) : (assertReset cause s).permit p = false := by
  have hpermits : (assertReset cause s).steeple.permits = Steeple.reset.permits := rfl
  unfold State.permit
  rw [hpermits]
  simp [Steeple.reset]

/-- A lane after the reset: in DISABLED, with its outputs off and its enable kept (R140). -/
theorem assertReset_lane (p : Port) : ∃ civil, (assertReset cause s).lane p =
    { (s.lane p).restart false civil with closeStep5Ok := false, openStep3Ok := false } := by
  refine ⟨s.reloaded.civil, ?_⟩
  unfold State.lane
  rw [assertReset_turret, reloaded_turret]
  simp [Turret.boot]

theorem assertReset_drives (p : Port) : ((assertReset cause s).lane p).state = .disabled ∧ ((assertReset cause s).lane p).ctd = false ∧
    ((assertReset cause s).lane p).pbd = false ∧ ((assertReset cause s).lane p).enabled = (s.lane p).enabled := by
  obtain ⟨civil, hlane⟩ := assertReset_lane cause s p
  rw [hlane]
  exact ⟨rfl, rfl, rfl, rfl⟩

end

/-- The cut that loses what was not yet stored: a brown-out or a power-on (R281). -/
theorem cut_iff (cause : Nat) :
    (isBrownOut cause || cause == 1) = true ↔ cause = 1 ∨ cause = 2 ∨ cause = 3 ∨ cause = 4 ∨ cause = 15 := by
  rw [Bool.or_eq_true, isBrownOut_iff, beq_iff_eq]
  exact or_comm

/-- Without a cut every entry of the record is kept. -/
theorem recordBefore_next (t : Steeple) : t.recordBefore t.nextIndex = t.record := by
  have hnone : w32 (t.nextIndex + 4294967296 - t.nextIndex) = 0 := by
    rw [Nat.add_sub_cancel_left]
    rfl
  unfold Steeple.recordBefore
  rw [hnone]
  exact List.take_length

theorem boot_uncut (t : Steeple) (now : Nat) : (t.boot now false).committed = t.committed ∧ (t.boot now false).hub = t.hub ∧
    (t.boot now false).ports = t.ports ∧ (t.boot now false).nextIndex = t.nextIndex ∧ (t.boot now false).record = t.record :=
  ⟨rfl, rfl, rfl, rfl, recordBefore_next t⟩

theorem boot_cut (t : Steeple) (now : Nat) : (t.boot now true).committed = t.stored.block ∧ (t.boot now true).hub = t.stored.hub ∧
    (t.boot now true).ports = t.stored.ports ∧ (t.boot now true).nextIndex = t.stored.nextIndex := ⟨rfl, rfl, rfl, rfl⟩

theorem boot_keySlot (c : Cupola) (i : Fin 6) : c.boot.slots[i].key = c.slots[i].key ∧ c.boot.slots[i].staged = none := by
  simp [Cupola.boot]

/-- Settles O58: Rotunda restarts and reloads its mirrors, every other island boots from what it kept. What is kept of that which R505
does not name (log 124), and that a cut leaves the copy of Steeple's Safety region that was complete (log 164), is the model's choice. -/
theorem deviceResetClearsAndKeeps : Obligations.DeviceResetClearsAndKeeps := by
  intro cause s
  dsimp only
  refine ⟨assertReset_cause .., assertReset_boots .., assertReset_assertedTime .., assertReset_dormant .., assertReset_serves ..,
    assertReset_mailbox cause s, fun p => ⟨assertReset_permit cause s p, assertReset_drives cause s p⟩, assertReset_persistent cause s,
    assertReset_lantern .., rfl, assertReset_committed .., assertReset_applied .., ?trips, ?uncut, ?cut, assertReset_legalLog ..,
    assertReset_saved .., ?keys, ?selector, ?record, ?nodes, ?list, ?writes⟩
  case trips => rw [assertReset_steeple, reloaded_steeple]; rfl
  case uncut =>
    intro h1 h2 h3 h4 h15
    have hcut : (isBrownOut cause || cause == 1) = false := by
      rw [← Bool.not_eq_true, cut_iff]
      simp [h1, h2, h3, h4, h15]
    rw [assertReset_steeple, reloaded_steeple, hcut]
    exact boot_uncut ..
  case cut =>
    intro h
    rw [assertReset_steeple, reloaded_steeple, (cut_iff cause).2 h]
    exact boot_cut ..
  case keys =>
    intro i
    unfold State.keySlot
    rw [assertReset_cupola, reloaded_cupola]
    exact boot_keySlot s.cupola i
  case selector => rw [assertReset_update, reloaded_update]; rfl
  case record => rw [assertReset_update, reloaded_update]; rfl
  case nodes => rw [assertReset_belfry, reloaded_belfry]; rfl
  case list => rw [assertReset_oculus, reloaded_oculus]; exact abandonReach_list s
  case writes =>
    intro hnone
    rw [assertReset_oculus, reloaded_oculus, abandonReach_of_none hnone]
    rfl

end Sys2Proof.Machine
end

section
/-! Clock monitors, watchdogs and block-level resets (R19 to R21, R504, R520, R521). -/

namespace Sys2Proof.Machine

/-! ## Clocks -/

theorem exec_clockLost_of_good {c : Clock} {s : State} (hmonitored : s.monitored c = true)
    (hgood : s.power.lostClocks.contains c = false) : exec (.clockLost c) s = .next (loseClock c s) :=
  if_pos (by rw [hmonitored, hgood]; rfl)

theorem exec_clockGood_of_lost {c : Clock} {s : State} (haon : s.aon = true) (hlost : s.power.lostClocks = [c])
    (hcrystal : c ≠ .crystal) : exec (.clockGood c) s = .next (regainClock c (s.withPower { s.power with lostClocks := [] })) := by
  have hgood : s.canBeGood c = true := by simp [State.canBeGood, hlost, hcrystal.symm]
  have hdrop : dropClock c [c] = [] := by simp [dropClock]
  have hrun : (s.aon && s.power.lostClocks.contains c && s.canBeGood c) = true := by simp [haon, hlost, hgood]
  refine (if_pos hrun).trans ?_
  rw [hlost, hdrop]

/-- An island whose clock is good again leaves reset when nothing else keeps it there. -/
theorem releaseIsland_of_free (c : Clock) (restart : State → State) {s : State} (hstartup : s.power.startupFaults = [])
    (hrestarting : s.power.restarting = []) :
    releaseIsland c restart s = restart (s.withPower { s.power with held := dropClock c s.power.held }) := by
  refine if_neg ?_
  rw [State.restarting, hstartup, hrestarting]
  exact Bool.false_ne_true

theorem contains_addClocks {c : Clock} {new_ l : List Clock} (h : c ∈ new_) : (addClocks new_ l).contains c = true := by
  by_cases hc : c ∈ l <;> simp [addClocks, hc, h]

theorem up_of_lost {c : Clock} {s : State} (h : s.power.lostClocks.contains c = true) : s.up c = false := by
  unfold State.up State.clocked
  rw [h]
  simp

/-- Belfry's clock lost leaves Belfry in reset, and Steeple as it was (R19). -/
theorem loseClock_belfry (s : State) : (loseClock .cd8 s).up .cd8 = false ∧ (loseClock .cd8 s).power.held.contains .cd8 = true ∧
    (loseClock .cd8 s).steeple = s.steeple :=
  ⟨up_of_lost (contains_addClocks (List.mem_singleton.2 rfl)), contains_addClocks (by decide), rfl⟩

theorem exec_clockDeviation_of_up {s : State} (h : s.steepleUp = true) : exec .clockDeviation s =
    .next (decideFault 0x0803 none [] false (s.withSteeple { s.steeple with clocksGoodAt := s.now })) := if_pos h

theorem releaseAsked_of_supplied (c : Clock) {s : State} (h : s.power.phase = .supplied) : s.releaseAsked c = s.power.suppliedAt :=
  if_pos h

theorem exec_islandReleaseTimeout_of_early {c : Clock} {s : State} (hsupplied : s.power.phase = .supplied)
    (hearly : s.now < s.power.suppliedAt + 2) : exec (.islandReleaseTimeout c) s = .next s := by
  refine if_pos ?_
  rw [releaseAsked_of_supplied c hsupplied, not_due_of_lt hearly]
  rfl

theorem exec_islandReleaseTimeout_of_due {c : Clock} {s : State} (hsupplied : s.power.phase = .supplied) (hc : c ≠ .cd0)
    (hdue : s.power.suppliedAt + 2 ≤ s.now) : exec (.islandReleaseTimeout c) s = .next (recordStartupFault c s) := by
  refine (if_neg ?_).trans (if_pos ⟨hsupplied, hc⟩)
  rw [releaseAsked_of_supplied c hsupplied, due_of_le hdue]
  decide

theorem recordStartupFault_held (c : Clock) (s : State) : (recordStartupFault c s).power.startupFaults.contains c = true ∧
    (recordStartupFault c s).power.held.contains c = true :=
  ⟨contains_addClocks (List.mem_singleton.2 rfl), contains_addClocks (List.mem_singleton.2 rfl)⟩

/-! ## The restart of Rotunda by its watchdog -/

theorem noteRestart_unlinked (code : Nat) (port : Option Port) (s : State) : (noteRestart code port s).unlinked =
    (s.withPower { s.power with lastRestart := code, restartPort := port, restartTime := s.time }).unlinked := raise_unlinked ..

theorem unlinked_lastRestart {s t : State} (h : s.unlinked = t.unlinked) : s.power.lastRestart = t.power.lastRestart := by
  have e := congrArg (fun u : State => u.power.lastRestart) h
  exact e

theorem noteRestart_lastRestart (code : Nat) (port : Option Port) (s : State) : (noteRestart code port s).power.lastRestart = code := by
  rw [unlinked_lastRestart (noteRestart_unlinked code port s), withPower_power]

theorem noteRestart_box_of_unattached {s : State} {b : Box} (code : Nat) (port : Option Port) (h : (s.box b).session = none) :
    (noteRestart code port s).box b = s.box b := by
  unfold noteRestart raise
  exact raiseAlso_box_of_unattached _ _ _ h

/-- Rotunda restarted and its SRAM cleared, before the restart is announced. -/
def State.rotundaCleared (s : State) : State := clearRegion 0 (restartRotunda false s)

theorem rotundaCleared_box (s : State) (b : Box) : s.rotundaCleared.box b = (restartRotunda false s).box b := setRegion_box ..

theorem rotundaCleared_rotunda (s : State) : s.rotundaCleared.rotunda = (restartRotunda false s).rotunda := setRegion_rotunda ..

theorem rotundaCleared_turret (s : State) : s.rotundaCleared.turret = s.turret :=
  (setRegion_turret ..).trans (restartRotunda_turret false s)

theorem rotundaCleared_steeple (s : State) : s.rotundaCleared.steeple = s.steeple :=
  (setRegion_steeple ..).trans (restartRotunda_steeple false s)

/-- The mailboxes serve again at a time (R73). -/
def State.servingFrom (s : State) (time : Nat) : State := s.withPower { s.power with serveAt := some time }

theorem servingFrom_box (s : State) (time : Nat) (b : Box) : (s.servingFrom time).box b = s.box b := rfl

theorem servingFrom_rotunda (s : State) (time : Nat) : (s.servingFrom time).rotunda = s.rotunda := rfl

theorem servingFrom_turret (s : State) (time : Nat) : (s.servingFrom time).turret = s.turret := rfl

theorem servingFrom_steeple (s : State) (time : Nat) : (s.servingFrom time).steeple = s.steeple := rfl

theorem servingFrom_serveAt (s : State) (time : Nat) : (s.servingFrom time).power.serveAt = some time := rfl

theorem servingFrom_lastRestart (s : State) (time : Nat) : (s.servingFrom time).power.lastRestart = s.power.lastRestart := rfl

theorem rotundaRestart_eq (s : State) : rotundaRestart s = (noteRestart 6 none s.rotundaCleared).servingFrom (s.now + 30) := by
  unfold rotundaRestart State.rotundaCleared
  generalize noteRestart 6 none (clearRegion 0 (restartRotunda false s)) = u
  rfl

theorem rotundaRestart_lastRestart (s : State) : (rotundaRestart s).power.lastRestart = 6 := by
  rw [rotundaRestart_eq, servingFrom_lastRestart, noteRestart_lastRestart]

theorem rotundaRestart_serveAt (s : State) : (rotundaRestart s).power.serveAt = some (s.now + 30) := by
  rw [rotundaRestart_eq, servingFrom_serveAt]

theorem rotundaRestart_box (s : State) (b : Box) : (rotundaRestart s).box b = (restartRotunda false s).box b := by
  have hsession : (s.rotundaCleared.box b).session = none := by
    rw [rotundaCleared_box]
    exact (restartRotunda_mailbox false s b).1
  rw [rotundaRestart_eq, servingFrom_box, noteRestart_box_of_unattached _ _ hsession, rotundaCleared_box]

theorem rotundaRestart_committed (s : State) : (rotundaRestart s).rotunda.committed = s.rotunda.committed := by
  rw [rotundaRestart_eq, servingFrom_rotunda, unlinked_committed (noteRestart_unlinked ..), withPower_rotunda, rotundaCleared_rotunda,
    restartRotunda_committed]

theorem rotundaRestart_channels (s : State) : (rotundaRestart s).rotunda.channels = (restartRotunda false s).rotunda.channels := by
  rw [rotundaRestart_eq, servingFrom_rotunda, unlinked_channels (noteRestart_unlinked ..), withPower_rotunda, rotundaCleared_rotunda]

theorem rotundaRestart_turret (s : State) : (rotundaRestart s).turret = s.turret := by
  rw [rotundaRestart_eq, servingFrom_turret, unlinked_turret (noteRestart_unlinked ..), withPower_turret, rotundaCleared_turret]

theorem rotundaRestart_steeple (s : State) : (rotundaRestart s).steeple = s.steeple := by
  rw [rotundaRestart_eq, servingFrom_steeple, unlinked_steeple (noteRestart_unlinked ..), withPower_steeple, rotundaCleared_steeple]

theorem rotundaRestart_lane (s : State) (p : Port) : (rotundaRestart s).lane p = s.lane p := by
  unfold State.lane
  rw [rotundaRestart_turret]

theorem rotundaRestart_mailbox (s : State) (b : Box) : ((rotundaRestart s).box b).session = none ∧
    ((rotundaRestart s).box b).stage = none ∧ ((rotundaRestart s).box b).inRing = [] := by
  rw [rotundaRestart_box]
  obtain ⟨hsession, hin, -, hstage⟩ := restartRotunda_mailbox false s b
  exact ⟨hsession, hstage, hin⟩

theorem rotundaRestart_persistent {s : State} {c : Channel} (h : c ∈ (rotundaRestart s).rotunda.channels) :
    c.body.persistent = true := by
  rw [rotundaRestart_channels] at h
  exact restartRotunda_persistent h

/-! ## Block-level resets -/

section
variable {b : Box} {f : Frame} {r : Req} {s t : State} {x : Clock × Option Port}

theorem Asked.exec_blockReset (h : Asked b 0x0115 f r s) : exec (.blockReset b) s = .next (blockReset r (taken b f s)) :=
  h.request blockReset

theorem resettable_of_unlinked (h : s.unlinked = t.unlinked) (x : Clock × Option Port) : s.resettable x = t.resettable x := by
  have hrestarting : s.power.restarting = t.power.restarting := by
    have e := congrArg (fun u : State => u.power.restarting) h
    exact e
  have hquiet : s.oculusQuiet = t.oculusQuiet := by
    unfold State.oculusQuiet
    rw [unlinked_oculus h, unlinked_channels h]
  have hlanes : s.laneQuiet = t.laneQuiet := by
    funext p
    unfold State.laneQuiet
    rw [unlinked_lane h]
  unfold State.resettable
  rw [hrestarting, unlinked_held h, unlinked_belfry h, hquiet, hlanes]

section
variable (hlen : r.payload.length = 4) (hhandle : r.handle = 0)
  (htarget : resetTarget (field r.payload 0 1) (field r.payload 1 1) = some x)
include hlen hhandle htarget

theorem blockReset_of_target : blockReset r s = check (s.resettable x) stRefusedState r (beginReset r x) s := by
  unfold blockReset
  rw [withLength_of_length hlen, noHandle_of_zero hhandle, htarget]

theorem blockReset_of_resettable (h : s.resettable x = true) : blockReset r s = beginReset r x s := by
  rw [blockReset_of_target hlen hhandle htarget, check_of_true h]

theorem blockReset_of_busy (h : s.resettable x = false) : blockReset r s = refuse r stRefusedState s := by
  rw [blockReset_of_target hlen hhandle htarget, check_of_false h]

end

end

/-- A lane restarted is in DISABLED with its outputs off, and its enable as it was (R520). -/
theorem restartLane_drives (p : Port) (s : State) : ((restartLane p s).lane p).state = .disabled ∧
    ((restartLane p s).lane p).ctd = false ∧ ((restartLane p s).lane p).pbd = false ∧
    ((restartLane p s).lane p).enabled = (s.lane p).enabled := by
  have hsettled := (settlePort_unhosted (settlePort 0x0401 p stIslandRestarting s) 0x0402 p stIslandRestarting).trans
    (settlePort_unhosted s 0x0401 p stIslandRestarting)
  unfold restartLane
  dsimp only
  rw [lane_setLane, unhosted_lane hsettled]
  simp only [stamp_state, stamp_ctd, stamp_pbd, stamp_enabled]
  exact ⟨rfl, rfl, rfl, rfl⟩

/-- The block-level reset of a lane restarts it at once. -/
theorem beginReset_lane (r : Req) (p : Port) (s : State) : ∃ t, beginReset r (.cd2, some p) s = restartLane p t ∧ t.lane p = s.lane p :=
  ⟨_, rfl, (withPower_lane _ _ p).trans (accept_lane s r p)⟩

theorem beginReset_drives (r : Req) (p : Port) (s : State) : ((beginReset r (.cd2, some p) s).lane p).state = .disabled ∧
    ((beginReset r (.cd2, some p) s).lane p).ctd = false ∧ ((beginReset r (.cd2, some p) s).lane p).pbd = false ∧
    ((beginReset r (.cd2, some p) s).lane p).enabled = (s.lane p).enabled := by
  obtain ⟨t, hreset, hlane⟩ := beginReset_lane r p s
  rw [hreset, ← hlane]
  exact restartLane_drives p t

theorem exec_blockResetComplete_of_restarting {s : State} {x : Clock × Option Port × Waiting}
    {rest : List (Clock × Option Port × Waiting)} (hrestarting : s.power.restarting = x :: rest) (hruns : s.power.phase = .running)
    (hgood : s.power.lostClocks.contains x.1 = false) :
    exec .blockResetComplete s = .next (finish x.2.2 stOk [] (endReset_ x (s.withPower { s.power with
      restarting := rest, askedAt := s.power.askedAt.filter (fun y => y.1 != x.1) }))) := by
  have hdone : execBlockResetComplete s = .next (finish x.2.2 stOk [] (endReset_ x (s.withPower { s.power with
      restarting := rest, askedAt := s.power.askedAt.filter (fun y => y.1 != x.1) }))) := by
    unfold execBlockResetComplete
    rw [hrestarting]
    exact if_pos ⟨hruns, hgood⟩
  exact hdone

/-- Settles O56. That the mailboxes serve again 30 ms after a restart of Rotunda (log 163), and for which islands a release that is
overdue is a start-up fault (log 130), are the model's choices. -/
theorem clocksAndRestarts : Obligations.ClocksAndRestarts := by
  unfold Obligations.ClocksAndRestarts
  refine ⟨fun c s => exec_clockLost_of_good, loseClock_belfry, fun s => rfl, ?belfryGood, ?turretGood, fun s => exec_clockDeviation_of_up,
    fun c s => exec_islandReleaseTimeout_of_early, ?faulted, fun s h => if_pos h, fun s h => if_pos h, fun s h => if_pos h,
    fun s h => if_pos h, ?rotunda, ?resets, ?busy, beginReset_drives, fun s x rest => exec_blockResetComplete_of_restarting⟩
  case belfryGood =>
    intro s haon hlost hstartup hrestarting
    rw [exec_clockGood_of_lost haon hlost (by decide)]
    exact congrArg Host.Outcome.next (releaseIsland_of_free .cd8 (belfryRestart 8) hstartup hrestarting)
  case turretGood =>
    intro s haon hlost
    rw [exec_clockGood_of_lost haon hlost (by decide)]
    rfl
  case faulted =>
    intro c s hsupplied hc hdue
    exact ⟨_, exec_islandReleaseTimeout_of_due hsupplied hc hdue, recordStartupFault_held c s⟩
  case rotunda =>
    exact fun s => ⟨rotundaRestart_lastRestart s, rotundaRestart_serveAt s, rotundaRestart_mailbox s, rotundaRestart_committed s,
      rotundaRestart_steeple s, rotundaRestart_lane s, fun c => rotundaRestart_persistent⟩
  case resets =>
    intro b f r s x hasked hlen hhandle htarget hresettable
    rw [← resettable_of_unlinked (taken_unlinked s b f)] at hresettable
    rw [hasked.exec_blockReset, blockReset_of_resettable hlen hhandle htarget hresettable]
  case busy =>
    intro b f r s x hasked hlen hhandle htarget hbusy
    rw [← resettable_of_unlinked (taken_unlinked s b f)] at hbusy
    rw [hasked.exec_blockReset, blockReset_of_busy hlen hhandle htarget hbusy]
    rfl

end Sys2Proof.Machine
end

section
/-! SUPPORT. What hold-up's openings and writes leave of the power state: the phase, the islands held, and the hold-up itself (R509). -/

namespace Sys2Proof.Machine

/-- What says which islands run, and how the supply stands. -/
structure SupplyView where
  phase : DevicePhase
  held : List Clock
  lostClocks : List Clock
  serveAt : Option Nat
  holdUp : Bool
  powerOff : Option Nat

def Power.supplyView (x : Power) : SupplyView := ⟨x.phase, x.held, x.lostClocks, x.serveAt, x.holdUp, x.powerOff⟩

def State.supplyView (s : State) : SupplyView := s.power.supplyView

section
variable {s t : State}

theorem supplyView_of_power (h : s.power = t.power) : s.supplyView = t.supplyView := congrArg Power.supplyView h

theorem supplyView_of_unhosted (h : s.unhosted = t.unhosted) : s.supplyView = t.supplyView := by
  have e := congrArg (fun u : State => u.supplyView) h
  exact e

theorem supplyView_of_unlinked (h : s.unlinked = t.unlinked) : s.supplyView = t.supplyView :=
  supplyView_of_unhosted (unhosted_of_unlinked h)

theorem supplyView_of_unposted (h : s.unposted = t.unposted) : s.supplyView = t.supplyView := by
  have e := congrArg (fun u : State => u.supplyView) h
  exact e

theorem keepUp_of_supplyView (h : s.supplyView = t.supplyView) : s.keepUp = t.keepUp := by
  have hphase : s.power.phase = t.power.phase := congrArg SupplyView.phase h
  have hheld : s.power.held = t.power.held := congrArg SupplyView.held h
  have hlost : s.power.lostClocks = t.power.lostClocks := congrArg SupplyView.lostClocks h
  have hserve : s.power.serveAt = t.power.serveAt := congrArg SupplyView.serveAt h
  simp only [State.keepUp, State.up, State.clocked, hphase, hheld, hlost, hserve]

theorem foldl_supplyView {α : Type} {f : State → α → State} (hf : ∀ a s, (f s a).supplyView = s.supplyView) (l : List α) (s : State) :
    (l.foldl f s).supplyView = s.supplyView :=
  List.foldlRecOn (motive := fun t : State => t.supplyView = s.supplyView) l f rfl fun t ht a _ => (hf a t).trans ht

end

/-! ## Openings -/

section
variable (p : Port) (n : Nat)

theorem creditEnergised_supplyView (s : State) : (creditEnergised p s).supplyView = s.supplyView := by
  rcases creditEnergised_cases s p with h | h
  · exact supplyView_of_unhosted h
  · exact (supplyView_of_unhosted h).trans (supplyView_of_power (modLane_power ..))

theorem leaving_supplyView (s : State) : (s.leaving p).supplyView = s.supplyView := by
  unfold State.leaving
  split
  · exact creditEnergised_supplyView p s
  · rfl

theorem post_supplyView (o : Option Port) (c : QContent) (s : State) : (post o c s).supplyView = s.supplyView :=
  supplyView_of_unposted (post_unposted o c s)

theorem modLane_supplyView (f : Lane → Lane) (s : State) : (s.modLane p f).supplyView = s.supplyView :=
  supplyView_of_power (modLane_power ..)

theorem transit_supplyView (st : PortState) (s : State) : (transit p n st s).supplyView = s.supplyView := by
  unfold transit
  dsimp only
  rw [post_supplyView, supplyView_of_unlinked (trace_unlinked ..), modLane_supplyView]
  exact leaving_supplyView p s

theorem postOutcomeOf_supplyView (kind result start : Nat) (s : State) :
    (postOutcomeOf p kind result start s).supplyView = s.supplyView := by
  unfold postOutcomeOf postOutcomeAt
  rw [post_supplyView, modLane_supplyView]

theorem beginOpening_supplyView (step : Nat) (t : Target) (s : State) :
    (beginOpening p false step n t s).supplyView = s.supplyView := by
  unfold beginOpening clearFallbacks
  dsimp only
  rw [if_neg Bool.false_ne_true, transit_supplyView, modLane_supplyView, modLane_supplyView]

theorem normalOpening_supplyView (t : Target) (s : State) : (normalOpening p n t s).supplyView = s.supplyView := by
  unfold normalOpening
  dsimp only
  split
  · split
    · rw [beginOpening_supplyView, postOutcomeOf_supplyView]
    · exact modLane_supplyView ..
  · exact beginOpening_supplyView ..

theorem holdUpOpening_supplyView (s : State) : (holdUpOpening s p).supplyView = s.supplyView := by
  unfold holdUpOpening
  split
  · exact normalOpening_supplyView ..
  · exact normalOpening_supplyView ..
  · exact normalOpening_supplyView ..
  · rfl

end

/-! ## The writes completed -/

section
variable (s : State)

theorem finish_supplyView (w : Waiting) (status : Nat) (pl : List Byte) : (finish w status pl s).supplyView = s.supplyView :=
  supplyView_of_unlinked (finish_unlinked ..)

theorem raise_supplyView (code : Nat) (o : Option Port) (pl : List Byte) : (raise code o pl s).supplyView = s.supplyView :=
  supplyView_of_unlinked (raise_unlinked ..)

theorem withKeep_supplyView (k : Keep) : (s.withKeep k).supplyView = s.supplyView := supplyView_of_power (withKeep_power ..)

theorem afterSave_supplyView (w : SaveFor) : (afterSave s w).supplyView = s.supplyView := by
  unfold afterSave
  split
  · split
    · exact finish_supplyView ..
    · rfl
  · split
    · exact finish_supplyView ..
    · rfl
  · rfl
  · rfl

theorem completeSave_supplyView : (completeSave s).supplyView = s.supplyView := by
  unfold completeSave
  split
  · exact (foldl_supplyView (fun w t => afterSave_supplyView t w) _ _).trans (withKeep_supplyView ..)
  · rfl

theorem programLog_supplyView (origin handle old new_ : Nat) : (programLog origin handle old new_ s).supplyView = s.supplyView := by
  unfold programLog keepLog logAppend
  rw [raise_supplyView]
  exact supplyView_of_power (withLegal_power ..)

theorem setProgram_supplyView (handle : Nat) (st : ProgramState) : (setProgram handle st s).supplyView = s.supplyView :=
  supplyView_of_unhosted (setProgram_unhosted ..)

theorem programChanged_supplyView (c : Nat × Nat × Nat) : (programChanged s c).supplyView = s.supplyView := by
  unfold programChanged
  dsimp only
  rw [raise_supplyView, programLog_supplyView]
  split
  · rw [setProgram_supplyView]
    split
    · rfl
    · rw [programLog_supplyView, setProgram_supplyView]
  · rw [setProgram_supplyView]

theorem finishTimeSet_supplyView (count : Nat) (w : Waiting) : (finishTimeSet count s w).supplyView = s.supplyView := by
  unfold finishTimeSet
  rw [raise_supplyView, finish_supplyView]

theorem finishKeepWaiting_supplyView (b : BoundaryWrite) : (finishKeepWaiting b s).supplyView = s.supplyView := by
  unfold finishKeepWaiting
  refine (foldl_supplyView (fun w t => ?_) _ _).trans (withKeep_supplyView ..)
  split
  · exact finishTimeSet_supplyView ..
  · exact finish_supplyView ..

theorem commitWrite_supplyView : (commitWrite s).supplyView = s.supplyView := by
  unfold commitWrite
  split
  · rfl
  · dsimp only
    rw [foldl_supplyView (fun w t => afterSave_supplyView t w), supplyView_of_unlinked (trace_unlinked ..), finishKeepWaiting_supplyView,
      foldl_supplyView (fun c t => programChanged_supplyView t c)]
    split
    · rw [raise_supplyView, raise_supplyView, withKeep_supplyView]
    · rw [raise_supplyView, withKeep_supplyView]

theorem holdUpKeep_supplyView : (holdUpKeep s).supplyView = s.supplyView := by
  unfold holdUpKeep
  split
  · dsimp only
    rw [withKeep_supplyView, commitWrite_supplyView, completeSave_supplyView]
  · rfl

end

theorem holdUpKeep_of_up {s : State} (h : s.keepUp = true) :
    (holdUpKeep s).keep.mark = none ∧ (holdUpKeep s).keep.marking.isSome = true := by
  unfold holdUpKeep
  rw [if_pos h]
  exact ⟨rfl, rfl⟩

/-! ## The entry -/

/-- The state at the entry, before Turret's openings. -/
def State.heldUp (s : State) : State :=
  (s.withPower { s.power with holdUp := true, powerOff := some s.time }).withSteeple { s.steeple with vddioLow := true }

/-- The entry's openings done. -/
def State.heldUpOpened (s : State) : State := if s.heldUp.turretUp then allPorts.foldl holdUpOpening s.heldUp else s.heldUp

theorem holdUpEntry_eq (s : State) : holdUpEntry s = raiseSupplyState 1 (holdUpKeep s.heldUpOpened) := rfl

theorem heldUpOpened_supplyView (s : State) : s.heldUpOpened.supplyView = s.heldUp.supplyView := by
  unfold State.heldUpOpened
  split
  · exact foldl_supplyView (fun p t => holdUpOpening_supplyView p t) _ _
  · rfl

theorem heldUp_keepUp (s : State) : s.heldUp.keepUp = s.keepUp := rfl

theorem holdUpEntry_supplyView (s : State) : (holdUpEntry s).supplyView =
    { s.supplyView with holdUp := true, powerOff := some s.time } := by
  rw [holdUpEntry_eq, raiseSupplyState, raise_supplyView, holdUpKeep_supplyView, heldUpOpened_supplyView]
  rfl

theorem holdUpEntry_keep (s : State) : (holdUpEntry s).keep = (holdUpKeep s.heldUpOpened).keep := by
  rw [holdUpEntry_eq, raiseSupplyState, raise_keep]

theorem holdUpEntry_mark {s : State} (h : s.keepUp = true) :
    (holdUpEntry s).keep.mark = none ∧ (holdUpEntry s).keep.marking.isSome = true := by
  rw [holdUpEntry_keep]
  exact holdUpKeep_of_up ((keepUp_of_supplyView (heldUpOpened_supplyView s)).trans ((heldUp_keepUp s).trans h))

end Sys2Proof.Machine
end

section
/-! Supplies, hold-up, Dormant and the sources of a device reset (R238, R504, R507 to R511, R522 to R526). -/

namespace Sys2Proof.Machine

/-! ## SOFT_RESET and DORMANT -/

section
variable {b : Box} {f : Frame} {r : Req} {s t : State}

theorem Asked.exec_softReset (h : Asked b 0x0113 f r s) : exec (.softReset b) s = .next (shutdownRequest false r (taken b f s)) :=
  h.request softReset

theorem Asked.exec_dormant (h : Asked b 0x0114 f r s) : exec (.dormant b) s = .next (shutdownRequest true r (taken b f s)) :=
  h.request dormantRequest

theorem anyBusy_of_unlinked (h : s.unlinked = t.unlinked) : s.anyBusy = t.anyBusy := by
  simp only [State.anyBusy, unlinked_lane h]

theorem shuttingDown_of_unlinked (h : s.unlinked = t.unlinked) : s.shuttingDown = t.shuttingDown := by
  have hshutdown := congrArg (fun u : State => u.power.shutdown) h
  have hreset := congrArg (fun u : State => u.power.pendingReset) h
  have hdormant := congrArg (fun u : State => u.power.pendingDormant) h
  have e1 : s.power.shutdown = t.power.shutdown := hshutdown
  have e2 : s.power.pendingReset = t.power.pendingReset := hreset
  have e3 : s.power.pendingDormant = t.power.pendingDormant := hdormant
  rw [State.shuttingDown, State.shuttingDown, e1, e2, e3]

/-- A shutdown asked for. -/
def State.shutdownAsked (s : State) (d : Shutdown) : State := s.withPower { s.power with shutdown := some d }

/-- With no opening to wait for, the shutdown asks for its save, and DORMANT ends the claim (R523, R526). -/
theorem shutdownStep_of_idle {d : Shutdown} (hwaits : d.waitingOpenings = true) (hidle : s.anyBusy = false) :
    (shutdownStep (s.shutdownAsked d)).power.shutdown = some { d with waitingOpenings := false, waitingSave := true } ∧
    (shutdownStep (s.shutdownAsked d)).keep.saveWanted = s.keep.saveWanted ++ [if d.dormant then .dormant else .softReset] ∧
    (d.dormant = true → (shutdownStep (s.shutdownAsked d)).update.claim = none) := by
  have hasked : (s.shutdownAsked d).power.shutdown = some d := rfl
  have hbusy : (s.shutdownAsked d).anyBusy = false := hidle
  have hkeep : (s.shutdownAsked d).keep = s.keep := rfl
  rw [shutdownStep, hasked, Option.any_some, hwaits, hbusy, if_pos (by rfl), proceedShutdown, hasked, ← hkeep]
  dsimp only
  cases d.dormant with
  | true => exact ⟨rfl, rfl, fun _ => rfl⟩
  | false => exact ⟨rfl, rfl, fun h => absurd h Bool.false_ne_true⟩

section
variable {dormant : Bool} (hlen : r.payload.length = 4) (hhandle : r.handle = 0) (hmode : field r.payload 0 1 = 0)
include hlen hhandle hmode

theorem shutdownRequest_of_busy (hbusy : s.anyBusy = true) : shutdownRequest dormant r s = refuse r stSwitchClosed s := by
  unfold shutdownRequest
  rw [withLength_of_length hlen, noHandle_of_zero hhandle, hmode, check_of_true (decide_eq_true (Nat.zero_le 1)), hbusy,
    check_of_false (by rfl)]

theorem shutdownRequest_of_idle (hidle : s.anyBusy = false) (hfree : s.shuttingDown = false) : shutdownRequest dormant r s =
    shutdownStep ((accept r s).shutdownAsked ⟨dormant, true, false, s.now, r.wait⟩) := by
  unfold shutdownRequest
  rw [withLength_of_length hlen, noHandle_of_zero hhandle, hmode, check_of_true (decide_eq_true (Nat.zero_le 1)), hidle,
    check_of_true (by rfl), hfree, check_of_true (by rfl)]
  rfl

theorem shutdownRequest_asks (hidle : s.anyBusy = false) (hfree : s.shuttingDown = false) :
    (shutdownRequest dormant r s).power.shutdown = some ⟨dormant, false, true, s.now, r.wait⟩ ∧
    (shutdownRequest dormant r s).keep.saveWanted = s.keep.saveWanted ++ [if dormant then .dormant else .softReset] ∧
    (dormant = true → (shutdownRequest dormant r s).update.claim = none) := by
  have hstep := shutdownStep_of_idle (s := accept r s) (d := ⟨dormant, true, false, s.now, r.wait⟩) rfl
    ((anyBusy_of_unlinked (accept_unlinked s r)).trans hidle)
  rw [accept_keep] at hstep
  rw [shutdownRequest_of_idle hlen hhandle hmode hidle hfree]
  exact hstep

end

end

theorem exec_shutdownOpeningsTimeout_of_due {s : State} {d : Shutdown} (h : s.power.shutdown = some d) (hwaits : d.waitingOpenings = true)
    (hdue : d.startedAt + 60000 ≤ s.now) : exec .shutdownOpeningsTimeout s =
    .next (finish d.request stSwitchClosed [] (s.withPower { s.power with shutdown := none })) := by
  have hend : execShutdownOpeningsTimeout s = .next (finish d.request stSwitchClosed [] (s.withPower { s.power with shutdown := none })) := by
    unfold execShutdownOpeningsTimeout
    rw [h]
    exact if_pos (by rw [hwaits, due_of_le hdue]; rfl)
  exact hend

theorem exec_softResetExecute_of_due {s : State} {t : Nat} (h : s.power.pendingReset = some t) (haon : s.aon = true) (hdue : t ≤ s.now) :
    exec .softResetExecute s = .next (assertReset 11 s) := by
  have hreset : execSoftResetExecute s = .next (assertReset 11 s) := by
    unfold execSoftResetExecute
    rw [h]
    exact if_pos (by rw [haon, due_of_le hdue]; rfl)
  exact hreset

theorem exec_dormantEntry_of_due {s : State} {t : Nat} (h : s.power.pendingDormant = some t) (haon : s.aon = true) (hdue : t ≤ s.now) :
    exec .dormantEntry s = .next (enterDormant s) := by
  have henter : execDormantEntry s = .next (enterDormant s) := by
    unfold execDormantEntry
    rw [h]
    exact if_pos (by rw [haon, due_of_le hdue]; rfl)
  exact henter

/-- Commanded Dormant is a reset of code 13 (R526). -/
theorem enterDormant_stays {s : State} (hpower : s.power.holdUp = false) (hwake : s.power.wakePending = false) :
    (enterDormant s).power.phase = .commandedDormant ∧ (enterDormant s).power.cause = 13 := by
  unfold enterDormant
  rw [hpower, hwake]
  have hcause := assertReset_cause 13 s
  generalize assertReset 13 s = u at hcause ⊢
  exact ⟨rfl, hcause⟩

/-! ## Sources of a device reset -/

/-- A brown-out is a device reset with its code; only the supply fault record may come to it. -/
theorem brownOut_cases (x : Supply) (s : State) : brownOut x s = assertReset (brownOutCode x) s ∨
    brownOut x s = (assertReset (brownOutCode x) s).withPower
      { (assertReset (brownOutCode x) s).power with supplyFault := some x } := by
  unfold brownOut
  dsimp only
  split
  · exact .inl rfl
  · exact .inr rfl

theorem isBrownOut_brownOutCode (x : Supply) : isBrownOut (brownOutCode x) = true := by cases x <;> rfl

theorem brownOut_rests (x : Supply) (s : State) : (brownOut x s).power.phase = .dormant ∧ (brownOut x s).power.cause = brownOutCode x ∧
    ∀ p, (brownOut x s).permit p = false ∧ ((brownOut x s).lane p).ctd = false ∧ ((brownOut x s).lane p).pbd = false := by
  have hphase : (assertReset (brownOutCode x) s).power.phase = .dormant :=
    (assertReset_dormant ..).2 ((isBrownOut_iff _).1 (isBrownOut_brownOutCode x))
  have hcause := assertReset_cause (brownOutCode x) s
  have hports : ∀ p, (assertReset (brownOutCode x) s).permit p = false ∧ ((assertReset (brownOutCode x) s).lane p).ctd = false ∧
      ((assertReset (brownOutCode x) s).lane p).pbd = false := by
    intro p
    obtain ⟨-, hctd, hpbd, -⟩ := assertReset_drives (brownOutCode x) s p
    exact ⟨assertReset_permit .., hctd, hpbd⟩
  rcases brownOut_cases x s with h | h
  · rw [h]
    exact ⟨hphase, hcause, hports⟩
  · rw [h]
    generalize assertReset (brownOutCode x) s = u at hphase hcause hports ⊢
    exact ⟨hphase, hcause, hports⟩

section
variable {us : Nat} {s : State}

theorem exec_resetNLow_of_glitch (h : us < 5) : exec (.resetNLow us) s = .next s :=
  if_pos (by rw [decide_eq_true h, Bool.or_true])

theorem exec_resetNLow_of_stuck (h : s.power.resetNStuckLow = true) : exec (.resetNLow us) s = .next s :=
  if_pos (by rw [h, Bool.or_true, Bool.true_or])

theorem exec_resetNLow_of_long (hpowered : s.powered = true) (hfree : s.power.resetNStuckLow = false) (hlong : 20 ≤ us) :
    exec (.resetNLow us) s = .next (assertReset 5 s) := by
  have hshort : ¬us < 5 := by omega
  refine (if_neg ?_).trans (if_pos hlong)
  rw [hpowered, hfree, decide_eq_false hshort]
  decide

end

theorem assertReset_time (cause : Nat) (s : State) : (assertReset cause s).time = s.time := reloaded_time s

theorem bare_eventLog {s t : State} (h : s.bare = t.bare) : s.power.eventLog = t.power.eventLog := by
  have e := congrArg (fun u : State => u.power.eventLog) h
  exact e

theorem assertReset_eventLog (cause : Nat) (s : State) : (assertReset cause s).power.eventLog = s.power.eventLog :=
  (bare_eventLog (reloaded_bare s)).trans rfl

/-- The device in reset with code 5: reset now, or held in such a reset already. -/
def State.resetByPin (s : State) : State := if s.power.phase = .supplied ∧ s.power.cause = 5 then s else assertReset 5 s

theorem resetByPin_settled (s : State) : s.resetByPin.power.cause = 5 ∧ s.resetByPin.time = s.time ∧
    s.resetByPin.power.eventLog = s.power.eventLog := by
  unfold State.resetByPin
  split
  · next h => exact ⟨h.2, rfl, rfl⟩
  · exact ⟨assertReset_cause .., assertReset_time .., assertReset_eventLog ..⟩

/-- RESET_N found stuck. -/
def State.pinStuck (s : State) : State := s.withPower { s.power with resetStuck := true, resetNStuckLow := true }

theorem pinStuck_power (s : State) : s.pinStuck.power.cause = s.power.cause ∧ s.pinStuck.power.resetStuck = true ∧
    s.pinStuck.power.resetNStuckLow = true ∧ s.pinStuck.power.eventLog = s.power.eventLog ∧ s.pinStuck.time = s.time :=
  ⟨rfl, rfl, rfl, rfl, rfl⟩

theorem logEvent_flags (e : LoggedEvent) (s : State) : (logEvent e s).power.cause = s.power.cause ∧
    (logEvent e s).power.resetStuck = s.power.resetStuck ∧ (logEvent e s).power.resetNStuckLow = s.power.resetNStuckLow := by
  unfold logEvent toArchive
  dsimp only
  rw [withMemory_power, withPower_power]
  exact ⟨rfl, rfl, rfl⟩

theorem exec_resetNStuck_of_powered {s : State} (hpowered : s.powered = true) (hfree : s.power.resetNStuckLow = false) :
    exec .resetNStuck s = .next (logEvent .resetNStuck s.resetByPin.pinStuck) :=
  if_pos (by rw [hpowered, hfree]; rfl)

theorem resetNStuck_logs (s : State) : (logEvent .resetNStuck s.resetByPin.pinStuck).power.cause = 5 ∧
    (logEvent .resetNStuck s.resetByPin.pinStuck).power.resetStuck = true ∧
    (logEvent .resetNStuck s.resetByPin.pinStuck).power.resetNStuckLow = true ∧
    (logEvent .resetNStuck s.resetByPin.pinStuck).power.eventLog =
      (s.power.eventLog ++ [(s.time, LoggedEvent.resetNStuck)]).drop (s.power.eventLog.length + 1 - 256) := by
  obtain ⟨hcause, htime, hlog⟩ := resetByPin_settled s
  obtain ⟨hcause', hstuck, hlow, hlog', htime'⟩ := pinStuck_power s.resetByPin
  obtain ⟨hc, hs, hl⟩ := logEvent_flags .resetNStuck s.resetByPin.pinStuck
  refine ⟨hc.trans (hcause'.trans hcause), hs.trans hstuck, hl.trans hlow, ?_⟩
  rw [logEvent_eventLog, hlog', hlog, htime', htime]

theorem exec_steepleFatalReset_of_due {s : State} {t : Nat} (h : s.steeple.fatalAt = some t) (hruns : s.power.phase = .running)
    (hdue : t ≤ s.now) : exec .steepleFatalReset s = .next (assertReset 10 s) := by
  have hreset : execSteepleFatalReset s = .next (assertReset 10 s) := by
    unfold execSteepleFatalReset
    rw [h]
    exact if_pos ⟨hruns, due_of_le hdue⟩
  exact hreset

theorem assertReset_uncertain (cause : Nat) (s : State) : (assertReset cause s).keep.uncertain = s.keep.uncertain := by
  have huncertain := congrArg Keep.uncertain (reloaded_keep s)
  exact huncertain

theorem loseAon_uncertain (s : State) : (loseAon s).keep.uncertain = true := rfl

/-- A power-on reset holds the device in reset until the supplies are good (R504, R508). -/
theorem assertReset_powerOn (s : State) : (assertReset 1 s).power.phase = .heldReset := by
  obtain ⟨wanting, hphase⟩ := assertReset_phase 1 s
  exact hphase

/-- The RTC has stopped (R324). -/
def State.rtcStopped (s : State) : State := s.withPower { s.power with rtcLost := true }

theorem rtcStopped_power (s : State) : s.rtcStopped.power.phase = s.power.phase ∧ s.rtcStopped.power.cause = s.power.cause ∧
    s.rtcStopped.power.rtcLost = true ∧ s.rtcStopped.keep = s.keep := ⟨rfl, rfl, rfl, rfl⟩

theorem exec_powerOn_of_off {s : State} (h : s.power.phase = .off) :
    exec .powerOn s = .next (assertReset 1 (loseAon s)).rtcStopped := by
  have hstart : execPowerOn s = .next (assertReset 1 (loseAon s)).rtcStopped := by
    unfold execPowerOn
    rw [if_pos h]
    generalize assertReset 1 (loseAon s) = u
    rfl
  exact hstart

/-- What POWER_ON leaves: the device held in reset, its time uncertain. -/
theorem powerOn_starts (s : State) : (assertReset 1 (loseAon s)).rtcStopped.power.phase = .heldReset ∧
    (assertReset 1 (loseAon s)).rtcStopped.power.cause = 1 ∧ (assertReset 1 (loseAon s)).rtcStopped.power.rtcLost = true ∧
    (assertReset 1 (loseAon s)).rtcStopped.keep.uncertain = true := by
  obtain ⟨hphase, hcause, hlost, hkeep⟩ := rtcStopped_power (assertReset 1 (loseAon s))
  refine ⟨hphase.trans (assertReset_powerOn (loseAon s)), hcause.trans (assertReset_cause 1 (loseAon s)), hlost, ?_⟩
  rw [hkeep, assertReset_uncertain, loseAon_uncertain]

/-! ## Hold-up -/

theorem exec_holdUpEntry_of_running {s : State} (hruns : s.power.phase = .running) (h : s.power.holdUp = false) :
    exec .holdUpEntry s = .next (holdUpEntry s) := if_pos ⟨.inl hruns, h⟩

section
variable {s : State} {v : SupplyView}

theorem holdUp_of_supplyView (h : s.supplyView = v) : s.power.holdUp = v.holdUp := by rw [← h]; rfl

theorem powerOff_of_supplyView (h : s.supplyView = v) : s.power.powerOff = v.powerOff := by rw [← h]; rfl

theorem phase_of_supplyView (h : s.supplyView = v) : s.power.phase = v.phase := by rw [← h]; rfl

end

/-- At its entry hold-up notes the power-off time and begins the mark (R509). -/
theorem holdUpEntry_notes {s : State} (hruns : s.power.phase = .running) : (holdUpEntry s).power.holdUp = true ∧
    (holdUpEntry s).power.powerOff = some s.time ∧ (holdUpEntry s).power.phase = .running ∧
    (s.keepUp = true → (holdUpEntry s).keep.mark = none ∧ (holdUpEntry s).keep.marking.isSome = true) := by
  have hview := holdUpEntry_supplyView s
  exact ⟨holdUp_of_supplyView hview, powerOff_of_supplyView hview, (phase_of_supplyView hview).trans hruns, holdUpEntry_mark⟩

/-- The end of hold-up, before it is told. -/
def State.heldUpEnded (s : State) : State :=
  ((s.withPower { s.power with holdUp := false, powerOff := none }).withKeep { s.keep with mark := none, marking := none }).withSteeple
    { s.steeple with vddioLow := false }

theorem exec_holdUpEnd_of_held {s : State} (h : s.power.holdUp = true) :
    exec .holdUpEnd s = .next (raiseSupplyState 0 (catchUpMirrors s.heldUpEnded)) := if_pos h

/-- Hold-up over, the power-off time is cleared and the mark voided (R510). -/
theorem holdUpEnd_clears (s : State) : (raiseSupplyState 0 (catchUpMirrors s.heldUpEnded)).power.holdUp = false ∧
    (raiseSupplyState 0 (catchUpMirrors s.heldUpEnded)).power.powerOff = none ∧
    (raiseSupplyState 0 (catchUpMirrors s.heldUpEnded)).keep.mark = none ∧
    (raiseSupplyState 0 (catchUpMirrors s.heldUpEnded)).keep.marking = none := by
  have hview : (raiseSupplyState 0 (catchUpMirrors s.heldUpEnded)).supplyView = s.heldUpEnded.supplyView :=
    (raise_supplyView ..).trans (supplyView_of_power (withRotunda_power ..))
  have hkeep : (raiseSupplyState 0 (catchUpMirrors s.heldUpEnded)).keep = s.heldUpEnded.keep :=
    (raise_keep ..).trans (withRotunda_keep ..)
  rw [hkeep]
  exact ⟨holdUp_of_supplyView hview, powerOff_of_supplyView hview, rfl, rfl⟩

theorem exec_permitsRestored_of_due {s : State} (hup : s.steepleUp = true) (hstop : s.steeple.supplyStop = true)
    (hgood : s.steeple.suppliesOut = []) (hpower : s.power.holdUp = false) (hdue : s.steeple.suppliesGoodAt + 1000 ≤ s.now) :
    exec .permitsRestored s = .next (grantPermits (s.withSteeple { s.steeple with supplyStop := false })) :=
  if_pos (by rw [hup, hstop, hgood, hpower, due_of_le hdue]; rfl)

/-- Settles O57. That a stuck RESET_N goes to the event log (log 129), and in which phase the supplies count as good after which code
(log 122), are the model's choices. -/
theorem powerRows : Obligations.PowerRows := by
  unfold Obligations.PowerRows
  refine ⟨?softReset, ?busy, ?dormant, fun s d => exec_shutdownOpeningsTimeout_of_due, fun s t => exec_softResetExecute_of_due, ?entry,
    ?brownOut, fun us s => exec_resetNLow_of_glitch, fun us s => exec_resetNLow_of_long, ?stuck, fun us s => exec_resetNLow_of_stuck,
    fun s => rfl, fun s t => exec_steepleFatalReset_of_due, fun s h => ⟨_, exec_powerOn_of_off h, powerOn_starts s⟩, ?suppliesGood, fun s h => if_pos h,
    fun low s h => if_pos h, fun s h => if_pos (.inl h), ?holdUp, ?holdUpEnd, fun s => exec_permitsRestored_of_due⟩
  case softReset =>
    intro b f r s hasked hlen hhandle hmode hidle hfree
    rw [← anyBusy_of_unlinked (taken_unlinked s b f)] at hidle
    rw [← shuttingDown_of_unlinked (taken_unlinked s b f)] at hfree
    obtain ⟨hshutdown, hwanted, -⟩ := shutdownRequest_asks (dormant := false) hlen hhandle hmode hidle hfree
    rw [taken_now] at hshutdown
    rw [taken_keep] at hwanted
    exact ⟨_, hasked.exec_softReset, hshutdown, hwanted⟩
  case busy =>
    rintro b f r s hasked ⟨hlen, hhandle, hmode, hbusy⟩
    rw [hasked.exec_softReset, shutdownRequest_of_busy hlen hhandle hmode hbusy]
    rfl
  case dormant =>
    intro b f r s hasked hlen hhandle hmode hidle hfree
    rw [← anyBusy_of_unlinked (taken_unlinked s b f)] at hidle
    rw [← shuttingDown_of_unlinked (taken_unlinked s b f)] at hfree
    obtain ⟨hshutdown, hwanted, hclaim⟩ := shutdownRequest_asks (dormant := true) hlen hhandle hmode hidle hfree
    rw [taken_now] at hshutdown
    rw [taken_keep] at hwanted
    exact ⟨_, hasked.exec_dormant, hshutdown, hwanted, hclaim rfl⟩
  case entry =>
    intro s t hpending haon hdue hpower hwake
    exact ⟨_, exec_dormantEntry_of_due hpending haon hdue, enterDormant_stays hpower hwake⟩
  case brownOut => exact fun x s hpowered => ⟨_, if_pos hpowered, brownOut_rests x s⟩
  case stuck => exact fun s hpowered hfree => ⟨_, exec_resetNStuck_of_powered hpowered hfree, resetNStuck_logs s⟩
  case suppliesGood => exact fun s h => ⟨_, if_pos h, rfl, rfl, rfl⟩
  case holdUp => exact fun s hruns h => ⟨_, exec_holdUpEntry_of_running hruns h, holdUpEntry_notes hruns⟩
  case holdUpEnd => exact fun s h => ⟨_, exec_holdUpEnd_of_held h, holdUpEnd_clears s⟩

end Sys2Proof.Machine
end
